-- ==== Sys2Proof/Word.lean ====
section
/-! DEFINITION. The word types of the Stolsum H12 (R3 to R5): bytes, words, doubles, register numbers.
Everything computed from them (fields, sign extension, byte order) stands in Sys2Proof/Machine/Bits.lean. -/

namespace Sys2Proof

/-- A byte, 8 bits (R5). -/
abbrev Byte := BitVec 8

/-- A word, 32 bits (R5): a CP instruction word, a count, a lane. -/
abbrev Word32 := BitVec 32

/-- A double, 64 bits (R5): a general register, a system register, a block instruction. -/
abbrev Word := BitVec 64

/-- A 5-bit register field, naming g0 to g31 (R289). -/
abbrev Reg := BitVec 5

/-- A decoupling-queue entry number, q0 to q15 (R192). -/
abbrev QNum := BitVec 4

end Sys2Proof
end

