-- ==== Sys2Proof/Syntax.lean ====
section
/-! DEFINITION. The instructions and events of the Stolsum H12 as syntax: one constructor of Instr per row of
spec/opcode_table.json. A control-processor instruction carries its operand fields (R289), an element instruction its
block word (R307), an event the agent it happens at and what it carries from outside the machine. -/

namespace Sys2Proof

/-- The ordering annotations of R294 and R211. -/
inductive Ann where
  | rlx | acq | rel | ar
  deriving DecidableEq, Repr

/-- The four memory scopes of R14, in the order of their codes (R292). -/
inductive Scope where
  | core | card | deck | dom
  deriving DecidableEq, Repr

/-- The width codes of R292. -/
inductive Width where
  | byte | half | word | double
  deriving DecidableEq, Repr

/-- The width of an atomic, W[2] of R294. -/
inductive AWidth where
  | word | double
  deriving DecidableEq, Repr

/-- One target of a block instruction (R307): valid bit, consumer index, operand slot, buffer slots. -/
structure Target where
  v : Bool
  idx : BitVec 7
  slot : BitVec 2
  buf : BitVec 2
  deriving DecidableEq, Repr

/-- A block instruction without its opcode (R307): type code, two targets, modifier. -/
structure Blk where
  tcode : BitVec 5
  t0 : Target
  t1 : Target
  modf : BitVec 25
  deriving DecidableEq, Repr

/-- The operation a queued access asks its home for (R294, R295). -/
inductive QOp where
  | ldq | stq | aadd | amin | amax | aminu | amaxu | aand | aor | axor | aswp | acas | asnap | aaddf
  deriving DecidableEq, Repr

/-- A remote request as it arrives from another package (R68, R71): source package, context and core, request
sequence number, local address, operation, width in bytes (of a burst up to 4,096), operand or bytes, and compare value; of a
request whose page is parked, its virtual address and the size of the page as a power of two (R203). -/
structure RemoteMsg where
  pkg : Nat
  ctx : Nat
  core : Nat
  seq : BitVec 32
  addr : Nat
  op : QOp
  bytes : Nat
  data : Nat
  cmp : Nat
  parked : Option (Nat × Nat) := none
  deriving DecidableEq, Repr

/-- What an uncorrectable flit belonged to (R83): a graph arc's channel, or the request of a core's queue entry. -/
inductive FlitOwner where
  | arc (ch : Nat) (ordinal : Nat)
  | request (c : Nat) (q : Nat)
  deriving DecidableEq, Repr

/-- An SPDM request as it arrives on an interface (R109): the interface (0 MCTP, 1 DOE), whether the requester offers
the SM2 and SM3 algorithms, the certificate slot, the part of the chain asked for, the measurement index, the nonce. -/
structure SpdmReq where
  iface : Nat
  sm2 : Bool
  sm3 : Bool
  slot : Nat
  off : Nat
  len : Nat
  index : Nat
  nonce : List Byte
  deriving DecidableEq, Repr

/-- The instructions and events of the part, one constructor per row of the table of operations and events. -/
inductive Instr where
  /-- ADD (R322): Writes x + y to rd -/
  | add (d : Reg) (a : Reg) (b : Reg)
  /-- SUB (R322): Writes x − y to rd -/
  | sub (d : Reg) (a : Reg) (b : Reg)
  /-- MUL (R322): Writes the low 64 bits of x × y to rd -/
  | mul (d : Reg) (a : Reg) (b : Reg)
  /-- MULH (R322): Writes the high 64 bits of the signed product to rd -/
  | mulh (d : Reg) (a : Reg) (b : Reg)
  /-- MULHU (R322): Writes the high 64 bits of the unsigned product to rd -/
  | mulhu (d : Reg) (a : Reg) (b : Reg)
  /-- DIV (R323): Signed division truncating towards zero, with defined results for a zero divisor and for overflow -/
  | div (d : Reg) (a : Reg) (b : Reg)
  /-- DIVU (R323): Unsigned division, with a defined result for a zero divisor -/
  | divu (d : Reg) (a : Reg) (b : Reg)
  /-- REM (R323): Signed remainder, which takes the sign of the dividend -/
  | rem (d : Reg) (a : Reg) (b : Reg)
  /-- REMU (R323): Unsigned remainder -/
  | remu (d : Reg) (a : Reg) (b : Reg)
  /-- AND (R322): Bitwise AND of x and y -/
  | and (d : Reg) (a : Reg) (b : Reg)
  /-- OR (R322): Bitwise OR of x and y -/
  | or (d : Reg) (a : Reg) (b : Reg)
  /-- XOR (R322): Bitwise XOR of x and y -/
  | xor (d : Reg) (a : Reg) (b : Reg)
  /-- ANDN (R322): Writes x AND NOT y to rd -/
  | andn (d : Reg) (a : Reg) (b : Reg)
  /-- SHL (R322): Shifts x left by y[5:0] -/
  | shl (d : Reg) (a : Reg) (b : Reg)
  /-- SHR (R322): Shifts x right by y[5:0], filling with zeros -/
  | shr (d : Reg) (a : Reg) (b : Reg)
  /-- SRA (R322): Shifts x right by y[5:0], filling with copies of bit 63 -/
  | sra (d : Reg) (a : Reg) (b : Reg)
  /-- ROTL (R322): Rotates x left by y[5:0] -/
  | rotl (d : Reg) (a : Reg) (b : Reg)
  /-- MIN (R322): Writes the signed minimum of x and y -/
  | min (d : Reg) (a : Reg) (b : Reg)
  /-- MAX (R322): Writes the signed maximum of x and y -/
  | max (d : Reg) (a : Reg) (b : Reg)
  /-- MINU (R322): Writes the unsigned minimum of x and y -/
  | minu (d : Reg) (a : Reg) (b : Reg)
  /-- MAXU (R322): Writes the unsigned maximum of x and y -/
  | maxu (d : Reg) (a : Reg) (b : Reg)
  /-- SLT (R322): Signed less-than compare, writing 0 or 1 -/
  | slt (d : Reg) (a : Reg) (b : Reg)
  /-- SLTU (R322): Unsigned less-than compare, writing 0 or 1 -/
  | sltu (d : Reg) (a : Reg) (b : Reg)
  /-- SEQ (R322): Equality compare, writing 0 or 1 -/
  | seq (d : Reg) (a : Reg) (b : Reg)
  /-- CLZ (R324): Counts the leading zero bits of x -/
  | clz (d : Reg) (a : Reg)
  /-- CTZ (R324): Counts the trailing zero bits of x -/
  | ctz (d : Reg) (a : Reg)
  /-- POPC (R324): Counts the one bits of x -/
  | popc (d : Reg) (a : Reg)
  /-- BREV (R324): Reverses the bits of x -/
  | brev (d : Reg) (a : Reg)
  /-- BEXT (R324): Extracts a bit field of x -/
  | bext (d : Reg) (a : Reg) (b : Reg)
  /-- BINS (R324): Inserts a field of x into rd -/
  | bins (d : Reg) (a : Reg) (b : Reg)
  /-- SEXT (R324): Sign-extends x from bit y[5:0] -/
  | sext (d : Reg) (a : Reg) (b : Reg)
  /-- ADDI (R325): Adds the sign-extended immediate to x -/
  | addi (d : Reg) (a : Reg) (i : BitVec 16)
  /-- ANDI (R325): ANDs x with the zero-extended immediate -/
  | andi (d : Reg) (a : Reg) (i : BitVec 16)
  /-- ORI (R325): ORs x with the zero-extended immediate -/
  | ori (d : Reg) (a : Reg) (i : BitVec 16)
  /-- XORI (R325): XORs x with the zero-extended immediate -/
  | xori (d : Reg) (a : Reg) (i : BitVec 16)
  /-- SHLI (R325): Shifts x left by an immediate amount; an amount above 63 raises ENC.15 -/
  | shli (d : Reg) (a : Reg) (i : BitVec 16)
  /-- SHRI (R325): Shifts x right logically by an immediate amount -/
  | shri (d : Reg) (a : Reg) (i : BitVec 16)
  /-- SRAI (R325): Shifts x right arithmetically by an immediate amount -/
  | srai (d : Reg) (a : Reg) (i : BitVec 16)
  /-- SLTI (R325): Signed compare of x with the sign-extended immediate -/
  | slti (d : Reg) (a : Reg) (i : BitVec 16)
  /-- SLTIU (R325): Unsigned compare of x with the zero-extended immediate -/
  | sltiu (d : Reg) (a : Reg) (i : BitVec 16)
  /-- LUI (R325): Writes the sign-extended value of imm16 << 16 to rd -/
  | lui (d : Reg) (i : BitVec 16)
  /-- LIX (R326): Writes (x[31:0] << 32) or imm32 to rd from a two-word instruction -/
  | lix (d : Reg) (a : Reg) (i : BitVec 32)
  /-- JAL (R328): Jumps to a pc-relative target and links a + 4 into rd -/
  | jal (d : Reg) (o : BitVec 21)
  /-- JALR (R328): Jumps to x + imm and links; a misaligned target raises CPM.13 -/
  | jalr (d : Reg) (a : Reg) (i : BitVec 16)
  /-- BEQ (R327): Branches when x = y -/
  | beq (a : Reg) (b : Reg) (o : BitVec 16)
  /-- BNE (R327): Branches when x ≠ y -/
  | bne (a : Reg) (b : Reg) (o : BitVec 16)
  /-- BLT (R327): Branches on signed less-than -/
  | blt (a : Reg) (b : Reg) (o : BitVec 16)
  /-- BGE (R327): Branches on signed greater-or-equal -/
  | bge (a : Reg) (b : Reg) (o : BitVec 16)
  /-- BLTU (R327): Branches on unsigned less-than -/
  | bltu (a : Reg) (b : Reg) (o : BitVec 16)
  /-- BGEU (R327): Branches on unsigned greater-or-equal -/
  | bgeu (a : Reg) (b : Reg) (o : BitVec 16)
  /-- LDB (R329): Direct load of a byte, sign-extended -/
  | ldb (d : Reg) (a : Reg) (i : BitVec 16)
  /-- LDBU (R329): Direct load of a byte, zero-extended -/
  | ldbu (d : Reg) (a : Reg) (i : BitVec 16)
  /-- LDH (R329): Direct load of a half, sign-extended -/
  | ldh (d : Reg) (a : Reg) (i : BitVec 16)
  /-- LDHU (R329): Direct load of a half, zero-extended -/
  | ldhu (d : Reg) (a : Reg) (i : BitVec 16)
  /-- LDW (R329): Direct load of a word, sign-extended -/
  | ldw (d : Reg) (a : Reg) (i : BitVec 16)
  /-- LDWU (R329): Direct load of a word, zero-extended -/
  | ldwu (d : Reg) (a : Reg) (i : BitVec 16)
  /-- LDD (R329): Direct load of a double from own tile SRAM or the deck-window replica -/
  | ldd (d : Reg) (a : Reg) (i : BitVec 16)
  /-- LDA (R330): Aligned direct load with acquire at the scope it names -/
  | lda (d : Reg) (a : Reg) (s : Scope) (w : Width) (i : BitVec 12)
  /-- STB (R329): Direct store of a byte -/
  | stb (b : Reg) (a : Reg) (i : BitVec 16)
  /-- STH (R329): Direct store of a half -/
  | sth (b : Reg) (a : Reg) (i : BitVec 16)
  /-- STW (R329): Direct store of a word -/
  | stw (b : Reg) (a : Reg) (i : BitVec 16)
  /-- STD (R329): Direct store of a double -/
  | std (b : Reg) (a : Reg) (i : BitVec 16)
  /-- STL (R330): Aligned direct store with release; waits for earlier accesses and traps ATM.15 if any of them faulted -/
  | stl (b : Reg) (a : Reg) (s : Scope) (w : Width) (i : BitVec 12)
  /-- LDQ (R331): Issues a queued load into entry qn -/
  | ldq (a : Reg) (q : QNum) (n : Ann) (s : Scope) (w : Width)
  /-- STQ (R331): Issues a queued store into entry qn -/
  | stq (a : Reg) (b : Reg) (q : QNum) (n : Ann) (s : Scope) (w : Width)
  /-- AADD (R333): Queued atomic add -/
  | aadd (a : Reg) (b : Reg) (q : QNum) (n : Ann) (s : Scope) (w : AWidth)
  /-- AMIN (R333): Queued atomic signed minimum -/
  | amin (a : Reg) (b : Reg) (q : QNum) (n : Ann) (s : Scope) (w : AWidth)
  /-- AMAX (R333): Queued atomic signed maximum -/
  | amax (a : Reg) (b : Reg) (q : QNum) (n : Ann) (s : Scope) (w : AWidth)
  /-- AMINU (R333): Queued atomic unsigned minimum -/
  | aminu (a : Reg) (b : Reg) (q : QNum) (n : Ann) (s : Scope) (w : AWidth)
  /-- AMAXU (R333): Queued atomic unsigned maximum -/
  | amaxu (a : Reg) (b : Reg) (q : QNum) (n : Ann) (s : Scope) (w : AWidth)
  /-- AAND (R333): Queued atomic AND -/
  | aand (a : Reg) (b : Reg) (q : QNum) (n : Ann) (s : Scope) (w : AWidth)
  /-- AOR (R333): Queued atomic OR -/
  | aor (a : Reg) (b : Reg) (q : QNum) (n : Ann) (s : Scope) (w : AWidth)
  /-- AXOR (R333): Queued atomic XOR -/
  | axor (a : Reg) (b : Reg) (q : QNum) (n : Ann) (s : Scope) (w : AWidth)
  /-- ASWP (R333): Queued atomic swap -/
  | aswp (a : Reg) (b : Reg) (q : QNum) (n : Ann) (s : Scope) (w : AWidth)
  /-- ACAS (R333): Queued atomic compare-and-swap, with the compare value taken from rd -/
  | acas (d : Reg) (a : Reg) (b : Reg) (q : QNum) (n : Ann) (s : Scope) (w : AWidth)
  /-- ASNAP (R333): Queued atomic that returns the counter and sets it to zero -/
  | asnap (a : Reg) (q : QNum) (n : Ann) (s : Scope) (w : AWidth)
  /-- AADDF (R333): Queued atomic FP32 add; the double width completes with ATM.2 -/
  | aaddf (a : Reg) (b : Reg) (q : QNum) (n : Ann) (s : Scope) (w : AWidth)
  /-- WAITQ_SRC (R334): Waits until a store-type entry has released its source, then reports its cause -/
  | waitqSrc (d : Reg) (q : QNum)
  /-- WAITQ_VIS (R334): Waits until an entry is visible or complete, then reports and acknowledges its cause -/
  | waitqVis (d : Reg) (q : QNum)
  /-- POPQ (R335): Waits for an entry to complete, returns its response and frees it; an unacknowledged fault traps CPX.7 -/
  | popq (d : Reg) (q : QNum)
  /-- NOP (R344): No effect -/
  | nop
  /-- FENCE_CORE (R337): Waits until earlier CORE-scope accesses are visible or complete -/
  | fenceCore
  /-- FENCE_CARD (R337): Waits until earlier CARD-scope accesses are visible or complete -/
  | fenceCard
  /-- FENCE_DECK (R337): Waits until earlier DECK-scope accesses are visible or complete -/
  | fenceDeck
  /-- FENCE_DOM (R337): Waits until earlier DOMAIN-scope accesses are visible or complete -/
  | fenceDom
  /-- FENCEI (R337): Discards fetched words so that later fetches see earlier stores to the code region -/
  | fencei
  /-- ERET (R342): Returns from a trap to sr.epc in mode PMODE and clears INTRAP -/
  | eret
  /-- WFE (R343): Clears the event flag, or waits for a wake event -/
  | wfe
  /-- SEV (R343): Sets the event flag of every core of the card that holds the graph -/
  | sev
  /-- HALT (R344): Stops the CP and reports CPX.11 to management -/
  | halt
  /-- BRK (R341): Raises DBG.3: enters the handler, or starts a cut in U mode -/
  | brk
  /-- TRAP (R340): Raises CPX.8 with its argument in sr.tval -/
  | trap (i : BitVec 16)
  /-- SRD (R339): Reads a system register, after checks of number and mode -/
  | srd (d : Reg) (n : BitVec 12)
  /-- SWR (R339): Writes a system register, after checks of mode, writability and value -/
  | swr (a : Reg) (n : BitVec 12)
  /-- GLOAD (R351): Starts loading a library block into the shadow plane -/
  | gload (a : Reg)
  /-- GSWAP_DRAIN (R352): Stops the entry ports and arms a drain-gated swap -/
  | gswapDrain
  /-- GSWAP_EOS (R352): Arms a wavefront swap -/
  | gswapEos
  /-- GGO (R353): Sends a go-ahead to every root controller of the active plane -/
  | ggo
  /-- GGO_RES (R353): Releases a hold that GSTOP placed -/
  | ggoRes
  /-- GSTOP (R353): Holds every element, router and controller of the grid -/
  | gstop
  /-- GSTAT (R354): Returns the grid status word -/
  | gstat (d : Reg)
  /-- GSTV (R355): Copies 256 bytes into an element's loading stationary vector -/
  | gstv (a : Reg) (b : Reg)
  /-- GSTV_ACT (R355): Waits for an idle plane, then copies into an element's active stationary vector -/
  | gstvAct (a : Reg) (b : Reg)
  /-- SRDS (R358): Issues a read stream command and returns its ticket -/
  | srds (d : Reg) (a : Reg) (e : BitVec 1)
  /-- SWRS (R358): Issues a write stream command and returns its ticket -/
  | swrs (d : Reg) (a : Reg) (e : BitVec 1)
  /-- SCPY (R358): Issues a copy stream on a read and write engine pair -/
  | scpy (d : Reg) (a : Reg) (e : BitVec 1)
  /-- SAGC (R361): Sets an address-generator chain from a 48-byte record -/
  | sagc (a : Reg) (b : Reg) (c : BitVec 3)
  /-- SXLT (R362): Sets the translation mode of a stream engine -/
  | sxlt (a : Reg) (e : BitVec 2)
  /-- SWAIT_SRC (R363): Waits for a stream command's source-released event -/
  | swaitSrc (a : Reg)
  /-- SWAIT_VIS (R363): Waits for a stream command's visible event -/
  | swaitVis (a : Reg)
  /-- RWSET (R364): Attaches a window descriptor to an unbound port -/
  | rwset (a : Reg) (b : Reg)
  /-- RWRST (R365): Releases an attached window descriptor and discards its tokens -/
  | rwrst (a : Reg)
  /-- RWQRY (R365): Returns the status of a window descriptor -/
  | rwqry (d : Reg) (a : Reg)
  /-- FDONE (R366): Waits for the blocks and streams, checks the rate counts, advances read pointers and ends the firing -/
  | fdone
  /-- FABORT (R367): Raises RATE.12 and halts the graph -/
  | fabort (a : Reg)
  /-- MODE (R368): Sends a mode token on the actor's mode output port -/
  | mode (a : Reg)
  /-- MWAIT (R369): Waits until the mode controller sets M for the pending token, or discards or abandons it -/
  | mwait (d : Reg)
  /-- LNCH (R370): Releases earlier writes and requests the creation of a graph, completing entry qn with a launch ticket -/
  | lnch (a : Reg) (b : Reg) (q : QNum)
  /-- LWAIT (R371): Waits for a launched graph's outcome -/
  | lwait (d : Reg) (a : Reg)
  /-- BARI (R372): Initialises a barrier's count and scope -/
  | bari (a : Reg) (b : Reg) (n : BitVec 3)
  /-- BARA (R373): Arrives at a barrier as a release and returns a phase token -/
  | bara (d : Reg) (n : BitVec 3)
  /-- BARW (R374): Waits until the phase is complete, as an acquire -/
  | barw (a : Reg)
  /-- BART (R374): Tests whether the phase is complete -/
  | bart (d : Reg) (a : Reg)
  /-- DKST (R375): Copies source bytes and queues a deck-window write -/
  | dkst (a : Reg) (b : Reg)
  /-- DKADD (R376): Queues a deck atomic add into entry qn -/
  | dkadd (a : Reg) (b : Reg) (w : AWidth) (q : QNum)
  /-- DKCAS (R376): Queues a deck atomic compare-and-swap into entry qn -/
  | dkcas (d : Reg) (a : Reg) (b : Reg) (w : AWidth) (q : QNum)
  /-- DKSYNC (R377): Waits until the core's earlier window operations are applied at its own card's replica -/
  | dksync
  /-- RNGK (R378): Sets an RNG stream's key -/
  | rngk (a : Reg) (s : BitVec 3)
  /-- RNGC (R378): Sets an RNG stream's 128-bit counter -/
  | rngc (a : Reg) (b : Reg) (s : BitVec 3)
  /-- RNGD (R378): Makes one draw and returns two words -/
  | rngd (d : Reg) (s : BitVec 3)
  /-- RNGD_ST (R378): Makes one draw, returns two words and stores all four -/
  | rngdSt (d : Reg) (a : Reg) (s : BitVec 3)
  /-- APND_SET (R379): Sets an append region from its record -/
  | apndSet (a : Reg) (n : BitVec 3)
  /-- APND_ROW (R380): Appends a tentative row to a region -/
  | apndRow (d : Reg) (a : Reg) (n : BitVec 3)
  /-- MARK (R380): Commits the tentative rows and stores the length -/
  | mark (n : BitVec 3)
  /-- FOLD (R380): Keeps x tentative rows, discards the rest and stores the length -/
  | fold (a : Reg) (n : BitVec 3)
  /-- STATS (R381): Writes the activity records of all 128 elements -/
  | stats (a : Reg)
  /-- CUTM_START (R382): Starts a cut of a graph -/
  | cutmStart (a : Reg)
  /-- CUTM_REL (R382): Releases a cut graph -/
  | cutmRel (a : Reg)
  /-- TKBP (R383): Arms a token breakpoint -/
  | tkbp (a : Reg) (b : Reg)
  /-- TKBP_CLR (R383): Clears every breakpoint of a core -/
  | tkbpClr (a : Reg)
  /-- FRZ (R384): Requests the freeze of a graph with origin 2 -/
  | frz (a : Reg) (q : QNum)
  /-- THAW (R385): Re-queues a held frozen graph -/
  | thaw (a : Reg) (q : QNum)
  /-- PWRQ (R386): Returns the grant of an island -/
  | pwrq (d : Reg) (a : Reg)
  /-- QUOTE (R110): Requests a signed quote from the security block -/
  | quote (a : Reg) (b : Reg) (q : QNum)
  /-- QUOTE_EXT (R110): Requests the extend of a measurement slot -/
  | quoteExt (a : Reg) (b : Reg) (q : QNum)
  /-- MXB (R433): Queues a load of the loading B buffer from tile SRAM -/
  | mxb (a : Reg) (b : Reg)
  /-- MXB_PB (R433): Queues a load of the loading B buffer from port pmb -/
  | mxbPb (b : Reg)
  /-- MXSW (R434): Queues an exchange of the active and loading B buffers -/
  | mxsw
  /-- MXMM (R435): Queues a multiply of an A tile from tile SRAM into a bank -/
  | mxmm (a : Reg) (b : Reg) (n : BitVec 2)
  /-- MXMM_PA (R435): Queues a multiply of an A tile from port pma into a bank -/
  | mxmmPa (b : Reg) (n : BitVec 2)
  /-- MXACC_CLR (R439): Queues the clearing of a bank and the setting of its mode and exponent -/
  | mxaccClr (b : Reg) (n : BitVec 2)
  /-- MXACC_QRY (R439): Returns the status of a bank -/
  | mxaccQry (d : Reg) (n : BitVec 2)
  /-- MXACC_OUTS (R439): Queues the output of a bank's rows to tile SRAM -/
  | mxaccOuts (a : Reg) (b : Reg) (n : BitVec 2)
  /-- MXACC_OUTP (R439): Queues the output of a bank's rows to port pmo -/
  | mxaccOutp (b : Reg) (n : BitVec 2)
  /-- MXSORT (R441): Queues a sort from a sort record -/
  | mxsort (a : Reg) (k : BitVec 1) (i : BitVec 1)
  /-- MXGANG (R440): Queues the setting of gang mode on or off -/
  | mxgang (a : Reg)
  /-- MXWAIT (R443): Waits for the selected queues to complete and returns their completion counts -/
  | mxwait (d : Reg) (s : BitVec 2)
  /-- MLDG (R448): Checks and loads a meld graph into free nodes -/
  | mldg (d : Reg) (a : Reg)
  /-- MLCHK (R449): Returns the meld array status -/
  | mlchk (d : Reg)
  /-- MLCHK_REC (R449): Returns the cause an MLDG of the record would raise now, or 0 -/
  | mlchkRec (d : Reg) (a : Reg)
  /-- MLFREE (R450): Queues the freeing of a meld graph -/
  | mlfree (m : BitVec 4)
  /-- MLRUN (R451): Queues a run of V input vectors through a meld graph -/
  | mlrun (a : Reg) (b : Reg) (m : BitVec 4)
  /-- MLCUT (R450): Queues the setting of a meld graph's cut -/
  | mlcut (a : Reg) (m : BitVec 4)
  /-- MXB_LOAD (R433): The load lane aligns B and fills the loading buffer, which becomes valid -/
  | mxbLoad (c : Nat)
  /-- MXSW_EXCHANGE (R434): Once earlier commands complete, the B buffers are exchanged in one cycle -/
  | mxswExchange (c : Nat)
  /-- MXMM_EXECUTE (R436): The engine accumulates k-group products into the bank and records completion -/
  | mxmmExecute (c : Nat)
  /-- MXACC_EXECUTE (R439): A queued clr, outs or outp runs on its bank -/
  | mxaccExecute (c : Nat)
  /-- MXSORT_EXECUTE (R442): The array sorts the keys and writes keys and indices -/
  | mxsortExecute (c : Nat)
  /-- MXGANG_EXECUTE (R440): Gang mode turns on or off in queue order -/
  | mxgangExecute (c : Nat)
  /-- MELD_RUN (R451): A queued run converts each vector to SD16, passes it through the graph and delivers the cut taps -/
  | meldRun (c : Nat)
  /-- MLFREE_COMPLETE (R450): A graph's nodes and id become free -/
  | mlfreeComplete (c : Nat)
  /-- MLCUT_EXECUTE (R450): A graph's cut is set for later runs -/
  | mlcutExecute (c : Nat)
  /-- ELEM_NOP (R426): An element passes its input unchanged -/
  | elemNop (b : Blk)
  /-- CONST (R426): For each ctl token, emits a constant or the stationary vector, and DONE for a GO -/
  | const (b : Blk)
  /-- SINK (R426): Consumes its input and every mark -/
  | sink (b : Blk)
  /-- COPY (R426): Emits each token and mark on both targets -/
  | copy (b : Blk)
  /-- ELEM_ADD (R401): Lane-wise add, rounded once -/
  | elemAdd (b : Blk)
  /-- ELEM_SUB (R401): Lane-wise subtract, rounded once -/
  | elemSub (b : Blk)
  /-- ELEM_MUL (R401): Lane-wise multiply -/
  | elemMul (b : Blk)
  /-- FMA (R401): Lane-wise fused x × y + z -/
  | fma (b : Blk)
  /-- FMS (R401): Lane-wise fused x × y − z -/
  | fms (b : Blk)
  /-- NFMA (R401): Lane-wise fused z − x × y -/
  | nfma (b : Blk)
  /-- ELEM_MIN (R401): Lane-wise minimum -/
  | elemMin (b : Blk)
  /-- ELEM_MAX (R401): Lane-wise maximum -/
  | elemMax (b : Blk)
  /-- ABS (R401): Lane-wise absolute value -/
  | abs (b : Blk)
  /-- NEG (R401): Lane-wise negation -/
  | neg (b : Blk)
  /-- ELEM_AND (R402): Lane-wise AND -/
  | elemAnd (b : Blk)
  /-- ELEM_OR (R402): Lane-wise OR -/
  | elemOr (b : Blk)
  /-- ELEM_XOR (R402): Lane-wise XOR -/
  | elemXor (b : Blk)
  /-- NOT (R402): Lane-wise NOT -/
  | not (b : Blk)
  /-- ELEM_SHL (R402): Lane-wise shift left -/
  | elemShl (b : Blk)
  /-- ELEM_SHR (R402): Lane-wise logical shift right -/
  | elemShr (b : Blk)
  /-- ELEM_SRA (R402): Lane-wise arithmetic shift right -/
  | elemSra (b : Blk)
  /-- CLAMP (R402): Lane-wise clamp of x to [y, z] -/
  | clamp (b : Blk)
  /-- CMPEQ (R403): Lane-wise equality compare to BOOL -/
  | cmpeq (b : Blk)
  /-- CMPLT (R403): Lane-wise less-than compare to BOOL -/
  | cmplt (b : Blk)
  /-- CMPLE (R403): Lane-wise less-or-equal compare to BOOL -/
  | cmple (b : Blk)
  /-- SEL (R403): Lane-wise select of x or y by a BOOL link -/
  | sel (b : Blk)
  /-- EXP2 (R404): Lane-wise correctly rounded 2^x -/
  | exp2 (b : Blk)
  /-- LOG2 (R404): Lane-wise correctly rounded log2 x -/
  | log2 (b : Blk)
  /-- RCP (R404): Lane-wise correctly rounded reciprocal -/
  | rcp (b : Blk)
  /-- RSQ (R404): Lane-wise correctly rounded reciprocal square root -/
  | rsq (b : Blk)
  /-- CVT (R405): Converts each lane to the destination type -/
  | cvt (b : Blk)
  /-- QBLK (R405): Quantises a token into block-scaled blocks -/
  | qblk (b : Blk)
  /-- DQBLK (R405): Dequantises block-scaled blocks -/
  | dqblk (b : Blk)
  /-- TOSD (R405): Converts a token to SD16 -/
  | tosd (b : Blk)
  /-- FROMSD (R405): Converts an SD16 token to another type -/
  | fromsd (b : Blk)
  /-- BPLN (R406): Emits p bit-plane tokens of a token -/
  | bpln (b : Blk)
  /-- RSUM (R407): Sums the lanes, or accumulates the sums until EOT -/
  | rsum (b : Blk)
  /-- RMAX (R407): Takes the lane maximum, per token or until EOT -/
  | rmax (b : Blk)
  /-- RMIN (R407): Takes the lane minimum, per token or until EOT -/
  | rmin (b : Blk)
  /-- BCAST (R407): Broadcasts one lane to all lanes -/
  | bcast (b : Blk)
  /-- SHUF (R407): Permutes lanes by an index link -/
  | shuf (b : Blk)
  /-- ELEM_ROTL (R407): Rotates lanes by a fixed amount -/
  | elemRotl (b : Blk)
  /-- SLD (R408): Writes each token into another element's loading stationary vector -/
  | sld (b : Blk)
  /-- SWAP (R409): Passes data and emits a SWAP mark for each ctl token -/
  | swap (b : Blk)
  /-- STEER (R410): Routes each token to one of two targets by a BOOL -/
  | steer (b : Blk)
  /-- MERGE (R410): Takes a token from one of two inputs by a BOOL -/
  | merge (b : Blk)
  /-- CARRY (R411): Keeps loop state, taking the initial value or the looped-back value -/
  | carry (b : Blk)
  /-- INVAR (R411): Holds a loop invariant and re-emits it while the condition is true -/
  | invar (b : Blk)
  /-- LGEN (R412): For each GO, runs a loop nest emitting index tokens, EOD marks and DONE -/
  | lgen (b : Blk)
  /-- AGEN (R413): Turns each index token into an address token -/
  | agen (b : Blk)
  /-- AGCH (R413): For each GO, runs a loop nest emitting address tokens -/
  | agch (b : Blk)
  /-- MLD (R415): Loads a vector token from memory at an address -/
  | mld (b : Blk)
  /-- MST (R415): Stores a vector token and acknowledges once it is visible -/
  | mst (b : Blk)
  /-- MATOM (R415): Performs per-lane atomics and emits the old values -/
  | matom (b : Blk)
  /-- PIN (R417): Takes a port token while in a firing and emits its vector tokens and marks -/
  | pin (b : Blk)
  /-- POUT (R417): Gathers vector tokens into a port token through the rate monitor and records marks -/
  | pout (b : Blk)
  /-- CSEQ (R419): Sequential controller node issuing GO to its children and returning done -/
  | cseq (b : Blk)
  /-- CPIPE (R419): Pipelined controller node -/
  | cpipe (b : Blk)
  /-- CSTRM (R419): Streaming controller node -/
  | cstrm (b : Blk)
  /-- EOT (R420): Passes tokens and inserts an EOT mark every N tokens or per ctl token -/
  | eot (b : Blk)
  /-- EOS (R420): Passes tokens and inserts an EOS mark every N tokens or per ctl token -/
  | eos (b : Blk)
  /-- TSTM (R414): Emits each token together with a BOOL flag that says whether it is the last of its level -/
  | tstm (b : Blk)
  /-- PQC (R421): Keeps the K best keys of a tile and emits them at EOT -/
  | pqc (b : Blk)
  /-- SMPL (R422): Selects one index per tile by weighted sampling -/
  | smpl (b : Blk)
  /-- ACPT (R423): Makes one draw and emits a BOOL accept decision -/
  | acpt (b : Blk)
  /-- RNGE (R424): Emits a token of random words for each input token -/
  | rnge (b : Blk)
  /-- STCNT (R425): Merges the count tokens of its sources -/
  | stcnt (b : Blk)
  /-- STADD (R425): Merges two count tokens -/
  | stadd (b : Blk)
  /-- ELEMENT_MARK (R396): An element consumes matching marks on all linked slots, performs the mark action and forwards the mark -/
  | elementMark (c : Nat) (k : Nat) (sh : Bool)
  /-- WAVEFRONT_SWAP_UNMARKED (R152): An element that the mark never reaches swaps once every marked element has swapped and it holds nothing -/
  | wavefrontSwapUnmarked (c : Nat) (k : Nat)
  /-- DRAIN_GATED_SWAP (R153): Once drain marks have passed every link, the core swaps planes, or raises LOAD.10 for a stray token -/
  | drainGatedSwap (c : Nat)
  /-- GLOAD_COMPLETE (R351): A GLOAD finishes: SVALID 1 and SHID set, or LSTATE 3 and LOAD.11 on failure -/
  | gloadComplete (c : Nat)
  /-- FIRING_START (R121): The sequencer starts the head entry's firing when tokens and space suffice -/
  | firingStart (c : Nat)
  /-- ACTOR_DRAIN (R136): A head actor found drained discards residue, sends drain tokens and stops firing -/
  | actorDrain (c : Nat)
  /-- WRPTR_WRITE (R131): A producer's pointer write reaches the consumer's descriptor and is checked -/
  | wrptrWrite (c : Nat) (d : Nat)
  /-- RDPTR_MIRROR (R130): A consumer's read pointer reaches the producer's output descriptor as the mirror -/
  | rdptrMirror (c : Nat) (d : Nat)
  /-- MEMORY_ACTOR_FIRING (R455): A memory actor engine reads or writes one token at ADDR + f × TSIZE -/
  | memoryActorFiring (n : Nat)
  /-- MODE_TOKEN_ACCEPT (R135): The mode controller takes a mode token and holds the sequencers -/
  | modeTokenAccept (g : Word32)
  /-- SEQUENCER_STOP (R135): A sequencer completes period M and stops -/
  | sequencerStop (c : Nat)
  /-- MODE_XPKG_TIMEOUT (R137): A package not stopped within 10 ms halts the graph with MODE.15 -/
  | modeXpkgTimeout (g : Word32)
  /-- TRANSLATION_WALK (R199): The card walker completes a page-table walk for a stream or queue -/
  | translationWalk (c : Nat) (q : Nat)
  /-- HOME_PERFORM (R202): A sparse-update unit receives a request and performs, merges or parks it -/
  | homePerform (c : Nat) (q : Nat)
  /-- KITTY_RESEND (R203): A request refused by a full kitty share is re-sent after 1 µs -/
  | kittyResend (c : Nat) (q : Nat)
  /-- KITTY_RELEASE (R204): Management releases a page, and the home performs its parked requests in order -/
  | kittyRelease (x : Nat) (page : Nat)
  /-- KITTY_DECLINE (R204): Declined parked requests complete with XLT.4 -/
  | kittyDecline (x : Nat) (page : Nat)
  /-- PAGE_INVALIDATE (R200): Management drops the translations of a virtual range -/
  | pageInvalidate (x : Nat) (first : Nat) (last : Nat)
  /-- RANGE_ENTRY_WRITE (R196): Management writes a range entry, or refuses it with XLT.8 -/
  | rangeEntryWrite (x : Nat) (i : Nat) (d0 : Word) (d1 : Word) (d2 : Word) (d3 : Word)
  /-- REMAP_DESCRIPTOR_WRITE (R201): Management writes a row-remap descriptor, or refuses it with XLT.11 -/
  | remapDescriptorWrite (x : Nat) (i : Nat) (d0 : Word) (d1 : Word)
  /-- QUEUE_ENTRY_COMPLETE (R192): A queue entry completes with its response, its visibility or a fault -/
  | queueEntryComplete (c : Nat) (q : Nat)
  /-- SOURCE_RELEASED (R192): A store-type entry's data has left the core -/
  | sourceReleased (c : Nat) (q : Nat)
  /-- LOCAL_ATOMIC_TIMEOUT (R228): A local atomic without response after 1 ms completes with ATM.14 -/
  | localAtomicTimeout (c : Nat) (q : Nat)
  /-- QUEUE_WAIT_TIMEOUT (R336): A WAITQ or POPQ that has waited 1 s raises CPX.12 -/
  | queueWaitTimeout (c : Nat)
  /-- STREAM_START (R359): A stream engine starts the next command of its queue -/
  | streamStart (c : Nat) (e : Nat)
  /-- STREAM_BURST (R359): A stream issues one burst, translated and checked, or stops at a fault -/
  | streamBurst (c : Nat) (e : Nat)
  /-- STREAM_SOURCE_RELEASED (R356): A stream command reaches its source-released event -/
  | streamSourceReleased (c : Nat) (e : Nat)
  /-- STREAM_VISIBLE (R356): A stream command reaches its visible event -/
  | streamVisible (c : Nat) (e : Nat)
  /-- SWAIT_TIMEOUT (R363): An SWAIT that has waited 1 s raises STRM.12 -/
  | swaitTimeout (c : Nat)
  /-- MXWAIT_TIMEOUT (R443): An MXWAIT that has waited 1 s raises MTX.13 -/
  | mxwaitTimeout (c : Nat)
  /-- GRID_WATCHDOG (R429): An element that has held a partial operand set for 1 s raises GRID.9 -/
  | gridWatchdog (c : Nat) (k : Nat)
  /-- PORT_WAIT_TIMEOUT (R417): A PIN or POUT that has waited 1 s raises GRID.10 -/
  | portWaitTimeout (c : Nat) (k : Nat)
  /-- BARRIER_ARRIVAL (R373): An arrival is counted at the barrier instance, and the phase completes at P arrivals -/
  | barrierArrival (c : Nat) (n : Nat)
  /-- LAUNCH_REQUEST (R164): A launch request reaches the scheduler and creates and queues a graph, or is refused -/
  | launchRequest (c : Nat) (q : Nat)
  /-- IMAGE_VALIDATION (R144): The Dealer checks an image step by step before it is queued -/
  | imageValidation (g : Word32)
  /-- PLACEMENT_TIMEOUT (R146): Placement not complete within 100 ms refuses the graph with DEAL.10 -/
  | placementTimeout (g : Word32)
  /-- GRAPH_ADMIT (R167): The scheduler re-examines the queue and admits an admissible graph, granting power and starting its load -/
  | graphAdmit
  /-- SHADOW_REPORT (R148): A core reports its shadow read-back; when all have reported OK the Dealer decides, and otherwise it aborts -/
  | shadowReport (c : Nat) (cause : BitVec 9)
  /-- STATUS_TIMEOUT (R149): A core report missing after 1 ms aborts the commit with LOAD.8 -/
  | statusTimeout (g : Word32)
  /-- COMMIT_SWAP (R148): The commit wave reaches a core, which swaps all active and shadow copies in one cycle and acknowledges -/
  | commitSwap (c : Nat)
  /-- PACKAGE_REPORT (R78): A participating package's load report reaches the coordinating package -/
  | packageReport (g : Word32) (pkg : Nat) (ok : Bool)
  /-- XPKG_GO (R78): GO reaches a package, which swaps planes -/
  | xpkgGo (g : Word32)
  /-- XPKG_ABORT (R78): ABORT reaches a package, which keeps its old configuration -/
  | xpkgAbort (g : Word32)
  /-- XPKG_REPORT_TIMEOUT (R78): A report missing after 10 ms makes the coordinator send ABORT with LINK.8 -/
  | xpkgReportTimeout (g : Word32)
  /-- PEER_HALT (R79): A halt on another package halts the graph here with LINK.15 -/
  | peerHalt (g : Word32)
  /-- FREEZE_REQUEST (R169): System software requests a freeze through management -/
  | freezeRequest (g : Word32)
  /-- FREEZE_WAVE (R170): The freeze wave reaches a core, whose parts halt and are recorded -/
  | freezeWave (c : Nat)
  /-- FREEZE_COMPLETE (R172): The image is complete, resources are released and SCHED.5 is sent -/
  | freezeComplete (g : Word32) (ok : Bool)
  /-- FREEZE_TIMEOUT (R172): A freeze not complete in time halts the graph with SCHED.10 -/
  | freezeTimeout (g : Word32)
  /-- GRAPH_STOP (R178): System software stops a graph without a dump -/
  | graphStop (g : Word32)
  /-- CONTEXT_CREATE (R157): Management creates a context from a partition descriptor, or refuses it with SCHED.11 -/
  | contextCreate (desc : List Byte)
  /-- CONTEXT_HALT (R179): System software halts a context, freezing its graphs and stopping the supervisor -/
  | contextHalt (x : Nat)
  /-- CONTEXT_RESUME (R179): A halted context resumes and its frozen graphs are re-queued -/
  | contextResume (x : Nat)
  /-- NOTICE_DELIVERY (R161): The base die delivers the next queued notice record to the notice port -/
  | noticeDelivery (x : Nat)
  /-- CUT_MARKER (R282): A cut marker reaches a part of the graph, which stops -/
  | cutMarker (c : Nat)
  /-- CUT_TIMEOUT (R282): A cut not complete in time halts the graph with DBG.7 -/
  | cutTimeout (g : Word32)
  /-- DUMP_START (R276): The dump engine takes the next halted graph and writes its dump -/
  | dumpStart
  /-- DUMP_COMPLETE (R276): The trailer is written, resources are released and DBG.8 is sent -/
  | dumpComplete
  /-- DUMP_ENGINE_FAULT (R280): The dump engine resets and marks the dump partial -/
  | dumpEngineFault
  /-- PENDING_REMOTE_EXPIRY (R279): An unresolved remote pending store is recorded as outcome unknown after 1 ms -/
  | pendingRemoteExpiry (c : Nat) (q : Nat)
  /-- SCRUB_STEP (R275): The patrol scrubber reads a line in an idle bank cycle and corrects it or reports ECC.12 -/
  | scrubStep (addr : Nat)
  /-- HBM_ROW_SPARE (R273): Management moves a failing HBM4 row to a spare, raising ECC.14 -/
  | hbmRowSpare (addr : Nat)
  /-- STREAM_DATA_SLOT (R49): A KIND 1 slot carries stream tokens to the receiving layers -/
  | streamDataSlot (suit : Nat) (slot : Nat)
  /-- WINDOW_WRITE_SLOT (R55): A KIND 2 slot carries a deck-window write to every layer -/
  | windowWriteSlot (suit : Nat) (slot : Nat)
  /-- DECK_ATOMIC_SLOT (R56): A KIND 3 slot carries a deck atomic to every layer -/
  | deckAtomicSlot (suit : Nat) (slot : Nat)
  /-- MEMORY_ACTOR_RESPONSE_SLOT (R51): A KIND 4 slot carries a memory actor's tokens to its consumer cards -/
  | memoryActorResponseSlot (suit : Nat) (slot : Nat)
  /-- NOTICE_SLOT (R44): A KIND 5 slot carries a notice -/
  | noticeSlot (slot : Nat)
  /-- CREDIT_SLOT (R50): A layer's credit slot carries its changed mirrored read pointers -/
  | creditSlot (layer : Nat)
  /-- REFRESH_COPY_SLOT (R60): A service slot carries part of a replica snapshot to waking cards -/
  | refreshCopySlot (slot : Nat)
  /-- RETURN_RECORD_SLOT (R56): A service slot carries atomic return records to issuers -/
  | returnRecordSlot (slot : Nat)
  /-- FRAME_BOUNDARY (R41): A frame ends and the frame sequence advances -/
  | frameBoundary
  /-- REPLICA_APPLY (R55): A replica applies a window write or atomic in the total order -/
  | replicaApply (layer : Nat)
  /-- CALENDAR_WRITE (R46): The Dealer writes a slot calendar entry, or the hub refuses it with DECK.13 -/
  | calendarWrite (i : Nat) (w : BitVec 32)
  /-- DKWIN_RANGE_WRITE (R53): Management sets a context's window range, or the hub refuses it with DECK.13 -/
  | dkwinRangeWrite (x : Nat) (base : Nat) (size : Nat)
  /-- CARD_SLEEP (R59): Management puts a card to sleep, or is refused with DECK.15 -/
  | cardSleep (card : Nat)
  /-- CARD_WAKE (R60): A card wakes for an admission and its replica refresh begins -/
  | cardWake (card : Nat)
  /-- WAKE_SEQUENCE_TIMEOUT (R60): A wake not complete by frame F0 + 12 raises DECK.10 and aborts the admission -/
  | wakeSequenceTimeout (card : Nat)
  /-- SENSOR_SAMPLE (R38): The arbiter reads the junction sensors every 10 µs and responds to trips -/
  | sensorSample (card : Nat) (temp : Nat)
  /-- THERMAL_REPEAT (R38): While the 105 °C condition holds, a further freeze follows every 1 ms -/
  | thermalRepeat (card : Nat)
  /-- SENSOR_SILENT (R38): A sensor silent for 100 µs is treated as 105 °C, with PWR.13 -/
  | sensorSilent (card : Nat)
  /-- EDGE_VIA_OVERCURRENT (R38): Edge-via over-current halts the card's graphs with PWR.12 -/
  | edgeViaOvercurrent (card : Nat)
  /-- SUPPLY_DROOP (R40): An island supply droop halts its graphs with PWR.7 -/
  | supplyDroop (island : Nat)
  /-- MODULE_LIMIT_WRITE (R40): Firmware sets the module limit, or the write is ignored with PWR.14 or PWR.15 -/
  | moduleLimitWrite (halfWatts : Nat)
  /-- POWER_GATE (R39): A core that has belonged to no graph for 1 ms is power-gated -/
  | powerGate (c : Nat)
  /-- CORE_WAKE_COMPLETE (R39): A waking core completes its wake -/
  | coreWakeComplete (c : Nat)
  /-- WAKE_TIMEOUT (R39): A wake incomplete after 100 µs aborts the commit with PWR.8 -/
  | wakeTimeout (c : Nat)
  /-- REMOTE_REQUEST (R68): A remote request reaches its home, which checks the import table and filters duplicates -/
  | remoteRequest (m : RemoteMsg)
  /-- REMOTE_RESPONSE (R69): A remote response reaches the issuing queue entry -/
  | remoteResponse (c : Nat) (q : Nat) (cause : BitVec 9) (data : Nat)
  /-- REMOTE_TIMEOUT (R72): A remote request without response after 1 ms completes with LINK.5 -/
  | remoteTimeout (c : Nat) (q : Nat)
  /-- VC_TOKEN_ARRIVAL (R75): A cross-package arc token arrives on its virtual channel -/
  | vcTokenArrival (ch : Nat) (bytes : List Byte) (late : Bool)
  /-- VC_CREDIT (R75): The consumer's read pointer returns as credit on the virtual channel -/
  | vcCredit (ch : Nat) (rdptr : Nat)
  /-- PORT_RETRAIN (R82): A Herlo port begins retraining and holds its traffic -/
  | portRetrain (n : Nat)
  /-- PORT_RETRAINED (R82): A port completes retraining, and LINK.10 is sent -/
  | portRetrained (n : Nat)
  /-- PORT_DOWN (R82): A port not retrained within 10 ms is marked down, and rerouting or halting follows -/
  | portDown (n : Nat) (reroute : Bool)
  /-- FLIT_UNCORRECTABLE (R83): A flit uncorrectable after retries is discarded, halting an arc or replaying a request -/
  | flitUncorrectable (o : FlitOwner)
  /-- DOMAIN_ENUMERATION (R25): Management sets the package's PKG number -/
  | domainEnumeration (pkg : BitVec 12)
  /-- INGRESS_WRITE (R92): A host write to an ingress window is accepted into the stream or discarded with a fault -/
  | ingressWrite (n : Nat) (off : Nat) (bytes : List Byte) (poisoned : Bool)
  /-- CREDIT_WRITEBACK (R93): The device writes CONSUMED to the host's CWB address -/
  | creditWriteback (n : Nat)
  /-- OPEN_RECORD (R95): An OPEN record binds the port to a graph, or creates one -/
  | openRecord (n : Nat)
  /-- DATA_RECORD (R95): A DATA record is delivered as the next token on GPORT -/
  | dataRecord (n : Nat)
  /-- CLOSE_RECORD (R95): A CLOSE record sends a drain token and moves the port to closing -/
  | closeRecord (n : Nat)
  /-- MODE_RECORD (R95): A MODE record is delivered as a mode token -/
  | modeRecord (n : Nat)
  /-- INGRESS_DRAIN_ACCEPTED (R95): The graph accepts the drain token, and the port becomes idle -/
  | ingressDrainAccepted (n : Nat)
  /-- INGRESS_EN (R91): A write to the ingress EN bit enables or disables the port -/
  | ingressEn (n : Nat) (en : Bool)
  /-- INGRESS_RST (R96): RST discards the buffer and resets the port, halting a bound graph with HOST.14 -/
  | ingressRst (n : Nat)
  /-- EGRESS_EN (R97): A write to the egress EN bit enables the port, or is refused with HOST.13 -/
  | egressEn (n : Nat) (en : Bool)
  /-- EGRESS_RST (R97): RST sets END and RDPOS to 0, or is refused while a graph is bound -/
  | egressRst (n : Nat)
  /-- RDPOS_WRITE (R97): The host advances RDPOS, or the write is ignored with HOST.11 -/
  | rdposWrite (n : Nat) (v : Word)
  /-- GRAPH_STORE_ENABLE (R88): A write of GSEN enables the graph store, or is refused with HOST.13 -/
  | graphStoreEnable (w : Word)
  /-- GRAPH_STORE_ACCESS (R89): A BAR 4 access reaches the store, or has no effect and raises HOST.12 -/
  | graphStoreAccess (off : Nat) (wr : Bool) (bytes : List Byte)
  /-- EGRESS_RECORD_WRITE (R99): A sink token is written as a record into the host ring when there is room -/
  | egressRecordWrite (n : Nat)
  /-- COMPLETION_WORD_WRITE (R100): The device writes the completion word after whole records -/
  | completionWordWrite (n : Nat)
  /-- PCIE_LINK_DOWN (R101): Loss of the PCIe link halts every graph with a host port, with HOST.15 -/
  | pcieLinkDown
  /-- REGISTER_WRITE (R8): A write to a register field that has no row of its own takes effect under the access codes -/
  | registerWrite (off : Nat) (v : Word)
  /-- COLD_RESET (R105): The boot ROM derives the key, measures the fuse block and firmware, and starts the components -/
  | coldReset
  /-- QUOTE_CAPTURE (R108): The security block captures the slots, signs the quote and completes the entry -/
  | quoteCapture
  /-- QUOTE_EXTEND_APPLY (R112): The security block applies a QUOTE.EXT extend and completes the entry -/
  | quoteExtendApply
  /-- GET_VERSION (R109): An SPDM GET_VERSION request is answered -/
  | getVersion (r : SpdmReq)
  /-- GET_CAPABILITIES (R109): An SPDM GET_CAPABILITIES request is answered -/
  | getCapabilities (r : SpdmReq)
  /-- NEGOTIATE_ALGORITHMS (R109): An SPDM NEGOTIATE_ALGORITHMS request is answered, or answered with ERROR -/
  | negotiateAlgorithms (r : SpdmReq)
  /-- GET_DIGESTS (R109): An SPDM GET_DIGESTS request is answered -/
  | getDigests (r : SpdmReq)
  /-- GET_CERTIFICATE (R109): An SPDM GET_CERTIFICATE request returns the certificate chain of slot 0 -/
  | getCertificate (r : SpdmReq)
  /-- CHALLENGE (R109): An SPDM CHALLENGE request is answered -/
  | challenge (r : SpdmReq)
  /-- GET_MEASUREMENTS (R109): An SPDM GET_MEASUREMENTS request returns slots or a quote -/
  | getMeasurements (r : SpdmReq)
  /-- SPDM_UNSUPPORTED_REQUEST (R109): KEY_EXCHANGE, PSK_EXCHANGE and session requests are answered with ERROR of type UnsupportedRequest -/
  | spdmUnsupportedRequest (r : SpdmReq)
  /-- VICTIM_MIN_RUN_TIME (R168): A running graph reaches 2 ms of graph time since its latest admission or THAW, so it becomes a victim for a waiting higher-priority graph, and the scheduler may freeze it -/
  | victimMinRunTime (g : Word32)
  /-- CONTEXT_DESTROY (R159): The context is destroyed, and its supervisor graph stops -/
  | contextDestroy (x : Nat)
  /-- UNASSIGNED_ENCODING (R301): The CP decodes a word that is no instruction: an unassigned major, fn, sub-op or eng-op, a reserved value, or a non-zero reserved field. It raises the ENC fault precisely -/
  | unassignedEncoding (w : BitVec 32) (w2 : BitVec 32) (cause : BitVec 9)
  /-- INSTRUCTION_FETCH_FAULT (R184): The CP fetches from outside its code region, or from an address that is not a multiple of 4, or fetches an uncorrectable word. It raises CPM.6, CPM.13 or ECC.4 precisely -/
  | instructionFetchFault (cause : BitVec 9)
  deriving DecidableEq, Repr

end Sys2Proof
end

