-- ==== Sys2Proof/Config.lean ====
section
/-! DEFINITION. What an implementation or its firmware fixes and the spec leaves open, as constants without a body: a
statement that holds for them holds for every value. Each is named in the assumption log. -/

namespace Sys2Proof.Config

/-- A free value for each use, by a counter of the state. -/
opaque freeValue : Nat → Nat

/-- Which of the live places of its class that are still free the Dealer takes for instruction k of a block, by the block's words and the
core (R146, R390). -/
opaque place : List Word → Nat → Nat → Nat

/-- The tail of an SD16 token whose exponent does not fit 16 bits (R232, R240). -/
opaque tailBeyond : Int → Nat

/-- The defect map (R146): an element of a core is fused off. -/
opaque fusedElem : Nat → Nat → Bool

/-- The defect map: a meld node of a core is fused off. -/
opaque fusedNode : Nat → Nat → Bool

/-- The router hops of each link of a block as the Dealer routes it on a core, none where no routing exists for every link (R146). -/
opaque routeHops : List Word → Nat → Option (List Nat)

/-- The bytes that a block's entry of the placement cache takes, by its instructions and the cores it has been placed on (R147). -/
opaque cacheBytes : Nat → Nat → Nat

/-- The tile SRAM base of a logical core's window number i (R129, R148): the Dealer's choice, by image and core. -/
opaque windowBase : Nat → Nat → Nat → Nat

/-- The packages that the route table of a package names, as management writes it at domain enumeration (R67). -/
opaque routes : Nat → List Nat

/-- The import table of a package, as its management writes it (R68): source package, source context, first byte and one
past the last byte of a local HBM4 range. -/
opaque imports : Nat → List (Nat × Nat × Nat × Nat)

/-- The Herlo ports on the route to a package (R74). -/
opaque routePorts : Nat → List Nat

/-- The Herlo ports on the route that management installs to a package around a lost port (R82). -/
opaque rerouted : Nat → Nat → List Nat

/-- The Herlo links on the route from one package to another (R76). -/
opaque hops : Nat → Nat → Nat

/-- Base address in local HBM4 of the library region (R351). -/
opaque libraryBase : Nat

/-- Byte i of the placed configuration of a block, 4 KiB, from the block's record and the number of its core (R351). -/
opaque placedByte : List (BitVec 8) → Nat → Nat → BitVec 8

/-- Base address in local HBM4 of the placement cache (R147). -/
opaque cacheBase : Nat

/-- Base address and size in bytes of the dump area in local HBM4 (R276). -/
opaque dumpBase : Nat

/-- Size in bytes of the dump area. -/
opaque dumpSize : Nat

/-- The bytes of a firmware component in boot flash, none when unreadable: 0 management, 1 Dealer, 2 arbiter, 3 dump
engine (R105). -/
opaque firmware : Nat → Option (List Byte)

/-- The defect-map identifier (R105). -/
opaque defectId : Nat

/-- The silicon stepping (R25). -/
opaque stepping : Nat

/-- The fused serial number, 16 bytes (R107). -/
opaque serial : List Byte

/-- The random RESETID the boot ROM draws at the n-th cold reset (R107). -/
opaque resetId : Nat → Nat

/-- The device unique secret in fuses, which the boot ROM alone sees (R102). -/
opaque deviceSecret : BitVec 256

/-- The certificate chain of slot 0, root first (R109). -/
opaque certChain : List Byte

/-- The bytes of an SPDM answer whose layout the SPDM standard gives: by kind of request and its payload (R109). -/
opaque spdmEncode : Nat → List Byte → List Byte

/-- Whether an island's regulator passes its power-on test, by cold reset (R40). -/
opaque regulatorOk : Nat → Nat → Bool

/-- Declared memory-actor bandwidth of an image in bytes per second (R32): where the image carries it the spec does not
say. -/
opaque actorBandwidth : Nat → Nat

/-- Block n of a BLOCKS section is one of a logical core's (R142, R351): the section's form says nothing of it. -/
opaque blockFor : List Byte → Nat → Nat → Bool

/-- Record n of a MELD section is one of a logical core's (R142, R444). -/
opaque meldFor : List Byte → Nat → Nat → Bool

/-- The code of a logical core: its tile SRAM offset, a multiple of 4096, and the first byte and length of its run of the
CODE section (R142, R184). -/
opaque codeRun : List Byte → Nat → Nat × Nat × Nat

/-- The runs of a DATA section (R142): logical core, or 0x1000 + memory actor engine, offset, bytes; the widths of their fields are not
given. -/
opaque dataRuns : List Byte → List (Nat × Nat × List Byte)

/-- The first entry and the number of entries, in a SCHED section, of a logical core's segment for a rate set (R142). -/
opaque schedRun : List Byte → Nat → Nat → Nat × Nat

/-- The demand of a DECK section, as stream and slots per frame (R142): a stream is named by its lowest arc record, or 0x10000 + port
record for a host port. -/
opaque deckRuns : List Byte → List (Nat × Nat)

/-- The local HBM4 address of the root of a context's page table, which management writes at system software's request
(R195). -/
opaque tableRoot : Nat → Nat

/-- The code of the supervisor graph of a context, which management firmware brings (R159). -/
opaque supervisorCode : Nat → List Byte

/-- The physical package of a logical package (R78). -/
opaque packageOf : List Byte → Nat → Nat

/-- Management has reserved the placement cache's region (R147). -/
opaque cacheReserved : Bool

/-- The part's defect map can be read at the nth cold reset (DEAL.9). -/
opaque defectMapOk : Nat → Bool

/-- The Dealer's firmware passes its start test at the nth cold reset (DEAL.12). -/
opaque dealerOk : Nat → Bool

/-- HECC over header bits 1023 to 64: the spec gives what the code corrects and detects, not the code (R43). -/
opaque slotCode : Nat → BitVec 64

/-- Byte n of a credit record of a stream, a context and a pointer: the spec gives what it holds, not where (R47). -/
opaque creditByte : Nat → Nat → Nat → Nat → BitVec 8

end Sys2Proof.Config
end

