-- ==== Sys2Proof/Machine/Bits.lean ====
section
/-! DEFINITION. Bit fields, sign extension, byte order and small list helpers shared by the decoder and the machine
(R4, R5, R321). -/

namespace Sys2Proof

/-- Bits [hi:lo] of a number (R4). -/
def bitsOf (x hi lo : Nat) : Nat := x >>> lo % 2 ^ (hi + 1 - lo)

/-- Bits [hi:lo] of a bit vector, as a number (R4). -/
def fld {n : Nat} (x : BitVec n) (hi lo : Nat) : Nat := bitsOf x.toNat hi lo

/-- Bit n of a bit vector (R4). -/
def bitAt {n : Nat} (x : BitVec n) (k : Nat) : Bool := x.getLsbD k

/-- A number with bits [hi:lo] replaced by v (R4). -/
def setBits (x hi lo v : Nat) : Nat :=
  x - (bitsOf x hi lo) * 2 ^ lo + (v % 2 ^ (hi + 1 - lo)) * 2 ^ lo

/-- The two's-complement value of an n-bit number (R321). -/
def sgn (n x : Nat) : Int :=
  if x % 2 ^ n < 2 ^ (n - 1) then (x % 2 ^ n : Int) else (x % 2 ^ n : Int) - 2 ^ n

/-- A number reduced to n bits, as a natural number. -/
def wrapN (n : Nat) (x : Int) : Nat := (x % (2 ^ n : Int)).toNat

/-- sext of R321: an immediate sign-extended to 64 bits. -/
def sext64 {n : Nat} (x : BitVec n) : Word := x.signExtend 64

/-- zext of R321. -/
def zext64 {n : Nat} (x : BitVec n) : Word := x.zeroExtend 64

/-- The n low bytes of a number, lowest first (R5). -/
def leBytes : Nat → Nat → List Byte
  | 0, _ => []
  | n + 1, v => BitVec.ofNat 8 v :: leBytes n (v / 256)

/-- The number a little-endian run of bytes holds (R5). -/
def ofLe : List Byte → Nat
  | [] => 0
  | b :: bs => b.toNat + 256 * ofLe bs

/-- The number a big-endian run of bytes holds (R306, R107). -/
def ofBe (bs : List Byte) : Nat := ofLe bs.reverse

/-- The n bytes of a number, highest first. -/
def beBytes (n v : Nat) : List Byte := (leBytes n v).reverse

/-- x rounded up to a multiple of n. -/
def roundUp (x n : Nat) : Nat := (x + n - 1) / n * n

/-- ceil(a / b). -/
def ceilDiv (a b : Nat) : Nat := (a + b - 1) / b

/-- Two byte ranges [a, a + m) and [b, b + n) share a byte. -/
def rangesMeet (a m b n : Nat) : Bool := decide (0 < m ∧ 0 < n ∧ a < b + n ∧ b < a + m)

/-- A list cut into consecutive pieces of n, by the number of pieces. -/
def chunks {α : Type} (n : Nat) : Nat → List α → List (List α)
  | 0, _ => []
  | k + 1, xs => xs.take n :: chunks n k (xs.drop n)

/-- The first number below k that satisfies p. -/
def firstBelow (k : Nat) (p : Nat → Bool) : Option Nat := (List.range k).find? p

/-- A sparse map from numbers, keys strictly rising, one entry a key: the plain-data form of every indexed part of the
state that is not memory. -/
abbrev NMap (α : Type) := List (Nat × α)

/-- The entry of a key, or the given default. -/
def NMap.getD {α : Type} (d : α) : NMap α → Nat → α
  | [], _ => d
  | (k, v) :: m, n => if n = k then v else if n < k then d else NMap.getD d m n

/-- The entry of a key, if the map holds one. -/
def NMap.find {α : Type} : NMap α → Nat → Option α
  | [], _ => none
  | (k, v) :: m, n => if n = k then some v else if n < k then none else NMap.find m n

/-- The map with the entry of a key replaced. -/
def NMap.put {α : Type} : NMap α → Nat → α → NMap α
  | [], n, x => [(n, x)]
  | (k, v) :: m, n, x =>
    if n = k then (n, x) :: m else if n < k then (n, x) :: (k, v) :: m else (k, v) :: NMap.put m n x

/-- The map without the entry of a key. -/
def NMap.del {α : Type} : NMap α → Nat → NMap α
  | [], _ => []
  | (k, v) :: m, n => if n = k then m else if n < k then (k, v) :: m else (k, v) :: NMap.del m n

/-- The keys of a map, in order. -/
def NMap.keys {α : Type} (m : NMap α) : List Nat := m.map Prod.fst

/-- The keys of a map rise strictly. -/
def NMap.wf {α : Type} : NMap α → Bool
  | [] => true
  | [_] => true
  | (a, _) :: (b, y) :: m => decide (a < b) && NMap.wf ((b, y) :: m)

/-- The smallest of a list of numbers, if it is not empty. -/
def minOf : List Nat → Option Nat
  | [] => none
  | x :: xs => match minOf xs with
    | none => some x
    | some y => some (min x y)

/-- A list of numbers in rising order, by insertion. -/
def insertBy {α : Type} (lt : α → α → Bool) (x : α) : List α → List α
  | [] => [x]
  | y :: ys => if lt x y then x :: y :: ys else y :: insertBy lt x ys

/-- A list sorted by a strict order; equal elements keep their order. -/
def sortBy {α : Type} (lt : α → α → Bool) (xs : List α) : List α :=
  xs.foldl (fun acc x => insertBy lt x acc) []

/-- A list with one place replaced. -/
def setAt {α : Type} (xs : List α) (i : Nat) (x : α) : List α := xs.set i x

end Sys2Proof
end

