-- ==== Sys2Proof/WellFormed.lean ====
section
/-! DEFINITION. Which instructions are well formed: the operand limits of the CP words (R292 to R303), the zero rule of
an unused target (R307), and the ranges of what an event names (R1, R13, R73, R91). -/

namespace Sys2Proof

/-- A core's number in the package: card * 192 + linear index (R13). -/
def coreOk (c : Nat) : Bool := decide (c < 2304)

/-- The assigned system-register numbers of R303. -/
def sysRegAssigned (n : BitVec 12) : Bool :=
  decide (0x700 ≤ n.toNat ∧ n.toNat ≤ 0x704) || decide (0x7C0 ≤ n.toNat ∧ n.toNat ≤ 0x7C4)
    || decide (0x7D0 ≤ n.toNat ∧ n.toNat ≤ 0x7E7) || decide (0xF10 ≤ n.toNat ∧ n.toNat ≤ 0xF17)

/-- SCOPE must be 0 when ANN is .rlx (R294). -/
def annScopeOk (n : Ann) (s : Scope) : Bool := decide (n ≠ .rlx) || decide (s = .core)

/-- A target whose valid bit is 0 has every other bit of its fields zero (R307). -/
def Target.wf (t : Target) : Bool := t.v || (t.idx == 0 && t.slot == 0 && t.buf == 0)

/-- A block instruction's fields (R307): the zero rule for both targets. -/
def Blk.wf (b : Blk) : Bool := b.t0.wf && b.t1.wf

/-- The well-formed instructions. -/
def Instr.wf : Instr → Bool
  | .add _ _ _ => true
  | .sub _ _ _ => true
  | .mul _ _ _ => true
  | .mulh _ _ _ => true
  | .mulhu _ _ _ => true
  | .div _ _ _ => true
  | .divu _ _ _ => true
  | .rem _ _ _ => true
  | .remu _ _ _ => true
  | .and _ _ _ => true
  | .or _ _ _ => true
  | .xor _ _ _ => true
  | .andn _ _ _ => true
  | .shl _ _ _ => true
  | .shr _ _ _ => true
  | .sra _ _ _ => true
  | .rotl _ _ _ => true
  | .min _ _ _ => true
  | .max _ _ _ => true
  | .minu _ _ _ => true
  | .maxu _ _ _ => true
  | .slt _ _ _ => true
  | .sltu _ _ _ => true
  | .seq _ _ _ => true
  | .clz _ _ => true
  | .ctz _ _ => true
  | .popc _ _ => true
  | .brev _ _ => true
  | .bext _ _ _ => true
  | .bins _ _ _ => true
  | .sext _ _ _ => true
  | .addi _ _ _ => true
  | .andi _ _ _ => true
  | .ori _ _ _ => true
  | .xori _ _ _ => true
  | .shli _ _ i => decide (i.toNat < 64)
  | .shri _ _ i => decide (i.toNat < 64)
  | .srai _ _ i => decide (i.toNat < 64)
  | .slti _ _ _ => true
  | .sltiu _ _ _ => true
  | .lui _ _ => true
  | .lix _ _ _ => true
  | .jal _ _ => true
  | .jalr _ _ _ => true
  | .beq _ _ _ => true
  | .bne _ _ _ => true
  | .blt _ _ _ => true
  | .bge _ _ _ => true
  | .bltu _ _ _ => true
  | .bgeu _ _ _ => true
  | .ldb _ _ _ => true
  | .ldbu _ _ _ => true
  | .ldh _ _ _ => true
  | .ldhu _ _ _ => true
  | .ldw _ _ _ => true
  | .ldwu _ _ _ => true
  | .ldd _ _ _ => true
  | .lda _ _ _ _ _ => true
  | .stb _ _ _ => true
  | .sth _ _ _ => true
  | .stw _ _ _ => true
  | .std _ _ _ => true
  | .stl _ _ _ _ _ => true
  | .ldq _ _ n s _ => decide (n = .rlx ∨ n = .acq) && annScopeOk n s
  | .stq _ _ _ n s _ => decide (n = .rlx ∨ n = .rel) && annScopeOk n s
  | .aadd _ _ _ n s _ => annScopeOk n s
  | .amin _ _ _ n s _ => annScopeOk n s
  | .amax _ _ _ n s _ => annScopeOk n s
  | .aminu _ _ _ n s _ => annScopeOk n s
  | .amaxu _ _ _ n s _ => annScopeOk n s
  | .aand _ _ _ n s _ => annScopeOk n s
  | .aor _ _ _ n s _ => annScopeOk n s
  | .axor _ _ _ n s _ => annScopeOk n s
  | .aswp _ _ _ n s _ => annScopeOk n s
  | .acas _ _ _ _ n s _ => annScopeOk n s
  | .asnap _ _ n s _ => annScopeOk n s
  | .aaddf _ _ _ n s _ => annScopeOk n s
  | .waitqSrc _ _ => true
  | .waitqVis _ _ => true
  | .popq _ _ => true
  | .nop => true
  | .fenceCore => true
  | .fenceCard => true
  | .fenceDeck => true
  | .fenceDom => true
  | .fencei => true
  | .eret => true
  | .wfe => true
  | .sev => true
  | .halt => true
  | .brk => true
  | .trap _ => true
  | .srd _ n => sysRegAssigned n
  | .swr _ n => sysRegAssigned n
  | .gload _ => true
  | .gswapDrain => true
  | .gswapEos => true
  | .ggo => true
  | .ggoRes => true
  | .gstop => true
  | .gstat _ => true
  | .gstv _ _ => true
  | .gstvAct _ _ => true
  | .srds _ _ _ => true
  | .swrs _ _ _ => true
  | .scpy _ _ _ => true
  | .sagc _ _ _ => true
  | .sxlt _ _ => true
  | .swaitSrc _ => true
  | .swaitVis _ => true
  | .rwset _ _ => true
  | .rwrst _ => true
  | .rwqry _ _ => true
  | .fdone => true
  | .fabort _ => true
  | .mode _ => true
  | .mwait _ => true
  | .lnch _ _ _ => true
  | .lwait _ _ => true
  | .bari _ _ _ => true
  | .bara _ _ => true
  | .barw _ => true
  | .bart _ _ => true
  | .dkst _ _ => true
  | .dkadd _ _ _ _ => true
  | .dkcas _ _ _ _ _ => true
  | .dksync => true
  | .rngk _ _ => true
  | .rngc _ _ _ => true
  | .rngd _ _ => true
  | .rngdSt _ _ _ => true
  | .apndSet _ _ => true
  | .apndRow _ _ _ => true
  | .mark _ => true
  | .fold _ _ => true
  | .stats _ => true
  | .cutmStart _ => true
  | .cutmRel _ => true
  | .tkbp _ _ => true
  | .tkbpClr _ => true
  | .frz _ _ => true
  | .thaw _ _ => true
  | .pwrq _ _ => true
  | .quote _ _ _ => true
  | .quoteExt _ _ _ => true
  | .mxb _ _ => true
  | .mxbPb _ => true
  | .mxsw => true
  | .mxmm _ _ _ => true
  | .mxmmPa _ _ => true
  | .mxaccClr _ _ => true
  | .mxaccQry _ _ => true
  | .mxaccOuts _ _ _ => true
  | .mxaccOutp _ _ => true
  | .mxsort _ _ _ => true
  | .mxgang _ => true
  | .mxwait _ s => decide (s ≠ 0)
  | .mldg _ _ => true
  | .mlchk _ => true
  | .mlchkRec _ _ => true
  | .mlfree _ => true
  | .mlrun _ _ _ => true
  | .mlcut _ _ => true
  | .mxbLoad c => coreOk c
  | .mxswExchange c => coreOk c
  | .mxmmExecute c => coreOk c
  | .mxaccExecute c => coreOk c
  | .mxsortExecute c => coreOk c
  | .mxgangExecute c => coreOk c
  | .meldRun c => coreOk c
  | .mlfreeComplete c => coreOk c
  | .mlcutExecute c => coreOk c
  | .elemNop b => b.wf
  | .const b => b.wf
  | .sink b => b.wf
  | .copy b => b.wf
  | .elemAdd b => b.wf
  | .elemSub b => b.wf
  | .elemMul b => b.wf
  | .fma b => b.wf
  | .fms b => b.wf
  | .nfma b => b.wf
  | .elemMin b => b.wf
  | .elemMax b => b.wf
  | .abs b => b.wf
  | .neg b => b.wf
  | .elemAnd b => b.wf
  | .elemOr b => b.wf
  | .elemXor b => b.wf
  | .not b => b.wf
  | .elemShl b => b.wf
  | .elemShr b => b.wf
  | .elemSra b => b.wf
  | .clamp b => b.wf
  | .cmpeq b => b.wf
  | .cmplt b => b.wf
  | .cmple b => b.wf
  | .sel b => b.wf
  | .exp2 b => b.wf
  | .log2 b => b.wf
  | .rcp b => b.wf
  | .rsq b => b.wf
  | .cvt b => b.wf
  | .qblk b => b.wf
  | .dqblk b => b.wf
  | .tosd b => b.wf
  | .fromsd b => b.wf
  | .bpln b => b.wf
  | .rsum b => b.wf
  | .rmax b => b.wf
  | .rmin b => b.wf
  | .bcast b => b.wf
  | .shuf b => b.wf
  | .elemRotl b => b.wf
  | .sld b => b.wf
  | .swap b => b.wf
  | .steer b => b.wf
  | .merge b => b.wf
  | .carry b => b.wf
  | .invar b => b.wf
  | .lgen b => b.wf
  | .agen b => b.wf
  | .agch b => b.wf
  | .mld b => b.wf
  | .mst b => b.wf
  | .matom b => b.wf
  | .pin b => b.wf
  | .pout b => b.wf
  | .cseq b => b.wf
  | .cpipe b => b.wf
  | .cstrm b => b.wf
  | .eot b => b.wf
  | .eos b => b.wf
  | .tstm b => b.wf
  | .pqc b => b.wf
  | .smpl b => b.wf
  | .acpt b => b.wf
  | .rnge b => b.wf
  | .stcnt b => b.wf
  | .stadd b => b.wf
  | .elementMark c k _ => coreOk c && decide (k < 128)
  | .wavefrontSwapUnmarked c k => coreOk c && decide (k < 128)
  | .drainGatedSwap c => coreOk c
  | .gloadComplete c => coreOk c
  | .firingStart c => coreOk c
  | .actorDrain c => coreOk c
  | .wrptrWrite c d => coreOk c && decide (d < 64)
  | .rdptrMirror c d => coreOk c && decide (d < 64)
  | .memoryActorFiring _ => true
  | .modeTokenAccept _ => true
  | .sequencerStop c => coreOk c
  | .modeXpkgTimeout _ => true
  | .translationWalk c q => coreOk c && decide (q < 20)
  | .homePerform c q => coreOk c && decide (q < 32)
  | .kittyResend c q => coreOk c && decide (q < 32)
  | .kittyRelease x _ => decide (x < 16)
  | .kittyDecline x _ => decide (x < 16)
  | .pageInvalidate x _ _ => decide (x < 16)
  | .rangeEntryWrite x i _ _ _ _ => decide (x < 16) && decide (i < 16)
  | .remapDescriptorWrite x i _ _ => decide (x < 16) && decide (i < 64)
  | .queueEntryComplete c q => coreOk c && decide (q < 16)
  | .sourceReleased c q => coreOk c && decide (q < 16)
  | .localAtomicTimeout c q => coreOk c && decide (q < 16)
  | .queueWaitTimeout c => coreOk c
  | .streamStart c e => coreOk c && decide (e < 4)
  | .streamBurst c e => coreOk c && decide (e < 4)
  | .streamSourceReleased c e => coreOk c && decide (e < 4)
  | .streamVisible c e => coreOk c && decide (e < 4)
  | .swaitTimeout c => coreOk c
  | .mxwaitTimeout c => coreOk c
  | .gridWatchdog c k => coreOk c && decide (k < 128)
  | .portWaitTimeout c k => coreOk c && decide (k < 128)
  | .barrierArrival c n => coreOk c && decide (n < 8)
  | .launchRequest c q => coreOk c && decide (q < 16)
  | .imageValidation _ => true
  | .placementTimeout _ => true
  | .graphAdmit => true
  | .shadowReport c _ => coreOk c
  | .statusTimeout _ => true
  | .commitSwap c => coreOk c
  | .packageReport _ _ _ => true
  | .xpkgGo _ => true
  | .xpkgAbort _ => true
  | .xpkgReportTimeout _ => true
  | .peerHalt _ => true
  | .freezeRequest _ => true
  | .freezeWave c => coreOk c
  | .freezeComplete _ _ => true
  | .freezeTimeout _ => true
  | .graphStop _ => true
  | .contextCreate desc => decide (desc.length = 64)
  | .contextHalt x => decide (x < 16)
  | .contextResume x => decide (x < 16)
  | .noticeDelivery x => decide (x < 16)
  | .cutMarker c => coreOk c
  | .cutTimeout _ => true
  | .dumpStart => true
  | .dumpComplete => true
  | .dumpEngineFault => true
  | .pendingRemoteExpiry c q => coreOk c && decide (q < 16)
  | .scrubStep _ => true
  | .hbmRowSpare _ => true
  | .streamDataSlot suit slot => decide (suit < 4) && decide (slot < 512)
  | .windowWriteSlot suit slot => decide (suit < 4) && decide (slot < 512)
  | .deckAtomicSlot suit slot => decide (suit < 4) && decide (slot < 512)
  | .memoryActorResponseSlot suit slot => decide (suit < 4) && decide (slot < 512)
  | .noticeSlot slot => decide (slot < 512)
  | .creditSlot layer => decide (layer ≤ 12)
  | .refreshCopySlot slot => decide (slot < 512)
  | .returnRecordSlot slot => decide (slot < 512)
  | .frameBoundary => true
  | .replicaApply layer => decide (layer ≤ 12)
  | .calendarWrite i _ => decide (i < 2048)
  | .dkwinRangeWrite x _ _ => decide (x < 16)
  | .cardSleep card => decide (card < 12)
  | .cardWake card => decide (card < 12)
  | .wakeSequenceTimeout card => decide (card < 12)
  | .sensorSample card _ => decide (card < 12)
  | .thermalRepeat card => decide (card < 12)
  | .sensorSilent card => decide (card < 12)
  | .edgeViaOvercurrent card => decide (card < 12)
  | .supplyDroop island => decide (island < 64)
  | .moduleLimitWrite _ => true
  | .powerGate c => coreOk c
  | .coreWakeComplete c => coreOk c
  | .wakeTimeout c => coreOk c
  | .remoteRequest _ => true
  | .remoteResponse c q _ _ => decide (c < 2304 + 64 * 64 ∧ q ≤ 0x1000)
  | .remoteTimeout c q => decide (c < 2304 + 64 * 64 ∧ q ≤ 0x1000)
  | .vcTokenArrival _ _ _ => true
  | .vcCredit _ _ => true
  | .portRetrain n => decide (n < 24)
  | .portRetrained n => decide (n < 24)
  | .portDown n _ => decide (n < 24)
  | .flitUncorrectable _ => true
  | .domainEnumeration _ => true
  | .ingressWrite n _ _ _ => decide (n < 64)
  | .creditWriteback n => decide (n < 64)
  | .openRecord n => decide (n < 64)
  | .dataRecord n => decide (n < 64)
  | .closeRecord n => decide (n < 64)
  | .modeRecord n => decide (n < 64)
  | .ingressDrainAccepted n => decide (n < 64)
  | .ingressEn n _ => decide (n < 64)
  | .ingressRst n => decide (n < 64)
  | .egressEn n _ => decide (n < 64)
  | .egressRst n => decide (n < 64)
  | .rdposWrite n _ => decide (n < 64)
  | .graphStoreEnable _ => true
  | .graphStoreAccess _ _ _ => true
  | .egressRecordWrite n => decide (n < 64)
  | .completionWordWrite n => decide (n < 64)
  | .pcieLinkDown => true
  | .registerWrite _ _ => true
  | .coldReset => true
  | .quoteCapture => true
  | .quoteExtendApply => true
  | .getVersion _ => true
  | .getCapabilities _ => true
  | .negotiateAlgorithms _ => true
  | .getDigests _ => true
  | .getCertificate _ => true
  | .challenge _ => true
  | .getMeasurements _ => true
  | .spdmUnsupportedRequest _ => true
  | .victimMinRunTime _ => true
  | .contextDestroy x => decide (x < 16)
  | .unassignedEncoding _ _ cause => decide (cause.toNat < 16)
  | .instructionFetchFault cause => decide (cause = 0x026 ∨ cause = 0x02D ∨ cause = 0x164)

end Sys2Proof
end

