-- ==== Sys2Proof/Decode.lean ====
section
/-! DEFINITION. The decoder of CP words and of block instructions, total on any bits and rejecting by name (R288 to R301,
R307 to R310), and after it the encoder, from the same tables. -/

namespace Sys2Proof

/-- What decoding a CP word gives: an instruction, or the ENC subcode it raises (R301, R319). -/
inductive Decoded where
  | ok (i : Instr)
  | bad (sub : BitVec 4)
  deriving DecidableEq, Repr

/-- An instruction behind its checks, in ascending ENC subcode: the first failing one is reported (R301). -/
def checked : List (Bool × BitVec 4) → Instr → Decoded
  | [], i => .ok i
  | (b, c) :: cs, i => if b then .bad c else checked cs i

/-- The annotation codes of R294. -/
def Ann.ofBits (b : BitVec 2) : Ann :=
  if b = 0 then .rlx else if b = 1 then .acq else if b = 2 then .rel else .ar

/-- The code of an annotation (R294). -/
def Ann.toBits : Ann → BitVec 2
  | .rlx => 0 | .acq => 1 | .rel => 2 | .ar => 3

/-- The scope codes of R292. -/
def Scope.ofBits (b : BitVec 2) : Scope :=
  if b = 0 then .core else if b = 1 then .card else if b = 2 then .deck else .dom

/-- The code of a scope (R292). -/
def Scope.toBits : Scope → BitVec 2
  | .core => 0 | .card => 1 | .deck => 2 | .dom => 3

/-- The width codes of R292. -/
def Width.ofBits (b : BitVec 2) : Width :=
  if b = 0 then .byte else if b = 1 then .half else if b = 2 then .word else .double

/-- The code of a width (R292). -/
def Width.toBits : Width → BitVec 2
  | .byte => 0 | .half => 1 | .word => 2 | .double => 3

/-- The atomic width W[2] of R294. -/
def AWidth.ofBit (b : BitVec 1) : AWidth := if b = 0 then .word else .double

/-- The code of an atomic width (R294). -/
def AWidth.toBit : AWidth → BitVec 1
  | .word => 0 | .double => 1

/-! The fields of a first word (R289, R294). -/

/-- The major opcode, bits [31:26]. -/
def majorOf (w : Word32) : BitVec 6 := w.extractLsb' 26 6
/-- Bits [25:21]. -/
def f25 (w : Word32) : Reg := w.extractLsb' 21 5
/-- Bits [20:16]. -/
def f20 (w : Word32) : Reg := w.extractLsb' 16 5
/-- Bits [15:11]. -/
def f15 (w : Word32) : Reg := w.extractLsb' 11 5
/-- The fn field of the R format, bits [10:0]. -/
def fnOf (w : Word32) : BitVec 11 := w.extractLsb' 0 11
/-- imm16 and off16, bits [15:0]. -/
def immOf (w : Word32) : BitVec 16 := w.extractLsb' 0 16
/-- The eng-op field of the E format, bits [10:5]. -/
def engOf (w : Word32) : BitVec 6 := w.extractLsb' 5 6
/-- The mod field of the E format, bits [4:0]. -/
def modOf (w : Word32) : BitVec 5 := w.extractLsb' 0 5
/-- QN of the queued layout, bits [10:7]. -/
def qnOf (w : Word32) : QNum := w.extractLsb' 7 4
/-- ANN of the queued layout, bits [6:5]. -/
def annOf (w : Word32) : Ann := Ann.ofBits (w.extractLsb' 5 2)
/-- SCOPE of the queued layout, bits [4:3]. -/
def scopeOf (w : Word32) : Scope := Scope.ofBits (w.extractLsb' 3 2)

/-- Major 0x00: the ALU operations by fn (R293). -/
def decodeAlu (w : Word32) : Decoded :=
  let d := f25 w; let a := f20 w; let b := f15 w
  let un (i : Instr) := checked [(b != 0, 9)] i
  match (fnOf w).toNat with
  | 0x001 => .ok (.add d a b)
  | 0x002 => .ok (.sub d a b)
  | 0x003 => .ok (.mul d a b)
  | 0x004 => .ok (.mulh d a b)
  | 0x005 => .ok (.mulhu d a b)
  | 0x006 => .ok (.div d a b)
  | 0x007 => .ok (.divu d a b)
  | 0x008 => .ok (.rem d a b)
  | 0x009 => .ok (.remu d a b)
  | 0x00A => .ok (.and d a b)
  | 0x00B => .ok (.or d a b)
  | 0x00C => .ok (.xor d a b)
  | 0x00D => .ok (.andn d a b)
  | 0x00E => .ok (.shl d a b)
  | 0x00F => .ok (.shr d a b)
  | 0x010 => .ok (.sra d a b)
  | 0x011 => .ok (.rotl d a b)
  | 0x012 => .ok (.min d a b)
  | 0x013 => .ok (.max d a b)
  | 0x014 => .ok (.minu d a b)
  | 0x015 => .ok (.maxu d a b)
  | 0x016 => .ok (.slt d a b)
  | 0x017 => .ok (.sltu d a b)
  | 0x018 => .ok (.seq d a b)
  | 0x020 => un (.clz d a)
  | 0x021 => un (.ctz d a)
  | 0x022 => un (.popc d a)
  | 0x023 => un (.brev d a)
  | 0x024 => .ok (.bext d a b)
  | 0x025 => .ok (.bins d a b)
  | 0x026 => .ok (.sext d a b)
  | _ => .bad 7

/-- LDQ and STQ: reserved fields, width codes 4 to 7, annotation, scope (R294, R300). -/
def decodeQueued (w : Word32) (load : Bool) : Decoded :=
  let n := annOf w; let s := scopeOf w
  let wide := bitsOf w.toNat 2 2 != 0
  let wd := Width.ofBits (w.extractLsb' 0 2)
  let badScope := !(annScopeOk n s)
  if load then
    checked [(f25 w != 0 || f15 w != 0, 9), (wide, 12), (decide (n = .rel ∨ n = .ar), 13), (badScope, 14)]
      (.ldq (f20 w) (qnOf w) n s wd)
  else
    checked [(f25 w != 0, 9), (wide, 12), (decide (n = .acq ∨ n = .ar), 13), (badScope, 14)]
      (.stq (f20 w) (f15 w) (qnOf w) n s wd)

/-- The atomics, selected by major and W[1:0] (R295). -/
def decodeAtomic (w : Word32) (group : Nat) : Decoded :=
  let d := f25 w; let a := f20 w; let b := f15 w
  let q := qnOf w; let n := annOf w; let s := scopeOf w
  let z := AWidth.ofBit (w.extractLsb' 2 1)
  let badScope := !(annScopeOk n s)
  let plain (i : Instr) := checked [(d != 0, 9), (badScope, 14)] i
  match group, bitsOf w.toNat 1 0 with
  | 0, 0 => plain (.aadd a b q n s z)
  | 0, 1 => plain (.amin a b q n s z)
  | 0, 2 => plain (.amax a b q n s z)
  | 0, _ => plain (.aminu a b q n s z)
  | 1, 0 => plain (.amaxu a b q n s z)
  | 1, 1 => plain (.aand a b q n s z)
  | 1, 2 => plain (.aor a b q n s z)
  | 1, _ => plain (.axor a b q n s z)
  | _, 0 => plain (.aswp a b q n s z)
  | _, 1 => checked [(badScope, 14)] (.acas d a b q n s z)
  | _, 2 => checked [(d != 0 || b != 0, 9), (badScope, 14)] (.asnap a q n s z)
  | _, _ => plain (.aaddf a b q n s z)

/-- Major 0x35: WAITQ and POPQ (R296). -/
def decodeWait (w : Word32) : Decoded :=
  let rsv := f20 w != 0 || f15 w != 0 || bitsOf w.toNat 6 2 != 0
  match bitsOf w.toNat 1 0 with
  | 0 => checked [(rsv, 9)] (.waitqSrc (f25 w) (qnOf w))
  | 1 => checked [(rsv, 9)] (.waitqVis (f25 w) (qnOf w))
  | 2 => checked [(rsv, 9)] (.popq (f25 w) (qnOf w))
  | _ => .bad 7

/-- Major 0x38: the system instructions by fn (R297). -/
def decodeSystem (w : Word32) : Decoded :=
  let plain (i : Instr) := checked [(f25 w != 0 || f20 w != 0 || f15 w != 0, 9)] i
  match (fnOf w).toNat with
  | 0x001 => plain .nop
  | 0x010 => plain .fenceCore
  | 0x011 => plain .fenceCard
  | 0x012 => plain .fenceDeck
  | 0x013 => plain .fenceDom
  | 0x014 => plain .fencei
  | 0x020 => plain .eret
  | 0x021 => plain .wfe
  | 0x022 => plain .sev
  | 0x023 => plain .halt
  | 0x024 => plain .brk
  | _ => .bad 7

/-- Major 0x1D: the engine commands by eng-op, with the reserved fields and the mod values of their pages
(R298, R300, R348, R110, R378). -/
def decodeEngine (w : Word32) : Decoded :=
  let d := f25 w; let a := f20 w; let b := f15 w; let m := (modOf w).toNat
  let dz := d != 0; let az := a != 0; let bz := b != 0
  let q : QNum := w.extractLsb' 0 4
  let n3 : BitVec 3 := w.extractLsb' 0 3
  match (engOf w).toNat with
  | 0x00 => checked [(dz || bz, 9), (m != 0, 9)] (.gload a)
  | 0x01 => checked [(dz || az || bz, 9), (decide (1 < m), 10)] (if m = 0 then .gswapDrain else .gswapEos)
  | 0x02 => checked [(dz || az || bz, 9), (decide (1 < m), 10)] (if m = 0 then .ggo else .ggoRes)
  | 0x03 => checked [(dz || az || bz, 9), (m != 0, 9)] .gstop
  | 0x04 => checked [(az || bz, 9), (m != 0, 9)] (.gstat d)
  | 0x05 => checked [(dz, 9), (decide (1 < m), 10)] (if m = 0 then .gstv a b else .gstvAct a b)
  | 0x08 => checked [(bz, 9), (decide (1 < m), 10)] (.srds d a (w.extractLsb' 0 1))
  | 0x09 => checked [(bz, 9), (decide (1 < m), 10)] (.swrs d a (w.extractLsb' 0 1))
  | 0x0A => checked [(bz, 9), (decide (1 < m), 10)] (.scpy d a (w.extractLsb' 0 1))
  | 0x0B => checked [(dz, 9), (decide (7 < m), 10)] (.sagc a b n3)
  | 0x0C => checked [(dz || bz, 9), (decide (3 < m), 10)] (.sxlt a (w.extractLsb' 0 2))
  | 0x0D => checked [(dz || bz, 9), (decide (1 < m), 10)] (if m = 0 then .swaitSrc a else .swaitVis a)
  | 0x10 => checked [(dz, 9), (m != 0, 9)] (.rwset a b)
  | 0x11 => checked [(dz || bz, 9), (m != 0, 9)] (.rwrst a)
  | 0x12 => checked [(bz, 9), (m != 0, 9)] (.rwqry d a)
  | 0x14 => checked [(dz || az || bz, 9), (m != 0, 9)] .fdone
  | 0x15 => checked [(dz || bz, 9), (m != 0, 9)] (.fabort a)
  | 0x16 => checked [(dz || bz, 9), (m != 0, 9)] (.mode a)
  | 0x17 => checked [(az || bz, 9), (m != 0, 9)] (.mwait d)
  | 0x18 => checked [(dz, 9), (decide (15 < m), 10)] (.lnch a b q)
  | 0x19 => checked [(bz, 9), (m != 0, 9)] (.lwait d a)
  | 0x1C => checked [(dz, 9), (decide (7 < m), 10)] (.bari a b n3)
  | 0x1D => checked [(az || bz, 9), (decide (7 < m), 10)] (.bara d n3)
  | 0x1E => checked [(dz || bz, 9), (m != 0, 9)] (.barw a)
  | 0x1F => checked [(bz, 9), (m != 0, 9)] (.bart d a)
  | 0x20 => checked [(dz, 9), (m != 0, 9)] (.dkst a b)
  | 0x21 => checked [(dz, 9)] (.dkadd a b (AWidth.ofBit (w.extractLsb' 4 1)) q)
  | 0x22 => .ok (.dkcas d a b (AWidth.ofBit (w.extractLsb' 4 1)) q)
  | 0x23 => checked [(dz || az || bz, 9), (m != 0, 9)] .dksync
  | 0x24 => checked [(dz || bz, 9), (decide (7 < m), 10)] (.rngk a n3)
  | 0x25 => checked [(dz, 9), (decide (7 < m), 10)] (.rngc a b n3)
  | 0x26 => checked [(bz || (decide (m < 8) && az), 9), (decide (15 < m), 10)]
      (if m < 8 then .rngd d n3 else .rngdSt d a n3)
  | 0x28 => checked [(bz || (decide (m < 8) && dz), 9), (decide (15 < m), 10)]
      (if m < 8 then .apndSet a n3 else .apndRow d a n3)
  | 0x29 => checked [(dz || az || bz, 9), (decide (7 < m), 10)] (.mark n3)
  | 0x2A => checked [(dz || bz, 9), (decide (7 < m), 10)] (.fold a n3)
  | 0x2C => checked [(dz || bz, 9), (m != 0, 9)] (.stats a)
  | 0x2D => checked [(dz || bz, 9), (decide (1 < m), 10)] (if m = 0 then .cutmStart a else .cutmRel a)
  | 0x2E => checked [(dz || (m == 1 && bz), 9), (decide (1 < m), 10)] (if m = 0 then .tkbp a b else .tkbpClr a)
  | 0x30 => checked [(dz || bz, 9), (decide (15 < m), 10)] (.frz a q)
  | 0x31 => checked [(dz || bz, 9), (decide (15 < m), 10)] (.thaw a q)
  | 0x34 => checked [(bz, 9), (m != 0, 9)] (.pwrq d a)
  | 0x3A => checked [(dz, 9)] (if m < 16 then .quote a b q else .quoteExt a b q)
  | _ => .bad 8

/-- Major 0x1E: the matrix and meld commands by eng-op (R299, R431). -/
def decodeMatrix (w : Word32) : Decoded :=
  let d := f25 w; let a := f20 w; let b := f15 w; let m := (modOf w).toNat
  let dz := d != 0; let az := a != 0; let bz := b != 0
  let n2 : BitVec 2 := w.extractLsb' 0 2
  let g : BitVec 4 := w.extractLsb' 0 4
  match (engOf w).toNat with
  | 0x00 => checked [(dz || (m == 4 && az), 9), (m != 0 && m != 4, 10)] (if m = 0 then .mxb a b else .mxbPb b)
  | 0x01 => checked [(dz || az || bz, 9), (m != 0, 9)] .mxsw
  | 0x02 => checked [(dz || (decide (4 ≤ m ∧ m < 8) && az), 9), (decide (7 < m), 10)]
      (if m < 4 then .mxmm a b n2 else .mxmmPa b n2)
  | 0x03 =>
    match m / 4 with
    | 0 => checked [(dz || az, 9)] (.mxaccClr b n2)
    | 1 => checked [(az || bz, 9)] (.mxaccQry d n2)
    | 2 => checked [(dz, 9)] (.mxaccOuts a b n2)
    | 3 => checked [(dz || az, 9)] (.mxaccOutp b n2)
    | _ => .bad 10
  | 0x04 => checked [(dz || bz, 9), (decide (3 < m), 10)] (.mxsort a (w.extractLsb' 1 1) (w.extractLsb' 0 1))
  | 0x05 => checked [(dz || bz, 9), (m != 0, 9)] (.mxgang a)
  | 0x06 => checked [(az || bz, 9), (m == 0 || decide (3 < m), 10)] (.mxwait d n2)
  | 0x10 => checked [(bz, 9), (m != 0, 9)] (.mldg d a)
  | 0x11 => checked [(bz || (m == 0 && az), 9), (decide (1 < m), 10)] (if m = 0 then .mlchk d else .mlchkRec d a)
  | 0x12 => checked [(dz || az || bz, 9), (decide (15 < m), 10)] (.mlfree g)
  | 0x13 => checked [(dz, 9), (decide (15 < m), 10)] (.mlrun a b g)
  | 0x14 => checked [(dz || bz, 9), (decide (15 < m), 10)] (.mlcut a g)
  | _ => .bad 8

/-- Decoding a CP word w, with w2 the word after it and tail when w is the last word of the code region or of tile SRAM:
the instruction, or the lowest ENC subcode that applies (R291 to R301). -/
def decodeCp (w w2 : Word32) (tail : Bool) : Decoded :=
  let d := f25 w; let a := f20 w; let i := immOf w
  let dz := d != 0; let az := a != 0
  if w = 0 then .bad 0
  else if w = BitVec.allOnes 32 then .bad 1
  else match (majorOf w).toNat with
  | 0x00 => decodeAlu w
  | 0x01 => .ok (.addi d a i)
  | 0x02 => .ok (.andi d a i)
  | 0x03 => .ok (.ori d a i)
  | 0x04 => .ok (.xori d a i)
  | 0x05 => checked [(decide (63 < i.toNat), 15)] (.shli d a i)
  | 0x06 => checked [(decide (63 < i.toNat), 15)] (.shri d a i)
  | 0x07 => checked [(decide (63 < i.toNat), 15)] (.srai d a i)
  | 0x08 => .ok (.slti d a i)
  | 0x09 => .ok (.sltiu d a i)
  | 0x0A => checked [(az, 9)] (.lui d i)
  | 0x0B => .ok (.jal d (w.extractLsb' 0 21))
  | 0x0C => .ok (.jalr d a i)
  | 0x10 => .ok (.beq d a i)
  | 0x11 => .ok (.bne d a i)
  | 0x12 => .ok (.blt d a i)
  | 0x13 => .ok (.bge d a i)
  | 0x14 => .ok (.bltu d a i)
  | 0x15 => .ok (.bgeu d a i)
  | 0x1D => decodeEngine w
  | 0x1E => decodeMatrix w
  | 0x20 => .ok (.ldb d a i)
  | 0x21 => .ok (.ldbu d a i)
  | 0x22 => .ok (.ldh d a i)
  | 0x23 => .ok (.ldhu d a i)
  | 0x24 => .ok (.ldw d a i)
  | 0x25 => .ok (.ldwu d a i)
  | 0x26 => .ok (.ldd d a i)
  | 0x27 => .ok (.lda d a (Scope.ofBits (w.extractLsb' 14 2)) (Width.ofBits (w.extractLsb' 12 2)) (w.extractLsb' 0 12))
  | 0x28 => .ok (.stb d a i)
  | 0x29 => .ok (.sth d a i)
  | 0x2A => .ok (.stw d a i)
  | 0x2B => .ok (.std d a i)
  | 0x2C => .ok (.stl d a (Scope.ofBits (w.extractLsb' 14 2)) (Width.ofBits (w.extractLsb' 12 2)) (w.extractLsb' 0 12))
  | 0x30 => decodeQueued w true
  | 0x31 => decodeQueued w false
  | 0x32 => decodeAtomic w 0
  | 0x33 => decodeAtomic w 1
  | 0x34 => decodeAtomic w 2
  | 0x35 => decodeWait w
  | 0x38 => decodeSystem w
  | 0x39 => checked [(dz || az, 9)] (.trap i)
  | 0x3A => checked [(az || bitsOf i.toNat 15 12 != 0, 9), (!(sysRegAssigned (w.extractLsb' 0 12)), 11)]
      (.srd d (w.extractLsb' 0 12))
  | 0x3B => checked [(dz || bitsOf i.toNat 15 12 != 0, 9), (!(sysRegAssigned (w.extractLsb' 0 12)), 11)]
      (.swr a (w.extractLsb' 0 12))
  | 0x3C => .bad 2
  | 0x3D => .bad 2
  | 0x3E => .bad 2
  | 0x3F =>
    if tail then .bad 4
    else if 0x8000 ≤ i.toNat then .bad 5
    else if i.toNat = 1 then .ok (.lix d a w2)
    else .bad 6
  | _ => .bad 3

/-! Block instructions (R307 to R310). -/

/-- A target from its valid bit and fields (R307). -/
def Target.ofBits (idx : BitVec 7) (slot : BitVec 2) (v : BitVec 1) (buf : BitVec 2) : Target :=
  ⟨v == 1, idx, slot, buf⟩

/-- The fields of a block instruction (R307). -/
def Blk.ofWord (w : Word) : Blk :=
  ⟨w.extractLsb' 49 5,
   Target.ofBits (w.extractLsb' 42 7) (w.extractLsb' 40 2) (w.extractLsb' 39 1) (w.extractLsb' 37 2),
   Target.ofBits (w.extractLsb' 30 7) (w.extractLsb' 28 2) (w.extractLsb' 27 1) (w.extractLsb' 25 2),
   w.extractLsb' 0 25⟩

/-- The instruction of an assigned element opcode (R309). -/
def elemOf (op : Nat) (b : Blk) : Option Instr :=
  match op with
  | 0x001 => some (.elemNop b)
  | 0x002 => some (.const b)
  | 0x003 => some (.sink b)
  | 0x004 => some (.copy b)
  | 0x040 => some (.elemAdd b)
  | 0x041 => some (.elemSub b)
  | 0x042 => some (.elemMul b)
  | 0x043 => some (.fma b)
  | 0x044 => some (.fms b)
  | 0x045 => some (.nfma b)
  | 0x046 => some (.elemMin b)
  | 0x047 => some (.elemMax b)
  | 0x048 => some (.abs b)
  | 0x049 => some (.neg b)
  | 0x080 => some (.elemAnd b)
  | 0x081 => some (.elemOr b)
  | 0x082 => some (.elemXor b)
  | 0x083 => some (.not b)
  | 0x084 => some (.elemShl b)
  | 0x085 => some (.elemShr b)
  | 0x086 => some (.elemSra b)
  | 0x087 => some (.clamp b)
  | 0x0C0 => some (.cmpeq b)
  | 0x0C1 => some (.cmplt b)
  | 0x0C2 => some (.cmple b)
  | 0x0C3 => some (.sel b)
  | 0x100 => some (.exp2 b)
  | 0x101 => some (.log2 b)
  | 0x102 => some (.rcp b)
  | 0x103 => some (.rsq b)
  | 0x140 => some (.cvt b)
  | 0x141 => some (.qblk b)
  | 0x142 => some (.dqblk b)
  | 0x143 => some (.tosd b)
  | 0x144 => some (.fromsd b)
  | 0x145 => some (.bpln b)
  | 0x180 => some (.rsum b)
  | 0x181 => some (.rmax b)
  | 0x182 => some (.rmin b)
  | 0x183 => some (.bcast b)
  | 0x184 => some (.shuf b)
  | 0x185 => some (.elemRotl b)
  | 0x1C0 => some (.sld b)
  | 0x1C1 => some (.swap b)
  | 0x200 => some (.steer b)
  | 0x201 => some (.merge b)
  | 0x202 => some (.carry b)
  | 0x203 => some (.invar b)
  | 0x240 => some (.lgen b)
  | 0x241 => some (.agen b)
  | 0x242 => some (.agch b)
  | 0x280 => some (.mld b)
  | 0x281 => some (.mst b)
  | 0x282 => some (.matom b)
  | 0x2C0 => some (.pin b)
  | 0x2C1 => some (.pout b)
  | 0x300 => some (.cseq b)
  | 0x301 => some (.cpipe b)
  | 0x302 => some (.cstrm b)
  | 0x340 => some (.eot b)
  | 0x341 => some (.eos b)
  | 0x342 => some (.tstm b)
  | 0x380 => some (.pqc b)
  | 0x381 => some (.smpl b)
  | 0x382 => some (.acpt b)
  | 0x383 => some (.rnge b)
  | 0x3C0 => some (.stcnt b)
  | 0x3C1 => some (.stadd b)
  | _ => none

/-- Decoding a 64-bit block instruction: its opcode is assigned and an unused target's fields are zero (R307, R310). -/
def decodeBlk (w : Word) : Option Instr :=
  let b := Blk.ofWord w
  if b.wf then elemOf (bitsOf w.toNat 63 54) b else none

/-! The encoder. -/

/-- An R-format word (R289). -/
def wordR (maj : BitVec 6) (d a b : Reg) (fn : BitVec 11) : Word32 := maj ++ d ++ a ++ b ++ fn

/-- An I-, S- or B-format word (R289). -/
def wordI (maj : BitVec 6) (x y : Reg) (i : BitVec 16) : Word32 := maj ++ x ++ y ++ i

/-- An E-format word (R289, R347). -/
def wordE (maj : BitVec 6) (d a b : Reg) (op : BitVec 6) (m : BitVec 5) : Word32 := maj ++ d ++ a ++ b ++ op ++ m

/-- A word of the queued layout (R294). -/
def wordQ (maj : BitVec 6) (d a b : Reg) (q : QNum) (n : Ann) (s : Scope) (w : BitVec 3) : Word32 :=
  maj ++ d ++ a ++ b ++ q ++ n.toBits ++ s.toBits ++ w

/-- A scoped direct access (R292, LDA and STL). -/
def wordS (maj : BitVec 6) (x a : Reg) (s : Scope) (w : Width) (i : BitVec 12) : Word32 :=
  maj ++ x ++ a ++ s.toBits ++ w.toBits ++ i

/-- One target's fields in a block word: index, slot, valid, buffer slots (R307). -/
def Target.bits (t : Target) : BitVec 12 := t.idx ++ t.slot ++ (BitVec.ofBool t.v) ++ t.buf

/-- A block word (R307). -/
def wordBlk (op : BitVec 10) (b : Blk) : Word := op ++ b.tcode ++ b.t0.bits ++ b.t1.bits ++ b.modf

/-- The two 32-bit halves of a block word, low half first (R5). -/
def blkWords (w : Word) : List Word32 := [w.extractLsb' 0 32, w.extractLsb' 32 32]

/-- The words of an instruction: one or two CP words, or the two halves of a block instruction; an event has none. -/
def encode : Instr → List Word32
  | .add d a b => [wordR 0x00 d a b 0x001]
  | .sub d a b => [wordR 0x00 d a b 0x002]
  | .mul d a b => [wordR 0x00 d a b 0x003]
  | .mulh d a b => [wordR 0x00 d a b 0x004]
  | .mulhu d a b => [wordR 0x00 d a b 0x005]
  | .div d a b => [wordR 0x00 d a b 0x006]
  | .divu d a b => [wordR 0x00 d a b 0x007]
  | .rem d a b => [wordR 0x00 d a b 0x008]
  | .remu d a b => [wordR 0x00 d a b 0x009]
  | .and d a b => [wordR 0x00 d a b 0x00A]
  | .or d a b => [wordR 0x00 d a b 0x00B]
  | .xor d a b => [wordR 0x00 d a b 0x00C]
  | .andn d a b => [wordR 0x00 d a b 0x00D]
  | .shl d a b => [wordR 0x00 d a b 0x00E]
  | .shr d a b => [wordR 0x00 d a b 0x00F]
  | .sra d a b => [wordR 0x00 d a b 0x010]
  | .rotl d a b => [wordR 0x00 d a b 0x011]
  | .min d a b => [wordR 0x00 d a b 0x012]
  | .max d a b => [wordR 0x00 d a b 0x013]
  | .minu d a b => [wordR 0x00 d a b 0x014]
  | .maxu d a b => [wordR 0x00 d a b 0x015]
  | .slt d a b => [wordR 0x00 d a b 0x016]
  | .sltu d a b => [wordR 0x00 d a b 0x017]
  | .seq d a b => [wordR 0x00 d a b 0x018]
  | .clz d a => [wordR 0x00 d a 0 0x020]
  | .ctz d a => [wordR 0x00 d a 0 0x021]
  | .popc d a => [wordR 0x00 d a 0 0x022]
  | .brev d a => [wordR 0x00 d a 0 0x023]
  | .bext d a b => [wordR 0x00 d a b 0x024]
  | .bins d a b => [wordR 0x00 d a b 0x025]
  | .sext d a b => [wordR 0x00 d a b 0x026]
  | .addi d a i => [wordI 0x01 d a i]
  | .andi d a i => [wordI 0x02 d a i]
  | .ori d a i => [wordI 0x03 d a i]
  | .xori d a i => [wordI 0x04 d a i]
  | .shli d a i => [wordI 0x05 d a i]
  | .shri d a i => [wordI 0x06 d a i]
  | .srai d a i => [wordI 0x07 d a i]
  | .slti d a i => [wordI 0x08 d a i]
  | .sltiu d a i => [wordI 0x09 d a i]
  | .lui d i => [wordI 0x0A d 0 i]
  | .lix d a i => [wordI 0x3F d a 0x0001, i]
  | .jal d o => [((0x0B : BitVec 6) ++ d ++ o : Word32)]
  | .jalr d a i => [wordI 0x0C d a i]
  | .beq a b o => [wordI 0x10 a b o]
  | .bne a b o => [wordI 0x11 a b o]
  | .blt a b o => [wordI 0x12 a b o]
  | .bge a b o => [wordI 0x13 a b o]
  | .bltu a b o => [wordI 0x14 a b o]
  | .bgeu a b o => [wordI 0x15 a b o]
  | .ldb d a i => [wordI 0x20 d a i]
  | .ldbu d a i => [wordI 0x21 d a i]
  | .ldh d a i => [wordI 0x22 d a i]
  | .ldhu d a i => [wordI 0x23 d a i]
  | .ldw d a i => [wordI 0x24 d a i]
  | .ldwu d a i => [wordI 0x25 d a i]
  | .ldd d a i => [wordI 0x26 d a i]
  | .lda d a s w i => [wordS 0x27 d a s w i]
  | .stb b a i => [wordI 0x28 b a i]
  | .sth b a i => [wordI 0x29 b a i]
  | .stw b a i => [wordI 0x2A b a i]
  | .std b a i => [wordI 0x2B b a i]
  | .stl b a s w i => [wordS 0x2C b a s w i]
  | .ldq a q n s w => [wordQ 0x30 0 a 0 q n s ((0 : BitVec 1) ++ w.toBits)]
  | .stq a b q n s w => [wordQ 0x31 0 a b q n s ((0 : BitVec 1) ++ w.toBits)]
  | .aadd a b q n s w => [wordQ 0x32 0 a b q n s (w.toBit ++ (0 : BitVec 2))]
  | .amin a b q n s w => [wordQ 0x32 0 a b q n s (w.toBit ++ (1 : BitVec 2))]
  | .amax a b q n s w => [wordQ 0x32 0 a b q n s (w.toBit ++ (2 : BitVec 2))]
  | .aminu a b q n s w => [wordQ 0x32 0 a b q n s (w.toBit ++ (3 : BitVec 2))]
  | .amaxu a b q n s w => [wordQ 0x33 0 a b q n s (w.toBit ++ (0 : BitVec 2))]
  | .aand a b q n s w => [wordQ 0x33 0 a b q n s (w.toBit ++ (1 : BitVec 2))]
  | .aor a b q n s w => [wordQ 0x33 0 a b q n s (w.toBit ++ (2 : BitVec 2))]
  | .axor a b q n s w => [wordQ 0x33 0 a b q n s (w.toBit ++ (3 : BitVec 2))]
  | .aswp a b q n s w => [wordQ 0x34 0 a b q n s (w.toBit ++ (0 : BitVec 2))]
  | .acas d a b q n s w => [wordQ 0x34 d a b q n s (w.toBit ++ (1 : BitVec 2))]
  | .asnap a q n s w => [wordQ 0x34 0 a 0 q n s (w.toBit ++ (2 : BitVec 2))]
  | .aaddf a b q n s w => [wordQ 0x34 0 a b q n s (w.toBit ++ (3 : BitVec 2))]
  | .waitqSrc d q => [wordR 0x35 d 0 0 (q ++ (0 : BitVec 7))]
  | .waitqVis d q => [wordR 0x35 d 0 0 (q ++ (1 : BitVec 7))]
  | .popq d q => [wordR 0x35 d 0 0 (q ++ (2 : BitVec 7))]
  | .nop => [wordR 0x38 0 0 0 0x001]
  | .fenceCore => [wordR 0x38 0 0 0 0x010]
  | .fenceCard => [wordR 0x38 0 0 0 0x011]
  | .fenceDeck => [wordR 0x38 0 0 0 0x012]
  | .fenceDom => [wordR 0x38 0 0 0 0x013]
  | .fencei => [wordR 0x38 0 0 0 0x014]
  | .eret => [wordR 0x38 0 0 0 0x020]
  | .wfe => [wordR 0x38 0 0 0 0x021]
  | .sev => [wordR 0x38 0 0 0 0x022]
  | .halt => [wordR 0x38 0 0 0 0x023]
  | .brk => [wordR 0x38 0 0 0 0x024]
  | .trap i => [wordI 0x39 0 0 i]
  | .srd d n => [wordI 0x3A d 0 ((0 : BitVec 4) ++ n)]
  | .swr a n => [wordI 0x3B 0 a ((0 : BitVec 4) ++ n)]
  | .gload a => [wordE 0x1D 0 a 0 0x00 0]
  | .gswapDrain => [wordE 0x1D 0 0 0 0x01 0]
  | .gswapEos => [wordE 0x1D 0 0 0 0x01 1]
  | .ggo => [wordE 0x1D 0 0 0 0x02 0]
  | .ggoRes => [wordE 0x1D 0 0 0 0x02 1]
  | .gstop => [wordE 0x1D 0 0 0 0x03 0]
  | .gstat d => [wordE 0x1D d 0 0 0x04 0]
  | .gstv a b => [wordE 0x1D 0 a b 0x05 0]
  | .gstvAct a b => [wordE 0x1D 0 a b 0x05 1]
  | .srds d a e => [wordE 0x1D d a 0 0x08 ((0 : BitVec 4) ++ e)]
  | .swrs d a e => [wordE 0x1D d a 0 0x09 ((0 : BitVec 4) ++ e)]
  | .scpy d a e => [wordE 0x1D d a 0 0x0A ((0 : BitVec 4) ++ e)]
  | .sagc a b c => [wordE 0x1D 0 a b 0x0B ((0 : BitVec 2) ++ c)]
  | .sxlt a e => [wordE 0x1D 0 a 0 0x0C ((0 : BitVec 3) ++ e)]
  | .swaitSrc a => [wordE 0x1D 0 a 0 0x0D 0]
  | .swaitVis a => [wordE 0x1D 0 a 0 0x0D 1]
  | .rwset a b => [wordE 0x1D 0 a b 0x10 0]
  | .rwrst a => [wordE 0x1D 0 a 0 0x11 0]
  | .rwqry d a => [wordE 0x1D d a 0 0x12 0]
  | .fdone => [wordE 0x1D 0 0 0 0x14 0]
  | .fabort a => [wordE 0x1D 0 a 0 0x15 0]
  | .mode a => [wordE 0x1D 0 a 0 0x16 0]
  | .mwait d => [wordE 0x1D d 0 0 0x17 0]
  | .lnch a b q => [wordE 0x1D 0 a b 0x18 ((0 : BitVec 1) ++ q)]
  | .lwait d a => [wordE 0x1D d a 0 0x19 0]
  | .bari a b n => [wordE 0x1D 0 a b 0x1C ((0 : BitVec 2) ++ n)]
  | .bara d n => [wordE 0x1D d 0 0 0x1D ((0 : BitVec 2) ++ n)]
  | .barw a => [wordE 0x1D 0 a 0 0x1E 0]
  | .bart d a => [wordE 0x1D d a 0 0x1F 0]
  | .dkst a b => [wordE 0x1D 0 a b 0x20 0]
  | .dkadd a b w q => [wordE 0x1D 0 a b 0x21 (w.toBit ++ q)]
  | .dkcas d a b w q => [wordE 0x1D d a b 0x22 (w.toBit ++ q)]
  | .dksync => [wordE 0x1D 0 0 0 0x23 0]
  | .rngk a s => [wordE 0x1D 0 a 0 0x24 ((0 : BitVec 2) ++ s)]
  | .rngc a b s => [wordE 0x1D 0 a b 0x25 ((0 : BitVec 2) ++ s)]
  | .rngd d s => [wordE 0x1D d 0 0 0x26 ((0 : BitVec 2) ++ s)]
  | .rngdSt d a s => [wordE 0x1D d a 0 0x26 ((1 : BitVec 2) ++ s)]
  | .apndSet a n => [wordE 0x1D 0 a 0 0x28 ((0 : BitVec 2) ++ n)]
  | .apndRow d a n => [wordE 0x1D d a 0 0x28 ((1 : BitVec 2) ++ n)]
  | .mark n => [wordE 0x1D 0 0 0 0x29 ((0 : BitVec 2) ++ n)]
  | .fold a n => [wordE 0x1D 0 a 0 0x2A ((0 : BitVec 2) ++ n)]
  | .stats a => [wordE 0x1D 0 a 0 0x2C 0]
  | .cutmStart a => [wordE 0x1D 0 a 0 0x2D 0]
  | .cutmRel a => [wordE 0x1D 0 a 0 0x2D 1]
  | .tkbp a b => [wordE 0x1D 0 a b 0x2E 0]
  | .tkbpClr a => [wordE 0x1D 0 a 0 0x2E 1]
  | .frz a q => [wordE 0x1D 0 a 0 0x30 ((0 : BitVec 1) ++ q)]
  | .thaw a q => [wordE 0x1D 0 a 0 0x31 ((0 : BitVec 1) ++ q)]
  | .pwrq d a => [wordE 0x1D d a 0 0x34 0]
  | .quote a b q => [wordE 0x1D 0 a b 0x3A ((0 : BitVec 1) ++ q)]
  | .quoteExt a b q => [wordE 0x1D 0 a b 0x3A ((1 : BitVec 1) ++ q)]
  | .mxb a b => [wordE 0x1E 0 a b 0x00 0]
  | .mxbPb b => [wordE 0x1E 0 0 b 0x00 4]
  | .mxsw => [wordE 0x1E 0 0 0 0x01 0]
  | .mxmm a b n => [wordE 0x1E 0 a b 0x02 ((0 : BitVec 3) ++ n)]
  | .mxmmPa b n => [wordE 0x1E 0 0 b 0x02 ((1 : BitVec 3) ++ n)]
  | .mxaccClr b n => [wordE 0x1E 0 0 b 0x03 ((0 : BitVec 3) ++ n)]
  | .mxaccQry d n => [wordE 0x1E d 0 0 0x03 ((1 : BitVec 3) ++ n)]
  | .mxaccOuts a b n => [wordE 0x1E 0 a b 0x03 ((2 : BitVec 3) ++ n)]
  | .mxaccOutp b n => [wordE 0x1E 0 0 b 0x03 ((3 : BitVec 3) ++ n)]
  | .mxsort a k i => [wordE 0x1E 0 a 0 0x04 ((0 : BitVec 3) ++ k ++ i)]
  | .mxgang a => [wordE 0x1E 0 a 0 0x05 0]
  | .mxwait d s => [wordE 0x1E d 0 0 0x06 ((0 : BitVec 3) ++ s)]
  | .mldg d a => [wordE 0x1E d a 0 0x10 0]
  | .mlchk d => [wordE 0x1E d 0 0 0x11 0]
  | .mlchkRec d a => [wordE 0x1E d a 0 0x11 1]
  | .mlfree m => [wordE 0x1E 0 0 0 0x12 ((0 : BitVec 1) ++ m)]
  | .mlrun a b m => [wordE 0x1E 0 a b 0x13 ((0 : BitVec 1) ++ m)]
  | .mlcut a m => [wordE 0x1E 0 a 0 0x14 ((0 : BitVec 1) ++ m)]
  | .mxbLoad _ => []
  | .mxswExchange _ => []
  | .mxmmExecute _ => []
  | .mxaccExecute _ => []
  | .mxsortExecute _ => []
  | .mxgangExecute _ => []
  | .meldRun _ => []
  | .mlfreeComplete _ => []
  | .mlcutExecute _ => []
  | .elemNop b => blkWords (wordBlk 0x001 b)
  | .const b => blkWords (wordBlk 0x002 b)
  | .sink b => blkWords (wordBlk 0x003 b)
  | .copy b => blkWords (wordBlk 0x004 b)
  | .elemAdd b => blkWords (wordBlk 0x040 b)
  | .elemSub b => blkWords (wordBlk 0x041 b)
  | .elemMul b => blkWords (wordBlk 0x042 b)
  | .fma b => blkWords (wordBlk 0x043 b)
  | .fms b => blkWords (wordBlk 0x044 b)
  | .nfma b => blkWords (wordBlk 0x045 b)
  | .elemMin b => blkWords (wordBlk 0x046 b)
  | .elemMax b => blkWords (wordBlk 0x047 b)
  | .abs b => blkWords (wordBlk 0x048 b)
  | .neg b => blkWords (wordBlk 0x049 b)
  | .elemAnd b => blkWords (wordBlk 0x080 b)
  | .elemOr b => blkWords (wordBlk 0x081 b)
  | .elemXor b => blkWords (wordBlk 0x082 b)
  | .not b => blkWords (wordBlk 0x083 b)
  | .elemShl b => blkWords (wordBlk 0x084 b)
  | .elemShr b => blkWords (wordBlk 0x085 b)
  | .elemSra b => blkWords (wordBlk 0x086 b)
  | .clamp b => blkWords (wordBlk 0x087 b)
  | .cmpeq b => blkWords (wordBlk 0x0C0 b)
  | .cmplt b => blkWords (wordBlk 0x0C1 b)
  | .cmple b => blkWords (wordBlk 0x0C2 b)
  | .sel b => blkWords (wordBlk 0x0C3 b)
  | .exp2 b => blkWords (wordBlk 0x100 b)
  | .log2 b => blkWords (wordBlk 0x101 b)
  | .rcp b => blkWords (wordBlk 0x102 b)
  | .rsq b => blkWords (wordBlk 0x103 b)
  | .cvt b => blkWords (wordBlk 0x140 b)
  | .qblk b => blkWords (wordBlk 0x141 b)
  | .dqblk b => blkWords (wordBlk 0x142 b)
  | .tosd b => blkWords (wordBlk 0x143 b)
  | .fromsd b => blkWords (wordBlk 0x144 b)
  | .bpln b => blkWords (wordBlk 0x145 b)
  | .rsum b => blkWords (wordBlk 0x180 b)
  | .rmax b => blkWords (wordBlk 0x181 b)
  | .rmin b => blkWords (wordBlk 0x182 b)
  | .bcast b => blkWords (wordBlk 0x183 b)
  | .shuf b => blkWords (wordBlk 0x184 b)
  | .elemRotl b => blkWords (wordBlk 0x185 b)
  | .sld b => blkWords (wordBlk 0x1C0 b)
  | .swap b => blkWords (wordBlk 0x1C1 b)
  | .steer b => blkWords (wordBlk 0x200 b)
  | .merge b => blkWords (wordBlk 0x201 b)
  | .carry b => blkWords (wordBlk 0x202 b)
  | .invar b => blkWords (wordBlk 0x203 b)
  | .lgen b => blkWords (wordBlk 0x240 b)
  | .agen b => blkWords (wordBlk 0x241 b)
  | .agch b => blkWords (wordBlk 0x242 b)
  | .mld b => blkWords (wordBlk 0x280 b)
  | .mst b => blkWords (wordBlk 0x281 b)
  | .matom b => blkWords (wordBlk 0x282 b)
  | .pin b => blkWords (wordBlk 0x2C0 b)
  | .pout b => blkWords (wordBlk 0x2C1 b)
  | .cseq b => blkWords (wordBlk 0x300 b)
  | .cpipe b => blkWords (wordBlk 0x301 b)
  | .cstrm b => blkWords (wordBlk 0x302 b)
  | .eot b => blkWords (wordBlk 0x340 b)
  | .eos b => blkWords (wordBlk 0x341 b)
  | .tstm b => blkWords (wordBlk 0x342 b)
  | .pqc b => blkWords (wordBlk 0x380 b)
  | .smpl b => blkWords (wordBlk 0x381 b)
  | .acpt b => blkWords (wordBlk 0x382 b)
  | .rnge b => blkWords (wordBlk 0x383 b)
  | .stcnt b => blkWords (wordBlk 0x3C0 b)
  | .stadd b => blkWords (wordBlk 0x3C1 b)
  | .elementMark _ _ _ => []
  | .wavefrontSwapUnmarked _ _ => []
  | .drainGatedSwap _ => []
  | .gloadComplete _ => []
  | .firingStart _ => []
  | .actorDrain _ => []
  | .wrptrWrite _ _ => []
  | .rdptrMirror _ _ => []
  | .memoryActorFiring _ => []
  | .modeTokenAccept _ => []
  | .sequencerStop _ => []
  | .modeXpkgTimeout _ => []
  | .translationWalk _ _ => []
  | .homePerform _ _ => []
  | .kittyResend _ _ => []
  | .kittyRelease _ _ => []
  | .kittyDecline _ _ => []
  | .pageInvalidate _ _ _ => []
  | .rangeEntryWrite _ _ _ _ _ _ => []
  | .remapDescriptorWrite _ _ _ _ => []
  | .queueEntryComplete _ _ => []
  | .sourceReleased _ _ => []
  | .localAtomicTimeout _ _ => []
  | .queueWaitTimeout _ => []
  | .streamStart _ _ => []
  | .streamBurst _ _ => []
  | .streamSourceReleased _ _ => []
  | .streamVisible _ _ => []
  | .swaitTimeout _ => []
  | .mxwaitTimeout _ => []
  | .gridWatchdog _ _ => []
  | .portWaitTimeout _ _ => []
  | .barrierArrival _ _ => []
  | .launchRequest _ _ => []
  | .imageValidation _ => []
  | .placementTimeout _ => []
  | .graphAdmit => []
  | .shadowReport _ _ => []
  | .statusTimeout _ => []
  | .commitSwap _ => []
  | .packageReport _ _ _ => []
  | .xpkgGo _ => []
  | .xpkgAbort _ => []
  | .xpkgReportTimeout _ => []
  | .peerHalt _ => []
  | .freezeRequest _ => []
  | .freezeWave _ => []
  | .freezeComplete _ _ => []
  | .freezeTimeout _ => []
  | .graphStop _ => []
  | .contextCreate _ => []
  | .contextHalt _ => []
  | .contextResume _ => []
  | .noticeDelivery _ => []
  | .cutMarker _ => []
  | .cutTimeout _ => []
  | .dumpStart => []
  | .dumpComplete => []
  | .dumpEngineFault => []
  | .pendingRemoteExpiry _ _ => []
  | .scrubStep _ => []
  | .hbmRowSpare _ => []
  | .streamDataSlot _ _ => []
  | .windowWriteSlot _ _ => []
  | .deckAtomicSlot _ _ => []
  | .memoryActorResponseSlot _ _ => []
  | .noticeSlot _ => []
  | .creditSlot _ => []
  | .refreshCopySlot _ => []
  | .returnRecordSlot _ => []
  | .frameBoundary => []
  | .replicaApply _ => []
  | .calendarWrite _ _ => []
  | .dkwinRangeWrite _ _ _ => []
  | .cardSleep _ => []
  | .cardWake _ => []
  | .wakeSequenceTimeout _ => []
  | .sensorSample _ _ => []
  | .thermalRepeat _ => []
  | .sensorSilent _ => []
  | .edgeViaOvercurrent _ => []
  | .supplyDroop _ => []
  | .moduleLimitWrite _ => []
  | .powerGate _ => []
  | .coreWakeComplete _ => []
  | .wakeTimeout _ => []
  | .remoteRequest _ => []
  | .remoteResponse _ _ _ _ => []
  | .remoteTimeout _ _ => []
  | .vcTokenArrival _ _ _ => []
  | .vcCredit _ _ => []
  | .portRetrain _ => []
  | .portRetrained _ => []
  | .portDown _ _ => []
  | .flitUncorrectable _ => []
  | .domainEnumeration _ => []
  | .ingressWrite _ _ _ _ => []
  | .creditWriteback _ => []
  | .openRecord _ => []
  | .dataRecord _ => []
  | .closeRecord _ => []
  | .modeRecord _ => []
  | .ingressDrainAccepted _ => []
  | .ingressEn _ _ => []
  | .ingressRst _ => []
  | .egressEn _ _ => []
  | .egressRst _ => []
  | .rdposWrite _ _ => []
  | .graphStoreEnable _ => []
  | .graphStoreAccess _ _ _ => []
  | .egressRecordWrite _ => []
  | .completionWordWrite _ => []
  | .pcieLinkDown => []
  | .registerWrite _ _ => []
  | .coldReset => []
  | .quoteCapture => []
  | .quoteExtendApply => []
  | .getVersion _ => []
  | .getCapabilities _ => []
  | .negotiateAlgorithms _ => []
  | .getDigests _ => []
  | .getCertificate _ => []
  | .challenge _ => []
  | .getMeasurements _ => []
  | .spdmUnsupportedRequest _ => []
  | .victimMinRunTime _ => []
  | .contextDestroy _ => []
  | .unassignedEncoding _ _ _ => []
  | .instructionFetchFault _ => []

/-- The one CP instruction of two words (R291). -/
def Instr.isLix : Instr → Bool
  | .lix _ _ _ => true
  | _ => false

/-- The words of an instruction decode to it again: a CP word whatever follows it, the two words of LIX unless the second
lies outside the region (R291), the halves of a block instruction. An event has no words. -/
def Instr.readsBack (i : Instr) : Prop :=
  (∀ w, encode i = [w] → ∀ w2 tail, decodeCp w w2 tail = .ok i) ∧
  (∀ lo hi, encode i = [lo, hi] → if i.isLix then decodeCp lo hi false = .ok i else decodeBlk (hi ++ lo : Word) = some i)

/-- The instruction the decoder reads from the table's bits: a CP word (with the second word of an X-format instruction
above it, zero where the table gives none), or a block word. -/
def decodeTableWord (nbits w : Nat) : Option Instr :=
  let lo := BitVec.ofNat 32 w
  let hi := if nbits ≤ 32 then 0 else BitVec.ofNat 32 (w / 2 ^ 32)
  if nbits ≤ 32 || (majorOf lo == 0x3F && (immOf lo) == 1) then
    match decodeCp lo hi false with
    | .ok i => some i
    | .bad _ => none
  else decodeBlk (BitVec.ofNat 64 w)

end Sys2Proof
end

