-- ==== Sys2Proof/Machine/State.lean ====
section
/-! DEFINITION. The state of the machine as plain data: everything the spec names, and the few fields of the model's own
(the agenda, the counters of free values). Registers that software reads whole stay bit vectors; what lives only inside
the machine is an inductive type, a number or a list. -/

namespace Sys2Proof.Machine

/-! ### Small things -/

/-- What travels on a link: a data token with its bytes, or a CTL token (a mark, GO or DONE) (R392, R393). -/
inductive Item where
  | data (bytes : List Byte)
  | ctl (w : Word)
  deriving DecidableEq, Repr

/-- The privilege modes (R13, R305). -/
inductive Mode where
  | u | s | m
  deriving DecidableEq, Repr

/-- The 32-byte notice record of R160, by its fields. -/
structure Notice where
  cause : Nat := 0
  ctx : Nat := 0
  flags : Nat := 0
  graph : Nat := 0
  imageid : Nat := 0
  core : Nat := 0xFFFF
  port : Nat := 0xFFFF
  chan : Nat := 0xFFFFFFFF
  detail : Nat := 0
  deriving DecidableEq, Repr

/-- How a CP stands (R126, R170, R269, R282, R344, R366). -/
inductive Run where
  /-- holds no program: no graph has committed here and nothing has placed one. -/
  | idle
  /-- executes at pc. -/
  | running
  /-- after FDONE, until the sequencer starts the next firing (R366). -/
  | betweenFirings
  /-- stopped by a U-mode trap (R269, R270). -/
  | trapped
  /-- stopped by HALT (R344). -/
  | halted
  /-- stopped by a trap taken with INTRAP set (R269), or by CPX.15 (R345). -/
  | nested
  /-- stopped with its graph (R126). -/
  | graphHalted
  /-- stopped by a freeze wave (R170). -/
  | frozen
  deriving DecidableEq, Repr

/-- The tile power states of R39. -/
inductive Power where
  | running | clockGated | waking | powerGated
  deriving DecidableEq, Repr

/-! ### Queue entries -/

/-- What a queue entry was issued for. -/
inductive EntryOp where
  | access (op : QOp)
  | deckAdd
  | deckCas
  | quote
  | quoteExt
  | launch
  | freeze
  | thaw
  deriving DecidableEq, Repr

/-- Where a request's address leads (R66, R188): not yet translated, a local address, a remote address, parked. -/
inductive Dest where
  | none
  | phys (pa : Nat)
  | parked (pa : Nat)
  deriving DecidableEq, Repr

/-- A translation that a queue's or an address generator's hardware holds (R199): of a context's virtual page, for one kind of
access, to the domain address of the page. -/
structure Held where
  ctx : Nat
  page : Nat
  ld : Bool
  st : Bool
  mode : Mode
  pa : Nat
  deriving DecidableEq, Repr

/-- One decoupling-queue entry (R192 to R194, R332 to R335) with the request it carries: dest leads to its first byte, pa2 is the
first byte of its second page, parks the addresses, with the sizes of their pages as powers of two, at whose homes it is still to
be parked. -/
structure QEntry where
  busy : Bool := false
  op : EntryOp := .access .ldq
  storeType : Bool := false
  seq : Nat := 0
  addr : Nat := 0
  bytes : Nat := 0
  data : Nat := 0
  cmp : Nat := 0
  ann : Ann := .rlx
  scope : Scope := .core
  mode : Mode := .u
  dest : Dest := .none
  pa2 : Nat := 0
  parks : List (Nat × Nat) := []
  released : Bool := false
  performed : Bool := false
  done : Bool := false
  fault : Nat := 0
  ack : Bool := false
  resp : Nat := 0
  issuedAt : Nat := 0
  deriving DecidableEq, Repr

/-! ### Window descriptors -/

/-- A window descriptor (R128): its five doubles, whether RWSET attached it (R364), and the mark fields of its slots
(R418). -/
structure WinDesc where
  d0 : Word := 0
  d1 : Word := 0
  wr : Word := 0
  rd : Word := 0
  d4 : Word := 0
  att : Bool := false
  marks : NMap (List Word) := []
  deriving DecidableEq, Repr

/-- A token, pointer or drain on its way from a producer's output descriptor to the consumer's input descriptor, with the
sender's point of issue (R130, R136, R217). -/
structure PtrMsg where
  desc : Nat
  wrptr : Nat
  bytes : List Byte
  marks : List Word
  drain : Bool
  seq : Nat := 0
  deriving DecidableEq, Repr

/-- A read pointer of an input descriptor on its way to the producer, with the read pointer before and the point up to which the
freed tokens' reads were issued (R130, R218). -/
structure Mirror where
  desc : Nat
  rd : Nat
  seq : Nat := 0
  was : Nat := 0
  deriving DecidableEq, Repr

/-- What a port keeps: its 48-bit ordinal, its count in the firing, the ordinal of a held token, whether its drain
token has been sent (R123, R124, R136). -/
structure PortSt where
  ord : Nat := 0
  cnt : Nat := 0
  hold : Option Nat := none
  drained : Bool := false
  deriving DecidableEq, Repr

/-! ### Streams -/

/-- An address chain (R361): run length, per-dimension (count, stride), its AG nodes. -/
structure Chain where
  run : Nat
  dims : List (Nat × Int)
  node : Nat
  deriving DecidableEq, Repr

/-- A stream command in an engine's queue (R356 to R360), with the bytes of one of its tokens where its local side is a grid port, and
how far it has come. -/
structure StrCmd where
  kind : Nat
  seq : Nat
  desc : List Word
  chain : Option Chain
  mode : Mode
  xmode : Nat
  xwin : Nat
  xmode2 : Nat
  xwin2 : Nat
  infire : Bool
  tok : Nat := 0
  started : Bool := false
  pos : Nat := 0
  buf : List Byte := []
  released : Bool := false
  visible : Bool := false
  iseq : Nat := 0
  deriving DecidableEq, Repr

/-- A stream engine: its queue, the commands issued and the two event counts since commit, the tokens and bytes it has sent
since commit (R464), its translation setting; the translations its nodes hold, and the row and entry read at the last row crossing
of its reads (0) and of its writes (1) (R199, R201); the counts of its transpositions (R259). -/
structure Engine where
  queue : List StrCmd := []
  issued : Nat := 0
  released : Nat := 0
  visible : Nat := 0
  tokens : Nat := 0
  bytes : Nat := 0
  xmode : Nat := 0
  xwin : Nat := 0
  held : List Held := []
  rows : NMap (Nat × Nat) := []
  counts : List Nat := []
  deriving DecidableEq, Repr

/-! ### Matrix and meld -/

/-- A command of the matrix queue (R431). -/
inductive MxOp where
  | mxb (port : Bool)
  | mxsw
  | mxmm (bank : Nat) (port : Bool)
  | clr (bank : Nat)
  | outs (bank : Nat)
  | outp (bank : Nat)
  | sort (keysIn : Bool) (out : Bool)
  | gang (on : Bool)
  deriving DecidableEq, Repr

/-- A queued matrix command with its operands, and the bytes of the record it read; gang says that MXGANG mode put it there (R440). -/
structure MxCmd where
  op : MxOp
  x : Word
  y : Word
  rcd : List Word := []
  iseq : Nat := 0
  gang : Bool := false
  deriving DecidableEq, Repr

/-- An aligned k-group: the exponent and the eight integers (R248); scale 1 when the type is an integer type. -/
structure KGroup where
  e : Int
  n : List Int
  deriving DecidableEq, Repr

/-- A B buffer (R433): valid, k-groups, type code, planes, and for each column its groups. -/
structure BBuf where
  valid : Bool := false
  kg : Nat := 0
  tcode : Nat := 0
  pb : Nat := 0
  cols : List (List KGroup) := []
  deriving DecidableEq, Repr

/-- The five statistics counts of R259, in its order: overflow, saturation, NaN, flush, cut. -/
abbrev Counts := List Nat

/-- An accumulator bank (R438): mode, exponent, completed count, statistics; its elements are memory. -/
structure Bank where
  mode : Nat := 0
  e : Int := 0
  done : Nat := 0
  counts : Counts := []
  deriving DecidableEq, Repr

/-- The matrix engine of a core; counts are those of its B loads and sorts (R259). -/
structure Matrix where
  queue : List MxCmd := []
  active : BBuf := {}
  loading : BBuf := {}
  banks : NMap Bank := []
  gang : Bool := false
  done : Nat := 0
  counts : Counts := []
  deriving DecidableEq, Repr

/-- A loaded meld graph (R448): counts, its physical nodes in order, its cut, whether an MLFREE has been issued. -/
structure MeldGraph where
  nin : Nat
  ntap : Nat
  d : Nat
  nodes : List Nat
  cut : Nat := 0
  freeing : Bool := false
  deriving DecidableEq, Repr

/-- A command of the meld queue (R450, R451): a run with its point of issue and the vectors it has done, a free, a cut. -/
inductive MlCmd where
  | run (id : Nat) (x : Word) (y : Word) (iseq : Nat) (pos : Nat)
  | free (id : Nat)
  | cut (id : Nat) (c : Nat)
  deriving DecidableEq, Repr

/-- The meld array of a core; counts are those of its outputs (R259). -/
structure Meld where
  queue : List MlCmd := []
  graphs : NMap MeldGraph := []
  done : Nat := 0
  counts : Counts := []
  deriving DecidableEq, Repr

/-! ### Grid -/

/-- A configuration plane: whether it is complete, its block's header and words, and the site of each instruction: its
byte of the placement table, or 0x100 + router site (R306, R351, R390). -/
structure Plane where
  valid : Bool := false
  blockid : Nat := 0
  header : Nat := 0
  words : List Word := []
  place : List Nat := []
  deriving DecidableEq, Repr

/-- What an element keeps between tokens (R401 to R426): a phase, counts, held bytes, loop bounds and indices, pending
outputs for its two targets, statistics, the translation its AG node holds (R199, R415), sampled or ranked items, per-slot ordinals,
the slots a drain mark has passed (R396), since when it waits, and since when for space (R417, R429). -/
structure Elem where
  phase : Nat := 0
  cnt : Nat := 0
  iter : Nat := 0
  held : List Byte := []
  items : List (Nat × Nat) := []
  bounds : List Nat := []
  index : List Nat := []
  kids : List (Nat × Nat) := []
  out0 : List Item := []
  out1 : List Item := []
  counts : Counts := []
  statq : NMap (List Counts) := []
  xlats : List Held := []
  ords : NMap Nat := []
  goQ : Nat := 0
  drained : Bool := false
  passed : List Nat := []
  swapped : Bool := false
  since : Option Nat := none
  blocked : Option Nat := none
  deriving DecidableEq, Repr

/-- A grid command that waits in the grid's queue behind a load or a drain-gated swap (R349, R350). -/
inductive GCmd where
  | load (id : Nat)
  | swapDrain
  | swapEos
  | go
  deriving DecidableEq, Repr

/-- The grid of a core: both planes, the configuration state of R151, elements and links by plane and index, port
queues of the streams and the south edge, the activity counts of each element in its interval (R285); goAct and goSh say
that a go-ahead of the firing has reached the plane (R350, R455). -/
structure Grid where
  act : Plane := {}
  sh : Plane := {}
  armed : Bool := false
  lstate : Nat := 0
  lcause : Nat := 0
  loading : Nat := 0
  held : Bool := false
  draining : Bool := false
  queue : List GCmd := []
  elems : NMap Elem := []
  links : NMap (List Item) := []
  chan : NMap (List Item) := []
  goes : Nat := 0
  dones : Nat := 0
  goAct : Bool := false
  goSh : Bool := false
  activity : NMap (List Nat) := []
  deriving DecidableEq, Repr

/-! ### The rest of a core -/

/-- An RNG stream (R253): 64-bit key, 128-bit counter. -/
structure Rng where
  key : Word := 0
  ctr : BitVec 128 := 0
  deriving DecidableEq, Repr

/-- A write of an append region on its way to memory: a row, or the length double (R380). -/
structure ApWrite where
  addr : Nat
  bytes : List Byte
  isLen : Bool
  seq : Nat
  mode : Mode := .u
  deriving DecidableEq, Repr

/-- The boundary guard's notices of a core (R162): the millisecond of graph time it counts, and the notices in it. -/
structure Guard where
  ms : Nat := 0
  sent : Nat := 0
  deriving DecidableEq, Repr

/-- An append region (R379). -/
structure Append where
  set : Bool := false
  base : Nat := 0
  lenAddr : Nat := 0
  capRows : Nat := 0
  rowBytes : Nat := 0
  len : Nat := 0
  tlen : Nat := 0
  mpos : Nat := 0
  queue : List ApWrite := []
  deriving DecidableEq, Repr

/-- A core's side of a barrier (R372, R373): count and scope it declared, arrivals so far, arrivals on their way as phase and
point of issue. -/
structure CoreBar where
  inited : Bool := false
  p : Nat := 0
  scope : Scope := .card
  arrivals : Nat := 0
  onWay : List (Nat × Nat) := []
  deriving DecidableEq, Repr

/-- A deck operation: kind 2 write or 3 atomic, issuer, context, offset, bytes, AOP, width, compare, queue entry, point of
issue; the slot that carried it; whether the hub returns its old value (R56); in the queue of its own card, the old value
that the master has computed. -/
structure DeckOp where
  atomic : Bool
  card : Nat
  index : Nat
  ctx : Nat
  off : Nat
  bytes : List Byte
  aop : Nat := 0
  double : Bool := false
  cmp : Nat := 0
  q : Nat := 0
  seq : Nat := 0
  fseq : Nat := 0
  slot : Nat := 0
  suit : Nat := 0
  viaHub : Bool := false
  mold : Option Nat := none
  deriving DecidableEq, Repr

/-- An armed token breakpoint (R281, R383): KIND, ACTOR or SLOT, LINK, ordinal. -/
structure Break where
  elem : Bool
  sub : Nat
  link : Nat
  ordinal : Nat
  deriving DecidableEq, Repr

/-- How the sequencer stands in a mode switch (R135): holding at its report, stopped. -/
structure SeqMode where
  holding : Bool := false
  reported : Option Nat := none
  target : Option Nat := none
  stopped : Bool := false
  deriving DecidableEq, Repr

/-- The shadow copy the Dealer writes for a commit (R148): code window, sequencer bytes, descriptors, meld graph records,
energy class, the mode firings run in. -/
structure Shadow where
  codewin : Word := 0
  seqBytes : List (Nat × List Byte) := []
  descs : NMap WinDesc := []
  melds : List (List Byte) := []
  eclass : Nat := 0
  mode : Mode := .u
  deriving DecidableEq, Repr

/-- A core (R20; head and round are the sequencer's place in its segment and the rounds of it served): CP, sequencer, grid,
streams, matrix engine, meld array; tile SRAM and the other byte-addressed parts of its window are memory. convs are the counts of
its router's conversions by window (R259); modeSeq is the point of issue of its last MODE (R369); mxWait is what an MXWAIT waits
for: a point of issue and a count of meld commands (R443). codeOld holds the bytes that fetches still see where the CP has stored into its code region
since the last FENCEI (R184, R337); tlb are the four translations its queues share (R199); retries says before which graph time
a request that a full share refused is not sent again, by its number (R203); frozeAs is how the CP stood when a freeze wave stopped it;
awaited is the outcome of a graph of another package for which an LWAIT waits, as package, handle and outcome (R371); wfe says that
the CP waits in a WFE, woken that a listed event has ended that wait (R343). -/
structure Core where
  regs : NMap Word := []
  pc : Nat := 0
  run : Run := .idle
  frozeAs : Run := .idle
  cut : Bool := false
  status : Word := 0
  cause : Word := 0
  epc : Word := 0
  tval : Word := 0
  vector : Word := 0
  codewin : Word := 0
  actor : Word := 0
  phase : Word := 0
  entries : NMap QEntry := []
  issueSeq : Nat := 0
  rngs : NMap Rng := []
  event : Bool := false
  wfe : Bool := false
  woken : Bool := false
  waitSince : Option Nat := none
  codeOld : NMap Byte := []
  tlb : List Held := []
  retries : NMap Nat := []
  graph : Nat := 0
  lcore : Nat := 0
  eclass : Nat := 0
  power : Power := .powerGated
  idleSince : Nat := 0
  wakeSince : Nat := 0
  descs : NMap WinDesc := []
  outMsgs : List PtrMsg := []
  mirrors : List Mirror := []
  convs : NMap Counts := []
  ports : NMap PortSt := []
  head : Nat := 0
  round : Nat := 0
  drainedActors : List Nat := []
  seqMode : SeqMode := {}
  modeTok : Option Nat := none
  modeSeq : Nat := 0
  modeRes : Option Nat := none
  modeSent : Bool := false
  awaited : Option (Nat × Nat × Nat) := none
  grid : Grid := {}
  engines : NMap Engine := []
  chains : NMap Chain := []
  matrix : Matrix := {}
  meld : Meld := {}
  mxWait : Option (Nat × Nat) := none
  appends : NMap Append := []
  bars : NMap CoreBar := []
  deckq : List DeckOp := []
  deckOut : Nat := 0
  breaks : List Break := []
  shadow : Option Shadow := none
  guard : Guard := {}
  deriving DecidableEq, Repr

/-! ### Contexts and graphs -/

/-- A context: its partition descriptor (R156), its translation block (R195), time (R180) and notices (R161): those not
delivered, of which sent have crossed the deck. -/
structure Ctx where
  qmask : Nat
  inmask : Nat
  egmask : Nat
  supCard : Nat
  supIdx : Nat
  maxpri : Nat
  defpri : Nat
  slots : Nat
  pshare : Nat
  hbase : Nat
  hsize : Nat
  vcq : Nat
  dkbase : Nat
  dksize : Nat
  frzbase : Nat
  frzsize : Nat
  halted : Bool := false
  halting : Bool := false
  ctime : Nat := 0
  nextSeq : Nat := 1
  supHandle : Nat := 0
  notices : List Notice := []
  sent : Nat := 0
  suppressed : Nat := 0
  delivered : Nat := 0
  ptroot : Nat := 0
  ranges : NMap (List Word) := []
  remaps : NMap (List Word) := []
  outcomes : List (Nat × Nat) := []
  deriving DecidableEq, Repr

/-- Where a graph is in its life (R164 to R178). -/
inductive Phase where
  | validating | queued | loading | committing | running | freezing | frozen | halted | retired | refused
  deriving DecidableEq, Repr

/-- The mode controller (R135): the rate set in force, the step it is at (2 holding, 4 completing), the token's set, M, the token,
its sender and the sender's point of issue; and the tokens waiting at the mode port, each with its sender, 1 + the core of a MODE command or 0, and its sender's
point of issue (R217). -/
structure ModeCtl where
  inForce : Nat := 0
  step : Nat := 0
  set : Nat := 0
  target : Nat := 0
  token : Nat := 0
  sender : Nat := 0
  seq : Nat := 0
  waiting : List (Nat × Nat × Nat) := []
  deriving DecidableEq, Repr

/-- What the other packages of a graph that spans packages have told the coordinating one (R78, R79, R135 to R137): the periods
begun by their sequencers, the graph time at which each, or this one, stopped at its target, the packages whose sinks have all
drained, their sections of the freeze image. -/
structure Peers where
  begun : List (Nat × Nat) := []
  stopped : List (Nat × Nat) := []
  sinks : List Nat := []
  sections : List (Nat × List Byte) := []
  deriving DecidableEq, Repr

/-- A barrier instance (R372, R373): scope, instance number, P, completed phases, arrivals of later phases. -/
structure BarInst where
  scope : Scope
  p : Nat
  c : Nat := 0
  counts : NMap Nat := []
  deriving DecidableEq, Repr

/-- A graph's grant (R30 to R36): step code, plane-rate limit, per-island demand and base charge in half watts. -/
structure Grant where
  step : Nat := 0
  plim : Nat := 0
  islands : List (Nat × Nat) := []
  base : List (Nat × Nat) := []
  deriving DecidableEq, Repr

/-- A deck stream at its sender (R49, R50): the graph; the core and output descriptor, or the memory actor engine; tokens
that wait for a slot; the read pointers its receivers have sent, by receiver. A host stream is sent by the base die: desc is
then the port record it feeds, fed the tokens taken from ingress ports for it. -/
structure DeckStream where
  graph : Nat := 0
  mem : Bool := false
  host : Bool := false
  core : Nat := 0
  desc : Nat := 0
  tokens : List PtrMsg := []
  acks : NMap Nat := []
  fed : Nat := 0
  deriving DecidableEq, Repr

/-- A memory actor engine (R455, R456): the graph and the actor record it serves, its deck stream and, for a sink, the
stream it hears; the tokens it has moved, its firings since the last mode switch, and the tokens moved in the one in progress
(R115); the tokens a sink holds; the graph time before which a refused request is not sent again (R203); the counts of its
conversions (R259). -/
structure MemActor where
  graph : Nat := 0
  actor : Nat := 0
  sink : Bool := false
  stream : Nat := 0
  ante : Nat := 0
  f : Nat := 0
  fired : Nat := 0
  cnt : Nat := 0
  window : List (List Byte) := []
  retry : Nat := 0
  drainIn : Bool := false
  drained : Bool := false
  counts : Counts := []
  deriving DecidableEq, Repr

/-- A Herlo graph-arc channel (R73 to R77): the arc, the virtual channel that it has on each port it crosses, its bound; at the
producing end the descriptor or memory actor, the tokens sent and not known consumed, the read pointer that has come back; at the
consuming end the tokens received, the late ones, and the read pointer sent back. -/
structure Channel where
  graph : Nat := 0
  arc : Nat := 0
  vcs : List (Nat × Nat) := []
  bound : Nat := 0
  core : Nat := 0
  desc : Nat := 0
  sent : List PtrMsg := []
  rd : Nat := 0
  received : Nat := 0
  late : Nat := 0
  credited : Nat := 0
  deriving DecidableEq, Repr

/-- The ports a channel crosses. -/
def Channel.ports (x : Channel) : List Nat := x.vcs.map Prod.fst

/-- A request of this package on its way to another: its core and entry (or its number there), its issue, the time it left, the
package (R68, R72). -/
structure Away where
  core : Nat
  q : Nat
  seq : Nat := 0
  since : Nat := 0
  pkg : Nat := 0
  deriving DecidableEq, Repr

/-- The answer to a request that no queue entry waits for, as it has come: core and number, cause, data. -/
structure Brought where
  core : Nat
  q : Nat
  cause : Nat
  data : Nat
  deriving DecidableEq, Repr

/-- What a freeze image holds (R173, R174), as the state of the recorded parts: where the graph stood, its cores and the
bytes of their windows, its tokens on the deck and on Herlo channels, its memory actors, requests on their way, and of each host sink the records
not yet written and the count written. -/
structure Snapshot where
  placed : List (Nat × Nat) := []
  sbase : Nat := 0
  vbase : Nat := 0
  cores : List (Nat × Core) := []
  bytes : List (Nat × List Host.Cell) := []
  streams : NMap DeckStream := []
  channels : NMap Channel := []
  actors : NMap MemActor := []
  outbox : List Away := []
  inbox : List Brought := []
  egress : List (Nat × List Item × Nat) := []
  deriving DecidableEq, Repr

/-- A graph (R114, R148, R158, R164 to R181); sbase and vbase are what its
deck streams and Herlo channels are numbered from, frzAt and frzLen its reservation in the freeze area, imgLen the length of
the image in it; thawed is the image
it last went on from; homeless says that DEAL.11 has been sent since it was frozen; coord is the package that coordinates it, none for this one; latePeriod is one more than the period of its
last LINK.13 (R77). -/
structure Graph where
  handle : Nat
  imageid : Nat
  created : Nat := 0
  off : Nat := 0
  pages : Nat := 0
  img : List Byte := []
  phase : Phase := .validating
  supervisor : Bool := false
  cls : Nat := 0
  arrival : Nat := 0
  waited : Nat := 0
  gtime : Nat := 0
  admitted : Nat := 0
  admitOrder : Nat := 0
  cores : List (Nat × Nat) := []
  grant : Grant := {}
  launcher : Option (Nat × Nat) := none
  waiters : List (Nat × Nat) := []
  reported : List Nat := []
  acked : List Nat := []
  decided : Bool := false
  aborts : Nat := 0
  loadSince : Nat := 0
  pkgOk : List Nat := []
  frzSince : Option Nat := none
  origin : Nat := 0
  frzCores : List Nat := []
  image : Option Snapshot := none
  dropImage : Bool := false
  sbase : Nat := 0
  vbase : Nat := 0
  frzAt : Nat := 0
  frzLen : Nat := 0
  imgLen : Nat := 0
  held : Bool := false
  cutSince : Option Nat := none
  cutDone : Bool := false
  cutCores : List Nat := []
  cause : Nat := 0
  primary : Notice := {}
  faults : List Notice := []
  modeCtl : ModeCtl := {}
  barriers : List (Nat × BarInst) := []
  sinks : List (Nat × Nat) := []
  lastSinks : List (Nat × Nat) := []
  thawed : Option Snapshot := none
  homeless : Bool := false
  coord : Option Nat := none
  peers : Peers := {}
  latePeriod : Nat := 0
  srcDrained : Bool := false
  sinksDrained : List Nat := []
  deriving DecidableEq, Repr

/-! ### The package -/

/-- A replica's refresh (R60): F0, the bytes of the copy received. -/
structure Wake where
  f0 : Nat
  copied : Nat := 0
  deriving DecidableEq, Repr

/-- What waits in the hub for a service slot (R47, R56): a notice of a context, or an atomic return record as issuing card,
core, tag and old value. -/
inductive HubItem where
  | notice (ctx : Nat)
  | record (card index tag old : Nat)
  deriving DecidableEq, Repr

/-- A slot header by its fields (R43). -/
structure SlotHead where
  dmask : Nat := 0
  kind : Nat := 0
  sender : Nat := 0
  ctx : Nat := 0
  fseq : Nat := 0
  slot : Nat := 0
  suit : Nat := 0
  stream : Nat := 0
  waddr : Nat := 0
  bcount : Nat := 0
  ordinal : Nat := 0
  aop : Nat := 0
  asize : Nat := 0
  issuer : Nat := 0
  atag : Nat := 0
  deriving DecidableEq, Repr

/-- A slot as it crosses the bus: its 1,024-bit header and its data bytes (R41, R43). -/
structure SlotSent where
  header : Nat
  bytes : List Byte
  deriving DecidableEq, Repr

/-- The deck bus (R41 to R64): the frame, the calendar, cards asleep and waking, stale replicas and their refreshes, for each
layer the operations it has received and not applied, what waits in the hub, stream slots that named a sleeping card;
slotPos says which slot of the frame comes next: 4 × SLOT + SUIT; wire holds the last slot sent on each suit; struck the
layers that receive the next slot with an error, and its cause (R64). -/
structure Deck where
  frame : Nat := 0
  calendar : NMap Word32 := []
  asleep : Nat := 0
  waking : Nat := 0
  stale : NMap Bool := []
  pending : NMap (List DeckOp) := []
  wakes : NMap Wake := []
  hub : List HubItem := []
  asleepHits : List (Nat × Nat × Nat) := []
  slotPos : Nat := 0
  wire : NMap SlotSent := []
  struck : NMap Nat := []
  deriving DecidableEq, Repr

/-- An ingress port (R91 to R96); wbs are the values of CONSUMED that are still to be written back, oldest first. -/
structure Ingress where
  en : Bool := false
  asgn : Bool := false
  ctx : Nat := 0
  cwb : Word := 0
  st : Nat := 0
  cause : Nat := 0
  consumed : Nat := 0
  expected : Nat := 0
  buffer : List Byte := []
  graph : Nat := 0
  gport : Nat := 0
  nextOrd : Nat := 0
  lastWb : Nat := 0
  wbs : List Nat := []
  deriving DecidableEq, Repr

/-- An egress port (R97 to R100). -/
structure Egress where
  en : Bool := false
  asgn : Bool := false
  ctx : Nat := 0
  rbase : Word := 0
  log2 : Nat := 0
  cwa : Word := 0
  rdpos : Nat := 0
  fin : Nat := 0
  graph : Nat := 0
  sink : Nat := 0
  records : List Item := []
  word : Nat := 0
  wordDue : Bool := false
  ords : Nat := 0
  deriving DecidableEq, Repr

/-- The host side (R85 to R101): global registers, ports, host memory the device has written. -/
structure HostIf where
  nfault : Nat := 0
  ready : Bool := false
  gs : Word := 0
  ingress : NMap Ingress := []
  egress : NMap Egress := []
  mem : List Host.Cell := []
  readData : List Byte := []
  deriving DecidableEq, Repr

/-- The answer to a request of another package (R69, R71): package, core and sequence number, cause, data. -/
structure Reply where
  pkg : Nat
  core : Nat
  seq : Nat
  cause : Nat
  data : Nat
  deriving DecidableEq, Repr

/-- An entry of the import table (R68): source package and context, first and one past the last byte of a local HBM4
range. -/
structure Import where
  pkg : Nat
  ctx : Nat
  first : Nat
  past : Nat
  deriving DecidableEq, Repr

/-- The Herlo links (R66 to R83): package number, routes, import table; for each issuing core of another package its last
256 answers (R71), and the last answer sent; port state; channels; requests of this package on their way; the answers to its
engines' bursts that have come; the ports on the way to each package; the requests its memory actors have sent (R71); the last report sent to a coordinating package, as
package, graph and success (R78). -/
structure Links where
  pkg : Nat := 0
  pkgSet : Bool := false
  routes : List Nat := []
  imports : List Import := []
  seen : List Reply := []
  answer : Option Reply := none
  up : Nat := 0
  retrain : Nat := 0
  retrainSince : NMap Nat := []
  channels : NMap Channel := []
  outbox : List Away := []
  inbox : List Brought := []
  via : NMap (List Nat) := []
  asked : Nat := 0
  report : Option (Nat × Nat × Bool) := none
  deriving DecidableEq, Repr

/-- The power arbiter (R29 to R40). -/
structure Arbiter where
  limit : Nat := 3200
  gatedIslands : List Nat := []
  hot : NMap Nat := []
  lastFreeze : NMap Nat := []
  deriving DecidableEq, Repr

/-- A request at the security block: a QUOTE with its nonce and buffer, or an extend with its digest and slot (R108,
R110); void when the graph that asked is gone (log entry 75). -/
structure SecReq where
  core : Nat
  q : Nat
  ext : Bool
  bytes : List Byte
  slot : Word
  buf : Nat
  ctx : Nat
  void : Bool := false
  deriving DecidableEq, Repr

/-- The security block (R102 to R113): the identity key's private half; measurement slots, extend counts, pending requests; the
request that waits on each SPDM interface, as its kind, the requests ahead of it, and itself; the last SPDM answer on each
interface, the cold resets so far. -/
structure Security where
  key : Nat := 0
  ms : NMap (List Byte) := []
  ext : NMap Nat := []
  pending : List SecReq := []
  spdm : NMap (Nat × Nat × SpdmReq) := []
  answers : NMap (List Byte) := []
  resets : Nat := 0
  deriving DecidableEq, Repr

/-- A request held in a home's kitty (R203): context, virtual page, home, local address and the size of its page as a power of two;
it came from queue entry q of a core, from stream engine q − 16 of it, or, with q 32, from another package as the message. frz
names the graph and logical core of a request whose graph has been frozen since (R171). -/
structure Parked where
  ctx : Nat
  page : Nat
  home : Nat
  core : Nat
  q : Nat
  pa : Nat := 0
  sh : Nat := 12
  msg : Option RemoteMsg := none
  frz : Option (Nat × Nat) := none
  deriving DecidableEq, Repr

/-- The dump engine (R276 to R280): queue of graphs, the dump that runs and when it began, its flags, secondary faults and
records of pending stores, dumps written, the bytes of the area in use. -/
structure Dump where
  queue : List Nat := []
  current : Option Nat := none
  since : Nat := 0
  flags : Nat := 0
  secondary : Option Notice := none
  nsec : Nat := 0
  written : Nat := 0
  next : Nat := 0
  stores : List (List Byte) := []
  deriving DecidableEq, Repr

/-- Storage errors and their counters (R272 to R275): marked bytes (uncorrectable or not), corrections per home, per
line, spared rows. -/
structure Ecc where
  marks : List (Nat × Bool) := []
  homes : NMap Nat := []
  lines : NMap (List Nat) := []
  spared : List Nat := []
  deriving DecidableEq, Repr

/-- An error in state that no address reaches, or in a received slot: the cause it raises and where it strikes. -/
inductive Strike where
  /-- monitor, stream, matrix, meld, barrier, converter, plane, element, controller, priority-queue, link, mesh,
  stream-buffer or breakpoint state of a core (RATE.15, STRM.15, MTX.15, MELD.15, SYNC.15, FMT.15, ECC.6, GRID.13 to
  GRID.15, ECC.7, ECC.10, ECC.11, DBG.15). -/
  | core (c cause : Nat)
  /-- the translation block of a context (XLT.15). -/
  | context (x : Nat)
  /-- an entry of the kitty, by its place (ATM.7). -/
  | kitty (n : Nat)
  /-- the window of a sparse-update unit (ATM.8). -/
  | window (unit : Nat)
  /-- the response of a queue entry whose atomic has been performed (ATM.9). -/
  | response (c q : Nat)
  /-- such a response, held for a frozen graph's logical core (ATM.10). -/
  | heldResponse (h l q : Nat)
  /-- mode-controller, launch-queue, partition, Dealer or base-die state, with a graph it affects (MODE.9, SCHED.15,
  DEAL.15, ECC.15). -/
  | graph (h cause : Nat)
  /-- an entry of the placement cache, by its place (DEAL.7). -/
  | cacheEntry (n : Nat)
  /-- the next slot that carries something, as a layer receives it (R64): DECK.7 or DECK.8. -/
  | slot (layer cause : Nat)
  /-- a frame that a layer does not receive in full (R64): DECK.9. -/
  | frame (layer : Nat)
  deriving DecidableEq, Repr

/-- An entry of the placement cache (R147): its key (digest of the block body, defect-map identifier, grade), the block's size in
instructions, and the placement of
the block on each physical core where it has been placed, as the places of its instructions. -/
structure CacheEntry where
  digest : List Byte
  defect : Nat
  grade : Nat
  size : Nat
  places : NMap (List (Nat × Nat))
  deriving DecidableEq, Repr

/-- Management's standing: how its four control processors stand (R16, R105, R344: idle in reset, running, halted); the Dealer's:
whether the placement cache is reserved and its entries, the least recently used first (R147), whether the defect map can be read
and the start test has passed (DEAL.9, DEAL.12), without which it places no graph; and which parts the boot ROM has started: the Dealer 1, the power
arbiter 2, the dump engine 3 (R105). -/
structure Dealer where
  managers : NMap Run := []
  cache : Bool := false
  entries : List CacheEntry := []
  map : Bool := true
  test : Bool := true
  parts : List Nat := []
  deriving DecidableEq, Repr

/-- What the other packages of a graph that spans packages tell this one (R78, R79, R135 to R137). -/
inductive PeerMsg where
  /-- the coordinating package's configuration of a graph: handle, image identifier, class, that package, the image. -/
  | configuration (h imageid cls coord : Nat) (img : List Byte)
  /-- a freeze of the graph on another package. -/
  | freeze (h origin : Nat)
  /-- the section of a package of the freeze image. -/
  | freezeSection (h pkg : Nat) (bytes : List Byte)
  /-- drain tokens have reached every sink of a package. -/
  | sinks (h pkg : Nat)
  /-- the graph has retired at the coordinating package. -/
  | retire (h : Nat)
  /-- the mode controller's hold, for a rate set. -/
  | hold (h set : Nat)
  /-- the periods that the sequencers of a package have begun. -/
  | begun (h pkg b : Nat)
  /-- the target M. -/
  | target (h m : Nat)
  /-- the sequencers of a package have stopped at the target. -/
  | stopped (h pkg : Nat)
  /-- the switch. -/
  | switch (h : Nat)
  /-- a mode token of an actor on another package arrives at the mode port. -/
  | modeToken (h tok : Nat)
  /-- the coordinating package has taken the oldest mode token of this one. -/
  | modeTaken (h : Nat)
  /-- the outcome word of the mode token that a core sent (R369). -/
  | modeOutcome (h c tok out : Nat)
  /-- drain tokens have left every source of a package (R137). -/
  | sources (h pkg : Nat)
  /-- a BARI of another package reaches a barrier's instance of the whole graph: barrier and participants (R372). -/
  | barInit (h pkg b p : Nat)
  /-- an arrival of another package at such an instance, in phase k (R373). -/
  | barArrival (h pkg b k : Nat)
  /-- the phases of such an instance that are complete (R373). -/
  | barPhases (h b c : Nat)
  /-- the outcome of a graph of another package for which a core waits in LWAIT (R371). -/
  | outcome (c pkg h out : Nat)
  /-- the switch is abandoned. -/
  | abandon (h : Nat)
  deriving DecidableEq, Repr

/-- Which agent moves next, or what reaches the machine from outside: the model's own field, plain data. -/
inductive Move where
  /-- the CP of a core executes one instruction. -/
  | cp (c : Nat)
  /-- the element of instruction k of a core's active (or shadow) plane acts. -/
  | elem (c : Nat) (k : Nat) (shadow : Bool)
  /-- an event of the table happens. -/
  | event (i : Instr)
  /-- the host reads a double of BAR 0 (R85). -/
  | registerRead (off : Nat)
  /-- a storage error strikes a byte (R272): uncorrectable or correctable. -/
  | softError (addr : Nat) (uncorrectable : Bool)
  /-- another package tells this one of a graph that spans packages. -/
  | peer (m : PeerMsg)
  /-- a management control processor executes HALT (R344). -/
  | mgmtHalt (n : Nat)
  /-- an error strikes state that has no address, or a received slot. -/
  | strike (e : Strike)
  deriving DecidableEq, Repr

/-- The state of the machine. -/
structure State where
  mem : List Host.Cell
  cores : NMap Core
  ctxs : NMap Ctx
  graphs : NMap Graph
  grade : Nat
  time : Nat
  turn : Nat
  focus : Nat × Bool
  agenda : List Move
  actors : NMap MemActor
  streams : NMap DeckStream
  deck : Deck
  host : HostIf
  links : Links
  power : Arbiter
  sec : Security
  kitty : List Parked
  dump : Dump
  ecc : Ecc
  mgmt : List Notice
  mgmtLost : Nat
  mgmtCounts : NMap Nat
  dealer : Dealer
  order : Nat
  fresh : Nat
  deriving DecidableEq, Repr

/-- Why a step could stop with a fault. -/
inductive Fault where
  /-- Raised by nothing in this model: every step the spec gives an effect answers a next state, and a trap is a next
  state. Safe. -/
  | unreachable
  deriving DecidableEq, Repr

/-- Why a step could be refused. -/
inductive Refusal where
  /-- Raised by an arm of exec whose instruction has no meaning yet; the string is its mnemonic. Safe. -/
  | notModelled (mnemonic : String)
  deriving DecidableEq, Repr

/-- The machine right after a cold reset (R11): a KYS-H12A-512, every register at the reset value its table gives,
memory with nothing listed, no context, no graph, no CP running, an empty agenda. The identity key, which the boot ROM derives later,
is 0 (log entry 9, DESIGN CHOICE). -/
def State.reset : State where
  mem := []
  cores := []
  ctxs := []
  graphs := []
  grade := 1
  time := 0
  turn := 0
  focus := (0, false)
  agenda := []
  actors := []
  streams := []
  deck := {}
  host := {}
  links := {}
  power := {}
  sec := {}
  kitty := []
  dump := {}
  ecc := {}
  mgmt := []
  mgmtLost := 0
  mgmtCounts := []
  dealer := {}
  order := 0
  fresh := 0

end Sys2Proof.Machine
end

