-- ==== Sys2Proof/Machine/Ops.lean ====
section
/-! DEFINITION. The named operations over memory, registers, queue entries, notices and graphs, and the two shared
operations of the CP: taking a precise trap (R269, R270) and returning from one (R271, R342). -/

namespace Sys2Proof.Machine

/-- The outcome of a step of this machine. -/
abbrev Result := Host.Outcome State Fault Refusal

/-! ### Memory: a list of address and byte pairs, addresses rising, no byte equal to what an unlisted address reads -/

/-- What a byte that nothing has written reads as (log entry 1, DESIGN CHOICE). -/
def memDefault : Byte := 0

/-- Reading one byte. -/
def memGet : List Host.Cell → Nat → Byte
  | [], _ => memDefault
  | (k, v) :: m, a => if a = k then v else if a < k then memDefault else memGet m a

/-- Taking an address out of the list. -/
def memDel : List Host.Cell → Nat → List Host.Cell
  | [], _ => []
  | (k, v) :: m, a => if a = k then m else if a < k then (k, v) :: m else (k, v) :: memDel m a

/-- Putting a byte at an address. -/
def memIns : List Host.Cell → Nat → Byte → List Host.Cell
  | [], a, b => [(a, b)]
  | (k, v) :: m, a, b =>
    if a = k then (a, b) :: m else if a < k then (a, b) :: (k, v) :: m else (k, v) :: memIns m a b

/-- Writing one byte, in canonical form. -/
def memPut (m : List Host.Cell) (a : Nat) (b : Byte) : List Host.Cell :=
  if b = memDefault then memDel m a else memIns m a b

/-- The canonical form: addresses strictly rising, no byte equal to the default. -/
def Memory.wf : List Host.Cell → Bool
  | [] => true
  | [(_, b)] => b != memDefault
  | (a, b) :: (c, d) :: m => (b != memDefault) && decide (a < c) && Memory.wf ((c, d) :: m)

/-- Reading n bytes from an address upwards (R5). -/
def memRead (m : List Host.Cell) (a : Nat) : Nat → List Byte
  | 0 => []
  | n + 1 => memGet m a :: memRead m (a + 1) n

/-- Writing bytes from an address upwards (R5). -/
def memWrite (m : List Host.Cell) (a : Nat) : List Byte → List Host.Cell
  | [] => m
  | b :: bs => memWrite (memPut m a b) (a + 1) bs

/-- The memory key of a core's 16 MiB window (R188). -/
def winBase (c : Nat) : Nat := 0x100000000000 + (c / 192) * 0x100000000 + (c % 192) * 0x1000000

/-- The memory key of the deck-window replica of a layer, 12 for the master (R52). -/
def replicaBase (layer : Nat) : Nat := 0x200000000000 + layer * 0x100000

/-- The size of tile SRAM (R183). -/
def tileSize : Nat := 0x200000

namespace State

/-! ### Parts of the state -/

/-- A core; one never touched is as at reset. -/
def core (s : State) (c : Nat) : Core := NMap.getD {} s.cores c

/-- The state with a core replaced. -/
def setCore (s : State) (c : Nat) (k : Core) : State := { s with cores := NMap.put s.cores c k }

/-- The state with a core changed. -/
def modCore (s : State) (c : Nat) (f : Core → Core) : State := s.setCore c (f (s.core c))

/-- The core whose CP or element moves. -/
def cur (s : State) : Core := s.core s.turn

/-- The state with the moving core changed. -/
def modCur (s : State) (f : Core → Core) : State := s.modCore s.turn f

/-- n bytes at a memory key. -/
def read (s : State) (a n : Nat) : List Byte := memRead s.mem a n

/-- The state with bytes written at a memory key; storage errors in the overwritten bytes are gone. -/
def write (s : State) (a : Nat) (bs : List Byte) : State :=
  { s with
    mem := memWrite s.mem a bs
    ecc := { s.ecc with marks := s.ecc.marks.filter fun (x, _) => !(decide (a ≤ x ∧ x < a + bs.length)) } }

/-- n bytes of a core's tile SRAM. -/
def tile (s : State) (c off n : Nat) : List Byte := s.read (winBase c + off) n

/-- The double at a tile SRAM offset. -/
def tileD (s : State) (c off : Nat) : Word := BitVec.ofNat 64 (ofLe (s.tile c off 8))

/-- n doubles from a tile SRAM offset upwards. -/
def tileDs (s : State) (c off : Nat) : Nat → List Word
  | 0 => []
  | n + 1 => s.tileD c off :: s.tileDs c (off + 8) n

/-- The state with bytes written to a core's tile SRAM. -/
def setTile (s : State) (c off : Nat) (bs : List Byte) : State := s.write (winBase c + off) bs

/-- A graph by its handle. -/
def graph? (s : State) (h : Nat) : Option Graph := NMap.find s.graphs h

/-- The state with a graph changed, if it exists. -/
def modGraph (s : State) (h : Nat) (f : Graph → Graph) : State :=
  match s.graph? h with
  | none => s
  | some g => { s with graphs := NMap.put s.graphs h (f g) }

/-- The context that owns a core's quadrant (R156, R158). -/
def ctxOf (s : State) (c : Nat) : Option Nat :=
  (s.ctxs.find? fun (_, x) => x.qmask.testBit (4 * (c / 192) + c % 192 / 48)).map Prod.fst

/-- The state with a context changed, if it exists. -/
def modCtx (s : State) (x : Nat) (f : Ctx → Ctx) : State :=
  match NMap.find s.ctxs x with
  | none => s
  | some k => { s with ctxs := NMap.put s.ctxs x (f k) }

end State

/-! ### Protected words (R272) -/

/-- First byte and length of the word whose code protects a byte: 32 bytes of HBM4, a double elsewhere. -/
def protectedWord (x : Nat) : Nat × Nat := if x < 2 ^ 39 then (x / 32 * 32, 32) else (x / 8 * 8, 8)

/-- n bytes at a memory key touch the protected word of a byte. -/
def touchesWord (a n x : Nat) : Bool :=
  decide (n ≠ 0 ∧ a < (protectedWord x).1 + (protectedWord x).2 ∧ (protectedWord x).1 < a + n)

/-- n bytes at a memory key touch a word with an uncorrectable error. -/
def eccBad (s : State) (a n : Nat) : Bool := s.ecc.marks.any fun (x, ue) => ue && touchesWord a n x

/-- The code of a word corrects two errors of its bytes only when they lie in one 16-bit symbol of HBM4. -/
def errorsJoin (x y : Nat) : Bool :=
  decide ((protectedWord x).1 = (protectedWord y).1) && !(decide (x < 2 ^ 39 ∧ x / 2 = y / 2))

/-- A storage error strikes a byte: uncorrectable by itself, or where its word has another that its code cannot correct with it. -/
def strikeByte (s : State) (x : Nat) (ue : Bool) : State :=
  { s with ecc := { s.ecc with marks := (x, ue || s.ecc.marks.any fun m => errorsJoin x m.1) :: s.ecc.marks } }

/-! ### Core fields -/

namespace Core

/-- The mode in force, MODE of sr.status (R268). -/
def mode (k : Core) : Mode :=
  match fld k.status 1 0 with
  | 1 => .s
  | 3 => .m
  | _ => .u

/-- A general register; g0 reads as zero (R289). -/
def reg (k : Core) (r : Reg) : Word := if r = 0 then 0 else NMap.getD 0 k.regs r.toNat

/-- Writing a general register; a write to g0 is discarded (R289). -/
def setReg (k : Core) (r : Reg) (v : Word) : Core :=
  if r = 0 then k else { k with regs := NMap.put k.regs r.toNat v }

/-- First byte of the code region (R184). -/
def codeBase (k : Core) : Nat := fld k.codewin 20 12 * 4096

/-- Bytes of the code region (R184). -/
def codeSize (k : Core) : Nat := fld k.codewin 41 32 * 4096

/-- n bytes at a tile SRAM offset touch the code region. -/
def inCode (k : Core) (off n : Nat) : Bool := rangesMeet off n k.codeBase k.codeSize

/-- INFIRE of sr.phase (R122). -/
def infire (k : Core) : Bool := bitAt k.phase 63

/-- The rate set in force (R122). -/
def rset (k : Core) : Nat := fld k.phase 10 8

/-- The phase of the current or last firing (R122). -/
def phaseNo (k : Core) : Nat := fld k.phase 3 0

/-- The actor of the current or last firing (R122). -/
def actorNo (k : Core) : Nat := fld k.actor 2 0

/-- The periods begun (R122). -/
def period (k : Core) : Nat := fld k.actor 63 16

/-- A queue entry. -/
def entry (k : Core) (q : Nat) : QEntry := NMap.getD {} k.entries q

/-- The core with a queue entry replaced. -/
def setEntry (k : Core) (q : Nat) (e : QEntry) : Core := { k with entries := NMap.put k.entries q e }

/-- A window descriptor. -/
def desc (k : Core) (i : Nat) : WinDesc := NMap.getD {} k.descs i

/-- A stream engine: 0 read 0, 1 read 1, 2 write 0, 3 write 1. -/
def engine (k : Core) (e : Nat) : Engine := NMap.getD {} k.engines e

/-- The core with a stream engine replaced. -/
def setEngine (k : Core) (e : Nat) (x : Engine) : Core := { k with engines := NMap.put k.engines e x }

/-- What a port of an actor keeps. -/
def port (k : Core) (a p : Nat) : PortSt := NMap.getD {} k.ports (a * 32 + p)

/-- The core with a port's state replaced. -/
def setPort (k : Core) (a p : Nat) (x : PortSt) : Core := { k with ports := NMap.put k.ports (a * 32 + p) x }

/-- An RNG stream. -/
def rng (k : Core) (n : Nat) : Rng := NMap.getD {} k.rngs n

/-- A wait left at the instruction boundary (R336, R349): the instruction executes again later, but a WFE resumes at the
next one (R343). -/
def leaveWait (k : Core) : Core :=
  if k.wfe then { k with wfe := false, woken := false, event := k.event && k.woken, waitSince := none, pc := k.pc + 4 }
  else { k with waitSince := none }

/-- A listed event of R343 reaches the core: a CP that waits in a WFE goes on, unless the flag has ended the wait already. -/
def wake (k : Core) : Core := if k.wfe && !k.event then { k with woken := true } else k

end Core

/-! ### Fields of a window descriptor (R128) -/

namespace WinDesc

/-- VALID. -/
def valid (d : WinDesc) : Bool := bitAt d.d0 63
/-- DIR: true for an output descriptor. -/
def isOut (d : WinDesc) : Bool := bitAt d.d0 62
/-- MNXV. -/
def mnxv (d : WinDesc) : Bool := bitAt d.d0 61
/-- TCODE. -/
def tcode (d : WinDesc) : Nat := fld d.d0 52 48
/-- CAP. -/
def cap (d : WinDesc) : Nat := fld d.d0 47 32
/-- BASE. -/
def base (d : WinDesc) : Nat := fld d.d0 20 0
/-- PKIND. -/
def pkind (d : WinDesc) : Nat := fld d.d1 63 62
/-- PCORE. -/
def pcore (d : WinDesc) : Nat := fld d.d1 51 44
/-- PDESC. -/
def pdesc (d : WinDesc) : Nat := fld d.d1 43 38
/-- MNEXT. -/
def mnext (d : WinDesc) : Nat := fld d.d1 37 32
/-- STREAM. -/
def stream (d : WinDesc) : Nat := fld d.d1 31 16
/-- TSIZE. -/
def tsize (d : WinDesc) : Nat := fld d.d1 12 0
/-- The slot stride: TSIZE rounded up to a multiple of 16 (R129). -/
def stride (d : WinDesc) : Nat := roundUp d.tsize 16
/-- DRAIN. -/
def drain (d : WinDesc) : Bool := bitAt d.d4 63
/-- ANTE. -/
def ante (d : WinDesc) : Nat := fld d.d4 15 0
/-- Tokens held: WRPTR − RDPTR. -/
def occ (d : WinDesc) : Nat := (d.wr - d.rd).toNat
/-- Free places: CAP less the tokens not released (R121, R130). -/
def free (d : WinDesc) : Nat := d.cap - d.occ
/-- The tile SRAM offset of token w (R129). -/
def slotAt (d : WinDesc) (w : Nat) : Nat := d.base + (w % max d.cap 1) * d.stride
/-- The descriptor with DRAIN set (R136). -/
def setDrain (d : WinDesc) : WinDesc := { d with d4 := d.d4 ||| 0x8000000000000000#64 }

end WinDesc

/-- The read pointer of an input window that its producers may count on (R218): that before the oldest advance whose reads are not
done. -/
def Core.freedRd (k : Core) (i : Nat) : Nat := ((k.mirrors.find? fun m => m.desc == i).map Mirror.was).getD (k.desc i).rd.toNat

/-- n bytes at a tile SRAM offset touch a valid input window of the core. -/
def Core.inWindow (k : Core) (off n : Nat) : Bool :=
  k.descs.any fun (_, d) => d.valid && !d.isOut && rangesMeet off n d.base (d.cap * d.stride)

/-- Pointers and tokens of a core move: it is not stopped by a halt or a freeze (R126, R170). -/
def coreMoves (k : Core) : Bool := decide (k.run ≠ .graphHalted ∧ k.run ≠ .frozen)

/-! ### Notices (R160, R161, R263) -/

/-- The 32 bytes of a notice record (R160). -/
def Notice.bytes (n : Notice) : List Byte :=
  leBytes 2 n.cause ++ leBytes 1 n.ctx ++ leBytes 1 n.flags ++ leBytes 4 n.graph ++ leBytes 8 n.imageid
    ++ leBytes 2 n.core ++ leBytes 2 n.port ++ leBytes 4 n.chan ++ leBytes 8 n.detail

/-- The CORE field that names a core (R160). -/
def coreName (c : Nat) : Nat := (c / 192) * 256 + c % 192

/-- A stream command that has started stands within a token of its grid port. -/
def StrCmd.midToken (m : StrCmd) : Bool :=
  m.started && decide (m.tok ≠ 0 ∧ m.pos < fld (m.desc.getD 2 0) 63 32 ∧ m.pos % m.tok ≠ 0)

/-! ### Ingress ports (R93, R95) -/

/-- A write-back of CONSUMED becomes due (R93). -/
def Ingress.note (p : Ingress) : Ingress := { p with wbs := p.wbs ++ [p.consumed], lastWb := p.consumed }

/-- A port goes to fault with a cause: what it has buffered is discarded (R95). -/
def Ingress.toFault (p : Ingress) (cause : Nat) : Ingress :=
  { p with st := 4, cause := cause, consumed := p.consumed + p.buffer.length, buffer := [], graph := 0 }.note

namespace State

/-- A notice to management's queue of 4,096 records, with the overflow rule (R263, R161). A SCHED.4 that finds no place is a notice suppressed. -/
def tellMgmt (s : State) (n : Notice) : State :=
  if 4096 ≤ s.mgmt.length then { s with mgmtLost := s.mgmtLost + 1 }
  else if s.mgmtLost = 0 then { s with mgmt := s.mgmt ++ [n] }
  else
    { s with
      mgmt := (s.mgmt ++ [{ n with detail := setBits n.detail 63 48 (min s.mgmtLost 0xFFFF) },
        { cause := 0x144, ctx := n.ctx }]).take 4096
      mgmtLost := 2 - min (4096 - s.mgmt.length) 2 }

/-- A cause counted at management (DEAL.7, LINK.14, ECC.0, ECC.2). -/
def countMgmt (s : State) (cause : Nat) : State :=
  { s with mgmtCounts := NMap.put s.mgmtCounts cause (NMap.getD 0 s.mgmtCounts cause + 1) }

/-- A HOST fault is counted in NFAULT, which saturates (R87). -/
def countHost (s : State) : State := { s with host := { s.host with nfault := min (s.host.nfault + 1) 0xFFFFFFFF } }

/-- Notices of a context wait in the hub for their service slots, in the order raised (R60, R161). -/
def queueNotices (s : State) (x : Nat) (ns : List Notice) : State :=
  { (s.modCtx x fun k => { k with notices := k.notices ++ ns }) with
    deck := { s.deck with hub := s.deck.hub ++ ns.map fun _ => .notice x } }

/-- A notice to a context's supervisor, through its queue of 1,024 records (R161). A SCHED.4 that finds no place is a notice suppressed. -/
def notify (s : State) (x : Nat) (n : Notice) : State :=
  match NMap.find s.ctxs x with
  | none => s
  | some k =>
    if 1024 ≤ k.notices.length then s.modCtx x fun k => { k with suppressed := k.suppressed + 1 }
    else if k.suppressed = 0 then s.queueNotices x [{ n with ctx := x }]
    else
      let ns : List Notice := [{ n with ctx := x, detail := setBits n.detail 63 48 (min k.suppressed 0xFFFF) },
        { cause := 0x144, ctx := x }]
      let room := 1024 - k.notices.length
      (s.modCtx x fun k => { k with suppressed := 2 - min room 2 }).queueNotices x (ns.take room)

/-- The notice a graph's fault or event gives, with the graph's context, handle and image filled in. -/
def graphNotice (s : State) (h : Nat) (n : Notice) : Notice :=
  match s.graph? h with
  | none => n
  | some g => { n with graph := h, ctx := h / 2 ^ 28, imageid := g.imageid }

/-- A notice about a graph to its supervisor. -/
def notifyGraph (s : State) (h : Nat) (n : Notice) : State :=
  s.notify (h / 2 ^ 28) (s.graphNotice h n)

/-- A notice about a graph to its supervisor, with the copy to management that its FLAGS name (R160). -/
def notifyCopied (s : State) (h : Nat) (n : Notice) : State :=
  let m := { n with flags := n.flags ||| 2 }
  (s.tellMgmt (s.graphNotice h m)).notifyGraph h m

/-- Some management control processor runs (R16, R105): management firmware acts. -/
def managementUp (s : State) : Bool := s.dealer.managers.any fun x => x.2 == .running

/-- The boot ROM has started the Dealer (R105). -/
def dealerUp (s : State) : Bool := s.dealer.parts.contains 1
/-- The boot ROM has started the power arbiter (R105). -/
def arbiterUp (s : State) : Bool := s.dealer.parts.contains 2
/-- The boot ROM has started the dump engine (R105). -/
def dumperUp (s : State) : Bool := s.dealer.parts.contains 3

/-! ### Queue entries -/

/-- Every entry issued before a sequence number has completed (R192). -/
def earlierDone (k : Core) (seq : Nat) : Bool :=
  k.entries.all fun (_, x) => !(x.busy && !x.done && decide (x.seq < seq))

/-- A queue entry has its response, or its fault (R193). It completes at once when every entry issued earlier has (R192) and its core
is in no cut (R283), and otherwise when its turn comes; completing wakes a WFE of the core (R343). -/
def completeEntry (s : State) (c q : Nat) (fault resp : Nat) : State :=
  s.modCore c fun k =>
    let e := k.entry q
    if e.busy && !e.done then
      let ok := earlierDone k e.seq && !k.cut
      let k1 := k.setEntry q { e with performed := true, done := ok, released := e.released || ok, fault := fault, resp := resp }
      if ok then k1.wake else k1
    else k

/-- A stream of a core stands within a token of its grid port, part of it moved and part not, and its next request waits neither in a
kitty nor for another package: the stream goes on to the end of the token before it stops (R170, R282). -/
def splitToken (s : State) (c : Nat) : Bool :=
  (s.core c).engines.any fun (e, x) => match x.queue.head? with
    | none => false
    | some m => m.midToken && !(s.kitty.any fun p => p.core == c && p.q == 16 + e)
        && !(s.links.outbox.any fun o => o.core == c && o.q == 16 + e)

/-- Every entry waiting for a freeze completes (R384). -/
def completeAll (s : State) (ws : List (Nat × Nat)) (fault : Nat) : State :=
  ws.foldl (fun s w => s.completeEntry w.1 w.2 fault 0) s

/-! ### Graph resources, halts, freezes, cuts -/

/-- The cores of a graph that this package runs. -/
def coresOf (s : State) (h : Nat) : List Nat :=
  match s.graph? h with
  | none => []
  | some g => g.cores.map Prod.snd

/-- The outcome of a graph that LWAIT reports, the last 1,024 of a context kept (R371). -/
def recordOutcome (s : State) (h cause : Nat) : State :=
  s.modCtx (h / 2 ^ 28) fun k => { k with outcomes := (k.outcomes ++ [(h, cause)]).reverse.take 1024 |>.reverse }

/-- Whether some admitted graph of a context other than h holds a core of a card. -/
def ctxOnCard (s : State) (x card h : Nat) : Bool :=
  s.cores.any fun (c, k) => decide (c / 192 = card ∧ k.graph ≠ 0 ∧ k.graph ≠ h ∧ k.graph / 2 ^ 28 = x)

/-- An egress port of a graph is bound to it no more (R98). -/
def unbindEgress (s : State) (h : Nat) : State :=
  { s with host := { s.host with
      egress := s.host.egress.map fun (n, e) =>
        if e.graph = h && h ≠ 0 then (n, { e with graph := 0, records := [], ords := 0 }) else (n, e) } }

/-- A graph's resources are released (R172): cores, grant, calendar entries, channels, egress ports; its freeze reservation, unless an
image stands there (R166). -/
def release (s : State) (h : Nat) : State :=
  match s.graph? h with
  | none => s
  | some g =>
    let x := h / 2 ^ 28
    let mine := g.cores.map Prod.snd
    let acts := (s.actors.filter fun (_, a) => a.graph == h).map fun x => 12 * 192 + x.1
    let gone := fun (c : Nat) => mine.contains c || acts.contains c
    let strs := (s.streams.filter fun (_, d) => d.graph == h).map fun (n, _) => n % 0x10000
    let s1 := mine.foldl (fun s c =>
      s.modCore c fun k =>
        { ({} : Core) with
          regs := k.regs, status := 0, vector := k.vector, idleSince := s.time, grid := { lcause := k.grid.lcause }
          power := if k.power = .powerGated then .powerGated else .clockGated, wakeSince := k.wakeSince }) s
    let cal := s1.deck.calendar.map fun (i, w) =>
      let owner := fld w 26 23 == x && bitAt w 31
      let kc := fld w 22 20
      if owner && ((kc != 2 && strs.contains (fld w 15 0))
          || (kc == 2 && decide (fld w 30 27 < 12) && !(s1.ctxOnCard x (fld w 30 27) h))) then (i, 0) else (i, w)
    { s1 with
      graphs := NMap.put s1.graphs h { g with grant := {}, sinks := [], frzLen := if g.image.isSome then g.frzLen else 0 }
      deck := { s1.deck with calendar := cal }
      streams := s1.streams.filter fun (_, d) => d.graph != h
      links := { s1.links with
        channels := s1.links.channels.filter fun (_, ch) => ch.graph != h
        outbox := s1.links.outbox.filter fun o => !(gone o.core)
        inbox := s1.links.inbox.filter fun o => !(gone o.core) }
      kitty := s1.kitty.filter fun p => p.msg.isSome || p.frz.isSome || !(gone p.core)
      sec := { s1.sec with pending := s1.sec.pending.map fun (r : SecReq) => ({ r with void := r.void || mine.contains r.core } : SecReq) }
      actors := s1.actors.filter fun (_, a) => a.graph != h }.unbindEgress h

/-- The completion word of a graph's egress ports says that it halted (R100, R178). -/
def egressHalt (s : State) (h cause : Nat) : State :=
  { s with host := { s.host with
      egress := s.host.egress.map fun (n, e) =>
        if e.graph = h && h ≠ 0 then
          (n, { e with word := 2 * 2 ^ 62 + cause % 512 * 2 ^ 53 + e.fin % 2 ^ 53, wordDue := true })
        else (n, e) } }

/-- Once no graph of a context that is being halted runs or freezes, its supervisor stops at the end of its firing, and SCHED.12 is
queued with DETAIL[0] set (R179). -/
def settleHalt (s : State) (x : Nat) : State :=
  match NMap.find s.ctxs x with
  | none => s
  | some k =>
    let busy := s.graphs.any fun hg => hg.1 / 2 ^ 28 == x && !hg.2.supervisor
      && decide (hg.2.phase = .running ∨ hg.2.phase = .committing ∨ hg.2.phase = .freezing)
    if k.halting && !busy then (s.modCtx x fun k => { k with halting := false, halted := true }).notify x { cause := 0x14C, detail := 1 }
    else s

/-- A load is aborted before the decision point (R149): no core swaps, what was written is left, and the graph waits again,
as it did before. -/
def abortLoad (s : State) (h : Nat) : State :=
  (s.modGraph h fun g => { g with
    phase := if g.image.isSome then .frozen else .queued
    frzLen := if g.image.isSome then g.imgLen else 0
    reported := [], acked := [], decided := false, pkgOk := [] }).release h

/-- A graph that another package coordinates leaves the configuration here (R78): this package keeps its old one; a frozen graph stays
frozen until it is configured again. -/
def dropPeer (s : State) (h : Nat) : State :=
  match s.graph? h with
  | none => s
  | some g =>
    if g.image.isSome then (s.abortLoad h).modGraph h fun g => { g with held := true }
    else { s.release h with graphs := NMap.del (s.release h).graphs h }

/-- A fatal fault halts its graph (R126, R264): every core stops, the primary fault is sent to the supervisor, the graph
is queued for its dump; a further fault of a halted graph is recorded (R266), and one that meets a running dump of the
context is its secondary fault (R280). A port that is opening stays so when its graph halts for a reason that is not the port's (log
entry 31, DESIGN CHOICE); the agenda orders the faults of one cycle (R266, log entry 4). -/
def haltGraph (s : State) (h : Nat) (n : Notice) : State :=
  match s.graph? h with
  | none => s
  | some g =>
    let note := { s.graphNotice h n with flags := n.flags ||| 1 }
    let sec := fun (s : State) =>
      match s.dump.current with
      | none => s
      | some d =>
        if d / 2 ^ 28 = h / 2 ^ 28 then
          match s.dump.secondary with
          | none => { s with dump := { s.dump with secondary := some note, flags := s.dump.flags ||| 4 } }
          | some _ => { s with dump := { s.dump with nsec := min (s.dump.nsec + 1) 0xFFFF } }
        else s
    match g.phase with
    | .halted => sec (s.modGraph h fun g => { g with faults := (g.faults ++ [note]).take 64 })
    | .loading | .committing | .running | .freezing =>
      let s1 := sec s
      let s2 := s1.completeAll g.waiters n.cause
      let s3 := g.cores.foldl (fun s c => s.modCore c.2 fun k =>
        { k.leaveWait with run := .graphHalted }) s2
      let s4 := { s3 with
        order := s3.order + 1
        graphs := NMap.put s3.graphs h
          { g with phase := .halted, cause := n.cause, primary := note, waiters := []
                   frzSince := none, cutSince := none, modeCtl := { g.modeCtl with step := 0 } } }
      let s5 : State := (((s4.notify (h / 2 ^ 28) note).recordOutcome h n.cause).egressHalt h n.cause).unbindEgress h
      let s6 : State := if 64 ≤ s5.dump.queue.length then (s5.notifyCopied h { cause := 0x17B }).release h
        else { s5 with dump := { s5.dump with queue := s5.dump.queue ++ [h] } }
      s6.settleHalt (h / 2 ^ 28)
    | _ => s

/-- A graph has halted: a further fault of it is only recorded (R266). -/
def hasHalted (s : State) (h : Nat) : Bool :=
  match s.graph? h with
  | none => false
  | some g => decide (g.phase = .halted)

/-- A fault halts its graph, with a copy to management (R160). -/
def haltCopied (s : State) (h : Nat) (n : Notice) : State :=
  let m := { n with flags := n.flags ||| 2 }
  (if s.hasHalted h then s else s.tellMgmt (s.graphNotice h m)).haltGraph h m

/-- The faults of translation tables, of which management hears (R206): XLT.5, XLT.6, XLT.7. -/
def walkCause (f : Nat) : Bool := decide (0x035 ≤ f ∧ f ≤ 0x037)

/-- A fault that an access without a queue entry has met halts its graph (R198, R206). -/
def haltReached (s : State) (h : Nat) (n : Notice) : State := if walkCause n.cause then s.haltCopied h n else s.haltGraph h n

/-- A token-attributed fault of a core halts its graph (R263): the notice names the core, the port or link, the channel
and the ordinal. -/
def haltToken (s : State) (c cause port chan ord : Nat) : State :=
  s.haltReached (s.core c).graph
    { cause := cause, core := coreName c, port := port, chan := chan, detail := ord % 2 ^ 48 }

/-- The uncorrectable errors that go to the supervisor alone (R286): ECC.1 and ECC.3 to ECC.9. -/
def eccAlone (f : Nat) : Bool := decide (f = 0x161 ∨ (0x163 ≤ f ∧ f ≤ 0x169))

end State

/-- A graph is refused (R144, R160): the cause goes to its supervisor and to who launched it; an ingress port that opened it
goes to fault with that cause (R96). -/
def refuse (s : State) (h cause : Nat) : State :=
  match s.graph? h with
  | none => s
  | some g =>
    let note : Notice := { cause := cause, flags := if cause = 0x0AF then 3 else 1 }
    let s0 := if cause / 16 = 0x12 then s.countHost else s
    let s1 := (s0.notifyGraph h note).recordOutcome h cause
    let s2 := match g.launcher with
      | none => s1
      | some (c, q) => s1.completeEntry c q cause 0
    let ports := s2.host.ingress.map fun (n, p) =>
      if p.graph = h ∧ p.st ≠ 0 then (n, p.toFault cause) else (n, p)
    { s2 with
      host := { s2.host with ingress := ports }
      graphs := NMap.put s2.graphs h { g with phase := .refused, cause := cause, primary := s2.graphNotice h note, launcher := none } }

/-- A package's report of its load to the package that coordinates the graph (R78). -/
def reportLoad (s : State) (h : Nat) (ok : Bool) : State := { s with links := { s.links with report := some (s.links.pkg, h, ok) } }

/-- A load fails here: the graph waits again (R149); one that another package coordinates leaves, and the failure is reported there
(R78). -/
def State.failLoad (s : State) (h : Nat) : State :=
  match s.graph? h with
  | none => s
  | some g => if g.coord.isSome then (reportLoad s h false).dropPeer h else (s.abortLoad h).settleHalt (h / 2 ^ 28)

/-- An abort of a load with LOAD.6 or LOAD.8: the graph waits again, and is refused with LOAD.7 at the second (R149); a graph that
another package coordinates reports the failure there and goes (R78). -/
def abortCounted (s : State) (h : Nat) (note : Notice) : State :=
  match s.graph? h with
  | none => s
  | some g =>
    if g.coord.isSome then (s.notifyGraph h note).failLoad h
    else
    let s1 := (s.failLoad h).modGraph h fun g => { g with aborts := g.aborts + 1 }
    if g.aborts = 0 then s1.notifyGraph h note
    else (refuse s1 h 0x0A7).modGraph h fun g => { g with image := none, frzLen := 0 }

/-- An uncorrectable error in what a load has written aborts it: LOAD.6 goes to the supervisor, the location to management (R149). -/
def loadError (s : State) (h : Nat) (note : Notice) : State := abortCounted (s.tellMgmt (s.graphNotice h note)) h note

/-- The commit wave has yet to reach the core of a place in a location word, past the decision point (R150). -/
def Graph.unswapped (g : Graph) (unit layer place : Nat) : Bool :=
  let c := layer * 192 + place / 2 ^ 32
  g.decided && decide ((g.phase = .loading ∨ g.phase = .committing) ∧ unit ≠ 1 ∧ layer < 12) && (g.cores.any fun x => x.2 == c)
    && !(g.acked.contains c)

namespace State

/-- An uncorrectable error halts the graph that owns the data, with its location (R274); management gets a copy where the table of
the cause's class says so. In a load it aborts the load before the decision point (R149, R264), and is LOAD.14 after it on a core that the
commit wave has yet to reach (R150). -/
def haltLocation (s : State) (h cause unit layer place : Nat) : State :=
  let at' := unit * 2 ^ 44 + layer * 2 ^ 40 + place
  let plain := if eccAlone cause then s.haltGraph h { cause := cause, detail := at' } else s.haltCopied h { cause := cause, detail := at' }
  match s.graph? h with
  | none => plain
  | some g =>
    if g.phase = .loading ∧ g.decided = false then loadError s h { cause := 0x0A6, flags := 2, core := coreName (layer * 192 + place / 2 ^ 32), detail := at' }
    else if g.unswapped unit layer place then s.haltCopied h { cause := 0x0AE, detail := at' }
    else plain

/-- A freeze request for a graph, by its origin (R169): before the decision point of a load it aborts the load and
re-queues the graph (R149, R79); a second request joins the first. -/
def requestFreeze (s : State) (h origin : Nat) : State :=
  match s.graph? h with
  | none => s
  | some g =>
    match g.phase with
    | .running => s.modGraph h fun g => { g with phase := .freezing, origin := origin, frzSince := some g.gtime, frzCores := [] }
    | .committing => s.modGraph h fun g =>
        { g with frzSince := some g.gtime, origin := if g.frzSince.isSome then g.origin else origin }
    | .loading => if g.coord.isSome then s.dropPeer h else s.abortLoad h
    | _ => s

/-- System software, or a nested trap in S mode, halts a context (R179): its running graphs are frozen first, with origin 3. -/
def haltContext (s : State) (x : Nat) : State :=
  match NMap.find s.ctxs x with
  | none => s
  | some k =>
    if k.halted || k.halting then s
    else
      let s1 := s.graphs.foldl (fun s hg =>
        if hg.1 / 2 ^ 28 = x && !hg.2.supervisor then s.requestFreeze hg.1 3 else s) s
      (s1.modCtx x fun k => { k with halting := true }).settleHalt x


/-- A core stops for a cut (R282); it has stopped once no stream of it stands within a token. -/
def cutCore (s : State) (c : Nat) : State :=
  let h := (s.core c).graph
  let s1 := (s.modCore c fun k => if k.cut then k else { k.leaveWait with cut := true }).modGraph h fun g =>
    { g with cutCores := if g.cutCores.contains c || s.splitToken c then g.cutCores else c :: g.cutCores }
  match s1.graph? h with
  | none => s1
  | some g =>
    if g.cutSince.isSome && !g.cutDone && g.cores.all (fun x => g.cutCores.contains x.2) then
      (s1.modGraph h fun g => { g with cutDone := true }).notifyGraph h { cause := 0x171 }
    else s1

/-- A cut of a graph starts at a core (R282); one in progress is left as it is. -/
def startCut (s : State) (h c : Nat) : State :=
  match s.graph? h with
  | none => s
  | some g =>
    if g.cutSince.isSome then s.cutCore c
    else (s.modGraph h fun g => { g with cutSince := some s.time, cutDone := false, cutCores := [] }).cutCore c

/-- A cut is released (R282): every part resumes at once, and DBG.2 is sent. -/
def releaseCut (s : State) (h : Nat) : State :=
  let s1 := (s.coresOf h).foldl (fun s c => s.modCore c fun k =>
    { k with cut := false
             run := if k.run = .trapped then .running else k.run
             pc := if k.run = .trapped then (k.epc &&& ~~~3#64).toNat else k.pc }) s
  (s1.modGraph h fun g => { g with cutSince := none, cutDone := false, cutCores := [] }).notifyGraph h { cause := 0x172 }

/-! ### Traps -/

/-- The causes that leave a U-mode trap resumable (R270, R340, R341). -/
def resumable (cause : Nat) : Bool := cause == 0x170 || cause == 0x173 || cause == 0x018

/-- What every precise trap records (R269). -/
def recordTrap (k : Core) (cause tval epc : Nat) : Core :=
  { k with epc := BitVec.ofNat 64 (epc / 4 * 4), cause := BitVec.ofNat 64 (2 ^ 63 + cause)
           tval := BitVec.ofNat 64 tval, waitSince := none }

/-- The offset of the word, of the one or two at the pc, that a fetch found in error (R274). -/
def badFetch (s : State) (c : Nat) : Nat :=
  if eccBad s (winBase c + (s.core c).pc) 4 then (s.core c).pc else (s.core c).pc + 4

/-- The DETAIL of a trap that halts its graph: the trap's value, or the place of a fetched word with an uncorrectable error (R274). -/
def trapDetail (s : State) (c cause tval : Nat) : Nat :=
  if cause = 0x164 then c / 192 * 2 ^ 40 + c % 192 * 2 ^ 32 + badFetch s c else tval % 2 ^ 48

/-- The slot of sr.status (0) or sr.vector (4) in a core's window whose uncorrectable error a trap's entry meets (R345): sr.vector is
read only where a handler is entered (R269). -/
def badTrapState (s : State) (c : Nat) : Option Nat :=
  let slot := fun (n : Nat) => 0x201000 + 8 * (0x700 + n)
  if eccBad s (winBase c + slot 0) 8 then some (slot 0)
  else if decide ((s.core c).mode ≠ .u) && !(bitAt (s.core c).status 7) && eccBad s (winBase c + slot 4) 8 then some (slot 4)
  else none

/-- Taking a precise trap with a cause and a value at a core, epc being the address to resume (R269, R270): epc, cause
and tval are recorded; in U mode the CP stops and the graph is cut or halted; with INTRAP set the CP stops and DBG.13 goes
to management; otherwise PMODE and INTRAP are set and the CP goes to its handler. An uncorrectable error in the trap state
stops the CP with CPX.15 instead (R345). -/
def trapAt (s : State) (c : Nat) (cause tval epc : Nat) : State :=
  let k := s.core c
  match badTrapState s c with
  | some place =>
    (s.modCore c fun k => { k with run := .nested, waitSince := none }).haltLocation k.graph 0x01F 2 (c / 192)
      ((c % 192) * 2 ^ 32 + place)
  | none =>
    let k1 := recordTrap k cause tval epc
    match k.mode with
    | .u =>
      let s1 := s.setCore c { k1 with run := .trapped }
      if resumable cause then s1.startCut k.graph c
      else s1.haltGraph k.graph { cause := cause, core := coreName c, detail := trapDetail s c cause tval }
    | md =>
      if bitAt k.status 7 then
        let s1 := (s.setCore c { k1 with run := .nested }).tellMgmt { cause := 0x17D, core := coreName c, graph := k.graph }
        match md, s.ctxOf c with
        | .m, _ => s1.setCore c { ({} : Core) with graph := k.graph, lcore := k.lcore, power := k.power }
        | _, some x => s1.haltContext x
        | _, none => s1
      else
        let base := fld k.vector 20 4 * 16
        let target := if bitAt k.vector 0 then base else base + 16 * (cause / 16)
        s.setCore c { k1 with
          status := BitVec.ofNat 64 (setBits (setBits k.status.toNat 3 2 (fld k.status 1 0)) 7 7 1)
          pc := target }

/-- A precise trap of the instruction the moving CP executes. -/
def trap (s : State) (cause tval : Nat) : State := s.trapAt s.turn cause tval s.cur.pc

/-- The return from a trap, in one step (R271, R342): pc from sr.epc, mode from PMODE, INTRAP cleared. -/
def returnFromTrap (s : State) : State :=
  s.modCur fun k =>
    { k with
      pc := k.epc.toNat / 4 * 4
      status := BitVec.ofNat 64 (setBits (setBits k.status.toNat 1 0 (fld k.status 3 2)) 7 7 0) }

/-! ### Moving on -/

/-- The moving CP goes on at an address. -/
def goto (s : State) (a : Nat) : State := s.modCur fun k => { k with pc := a, waitSince := none }

/-- The moving CP goes on past an n-byte instruction. -/
def advance (s : State) (n : Nat) : State := s.goto (s.cur.pc + n)

/-- A general register of the moving core. -/
def reg (s : State) (r : Reg) : Word := s.cur.reg r

/-- The state with a general register of the moving core written. -/
def setReg (s : State) (r : Reg) (v : Word) : State := s.modCur fun k => k.setReg r v

/-- The time that a core's time-outs count: its graph's graph time, or the machine's (R180). -/
def clock (s : State) (c : Nat) : Nat :=
  match s.graph? (s.core c).graph with
  | none => s.time
  | some g => g.gtime

/-- The moving CP waits at its instruction, which executes again (R336, R349); the wait's start is recorded. -/
def wait (s : State) : State :=
  s.modCur fun k => if k.waitSince.isSome then k else { k with waitSince := some (s.clock s.turn) }

/-- A fresh free value. -/
def takeFresh (s : State) : Nat × State := (Config.freeValue s.fresh, { s with fresh := s.fresh + 1 })

end State

/-- Instruction done: the destination is written and the CP goes on at the next word (R321). -/
def finish (s : State) (d : Reg) (v : Word) : Result := .next ((s.setReg d v).advance 4)

/-- Instruction done without a destination. -/
def finish0 (s : State) : Result := .next (s.advance 4)

/-- Times in the model's unit, a fifth of a nanosecond. -/
def nanos (n : Nat) : Nat := 5 * n

end Sys2Proof.Machine
end

