-- ==== Sys2Proof/Machine/Image.lean ====
section
/-! DEFINITION. The layout of a graph image (R141 to R143), of a block header (R306), and the SM3 digest they carry. -/

namespace Sys2Proof.Machine

/-! ### SM3 -/

/-- The initial value of SM3. -/
def sm3Iv : List (BitVec 32) :=
  [0x7380166f, 0x4914b2b9, 0x172442d7, 0xda8a0600, 0xa96f30bc, 0x163138aa, 0xe38dee4d, 0xb0fb0e4e]

/-- P0 of SM3. -/
def sm3P0 (x : BitVec 32) : BitVec 32 := x ^^^ x.rotateLeft 9 ^^^ x.rotateLeft 17
/-- P1 of SM3. -/
def sm3P1 (x : BitVec 32) : BitVec 32 := x ^^^ x.rotateLeft 15 ^^^ x.rotateLeft 23

/-- The sixteen words of a block, extended to 68, newest first. -/
def sm3Extend : Nat → List (BitVec 32) → List (BitVec 32)
  | 0, w => w
  | n + 1, w =>
    let at' := fun (i : Nat) => w.getD (i - 1) 0
    sm3Extend n ((sm3P1 (at' 16 ^^^ at' 9 ^^^ (at' 3).rotateLeft 15) ^^^ (at' 13).rotateLeft 7 ^^^ at' 6) :: w)

/-- One round of SM3 on the eight registers. -/
def sm3Round (j : Nat) (v : List (BitVec 32)) (w w' : BitVec 32) : List (BitVec 32) :=
  match v with
  | [a, b, c, d, e, f, g, h] =>
    let t : BitVec 32 := if j < 16 then 0x79cc4519 else 0x7a879d8a
    let a12 := a.rotateLeft 12
    let ss1 := (a12 + e + t.rotateLeft (j % 32)).rotateLeft 7
    let ss2 := ss1 ^^^ a12
    let ff := if j < 16 then a ^^^ b ^^^ c else (a &&& b) ||| (a &&& c) ||| (b &&& c)
    let gg := if j < 16 then e ^^^ f ^^^ g else (e &&& f) ||| (~~~e &&& g)
    let tt1 := ff + d + ss2 + w'
    let tt2 := gg + h + ss1 + w
    [tt1, a, b.rotateLeft 9, c, sm3P0 tt2, e, f.rotateLeft 19, g]
  | _ => v

/-- The compression of one 64-byte block. -/
def sm3Block (v : List (BitVec 32)) (blk : List Byte) : List (BitVec 32) :=
  let w0 := ((chunks 4 16 blk).map fun b => BitVec.ofNat 32 (ofBe b)).reverse
  let w := (sm3Extend 52 w0).reverse
  let out := (List.range 64).foldl (fun x j => sm3Round j x (w.getD j 0) (w.getD j 0 ^^^ w.getD (j + 4) 0)) v
  (v.zip out).map fun (a, b) => a ^^^ b

/-- The SM3 digest of a byte string, 32 bytes. -/
def sm3 (bs : List Byte) : List Byte :=
  let n := bs.length
  let pad := (119 - n % 64) % 64
  let m := bs ++ [0x80] ++ List.replicate pad 0 ++ beBytes 8 (8 * n)
  let v := (chunks 64 (m.length / 64) m).foldl sm3Block sm3Iv
  (v.map fun x => beBytes 4 x.toNat).flatten

/-! ### The image (R141 to R143) -/

/-- n bytes of an image at an offset, as a number. -/
def imgRd (img : List Byte) (off n : Nat) : Nat := ofLe ((img.drop off).take n)

/-- A section of an image: type, record count, offset, length (R141). -/
structure Section where
  type : Nat
  records : Nat
  off : Nat
  len : Nat
  deriving DecidableEq, Repr

/-- The section table of an image. -/
def imgSections (img : List Byte) : List Section :=
  (List.range (imgRd img 0x14 2)).map fun i =>
    let o := 0x100 + 16 * i
    ⟨imgRd img o 2, imgRd img (o + 4) 4, imgRd img (o + 8) 4, imgRd img (o + 12) 4⟩

/-- The section of a type, if the image has it. -/
def imgSection (img : List Byte) (t : Nat) : Option Section := (imgSections img).find? fun x => x.type == t

/-- The offset of a section, 0 without it. -/
def secOff (img : List Byte) (t : Nat) : Nat := match imgSection img t with | none => 0 | some x => x.off

/-- An actor record (R143). -/
structure ActorRec where
  lcore : Nat
  gang : Nat
  lact : Nat
  nphase : Nat
  eclass : Nat
  port0 : Nat
  entry : Nat
  lpkg : Nat
  deriving DecidableEq, Repr

/-- A port record (R143). -/
structure PortRec where
  pnum : Nat
  tcode : Nat
  tsize : Nat
  actor : Nat
  arc : Nat
  host : Nat
  deriving DecidableEq, Repr

/-- An arc record (R143). -/
structure ArcRec where
  src : Nat
  dst : Nat
  ante : Nat
  cap : Nat
  anteOff : Nat
  bound : Nat
  deriving DecidableEq, Repr

/-- NACTOR. -/
def nActors (img : List Byte) : Nat := imgRd img 0x18 2
/-- NARC. -/
def nArcs (img : List Byte) : Nat := imgRd img 0x1A 2
/-- NRSET. -/
def nSets (img : List Byte) : Nat := imgRd img 0x16 1
/-- Port records of the image. -/
def nPorts (img : List Byte) : Nat := match imgSection img 2 with | none => 0 | some x => x.records

/-- Actor record i. -/
def actorRec (img : List Byte) (i : Nat) : ActorRec :=
  let o := secOff img 1 + 16 * i
  ⟨imgRd img o 2, imgRd img (o + 2) 1, imgRd img (o + 3) 1, imgRd img (o + 4) 1, imgRd img (o + 5) 1, imgRd img (o + 6) 2,
    imgRd img (o + 8) 4, imgRd img (o + 12) 2⟩

/-- Port record i. -/
def portRec (img : List Byte) (i : Nat) : PortRec :=
  let o := secOff img 2 + 16 * i
  ⟨imgRd img o 1, imgRd img (o + 1) 1 % 32, imgRd img (o + 2) 2, imgRd img (o + 4) 2, imgRd img (o + 6) 2, imgRd img (o + 8) 2⟩

/-- Arc record i. -/
def arcRec (img : List Byte) (i : Nat) : ArcRec :=
  let o := secOff img 3 + 16 * i
  ⟨imgRd img o 2, imgRd img (o + 2) 2, imgRd img (o + 4) 2, imgRd img (o + 6) 2, imgRd img (o + 8) 4, imgRd img (o + 12) 4⟩

/-- All actor records. -/
def actorRecs (img : List Byte) : List ActorRec := (List.range (nActors img)).map (actorRec img)
/-- All port records. -/
def portRecs (img : List Byte) : List PortRec := (List.range (nPorts img)).map (portRec img)
/-- All arc records. -/
def arcRecs (img : List Byte) : List ArcRec := (List.range (nArcs img)).map (arcRec img)

/-- The count n(p, k) of actor a in rate set s (R142). -/
def imgRate (img : List Byte) (a s p k : Nat) : Nat :=
  imgRd img (secOff img 4 + 2 * (((a * 8 + s) * 16 + p) * 32 + k)) 2

/-- An actor is bound to a memory actor engine (R143). -/
def ActorRec.isMem (a : ActorRec) : Bool := decide (0x1000 ≤ a.lcore ∧ a.lcore < 0x1040)

/-- The port record of a number of an actor record, if any. -/
def actorPort (img : List Byte) (a pnum : Nat) : Option (Nat × PortRec) :=
  ((List.range (nPorts img)).map fun i => (i, portRec img i)).find? fun x => x.2.actor == a && x.2.pnum == pnum

/-- The port records of an actor record, by their numbers. -/
def portPlaces (img : List Byte) (a : Nat) : List Nat := (List.range (nPorts img)).filter fun j => (portRec img j).actor == a

/-- The logical cores of an actor: its gang's rectangle from its top-left core (R143). A logical core of logical package p
is numbered p × 0x2000 + LCORE. -/
def actorCores (a : ActorRec) : List Nat :=
  if a.isMem then []
  else
    ((List.range (bitsOf a.gang 5 3 + 1)).map fun r =>
      (List.range (bitsOf a.gang 2 0 + 1)).map fun c => a.lpkg * 0x2000 + a.lcore + 8 * r + c).flatten

/-- The actor records that run on a logical core, gang members included, by record number. -/
def coreActors (img : List Byte) (lcore : Nat) : List (Nat × ActorRec) :=
  ((List.range (nActors img)).map fun i => (i, actorRec img i)).filter fun x => (actorCores x.2).contains lcore

/-- The logical cores an image uses, in rising order. -/
def imgCores (img : List Byte) : List Nat :=
  sortBy (fun (x y : Nat) => decide (x < y)) ((actorRecs img).map actorCores).flatten.eraseDups

/-- The mode input port of the image, if it has one (R134). -/
def modePort (img : List Byte) : Option PortRec := (portRecs img).find? fun p => p.pnum == 32

/-! ### Packages, logical cores and arcs (R13, R28, R141, R143, R472) -/

/-- A graph spans packages (R141). -/
def spans (img : List Byte) : Bool := (imgRd img 7 1).testBit 1

/-- An actor record belongs to this package (R143). -/
def actorHere (s : State) (img : List Byte) (r : ActorRec) : Bool :=
  !(spans img) || Config.packageOf img r.lpkg == s.links.pkg

/-- The packages that a graph's image names. -/
def packagesOf (img : List Byte) : List Nat := ((actorRecs img).map fun a => Config.packageOf img a.lpkg).eraseDups

/-- LCORE of a logical core. -/
def lcoreOf (l : Nat) : Nat := l % 0x2000
/-- The logical card of a logical core. -/
def lcardOf (l : Nat) : Nat := lcoreOf l / 192
/-- The logical quadrant of a logical core, with its card: 4 × card + quad. -/
def lquadOf (l : Nat) : Nat := lcoreOf l / 48
/-- The place of a core in its quadrant. -/
def inQuad (l : Nat) : Nat := lcoreOf l % 192 % 48

/-- An actor record belongs to the package of another. -/
def samePkg (img : List Byte) (a b : ActorRec) : Bool :=
  a.lpkg == b.lpkg || (spans img && Config.packageOf img a.lpkg == Config.packageOf img b.lpkg)

/-- The actor record of a port record. -/
def portActor (img : List Byte) (j : Nat) : ActorRec := actorRec img (portRec img j).actor

/-- What carries an arc: 0 a window over the card mesh, 1 a deck stream, 2 a Herlo channel, 3 a memory actor's stream, 4 the way
to the mode controller from a mode output port (R134, R135). -/
def arcKind (img : List Byte) (a : Nat) : Nat :=
  let r := arcRec img a
  let x := portActor img r.src
  let y := portActor img r.dst
  if (portRec img r.dst).pnum = 32 then 4
  else if !(samePkg img x y) then 2
  else if x.isMem || y.isMem then 3
  else if lcardOf x.lcore = lcardOf y.lcore then 0 else 1

/-- The arcs that leave a port record. -/
def arcsFrom (img : List Byte) (j : Nat) : List Nat := (List.range (nArcs img)).filter fun a => (arcRec img a).src == j

/-- The arc that names an arc's stream: of one source port, those to other cards share one, and so do those of a memory
source (R51, R472). -/
def arcStream (img : List Byte) (a : Nat) : Nat :=
  let r := arcRec img a
  let k := arcKind img a
  if k = 1 ∨ (k = 3 ∧ (portActor img r.src).isMem = true) then
    ((arcsFrom img r.src).find? fun b => arcKind img b == k).getD a
  else a

/-! ### Blocks (R306) -/

/-- The header of a block. -/
def blkHeader (b : List Byte) : Nat := ofLe (b.take 16)
/-- The words of a block. -/
def blkWords (b : List Byte) : List Word :=
  (chunks 8 ((b.length - 16) / 8) (b.drop 16)).map fun x => BitVec.ofNat 64 (ofLe x)
/-- BLOCKID. -/
def blkId (b : List Byte) : Nat := bitsOf (blkHeader b) 79 64
/-- NINST. -/
def hdrNinst (h : Nat) : Nat := bitsOf h 119 112
/-- ENTRY. -/
def hdrEntry (h : Nat) : Nat := bitsOf h 103 96
/-- EXIT. -/
def hdrExit (h : Nat) : Nat := bitsOf h 95 88

/-- LATCLASS. -/
def hdrLat (h : Nat) : Nat := bitsOf h 81 80

/-! ### The other sections (R142, R306, R444, R120) -/

/-- The bytes of a section, none without it. -/
def secBytes (img : List Byte) (t : Nat) : List Byte :=
  match imgSection img t with
  | none => []
  | some x => (img.drop x.off).take x.len

/-- The records that a section counts. -/
def secRecords (img : List Byte) (t : Nat) : Nat := ((imgSection img t).map Section.records).getD 0

/-- A number of records one behind another, each of a size its first bytes give. -/
def splitRecords (size : List Byte → Nat) : Nat → List Byte → List (List Byte)
  | 0, _ => []
  | n + 1, bs => if bs = [] then [] else bs.take (size bs) :: splitRecords size n (bs.drop (size bs))

/-- The records of a section that it assigns to a logical core. -/
def recordsFor (img : List Byte) (t : Nat) (size : List Byte → Nat) (mine : List Byte → Nat → Nat → Bool) (l : Nat) : List (List Byte) :=
  let all := splitRecords size (secRecords img t) (secBytes img t)
  ((List.range all.length).filter fun n => mine (secBytes img t) n l).map fun n => all.getD n []

/-- The blocks that an image assigns to a logical core, in ascending BLOCKID order (R306, R351). -/
def imageBlocks (img : List Byte) (l : Nat) : List (List Byte) :=
  sortBy (fun (a b : List Byte) => decide (blkId a < blkId b))
    (recordsFor img 6 (fun b => 16 + 8 * hdrNinst (blkHeader b)) Config.blockFor l)

/-- The meld graph records that an image assigns to a logical core, in section order (R444). -/
def imageMelds (img : List Byte) (l : Nat) : List (List Byte) := recordsFor img 7 (fun b => 16 + 8 * ofLe (b.take 2)) Config.meldFor l

/-- The code of a logical core: its tile SRAM offset, and the first byte and length of its run of the CODE section. -/
def imageCode (img : List Byte) (l : Nat) : Nat × Nat × Nat :=
  let bs := secBytes img 8
  let c := Config.codeRun bs l
  (c.1, min c.2.1 bs.length, min c.2.2 (bs.length - c.2.1))

/-- The initial contents of a logical core's tile SRAM, as offsets and bytes; for 0x1000 + n, of the descriptor of memory actor engine n
(R142, R455, R475). -/
def imageData (img : List Byte) (l : Nat) : List (Nat × List Byte) :=
  if (imgSection img 9).isNone then [] else ((Config.dataRuns (secBytes img 9)).filter fun r => r.1 == l).map Prod.snd

/-- The firing-table segment of a logical core for a rate set, in the entry format of R120. -/
def imageSched (img : List Byte) (l set : Nat) : List Word32 :=
  let bs := secBytes img 10
  let r := Config.schedRun bs l set
  (chunks 4 (min r.2 (bs.length / 4 - r.1)) (bs.drop (4 * r.1))).map fun x => BitVec.ofNat 32 (ofLe x)

/-- The deck-slot demand of an image, as stream and slots per frame. -/
def imageDeck (img : List Byte) : List (Nat × Nat) := if (imgSection img 11).isNone then [] else Config.deckRuns (secBytes img 11)

/-- The block of an identifier in the library of a core (R351). -/
def libraryBlock (s : State) (c id : Nat) : Option (List Byte) :=
  match s.graph? (s.core c).graph with
  | none => none
  | some g => (imageBlocks g.img (s.core c).lcore).find? fun b => blkId b == id

end Sys2Proof.Machine
end

