-- ==== Sys2Proof/Machine/Numbers.lean ====
section
/-! DEFINITION. Exact values, the element formats, rounding, and the encodings of tokens (R231 to R249). -/

namespace Sys2Proof.Machine

/-- An exact value (R12, R235): NaN, a signed infinity, or the number ± n / d with d not zero; zeros keep their sign. -/
inductive Val where
  | nan
  | inf (neg : Bool)
  | num (neg : Bool) (n d : Nat)
  deriving DecidableEq, Repr

/-- The five counts of R259 with one of them 1: 0 overflow, 1 saturation, 2 NaN, 3 flush, 4 cut. -/
def count (i : Nat) : List Nat := (List.range 5).map fun j => if i = j then 1 else 0

/-- No count. -/
def noCount : List Nat := [0, 0, 0, 0, 0]

/-- Two rows of counts added (R259). -/
def addCounts (a b : List Nat) : List Nat := (List.range 5).map fun i => a.getD i 0 + b.getD i 0

/-- A row of counts joined by another, each saturating; and whether the first of them to saturate in the tile does so now (R260). -/
def joinCounts (old cs : List Nat) : List Nat × Bool :=
  let new := (addCounts old cs).map fun n => min n 0xFFFFFFFF
  (new, new.contains 0xFFFFFFFF && !(old.contains 0xFFFFFFFF))

namespace Val

/-- The value of an integer. -/
def ofInt (x : Int) : Val := .num (decide (x < 0)) x.natAbs 1

/-- n × 2^e with a sign. -/
def scaled (neg : Bool) (n : Nat) (e : Int) : Val :=
  if 0 ≤ e then .num neg (n * 2 ^ e.toNat) 1 else .num neg n (2 ^ (-e).toNat)

/-- A zero of either sign. -/
def isZero : Val → Bool
  | .num _ n _ => n == 0
  | _ => false

/-- A NaN. -/
def isNan : Val → Bool
  | .nan => true
  | _ => false

/-- The sign, false for NaN. -/
def isNeg : Val → Bool
  | .nan => false
  | .inf s => s
  | .num s _ _ => s

/-- −x. -/
def neg : Val → Val
  | .nan => .nan
  | .inf s => .inf (!s)
  | .num s n d => .num (!s) n d

/-- |x|. -/
def abs : Val → Val
  | .nan => .nan
  | .inf _ => .inf false
  | .num _ n d => .num false n d

/-- The numerator with its sign. -/
def snum (neg : Bool) (n : Nat) : Int := if neg then -(n : Int) else n

/-- x + y, exact; an exact zero sum of unlike signs is +0, or −0 when rounding down (R235, IEEE 754-2019). -/
def add (rm : Nat) (x y : Val) : Val :=
  match x, y with
  | .nan, _ => .nan
  | _, .nan => .nan
  | .inf a, .inf b => if a = b then .inf a else .nan
  | .inf a, _ => .inf a
  | _, .inf b => .inf b
  | .num a n d, .num b m e =>
    let z := snum a n * e + snum b m * d
    if z = 0 then .num (if n = 0 ∧ m = 0 ∧ a = b then a else rm == 3) 0 1
    else .num (decide (z < 0)) z.natAbs (d * e)

/-- x × y, exact (R235). -/
def mul (x y : Val) : Val :=
  match x, y with
  | .nan, _ => .nan
  | _, .nan => .nan
  | .inf a, .inf b => .inf (a != b)
  | .inf a, .num b m _ => if m = 0 then .nan else .inf (a != b)
  | .num a n _, .inf b => if n = 0 then .nan else .inf (a != b)
  | .num a n d, .num b m e => .num (a != b) (n * m) (d * e)

/-- x < y; false with a NaN, and +0 equals −0 (R403). -/
def lt (x y : Val) : Bool :=
  match x, y with
  | .nan, _ => false
  | _, .nan => false
  | .inf a, .inf b => a && !b
  | .inf a, _ => a
  | _, .inf b => !b
  | .num a n d, .num b m e => decide (snum a n * e < snum b m * d)

/-- x = y; false with a NaN. -/
def eq (x y : Val) : Bool := !x.isNan && !y.isNan && !(lt x y) && !(lt y x)

/-- x is below y with −0 below +0 (R401). -/
def below (x y : Val) : Bool := lt x y || (eq x y && x.isNeg && !y.isNeg)

/-- An integer value, for values of integer formats. -/
def toInt : Val → Int
  | .num s n d => snum s (n / d)
  | _ => 0

end Val

/-! ### Formats (R231, R233, R234) -/

/-- A floating type (R400's F). -/
def isFloat (t : Nat) : Bool := decide (0x0C ≤ t ∧ t ≤ 0x13)
/-- An integer type (R400's I). -/
def isInteger (t : Nat) : Bool := decide (t ≤ 0x09)
/-- A signed integer type. -/
def isSigned (t : Nat) : Bool := decide (t ≤ 0x04)
/-- A block-scaled type. -/
def isBlock (t : Nat) : Bool := decide (0x14 ≤ t ∧ t ≤ 0x1A)

/-- A floating format: exponent bits, mantissa bits, bias, infinity, NaN encodings (0 none, 1 as FP32, 2 as E4M3). -/
structure FloatFmt where
  e : Nat
  m : Nat
  bias : Nat
  inf : Bool
  nans : Nat
  deriving DecidableEq, Repr

/-- The floating formats of R234. -/
def floatFmt (t : Nat) : FloatFmt :=
  match t with
  | 0x0C => ⟨8, 23, 127, true, 1⟩
  | 0x0D => ⟨5, 10, 15, true, 1⟩
  | 0x0E => ⟨8, 7, 127, true, 1⟩
  | 0x0F => ⟨4, 3, 7, false, 2⟩
  | 0x10 => ⟨5, 2, 15, true, 1⟩
  | 0x11 => ⟨3, 2, 3, false, 0⟩
  | 0x12 => ⟨2, 3, 1, false, 0⟩
  | _ => ⟨2, 1, 1, false, 0⟩

/-- Element bits of a type (R231). -/
def elemBits (t : Nat) : Nat :=
  match t with
  | 0x00 => 2 | 0x01 => 4 | 0x02 => 8 | 0x03 => 16 | 0x04 => 32
  | 0x05 => 2 | 0x06 => 4 | 0x07 => 8 | 0x08 => 16 | 0x09 => 32
  | 0x0A => 2 | 0x0B => 1 | 0x0C => 32 | 0x0D => 16 | 0x0E => 16
  | 0x0F => 8 | 0x10 => 8 | 0x11 => 6 | 0x12 => 6 | 0x13 => 4
  | 0x14 => 8 | 0x15 => 8 | 0x16 => 6 | 0x17 => 6 | 0x18 => 4 | 0x19 => 8 | 0x1A => 4
  | 0x1B => 32 | 0x1C => 128 | 0x1D => 32 | 0x1E => 1 | _ => 64

/-- Elements of one unit of a type (R231). -/
def unitElems (t : Nat) : Nat :=
  match t with
  | 0x00 => 4 | 0x01 => 2 | 0x05 => 4 | 0x06 => 2 | 0x0A => 4 | 0x0B => 8
  | 0x11 => 4 | 0x12 => 4 | 0x13 => 2
  | 0x14 => 32 | 0x15 => 32 | 0x16 => 32 | 0x17 => 32 | 0x18 => 32 | 0x19 => 32 | 0x1A => 16
  | 0x1E => 8 | _ => 1

/-- Bytes of one unit of a type, with the scale byte of a block (R231). -/
def unitBytes (t : Nat) : Nat := unitElems t * elemBits t / 8 + (if isBlock t then 1 else 0)

/-- Bytes of a vector token of 64 elements (R231, R392). -/
def vecBytes (t : Nat) : Nat :=
  if t = 0x1B then 260 else if t = 0x1C then 1040 else if t = 0x1F then 8 else 64 / unitElems t * unitBytes t

/-- Bytes of a vector token at a port with a token size: an SD16 or XW128 port token is one vector token of n elements (R231,
R392, R417). -/
def portVec (t n : Nat) : Nat := if t = 0x1B ∨ t = 0x1C then n else vecBytes t

/-- The element format inside a block-scaled format (R237). -/
def blockElem (t : Nat) : Nat :=
  match t with
  | 0x14 => 0x0F | 0x15 => 0x10 | 0x16 => 0x11 | 0x17 => 0x12 | 0x18 => 0x13 | 0x19 => 0x02 | _ => 0x01

/-- floor(log2 (n / d)) for n and d not zero. -/
def floorLog2 (n d : Nat) : Int :=
  let k : Int := (Nat.log2 n : Int) - (Nat.log2 d : Int)
  let below := if 0 ≤ k then decide (n < d * 2 ^ k.toNat) else decide (n * 2 ^ (-k).toNat < d)
  if below then k - 1 else k

/-- The exact value of a floating pattern (R234). -/
def decodeFloat (f : FloatFmt) (x : Nat) : Val :=
  let s := x.testBit (f.e + f.m)
  let ex := x / 2 ^ f.m % 2 ^ f.e
  let mt := x % 2 ^ f.m
  if f.nans = 1 ∧ ex = 2 ^ f.e - 1 then (if mt = 0 then .inf s else .nan)
  else if f.nans = 2 ∧ ex = 2 ^ f.e - 1 ∧ mt = 2 ^ f.m - 1 then .nan
  else if ex = 0 then Val.scaled s mt (1 - (f.bias : Int) - f.m)
  else Val.scaled s (2 ^ f.m + mt) ((ex : Int) - f.bias - f.m)

/-- The exact value of an element's bits; none for an illegal TERN2 element (R233). BOOL reads as 0 or 1 (R246). -/
def decodeElem (t x : Nat) : Option Val :=
  if isFloat t then some (decodeFloat (floatFmt t) x)
  else if isInteger t then
    some (Val.ofInt (if isSigned t then sgn (elemBits t) x else (x % 2 ^ elemBits t : Nat)))
  else if t = 0x0A then
    match x % 4 with
    | 0 => some (Val.ofInt 0) | 1 => some (Val.ofInt 1) | 2 => some (Val.ofInt (-1)) | _ => none
  else if t = 0x0B then some (Val.ofInt (if x % 2 = 0 then 1 else -1))
  else if t = 0x1E then some (Val.ofInt (x % 2 : Nat))
  else some (Val.ofInt (x : Nat))

/-- The value of a scale byte: E8M0 for the MX formats, UE5M3 for BS4; NaN for E8M0 0xFF (R236). -/
def decodeScale (t x : Nat) : Val :=
  if t = 0x1A then
    let e := x / 8
    let m := x % 8
    if e = 0 then Val.scaled false m (-17) else Val.scaled false (8 + m) ((e : Int) - 18)
  else if x = 0xFF then .nan
  else Val.scaled false 1 ((x : Int) - 127)

/-! ### Rounding (R242 to R244) -/

/-- The exact value n / d over the spacing 2^e, as a quotient of numbers. -/
def overSpacing (n d : Nat) (e : Int) : Nat × Nat :=
  if 0 ≤ e then (n, d * 2 ^ e.toNat) else (n * 2 ^ (-e).toNat, d)

/-- The rounded multiple of the spacing: the magnitude's quotient a / b rounded by a mode, with the word u for SR
(R242 to R244); 5 rounds the magnitude up. -/
def roundMag (rm u : Nat) (neg : Bool) (a b : Nat) : Nat :=
  let k := a / b
  let r := a % b
  if r = 0 then k
  else match rm with
    | 0 => if b < 2 * r ∨ (2 * r = b ∧ k % 2 = 1) then k + 1 else k
    | 1 => k
    | 2 => if neg then k else k + 1
    | 3 => if neg then k + 1 else k
    | 5 => k + 1
    | _ =>
      if neg then (if u < (b - r) * 2 ^ 32 / b then k else k + 1)
      else if u < r * 2 ^ 32 / b then k + 1 else k

/-- The pattern of ± the largest finite value. -/
def maxFinite (f : FloatFmt) : Nat :=
  if f.nans = 1 then (2 ^ f.e - 1) * 2 ^ f.m - 1
  else if f.nans = 2 then 2 ^ (f.e + f.m) - 2
  else 2 ^ (f.e + f.m) - 1

/-- The sign bit of a pattern. -/
def signBit (f : FloatFmt) (s : Bool) : Nat := if s then 2 ^ (f.e + f.m) else 0

/-- The canonical NaN of a format that has one (R234). -/
def canonNan (f : FloatFmt) : Nat :=
  if f.nans = 1 then (2 ^ f.e - 1) * 2 ^ f.m + 2 ^ (f.m - 1) else 2 ^ (f.e + f.m) - 1

/-- The pattern of infinity. -/
def infPattern (f : FloatFmt) : Nat := (2 ^ f.e - 1) * 2 ^ f.m

/-- The mode under which a value is held against the range of a format: SR saturates every value beyond it (R244), whatever the word,
so that the magnitude counts rounded up; the others saturate what they round to. -/
def rangeMode (rm : Nat) : Nat := if rm ≤ 3 then rm else 5

/-- A value rounded into a floating format under a mode (R235, R242 to R244), with what R259 counts. -/
def encodeFloat (f : FloatFmt) (rm u : Nat) (v : Val) : Nat × List Nat :=
  match v with
  | .nan => if f.nans = 0 then (0, count 2) else (canonNan f, count 2)
  | .inf s => if f.inf then (signBit f s + infPattern f, noCount) else (signBit f s + maxFinite f, count 1)
  | .num s n d =>
    if n = 0 then (signBit f s, noCount)
    else
      let emin : Int := 1 - (f.bias : Int)
      let ex := max (floorLog2 n d) emin
      let q := overSpacing n d (ex - f.m)
      let pat := fun (k : Nat) =>
        let ex2 := if 2 ^ (f.m + 1) ≤ k then ex + 1 else ex
        let k2 := if 2 ^ (f.m + 1) ≤ k then k / 2 else k
        if k2 < 2 ^ f.m then k2 else ((ex2 + f.bias).toNat) * 2 ^ f.m + (k2 - 2 ^ f.m)
      if maxFinite f < pat (roundMag (rangeMode rm) u s q.1 q.2) then
        let away := match rm with | 0 => true | 1 => false | 2 => !s | 3 => s | _ => false
        if f.inf && away then (signBit f s + infPattern f, count 0) else (signBit f s + maxFinite f, count 1)
      else
        let p := pat (roundMag rm u s q.1 q.2)
        (signBit f s + p, if p = 0 then count 3 else noCount)

/-- The least and greatest value of an integer range. -/
structure IntRange where
  lo : Int
  hi : Int
  deriving DecidableEq, Repr

/-- The range of an integer type of b bits (R233). -/
def intRange (b : Nat) (signed : Bool) : IntRange :=
  if signed then ⟨-(2 ^ (b - 1) : Int), 2 ^ (b - 1) - 1⟩ else ⟨0, 2 ^ b - 1⟩

/-- A value rounded to an integer and clamped to a range (R235, R243), with what R259 counts: a negative value clamped to 0 is
a saturation and a flush. -/
def roundInt (g : IntRange) (rm u : Nat) (v : Val) : Int × List Nat :=
  match v with
  | .nan => (0, count 2)
  | .inf s => (if s then g.lo else g.hi, count 1)
  | .num s n d =>
    if n = 0 then (0, noCount)
    else
      let k := Val.snum s (roundMag rm u s n d)
      let m := Val.snum s (roundMag (rangeMode rm) u s n d)
      if m < g.lo then (g.lo, addCounts (count 1) (if g.lo = 0 then count 3 else noCount)) else if g.hi < m then (g.hi, count 1)
      else (k, if k = 0 then count 3 else noCount)

/-- A value encoded into an element of a type: floats and integers under R243, TERN2, BIN1 and BOOL under R233 and R235,
a RAW32 word as its bits. -/
def encodeElem (t rm u : Nat) (v : Val) : Nat × List Nat :=
  if isFloat t then encodeFloat (floatFmt t) rm u v
  else if isInteger t then
    let r := roundInt (intRange (elemBits t) (isSigned t)) rm u v
    (wrapN (elemBits t) r.1, r.2)
  else if t = 0x0A then
    let r := roundInt ⟨-1, 1⟩ 0 0 v
    (if r.1 = 0 then 0 else if r.1 = 1 then 1 else 2, r.2)
  else if t = 0x0B then
    match v with
    | .nan => (0, count 2)
    | _ => (if v.isNeg && !v.isZero then 1 else 0, noCount)
  else if t = 0x1E then
    match v with
    | .nan => (0, count 2)
    | _ => (if v.isZero then 0 else 1, noCount)
  else
    match v with
    | .num s n d => (wrapN (elemBits t) (Val.snum s (n / d)), noCount)
    | _ => (0, noCount)

/-! ### Tokens (R232) -/

/-- n elements of b bits from the bytes of a unit, read as a little-endian number (R232). -/
def unpackBits (b n : Nat) (bs : List Byte) : List Nat :=
  let x := ofLe bs
  (List.range n).map fun j => x / 2 ^ (b * j) % 2 ^ b

/-- The bytes of elements of b bits packed from bit 0 (R232). -/
def packBits (b : Nat) (xs : List Nat) : List Byte :=
  leBytes ((b * xs.length + 7) / 8) (xs.foldr (fun x acc => acc * 2 ^ b + x % 2 ^ b) 0)

/-- The number of elements of a token, by its bytes (R231, R392). -/
def tokenElems (t len : Nat) : Nat :=
  if t = 0x1B then (len - 4) / 4 else if t = 0x1C then (len - 16) / 16 else len / unitBytes t * unitElems t

/-- The elements' bits of a token whose type has no scale; the tail of an SD16 or XW128 token is left out (R232). -/
def tokenFields (t : Nat) (bs : List Byte) : List Nat :=
  let b := elemBits t
  let n := tokenElems t bs.length
  if b < 8 then
    ((chunks (unitBytes t) (bs.length / unitBytes t) bs).map fun u => unpackBits b (unitElems t) u).flatten
  else unpackBits b n (bs.take (n * b / 8))

/-- The bytes of a token of elements without scale or tail (R232). -/
def fieldBytes (t : Nat) (xs : List Nat) : List Byte := packBits (elemBits t) xs

/-- The tail exponent of an SD16 or XW128 token; none when a reserved tail bit is not zero (FMT.13, R232). -/
def tailExp (t : Nat) (bs : List Byte) : Option Int :=
  let n := tokenElems t bs.length
  let x := ofLe (bs.drop (n * elemBits t / 8))
  if x < 2 ^ 16 then some (sgn 16 x) else none

/-- The tail bytes of an exponent; what they hold of one beyond 16 bits the spec does not say (log entry 91). -/
def tailBytes (t : Nat) (e : Int) : List Byte :=
  leBytes (if t = 0x1C then 16 else 4) (if -32768 ≤ e ∧ e < 32768 then wrapN 16 e else Config.tailBeyond e % 2 ^ 16)

/-- The digits' sum of an SD16 element, Σ d_i × 2^i; none for a digit 0b11 (R238). -/
def sdDigits : Nat → Nat → Option Int
  | 0, _ => some 0
  | n + 1, x =>
    match x % 4, sdDigits n (x / 4) with
    | 0, some r => some (2 * r)
    | 1, some r => some (2 * r + 1)
    | 2, some r => some (2 * r - 1)
    | _, _ => none

/-- The exact value of an SD16 element under a tail exponent (R238). -/
def sdValue (e : Int) (x : Nat) : Option Val :=
  (sdDigits 16 x).map fun k => Val.scaled (decide (k < 0)) k.natAbs (e - 15)

/-- The exact value of an XW128 element (R241). -/
def xwValue (e : Int) (x : Nat) : Val :=
  let k := sgn 128 x
  Val.scaled (decide (k < 0)) k.natAbs (e - 64)

/-- The values of one block unit: scale × element, NaN where the scale is NaN (R237). MXINT8 elements count in 64ths. -/
def blockValues (t : Nat) (u : List Byte) : List Val :=
  let sc := decodeScale t (ofLe (u.take 1))
  let et := blockElem t
  (unpackBits (elemBits t) (unitElems t) (u.drop 1)).map fun x =>
    let v := (decodeElem et x).getD .nan
    let w := if t = 0x19 then v.mul (Val.scaled false 1 (-6)) else v
    match sc with
    | .nan => .nan
    | _ => sc.mul w

/-- A token decoded: its exact values, or the FMT fault of an illegal element or tail (R232, R233, R238). -/
def decodeToken (t : Nat) (bs : List Byte) : Except Nat (List Val) :=
  if isBlock t then .ok ((chunks (unitBytes t) (bs.length / unitBytes t) bs).map (blockValues t)).flatten
  else if t = 0x1B then
    match tailExp t bs with
    | none => .error 0x0FD
    | some e => match (tokenFields t bs).mapM (sdValue e) with
      | some vs => .ok vs
      | none => .error 0x0F1
  else if t = 0x1C then
    match tailExp t bs with
    | none => .error 0x0FD
    | some e => .ok ((tokenFields t bs).map (xwValue e))
  else match (tokenFields t bs).mapM (decodeElem t) with
    | some vs => .ok vs
    | none => .error 0x0F0

/-! ### Block quantisation (R247) -/

/-- emax of a block-scaled format's elements (R247). -/
def blockEmax (t : Nat) : Int :=
  match t with
  | 0x14 => 8 | 0x15 => 15 | 0x16 => 4 | 0x17 => 2 | 0x18 => 2 | _ => 0

/-- floor(log2 max |v|) over the finite, non-zero values, if any. -/
def maxLog2 (vs : List Val) : Option Int :=
  vs.foldl (fun acc v => match v with
    | .num _ n d => if n = 0 then acc else
        let k := floorLog2 n d
        match acc with | none => some k | some a => some (max a k)
    | _ => acc) none

/-- sat(rne(v / 2^X, elem), elem) for the element format of a block type (R247): in a format with infinity, rne counts an
overflow and sat a saturation (R243, R259). MXINT8 elements are 64ths. -/
def blockElemCode (t : Nat) (x : Int) (v : Val) : Nat × List Nat :=
  let et := blockElem t
  let w := v.mul (Val.scaled false 1 (-x))
  let r := encodeElem et 0 0 (if t = 0x19 then w.mul (Val.ofInt 64) else w)
  if isFloat et then
    let f := floatFmt et
    if f.inf && r.1 % 2 ^ (f.e + f.m) == infPattern f then
      (r.1 / 2 ^ (f.e + f.m) * 2 ^ (f.e + f.m) + maxFinite f, addCounts r.2 (count 1)) else r
  else r

/-- An MX block (R247): scale byte, elements, counts. -/
def quantMx (t : Nat) (vs : List Val) : List Byte × List Nat :=
  let b := elemBits t
  let zeros := vs.map fun _ => 0
  if vs.any (fun v => match v with | .num _ _ _ => false | _ => true) then
    (leBytes 1 0xFF ++ packBits b zeros, count 2)
  else match maxLog2 vs with
    | none => (leBytes 1 0 ++ packBits b zeros, noCount)
    | some l =>
      let x := l - blockEmax t
      if x < -127 then (leBytes 1 0 ++ packBits b zeros, count 3)
      else
        let xx := min x 127
        let rs := vs.map (blockElemCode t xx)
        let cs := if 127 < x then count 1 else rs.foldl (fun c r => addCounts c r.2) noCount
        (leBytes 1 (if 127 < x then 0xFE else (x + 127).toNat) ++ packBits b (rs.map Prod.fst), cs)

/-- The smallest UE5M3 code whose value is not below r (R247), 0xFF when none is. -/
def ue5m3Above (r : Val) : Nat :=
  ((List.range 256).find? fun c => !((decodeScale 0x1A c).lt r)).getD 0xFF

/-- The greater of two magnitudes. -/
def maxMag (vs : List Val) : Val :=
  vs.foldl (fun a v => match v with
    | .num _ n d => if a.lt (.num false n d) then .num false n d else a
    | _ => a) (.num false 0 1)

/-- 1 / x for a finite x not zero. -/
def Val.inv : Val → Val
  | .num s n d => .num s d n
  | v => v

/-- A BS4 block (R247): scale byte, elements, counts. -/
def quantBs4 (vs : List Val) : List Byte × List Nat :=
  let r := (maxMag vs).mul (.num false 1 7)
  let c := if r.isZero then 0 else ue5m3Above r
  let beyond := (decodeScale 0x1A 0xFF).lt r
  let sc := decodeScale 0x1A c
  let one := fun (v : Val) => match v with
    | .nan => (0, count 2)
    | .inf s => (if s then 9 else 7, count 1)
    | .num s n d => if c = 0 then (0, noCount) else encodeElem 0x01 0 0 (Val.mul (.num s n d) sc.inv)
  let rs := vs.map one
  (leBytes 1 c ++ packBits 4 (rs.map Prod.fst), rs.foldl (fun c r => addCounts c r.2) (if beyond then count 1 else noCount))

/-- Values encoded into a block-scaled type, block by block (R247). -/
def quantToken (t : Nat) (vs : List Val) : List Byte × List Nat :=
  let bl := unitElems t
  (chunks bl (vs.length / bl) vs).foldl (fun acc b =>
    let r := if t = 0x1A then quantBs4 b else quantMx t b
    (acc.1 ++ r.1, addCounts acc.2 r.2)) ([], noCount)

/-! ### SD16 and XW128 (R238 to R241) -/

/-- The sixteen digits of a magnitude with a sign: digit i is sign × bit i (R240). -/
def sdPattern (neg : Bool) (q : Nat) : Nat :=
  (List.range 16).foldl (fun x i => if q.testBit i then x + (if neg then 2 else 1) * 4 ^ i else x) 0

/-- TOSD (R240): the token's bytes and counts. -/
def toSd (vs : List Val) : List Byte × List Nat :=
  let e := (maxLog2 vs).getD 0
  let one := fun (v : Val) => match v with
    | .nan => (0, count 2)
    | .inf s => (sdPattern s 0xFFFF, count 1)
    | .num s n d =>
      if n = 0 then (0, noCount)
      else
        let q := overSpacing n d (e - 15)
        let k := roundMag 0 0 false q.1 q.2
        if 0xFFFF < k then (sdPattern s 0xFFFF, count 1)
        else (sdPattern s k, if k = 0 then count 3 else noCount)
  let rs := vs.map one
  (packBits 32 (rs.map Prod.fst) ++ tailBytes 0x1B e, rs.foldl (fun c r => addCounts c r.2) noCount)

/-- A value into XW128 under an exponent (R241). -/
def xwElem (e : Int) (v : Val) : Nat × List Nat :=
  let r := roundInt (intRange 128 true) 0 0 (v.mul (Val.scaled false 1 (64 - e)))
  (wrapN 128 r.1, r.2)

/-- Values encoded into a type, each rounded under a mode, SR words by element (R243, R244, R246, R255): bytes and
counts. -/
def encodeToken (t rm : Nat) (us : List Nat) (vs : List Val) : List Byte × List Nat :=
  if isBlock t then quantToken t vs
  else if t = 0x1B then toSd vs
  else if t = 0x1C then
    let rs := vs.map (xwElem 0)
    (packBits 128 (rs.map Prod.fst) ++ tailBytes t 0, rs.foldl (fun c r => addCounts c r.2) noCount)
  else
    let rs := (vs.zip (List.range vs.length)).map fun (v, i) => encodeElem t rm (us.getD i 0) v
    (fieldBytes t (rs.map Prod.fst), rs.foldl (fun c r => addCounts c r.2) noCount)

/-! ### Block alignment (R248) -/

/-- align_block (R248): the exponent and the eight integers, none for a special group; and the counts. -/
def alignBlock (vs : List Val) (p : Nat) : Option (Int × List Int) × List Nat :=
  if vs.any (fun v => match v with | .num _ _ _ => false | _ => true) then (none, noCount)
  else match maxLog2 vs with
    | none => (some (-32768, vs.map fun _ => 0), noCount)
    | some eg =>
      let rs := vs.map fun v => roundInt (intRange p true) 0 0 (v.mul (Val.scaled false 1 (p - eg - 2)))
      (some (eg, rs.map Prod.fst), rs.foldl (fun c r => addCounts c r.2) noCount)

/-- The p-plane integer of an element of an integer format (R248): clamped to the p-plane range of its signedness. -/
def planeInt (t p : Nat) (v : Val) : Int × List Nat :=
  if t = 0x0B then (v.toInt, noCount)
  else roundInt (intRange p (isSigned t || t == 0x0A)) 0 0 v

/-! ### Elementary functions (R245): enough bits that rounding the result is rounding the exact value -/

/-- The fixed-point precision of the series. -/
def prec : Nat := 320

/-- Σ over k of z^(2k+1) / (2k+1) in fixed point: term holds z^(2k+1). -/
def atanhSum (z2 : Nat) : Nat → Nat → Nat → Nat → Nat
  | 0, _, _, acc => acc
  | fuel + 1, k, term, acc => atanhSum z2 fuel (k + 1) (term * z2 / 2 ^ prec) (acc + term / (2 * k + 1))

/-- ln (a / b) in fixed point, for b ≤ a ≤ 2 b. -/
def lnFixed (a b : Nat) : Nat :=
  let z := (a - b) * 2 ^ prec / (a + b)
  2 * atanhSum (z * z / 2 ^ prec) 110 0 z 0

/-- ln 2 in fixed point. -/
def ln2 : Nat := lnFixed 2 1

/-- Σ of y^k / k! in fixed point. -/
def expSum (y : Nat) : Nat → Nat → Nat → Nat → Nat
  | 0, _, _, acc => acc
  | fuel + 1, k, term, acc => expSum y fuel (k + 1) (term * y / 2 ^ prec / (k + 1)) (acc + term)

/-- 2^f in fixed point for a fixed-point f below 1. -/
def exp2Frac (f : Nat) : Nat := expSum (f * ln2 / 2 ^ prec) 80 0 (2 ^ prec) 0

/-- 2^x (R245): exact for an integer, otherwise a number so close that it rounds as 2^x does. -/
def exp2Val (x : Val) : Val :=
  match x with
  | .nan => .nan
  | .inf s => if s then .num false 0 1 else .inf false
  | .num s n d =>
    if n / d ≥ 4096 then (if s then Val.scaled false 1 (-4096) else Val.scaled false 1 4096)
    else
      let i : Int := if s then -((n + d - 1) / d : Nat) else (n / d : Nat)
      let r := (Val.snum s n - i * d).toNat
      if r = 0 then Val.scaled false 1 i
      else Val.scaled false (2 * exp2Frac (r * 2 ^ prec / d) + 1) (i - prec - 1)

/-- log2 x (R245). -/
def log2Val (x : Val) : Val :=
  match x with
  | .nan => .nan
  | .inf s => if s then .nan else .inf false
  | .num s n d =>
    if n = 0 then .inf true
    else if s then .nan
    else
      let e := floorLog2 n d
      let q := overSpacing n d e
      if q.1 = q.2 then Val.ofInt e
      else
        let frac := lnFixed q.1 q.2 * 2 ^ prec / ln2
        let z : Int := e * 2 ^ (prec + 1) + (2 * frac + 1 : Nat)
        Val.scaled (decide (z < 0)) z.natAbs (-(prec + 1 : Nat))

/-- The integer square root, by bits from a power of four down. -/
def isqrtFrom (x : Nat) : Nat → Nat → Nat
  | 0, r => r
  | b + 1, r => let t := r + 2 ^ b; if t * t ≤ x then isqrtFrom x b t else isqrtFrom x b r

/-- floor(√x). -/
def isqrt (x : Nat) : Nat := isqrtFrom x (Nat.log2 x / 2 + 1) 0

/-- 1 / x (R245). -/
def rcpVal (x : Val) : Val :=
  match x with
  | .nan => .nan
  | .inf s => .num s 0 1
  | .num s n d => if n = 0 then .inf s else .num s d n

/-- 1 / √x (R245): √(d n) / n, exact when d n is a square. -/
def rsqVal (x : Val) : Val :=
  match x with
  | .nan => .nan
  | .inf s => if s then .nan else .num false 0 1
  | .num s n d =>
    if n = 0 then .inf s
    else if s then .nan
    else
      let r := isqrt (d * n)
      if r * r = d * n then .num false r n
      else .num false (2 * isqrt (d * n * 4 ^ 200) + 1) (n * 2 ^ 201)

/-! ### Online addition (R252) -/

/-- A digit string (R239): top, and its digits from the most significant. -/
structure DigitStr where
  top : Int
  ds : List Int
  deriving DecidableEq, Repr

/-- The digit of weight 2^k. -/
def DigitStr.at (a : DigitStr) (k : Int) : Int :=
  let i := a.top - 1 - k
  if i < 0 then 0 else a.ds.getD i.toNat 0

/-- sd_add (R252). -/
def sdAdd (a : DigitStr) (sa : Nat) (b : DigitStr) (sb : Nat) : DigitStr :=
  let a' : DigitStr := ⟨a.top + sa, a.ds⟩
  let b' : DigitStr := ⟨b.top + sb, b.ds⟩
  let t := max a'.top b'.top
  let lo := min (a'.top - a.ds.length) (b'.top - b.ds.length)
  let n := (t - lo).toNat
  let sums := (List.range n).map fun (i : Nat) => a'.at (t - 1 - (i : Int)) + b'.at (t - 1 - (i : Int))
  let hs := sums.map fun s => if 1 ≤ s then (1 : Int) else 0
  let gs := (0 : Int) :: (sums.zip hs).map fun (s, h) => s - 2 * h
  let zs := (gs.zip (hs ++ [0])).map fun (g, h) => g + h
  let cs := zs.map fun z => if z < 0 then (-1 : Int) else 0
  let ws := (zs.zip cs).map fun (z, c) => z - 2 * c
  ⟨t + 1, (ws.zip (cs.drop 1 ++ [0])).map fun (w, c) => w + c⟩

/-- The value of a digit string as a number of its last digit's weight. -/
def DigitStr.int (a : DigitStr) : Int := a.ds.foldl (fun x d => 2 * x + d) 0

/-! ### Random numbers (R254) -/

/-- The round constants of R254. -/
def rngKc : List (BitVec 32) :=
  [0x6A5D39E1, 0xB3C41F27, 0x58E2A6D3, 0xC71F4B85, 0x2D96E03B, 0x94705CA9, 0x1FB8C76D, 0xE34A2915, 0x7612D8F3, 0xAB056E4F]

/-- One round on (x0, x1, x2, x3), with the word rotation (R254). -/
def rngRound (k : BitVec 32) (x : BitVec 32 × BitVec 32 × BitVec 32 × BitVec 32) :
    BitVec 32 × BitVec 32 × BitVec 32 × BitVec 32 :=
  let x0 := x.1 + x.2.1 + k
  let x3 := (x.2.2.2 ^^^ x0).rotateLeft 13
  let x2 := x.2.2.1 + x3
  let x1 := (x.2.1 ^^^ x2).rotateLeft 7
  (x1, x2, x3, x0)

/-- The draw of R254 with key k and counter c: y_0 to y_3. -/
def draw (k : BitVec 64) (c : BitVec 128) : List (BitVec 32) :=
  let w := fun (i : Nat) => (c.extractLsb' (32 * i) 32 : BitVec 32)
  let x := (rngKc.zip (List.range 10)).foldl (fun x (kc, r) =>
    rngRound (kc + (if r % 2 = 0 then k.extractLsb' 0 32 else k.extractLsb' 32 32)) x) (w 0, w 1, w 2, w 3)
  [x.1 + w 0, x.2.1 + w 1, x.2.2.1 + w 2, x.2.2.2 + w 3]

/-- Rows of counts added. -/
def sumCounts (cs : List (List Nat)) : List Nat := cs.foldl addCounts noCount

/-- The exact value of an element's bits. -/
def valOf (t x : Nat) : Val := (decodeElem t x).getD .nan

end Sys2Proof.Machine
end

