-- ==== Sys2Proof/Machine/Fetch.lean ====
section
/-! DEFINITION. Fetching an instruction of the CP: the checks on the pc (R184, R265), the bytes, and whether the word is
the last of its region (R291); and whether a CP can execute at all. -/

namespace Sys2Proof.Machine

/-- What a fetch gives: a cause, or the word at pc, the word after it and whether it is the last one. -/
inductive Fetched where
  | fault (cause : BitVec 9)
  | word (w w2 : Word32) (tail : Bool)
  deriving DecidableEq, Repr

/-- The byte a fetch sees at a tile SRAM offset: what was there before a store of this CP that no FENCEI has followed
(R184, R337), else what tile SRAM holds. -/
def codeByte (s : State) (c off : Nat) : Byte :=
  match NMap.find (s.core c).codeOld off with
  | some b => b
  | none => memGet s.mem (winBase c + off)

/-- The word at a tile SRAM offset of a core, as a fetch sees it (R288). -/
def codeWord (s : State) (c pc : Nat) : Word32 :=
  BitVec.ofNat 32 (ofLe ((List.range 4).map fun i => codeByte s c (pc + i)))

/-- The word at pc is the last of its region, so that none is fetched after it (R291). -/
def lastWord (k : Core) : Bool := decide (k.pc + 4 = k.codeBase + k.codeSize) || decide (k.pc + 4 = tileSize)

/-- The bytes a fetch takes: two words where the first is of an X-format instruction that is not the last word of its region, else
one (R291). -/
def fetchBytes (s : State) (c : Nat) : Nat :=
  if majorOf (codeWord s c (s.core c).pc) = 0x3F ∧ lastWord (s.core c) = false then 8 else 4

/-- The fetch of a core's CP: CPM.13, then CPM.6, then ECC.4 for any word it takes, then the word (R184, R265, R274, R288, R291). -/
def fetch (s : State) (c : Nat) : Fetched :=
  let k := s.core c
  let pc := k.pc
  if pc % 4 ≠ 0 then .fault 0x02D
  else if pc < k.codeBase ∨ k.codeBase + k.codeSize < pc + 4 ∨ tileSize < pc + 4 then .fault 0x026
  else if eccBad s (winBase c + pc) 4 then .fault 0x164
  else if eccBad s (winBase c + pc) (fetchBytes s c) then .fault 0x164
  else .word (codeWord s c pc) (codeWord s c (pc + 4)) (lastWord k)

/-- A core's CP can execute: it runs, and no cut, freeze or halt holds it (R126, R170, R282). -/
def cpReady (s : State) (c : Nat) : Bool :=
  let k := s.core c
  decide (k.run = .running) && !k.cut

/-- The state with an instruction's bytes placed where the CP of the moving core fetches next, its code region covering
them, and nothing else due to move first. -/
def placeCp (s : State) (w : Nat) : State :=
  let c := s.turn
  let k := s.core c
  let pc := k.pc % 0x1FFFF8 / 4 * 4
  let pages := if pc % 4096 = 4092 then 2 else 1
  let a := winBase c + pc
  { (s.setCore c { k with
        pc := pc, run := .running, cut := false, codeOld := []
        codewin := BitVec.ofNat 64 (pages * 2 ^ 32 + pc / 4096 * 4096) }).write a (leBytes 8 w) with
    agenda := []
    ecc := { s.ecc with marks := s.ecc.marks.filter fun (x, _) => !(touchesWord a 8 x) } }

/-- The state with a block instruction as instruction 0 of the moving core's active plane, its element due to act. -/
def placeBlk (s : State) (w : Nat) : State :=
  let c := s.turn
  { (s.modCore c fun k => { k with
        cut := false
        grid := { k.grid with act := { k.grid.act with valid := true, words := [BitVec.ofNat 64 w] }, held := false } }) with
    agenda := [.elem c 0 false] }

end Sys2Proof.Machine
end

