-- ==== Sys2Proof/Machine/Ecc.lean ====
section
/-! DEFINITION. What an access does with the storage errors it meets: correctable ones are corrected and counted (R273),
uncorrectable ones halt the graph that owns the data, with their location (R274, R286). -/

namespace Sys2Proof.Machine

namespace State

/-- The lowest uncorrectable byte of the protected words that n bytes at a memory key touch (R272). -/
def ueAt (s : State) (a n : Nat) : Option Nat :=
  minOf ((s.ecc.marks.filter fun (x, ue) => ue && touchesWord a n x).map Prod.fst)

/-- The cause, unit, layer, place and owning core (none for HBM4) of an uncorrectable byte by its memory key
(R274, R286). -/
def ueLocation (x : Nat) : Nat × Nat × Nat × Nat × Option Nat :=
  if x < 2 ^ 39 then (0x163, 1, 12, x / 32 * 32, none)
  else if 0x200000000000 ≤ x then (0x161, 0, (x - 0x200000000000) / 0x100000, (x - 0x200000000000) % 0x100000, none)
  else
    let card := (x - 0x100000000000) / 2 ^ 32
    let idx := (x - 0x100000000000) % 2 ^ 32 / 2 ^ 24
    let off := x % 2 ^ 24
    let place := idx * 2 ^ 32 + off
    let who := some (card * 192 + idx)
    if off < 0x200000 then (0x161, 0, card, place, who)
    else if off < 0x300000 then (0x165, 2, card, place, who)
    else if off < 0x400000 then (0x167, 4, card, place, who)
    else if off < 0x500000 then (0x168, 5, card, place, who)
    else if off < 0x600000 then (0x169, 6, card, place, who)
    else if off < 0x700000 then (0x06E, 2, card, place, who)
    else (0x165, 2, card, place, who)

/-- The cause of an uncorrectable byte. -/
def ueCause (x : Nat) : Nat := (ueLocation x).1

/-- The graph that owns an uncorrectable byte halts with its location; the owner of HBM4 data is the graph of the core
that met it (R274). -/
def ueHalt (s : State) (c x : Nat) : State :=
  let l := ueLocation x
  s.haltLocation (s.core (l.2.2.2.2.getD c)).graph l.1 l.2.1 l.2.2.1 l.2.2.2.1

/-- The bank of a tile SRAM offset (R183). -/
def tileBank (off : Nat) : Nat := bitsOf off 10 6

/-- The number of the home a byte belongs to (R202, R273): pseudo-channel groups 0 to 63; then for each core its 32 tile SRAM
banks (R183) and one for the rest of its window. -/
def homeOf (x : Nat) : Nat :=
  if x < 2 ^ 39 then bitsOf x 14 12 + 8 * bitsOf x 17 15
  else 64 + (x - 0x100000000000) / 2 ^ 24 * 33 + (if x % 2 ^ 24 < tileSize then tileBank (x % 2 ^ 24) else 32)

/-- The sparse-update unit that serves a byte (R202): of HBM4 one for each pseudo-channel group, 0 to 63; then eight for each card,
2 × quad + (row ≥ 3) for its cores. -/
def unitOf (x : Nat) : Nat :=
  if x < 2 ^ 39 then homeOf x
  else
    let i := (x - 0x100000000000) % 2 ^ 32 / 2 ^ 24
    64 + (x - 0x100000000000) / 2 ^ 32 * 8 + 2 * (i / 48) + (if 24 ≤ i % 48 then 1 else 0)

/-- One correction at a byte: the home's saturating counter, management's count of ECC.0 or ECC.2, and ECC.13 at sixteen
corrections of one line within a second (R273). -/
def correctOne (s : State) (x : Nat) : State :=
  let s1 := s.countMgmt (if x < 2 ^ 39 then 0x162 else 0x160)
  let e := s1.ecc
  let recent := (NMap.getD [] e.lines (x / 64)).filter fun t => decide (s.time < t + nanos 1000000000)
  let times := s.time :: recent
  let hit := decide (16 ≤ times.length)
  let e1 := { e with
    homes := NMap.put e.homes (homeOf x) (min (NMap.getD 0 e.homes (homeOf x) + 1) 0xFFFFFFFF)
    lines := NMap.put e.lines (x / 64) (if hit then [] else times) }
  let s2 := { s1 with ecc := e1 }
  if hit then s2.tellMgmt { cause := 0x16D, detail := x } else s2

/-- The correctable errors of the protected words that n bytes at a memory key touch are corrected and written back (R272, R273). -/
def correct (s : State) (a n : Nat) : State :=
  let hit := fun (m : Nat × Bool) => !m.2 && touchesWord a n m.1
  let xs := (s.ecc.marks.filter hit).map Prod.fst
  let s1 := { s with ecc := { s.ecc with marks := s.ecc.marks.filter fun m => !(hit m) } }
  xs.foldl correctOne s1

end State

end Sys2Proof.Machine
end

