-- ==== Sys2Proof/Machine/SysRegs.lean ====
section
/-! DEFINITION. The system registers: what SRD returns for each, and what a write changes (R303 and the rule of each). -/

namespace Sys2Proof.Machine

namespace State

/-- sr.devid (R25). -/
def srDevid (s : State) : Word :=
  BitVec.ofNat 64 (0x4B59 * 2 ^ 48 + 0x12 * 2 ^ 40 + s.grade % 16 * 2 ^ 36 + Config.stepping % 16 * 2 ^ 32
    + (if s.grade = 1 then 0xFFF else 0x3FF) * 2 ^ 16 + s.links.pkg % 2 ^ 12)

/-- The island of a core (R29). -/
def islandOf (c : Nat) : Nat := 5 * (c / 192) + c % 192 / 48

/-- The total grant of an island over all graphs, in half watts (R36). -/
def islandGrant (s : State) (i : Nat) : Nat :=
  s.graphs.foldl (fun n hg => n + (hg.2.grant.islands.filter fun x => x.1 == i).foldl (fun n x => n + x.2) 0
    + (hg.2.grant.base.filter fun x => x.1 == i).foldl (fun n x => n + x.2) 0) 0

/-- The step of an island: that of the graphs admitted into it, none without one (R30). -/
def islandStep (s : State) (i : Nat) : Option Nat :=
  (s.graphs.find? fun hg => hg.2.grant.plim != 0 && hg.2.grant.islands.any fun x => x.1 == i).map fun hg => hg.2.grant.step

/-- The grant register's layout for an island, as sr.pgrant and PWRQ give it (R36, R386). -/
def grantWord (s : State) (i plim eclass : Nat) (valid : Bool) : Word :=
  let step := s.islandStep i
  BitVec.ofNat 64 (i % 64 * 2 ^ 48 + step.getD 0 % 4 * 2 ^ 40 + (if valid then 1 else 0) * 2 ^ 39 + plim % 16 * 2 ^ 32
    + s.islandGrant i % 2 ^ 16 * 2 ^ 16 + eclass % 16)

/-- sr.pgrant (R36). -/
def srPgrant (s : State) (c : Nat) : Word :=
  let k := s.core c
  match s.graph? k.graph with
  | none => s.grantWord (islandOf c) 0 k.eclass false
  | some g =>
    let valid := decide (g.grant.plim ≠ 0)
    s.grantWord (islandOf c) (if valid then g.grant.plim else 0) k.eclass valid

/-- The fused-asleep cards of the grade (R2, R58). -/
def fusedAsleep (s : State) : Nat := if s.grade = 1 then 0 else 0xC00

/-- sr.deckst (R58). -/
def srDeckst (s : State) : Word :=
  BitVec.ofNat 64 ((s.deck.asleep ||| s.fusedAsleep) % 2 ^ 12 * 2 ^ 48 + s.deck.waking % 2 ^ 12 * 2 ^ 32
    + s.deck.frame % 2 ^ 32)

/-- sr.dkwin (R53). -/
def srDkwin (s : State) (c : Nat) : Word :=
  match (s.ctxOf c).bind (NMap.find s.ctxs) with
  | none => 0
  | some x => BitVec.ofNat 64 (x.dksize % 512 * 2 ^ 16 + x.dkbase % 256)

/-- sr.hport (R81). -/
def srHport (s : State) : Word := BitVec.ofNat 64 (s.links.retrain % 2 ^ 24 * 2 ^ 24 + s.links.up % 2 ^ 24)

/-- sr.cfgst (R151). -/
def srCfgst (k : Core) : Word :=
  let g := k.grid
  BitVec.ofNat 64 (g.act.blockid % 2 ^ 16 * 2 ^ 48 + g.sh.blockid % 2 ^ 16 * 2 ^ 32 + (if g.sh.valid then 1 else 0) * 2 ^ 31
    + (if g.armed then 1 else 0) * 2 ^ 30 + g.lstate % 4 * 2 ^ 28 + g.lcause % 512)

/-- sr.ctx (R158). -/
def srCtx (s : State) (c : Nat) : Word :=
  let k := s.core c
  let x := s.ctxOf c
  let pri := match s.graph? k.graph with | none => 0 | some g => g.cls
  let sup := match s.graph? k.graph with | none => false | some g => g.supervisor
  let mp := match x.bind (NMap.find s.ctxs) with | none => 0 | some y => y.maxpri
  BitVec.ofNat 64 (k.graph % 2 ^ 32 * 2 ^ 32 + pri % 4 * 2 ^ 16 + mp % 4 * 2 ^ 10 + (if sup then 1 else 0) * 2 ^ 4
    + x.getD 0 % 16)

/-- sr.ctime (R180), in nanoseconds. -/
def srCtime (s : State) (c : Nat) : Word :=
  match (s.ctxOf c).bind (NMap.find s.ctxs) with
  | none => 0
  | some x => BitVec.ofNat 64 (x.ctime / 5)

/-- sr.qstat (R194): busy, done and faulted entries. -/
def srQstat (k : Core) : Word :=
  let bits := fun (p : QEntry → Bool) => (List.range 16).foldl (fun n q => if p (k.entry q) then n + 2 ^ q else n) 0
  BitVec.ofNat 64 (bits (fun e => e.busy && e.done && e.fault != 0) * 2 ^ 32 + bits (fun e => e.busy && e.done) * 2 ^ 16
    + bits (fun e => e.busy))

/-- sr.core (R304). -/
def srCore (c : Nat) : Word :=
  let i := c % 192
  BitVec.ofNat 64 (c / 192 * 2 ^ 16 + i * 2 ^ 8 + i / 48 * 2 ^ 6 + i % 48 / 8 * 2 ^ 3 + i % 8)

/-- The value of a system register of a core, by its number; an unassigned number reads zero (R189, R303). -/
def sysReg (s : State) (c n : Nat) : Word :=
  let k := s.core c
  if n = 0x700 then k.status
  else if n = 0x701 then k.cause
  else if n = 0x702 then k.epc
  else if n = 0x703 then k.tval
  else if n = 0x704 then k.vector
  else if n = 0x7C0 then k.actor
  else if n = 0x7C1 then k.phase
  else if n = 0x7C2 then k.codewin
  else if n = 0x7C3 then srQstat k
  else if n = 0x7C4 then srCore c
  else if 0x7D0 ≤ n ∧ n < 0x7D8 then (k.rng (n - 0x7D0)).key
  else if 0x7D8 ≤ n ∧ n < 0x7E0 then (k.rng (n - 0x7D8)).ctr.extractLsb' 0 64
  else if 0x7E0 ≤ n ∧ n < 0x7E8 then (k.rng (n - 0x7E0)).ctr.extractLsb' 64 64
  else if n = 0xF10 then s.srDevid
  else if n = 0xF11 then s.srPgrant c
  else if n = 0xF12 then s.srDeckst
  else if n = 0xF13 then s.srDkwin c
  else if n = 0xF14 then s.srHport
  else if n = 0xF15 then srCfgst k
  else if n = 0xF16 then s.srCtx c
  else if n = 0xF17 then s.srCtime c
  else 0

end State

/-- Whether a mode may read a system register (R303). -/
def srReadable (n : Nat) (md : Mode) : Bool :=
  if (0x700 ≤ n ∧ n ≤ 0x704) ∨ n = 0xF13 ∨ n = 0xF14 then decide (md ≠ .u) else true

/-- Whether some mode may write a system register (R303). -/
def srWritableAtAll (n : Nat) : Bool :=
  decide (0x700 ≤ n ∧ n ≤ 0x704) || decide (n = 0x7C2) || decide (0x7D0 ≤ n ∧ n ≤ 0x7E7)

/-- Whether a mode may write a system register that some mode may write (R303). -/
def srWritable (n : Nat) (md : Mode) : Bool :=
  if 0x700 ≤ n ∧ n ≤ 0x704 then decide (md ≠ .u) else if n = 0x7C2 then decide (md = .m) else true

/-- The rank of a mode, U below S below M (R13). -/
def Mode.rank : Mode → Nat
  | .u => 0 | .s => 1 | .m => 2

/-- The mode a PMODE code names (R268). -/
def modeOfCode (n : Nat) : Mode := if n = 1 then .s else if n = 3 then .m else .u

/-- A write to a system register applied under the access codes of its fields (R8, R9, R253, R268, R184): reserved bits
stay zero, read-only fields stay as they are, a write of PMODE 0b10 leaves PMODE as it is. -/
def Core.writeSysReg (k : Core) (n : Nat) (v : Word) : Core :=
  if n = 0x700 then
    let pm := if fld v 3 2 = 2 then fld k.status 3 2 else fld v 3 2
    { k with status := BitVec.ofNat 64 (fld v 7 7 * 128 + pm * 4 + fld k.status 1 0) }
  else if n = 0x701 then { k with cause := v &&& 0x80000000000001FF#64 }
  else if n = 0x702 then { k with epc := v &&& ~~~3#64 }
  else if n = 0x703 then { k with tval := v }
  else if n = 0x704 then { k with vector := v &&& 0x1FFFF1#64 }
  else if n = 0x7C2 then { k with codewin := v &&& 0x3FF001FF000#64 }
  else if 0x7D0 ≤ n ∧ n < 0x7D8 then
    { k with rngs := NMap.put k.rngs (n - 0x7D0) { k.rng (n - 0x7D0) with key := v } }
  else if 0x7D8 ≤ n ∧ n < 0x7E0 then
    let r := k.rng (n - 0x7D8)
    { k with rngs := NMap.put k.rngs (n - 0x7D8) { r with ctr := (r.ctr.extractLsb' 64 64 : BitVec 64) ++ v } }
  else if 0x7E0 ≤ n ∧ n < 0x7E8 then
    let r := k.rng (n - 0x7E0)
    { k with rngs := NMap.put k.rngs (n - 0x7E0) { r with ctr := v ++ (r.ctr.extractLsb' 0 64 : BitVec 64) } }
  else k

end Sys2Proof.Machine
end

