-- ==== Sys2Proof/Machine/Access.lean ====
section
/-! DEFINITION. The local map, what each sub-window permits, translation, and performing an access at its home
(R187 to R204, R207 to R228). -/

namespace Sys2Proof.Machine

/-- The sub-windows of a core's window (R189). -/
inductive Sub where
  | tile | cpreg | stat | acc | meld | desc | seq
  deriving DecidableEq, Repr

/-- What a local address lies in (R188). -/
inductive Region where
  | hbm
  | core (c : Nat) (sub : Sub)
  | replica
  | hole
  deriving DecidableEq, Repr

/-- The sub-window of an offset in a core's window, if any (R189). -/
def subOf (off : Nat) : Option Sub :=
  if off < 0x200000 then some .tile
  else if off < 0x210000 then some .cpreg
  else if off < 0x300000 then none
  else if off < 0x310000 then some .stat
  else if off < 0x400000 then none
  else if off < 0x420000 then some .acc
  else if off < 0x500000 then none
  else if off < 0x520000 then some .meld
  else if off < 0x600000 then none
  else if off < 0x601000 then some .desc
  else if off < 0x700000 then none
  else if off < 0x720000 then some .seq
  else none

/-- A card of the package is live, not asleep by fuse (R2, R188). -/
def State.cardLive (s : State) (card : Nat) : Bool := decide (card < (if s.grade = 1 then 12 else 10))

/-- The region of a local address (R188). -/
def regionOf (s : State) (pa : Nat) : Region :=
  if pa < 2 ^ 39 then .hbm
  else if 0x1F0000000000 ≤ pa ∧ pa < 0x1F0000100000 then .replica
  else if 0x100000000000 ≤ pa ∧ pa < 0x100000000000 + 12 * 2 ^ 32 then
    let card := (pa - 0x100000000000) / 2 ^ 32
    let idx := (pa - 0x100000000000) % 2 ^ 32 / 2 ^ 24
    if 192 ≤ idx ∨ !(s.cardLive card) then .hole
    else match subOf (pa % 2 ^ 24) with
      | some sub => .core (card * 192 + idx) sub
      | none => .hole
  else .hole

/-- What an access does at its home. -/
structure Acc where
  /-- It reads. -/
  ld : Bool
  /-- It writes. -/
  st : Bool
  /-- It is an atomic. -/
  atomic : Bool
  bytes : Nat
  mode : Mode
  /-- The element of an AADDF is a double, or it is no AADDF. -/
  fwide : Bool := false
  /-- The scope it is annotated with, if any. -/
  ann : Option Scope := none
  deriving DecidableEq, Repr

/-- Sub-windows that a mode may not touch at all (R189): CPM.3. -/
def subForbidden (sub : Sub) (md : Mode) : Bool :=
  match sub, md with
  | .cpreg, .u => true
  | .meld, .u => true
  | _, _ => false

/-- Sub-windows, at an offset, that a mode may only read (R189): CPM.2. -/
def subReadOnly (sub : Sub) (off : Nat) (md : Mode) : Bool :=
  match sub, md with
  | .stat, _ => decide (off % 512 < 256)
  | .cpreg, .s => true
  | .meld, .s => true
  | .desc, .u => true
  | .desc, .s => true
  | .seq, .u => true
  | .seq, .s => true
  | _, _ => false

/-- The rank of a scope in the nesting of R14. -/
def scopeRank : Scope → Nat
  | .core => 0 | .card => 1 | .deck => 2 | .dom => 3

/-- The scope instance of a home seen from a core (R208): of a domain address. -/
def scopeInstance (s : State) (c pa : Nat) : Scope :=
  if pa / 2 ^ 45 ≠ s.links.pkg then .dom
  else match regionOf s (pa % 2 ^ 45) with
    | .core c' _ => if c' = c then .core else if c' / 192 = c / 192 then .card else .deck
    | _ => .deck

/-- The accumulator banks that uncompleted matrix commands of a core write (R190, R439). -/
def banksBusy (k : Core) (n : Nat) : Nat :=
  (k.matrix.queue.filter fun x => match x.op with
    | .mxmm b _ => b == n
    | .clr b => b == n
    | .outs b => b == n && bitAt x.y 13
    | .outp b => b == n && bitAt x.y 13
    | _ => false).length

/-- A meld node of a core belongs to a loaded graph (R190, R448). -/
def nodeHeld (k : Core) (n : Nat) : Bool := k.meld.graphs.any fun (_, g) => g.nodes.contains n

/-- The bytes [off, off + n) of the deck window lie in the range of the core's context, or the mode is M (R53, R54). -/
def deckRangeOk (s : State) (c : Nat) (md : Mode) (off n : Nat) : Bool :=
  decide (md = .m) || match (s.ctxOf c).bind (NMap.find s.ctxs) with
    | none => false
    | some x => decide (x.dkbase * 4096 ≤ off ∧ off + n ≤ (x.dkbase + x.dksize) * 4096)

/-- Some element of a core whose stationary registers n bytes at a window offset touch is fused off, or some meld node
(R190). -/
def touchesFused (c : Nat) (sub : Sub) (off n : Nat) : Bool :=
  match sub with
  | .stat => (List.range ((off - 0x300000 + n - 1) / 512 + 1)).any fun e => decide ((off - 0x300000) / 512 ≤ e) && Config.fusedElem c e
  | .meld => (List.range (n / 8 + 2)).any fun i =>
      let x := (off - 0x500000) / 8 + i
      decide (8 * x < off - 0x500000 + n) && Config.fusedNode c x
  | _ => false

/-- Some meld node that n bytes at a window offset touch belongs to a loaded graph (R190). -/
def touchesHeld (k : Core) (off n : Nat) : Bool :=
  (List.range (n / 8 + 2)).any fun i =>
    let x := (off - 0x500000) / 8 + i
    decide (8 * x < off - 0x500000 + n) && nodeHeld k x

/-- An access of a mode to a sub-window stores where it may only read (R189): CPM.2. -/
def touchesReadOnly (a : Acc) (sub : Sub) (off : Nat) : Bool :=
  a.st && (subReadOnly sub off a.mode || (sub = .stat && (subReadOnly sub (off + a.bytes - 1) a.mode || decide (256 < a.bytes))))

/-- The first fault of an access at a local address, in the order of R193 and then of R227, or none; c is the issuing
core. -/
def homeFault (s : State) (c : Nat) (a : Acc) (pa : Nat) : Option Nat :=
  let r := regionOf s pa
  let r2 := regionOf s (pa + a.bytes - 1)
  let off := pa % 2 ^ 24
  let aligned := decide (pa % a.bytes = 0)
  let instOk := match a.ann with
    | none => true
    | some sc => decide (scopeRank (scopeInstance s c (s.links.pkg * 2 ^ 45 + pa)) ≤ scopeRank sc)
  let atm1 := if instOk then none else some 0x041
  match r with
  | .hole => if r2 ≠ .hole then some 0x024 else some 0x025
  | .hbm =>
    if r2 ≠ r then some 0x024
    else if !instOk then atm1
    else if a.atomic && a.fwide then some 0x042 else none
  | .replica =>
    if r2 ≠ r then some 0x024
    else if a.st && !a.atomic then some 0x028
    else if a.ld && !a.atomic && !(deckRangeOk s c a.mode (pa - 0x1F0000000000) a.bytes) then some 0x102
    else if !instOk then atm1
    else if a.atomic && a.fwide then some 0x042
    else if a.atomic then some 0x04D else none
  | .core c' sub =>
    let k := s.core c'
    let guard := decide (a.mode ≠ .m) && decide (s.ctxOf c' ≠ s.ctxOf c)
    if r2 ≠ r then some 0x024
    else if c' / 192 ≠ c / 192 then some 0x029
    else if guard then some 0x143
    else if subForbidden sub a.mode then some 0x023
    else if touchesReadOnly a sub off then some 0x022
    else if touchesFused c' sub off a.bytes then some 0x02A
    else if sub = .acc && a.st && decide (banksBusy k ((off - 0x400000) / 0x8000) ≠ 0) then some 0x02B
    else if sub = .meld && a.st && touchesHeld k off a.bytes then some 0x02C
    else if sub = .cpreg && (decide (a.bytes ≠ 8) || !aligned) then some 0x02E
    else if sub = .acc && (!(a.bytes == 4 || a.bytes == 8) || !aligned) then some 0x02E
    else if sub = .cpreg && a.st && decide (k.run ≠ .halted ∧ k.run ≠ .idle) then some 0x02F
    else if a.atomic && (sub = .cpreg || sub = .desc || sub = .seq) then some 0x040
    else if !instOk then atm1
    else if a.atomic && a.fwide then some 0x042
    else if a.atomic && sub = .tile && k.inWindow off a.bytes then some 0x045
    else if a.atomic && sub = .tile && k.inCode off a.bytes then some 0x046
    else if a.atomic && sub = .acc then some 0x04B
    else if a.atomic && (sub = .stat || sub = .meld) then some 0x04C
    else none

/-- The rank of a fault in the order in which one access reports several (R193, then R227). -/
def faultRank (f : Nat) : Nat :=
  if f / 16 = 3 then f % 16
  else if f = 0x024 then 16
  else if f = 0x025 then 17
  else if f = 0x029 then 18
  else if f = 0x028 then 19
  else if f = 0x143 then 20
  else if f = 0x023 then 21
  else if f = 0x022 then 22
  else if f / 16 = 2 then 23 + f % 16
  else if f = 0x102 then 39
  else 40 + f

/-- The fault that an access reports of those its parts meet (R193). -/
def leastFault (fs : List (Option Nat)) : Option Nat :=
  (fs.filterMap id).foldl (fun (b : Option Nat) f => match b with
    | none => some f
    | some g => if faultRank f < faultRank g then some f else some g) none

/-- The checks of R67 for n bytes at a remote address: LINK.0, LINK.3, LINK.1, LINK.2. -/
def remoteFault (s : State) (pa n : Nat) : Option Nat :=
  let pkg := pa / 2 ^ 45
  if 3072 ≤ pkg then some 0x110
  else if !s.links.pkgSet then some 0x113
  else if !(s.links.routes.contains pkg) then some 0x111
  else if 2 ^ 39 < pa % 2 ^ 45 + n then some 0x112
  else none

/-- An address of the domain is local to this package (R66). -/
def isLocal (s : State) (pa : Nat) : Bool := decide (pa / 2 ^ 45 = s.links.pkg)

/-- The checks of an M-mode address at issue (R193, R205, R332 step 4): CPM.5, CPM.9, CPM.8 for a store, CPM.2, CPM.10, CPM.14,
or those of R67 for a remote address. -/
def issueFaultM (s : State) (c : Nat) (a : Acc) (pa : Nat) : Option Nat :=
  if isLocal s pa then
    let p := pa % 2 ^ 45
    match regionOf s p with
    | .hole => some 0x025
    | .hbm => none
    | .replica => if a.st && !a.atomic then some 0x028 else none
    | .core c' sub =>
      let off := p % 2 ^ 24
      if c' / 192 ≠ c / 192 then some 0x029
      else if touchesReadOnly a sub off then some 0x022
      else if touchesFused c' sub off a.bytes then some 0x02A
      else if sub = .cpreg && (decide (a.bytes ≠ 8) || decide (p % a.bytes ≠ 0)) then some 0x02E
      else if sub = .acc && (!(a.bytes == 4 || a.bytes == 8) || decide (p % a.bytes ≠ 0)) then some 0x02E
      else none
  else remoteFault s pa a.bytes

/-! ### The bytes behind a local address -/

/-- A double of a window descriptor (R128). -/
def descDouble (d : WinDesc) (i : Nat) : Word :=
  if i = 0 then d.d0 else if i = 1 then d.d1 else if i = 2 then d.wr else if i = 3 then d.rd else if i = 4 then d.d4 else 0

/-- A double of a window descriptor replaced; DRAIN and the reserved bits are read-only (R128, R9). -/
def setDescDouble (d : WinDesc) (i : Nat) (v : Word) : WinDesc :=
  if i = 0 then { d with d0 := v &&& 0xE01FFFFF001FFFFF#64 }
  else if i = 1 then { d with d1 := v &&& 0xC00FFFFFFFFF1FFF#64 }
  else if i = 2 then { d with wr := v }
  else if i = 3 then { d with rd := v }
  else if i = 4 then { d with d4 := (d.d4 &&& 0x8000000000000000#64) ||| (v &&& 0xFFFF#64) }
  else d

/-- The slots of the CP-register sub-window (R189): gn, then the system registers. -/
def cpSlot (s : State) (c off : Nat) : Word :=
  if off < 0x100 then (s.core c).reg (BitVec.ofNat 5 (off / 8))
  else if 0x1000 ≤ off ∧ off < 0x9000 then s.sysReg c ((off - 0x1000) / 8)
  else 0

/-- The bytes of the sequencer region that loads see: its reserved offsets read zero (R119). They take in the actor table's entries of
actors 4 to 7, which the sequencer uses all the same (log entry 98, DESIGN CHOICE). -/
def seqReserved (off : Nat) : Bool :=
  decide (0x200 ≤ off ∧ off < 0x1000) || decide (0x1400 ≤ off ∧ off < 0x2000) || decide (0x12000 ≤ off)

/-- What a store leaves of a byte of the sequencer region: a firing-table entry holds nothing in bits [22:0] (R9, R120). -/
def seqMask (off : Nat) (b : Byte) : Byte :=
  if 0x1000 ≤ off ∧ off < 0x1400 then (if off % 4 = 3 then b else if off % 4 = 2 then b &&& 0x80#8 else 0) else b

/-- One byte of a core's window. -/
def winByte (s : State) (c : Nat) (sub : Sub) (off : Nat) : Byte :=
  match sub with
  | .cpreg =>
    let o := off - 0x200000
    ((cpSlot s c (o / 8 * 8)).toNat / 256 ^ (o % 8)) |> BitVec.ofNat 8
  | .desc =>
    let o := off - 0x600000
    ((descDouble ((s.core c).desc (o / 64)) (o % 64 / 8)).toNat / 256 ^ (o % 8)) |> BitVec.ofNat 8
  | .acc =>
    let o := off - 0x400000
    let bank := NMap.getD ({} : Bank) (s.core c).matrix.banks (o / 0x8000)
    if bank.mode ≠ 2 ∧ 4 ≤ o % 16 then 0 else memGet s.mem (winBase c + off)
  | .seq => if seqReserved (off - 0x700000) then 0 else memGet s.mem (winBase c + off)
  | _ => memGet s.mem (winBase c + off)

/-- n bytes at a local address of one region, as a core of the given card sees them. -/
def localRead (s : State) (card pa n : Nat) : List Byte :=
  match regionOf s pa with
  | .hbm => s.read pa n
  | .replica => s.read (replicaBase card + (pa - 0x1F0000000000)) n
  | .core c sub => (List.range n).map fun i => winByte s c sub (pa % 2 ^ 24 + i)
  | .hole => List.replicate n 0

/-- A store to the CP registers of a halted core (R189, R344): the register's own write rule applies; a store of the
sr.epc slot restarts a CP halted in M mode at that address. -/
def cpStore (s : State) (c off : Nat) (v : Word) : State :=
  if off < 0x100 then s.modCore c fun k => k.setReg (BitVec.ofNat 5 (off / 8)) v
  else if 0x1000 ≤ off ∧ off < 0x9000 then
    let n := (off - 0x1000) / 8
    let s1 := s.modCore c fun k =>
      if n = 0x7C2 ∧ 512 < fld v 20 12 + fld v 41 32 then k else k.writeSysReg n v
    if n = 0x702 ∧ (s.core c).run = .halted ∧ (s.core c).mode = .m then
      s1.modCore c fun k => { k with
        run := .running, pc := (v &&& ~~~3#64).toNat }
    else s1
  else s

/-- One byte stored in a core's window. -/
def winPut (s : State) (c : Nat) (sub : Sub) (off : Nat) (b : Byte) : State :=
  match sub with
  | .cpreg => s
  | .desc =>
    let o := off - 0x600000
    s.modCore c fun k =>
      let d := k.desc (o / 64)
      let v := setBits (descDouble d (o % 64 / 8)).toNat (8 * (o % 8) + 7) (8 * (o % 8)) b.toNat
      { k with descs := NMap.put k.descs (o / 64) (setDescDouble d (o % 64 / 8) (BitVec.ofNat 64 v)) }
  | .acc =>
    let o := off - 0x400000
    let bank := NMap.getD ({} : Bank) (s.core c).matrix.banks (o / 0x8000)
    if bank.mode ≠ 2 ∧ 4 ≤ o % 16 then s else s.write (winBase c + off) [b]
  | .seq => if seqReserved (off - 0x700000) then s else s.write (winBase c + off) [seqMask (off - 0x700000) b]
  | _ => s.write (winBase c + off) [b]

/-- Bytes stored in a core's window, from an offset upwards. -/
def winWrite (s : State) (c : Nat) (sub : Sub) (off : Nat) : List Byte → State
  | [] => s
  | b :: bs => winWrite (winPut s c sub off b) c sub (off + 1) bs

/-- Bytes stored at a local address of one region; the replica takes no store (R52). A store to the loading stationary
vector of an element with a SWAP mark in flight at it goes into the active vector, which becomes the loading one (R190):
the caller gives the address it goes to. -/
def localWrite (s : State) (pa : Nat) (bs : List Byte) : State :=
  match regionOf s pa with
  | .hbm => s.write pa bs
  | .core c .cpreg => cpStore s c (pa % 2 ^ 24 - 0x200000) (BitVec.ofNat 64 (ofLe bs))
  | .core c sub => winWrite s c sub (pa % 2 ^ 24) bs
  | _ => s

/-! ### Translation (R195 to R201) -/

/-- What translating a virtual address gives: an address, an address in a parked page of 2^sh bytes (R203), a fault. -/
inductive Xlat where
  | ok (pa : Nat)
  | parked (pa sh : Nat)
  | fault (cause : Nat)
  deriving DecidableEq, Repr

/-- The permission faults of a valid entry or a parked leaf, in ascending subcode (R198). -/
def permFault (rd wr usr : Bool) (ld st : Bool) (md : Mode) : Option Nat :=
  if ld && !rd then some 0x031 else if st && !wr then some 0x032 else if decide (md = .u) && !usr then some 0x033 else none

/-- One double of a page table in local HBM4. -/
def pte (s : State) (a : Nat) : Nat := ofLe (s.read a 8)

/-- A page-table entry's format (R197): L and S64 by level, reserved bits, low PFN bits of a larger leaf, the home of a
parked leaf. -/
def pteBad (e level : Nat) (parked : Bool) : Bool :=
  let l := e.testBit 62
  let s64 := e.testBit 61
  (decide (level = 1) && l) || (decide (level = 4) && !l) || (s64 && decide (level ≠ 4))
    || decide (bitsOf e 11 0 ≠ 0)
    || (l && decide (level = 2) && decide (bitsOf e 29 12 ≠ 0))
    || (l && decide (level = 3) && decide (bitsOf e 20 12 ≠ 0))
    || (parked && decide (2 ^ 39 ≤ bitsOf e 44 12 * 4096))

/-- The sixteen entries of a 64 KiB group that can be read agree with one of them (R197). -/
def s64Ok (s : State) (group e0 : Nat) : Bool :=
  (List.range 16).all fun i =>
    let e := pte s (group + 8 * i)
    eccBad s (group + 8 * i) 8
      || decide (bitsOf e 63 58 = bitsOf e0 63 58 ∧ bitsOf e 56 16 = bitsOf e0 56 16 ∧ bitsOf e 15 12 = i)

/-- The first fault of a leaf, valid or parked, read at an address of a table of a level (R193, R197, R198): XLT.1 to XLT.3, XLT.5,
XLT.6, XLT.7. -/
def leafFault (s : State) (a e level : Nat) (parked ld st : Bool) (md : Mode) : Option Nat :=
  match permFault (e.testBit 60) (e.testBit 59) (e.testBit 58) ld st md with
  | some f => some f
  | none =>
    if pteBad e level parked then some 0x035
    else if e.testBit 61 && !(s64Ok s (a / 128 * 128) e) then some 0x036
    else if e.testBit 61 && eccBad s (a / 128 * 128) 128 then some 0x037
    else none

/-- The four-level walk from a table at a level (R197, R198). Each entry of a parked 64 KiB group names the home of its own 4 KiB
page (R203, log entry 92). -/
def walk (s : State) (va : Nat) (ld st : Bool) (md : Mode) : Nat → Nat → Xlat
  | 0, _ => .fault 0x030
  | fuel + 1, table =>
    let level := 4 - fuel
    let shift := 12 + 9 * fuel
    let a := table + 8 * (va / 2 ^ shift % 512)
    let e := pte s a
    if eccBad s a 8 then .fault 0x037
    else
      let at0 := bitsOf e 56 12 * 4096 / 2 ^ shift * 2 ^ shift + va % 2 ^ shift
      if e.testBit 63 then
        if e.testBit 62 then
          match leafFault s a e level false ld st md with
          | some f => .fault f
          | none => .ok at0
        else if pteBad e level false then .fault 0x035
        else walk s va ld st md fuel (bitsOf e 44 12 * 4096)
      else if e.testBit 57 && (e.testBit 62 || decide (level = 4)) then
        match leafFault s a e level true ld st md with
        | some f => .fault f
        | none => .parked at0 shift
      else .fault 0x030

/-- PAGE translation: range entries first, the lowest-numbered covering one deciding, then the page table (R195, R196). -/
def translate (s : State) (x : Nat) (va : Nat) (ld st : Bool) (md : Mode) : Xlat :=
  match NMap.find s.ctxs x with
  | none => .fault 0x030
  | some k =>
    let page := va / 4096
    let covers := fun (r : Nat × List Word) =>
      match r.2 with
      | [d0, d1, _, _] => bitAt d0 63 && decide (fld d0 47 12 ≤ page ∧ page ≤ fld d1 47 12)
      | _ => false
    match k.ranges.find? covers with
    | some (_, [d0, _, d2, _]) =>
      match permFault (bitAt d0 62) (bitAt d0 61) (bitAt d0 60) ld st md with
      | some f => .fault f
      | none => .ok (fld d2 56 12 * 4096 + va - fld d0 47 12 * 4096)
    | _ => walk s va ld st md 4 k.ptroot

/-- The translation of a virtual page by what is held, or by the tables. -/
def translateHeld (hs : List Held) (s : State) (x va : Nat) (ld st : Bool) (md : Mode) : Xlat :=
  match hs.find? fun h => h.page == va / 4096 && h.ctx == x && h.ld == ld && h.st == st && h.mode == md with
  | some h => .ok (h.pa + va % 4096)
  | none => translate s x va ld st md

/-- What a translation leaves to be held, the newest first: the address of a page. -/
def holdPage (n : Nat) (hs : List Held) (x va : Nat) (ld st : Bool) (md : Mode) (r : Xlat) : List Held :=
  match r with
  | .ok pa =>
    let h : Held := { ctx := x, page := va / 4096, ld := ld, st := st, mode := md, pa := pa - va % 4096 }
    (h :: hs.filter fun y => y != h).take n
  | _ => hs

/-- What translating an access of n bytes that may lie on two pages gives (R198): the first page's outcome, or the fault of
either, the lower page's first; the address of the first byte of the second page, 0 without one; the addresses, each with the
size of its page, at whose homes the access parks. -/
structure Span where
  out : Xlat
  pa2 : Nat := 0
  parks : List (Nat × Nat) := []
  deriving DecidableEq, Repr

/-- The address of an outcome. -/
def Xlat.addr : Xlat → Nat
  | .ok pa => pa
  | .parked pa _ => pa
  | .fault _ => 0

/-- The addresses an outcome parks at. -/
def Xlat.parks : Xlat → List (Nat × Nat)
  | .parked pa sh => [(pa, sh)]
  | _ => []

/-- The outcomes of an access's first page and, if it has one, its second. -/
def Span.of (first : Xlat) (second : Option Xlat) : Span :=
  match first, second with
  | .fault f, _ => { out := .fault f }
  | _, some (.fault f) => { out := .fault f }
  | r, none => { out := r, parks := r.parks }
  | r, some q =>
    let ps := r.parks ++ q.parks
    { out := if ps = [] then .ok r.addr else .parked r.addr 12, pa2 := q.addr, parks := ps }

/-- The first address of the page after that of an address. -/
def nextPage (va : Nat) : Nat := (va / 4096 + 1) * 4096

/-- The translation of an access of n bytes, page by page (R198), with what its hardware holds (R199). -/
def translateSpan (hs : List Held) (s : State) (x va n : Nat) (ld st : Bool) (md : Mode) : Span :=
  Span.of (translateHeld hs s x va ld st md)
    (if va + n ≤ nextPage va then none else some (translateHeld hs s x (nextPage va) ld st md))

/-- What is held once an access has been translated (R199). -/
def holdSpan (k : Nat) (hs : List Held) (x va n : Nat) (ld st : Bool) (md : Mode) (r : Span) : List Held :=
  let first := if r.parks = [] then holdPage k hs x va ld st md r.out else hs
  if va + n ≤ nextPage va ∨ r.parks ≠ [] then first
  else match r.out with
    | .ok _ => holdPage k first x (nextPage va) ld st md (.ok r.pa2)
    | _ => first

/-- A read of a double of a row table at a domain address, as a stream of a core reads it: the double, or its fault (R191, R193,
R201, R274). A row table in another package gives no valid entry (log entry 68, DESIGN CHOICE). -/
def rowRead (s : State) (c : Nat) (md : Mode) (pa : Nat) : Except Nat Nat :=
  if !(isLocal s pa) then .error ((remoteFault s pa 8).getD 0x03A)
  else
    let lp := pa % 2 ^ 45
    match homeFault s c { ld := true, st := false, atomic := false, bytes := 8, mode := md } lp with
    | some f => .error f
    | none =>
      let key := match regionOf s lp with | .replica => replicaBase (c / 192) + (lp - 0x1F0000000000) | _ => lp
      if eccBad s key 8 then .error (if lp < 2 ^ 39 then 0x163 else 0x161) else .ok (ofLe (localRead s (c / 192) lp 8))

/-- Reads row entry r of a window through PAGE translation (R201, step 2). -/
def rowEntry (s : State) (x c : Nat) (md : Mode) (d1 : Word) (r : Nat) : Except Xlat Nat :=
  match translate s x (fld d1 47 3 * 8 + 8 * r) true false md with
  | .ok pa => match rowRead s c md pa with
    | .ok e => .ok e
    | .error f => .error (.fault f)
  | q => .error q

/-- Row entry r as a stream sees it: the one read at its last row crossing, or read now (R201). -/
def rowHeld (held : Option (Nat × Nat)) (s : State) (x c : Nat) (md : Mode) (d1 : Word) (r : Nat) : Except Xlat Nat :=
  match held with
  | some (r', e) => if r' = r then .ok e else rowEntry s x c md d1 r
  | none => rowEntry s x c md d1 r

/-- A row entry that may be used (R201). -/
def rowOk (e rsz : Nat) : Bool := e.testBit 63 && bitsOf e 62 48 == 0 && bitsOf e 47 0 % 2 ^ rsz == 0

/-- REMAP translation of a core's stream through window w (R201): the window, the row entry (held is the one read at the last row
crossing, with its row), the row. The faults of the class XLT come in ascending subcode (R193). -/
def translateRemap (hs : List Held) (held : Option (Nat × Nat)) (s : State) (x c w va : Nat) (ld st : Bool) (md : Mode) : Xlat :=
  match (NMap.find s.ctxs x).bind fun k => NMap.find k.remaps w with
  | some [d0, d1] =>
    let rsz := fld d0 55 52 + 6
    let vbase := fld d0 47 0
    let r := (va - vbase) / 2 ^ rsz
    let perm := if st && !(bitAt d0 62) then some 0x032 else if decide (md = .u) && !(bitAt d0 61) then some 0x033 else none
    let out : Xlat :=
      if !(bitAt d0 63) || decide (va < vbase) || decide (4096 ≤ r) then .fault 0x039
      else
        match rowHeld held s x c md d1 r with
        | .error q => q
        | .ok e =>
          if !(rowOk e rsz) then .fault 0x03A else translateHeld hs s x (bitsOf e 47 0 + (va - vbase) % 2 ^ rsz) ld st md
    match perm, out with
    | some p, .fault f => .fault (if 0x030 ≤ f ∧ f < p then f else p)
    | some p, _ => .fault p
    | none, q => q
  | _ => .fault 0x039

/-- The row of a window at an address, the entry a stream has for it, and the address in the row (R201). -/
def remapRow (held : Option (Nat × Nat)) (s : State) (x c w va : Nat) (md : Mode) : Option (Nat × Nat × Nat) :=
  match (NMap.find s.ctxs x).bind fun k => NMap.find k.remaps w with
  | some [d0, d1] =>
    let rsz := fld d0 55 52 + 6
    let r := (va - fld d0 47 0) / 2 ^ rsz
    match rowHeld held s x c md d1 r with
    | .ok e => some (r, e, bitsOf e 47 0 + (va - fld d0 47 0) % 2 ^ rsz)
    | .error _ => none
  | _ => none

end Sys2Proof.Machine
end

