-- ==== Sys2Proof/Machine/Operands.lean ====
section
/-! DEFINITION. The operand forms of the CP: register operands, immediates, direct addresses with their checks, tile SRAM
operands of engine commands with theirs, and the condition that holds an access after an acquire
(R185, R186, R289, R290, R329, R338, R347). -/

namespace Sys2Proof.Machine

/-- Where a direct address leads (R185). -/
inductive Direct where
  | tile (off : Nat)
  | replica (off : Nat)
  deriving DecidableEq, Repr

/-- The range of R185 that holds a direct address, if any. -/
def directRange (ea : Nat) : Option Direct :=
  if ea < tileSize then some (.tile ea)
  else if 0x1F0000000000 ≤ ea ∧ ea < 0x1F0000100000 then some (.replica (ea - 0x1F0000000000))
  else none

/-- The last byte of an access lies in the range that holds its first (R186). -/
def directEndOk (d : Direct) (n : Nat) : Bool :=
  match d with
  | .tile o => decide (o + n ≤ tileSize)
  | .replica o => decide (o + n ≤ 0x100000)

/-- The address of a base register and an offset (R329). -/
def effAddr (x : Word) (off : Word) : Nat := (x + off).toNat

/-- The checks of a direct load of n bytes in their order (R329, R330, R54): CPM.0, CPM.1 where alignment is required,
CPM.4, DECK.2. -/
def loadFault (s : State) (ea n : Nat) (aligned : Bool) : Option Nat :=
  match directRange ea with
  | none => some 0x020
  | some d =>
    if aligned && decide (ea % n ≠ 0) then some 0x021
    else if !(directEndOk d n) then some 0x024
    else match d with
      | .tile _ => none
      | .replica o => if deckRangeOk s s.turn s.cur.mode o n then none else some 0x102

/-- The checks of a direct store of n bytes in their order (R329, R330): CPM.0, CPM.1 where alignment is required, CPM.4,
CPM.8, CPM.7. -/
def storeFault (s : State) (ea n : Nat) (aligned : Bool) : Option Nat :=
  match directRange ea with
  | none => some 0x020
  | some d =>
    if aligned && decide (ea % n ≠ 0) then some 0x021
    else if !(directEndOk d n) then some 0x024
    else match d with
      | .replica _ => some 0x028
      | .tile o => if decide (s.cur.mode = .u) && s.cur.inCode o n then some 0x027 else none

/-- The address checks of a tile SRAM operand of an engine command: CPM.0, CPM.1 for the alignment, CPM.4 (R347). The
operand must lie in the core's own tile SRAM. -/
def operandFault (x n align : Nat) : Option Nat :=
  if tileSize ≤ x then some 0x020
  else if decide (x % align ≠ 0) then some 0x021
  else if tileSize < x + n then some 0x024
  else none

/-- After a queued access annotated .acq or .ar, the next access or engine command waits until that access is performed
(R338); a completed entry, faulted or not, no longer holds it. -/
def acquireHeld (k : Core) : Bool :=
  k.entries.any fun (_, e) =>
    e.busy && !e.done && !e.performed && (decide (e.ann = .acq) || decide (e.ann = .ar))

/-- An access or engine command of the CP, held after an acquire (R338). -/
def afterAcquire (s : State) (f : State → Result) : Result :=
  if acquireHeld s.cur then .next s.wait else f s

/-- A command in a mode its page permits, or CPX.0 (R305, R348). -/
def privileged (ok : Mode → Bool) (s : State) (f : State → Result) : Result :=
  if ok s.cur.mode then f s else .next (s.trap 0x010 0)

/-- S or M mode (R305). -/
def supervisorOnly (md : Mode) : Bool := decide (md ≠ .u)

/-- The first of a list of checks that fails traps with its cause and value; otherwise the command goes on (R347). -/
def checks (cs : List (Option Nat)) (tval : Nat) (s : State) (f : State → Result) : Result :=
  match cs.findSome? id with
  | some cause => .next (s.trap cause tval)
  | none => f s

/-- A check: a cause when the condition holds. -/
def failIf (b : Bool) (cause : Nat) : Option Nat := if b then some cause else none

/-- The width of a code in bytes (R292). -/
def widthBytes : Width → Nat
  | .byte => 1 | .half => 2 | .word => 4 | .double => 8

/-- The width of an atomic in bytes (R294). -/
def awidthBytes : AWidth → Nat
  | .word => 4 | .double => 8

end Sys2Proof.Machine
end

