-- ==== Sys2Proof/Machine/StrDesc.lean ====
section
/-! DEFINITION. The fields of a stream descriptor (R357) and the sequence of memory addresses of a stream (R359). -/

namespace Sys2Proof.Machine

namespace StrCmd

/-- A double of the descriptor. -/
def dbl (m : StrCmd) (i : Nat) : Word := m.desc.getD i 0
/-- ADDR. -/
def addr (m : StrCmd) : Nat := (m.dbl 0).toNat
/-- LKIND. -/
def lkind (m : StrCmd) : Nat := fld (m.dbl 1) 63 62
/-- PORT. -/
def port (m : StrCmd) : Nat := fld (m.dbl 1) 61 59
/-- TCODE. -/
def tcode (m : StrCmd) : Nat := fld (m.dbl 1) 52 48
/-- LOFF. -/
def loff (m : StrCmd) : Nat := fld (m.dbl 1) 20 0
/-- BYTES. -/
def bytes (m : StrCmd) : Nat := fld (m.dbl 2) 63 32
/-- CHV. -/
def chv (m : StrCmd) : Bool := bitAt (m.dbl 2) 31
/-- CHAIN. -/
def chainNo (m : StrCmd) : Nat := fld (m.dbl 2) 30 28
/-- PLANES. -/
def planes (m : StrCmd) : Nat := fld (m.dbl 2) 20 16
/-- EOS. -/
def eos (m : StrCmd) : Bool := bitAt (m.dbl 2) 3
/-- EOT. -/
def eot (m : StrCmd) : Bool := bitAt (m.dbl 2) 2
/-- FOLLOW. -/
def follow (m : StrCmd) : Bool := bitAt (m.dbl 2) 1
/-- ORDERED. -/
def ordered (m : StrCmd) : Bool := bitAt (m.dbl 2) 0
/-- FWORD. -/
def fword (m : StrCmd) : Word32 := BitVec.ofNat 32 (fld (m.dbl 3) 31 0)
/-- FRS1. -/
def frs1 (m : StrCmd) : Word := m.dbl 4
/-- FRS2. -/
def frs2 (m : StrCmd) : Word := m.dbl 5
/-- DADDR. -/
def daddr (m : StrCmd) : Nat := (m.dbl 6).toNat

end StrCmd

/-- The size of a chain in bytes (R361). -/
def Chain.size (h : Chain) : Nat := h.dims.foldl (fun n d => n * d.1) h.run

/-- The sum of the index times stride terms of a run number, dimension 0 fastest (R359). -/
def chainOffset : List (Nat × Int) → Nat → Int
  | [], _ => 0
  | (n, st) :: ds, r => (r % max n 1 : Nat) * st + chainOffset ds (r / max n 1)

/-- The memory-side address of byte p of a stream from its base (R359), modulo 2^64. -/
def streamAddr (h : Option Chain) (base p : Nat) : Nat :=
  match h with
  | none => (base + p) % 2 ^ 64
  | some h => wrapN 64 (base + chainOffset h.dims (p / max h.run 1) + (p % max h.run 1 : Nat))

/-- The bytes of the burst at byte p of a stream of n: to the end of its run, of its 4 KiB page, of the stream (R359). -/
def burstLen (h : Option Chain) (base p n : Nat) : Nat :=
  let a := streamAddr h base p
  let page := 4096 - a % 4096
  let run := match h with | none => n - p | some h => max h.run 1 - p % max h.run 1
  min (min page run) (n - p)

/-- Translation of a stream's address by its setting at issue (R187, R195, R362), with the translations and the row entry that its
node holds (R199, R201). -/
def streamXlatHeld (hs : List Held) (row : Option (Nat × Nat)) (s : State) (c : Nat) (xmode xwin : Nat) (md : Mode) (va : Nat)
    (ld st : Bool) : Xlat :=
  if decide (md = .m) || xmode == 2 then (if 2 ^ 57 ≤ va then .fault 0x025 else .ok va)
  else if 2 ^ 48 ≤ va then .fault 0x03D
  else match s.ctxOf c with
    | none => .fault 0x030
    | some x =>
      if xmode = 1 then translateRemap hs row s x c xwin va ld st md else translateHeld hs s x va ld st md

/-- What is held of a node's translations each way once it has reached a page: one (R199). -/
def holdWay (hs : List Held) (s : State) (x va : Nat) (ld st : Bool) (md : Mode) : List Held :=
  holdPage 2 (hs.filter fun h => h.st != st) x va ld st md (translateHeld hs s x va ld st md)

/-- What an engine's nodes hold once its stream has reached an address (R199, R201): one page each way, one row entry each way. -/
def Engine.holds (x : Engine) (s : State) (c : Nat) (xmode xwin : Nat) (md : Mode) (va : Nat) (ld st : Bool) : Engine :=
  let way := if st then 1 else 0
  let keep := fun (ctx va : Nat) => holdWay x.held s ctx va ld st md
  if decide (md = .m) || xmode == 2 then x
  else match s.ctxOf c with
    | none => x
    | some ctx =>
      if xmode = 1 then
        match remapRow (NMap.find x.rows way) s ctx c xwin va md with
        | some (r, e, a) => { x with held := keep ctx a, rows := NMap.put x.rows way (r, e) }
        | none => x
      else { x with held := keep ctx va }

/-- Translation of an address with nothing held. -/
def streamXlat (s : State) (c : Nat) (xmode xwin : Nat) (md : Mode) (va : Nat) (ld st : Bool) : Xlat :=
  streamXlatHeld [] none s c xmode xwin md va ld st

end Sys2Proof.Machine
end

