-- ==== Sys2Proof/Machine/Order.lean ====
section
/-! DEFINITION. Which accesses a fence or a release waits for (R208, R211 to R214, R217, R221 to R223). -/

namespace Sys2Proof.Machine

/-- A home known to lie in a scope instance is within a scope; an address not yet translated counts as within every
scope. -/
def within (sc : Scope) : Option Scope → Bool
  | none => true
  | some x => decide (scopeRank x ≤ scopeRank sc)

/-- The bytes of an entry lie on two pages. -/
def crosses (e : QEntry) : Bool := decide (e.mode ≠ .m) && decide (4096 < e.addr % 4096 + e.bytes)

/-- A queue entry's home lies within a scope; a completed fault of a store-type entry lies within every scope (R213). -/
def entryWithin (s : State) (c : Nat) (sc : Scope) (e : QEntry) : Bool :=
  let reachesWithin := fun pa => within sc (some (scopeInstance s c pa)) || (crosses e && within sc (some (scopeInstance s c e.pa2)))
  match e.op with
  | .access _ =>
    (e.storeType && e.done && e.fault != 0)
      || (match e.dest with
          | .none => true
          | .phys pa => reachesWithin pa
          | .parked pa => reachesWithin pa)
  | .deckAdd => within sc (some .deck)
  | .deckCas => within sc (some .deck)
  | _ => false

/-- An entry that reads memory and has not completed. -/
def busyRead (e : QEntry) : Bool :=
  e.busy && !e.done && match e.op with
    | .access .stq => false
    | .access _ => true
    | _ => false

/-- An entry issued before a point, to a home within a scope, that has not completed: visible for a store, data arrived
for a load. -/
def entriesPending (s : State) (c : Nat) (sc : Scope) (before : Nat) (loads : Bool) : Bool :=
  (s.core c).entries.any fun (_, e) =>
    e.busy && !e.done && decide (e.seq < before) && (loads || e.storeType) && entryWithin s c sc e

/-- Some burst of a stream from byte p on meets a condition on its address; under REMAP every piece of 64 bytes counts as one, so
that no row is passed over. -/
def burstsAny (f : Nat → Bool) (rows : Bool) (h : Option Chain) (base n : Nat) : Nat → Nat → Bool
  | 0, _ => false
  | fuel + 1, p =>
    if n ≤ p then false
    else
      let a := streamAddr h base p
      let b := burstLen h base p n
      f a || burstsAny f rows h base n fuel (p + if rows then min b (64 - a % 64) else b)

/-- A stream command still has a write to make to a home within a scope, an address not translated counting as within (R208). -/
def streamWrites (s : State) (c : Nat) (sc : Scope) (m : StrCmd) : Bool :=
  if m.kind = 0 then decide (m.pos < m.bytes)
  else
    let scpy := decide (m.kind = 2)
    let mode := if scpy then m.xmode2 else m.xmode
    let win := if scpy then m.xwin2 else m.xwin
    let meets := fun a => within sc (match streamXlat s c mode win m.mode a false true with
      | .ok pa => some (scopeInstance s c pa)
      | _ => none)
    burstsAny meets (mode == 1) (if scpy then none else m.chain) (if scpy then m.daddr else m.addr) m.bytes (m.bytes - m.pos) m.pos

/-- A stream command that writes memory: a write or copy stream, or a read stream into tile SRAM. -/
def streamIsWrite (m : StrCmd) : Bool :=
  match m.kind with
  | 0 => decide (m.lkind ≠ 0)
  | 1 => true
  | 2 => true
  | _ => false

/-- A matrix command that writes tile SRAM. -/
def mxIsWrite (m : MxCmd) : Bool :=
  match m.op with
  | .outs _ => true
  | .sort _ _ => true
  | _ => false

/-- An engine write issued before a point to a home within a scope has not reached visible. -/
def enginesPending (s : State) (c : Nat) (sc : Scope) (before : Nat) : Bool :=
  let k := s.core c
  (k.engines.any fun (_, e) => e.queue.any fun m =>
      streamIsWrite m && !m.visible && decide (m.iseq < before) && streamWrites s c sc m)
    || k.matrix.queue.any (fun m => mxIsWrite m && decide (m.iseq < before))
    || k.meld.queue.any (fun m => match m with | .run _ _ _ i _ => decide (i < before) | _ => false)
    || (k.appends.any fun (_, a) => a.queue.any fun w =>
          decide (w.seq < before) && within sc
            (match streamXlat s c 0 0 w.mode w.addr false true with
             | .ok pa => some (scopeInstance s c pa)
             | _ => none))
    || (decide (2 ≤ scopeRank sc) && (k.deckq.any (fun d => decide (d.seq < before)) || decide (k.deckOut ≠ 0)))

/-- A deck-window operation that the card's interface has accepted waits behind what was issued at a point: neither a freeze nor a cut
recalls it, and what it waits for goes on (R57, R170, R282, log entry 80). -/
def deckBehind (k : Core) (before : Nat) : Bool :=
  (decide (k.run = .frozen) || (k.cut && decide (k.run ≠ .graphHalted))) && k.deckq.any fun d => decide (before < d.seq)

/-- A release at a scope, issued at a point, has earlier stores or engine writes to wait for, or, where it says so,
earlier loads. -/
def releaseHeld (s : State) (c : Nat) (sc : Scope) (before : Nat) (loads : Bool) : Bool :=
  entriesPending s c sc before loads || enginesPending s c sc before

/-- A read of the core's own tile SRAM issued before a point is not done: a queued load or atomic, an engine's read of its source,
a matrix or meld command (R218). -/
def readsHeld (s : State) (c : Nat) (before : Nat) : Bool :=
  let k := s.core c
  (k.entries.any fun (_, e) =>
      busyRead e && decide (e.seq < before) && entryWithin s c .core e)
    || (k.engines.any fun (_, e) => e.queue.any fun m => decide (m.kind ≠ 3) && !m.released && decide (m.iseq < before))
    || k.matrix.queue.any (fun m => decide (m.iseq < before))
    || k.meld.queue.any (fun m => match m with | .run _ _ _ i _ => decide (i < before) | _ => false)

/-- The lowest entry issued before a point that completed with a fault and is not freed, of those a test accepts. -/
def faultedEntry (k : Core) (before : Nat) (p : QEntry → Bool) : Option Nat :=
  (List.range 16).find? fun q =>
    let e := k.entry q
    e.busy && e.done && e.fault != 0 && decide (e.seq < before) && p e

/-- The lowest store-type entry issued before a point that completed with a fault and is not freed (R213). -/
def faultedStore (k : Core) (before : Nat) : Option Nat := faultedEntry k before QEntry.storeType

/-- The lowest of the entries that an STL at a scope covers, store-type or from a home within the scope, that completed with a fault
and is not freed (R330). -/
def faultedWithin (s : State) (c : Nat) (sc : Scope) (before : Nat) : Option Nat :=
  faultedEntry (s.core c) before fun e => e.storeType || entryWithin s c sc e

end Sys2Proof.Machine
end

