-- ==== Sys2Proof/Machine/Actors.lean ====
section
/-! DEFINITION. The sequencer region as the machine reads it (R119, R120), ports and their monitors (R123, R124), and
sending tokens and drain tokens on output ports (R130, R136, R472). -/

namespace Sys2Proof.Machine

/-! ### The sequencer region (R119, R120) -/

/-- n bytes of a core's sequencer region, as a number. -/
def seqRd (s : State) (c off n : Nat) : Nat := ofLe (s.read (winBase c + 0x700000 + off) n)

/-- The segment double of a rate set. -/
def segDouble (s : State) (c set : Nat) : Nat := seqRd s c (8 * set) 8
/-- A rate set has entries on a core. -/
def segPresent (s : State) (c set : Nat) : Bool := (segDouble s c set).testBit 63
/-- The first entry of a rate set's segment. -/
def segFirst (s : State) (c set : Nat) : Nat := bitsOf (segDouble s c set) 15 8
/-- The entry count of a rate set's segment. -/
def segCount (s : State) (c set : Nat) : Nat := if segPresent s c set then bitsOf (segDouble s c set) 7 0 + 1 else 0
/-- The firing-routine address of an actor. -/
def actorRoutine (s : State) (c a : Nat) : Nat := seqRd s c (0x100 + 64 * a) 8
/-- The phase count of an actor. -/
def actorPhases (s : State) (c a : Nat) : Nat := seqRd s c (0x108 + 64 * a) 8
/-- The descriptor index of a port of an actor; 0xFF for none. -/
def portIndex (s : State) (c a p : Nat) : Nat := seqRd s c (0x110 + 64 * a + p) 1
/-- A firing-table entry. -/
def firingEntry (s : State) (c i : Nat) : Word32 := BitVec.ofNat 32 (seqRd s c (0x1000 + 4 * (i % 256)) 4)
/-- n(p, k) of an actor in a rate set (R115). -/
def rateOf (s : State) (c a set p k : Nat) : Nat := seqRd s c (0x2000 + 2 * (((a * 8 + set) * 16 + p) * 32 + k)) 2

/-- n(p, k) of the firing in progress on a core. -/
def curRate (s : State) (c k : Nat) : Nat :=
  let x := s.core c
  rateOf s c x.actorNo x.rset x.phaseNo k

/-- The state with a port's descriptor index written (R364, R365). -/
def setPortIndex (s : State) (c a p i : Nat) : State := s.write (winBase c + 0x700000 + 0x110 + 64 * a + p) (leBytes 1 i)

/-- The valid window descriptor of a port of an actor, by its index. -/
def portDesc (s : State) (c a p : Nat) : Option Nat :=
  let i := portIndex s c a p
  if i < 64 && ((s.core c).desc i).valid then some i else none

/-- The port record of an actor of a core, by the image of its graph. -/
def portRecOf (s : State) (c a p : Nat) : Option (Nat × PortRec) :=
  let k := s.core c
  match s.graph? k.graph with
  | none => none
  | some g =>
    match (coreActors g.img k.lcore).find? fun x => x.2.lact == a with
    | none => none
    | some (i, _) => actorPort g.img i p

/-- The arc record of a port, for a notice's CHAN (R160). -/
def arcOf (s : State) (c a p : Nat) : Nat :=
  match portRecOf s c a p with
  | none => 0xFFFFFFFF
  | some (_, r) => if r.arc = 0xFFFF then 0xFFFFFFFF else r.arc

/-- The actors of a core, by its actor table: those with a phase count. -/
def actorsOf (s : State) (c : Nat) : List Nat := (List.range 8).filter fun a => actorPhases s c a != 0

/-- The actor record of the actor a core fires or last fired. -/
def curActorRec (s : State) (c : Nat) : Option ActorRec :=
  let k := s.core c
  match s.graph? k.graph with
  | none => none
  | some g => ((coreActors g.img k.lcore).find? fun x => x.2.lact == k.actorNo).map Prod.snd

/-- The cores of a gang, its leader first: those of the rectangle of a core's actor; the core alone without one (R440). -/
def gangCores (s : State) (c : Nat) : List Nat :=
  match curActorRec s c, s.graph? (s.core c).graph with
  | some r, some g => (actorCores r).filterMap fun l => (g.cores.find? fun x => x.1 == l).map Prod.snd
  | _, _ => [c]

/-! ### Chains of output descriptors (R472) -/

/-- The descriptors of a port's chain from a first index. -/
def chainFrom (k : Core) : Nat → Nat → List Nat
  | 0, _ => []
  | fuel + 1, i =>
    let d := k.desc i
    if d.valid then i :: (if d.mnxv then chainFrom k fuel d.mnext else []) else []

/-- The output descriptors of a port. -/
def portChain (s : State) (c a p : Nat) : List Nat :=
  match portDesc s c a p with
  | none => []
  | some i => chainFrom (s.core c) 64 i

/-! ### Gangs (R127, R143, R466) -/

/-- A gang member's share of a port: members, its own number, its count a firing; one member takes all. -/
structure Share where
  size : Nat := 1
  member : Nat := 0
  part : Nat := 1
  deriving DecidableEq, Repr

/-- The arc ordinal of a member's j-th token. -/
def Share.global (x : Share) (j : Nat) : Nat := j / x.part * (x.part * x.size) + x.member * x.part + j % x.part
/-- Token w of an arc is this member's. -/
def Share.mine (x : Share) (w : Nat) : Bool := w / x.part % x.size == x.member
/-- The place of token w among this member's. -/
def Share.place (x : Share) (w : Nat) : Nat := w / (x.part * x.size) * x.part + w % x.part

/-- The record of an actor of a core. -/
def actorRecAt (s : State) (c a : Nat) : Option ActorRec :=
  match s.graph? (s.core c).graph with
  | none => none
  | some g => ((coreActors g.img (s.core c).lcore).find? fun x => x.2.lact == a).map Prod.snd

/-- The share of a port that a core's actor has: its rate table holds the member's count (R127). -/
def shareOf (s : State) (c a p : Nat) : Share :=
  match actorRecAt s c a with
  | none => {}
  | some r =>
    let cs := actorCores r
    if cs.length ≤ 1 then {}
    else { size := cs.length, member := cs.findIdx fun l => l == (s.core c).lcore, part := max (rateOf s c a 0 0 p) 1 }

/-- The cores of the gang of an actor of a core; the core alone without one. -/
def matesOf (s : State) (c a : Nat) : List Nat :=
  match actorRecAt s c a, s.graph? (s.core c).graph with
  | some r, some g => (actorCores r).filterMap fun l => (g.cores.find? fun x => x.1 == l).map Prod.snd
  | _, _ => [c]

/-- The actor and port that a window descriptor of a core serves. -/
def portOfDesc (s : State) (c i : Nat) : Nat × Nat :=
  match (List.range 256).find? fun n => (portChain s c (n / 32) (n % 32)).contains i with
  | some n => (n / 32, n % 32)
  | none => (0, 0xFFFF)

/-- The share of the port that a descriptor of a core serves. -/
def shareAt (s : State) (c i : Nat) : Share :=
  let x := portOfDesc s c i
  if x.2 = 0xFFFF then {} else shareOf s c x.1 x.2

/-- The ante tokens of the arc into an input window. -/
def arcAnte (s : State) (c i : Nat) : Nat :=
  let x := portOfDesc s c i
  match portRecOf s c x.1 x.2, s.graph? (s.core c).graph with
  | some (_, r), some g => if r.arc = 0xFFFF then ((s.core c).desc i).ante else (arcRec g.img r.arc).ante
  | _, _ => ((s.core c).desc i).ante

/-- The core that a card-mesh descriptor names. -/
def peerCore (c : Nat) (d : WinDesc) : Nat := c / 192 * 192 + d.pcore

/-- The window place of the t-th next token of an output port on one of its descriptors, none where another member of the
consumer's gang takes it (R466). -/
def outPlace (s : State) (c a p i t : Nat) : Option Nat :=
  let k := s.core c
  let d := k.desc i
  let x := shareOf s c a p
  if d.pkind = 0 then
    let c' := peerCore c d
    let y := shareAt s c' d.pdesc
    if x.size = 1 ∧ y.size = 1 then some (d.wr.toNat + t)
    else
      let w := arcAnte s c' d.pdesc + x.global ((k.port a p).ord + t)
      if y.mine w then some (y.place w) else none
  else if x.size = 1 then some (d.wr.toNat + t)
  else some (d.ante + x.global ((k.port a p).ord + t))

/-! ### Notices that name a port (R160, R473) -/

/-- A port fault of a core's actor halts its graph (R263). -/
def portHalt (s : State) (c a p cause ord : Nat) : State := s.haltToken c cause p (arcOf s c a p) ord

/-! ### Sending (R130, R136) -/

/-- The key of a stream of a context: contexts number their streams apart (R45). -/
def ctxStream (x n : Nat) : Nat := x * 0x10000 + n % 0x10000

/-- The key of a stream as a core names it. -/
def streamKey (s : State) (c n : Nat) : Nat := ctxStream ((s.ctxOf c).getD 0) n

/-- A message leaves through one output descriptor: to a core as a pointer write on its way, to a deck stream (PKIND 1 or
3, R28) or a Herlo channel as a token that waits for its slot or credit. -/
def sendOn (s : State) (c i : Nat) (m : PtrMsg) : State :=
  let d := (s.core c).desc i
  let n := streamKey s c d.stream
  match d.pkind with
  | 0 => s.modCore c fun k => { k with outMsgs := k.outMsgs ++ [m] }
  | 2 =>
    let ch := NMap.getD {} s.links.channels d.stream
    { s with links := { s.links with
        channels := NMap.put s.links.channels d.stream { ch with core := c, desc := i, sent := ch.sent ++ [m] } } }
  | _ =>
    let st : DeckStream := NMap.getD {} s.streams n
    let tokens := insertBy (fun (x y : PtrMsg) => decide (x.wrptr < y.wrptr)) m st.tokens
    let st1 := { st with graph := (s.core c).graph, mem := false, core := c, desc := i, tokens := tokens }
    { s with streams := NMap.put s.streams n st1 }

/-- The next token of a port leaves through one of its output descriptors: WRPTR there covers its place, the bytes and marks
are on their way (R130). -/
def sendOne (bytes : List Byte) (marks : List Word) (c a p : Nat) (s : State) (i : Nat) : State :=
  match outPlace s c a p i 0 with
  | none => s
  | some n =>
  let d := (s.core c).desc i
  let w : Word := BitVec.ofNat 64 (n + 1)
  let s1 := s.modCore c fun k => { k with descs := NMap.put k.descs i { d with wr := w } }
  sendOn s1 c i { desc := i, wrptr := w.toNat, bytes := bytes, marks := marks, drain := false, seq := (s.core c).issueSeq }

/-- A drain token leaves through one output descriptor (R136). -/
def drainOne (c : Nat) (s : State) (i : Nat) : State :=
  let d := (s.core c).desc i
  let s1 := s.modCore c fun k => { k with descs := NMap.put k.descs i d.setDrain }
  sendOn s1 c i { desc := i, wrptr := d.wr.toNat, bytes := [], marks := [], drain := true, seq := (s.core c).issueSeq }

/-- The port ordinal and the count in the firing of a port advance by one (R123). -/
def countToken (s : State) (c a p : Nat) : State :=
  s.modCore c fun k =>
    let x := k.port a p
    k.setPort a p { x with ord := (x.ord + 1) % 2 ^ 48, cnt := x.cnt + 1 }

/-- The core holds the breakpoint of R281 that a port's next token would take. -/
def portBreak (k : Core) (a p : Nat) : Option Break :=
  k.breaks.find? fun b => !b.elem && b.sub == a && b.link == p && b.ordinal == (k.port a p).ord

/-- A token breakpoint is reached at a link of an arc (R281, R283): it disarms; outside a cut DBG.0 is sent and a cut starts at
this core, during one DBG.6 is sent and the core stops here, its token held until the release. -/
def hitBreak (s : State) (c : Nat) (b : Break) (port chan : Nat) : State :=
  let h := (s.core c).graph
  let s1 := s.modCore c fun k => { k with breaks := k.breaks.filter fun x => x != b }
  let cutting := match s1.graph? h with | none => false | some g => g.cutSince.isSome
  let n : Notice :=
    { cause := if cutting then 0x176 else 0x170, core := coreName c, port := port, chan := chan, detail := b.ordinal }
  (s1.notifyGraph h n).startCut h c

/-- A rate trap of a port (R124, R125, R126): sr.tval names the port and an ordinal, and the graph halts in every mode, the
notice naming the port. -/
def rateTrap (s : State) (c cause p ord : Nat) : State :=
  let k := s.core c
  let tval := p % 32 * 2 ^ 48 + ord % 2 ^ 48
  let s1 := if k.mode = .u then s.setCore c { State.recordTrap k cause tval k.pc with run := .trapped }
    else s.trapAt c cause tval k.pc
  portHalt s1 c k.actorNo p cause ord

/-- The trap of a rate monitor that holds a token (R124): every part of the firing stops. -/
def monitorTrap (s : State) (c cause p ord : Nat) : State :=
  let s1 := s.modCore c fun k =>
    { (k.setPort k.actorNo p { k.port k.actorNo p with hold := some ord }) with grid := { k.grid with held := true } }
  rateTrap s1 c cause p ord

/-- A token produced at an output port of the actor in its firing: RATE.13 after the port's drain token, the monitor's
hold beyond n(p, k), otherwise the send on every arc (R124, R136, R472). -/
def produce (s : State) (c p : Nat) (bytes : List Byte) (marks : List Word) : State :=
  let k := s.core c
  let a := k.actorNo
  let x := k.port a p
  if x.drained then portHalt s c a p 0x05D x.ord
  else if curRate s c p ≤ x.cnt then monitorTrap s c 0x050 p x.ord
  else countToken ((portChain s c a p).foldl (sendOne bytes marks c a p) s) c a p

/-- An actor sends its drain token on an output port, once. -/
def sendDrain (s : State) (c a p : Nat) : State :=
  let s1 := s.modCore c fun k => k.setPort a p { k.port a p with drained := true }
  (portChain s c a p).foldl (drainOne c) s1

/-! ### Conversion between unlike channels (R114, R246) -/

/-- A type has a numeric value (R246). -/
def isNumeric (t : Nat) : Bool := decide (t ≤ 0x1C)

/-- A conversion between two unlike channel types exists (R246). -/
def convExists (t u : Nat) : Bool :=
  t == u || (isNumeric t && isNumeric u) || (t == 0x1E && isNumeric u) || (isNumeric t && u == 0x1E)

/-- The number of elements that n bytes of a type hold (R231). -/
def elemsOf (t n : Nat) : Nat := tokenElems t n

/-- A block-scaled token holds a block whose scale is NaN (R237). -/
def nanScaled (t : Nat) (bs : List Byte) : Bool :=
  isBlock t && ((chunks (unitBytes t) (bs.length / unitBytes t) bs).any fun u => (decodeScale t (ofLe (u.take 1))).isNan)

/-- A type without NaN: the integers, TERN2, BIN1, E3M2, E2M3, E2M1, BS4, SD16, XW128 and BOOL (R233 to R241). -/
def lacksNan (t : Nat) : Bool :=
  isInteger t || t == 0x0A || t == 0x0B || t == 0x11 || t == 0x12 || t == 0x13 || t == 0x1A || t == 0x1B || t == 0x1C || t == 0x1E

/-- A saturated count of a tile raises the notice FMT.14 (R260): of a graph, at a core, with a detail. -/
def statNotice (s : State) (h core detail : Nat) (sat : Bool) : State :=
  if sat then s.notifyGraph h { cause := 0x0FE, core := core, detail := detail } else s

/-- A token converted to another type under RNE (R246) with what the conversion counts (R259), or the FMT fault of an element that
cannot be read, FMT.12 when a NaN-scaled block has no NaN to become (R261). -/
def convert (t u : Nat) (bs : List Byte) : Except Nat (List Byte × List Nat) :=
  if t = u then .ok (bs, noCount)
  else match decodeToken t bs with
    | .error f => .error f
    | .ok vs =>
      if nanScaled t bs && lacksNan u then .error 0x0FC
      else .ok (encodeToken u 0 [] vs)

/-- The counts of a router conversion after a token, whose marks may end the tile (R259): a conversion has no statistics link, and its
counts are discarded there. -/
def tokenCounts (old cs : List Nat) (marks : List Word) : List Nat × Bool :=
  let r := joinCounts old cs
  if marks.any fun w => fld w 63 60 == 2 then ([], r.2) else r

end Sys2Proof.Machine
end

