-- ==== Sys2Proof/Machine/Block.lean ====
section
/-! DEFINITION. The fields of block instructions as the machine uses them (R307, R308), what a plane holds, and which RNG
streams a configuration binds (R256). -/

namespace Sys2Proof.Machine

/-- OPCODE of a block word (R307). -/
def wOp (w : Word) : Nat := fld w 63 54
/-- TCODE of a block word. -/
def wTcode (w : Word) : Nat := fld w 53 49
/-- MOD of a block word. -/
def wMod (w : Word) : Nat := fld w 24 0
/-- Target t of a block word: valid, consumer index, slot, buffer slots. -/
def wTarget (w : Word) (t : Nat) : Bool × Nat × Nat × Nat :=
  if t = 0 then (bitAt w 39, fld w 48 42, fld w 41 40, fld w 38 37)
  else (bitAt w 27, fld w 36 30, fld w 29 28, fld w 26 25)

/-- The opcodes with the modifier layout of R308, and RSUM (R407): their field RM 4 draws from stream SRS. -/
def opRounds (op : Nat) : Bool :=
  decide (0x040 ≤ op ∧ op ≤ 0x049) || decide (0x080 ≤ op ∧ op ≤ 0x087) || decide (0x0C0 ≤ op ∧ op ≤ 0x0C3)
    || decide (0x100 ≤ op ∧ op ≤ 0x103) || decide (0x140 ≤ op ∧ op ≤ 0x145)

/-- The RNG stream a block instruction draws from (R256, R308, R407, R422 to R424). -/
def drawer (w : Word) : Option Nat :=
  let op := wOp w
  if (opRounds op || op == 0x180) && fld w 24 22 == 4 then some (fld w 21 19)
  else if op == 0x381 || op == 0x382 || op == 0x383 then some (fld w 21 19)
  else none

/-- The active configuration of a core binds an RNG stream (R256). -/
def rngBound (k : Core) (n : Nat) : Bool := k.grid.act.valid && k.grid.act.words.any fun w => drawer w == some n

/-- The key of an instruction's element state, by plane. -/
def elemKey (shadow : Bool) (k : Nat) : Nat := (if shadow then 128 else 0) + k

/-- The key of the link into a slot of an instruction, by plane. -/
def linkKey (shadow : Bool) (k slot : Nat) : Nat := elemKey shadow k * 4 + slot

/-- The KIND of a CTL token (R393). -/
def ctlKind (w : Word) : Nat := fld w 63 60

/-- The instruction of a plane that an element holds (R390). -/
def instrAt (p : Plane) (e : Nat) : Option Nat := (List.range p.words.length).find? fun k => p.place.getD k 0xFF == e

/-- A SWAP mark is in flight at an element of a core: in a buffer or the input of a link into it, in either plane (R190). -/
def swapInFlight (k : Core) (e : Nat) : Bool :=
  let marks := fun (sh : Bool) (p : Plane) => match instrAt p e with
    | none => false
    | some i => (List.range 4).any fun slot =>
        (NMap.getD [] k.grid.links (linkKey sh i slot)).any fun x =>
          match x with
          | .ctl w => ctlKind w == 5
          | .data _ => false
  marks false k.grid.act || marks true k.grid.sh

end Sys2Proof.Machine
end

