-- ==== Sys2Proof/Machine/Place.lean ====
section
/-! DEFINITION. Where the Dealer places the instructions of a block on the grid of a core (R146, R389, R390). -/

namespace Sys2Proof.Machine

/-- An opcode of a controller (R419). -/
def isCtlOp (op : Nat) : Bool := decide (0x300 ≤ op ∧ op ≤ 0x302)

/-- A port instruction at a south port (R417). -/
def isSouth (w : Word) : Bool :=
  decide (0x38 ≤ bitsOf (wMod w) 8 3 ∧ bitsOf (wMod w) 8 3 ≤ 0x3C)

/-- The element class of an opcode (R389, R401 to R426): 0 ALU, 1 MAC, 2 SFU, 3 CONV, 4 PQ, 5 AG, 6 router,
7 controller, 8 port. -/
def classOf (op : Nat) : Nat :=
  if op = 0x004 ∨ (0x200 ≤ op ∧ op ≤ 0x203) then 6
  else if (0x042 ≤ op ∧ op ≤ 0x045) ∨ op = 0x382 then 1
  else if 0x100 ≤ op ∧ op ≤ 0x103 then 2
  else if 0x140 ≤ op ∧ op ≤ 0x145 then 3
  else if op = 0x380 ∨ op = 0x381 ∨ op = 0x383 then 4
  else if 0x240 ≤ op ∧ op ≤ 0x282 then 5
  else if 0x2C0 ≤ op ∧ op ≤ 0x2C1 then 8
  else if isCtlOp op then 7
  else 0

/-- How many places of its class an instruction takes: a PQC one for each eight keys (R421). -/
def placesOf (w : Word) : Nat := if wOp w = 0x380 then ceilDiv (bitsOf (wMod w) 5 0 + 1) 8 else 1

/-- The live places of a class on a core, as the placement table names them (R146, R389, R390): elements by column, AG nodes, router sites,
controller slots. -/
def liveOf (c cl : Nat) : List Nat :=
  let cols := fun (a b : Nat) => (List.range 128).filter fun e => decide (a ≤ e % 16 ∧ e % 16 ≤ b) && !(Config.fusedElem c e)
  match cl with
  | 0 => cols 0 7
  | 1 => cols 8 11
  | 2 => cols 12 13
  | 3 => cols 14 14
  | 4 => cols 15 15
  | 5 => ((List.range 16).filter fun n => !(Config.fusedElem c (128 + n))).map (· + 0x80)
  | 6 => (List.range 128).filter fun e => !(Config.fusedElem c e)
  | _ => ((List.range 16).filter fun n => !(Config.fusedElem c (160 + n))).map (· + 0xE0)

/-- The number of live places of a class on a core. -/
def liveSites (c cl : Nat) : Nat := (liveOf c cl).length

/-- The placement byte of a port instruction: its channel port, or its south port (R390, R417). -/
def portByte (w : Word) : Nat := if isSouth w then 0xC8 + (bitsOf (wMod w) 8 3 - 0x38) else 0xC0 + bitsOf (wMod w) 2 0

/-- Instruction i of a block takes a live place of its class that is free, and with it as many more as it needs. -/
def placeNext (c : Nat) (ws : List Word) (a : NMap (List Nat) × List (Nat × Nat)) (i : Nat) : NMap (List Nat) × List (Nat × Nat) :=
  let w := ws.getD i 0
  let cl := classOf (wOp w)
  if cl = 8 then (a.1, a.2 ++ [(portByte w, 0xFF)])
  else
    let left := NMap.getD (liveOf c cl) a.1 cl
    let p := left.getD (Config.place ws c i % max left.length 1) 0xFF
    let rest := left.filter fun x => x != p
    (NMap.put a.1 cl (rest.drop (placesOf w - 1)), a.2 ++ [if cl = 6 then (0xF0, p) else (p, 0xFF)])

/-- The two bytes of the placement table of each instruction of a block on a core: a fixed function of its words, the core and the
defect map (R146, R390). -/
def placements (c : Nat) (ws : List Word) : List (Nat × Nat) := ((List.range ws.length).foldl (placeNext c ws) ([], [])).2

/-- The places of a block's instructions on a core: a byte of the placement table, or 0x100 + router site. -/
def placement (c : Nat) (ws : List Word) : List Nat := (placements c ws).map fun p => if p.1 = 0xF0 then 0x100 + p.2 else p.1

/-- The entries of the placement table of a block, 128 of them (R390). -/
def placementTable (c : Nat) (ws : List Word) : List (Nat × Nat) :=
  (placements c ws).take 128 ++ List.replicate (128 - ws.length) (0xFF, 0xFF)

end Sys2Proof.Machine
end

