-- ==== Sys2Proof/Machine/Grid.lean ====
section
/-! DEFINITION. The grid of a core: links, marks, elements, planes and the queue of grid commands
(R152, R153, R390 to R400, R351 to R353). -/

namespace Sys2Proof.Machine

/-- Where an element instruction acts: core, instruction index, shadow plane or active. -/
structure Site where
  c : Nat
  i : Nat
  sh : Bool
  deriving DecidableEq, Repr

/-- The site of the element that moves. -/
def siteOf (s : State) : Site := ⟨s.turn, s.focus.1, s.focus.2⟩

/-- The plane of a site. -/
def planeOf (g : Grid) (sh : Bool) : Plane := if sh then g.sh else g.act

namespace State

/-- The state of the element instruction at a site. -/
def elem (s : State) (x : Site) : Elem := NMap.getD {} (s.core x.c).grid.elems (elemKey x.sh x.i)

/-- The state with the element at a site changed. -/
def modElem (s : State) (x : Site) (f : Elem → Elem) : State :=
  s.modCore x.c fun k =>
    let key := elemKey x.sh x.i
    { k with grid := { k.grid with elems := NMap.put k.grid.elems key (f (NMap.getD {} k.grid.elems key)) } }

/-- The items on the link into a slot of a site. -/
def link (s : State) (x : Site) (slot : Nat) : List Item :=
  NMap.getD [] (s.core x.c).grid.links (linkKey x.sh x.i slot)

/-- The state with the items of a link replaced. -/
def setLink (s : State) (x : Site) (slot : Nat) (l : List Item) : State :=
  s.modCore x.c fun k =>
    let key := linkKey x.sh x.i slot
    { k with grid := { k.grid with links := if l = [] then NMap.del k.grid.links key else NMap.put k.grid.links key l } }

/-- The items at a channel or south port of a core. -/
def chan (s : State) (c n : Nat) : List Item := NMap.getD [] (s.core c).grid.chan n

/-- The state with the items of a channel or south port replaced. -/
def setChan (s : State) (c n : Nat) (l : List Item) : State :=
  s.modCore c fun k =>
    { k with grid := { k.grid with chan := if l = [] then NMap.del k.grid.chan n else NMap.put k.grid.chan n l } }

/-- The state with a core's grid changed. -/
def modGrid (s : State) (c : Nat) (f : Grid → Grid) : State := s.modCore c fun k => { k with grid := f k.grid }

end State

/-! ### CTL tokens and marks (R393, R394) -/

/-- LEVEL. -/
def ctlLevel (w : Word) : Nat := fld w 59 58
/-- ORD. -/
def ctlOrd (w : Word) : Nat := fld w 47 0
/-- A CTL token of a KIND with a LEVEL and an ORD. -/
def mkCtl (kind level ord : Nat) : Word := BitVec.ofNat 64 (kind * 2 ^ 60 + level % 4 * 2 ^ 58 + ord % 2 ^ 48)
/-- GO. -/
def goToken (i : Nat) : Item := .ctl (mkCtl 0 0 i)
/-- DONE. -/
def doneToken (i : Nat) : Item := .ctl (mkCtl 1 0 i)
/-- A mark of a KIND. -/
def markItem (kind : Nat) : Item := .ctl (mkCtl kind 0 0)
/-- An EOD mark of a level. -/
def eodItem (level : Nat) : Item := .ctl (mkCtl 6 level 0)

/-- A CTL token with a reserved KIND, or a field that must be zero (R393). -/
def ctlBad (w : Word) : Bool :=
  decide (7 ≤ ctlKind w) || fld w 57 48 != 0 || (ctlKind w != 6 && ctlLevel w != 0)
    || (decide (2 ≤ ctlKind w) && ctlOrd w != 0)

/-- An item that is a mark: a CTL token of KIND EOT, EOS, DRAIN, SWAP or EOD (R394). -/
def asMark : Item → Option Word
  | .ctl w => if 2 ≤ ctlKind w && decide (ctlKind w ≤ 6) then some w else none
  | .data _ => none

/-- The bytes of a data item; a CTL token is its 8 bytes. -/
def itemBytes : Item → List Byte
  | .data bs => bs
  | .ctl w => leBytes 8 w.toNat

/-- An item of a link type from bytes: a CTL token for type 0x1F (R231, R393). -/
def mkItem (t : Nat) (bs : List Byte) : Item := if t = 0x1F then .ctl (BitVec.ofNat 64 (ofLe bs)) else .data bs

/-! ### What an instruction uses -/

/-- Operands of an instruction with the modifier of R308 (R401 to R406). -/
def arity (op : Nat) : Nat :=
  if op = 0x043 ∨ op = 0x044 ∨ op = 0x045 ∨ op = 0x087 ∨ op = 0x0C3 then 3
  else if op = 0x048 ∨ op = 0x049 ∨ op = 0x083 ∨ (0x100 ≤ op ∧ op ≤ 0x103) ∨ (0x140 ≤ op ∧ op ≤ 0x145) then 1
  else 2

/-- The SEL field of operand s in a modifier (R308). -/
def selOf (m s : Nat) : Nat := bitsOf m (18 - 2 * s) (17 - 2 * s)

/-- The linked slots of an opcode with a modifier (R395): slots 0 a, 1 b, 2 c, 3 ctl. -/
def slotsOf (op m : Nat) : List Nat :=
  if opRounds op then
    if 0x140 ≤ op then [0] else (List.range (arity op)).filter fun s => selOf m s == 0
  else match op with
    | 0x002 => [3]
    | 0x184 => [0, 1]
    | 0x1C1 => [0, 3]
    | 0x200 => [0, 1]
    | 0x201 => [0, 1, 2]
    | 0x202 => [0, 1, 2]
    | 0x203 => [0, 2]
    | 0x240 => if m.testBit 24 then [0, 3] else [3]
    | 0x242 => [3]
    | 0x281 => [0, 1]
    | 0x282 => if m.testBit 12 then [0, 1, 2] else [0, 1]
    | 0x2C0 => []
    | 0x300 => if bitsOf m 13 0 = 0 then [0, 3] else [3]
    | 0x301 => if bitsOf m 13 0 = 0 then [0, 3] else [3]
    | 0x302 => if bitsOf m 13 0 = 0 then [0, 3] else [3]
    | 0x340 => if bitsOf m 11 0 = 0 then [0, 3] else [0]
    | 0x341 => if bitsOf m 11 0 = 0 then [0, 3] else [0]
    | 0x380 => if m.testBit 6 then [0] else [0, 1]
    | 0x381 => if m.testBit 18 then [0, 1] else [0]
    | 0x3C0 => []
    | 0x3C1 => [0, 1]
    | _ => [0]

/-- The linked slots of a block word (R395). -/
def linkedSlots (w : Word) : List Nat := slotsOf (wOp w) (wMod w)

/-- The word of a site. -/
def wordAt (s : State) (x : Site) : Word := (planeOf (s.core x.c).grid x.sh).words.getD x.i 0

/-- The placement byte of a site: element 0 to 127, AG node 0x80 + n, channel 0xC0 + n, south port 0xC8 + n, controller
0xE0 + n, router 0x100 + site (R390). -/
def placeAt (s : State) (x : Site) : Nat := (planeOf (s.core x.c).grid x.sh).place.getD x.i 0xFF

/-- The physical element or AG node (128 + n) whose stationary vectors an instruction uses (R391, R413). -/
def physAt (s : State) (x : Site) : Nat :=
  let p := placeAt s x
  if 0x80 ≤ p ∧ p ≤ 0x8F then 128 + (p - 0x80) else p

/-! ### Stationary vectors (R189, R391) -/

/-- The memory key of an element's active or loading vector. -/
def statKey (c e : Nat) (loading : Bool) : Nat := winBase c + 0x300000 + 512 * e + (if loading then 256 else 0)

/-- The 64 lanes of an element's active vector, 32 bits each. -/
def statLanes (s : State) (c e : Nat) : List Nat := unpackBits 32 64 (s.read (statKey c e false) 256)

/-- The active and loading vectors of an element exchange (R396, R409). -/
def swapStat (s : State) (c e : Nat) : State :=
  let a := s.read (statKey c e false) 256
  let b := s.read (statKey c e true) 256
  (s.write (statKey c e false) b).write (statKey c e true) a

/-- The vector that a write to an element's loading vector goes to: the active one while a SWAP mark is in flight at the
element (R190). -/
def loadTarget (s : State) (c e : Nat) : Nat := statKey c e (!(swapInFlight (s.core c) e))

/-! ### Faults at an element (R263, R473) -/

/-- The ordinal of the next token of a slot, since the configuration interval began. -/
def slotOrd (s : State) (x : Site) (slot : Nat) : Nat := NMap.getD 0 (s.elem x).ords slot

/-- The instructions reached from some, over steps of a block, nearest first. -/
def reachedBy (next : Nat → List Nat) : Nat → List Nat → List Nat
  | 0, l => l
  | n + 1, l => reachedBy next n (l ++ (l.map next).flatten).eraseDups

/-- The instructions that an instruction's targets name. -/
def feeds (w : Word) : List Nat :=
  ([0, 1].map (wTarget w)).filterMap fun t => if t.1 then some t.2.1 else none

/-- The arc of the first window port of a kind (PIN 0x2C0 of ports 0 to 15, POUT 0x2C1 of ports 16 to 31) among some
instructions. -/
def portArc (s : State) (c : Nat) (ws : List Word) (op lo : Nat) (l : List Nat) : Option Nat :=
  l.findSome? fun i =>
    let w := ws.getD i 0
    let p := bitsOf (wMod w) 8 3
    let a := arcOf s c (s.core c).actorNo p
    if wOp w = op ∧ lo ≤ p ∧ p < lo + 16 ∧ a ≠ 0xFFFFFFFF then some a else none

/-- The arc that a notice about a link into an element names: that of the output port the element leads to, else of the
input port that leads to it (R263, R459; log entry 56). -/
def linkArc (s : State) (x : Site) : Nat :=
  let ws := (planeOf (s.core x.c).grid x.sh).words
  let n := ws.length
  let ahead := reachedBy (fun i => feeds (ws.getD i 0)) n [x.i]
  let behind := reachedBy (fun i => (List.range n).filter fun j => (feeds (ws.getD j 0)).contains i) n [x.i]
  ((portArc s x.c ws 0x2C1 16 ahead).orElse fun _ => portArc s x.c ws 0x2C0 0 behind).getD 0xFFFFFFFF

/-- A token-attributed fault at an operand slot of an element halts the graph (R429); ord is the token's ordinal. -/
def slotHalt (s : State) (x : Site) (slot cause ord : Nat) : State :=
  s.haltToken x.c cause (0x4000 + 4 * x.i + slot) (linkArc s x) ord

/-- The fault of the item at the head of a slot. -/
def gridHalt (s : State) (x : Site) (slot cause : Nat) : State := slotHalt s x slot cause (slotOrd s x slot)

/-- The fault of the data token just consumed from a slot. -/
def tokenHalt (s : State) (x : Site) (slot cause : Nat) : State := slotHalt s x slot cause (slotOrd s x slot - 1)

/-! ### Targets (R397) -/

/-- Items move from an element's pending outputs into a link, as many as it has room for. -/
def moveOut : Nat → List Item → List Item → List Item × List Item
  | _, [], l => ([], l)
  | 0, out, l => (out, l)
  | room + 1, x :: out, l => moveOut room out (l ++ [x])

/-- The word of a CTL token on a link; a data token has none. -/
def itemWord : Item → Nat
  | .ctl w => w.toNat
  | .data _ => 0

/-- One target takes what its link has room for: the consumer's input and the link's buffer slots (R397). The ctl slot of
a controller has one link per producer (R419): what arrives there is kept with the producer's index. -/
def flushTarget (s : State) (x : Site) (t : Target) (second : Bool) : State :=
  let e := s.elem x
  let out := if second then e.out1 else e.out0
  let y : Site := ⟨x.c, t.idx.toNat, x.sh⟩
  if !t.v then s
  else if isCtlOp (wOp (wordAt s y)) && t.slot == 3 then
    let have0 := ((s.elem y).items.filter fun i => i.1 == x.i).length
    let r := moveOut (1 + t.buf.toNat - have0) out []
    let s1 := s.modElem y fun e => { e with items := e.items ++ r.2.map fun i => (x.i, itemWord i) }
    s1.modElem x fun e => if second then { e with out1 := r.1 } else { e with out0 := r.1 }
  else
    let l := s.link y t.slot.toNat
    let r := moveOut (1 + t.buf.toNat - l.length) out l
    let s1 := s.setLink y t.slot.toNat r.2
    s1.modElem x fun e => if second then { e with out1 := r.1 } else { e with out0 := r.1 }

/-- Both targets take what they have room for. -/
def flush (s : State) (x : Site) (b : Blk) : State := flushTarget (flushTarget s x b.t0 false) x b.t1 true

/-- Items leave an element towards target 0. -/
def emit0 (s : State) (x : Site) (b : Blk) (items : List Item) : State :=
  if b.t0.v then s.modElem x fun e => { e with out0 := e.out0 ++ items } else s

/-- Items leave an element towards target 1. -/
def emit1 (s : State) (x : Site) (b : Blk) (items : List Item) : State :=
  if b.t1.v then s.modElem x fun e => { e with out1 := e.out1 ++ items } else s

/-- Items leave an element towards both its targets (R397). -/
def emit (s : State) (x : Site) (b : Blk) (items : List Item) : State := emit1 (emit0 s x b items) x b items

/-! ### Inputs -/

/-- The head of a slot. -/
def head? (s : State) (x : Site) (slot : Nat) : Option Item := (s.link x slot).head?

/-- One item is consumed from a slot; a data token counts towards the slot's ordinal (R281). -/
def pop (s : State) (x : Site) (slot : Nat) : State :=
  let l := s.link x slot
  let s1 := s.setLink x slot (l.drop 1)
  match l with
  | y :: _ =>
    if (asMark y).isSome then s1.modElem x fun e => { e with since := none }
    else s1.modElem x fun e => { e with ords := NMap.put e.ords slot (NMap.getD 0 e.ords slot + 1), since := none }
  | [] => s1

/-- One item is consumed from each of several slots. -/
def popAll (s : State) (x : Site) (slots : List Nat) : State := slots.foldl (fun s n => pop s x n) s

/-- The breakpoint that a slot's next token would reach: one of the element itself (R281, R383). -/
def slotBreak (s : State) (x : Site) (slot : Nat) : Option Break :=
  (s.core x.c).breaks.find? fun b => b.elem && b.sub == slot && b.link == placeAt s x && b.ordinal == slotOrd s x slot

/-- An element or port waits from now on, if it did not already (R417, R429). -/
def waitsNow (s : State) (x : Site) : State :=
  s.modElem x fun e => if e.since.isSome then e else { e with since := some (s.clock x.c) }

/-- An element waits with part of its operands (R429). -/
def noteWait (s : State) (x : Site) (slots : List Nat) : State :=
  if slots.any fun n => (head? s x n).isSome then waitsNow s x else s

/-- A PIN waits for space on a link from now on, if it did not already (R417). -/
def noteFull (s : State) (x : Site) : State :=
  if wOp (wordAt s x) = 0x2C0 then
    s.modElem x fun e => if e.blocked.isSome then e else { e with blocked := some (s.clock x.c) }
  else s

/-- An element has swapped: the end-of-stream mark has passed its inputs and left its outputs (R152). -/
def Elem.gone (e : Elem) : Bool := e.swapped && e.out0.isEmpty && e.out1.isEmpty

/-- An instruction without an input that carries data links: an end-of-stream mark never reaches it (R152). -/
def unmarked (w : Word) : Bool := wOp w != 0x2C0 && (isCtlOp (wOp w) || (linkedSlots w).all fun n => n == 3)

/-- An element may act: its plane holds a block, nothing holds its core or grid, and in a wavefront swap its site runs
the configuration of its plane: one that no old instruction uses has no mark to wait for, and swaps after every element the mark
reaches (R126, R152, R170, R282, R353). -/
def elemOk (s : State) (x : Site) : Bool :=
  let k := s.core x.c
  let g := k.grid
  let old := (List.range g.act.words.length).filter fun i => g.act.place.getD i 0xFF == placeAt s x
  let gone := fun (i : Nat) => (s.elem ⟨x.c, i, false⟩).gone
  let free := if old = [] then (List.range g.act.words.length).all fun i => unmarked (g.act.words.getD i 0) || gone i
    else old.all gone
  !k.cut && decide (k.run ≠ .graphHalted) && decide (k.run ≠ .frozen) && !g.held && (planeOf g x.sh).valid
    && (!x.sh || (g.armed && free))

/-! ### Statistics (R259, R260, R425) -/

/-- The counts of an element advance; the first of a tile that reaches its top raises FMT.14 (R260). -/
def addStats (s : State) (x : Site) (cs : List Nat) : State :=
  let r := joinCounts (s.elem x).counts cs
  statNotice (s.modElem x fun e => { e with counts := r.1 }) (s.core x.c).graph (coreName x.c) (physAt s x) r.2

/-- The instruction that collects count tokens: the block's STCNT (R425). -/
def stcntOf (p : Plane) : Option Nat := (List.range p.words.length).find? fun i => wOp (p.words.getD i 0) == 0x3C0

/-- The count token of an element: its counts, its source, its tile ordinal, one merged (R260). -/
def countToken32 (s : State) (x : Site) : List Nat :=
  let e := s.elem x
  (List.range 5).map (fun i => e.counts.getD i 0)
    ++ [physAt s x % 256 + x.c % 192 * 256 + x.c / 192 * 65536, e.iter % 2 ^ 32, 1]

/-- A count token merged with another, the first operand's source kept (R260). -/
def mergeCounts (a b : List Nat) : List Nat :=
  (List.range 8).map fun i =>
    if i = 5 ∨ i = 6 then a.getD i 0 else min (a.getD i 0 + b.getD i 0) 0xFFFFFFFF

/-- At an end-of-tile mark an element's counts leave for its block's STCNT, if it has a statistics link, and are reset;
iter counts the tiles (R259). -/
def tileCounts (s : State) (x : Site) (stat : Bool) : State :=
  let tok := countToken32 s x
  let s1 := s.modElem x fun e => { e with counts := [], iter := e.iter + 1 }
  if !stat then s1
  else match stcntOf (planeOf (s.core x.c).grid x.sh) with
    | none => s1
    | some j => s1.modElem ⟨x.c, j, x.sh⟩ fun e => { e with statq := NMap.put e.statq x.i (NMap.getD [] e.statq x.i ++ [tok]) }

/-- The element's statistics link can take a further count token: four a source (R425). -/
def statRoom (s : State) (x : Site) (stat : Bool) : Bool :=
  !stat || match stcntOf (planeOf (s.core x.c).grid x.sh) with
    | none => true
    | some j => decide ((NMap.getD [] (s.elem ⟨x.c, j, x.sh⟩).statq x.i).length < 4)

/-! ### Marks (R395, R396) -/

/-- A mark may be consumed: an EOS waits for a valid shadow plane while a wavefront swap is armed (R152), an EOT for room
on the statistics link. -/
def markReady (s : State) (x : Site) (stat : Bool) (w : Word) : Bool :=
  let g := (s.core x.c).grid
  !(ctlKind w == 3 && g.armed && !x.sh && !g.sh.valid) && (ctlKind w != 2 || statRoom s x stat)

/-- The mark actions of R396, without the forwarding: EOT sends the counts, EOS swaps the element when a wavefront swap is
armed, DRAIN has passed every linked slot and counts it as drained, SWAP exchanges its vectors. -/
def markAction (s : State) (x : Site) (stat : Bool) (w : Word) : State :=
  match ctlKind w with
  | 2 => tileCounts s x stat
  | 3 =>
    if (s.core x.c).grid.armed && !x.sh then
      (s.modElem x fun e => { e with swapped := true }).modGrid x.c fun g => { g with activity := NMap.del g.activity (placeAt s x) }
    else s
  | 4 => s.modElem x fun e => { e with drained := true, passed := linkedSlots (wordAt s x) }
  | 5 => if physAt s x < 144 then swapStat s x.c (physAt s x) else s
  | _ => s

/-- A CTL token at a head that R393 does not allow. -/
def itemBad : Item → Bool
  | .ctl w => ctlBad w
  | .data _ => false

/-- Nothing is emitted ahead of a mark. -/
def noBefore (_ : Site) (_ : Word) (s : State) : State × Bool := (s, true)

/-- Every mark is forwarded. -/
def allMarks (_ : Word) : Bool := true

/-- What an element of R395 does: before is what it emits ahead of a mark and whether it goes on, fire what it makes of
one data token from each linked slot, fwd which marks it forwards. -/
def react (b : Blk) (slots : List Nat) (stat : Bool) (fwd : Word → Bool) (before : Site → Word → State → State × Bool)
    (fire : Site → List Item → State → State) (x : Site) (s : State) : State :=
  let heads := slots.map fun n => (n, head? s x n)
  let present := heads.filterMap fun (n, h) => h.map fun i => (n, i)
  let bad := present.find? fun (_, i) => itemBad i
  let marks := present.filterMap fun (n, i) => (asMark i).map fun w => (n, w)
  match bad with
  | some (n, _) => gridHalt s x n 0x0B1
  | none =>
    match marks with
    | [] =>
      if present.length < slots.length then noteWait s x slots
      else match slots.find? fun n => (slotBreak s x n).isSome with
        | some n =>
          match slotBreak s x n with
          | some br => hitBreak s x.c br (0x4000 + 4 * x.i + n) (linkArc s x)
          | none => s
        | none => fire x (present.map Prod.snd) (popAll s x slots)
    | (n, w) :: rest =>
      let skew := present.length ≠ marks.length || rest.any fun (_, v) => ctlKind v != ctlKind w || ctlLevel v != ctlLevel w
      if skew then gridHalt s x n 0x0B0
      else if present.length < slots.length then noteWait s x slots
      else if !(markReady s x stat w) then s
      else
        let r := before x w (popAll s x slots)
        if !r.2 then r.1
        else markAction (if fwd w then emit r.1 x b [.ctl w] else r.1) x stat w

/-- The head of a slot at an element whose rule judges its slots one by one: an item R393 does not allow, or a data token
at a breakpoint (R281), goes no further. -/
def withHead (x : Site) (slot : Nat) (f : Item → State → State) (s : State) : State :=
  match head? s x slot with
  | none => s
  | some i =>
    if itemBad i then gridHalt s x slot 0x0B1
    else match (asMark i).isNone, slotBreak s x slot with
      | true, some br => hitBreak s x.c br (0x4000 + 4 * x.i + slot) (linkArc s x)
      | _, _ => f i s

/-- DRAIN has passed one slot of an element; with it through every linked slot the element counts as drained (R396). -/
def drainPassed (s : State) (x : Site) (slot : Nat) : State :=
  s.modElem x fun e =>
    let l := slot :: e.passed
    { e with passed := l, drained := (linkedSlots (wordAt s x)).all fun n => l.contains n }

/-- A mark at the head of a slot is consumed and goes on, with its action at that slot (R396). -/
def passMark (b : Blk) (x : Site) (slot : Nat) (w : Word) (s : State) : State :=
  if !(markReady s x false w) then s
  else
    let s1 := emit (pop s x slot) x b [.ctl w]
    if ctlKind w = 4 then drainPassed s1 x slot else markAction s1 x false w

/-- A token of any KIND at a ctl slot is consumed for the mark it asks for (R409, R420); a DRAIN has passed that slot. -/
def askMark (b : Blk) (x : Site) (kind : Nat) (i : Item) (s : State) : State :=
  let s1 := emit (pop s x 3) x b [markItem kind]
  match asMark i with
  | some w => if ctlKind w = 4 then drainPassed s1 x 3 else s1
  | none => s1

/-! ### Draws (R254, R255) -/

/-- One draw of a core's stream: its words and the state after it; FMT.10 when the counter is at its end. -/
def drawOnce (s : State) (c n : Nat) : Except Nat (List Nat × State) :=
  let r := (s.core c).rng n
  if r.ctr = BitVec.allOnes 128 then .error 0x0FA
  else .ok ((draw r.key r.ctr).map BitVec.toNat,
    s.modCore c fun k => { k with rngs := NMap.put k.rngs n { r with ctr := r.ctr + 1 } })

/-- Several draws: their words in order. -/
def drawMany (s : State) (c n : Nat) : Nat → Except Nat (List Nat × State)
  | 0 => .ok ([], s)
  | m + 1 =>
    match drawOnce s c n with
    | .error f => .error f
    | .ok (ws, s1) =>
      match drawMany s1 c n m with
      | .error f => .error f
      | .ok (vs, s2) => .ok (ws ++ vs, s2)

/-- The draws of several that are made before one meets FMT.10 (R255). -/
def drawsMade (s : State) (c n : Nat) : Nat → State
  | 0 => s
  | m + 1 =>
    match drawOnce s c n with
    | .error _ => s
    | .ok (_, s1) => drawsMade s1 c n m

/-! ### Planes -/

/-- The controllers of a plane that are roots (R419). -/
def rootsOf (p : Plane) : List Nat :=
  (List.range p.words.length).filter fun i =>
    let w := p.words.getD i 0
    decide (0x300 ≤ wOp w ∧ wOp w ≤ 0x302) && bitsOf (wMod w) 24 18 == 0x7F

/-- An instruction and its links hold no token, hand or partial operand of the data links (R354). -/
def clearAt (g : Grid) (sh : Bool) (i : Nat) : Bool :=
  let e := NMap.getD ({} : Elem) g.elems (elemKey sh i)
  e.out0.isEmpty && e.out1.isEmpty && e.held.isEmpty && e.items.isEmpty && e.kids.isEmpty && e.phase == 0 && e.goQ == 0
    && (List.range 4).all fun slot => (NMap.getD [] g.links (linkKey sh i slot)).isEmpty

/-- An instruction holds no token, hand or partial operand, count tokens among them (R152, R425). -/
def idleAt (g : Grid) (sh : Bool) (i : Nat) : Bool :=
  clearAt g sh i && (NMap.getD ({} : Elem) g.elems (elemKey sh i)).statq.all fun (p : Nat × List Counts) => p.2.isEmpty

/-- BUSY of GSTAT (R354): a hand or token is in the active plane. -/
def gridBusy (g : Grid) : Bool :=
  g.act.valid && ((List.range g.act.words.length).any fun i => !(clearAt g false i))
    || (g.armed && (List.range g.sh.words.length).any fun i => !(clearAt g true i))
    || (List.range 8).any fun n => !(NMap.getD [] g.chan n).isEmpty

/-- Nothing waits on the links from the matrix and meld outputs (R153, R459). -/
def southEmpty (g : Grid) : Bool := (NMap.getD [] g.chan 18).isEmpty && (NMap.getD [] g.chan 20).isEmpty

/-- The activity counts that an exchange leaves: those of the elements that a wavefront swap has taken over one by one, whose
interval began at their own swap (R152, R285). -/
def keptActivity (g : Grid) : NMap Counts :=
  if g.armed then g.activity.filter fun (p : Nat × Counts) => g.act.place.contains p.1 else []

/-- The planes exchange (R352): SHID becomes the former ACTID, and SVALID stays only if the former active plane held a
block; the former shadow's elements go on, the others start afresh. -/
def exchange (g : Grid) : Grid :=
  { g with
    act := g.sh
    sh := g.act
    armed := false
    draining := false
    goAct := g.goSh
    goSh := false
    activity := keptActivity g
    elems := (g.elems.filter fun (k, _) => 128 ≤ k).map fun (k, e) => (k - 128, { e with swapped := false })
    links := (g.links.filter fun (k, _) => 512 ≤ k).map fun (k, l) => (k - 512, l) }

/-- A go-ahead to every root controller of the plane that receives it: the new plane's roots while a wavefront swap is
armed (R350, R353). -/
def giveGo (g : Grid) : Grid :=
  let sh := g.armed
  let rs := rootsOf (planeOf g sh)
  { g with
    goes := g.goes + rs.length
    goAct := g.goAct || !sh
    goSh := g.goSh || sh
    elems := rs.foldl (fun m i =>
      let e := NMap.getD ({} : Elem) m (elemKey sh i)
      NMap.put m (elemKey sh i) { e with goQ := e.goQ + 1 }) g.elems }

/-- A drain-gated swap begins (R352): the entry ports stop, and a drain mark stands behind the last token each has
accepted. -/
def beginDrain (g : Grid) : Grid :=
  let pins := (List.range g.act.words.length).filter fun i => wOp (g.act.words.getD i 0) == 0x2C0
  { g with
    draining := true
    elems := pins.foldl (fun m i =>
      let e := NMap.getD ({} : Elem) m (elemKey false i)
      NMap.put m (elemKey false i) { e with items := e.items ++ [((mkCtl 4 0 0).toNat, 0)] }) g.elems }

/-- The grid's queue goes on as far as it can (R350): a load waits behind swaps, a drain-gated swap for a load in
progress, a go-ahead for a drain-gated swap; a wavefront swap arms at once and waits for its shadow plane mark by mark
(R152). -/
def pumpGrid : Nat → Grid → Grid
  | 0, g => g
  | fuel + 1, g =>
    match g.queue with
    | [] => g
    | .load id :: q =>
      if g.draining || g.armed || g.lstate == 1 then g
      else pumpGrid fuel { g with queue := q, sh := { g.sh with valid := false }, lstate := 1, loading := id }
    | .swapDrain :: q =>
      if g.draining || g.armed || g.lstate == 1 || !g.sh.valid then g
      else
        let g1 := { g with queue := q }
        if !g1.act.valid || (!(gridBusy g1) && southEmpty g1) then pumpGrid fuel (exchange g1) else pumpGrid fuel (beginDrain g1)
    | .swapEos :: q =>
      if g.draining || g.armed then g
      else
        let g1 := { g with queue := q }
        if !g1.act.valid then
          if g1.sh.valid then pumpGrid fuel (exchange g1) else g
        else pumpGrid fuel { g1 with armed := true }
    | .go :: q =>
      if g.draining || (g.armed && !g.sh.valid) then g else pumpGrid fuel (giveGo { g with queue := q })

/-- The queue of a core's grid goes on. -/
def pump (s : State) (c : Nat) : State := s.modGrid c (pumpGrid 8)

/-- When every element of the active plane has swapped, the planes exchange (R152). -/
def waveDone (s : State) (c : Nat) : State :=
  let g := (s.core c).grid
  if g.armed && g.sh.valid && (List.range g.act.words.length).all fun i => (s.elem ⟨c, i, false⟩).gone then
    pump (s.modGrid c exchange) c
  else s

/-- An element acts: what its targets can take leaves first; with nothing left to send it does what its rule says, and
what that gave leaves as far as there is room (R395, R397). -/
def elemAct (b : Blk) (f : Site → State → State) (s : State) : Result :=
  let x := siteOf s
  if !(elemOk s x) then .next s
  else
    let s1 := flush s x b
    let e := s1.elem x
    if !e.out0.isEmpty || !e.out1.isEmpty || e.swapped then .next (waveDone (noteFull s1 x) x.c)
    else .next (waveDone (flush (f x s1) x b) x.c)

/-- An element of R395 with the slots its opcode links and the usual marks. -/
def reactAll (b : Blk) (op : Nat) (stat : Bool) (fire : Site → List Item → State → State) (s : State) : Result :=
  elemAct b (react b (slotsOf op b.modf.toNat) stat allMarks noBefore fire) s

/-- The number of a block in the core's library, in ascending BLOCKID order (R390). -/
def libraryIndex (s : State) (c id : Nat) : Nat :=
  match s.graph? (s.core c).graph with
  | none => 0
  | some g => ((imageBlocks g.img (s.core c).lcore).findIdx fun b => blkId b == id)

/-- The memory keys of a block's place in a core's slice of the library region (R351). -/
def libraryPlace (s : State) (c id : Nat) : Nat := Config.libraryBase + 0x80000 * c + 4096 * libraryIndex s c id

/-- The Dealer's write of a placed block, 4 KiB, into the core's slice of the library region (R351); what its bytes are is not
stated (log entry 95). -/
def writeLibrary (s : State) (c : Nat) (blk : List Byte) : State :=
  s.write (libraryPlace s c (blkId blk)) ((List.range 4096).map fun i => Config.placedByte blk c i)

/-- The placement table of a block, 256 bytes at 0x1F_8000 + 256 j (R390). -/
def writePlacement (s : State) (c : Nat) (blk : List Byte) : State :=
  let pl := placementTable c (blkWords blk)
  s.setTile c (0x1F8000 + 256 * libraryIndex s c (blkId blk))
    (pl.map (fun p => BitVec.ofNat 8 p.1) ++ pl.map fun p => BitVec.ofNat 8 (if p.1 = 0xF0 then p.2 else 0xFF))

/-- The plane of a block. -/
def planeOfBlock (c : Nat) (blk : List Byte) : Plane :=
  let ws := blkWords blk
  { valid := true, blockid := blkId blk, header := blkHeader blk, words := ws
    place := placement c ws }

end Sys2Proof.Machine
end

