-- ==== Sys2Proof/Machine/Lanes.lean ====
section
/-! DEFINITION. Operands and rounding of the lane instructions, and what arithmetic, logic, compare and special functions
share (R400 to R404). -/

namespace Sys2Proof.Machine

/-- TCODE of an instruction. -/
def eType (b : Blk) : Nat := b.tcode.toNat
/-- MOD of an instruction. -/
def bMod (b : Blk) : Nat := b.modf.toNat
/-- STAT of a modifier (R308, R407, R421, R422). -/
def bStat (b : Blk) : Bool := (bMod b).testBit 12
/-- RM of a modifier (R308). -/
def bRm (b : Blk) : Nat := bitsOf (bMod b) 24 22
/-- The stream field of a modifier (R308, R422). -/
def bSrs (b : Blk) : Nat := bitsOf (bMod b) 21 19

/-- A token of 64 elements. -/
def token64 (t : Nat) (xs : List Nat) : Item := .data (fieldBytes t xs)

/-- A BOOL token with every lane the same. -/
def boolToken (v : Bool) : Item := token64 0x1E (List.replicate 64 (if v then 1 else 0))

/-- A RAW32 token of some words, the others zero. -/
def rawToken (ws : List Nat) : Item := token64 0x1D (ws ++ List.replicate (64 - ws.length) 0)

/-- Lane 0 of a BOOL token. -/
def lane0 (i : Item) : Bool := (ofLe ((itemBytes i).take 1)).testBit 0

/-- The immediate of a modifier in a type, with its counts (R400). -/
def immLane (t m : Nat) : Nat × List Nat := encodeElem t 0 0 (Val.ofInt (sgn 12 m))

/-- An operand's 64 lanes as bits of a type, and what its immediate counts, once a token (R400). -/
def operand (b : Blk) (x : Site) (s : State) (ins : List (Nat × Item)) (n t : Nat) : List Nat × List Nat :=
  match selOf (bMod b) n with
  | 0 =>
    match ins.find? fun p => p.1 == n with
    | some (_, i) => (tokenFields t (itemBytes i), noCount)
    | none => ([], noCount)
  | 1 => ((statLanes s x.c (physAt s x)).map fun v => v % 2 ^ elemBits t, noCount)
  | _ => let r := immLane t (bMod b); (List.replicate 64 r.1, r.2)

/-- The words of SR rounding for a token: sixteen draws under RM 4, none otherwise (R255). -/
def srWords (s : State) (c : Nat) (b : Blk) (draws : Nat) : Except Nat (List Nat × State) :=
  if bRm b = 4 then drawMany s c (bSrs b) draws else .ok ([], s)

/-- A lane instruction fires: types of its operands, whether it rounds, its result type, what it makes of one lane's word
and operand bits (R400). -/
def laneFire (b : Blk) (op : Nat) (types : List Nat) (rounds : Bool) (out : Nat)
    (f : Nat → List Nat → Nat × List Nat) (x : Site) (items : List Item) (s : State) : State :=
  let slots := slotsOf op (bMod b)
  let ins := slots.zip items
  let ops := (types.zip (List.range types.length)).map fun (t, n) => operand b x s ins n t
  let imm := if ops.any fun o => o.2 != noCount then (immLane (eType b) (bMod b)).2 else noCount
  match (if rounds then srWords s x.c b 16 else .ok ([], s)) with
  | .error e => tokenHalt (drawsMade s x.c (bSrs b) 16) x (slots.headD 0) e
  | .ok (us, s1) =>
    let rs := (List.range 64).map fun l => f (us.getD l 0) (ops.map fun o => o.1.getD l 0)
    emit (addStats s1 x (addCounts imm (sumCounts (rs.map Prod.snd)))) x b [token64 out (rs.map Prod.fst)]

/-- A lane instruction (R400). -/
def laneOp (b : Blk) (op : Nat) (types : List Nat) (rounds : Bool) (out : Nat)
    (f : Nat → List Nat → Nat × List Nat) (s : State) : Result :=
  reactAll b op (bStat b) (laneFire b op types rounds out f) s

/-- An arithmetic instruction of n operands (R401): fin() of an exact value, from the rounding mode and the operands. -/
def arith (b : Blk) (op n : Nat) (f : Nat → List Val → Val) (s : State) : Result :=
  let t := eType b
  laneOp b op (List.replicate n t) true t (fun u xs => encodeElem t (bRm b) u (f (bRm b) (xs.map (valOf t)))) s

/-- An operand of a list. -/
def vAt (xs : List Val) (i : Nat) : Val := xs.getD i .nan

/-- The smaller of two values, −0 below +0, NaN from a NaN (R401, R235). -/
def vMin (x y : Val) : Val := if x.isNan || y.isNan then .nan else if y.below x then y else x
/-- The larger of two values, +0 above −0, NaN from a NaN. -/
def vMax (x y : Val) : Val := if x.isNan || y.isNan then .nan else if x.below y then y else x

/-- n and E of an XW128 or SD16 token, and its elements' bits. -/
def tailParts (t : Nat) (i : Item) : Nat × Option Int × List Nat :=
  let bs := itemBytes i
  (tokenElems t bs.length, tailExp t bs, tokenFields t bs)

/-- ADD and SUB of XW128 tokens (R241, R401): GRID.3 for unequal n, then FMT.13, then FMT.2, otherwise the sum modulo
2^128. -/
def xwFire (b : Blk) (sub : Bool) (x : Site) (items : List Item) (s : State) : State :=
  let p := tailParts 0x1C (items.getD 0 (.data []))
  let q := tailParts 0x1C (items.getD 1 (.data []))
  if p.1 ≠ q.1 then tokenHalt s x 0 0x0B3
  else match p.2.1, q.2.1 with
    | none, _ => tokenHalt s x 0 0x0FD
    | _, none => tokenHalt s x 1 0x0FD
    | some e, some e' =>
      if e ≠ e' then tokenHalt s x 0 0x0F2
      else
        let zs := (p.2.2.zip q.2.2).map fun (a, c) => if sub then (a + 2 ^ 128 - c) % 2 ^ 128 else (a + c) % 2 ^ 128
        emit s x b [.data (packBits 128 zs ++ tailBytes 0x1C e)]

/-- A logic or shift instruction: what it makes of one lane's bits, with its counts (R402). -/
def logic (b : Blk) (op n : Nat) (f : List Nat → Nat × List Nat) (s : State) : Result :=
  laneOp b op (List.replicate n (eType b)) false (eType b) (fun _ xs => f xs) s

/-- The shift count of a lane: max(0, y) in the operand's type (R402). -/
def shiftCount (t y : Nat) : Nat := if isSigned t then (sgn (elemBits t) y).toNat else y

/-- A compare (R403): a BOOL token. -/
def compare (b : Blk) (op : Nat) (f : Val → Val → Bool) (s : State) : Result :=
  let t := eType b
  laneOp b op [t, t] false 0x1E
    (fun _ xs => (if f (valOf t (xs.getD 0 0)) (valOf t (xs.getD 1 0)) then 1 else 0, noCount)) s

end Sys2Proof.Machine
end

