-- ==== Sys2Proof/Machine/Flow.lean ====
section
/-! DEFINITION. Stationary loads, SWAP, the router operators, marks from counts, and the utilities (R408 to R411, R414,
R420, R426). -/

namespace Sys2Proof.Machine

/-! ### Utilities (R426) -/

/-- An element passes its item on. -/
def passFire (b : Blk) (x : Site) (items : List Item) (s : State) : State := emit s x b items

/-- NOP. -/
def execElemNop (b : Blk) (s : State) : Result := reactAll b 0x001 false (passFire b) s

/-- COPY. -/
def execCopy (b : Blk) (s : State) : Result := reactAll b 0x004 false (passFire b) s

/-- SINK: items and marks are consumed, nothing leaves. -/
def execSink (b : Blk) (s : State) : Result :=
  elemAct b (react b (slotsOf 0x003 (bMod b)) false (fun _ => false) noBefore fun _ _ s => s) s

/-- Items leave towards target 0, and towards target 1 unless it is a ctl slot, which is for DONE (R412, R426). -/
def emitData (s : State) (x : Site) (b : Blk) (items : List Item) : State :=
  let s1 := emit0 s x b items
  if b.t1.slot = 3 then s1 else emit1 s1 x b items

/-- DONE leaves through target 1 when it is a ctl slot (R412, R419, R426). -/
def emitDone (s : State) (x : Site) (b : Blk) (i : Nat) : State :=
  if b.t1.slot = 3 then emit1 s x b [doneToken i] else s

/-- The token of a CONST: the immediate in every lane, or the active stationary vector (R426). -/
def constToken (b : Blk) (x : Site) (s : State) : Item :=
  let t := eType b
  if (bMod b).testBit 24 then token64 t ((statLanes s x.c (physAt s x)).map fun v => v % 2 ^ elemBits t)
  else .data (encodeToken t 0 [] (List.replicate 64 (Val.ofInt (sgn 12 (bMod b))))).1

/-- CONST. -/
def execConst (b : Blk) (s : State) : Result :=
  reactAll b 0x002 false (fun x items s =>
    let s1 := emitData s x b [constToken b x s]
    match items with
    | .ctl w :: _ => if ctlKind w = 0 then emitDone s1 x b (ctlOrd w) else s1
    | _ => s1) s

/-! ### Stationary registers (R408, R409) -/

/-- SLD: a whole token into the loading vector of the element that holds instruction TIDX. -/
def execSld (b : Blk) (s : State) : Result :=
  elemAct b (react b (slotsOf 0x1C0 (bMod b)) false (fun _ => false) noBefore fun x items s =>
    let e := physAt s ⟨x.c, bitsOf (bMod b) 6 0, x.sh⟩
    s.write (loadTarget s x.c e) (packBits 32 (tokenFields (eType b) (itemBytes (items.headD (.data [])))))) s

/-- An item of slot a passes: a mark with its action, a token as it is. -/
def passItem (b : Blk) (x : Site) (slot : Nat) (i : Item) (s : State) : State :=
  match asMark i with
  | some w => passMark b x slot w s
  | none => emit (pop s x slot) x b [i]

/-- SWAP: a SWAP mark for each ctl token, ahead of what stands on a. -/
def swapAct (b : Blk) (x : Site) (s : State) : State :=
  if (head? s x 3).isSome then withHead x 3 (askMark b x 5) s
  else withHead x 0 (passItem b x 0) s

/-- SWAP (R409). -/
def execSwap (b : Blk) (s : State) : Result := elemAct b (swapAct b) s

/-! ### Router operators (R410, R411) -/

/-- STEER (R410): lane 0 of b sends a's token to target 0 or 1; a mark goes to both. -/
def execSteer (b : Blk) (s : State) : Result :=
  reactAll b 0x200 false (fun x items s =>
    if lane0 (items.getD 1 (.data [])) then emit0 s x b (items.take 1) else emit1 s x b (items.take 1)) s

/-- MERGE with a mark at c: it waits for the marks of a and b, which must be of the same KIND and LEVEL (R410). -/
def mergeMarks (b : Blk) (x : Site) (w : Word) (s : State) : State :=
  let same := fun (i : Item) => match asMark i with
    | some v => ctlKind v == ctlKind w && ctlLevel v == ctlLevel w
    | none => false
  let isM := fun (i : Item) => (asMark i).isSome
  match head? s x 0, head? s x 1 with
  | some i, some j =>
    if same i && same j then
      if !(markReady s x false w) then s else markAction (emit (popAll s x [0, 1, 2]) x b [.ctl w]) x false w
    else gridHalt s x (if isM i then 0 else if isM j then 1 else 2) 0x0B0
  | some i, none => if same i then noteWait s x [2] else gridHalt s x (if isM i then 0 else 2) 0x0B0
  | none, some j => if same j then noteWait s x [2] else gridHalt s x (if isM j then 1 else 2) 0x0B0
  | none, none => noteWait s x [2]

/-- MERGE: one token of c, then one of a or b as it says (R410). -/
def mergeAct (b : Blk) (x : Site) (s : State) : State :=
  if (head? s x 2).isNone then noteWait s x [0, 1]
  else withHead x 2 (fun c s =>
    match asMark c with
    | some w => mergeMarks b x w s
    | none =>
      let n := if lane0 c then 0 else 1
      match head? s x n with
      | none => noteWait s x [2]
      | some _ => withHead x n (fun i s =>
          if (asMark i).isSome then gridHalt s x n 0x0B0
          else emit (popAll s x [2, n]) x b [i]) s) s

/-- MERGE (R410). -/
def execMerge (b : Blk) (s : State) : Result := elemAct b (mergeAct b) s

/-- One pass through CARRY or INVAR: an iteration of the hand is counted, GRID.12 above 2^32 − 1 (R411). -/
def loopPass (b : Blk) (x : Site) (slot : Nat) (i : Item) (s : State) : State :=
  let n := (s.elem x).cnt + 1
  if 2 ^ 32 ≤ n then tokenHalt s x slot 0x0BC
  else emit (s.modElem x fun e => { e with cnt := n, phase := 1 }) x b [i]

/-- CARRY (R411). -/
def carryAct (b : Blk) (x : Site) (s : State) : State :=
  let e := s.elem x
  let isM := fun (n : Nat) => match head? s x n with | some i => (asMark i).isSome | none => false
  if isM 1 then gridHalt s x 1 0x0B7
  else if isM 2 then gridHalt s x 2 0x0B7
  else if e.phase = 0 then
    if (head? s x 1).isSome then gridHalt s x 1 0x0B7
    else withHead x 0 (fun i s =>
      match asMark i with
      | some w => passMark b x 0 w s
      | none => loopPass b x 0 i (pop s x 0)) s
  else if (head? s x 2).isNone then noteWait s x [1]
  else withHead x 2 (fun c s =>
    if lane0 c then
      if (head? s x 1).isNone then noteWait s x [2]
      else withHead x 1 (fun i s => loopPass b x 1 i (popAll s x [2, 1])) s
    else (pop s x 2).modElem x fun e => { e with phase := 0 }) s

/-- CARRY (R411). -/
def execCarry (b : Blk) (s : State) : Result := elemAct b (carryAct b) s

/-- INVAR (R411). -/
def invarAct (b : Blk) (x : Site) (s : State) : State :=
  let e := s.elem x
  let markC := match head? s x 2 with | some i => (asMark i).isSome | none => false
  if markC then gridHalt s x 2 0x0B7
  else if e.phase = 0 then
    withHead x 0 (fun i s =>
      match asMark i with
      | some w => passMark b x 0 w s
      | none => loopPass b x 0 i ((pop s x 0).modElem x fun e => { e with held := itemBytes i })) s
  else withHead x 2 (fun c s =>
    if lane0 c then loopPass b x 2 (mkItem (eType b) e.held) (pop s x 2)
    else (pop s x 2).modElem x fun e => { e with phase := 0, held := [] }) s

/-- INVAR (R411). -/
def execInvar (b : Blk) (s : State) : Result := elemAct b (invarAct b) s

/-! ### Marks (R414, R420) -/

/-- An item ends a dimension of level L or more, a tile or a stream (R414). -/
def endsLevel (l : Nat) (i : Item) : Bool :=
  match asMark i with
  | none => false
  | some w => ctlKind w == 2 || ctlKind w == 3 || ctlKind w == 4 || (ctlKind w == 6 && decide (l ≤ ctlLevel w))

/-- TSTM: a data token is held until the item after it is there; then it leaves with the flag (R414). -/
def tstmAct (b : Blk) (x : Site) (s : State) : State :=
  let m := bMod b
  let e := s.elem x
  if e.phase = 1 then
    withHead x 0 (fun i s =>
      let s1 := s.modElem x fun e => { e with phase := 0, held := [] }
      emit1 (emit0 s1 x b [mkItem (eType b) e.held]) x b [boolToken (endsLevel (bitsOf m 1 0) i)]) s
  else withHead x 0 (fun i s =>
    match asMark i with
    | none => (pop s x 0).modElem x fun e => { e with phase := 1, held := itemBytes i }
    | some w =>
      if ctlKind w = 6 then
        let s1 := pop s x 0
        if m.testBit 2 then s1 else emit0 s1 x b [.ctl w]
      else passMark b x 0 w s) s

/-- TSTM (R414). -/
def execTstm (b : Blk) (s : State) : Result := elemAct b (tstmAct b) s

/-- EOT and EOS: a's items pass; a mark after every N data tokens, or for each ctl token (R420). -/
def markEvery (b : Blk) (kind : Nat) (x : Site) (s : State) : State :=
  let n := bitsOf (bMod b) 11 0
  if (head? s x 0).isSome then
    withHead x 0 (fun i s =>
      match asMark i with
      | some w => passMark b x 0 w s
      | none =>
        let s1 := emit (pop s x 0) x b [i]
        let c := (s1.elem x).cnt + 1
        if n = 0 then s1
        else if c < n then s1.modElem x fun e => { e with cnt := c }
        else emit (s1.modElem x fun e => { e with cnt := 0 }) x b [markItem kind]) s
  else if n = 0 then withHead x 3 (askMark b x kind) s
  else s

/-- EOT (R420). -/
def execEot (b : Blk) (s : State) : Result := elemAct b (markEvery b 2) s
/-- EOS (R420). -/
def execEos (b : Blk) (s : State) : Result := elemAct b (markEvery b 3) s

end Sys2Proof.Machine
end

