-- ==== Sys2Proof/Machine/Ports.lean ====
section
/-! DEFINITION. PIN and POUT: ports, streams, south ports, and the marks of window slots (R398, R417, R418). -/

namespace Sys2Proof.Machine

/-- CPORT of a PIN or POUT (R417). -/
def cport (b : Blk) : Nat := bitsOf (bMod b) 2 0
/-- APORT of a PIN or POUT. -/
def aportOf (b : Blk) : Nat := bitsOf (bMod b) 8 3

/-- The queue of items a PIN takes from, when it serves no window: a stream's channel port, the matrix or meld output. -/
def pinChan (b : Blk) : Option Nat :=
  match aportOf b with
  | 0x3F => some (cport b)
  | 0x3A => some 18
  | 0x3C => some 20
  | _ => none

/-- The queue of items of a POUT that serves no window: a stream's channel port, matrix A or B, the meld input. -/
def poutChan (b : Blk) : Option Nat :=
  match aportOf b with
  | 0x3F => some (8 + cport b)
  | 0x38 => some 16
  | 0x39 => some 17
  | 0x3B => some 19
  | _ => none

/-- A port instruction waits for nothing. -/
def portIdle (s : State) (x : Site) : State := s.modElem x fun e => { e with since := none }

/-- The firing in progress on a core is of an actor that owns a port (R398). -/
def ownsPort (s : State) (c p : Nat) : Bool := (portRecOf s c (s.core c).actorNo p).isSome

/-- The ordinal of a PIN's link advances by the items taken (R459). -/
def countIn (s : State) (x : Site) (n : Nat) : State :=
  s.modElem x fun e => { e with ords := NMap.put e.ords 0 (NMap.getD 0 e.ords 0 + n), since := none, blocked := none }

/-- A PIN lets go of a mark: what it waits for from then on is new (R417). -/
def freshWait (s : State) (x : Site) : State := s.modElem x fun e => { e with since := none, blocked := none }

/-- A PIN at a channel or south port takes the item at the head of its queue. -/
def pinTake (b : Blk) (n : Nat) (x : Site) (s : State) : State :=
  match s.chan x.c n with
  | [] => waitsNow s x
  | i :: rest =>
    if itemBad i then gridHalt s x 0 0x0B1
    else match asMark i with
      | none => emit (countIn (s.setChan x.c n rest) x 1) x b [i]
      | some w =>
        if markReady s x false w then markAction (emit (freshWait (s.setChan x.c n rest) x) x b [i]) x false w else s

/-- A PIN reads the next port token of its window: its vector tokens, then its marks, are on their way; the token passes
the monitor (R124, R417, R418). -/
def pinRead (b : Blk) (x : Site) (d : WinDesc) (cnt : Nat) (s : State) : State :=
  let c := x.c
  let a := (s.core c).actorNo
  let p := aportOf b
  let w := d.rd.toNat + cnt
  match portBreak (s.core c) a p with
  | some br => hitBreak s c br p (arcOf s c a p)
  | none =>
    let key := winBase c + d.slotAt w
    match s.ueAt key d.tsize with
    | some u => s.ueHalt c u
    | none =>
      let s1 := s.correct key d.tsize
      let v := portVec (eType b) d.tsize
      let toks := (chunks v (d.tsize / v) (s1.read key d.tsize)).map (mkItem (eType b))
      let s2 := countIn (countToken s1 c a p) x toks.length
      let ms := (NMap.getD [] d.marks w).map fun m => (m.toNat, 0)
      emit (s2.modElem x fun e => { e with items := ms }) x b toks

/-- The plane of a site may take port tokens: it has no root controller, or a go-ahead of the firing has reached it
(R350, R455). -/
def planeGone (g : Grid) (sh : Bool) : Bool := (rootsOf (planeOf g sh)).isEmpty || (if sh then g.goSh else g.goAct)

/-- A PIN of a port (R398, R417, R418). -/
def pinPort (b : Blk) (x : Site) (s : State) : State :=
  let c := x.c
  let k := s.core c
  let p := aportOf b
  if !(ownsPort s c p) || !(planeGone k.grid x.sh) then portIdle s x
  else match portDesc s c k.actorNo p with
    | none => if k.infire then gridHalt s x 0 0x0B5 else portIdle s x
    | some i =>
      let d := k.desc i
      let cnt := if k.infire then (k.port k.actorNo p).cnt else 0
      if k.infire && decide (cnt < d.occ) && decide (cnt < curRate s c p) then pinRead b x d cnt s
      else if d.drain && decide (d.occ ≤ cnt) && !(s.elem x).drained then
        emit (s.modElem x fun e => { e with drained := true, since := none, blocked := none }) x b [markItem 4]
      else if k.infire && decide (cnt < curRate s c p) then waitsNow s x
      else portIdle s x

/-- PIN: marks that follow the last port token first, then the next token; none while a drain-gated swap has stopped the
entry ports (R352). -/
def pinAct (b : Blk) (x : Site) (s : State) : State :=
  match (s.elem x).items with
  | (m, _) :: rest =>
    let w : Word := BitVec.ofNat 64 m
    if !(markReady s x false w) then s
    else markAction (emit (s.modElem x fun e => { e with items := rest, since := none, blocked := none }) x b [.ctl w]) x false w
  | [] =>
    if (s.core x.c).grid.draining && !x.sh then s
    else match pinChan b with
      | some n => pinTake b n x s
      | none => pinPort b x s

/-- PIN (R417). -/
def execPin (b : Blk) (s : State) : Result := elemAct b (pinAct b) s

/-! ### Marks of a token that has left (R418) -/

/-- A message's marks with one more. -/
def addMark (n : Nat) (w : Word) (m : PtrMsg) : PtrMsg := if m.wrptr = n + 1 then { m with marks := m.marks ++ [w] } else m

/-- A mark joins the slot of token n of an input window, if the token is still held there; an EOT ends the tile of the window's
conversion (R259). -/
def windowMark (s : State) (c i n : Nat) (w : Word) : State :=
  s.modCore c fun k =>
    let d := k.desc i
    if d.valid && !d.isOut && decide (d.rd.toNat ≤ n) then
      { k with descs := NMap.put k.descs i { d with marks := NMap.put d.marks n (NMap.getD [] d.marks n ++ [w]) }
               convs := if ctlKind w = 2 then NMap.del k.convs i else k.convs }
    else k

/-- The input windows that a deck stream of a context fills (R28, R50). -/
def streamWindows (s : State) (key : Nat) : List (Nat × Nat) :=
  (s.cores.map fun (c, k) =>
    if streamKey s c (key % 0x10000) = key then
      (k.descs.filter fun (_, d) => d.valid && !d.isOut && (d.pkind == 1 || d.pkind == 3) && d.stream == key % 0x10000).map
        fun (i, _) => (c, i)
    else []).flatten

/-- The ante tokens that a stream's sender counts with. -/
def senderAnte (s : State) (st : DeckStream) : Nat :=
  if st.host then 0
  else if st.mem then (NMap.getD ({} : MemActor) s.actors st.core).ante else ((s.core st.core).desc st.desc).ante

/-- The pointer that a stream's message gives an input window, none where another member of a gang takes it (R466). -/
def arrivePtr (s : State) (st : DeckStream) (c i wrptr : Nat) : Option Nat :=
  let y := shareAt s c i
  let w := arcAnte s c i + (wrptr - senderAnte s st)
  if y.size = 1 then some w else if y.mine (w - 1) then some (y.place (w - 1) + 1) else none

/-- A mark joins the last token sent through an output descriptor: on its way, or in its window slot. -/
def markOn (c a p : Nat) (w : Word) (s : State) (i : Nat) : State :=
  let k := s.core c
  let d := k.desc i
  let n := d.wr.toNat - 1
  let back := s.modCore c fun k => k.setPort a p { k.port a p with ord := (k.port a p).ord - 1 }
  if (shareOf s c a p).size * (shareAt s (peerCore c d) d.pdesc).size ≠ 1 ∧ d.pkind = 0 ∧ outPlace back c a p i 0 = none then s
  else match d.pkind with
  | 0 =>
    if k.outMsgs.any fun m => m.desc == i && m.wrptr == n + 1 && !m.drain then
      s.modCore c fun k => { k with outMsgs := k.outMsgs.map fun m => if m.desc = i && !m.drain then addMark n w m else m }
    else windowMark s (c / 192 * 192 + d.pcore) d.pdesc n w
  | 2 =>
    let ch := NMap.getD {} s.links.channels d.stream
    { s with links := { s.links with
        channels := NMap.put s.links.channels d.stream { ch with sent := ch.sent.map (addMark n w) } } }
  | _ =>
    let key := streamKey s c d.stream
    let st : DeckStream := NMap.getD {} s.streams key
    if st.tokens.any fun m => m.wrptr == n + 1 && !m.drain then
      { s with streams := NMap.put s.streams key { st with tokens := st.tokens.map (addMark n w) } }
    else (streamWindows s key).foldl (fun s y =>
      match arrivePtr s st y.1 y.2 (n + 1) with
      | none => s
      | some q => windowMark s y.1 y.2 (q - 1) w) s

/-- The place of a mark in the order of R418: EOD, EOT, EOS. -/
def markRank (w : Word) : Nat :=
  match ctlKind w with
  | 6 => 0
  | 2 => 1
  | _ => 2

/-- EOD, EOT or EOS at a POUT of a port: recorded with the last port token of the firing, or GRID.4 (R418). -/
def poutMark (b : Blk) (x : Site) (w : Word) (s : State) : State :=
  let k := s.core x.c
  let e := s.elem x
  let p := aportOf b
  let none0 := !k.infire || (k.port k.actorNo p).cnt == 0
  if none0 || !e.held.isEmpty || e.index.any (fun r => decide (markRank w ≤ r)) then gridHalt s x 0 0x0B4
  else if !(markReady s x false w) then s
  else
    let s1 := (pop s x 0).modElem x fun e => { e with index := markRank w :: e.index }
    markAction ((portChain s1 x.c k.actorNo p).foldl (markOn x.c k.actorNo p w) s1) x false w

/-- A vector token at a POUT of a port: gathered, and the port token produced when it is whole (R417). -/
def poutToken (b : Blk) (x : Site) (i : Item) (s : State) : State :=
  let c := x.c
  let k := s.core c
  let p := aportOf b
  if !k.infire || !(ownsPort s c p) then portIdle s x
  else match portDesc s c k.actorNo p with
    | none => gridHalt s x 0 0x0B5
    | some j =>
      let all := (s.elem x).held ++ itemBytes i
      let n := (k.desc j).tsize
      if all.length < n then portIdle ((pop s x 0).modElem x fun e => { e with held := all }) x
      else match portBreak k k.actorNo p with
        | some br => hitBreak s c br p (arcOf s c k.actorNo p)
        | none =>
          let s1 := (pop s x 0).modElem x fun e => { e with held := [], index := [], since := none }
          produce s1 c p (all.take n) []

/-- A POUT with nothing on its link waits for a token while a firing may still send one: of its port a firing of the owner short
of its count, elsewhere any firing (R398, R417). -/
def poutEmpty (b : Blk) (x : Site) (s : State) : State :=
  let k := s.core x.c
  let p := aportOf b
  let due := (poutChan b).isSome || (ownsPort s x.c p && decide ((k.port k.actorNo p).cnt < curRate s x.c p))
  if k.infire && due && planeGone k.grid x.sh then waitsNow s x else portIdle s x

/-- POUT (R417, R418). -/
def poutAct (b : Blk) (x : Site) (s : State) : State :=
  if (head? s x 0).isNone then poutEmpty b x s
  else withHead x 0 (fun i s =>
    match asMark i, poutChan b with
    | some w, ch =>
      let absorb := ctlKind w == 4 || ctlKind w == 5 || aportOf b == 0x3F
      match absorb, ch with
      | true, _ => if markReady s x false w then markAction (pop s x 0) x false w else s
      | false, some n =>
        if markReady s x false w then markAction ((pop s x 0).setChan x.c n (s.chan x.c n ++ [i])) x false w else s
      | false, none => poutMark b x w s
    | none, some n =>
      if aportOf b = 0x3F ∧ s.chan x.c n ≠ [] then waitsNow s x
      else portIdle ((pop s x 0).setChan x.c n (s.chan x.c n ++ [i])) x
    | none, none => poutToken b x i s) s

/-- POUT (R417). -/
def execPout (b : Blk) (s : State) : Result := elemAct b (poutAct b) s

end Sys2Proof.Machine
end

