-- ==== Sys2Proof/Machine/Rates.lean ====
section
/-! DEFINITION. Repetition vectors and periods (R115, R116). -/

namespace Sys2Proof.Machine

/-- The total count on a port of an actor over one phase cycle in a rate set (R116). -/
def cycleCount (img : List Byte) (a set p : Nat) : Nat :=
  (List.range (actorRec img a).nphase).foldl (fun n k => n + imgRate img a set k p) 0

/-- What an arc balances (R116): the producer with its total, the consumer with its total. -/
structure Balance where
  src : Nat
  out : Nat
  dst : Nat
  inp : Nat
  deriving DecidableEq, Repr

/-- The balance equations of a rate set, one for each arc between numbered ports; mode ports have no counts (R134). -/
def balances (img : List Byte) (set : Nat) : List Balance :=
  ((arcRecs img).filter fun r => decide ((portRec img r.src).pnum < 32)).map fun r =>
    let p := portRec img r.src
    let q := portRec img r.dst
    ⟨p.actor, cycleCount img p.actor set p.pnum, q.actor, cycleCount img q.actor set q.pnum⟩

/-- A ratio in lowest terms. -/
def ratio (n d : Nat) : Nat × Nat := (n / max (Nat.gcd n d) 1, d / max (Nat.gcd n d) 1)

/-- An actor joined by an arc to one whose ratio is known gets its own. -/
def spread (bs : List Balance) (m : NMap (Nat × Nat)) : NMap (Nat × Nat) :=
  bs.foldl (fun m b =>
    if b.out = 0 ∨ b.inp = 0 then m
    else match NMap.find m b.src, NMap.find m b.dst with
      | some (n, d), none => NMap.put m b.dst (ratio (n * b.out) (d * b.inp))
      | none, some (n, d) => NMap.put m b.src (ratio (n * b.inp) (d * b.out))
      | _, _ => m) m

/-- A function applied a number of times. -/
def times {α : Type} (f : α → α) : Nat → α → α
  | 0, x => x
  | n + 1, x => times f n (f x)

/-- The smallest positive integers in the ratios of a component. -/
def wholes (m : NMap (Nat × Nat)) : NMap Nat :=
  let l := m.foldl (fun l x => Nat.lcm l x.2.2) 1
  let ns := m.map fun (a, n, d) => (a, n * l / max d 1)
  let g := ns.foldl (fun g x => Nat.gcd g x.2) 0
  ns.map fun (a, n) => (a, n / max g 1)

/-- The components of the actors joined by arcs, each in its smallest integers. -/
def components (bs : List Balance) (n : Nat) : Nat → NMap Nat → NMap Nat
  | 0, q => q
  | fuel + 1, q =>
    match (List.range n).find? fun a => (NMap.find q a).isNone with
    | none => q
    | some a =>
      let one := wholes (times (spread bs) n [(a, 1, 1)])
      components bs n fuel (one.foldl (fun q x => NMap.put q x.1 x.2) q)

/-- The repetition vector of a rate set, by actor record; none where a balance equation fails (R116). -/
def repetition (img : List Byte) (set : Nat) : Option (List Nat) :=
  let bs := balances img set
  let n := nActors img
  let q := components bs n n []
  let at' := fun (a : Nat) => NMap.getD 1 q a
  if bs.all fun b => at' b.src * b.out == at' b.dst * b.inp then some ((List.range n).map at') else none

/-- The firings of an actor record in one period of a rate set. -/
def periodFirings (img : List Byte) (set a : Nat) : Nat :=
  ((repetition img set).getD []).getD a 1 * (actorRec img a).nphase

end Sys2Proof.Machine
end

