-- ==== Sys2Proof/Machine/Queue.lean ====
section
/-! DEFINITION. The queued accesses at issue and the CP's waits for them (R331 to R336). -/

namespace Sys2Proof.Machine

/-- What a queued access is asked to do. -/
structure Request where
  op : QOp
  bytes : Nat
  x : Word
  data : Nat
  cmp : Nat
  q : Nat
  ann : Ann
  scope : Scope
  deriving DecidableEq, Repr

/-- A queued operation is store-type: STQ and the atomics (R331, R333). -/
def qopStores : QOp → Bool
  | .ldq => false
  | _ => true

/-- A queued operation is an atomic. -/
def qopAtomic : QOp → Bool
  | .ldq => false
  | .stq => false
  | _ => true

/-- What a request does at its home. -/
def accOf (op : QOp) (bytes : Nat) (md : Mode) (ann : Ann) (sc : Scope) : Acc where
  ld := op != .stq
  st := op != .ldq
  atomic := (qopAtomic op)
  bytes := bytes
  mode := md
  fwide := op == .aaddf && bytes == 8
  ann := if ann = .rlx then none else some sc

/-- The LINK fault of a translated access, the lower page's first (R67). -/
def linkFault (s : State) (va n : Nat) (r : Span) : Option Nat :=
  let part := fun (pa k : Nat) => if isLocal s pa then none else remoteFault s pa k
  let n1 := min n (nextPage va - va)
  match r.out with
  | .fault _ => none
  | q => match part q.addr n1 with
    | some f => some f
    | none => if n1 = n then none else part r.pa2 (n - n1)

/-- The translation of a request in U or S mode, as its queue's hardware has it at issue. -/
def issueSpan (s : State) (r : Request) : Option Span :=
  let a := accOf r.op r.bytes s.cur.mode r.ann r.scope
  (s.ctxOf s.turn).map fun x => translateSpan s.cur.tlb s x r.x.toNat r.bytes a.ld a.st s.cur.mode

/-- The checks of R332 in their order; those of R67 on an access that translation leads to another package. -/
def issueFault (s : State) (r : Request) : Option Nat :=
  let md := s.cur.mode
  let a := r.x.toNat
  if (s.cur.entry r.q).busy then some 0x015
  else if decide (md ≠ .m) && fld r.x 63 48 != 0 then some 0x03D
  else if decide (md = .m) && fld r.x 63 57 != 0 then some 0x025
  else if (qopAtomic r.op || r.ann != .rlx) && a % r.bytes != 0 then some 0x021
  else if decide (md = .m) then issueFaultM s s.turn (accOf r.op r.bytes md r.ann r.scope) a
  else (issueSpan s r).bind (linkFault s a r.bytes)

/-- An entry with its translation. -/
def QEntry.led (e : QEntry) (r : Span) : QEntry :=
  match r.out with
  | .ok pa => { e with dest := .phys pa, pa2 := r.pa2, parks := [] }
  | .parked pa _ => { e with dest := .parked pa, pa2 := r.pa2, parks := r.parks }
  | .fault _ => e

/-- A translation leads to another package. -/
def Span.away (s : State) (va n : Nat) (r : Span) : Bool :=
  match r.out with
  | .fault _ => false
  | q => !(isLocal s q.addr) || (decide (nextPage va < va + n) && !(isLocal s r.pa2))

/-- The entry a request takes (R192, R332). -/
def newEntry (s : State) (r : Request) : QEntry where
  busy := true
  op := .access r.op
  storeType := qopStores r.op
  seq := s.cur.issueSeq
  addr := r.x.toNat
  bytes := r.bytes
  data := r.data
  cmp := r.cmp
  ann := r.ann
  scope := r.scope
  mode := s.cur.mode
  dest := if s.cur.mode = .m then .phys r.x.toNat else .none
  issuedAt := s.clock s.turn

/-- An entry taken by the moving CP. -/
def takeEntry (s : State) (q : Nat) (e : QEntry) : State :=
  s.modCur fun k => { k.setEntry q e with issueSeq := k.issueSeq + 1 }

/-- A queued access issues (R331, R332); an access to another package has its address from then on, since it has been checked
(R67). -/
def issue (r : Request) (s : State) : Result :=
  afterAcquire s fun s =>
    match issueFault s r with
    | some f => .next (s.trap f r.x.toNat)
    | none =>
      let e := newEntry s r
      match (if s.cur.mode = .m then none else issueSpan s r) with
      | some t => finish0 (takeEntry s r.q (if t.away s r.x.toNat r.bytes then e.led t else e))
      | none => finish0 (takeEntry s r.q e)

/-- LDQ (R331). -/
def execLdq (a : Reg) (q : QNum) (n : Ann) (sc : Scope) (w : Width) (s : State) : Result :=
  issue ⟨.ldq, widthBytes w, s.reg a, 0, 0, q.toNat, n, sc⟩ s

/-- STQ (R331): it carries y[8n − 1 : 0]. -/
def execStq (a b : Reg) (q : QNum) (n : Ann) (sc : Scope) (w : Width) (s : State) : Result :=
  issue ⟨.stq, widthBytes w, s.reg a, (s.reg b).toNat % 2 ^ (8 * widthBytes w), 0, q.toNat, n, sc⟩ s

/-- An atomic (R333): v and c are the low w bits of their registers. -/
def atomicIssue (op : QOp) (a b d : Reg) (q : QNum) (n : Ann) (sc : Scope) (w : AWidth) (s : State) : Result :=
  let m := 2 ^ (8 * awidthBytes w)
  issue ⟨op, awidthBytes w, s.reg a, (s.reg b).toNat % m, (s.reg d).toNat % m, q.toNat, n, sc⟩ s

/-- AADD (R333). -/
def execAadd (a b : Reg) (q : QNum) (n : Ann) (sc : Scope) (w : AWidth) (s : State) : Result :=
  atomicIssue .aadd a b 0 q n sc w s
/-- AMIN (R333). -/
def execAmin (a b : Reg) (q : QNum) (n : Ann) (sc : Scope) (w : AWidth) (s : State) : Result :=
  atomicIssue .amin a b 0 q n sc w s
/-- AMAX (R333). -/
def execAmax (a b : Reg) (q : QNum) (n : Ann) (sc : Scope) (w : AWidth) (s : State) : Result :=
  atomicIssue .amax a b 0 q n sc w s
/-- AMINU (R333). -/
def execAminu (a b : Reg) (q : QNum) (n : Ann) (sc : Scope) (w : AWidth) (s : State) : Result :=
  atomicIssue .aminu a b 0 q n sc w s
/-- AMAXU (R333). -/
def execAmaxu (a b : Reg) (q : QNum) (n : Ann) (sc : Scope) (w : AWidth) (s : State) : Result :=
  atomicIssue .amaxu a b 0 q n sc w s
/-- AAND (R333). -/
def execAand (a b : Reg) (q : QNum) (n : Ann) (sc : Scope) (w : AWidth) (s : State) : Result :=
  atomicIssue .aand a b 0 q n sc w s
/-- AOR (R333). -/
def execAor (a b : Reg) (q : QNum) (n : Ann) (sc : Scope) (w : AWidth) (s : State) : Result :=
  atomicIssue .aor a b 0 q n sc w s
/-- AXOR (R333). -/
def execAxor (a b : Reg) (q : QNum) (n : Ann) (sc : Scope) (w : AWidth) (s : State) : Result :=
  atomicIssue .axor a b 0 q n sc w s
/-- ASWP (R333). -/
def execAswp (a b : Reg) (q : QNum) (n : Ann) (sc : Scope) (w : AWidth) (s : State) : Result :=
  atomicIssue .aswp a b 0 q n sc w s
/-- ACAS (R333): the compare value is that of rd. -/
def execAcas (d a b : Reg) (q : QNum) (n : Ann) (sc : Scope) (w : AWidth) (s : State) : Result :=
  atomicIssue .acas a b d q n sc w s
/-- ASNAP (R333). -/
def execAsnap (a : Reg) (q : QNum) (n : Ann) (sc : Scope) (w : AWidth) (s : State) : Result :=
  atomicIssue .asnap a 0 0 q n sc w s
/-- AADDF (R333). -/
def execAaddf (a b : Reg) (q : QNum) (n : Ann) (sc : Scope) (w : AWidth) (s : State) : Result :=
  atomicIssue .aaddf a b 0 q n sc w s

/-- WAITQ (R334) for an event: CPX.6 and, for .src, CPX.13; then the wait; then the cause, acknowledged, or zero. -/
def waitq (src : Bool) (d : Reg) (q : QNum) (s : State) : Result :=
  let e := s.cur.entry q.toNat
  if !e.busy then .next (s.trap 0x016 q.toNat)
  else if src && !e.storeType then .next (s.trap 0x01D q.toNat)
  else if e.done && e.fault != 0 then
    finish (s.modCur fun k => k.setEntry q.toNat { e with ack := true }) d (BitVec.ofNat 64 e.fault)
  else if e.done || (src && e.released) then finish s d 0
  else .next s.wait

/-- WAITQ.src (R334). -/
def execWaitqSrc (d : Reg) (q : QNum) (s : State) : Result := waitq true d q s
/-- WAITQ.vis (R334). -/
def execWaitqVis (d : Reg) (q : QNum) (s : State) : Result := waitq false d q s

/-- POPQ (R335): CPX.6, the wait for completion, CPX.7 for a fault not acknowledged; then the response, and the entry is
free. -/
def execPopq (d : Reg) (q : QNum) (s : State) : Result :=
  let e := s.cur.entry q.toNat
  if !e.busy then .next (s.trap 0x016 q.toNat)
  else if !e.done then .next s.wait
  else if e.fault != 0 && !e.ack then .next (s.trap 0x017 (q.toNat * 2 ^ 16 + e.fault))
  else
    finish (s.modCur fun k => k.setEntry q.toNat {}) d (if e.fault ≠ 0 then 0 else BitVec.ofNat 64 e.resp)

end Sys2Proof.Machine
end

