-- ==== Sys2Proof/Machine/Home.lean ====
section
/-! DEFINITION. Translation, the homes and the completion of queue entries: the events of R192 to R204, R226 to R228 and
R336. -/

namespace Sys2Proof.Machine

/-! ### Atomics (R333) -/

/-- What an atomic of w bits writes, from the old value, the operand and the compare value (R333). -/
def atomicNew (op : QOp) (w old v cmp : Nat) : Nat :=
  match op with
  | .aadd => (old + v) % 2 ^ w
  | .amin => if sgn w v < sgn w old then v else old
  | .amax => if sgn w old < sgn w v then v else old
  | .aminu => if v < old then v else old
  | .amaxu => if old < v then v else old
  | .aand => old &&& v
  | .aor => old ||| v
  | .axor => old ^^^ v
  | .aswp => v
  | .acas => if old = cmp then v else old
  | .asnap => 0
  | .aaddf =>
    let f := floatFmt 0x0C
    (encodeFloat f 0 0 ((decodeFloat f old).add 0 (decodeFloat f v))).1
  | .ldq => old
  | .stq => v

/-! ### One entry at its home -/

/-- The operation of an access entry. -/
def entryOp (e : QEntry) : Option QOp :=
  match e.op with
  | .access op => some op
  | _ => none

/-- The access of an entry at its home. -/
def entryAcc (e : QEntry) : Acc := accOf ((entryOp e).getD .ldq) e.bytes e.mode e.ann e.scope

/-- The bytes of an entry on its first page; all of them unless its virtual range crosses a page. -/
def firstPart (e : QEntry) : Nat := if crosses e then 4096 - e.addr % 4096 else e.bytes

/-- Two domain addresses lie in one package and one region of it (R191); of another package only the HBM4 can be reached. -/
def sameRegion (s : State) (a b : Nat) : Bool :=
  decide (a / 2 ^ 45 = b / 2 ^ 45) && (!(isLocal s a) || decide (regionOf s (a % 2 ^ 45) = regionOf s (b % 2 ^ 45)))

/-- The first fault of an access of n bytes at a domain address that, past its first n1 bytes, goes on at another
(R191, R193, R227); an access to another package has none here but CPM.4 and ATM.1 (R211). -/
def spanFault (s : State) (c : Nat) (a : Acc) (pa n1 pa2 : Nat) : Option Nat :=
  if n1 ≠ a.bytes ∧ sameRegion s pa pa2 = false then some 0x024
  else if !(isLocal s pa) then
    match a.ann with
    | none => none
    | some sc => if sc = .dom then none else some 0x041
  else if n1 = a.bytes then homeFault s c a (pa % 2 ^ 45)
  else
    leastFault [homeFault s c { a with bytes := n1 } (pa % 2 ^ 45), homeFault s c { a with bytes := a.bytes - n1 } (pa2 % 2 ^ 45),
      match regionOf s (pa % 2 ^ 45) with
      | .core _ .acc => some 0x02E
      | .core _ .cpreg => some 0x02E
      | _ => none]

/-- The memory key of a local address as a core of a card sees it. -/
def keyOf (s : State) (card pa : Nat) : Nat :=
  match regionOf s pa with
  | .replica => replicaBase card + (pa - 0x1F0000000000)
  | _ => pa

/-- Reading the two parts of an access. -/
def spanRead (s : State) (card pa n1 pa2 n : Nat) : List Byte :=
  localRead s card pa n1 ++ (if n1 = n then [] else localRead s card pa2 (n - n1))

/-- Where a store into stationary registers goes while a SWAP mark is in flight at the element: the vector that is active
(R190). -/
def statTarget (s : State) (pa : Nat) : Nat :=
  match regionOf s pa with
  | .core c .stat =>
    let off := pa % 2 ^ 24 - 0x300000
    if 256 ≤ off % 512 && swapInFlight (s.core c) (off / 512) then pa - 256 else pa
  | _ => pa

/-- The WRPTR of some input window of a core has changed between two states. -/
def wrptrMoved (k k1 : Core) : Bool := k1.descs.any fun (i, d) => !d.isOut && (k.desc i).wr != d.wr

/-- A store at a local address, with the wake of R343 when it changes the WRPTR of an input window. -/
def homeStore (s : State) (pa : Nat) (bs : List Byte) : State :=
  let s1 := localWrite s (statTarget s pa) bs
  match regionOf s pa with
  | .core c .desc => if wrptrMoved (s.core c) (s1.core c) then s1.modCore c Core.wake else s1
  | _ => s1

/-- Writing the two parts of an access. -/
def spanWrite (s : State) (pa n1 pa2 : Nat) (bs : List Byte) : State :=
  let s1 := homeStore s pa (bs.take n1)
  if bs.length ≤ n1 then s1 else homeStore s1 pa2 (bs.drop n1)

/-- An access performed at its home in one step (R207, R226): the response and the state after it. -/
def performAccess (s : State) (card : Nat) (op : QOp) (n data cmp pa n1 pa2 : Nat) : Nat × State :=
  let old := ofLe (spanRead s card pa n1 pa2 n)
  match op with
  | .ldq => (old, s)
  | .stq => (0, spanWrite s pa n1 pa2 (leBytes n data))
  | _ => (old, spanWrite s pa n1 pa2 (leBytes n (atomicNew op (8 * n) old data cmp)))

/-- The entry is done at its home, with a fault or a response, and completes in its turn (R192). -/
def arrive (s : State) (c q fault resp : Nat) : State :=
  s.modCore c fun k => k.setEntry q { k.entry q with performed := true, fault := fault, resp := resp }

/-- A notice of a fault to management, with the core it concerns. -/
def copyMgmt (s : State) (c cause detail : Nat) : State :=
  s.tellMgmt (s.graphNotice (s.core c).graph { cause := cause, core := coreName c, detail := detail })

/-- The kitty holds requests for the page of an address, whatever its size (R204). -/
def kittyHas (s : State) (pa : Nat) : Bool := s.kitty.any fun p => p.pa / 2 ^ p.sh == pa % 2 ^ 45 / 2 ^ p.sh

/-- The kitty holds the request of an entry or stream already. -/
def inKitty (s : State) (c q : Nat) : Bool := s.kitty.any fun p => p.core == c && p.q == q

/-- The graph time of a request's issuer: a core, or, from 2,304 on, a memory actor. -/
def retryClock (s : State) (c : Nat) : Nat :=
  if c < 12 * 192 then s.clock c
  else match NMap.find s.actors (c - 12 * 192) with
    | none => 0
    | some a => match s.graph? a.graph with
      | none => 0
      | some g => g.gtime

/-- The graph time before which a refused request is not sent again (R203). -/
def retryAt (s : State) (c q : Nat) : Nat :=
  if c < 12 * 192 then NMap.getD 0 (s.core c).retries q
  else match NMap.find s.actors (c - 12 * 192) with
    | none => 0
    | some a => a.retry

/-- That time set. -/
def setRetry (s : State) (c q t : Nat) : State :=
  if c < 12 * 192 then s.modCore c fun k => { k with retries := NMap.put k.retries q t }
  else match NMap.find s.actors (c - 12 * 192) with
    | none => s
    | some a => { s with actors := NMap.put s.actors (c - 12 * 192) { a with retry := t } }

/-- A request joins the kitty; the first for a page raises XLT.12, naming the core it came from (R203). -/
def joinKitty (s : State) (name va : Nat) (p : Parked) : State :=
  let s1 := { s with kitty := s.kitty ++ [p] }
  if kittyHas s p.pa then s1
  else
    let n : Notice := { cause := 0x03C, ctx := p.ctx, flags := 2, core := name, detail := va / 4096 * 4096 }
    (s1.notify p.ctx n).tellMgmt n

/-- A request of a context for a virtual address whose page, of 2^sh bytes, is at an address joins the kitty of the page's home
behind those there (R203). While its context's share is full it stays with its issuer, and is sent again after 1 µs of graph
time. The first for a page raises XLT.12. -/
def park (s : State) (c q va pa sh : Nat) (x : Nat) (msg : Option RemoteMsg) : State :=
  let lp := pa % 2 ^ 45
  let home := State.homeOf (lp / 2 ^ sh * 2 ^ sh)
  let here := s.kitty.filter fun p => p.home == home
  if msg = none ∧ retryClock s c < retryAt s c q then s
  else if 256 ≤ here.length ∨ 16 ≤ (here.filter fun p => p.ctx == x).length then
    if msg = none then setRetry s c q (retryClock s c + nanos 1000) else s
  else
    joinKitty s (coreName c) va { ctx := x, page := va / 4096, home := home, core := c, q := q, pa := lp, sh := sh, msg := msg }

/-- The size of the page of the requests in the kitty at an address. -/
def kittySize (s : State) (pa : Nat) : Nat :=
  ((s.kitty.find? fun p => p.pa / 2 ^ p.sh == pa % 2 ^ 45 / 2 ^ p.sh).map Parked.sh).getD 12

/-- The parts of an entry whose first byte is at an address: address and length. -/
def entryParts (e : QEntry) (pa : Nat) : List (Nat × Nat) :=
  if crosses e then [(pa, firstPart e), (e.pa2, e.bytes - firstPart e)] else [(pa, e.bytes)]

/-- Some part of one list and some part of another touch one aligned double. -/
def doublesMeet (xs ys : List (Nat × Nat)) : Bool :=
  xs.any fun (p, n) => ys.any fun (q, m) =>
    rangesMeet (p / 8 * 8) ((p % 8 + n + 7) / 8 * 8) (q / 8 * 8) ((q % 8 + m + 7) / 8 * 8)

/-- A core's request is on its way to another package. -/
def isAway (s : State) (c q : Nat) : Bool := s.links.outbox.any fun o => o.core == c && o.q == q

/-- A request leaves for another package, once. -/
def leave (s : State) (o : Away) : State :=
  if isAway s o.core o.q then s else { s with links := { s.links with outbox := s.links.outbox ++ [o] } }

/-- An earlier entry of those of a core, one that a test does not except, has an access to the same aligned double not yet performed
at its home, or not yet translated, so that it may be to the same (R210). -/
def earlierMeets (es : NMap QEntry) (q : Nat) (e : QEntry) (pa : Nat) (except : Nat → Bool) : Bool :=
  es.any fun (q', x) =>
    x.busy && !x.done && !x.performed && decide (x.seq < e.seq) && (entryOp x).isSome && decide (q' ≠ q) && !(except q') &&
      (match x.dest with
       | .none => true
       | .phys p => doublesMeet (entryParts x p) (entryParts e pa)
       | .parked p => doublesMeet (entryParts x p) (entryParts e pa))

/-- An earlier access of the core to the same aligned double holds an entry back (R210); requests already sent to another package
stay in order on their links (R70). -/
def doubleHeld (s : State) (c q : Nat) (e : QEntry) (pa : Nat) : Bool := earlierMeets (s.core c).entries q e pa (isAway s c)

/-- The kitty holds a request of a core for the page of 2^sh bytes at an address: those of one page are performed in arrival order
(R204). -/
def parkedThere (s : State) (c q pa sh : Nat) : Bool :=
  s.kitty.any fun p => p.core == c && p.q == q && p.pa / 2 ^ sh == pa % 2 ^ 45 / 2 ^ sh

/-- An earlier access of the core to the same aligned double keeps an entry from joining the kitty of a page: one that waits
elsewhere (R210). -/
def joinHeld (s : State) (c q : Nat) (e : QEntry) (pa : Nat) (page : Nat × Nat) : Bool :=
  earlierMeets (s.core c).entries q e pa fun q' => isAway s c q' || parkedThere s c q' page.1 page.2

/-- What comes of an access at its home: its cause, its response, the uncorrectable byte that stopped it, the state after it. -/
structure Answer where
  cause : Nat := 0
  resp : Nat := 0
  bad : Option Nat := none
  state : State

/-- An entry's access that no fault stops, at its home as a card sees it (R228, R274): an uncorrectable byte stops a load with its
own cause and an atomic with ATM.4; correctable errors are corrected. -/
def homeAnswer (s : State) (card : Nat) (e : QEntry) (pa : Nat) : Answer :=
  let n1 := firstPart e
  let op := (entryOp e).getD .ldq
  let lp := pa % 2 ^ 45
  let lp2 := e.pa2 % 2 ^ 45
  let key := keyOf s card lp
  let key2 := keyOf s card lp2
  let bad := match s.ueAt key n1 with
    | some x => some x
    | none => if n1 = e.bytes then none else s.ueAt key2 (e.bytes - n1)
  match bad, op with
  | some _, .stq => let r := performAccess s card op e.bytes e.data e.cmp lp n1 lp2; { state := r.2 }
  | some x, .ldq => { cause := State.ueCause x, bad := some x, state := s }
  | some x, _ => { cause := 0x044, bad := some x, state := s }
  | none, _ =>
    let s1 := if n1 = e.bytes then s.correct key n1 else (s.correct key n1).correct key2 (e.bytes - n1)
    let r := performAccess s1 card op e.bytes e.data e.cmp lp n1 lp2
    { resp := r.1, state := r.2 }

/-- An entry ends at its home with a fault of its own; a guarded drop, SCHED.3, goes to management as well (R181). -/
def entryFault (s : State) (c q : Nat) (e : QEntry) (f : Nat) : State :=
  if f = 0x143 then copyMgmt (arrive s c q f 0) c f e.addr else arrive s c q f 0

/-- A local access of an entry reaches its home: its faults (R193, R227), the stall of a stale replica (R61), or the access. -/
def reachHome (s : State) (c q : Nat) (e : QEntry) (pa : Nat) : State :=
  match spanFault s c (entryAcc e) pa (firstPart e) e.pa2 with
  | some f => entryFault s c q e f
  | none =>
    if decide (regionOf s (pa % 2 ^ 45) = .replica) && NMap.getD false s.deck.stale (c / 192) then s
    else
      let r := homeAnswer s (c / 192) e pa
      let s1 := arrive r.state c q r.cause r.resp
      match r.bad with
      | none => s1
      | some x => (if r.cause = 0x044 then copyMgmt s1 c 0x044 x else s1).ueHalt c x

/-- A request leaves for another package (R68): it is on its way until its response comes. -/
def sendRemote (s : State) (c q : Nat) (e : QEntry) : State :=
  match e.dest with
  | .phys pa => leave s { core := c, q := q, seq := e.seq % 2 ^ 32, since := s.clock c, pkg := pa / 2 ^ 45 }
  | .parked pa => leave s { core := c, q := q, seq := e.seq % 2 ^ 32, since := s.clock c, pkg := pa / 2 ^ 45 }
  | .none => s

/-- An entry's own release condition still holds it (R211). -/
def entryReleaseHeld (s : State) (c : Nat) (e : QEntry) : Bool :=
  (decide (e.ann = .rel) || decide (e.ann = .ar)) && releaseHeld s c e.scope e.seq true

/-- The fault that a translated entry meets at its home whatever came before it (R193, R227). -/
def ownFault (s : State) (c : Nat) (e : QEntry) : Option Nat :=
  match e.dest with
  | .phys pa => spanFault s c (entryAcc e) pa (firstPart e) e.pa2
  | _ => none

/-- The page of a local translated entry whose requests in the kitty come before it: its address and size. -/
def entryKitty (s : State) (e : QEntry) (pa : Nat) : Option (Nat × Nat) :=
  if !(isLocal s pa) then none
  else if kittyHas s pa then some (pa, kittySize s pa)
  else if crosses e && isLocal s e.pa2 && kittyHas s e.pa2 then some (e.pa2, kittySize s e.pa2) else none

/-- An entry, its first byte at an address, parks for one of its pages. -/
def parkEntry (s : State) (c q : Nat) (e : QEntry) (pa : Nat) (p : Nat × Nat) : State :=
  park s c q (if p.1 = pa then e.addr else nextPage e.addr) p.1 p.2 ((s.ctxOf c).getD 0) none

/-- An entry with a parked page goes to the home of the first page it is still to park for (R203, R198); CPM.4 and ATM.1 come
first where its two pages have no one home or its scope is too narrow. -/
def toKitty (s : State) (c q : Nat) (e : QEntry) (pa : Nat) : State :=
  let apart := crosses e && !(sameRegion s pa e.pa2)
  match e.parks with
  | [] => s
  | p :: _ =>
    if apart then arrive s c q 0x024 0
    else if !(isLocal s pa) then
      match spanFault s c (entryAcc e) pa (firstPart e) e.pa2 with
      | some f => arrive s c q f 0
      | none => if doubleHeld s c q e pa then s else sendRemote s c q e
    else if joinHeld s c q e pa p then s
    else parkEntry s c q e pa p

/-- A queue's requests move: neither a halt, a freeze nor a cut holds the core (R126, R170, R282), but for what an accepted deck
operation waits for (R57). -/
def queueMoves (k : Core) (seq : Nat) : Bool :=
  decide (k.run ≠ .graphHalted) && ((decide (k.run ≠ .frozen) && !k.cut) || deckBehind k seq)

/-- An entry whose request may reach its home now does (R202, R210, R211, R213): ATM.15 for a release behind a faulted store,
after the faults of its own. The requests of a core that stands still stay outstanding. -/
def tryHome (s : State) (c q : Nat) : State :=
  let k := s.core c
  let e := k.entry q
  if !e.busy || e.done || e.performed || (entryOp e).isNone || inKitty s c q || entryReleaseHeld s c e
    || !(queueMoves k e.seq) then s
  else
    let rel := decide (e.ann = .rel) || decide (e.ann = .ar)
    match rel, faultedStore k e.seq, ownFault s c e with
    | true, some _, none => if e.dest = .none then s else arrive s c q 0x04F 0
    | _, _, _ =>
      match e.dest with
      | .none => s
      | .parked pa => toKitty s c q e pa
      | .phys pa =>
        match entryKitty s e pa with
        | some p => if joinHeld s c q e pa p then s else parkEntry s c q e pa p
        | none =>
          if doubleHeld s c q e pa then s
          else if isLocal s pa then reachHome s c q e pa
          else match ownFault s c e with
            | some f => arrive s c q f 0
            | none => sendRemote s c q e

/-! ### The events -/

/-- The malformed and unreadable tables of R206 go to management as well: XLT.5, XLT.6, XLT.7. -/
def walkCopy (s : State) (c f va : Nat) : State :=
  if State.walkCause f then copyMgmt s c f va else s

/-- TRANSLATION_WALK (R195 to R199): a queue entry in U or S mode gets its address, a parked page or a fault; the
malformed tables of R206 go to management too. A stream's walk leaves nothing but the address its next burst uses. An address in
another package that R67 refuses, in tables changed since the check at issue, completes the entry (log entry 69). -/
def execTranslationWalk (c q : Nat) (s : State) : Result :=
  let e := (s.core c).entry q
  if decide (16 ≤ q) || !e.busy || e.done || e.performed || decide (e.mode = .m) || decide (e.dest ≠ .none)
    || (entryOp e).isNone then .next s
  else
    let a := entryAcc e
    let tlb := (s.core c).tlb
    .next (match s.ctxOf c with
      | none => arrive s c q 0x030 0
      | some x =>
        let r := translateSpan tlb s x e.addr e.bytes a.ld a.st e.mode
        match r.out, linkFault s e.addr e.bytes r with
        | .fault f, _ => walkCopy (arrive s c q f 0) c f e.addr
        | _, some f => arrive s c q f 0
        | _, none => s.modCore c fun k =>
            { k.setEntry q (e.led r) with tlb := holdSpan 4 tlb x e.addr e.bytes a.ld a.st e.mode r })

/-- QUEUE_ENTRY_COMPLETE (R192): an entry performed, or faulted, completes once every entry issued earlier has; the response of a core
in a cut is held until the release (R283). -/
def execQueueEntryComplete (c q : Nat) (s : State) : Result :=
  .next (s.modCore c fun k =>
    let e := k.entry q
    if e.busy && e.performed && !e.done && !k.cut && State.earlierDone k e.seq then
      (k.setEntry q { e with done := true, released := true }).wake
    else k)

/-- SOURCE_RELEASED (R192): a store-type entry's data has left the core, after that of every earlier one. -/
def execSourceReleased (c q : Nat) (s : State) : Result :=
  .next (s.modCore c fun k =>
    let e := k.entry q
    let earlier := k.entries.any fun (_, x) => x.busy && x.storeType && !x.released && decide (x.seq < e.seq)
    if e.busy && e.storeType && !e.released && !earlier then k.setEntry q { e with released := true } else k)

/-- LOCAL_ATOMIC_TIMEOUT (R228): a local atomic without response after 1 ms of graph time completes with ATM.14 and is never
performed afterwards, nor kept in a kitty. -/
def execLocalAtomicTimeout (c q : Nat) (s : State) : Result :=
  let e := (s.core c).entry q
  let atomic := match entryOp e with | some op => qopAtomic op | none => false
  let here := match e.dest with | .phys pa => isLocal s pa | .parked pa => isLocal s pa | .none => false
  if e.busy && !e.done && atomic && here && decide (e.issuedAt + nanos 1000000 ≤ s.clock c) then
    let s1 := { s with kitty := s.kitty.filter fun p => !(p.core == c && p.q == q) }
    .next (copyMgmt (s1.completeEntry c q 0x04E 0) c 0x04E e.addr)
  else .next s

/-- The instruction a core's CP stands at. -/
def instrAtPc (s : State) (c : Nat) : Option Instr :=
  match fetch s c with
  | .word w w2 tail => match decodeCp w w2 tail with | .ok i => some i | .bad _ => none
  | .fault _ => none

/-- A core's CP has waited for a time at an instruction that a test accepts. -/
def waited (s : State) (c ns : Nat) (p : Instr → Bool) : Bool :=
  let k := s.core c
  cpReady s c && (match k.waitSince with
    | none => false
    | some t => decide (t + nanos ns ≤ s.clock c)) && (match instrAtPc s c with | some i => p i | none => false)

/-- The queue entry a WAITQ or POPQ names. -/
def waitedEntry : Instr → Option Nat
  | .waitqSrc _ q => some q.toNat
  | .waitqVis _ q => some q.toNat
  | .popq _ q => some q.toNat
  | _ => none

/-- QUEUE_WAIT_TIMEOUT (R336): a WAITQ or POPQ that has waited 1 s of graph time raises CPX.12; the entry stays busy. -/
def execQueueWaitTimeout (c : Nat) (s : State) : Result :=
  if waited s c 1000000000 (fun i => (waitedEntry i).isSome) then
    .next (s.trapAt c 0x01C (((instrAtPc s c).bind waitedEntry).getD 0) (s.core c).pc)
  else .next s

/-- An entry's access touches a range of virtual pages. -/
def touchesPages (first last : Nat) (e : QEntry) : Bool :=
  decide (e.mode ≠ .m ∧ e.addr / 4096 ≤ last ∧ first ≤ (e.addr + e.bytes - 1) / 4096)

/-- An entry that has not reached its home loses its translation of a range; one that a test names keeps it. -/
def dropLed (first last : Nat) (keep : Nat → Bool) (es : NMap QEntry) : NMap QEntry :=
  es.map fun (q, e) =>
    if e.busy && !e.performed && !e.done && touchesPages first last e && !(keep q) then (q, { e with dest := .none, pa2 := 0, parks := [] })
    else (q, e)

/-- A core's queues and address generators hold no translation of a range of a context, nor a row entry read through one. -/
def dropHeld (x first last : Nat) (k : Core) : Core :=
  let keep := fun (h : Held) => h.ctx != x || decide (h.page < first) || decide (last < h.page)
  { k with
    tlb := k.tlb.filter keep
    engines := k.engines.map fun (i, e) => (i, { e with held := e.held.filter keep, rows := [] })
    grid := { k.grid with elems := k.grid.elems.map fun (i, e) => (i, { e with xlats := e.xlats.filter keep }) } }

/-- A request for a range of a context is on its way to another package: an entry's, or one of an engine of a core of the context,
whose address no field gives. -/
def awayRange (x first last : Nat) (out : List Away) (own : Nat → Option Nat) (entry : Nat → Nat → QEntry) : Bool :=
  out.any fun o => own o.core == some x && (decide (16 ≤ o.q) || touchesPages first last (entry o.core o.q))

/-- PAGE_INVALIDATE (R200): once every access of a virtual range of a context that has left has reached its home, the translations
of the range are dropped, those in freeze images too; an access that has not left is translated anew. -/
def execPageInvalidate (x first last : Nat) (s : State) : Result :=
  let images := s.graphs.filter fun (h, _) => h / 2 ^ 28 == x
  let entryOf := fun (m : Snapshot) (l q : Nat) => ((m.cores.find? fun y => y.1 == l).map fun y => y.2.entry q).getD {}
  let gone := fun (g : Graph) => match g.image with
    | none => false
    | some m => awayRange x first last m.outbox (fun _ => some x) (entryOf m)
  if awayRange x first last s.links.outbox s.ctxOf (fun c q => (s.core c).entry q) || images.any (fun (_, g) => gone g) then .next s
  else
    let cores := s.cores.map fun (c, k) =>
      if s.ctxOf c = some x then (c, { dropHeld x first last k with entries := dropLed first last (inKitty s c) k.entries })
      else (c, dropHeld x first last k)
    let parkedFor := fun (h l q : Nat) => s.kitty.any fun p => p.frz == some (h, l) && p.q == q
    let image := fun (h : Nat) (m : Snapshot) =>
      { m with cores := m.cores.map fun (l, k) =>
          (l, { dropHeld x first last k with entries := dropLed first last (parkedFor h l) k.entries }) }
    let graphs := s.graphs.map fun (h, g) => if h / 2 ^ 28 = x then (h, { g with image := g.image.map (image h) }) else (h, g)
    .next { s with cores := cores, graphs := graphs }

/-- RANGE_ENTRY_WRITE (R196): management writes a range entry, or refuses it with XLT.8. -/
def execRangeEntryWrite (x i : Nat) (d0 d1 d2 d3 : Word) (s : State) : Result :=
  let e0 := d0 &&& 0xF000FFFFFFFFF000#64
  let e1 := d1 &&& 0xFFFFFFFFF000#64
  let e2 := d2 &&& 0x1FFFFFFFFFFF000#64
  let _ := d3
  let lo := fld e0 47 12
  let hi := fld e1 47 12
  match NMap.find s.ctxs x with
  | none => .next s
  | some k =>
    if 16 ≤ i then .next s
    else
      let clash := bitAt e0 63 && (k.ranges.any fun (j, d) =>
        match d with
        | [f0, f1, _, _] => decide (j ≠ i) && bitAt f0 63 && decide (lo ≤ fld f1 47 12 ∧ fld f0 47 12 ≤ hi)
        | _ => false)
      if hi < lo ∨ clash = true then .next (s.tellMgmt { cause := 0x038, ctx := x, detail := i })
      else .next (s.modCtx x fun k => { k with ranges := NMap.put k.ranges i [e0, e1, e2, 0] })

/-- REMAP_DESCRIPTOR_WRITE (R201): management writes a row-remap descriptor, or refuses it with XLT.11. -/
def execRemapDescriptorWrite (x i : Nat) (d0 d1 : Word) (s : State) : Result :=
  let rsz := fld d0 55 52
  let bad := fld d0 60 56 != 0 || fld d0 51 48 != 0 || fld d1 63 48 != 0 || fld d1 2 0 != 0 || decide (8 < rsz)
    || fld d0 47 0 % (4096 * 64 * 2 ^ rsz) != 0
  if 64 ≤ i then .next s
  else if bad then .next (s.tellMgmt { cause := 0x03B, ctx := x, detail := i })
  else .next (s.modCtx x fun k => { k with remaps := NMap.put k.remaps i [d0, d1] })

end Sys2Proof.Machine
end

