-- ==== Sys2Proof/Machine/Burst.lean ====
section
/-! DEFINITION. A run of bytes at memory as a stream burst or an element's access: translation, checks, reading, writing
(R187, R191, R193, R198, R199, R209, R415). -/

namespace Sys2Proof.Machine

/-- A range of addresses cut at multiples of a power of two. -/
def cutAt (m : Nat) : Nat → Nat → Nat → List (Nat × Nat)
  | 0, _, _ => []
  | fuel + 1, a, n =>
    if n = 0 then []
    else
      let k := min n (m - a % m)
      (a, k) :: cutAt m fuel (a + k) (n - k)

/-- The pieces of n bytes at an address: at most m each, none across a multiple of m. -/
def pieces (m a n : Nat) : List (Nat × Nat) := cutAt m (n / m + 2) a n

/-- What reaching the memory behind a range gives: the pieces' addresses, a parked page, a fault. -/
inductive Reach where
  | ok (ps : List (Nat × Nat))
  | parked (va pa sh : Nat)
  | fault (cause : Nat)
  deriving DecidableEq, Repr

/-- The faults of an access of n bytes at a domain address, part by part of the doubles it touches (R193, R209, R227,
R67); an access as wide as an aligned double or word where the region asks for one (CPM.14). -/
def pieceFaults (s : State) (c : Nat) (md : Mode) (ld st : Bool) (pa n : Nat) : List (Option Nat) :=
  if !(isLocal s pa) then [remoteFault s pa n]
  else
    (pieces 8 (pa % 2 ^ 45) n).flatMap fun (a, k) =>
      let acc : Acc := { ld := ld, st := st, atomic := false, bytes := k, mode := md }
      [if md = .m then issueFaultM s c acc (s.links.pkg * 2 ^ 45 + a) else none, homeFault s c acc a]

/-- The pieces lie in one region, here or in one other package (CPM.4, R191). -/
def oneRegion (s : State) (ps : List (Nat × Nat)) : Bool :=
  match ps with
  | [] => true
  | (a, _) :: rest => rest.all fun (b, _) =>
      a / 2 ^ 45 == b / 2 ^ 45 && (!(isLocal s a) || decide (regionOf s (a % 2 ^ 45) = regionOf s (b % 2 ^ 45)))

/-- A piece of a range with its translation: virtual address, length, outcome. -/
abbrev Led := Nat × Nat × Xlat

/-- The fault of a piece's translation. -/
def Led.fault (x : Led) : Option Nat := match x.2.2 with | .fault c => some c | _ => none

/-- A piece's parked page, if it is one of this package: one of another parks there, its request leaving as any other (R203). -/
def Led.park (s : State) (x : Led) : Option (Nat × Nat × Nat) :=
  match x.2.2 with
  | .parked pa sh => if isLocal s pa then some (x.1, pa, sh) else none
  | _ => none

/-- A range of n bytes by a translation, ready to be performed (R187, R191, R198): piece by piece of 64 bytes, of
which none crosses a page or a row (R197, R201), the first fault of translation; CPM.4; the first parked page; then, of the faults
that the pieces meet, the one that comes first in the order of R193. -/
def reachWith (f : Nat → Xlat) (faults : Nat → Nat → List (Option Nat)) (s : State) (va n : Nat) : Reach :=
  let xs : List Led := (pieces 64 va n).map fun (a, k) => (a, k, f a)
  let ps := xs.map fun x => (x.2.2.addr, x.2.1)
  match xs.findSome? Led.fault, xs.findSome? (Led.park s) with
  | some c, _ => .fault c
  | none, parked =>
    if oneRegion s ps = false then .fault 0x024
    else match parked, leastFault (ps.flatMap fun (a, k) => faults a k) with
      | some (v, pa, sh), _ => .parked v pa sh
      | none, some f => .fault f
      | none, none => .ok ps

/-- A range of n bytes of a core's engine by a translation, ready to be performed. -/
def reachBy (f : Nat → Xlat) (s : State) (c : Nat) (md : Mode) (va n : Nat) (ld st : Bool) : Reach :=
  reachWith f (pieceFaults s c md ld st) s va n

/-- A range of n bytes of a core, ready to be performed, by translation with what its hardware holds (R199). -/
def reach (hs : List Held) (s : State) (c xmode xwin : Nat) (md : Mode) (va n : Nat) (ld st : Bool) : Reach :=
  reachBy (fun a => streamXlatHeld hs none s c xmode xwin md a ld st) s c md va n ld st

/-- A piece lies in the deck window and the reader's replica is stale (R61). -/
def staleReplica (s : State) (c : Nat) (ps : List (Nat × Nat)) : Bool :=
  NMap.getD false s.deck.stale (c / 192) &&
    ps.any fun (a, _) => isLocal s a && decide (regionOf s (a % 2 ^ 45) = .replica)

/-- A piece's page has requests in its home's kitty, which come first (R204): its address and the size of the page. -/
def kittyFirst (s : State) (ps : List (Nat × Nat)) : Option (Nat × Nat) :=
  (ps.find? fun (a, _) => isLocal s a && kittyHas s a).map fun p => (p.1, kittySize s p.1)

/-! ### Ranges in another package (R68, R69) -/

/-- The bytes of a range that lie in another package. -/
def farBytes (s : State) (ps : List (Nat × Nat)) : Nat :=
  ps.foldl (fun n p => if isLocal s p.1 then n else n + p.2) 0

/-- The sequence number of the next request of a core, or of a memory actor (R71): 32 bits of its own count; with it the state in which
that count has gone on. -/
def nextRequest (s : State) (c : Nat) : Nat × State :=
  if c < 12 * 192 then ((s.core c).issueSeq % 2 ^ 32, s.modCore c fun k => { k with issueSeq := k.issueSeq + 1 })
  else (s.links.asked % 2 ^ 32, { s with links := { s.links with asked := s.links.asked + 1 } })

/-- The request number q of a core, or of a memory actor, for a range in another package (R68, R71): it leaves once, with a sequence
number of its own, and is on its way until its answer comes; the answer goes on with its data, or fails with its cause. -/
def remoteCall (s : State) (c q pkg : Nat) (fail : Nat → State → State) (go : Nat → State → State) : State :=
  let mine := fun (o : Brought) => o.core == c && o.q == q
  match s.links.inbox.find? mine with
  | some o =>
    let s1 := { s with links := { s.links with inbox := s.links.inbox.filter fun x => !(mine x) } }
    if o.cause ≠ 0 then fail o.cause s1 else go o.data s1
  | none =>
    if isAway s c q then s
    else
      let r := nextRequest s c
      leave r.2 { core := c, q := q, seq := r.1, since := retryClock s c, pkg := pkg }

/-- The bytes that a range has in another package are fetched or stored first (R68, log entry 70). -/
def withFar (s : State) (c q : Nat) (ps : List (Nat × Nat)) (fail : Nat → State → State) (go : List Byte → State → State) : State :=
  let n := farBytes s ps
  let pkg := ((ps.find? fun p => !(isLocal s p.1)).map fun p => p.1 / 2 ^ 45).getD 0
  if n = 0 then go [] s else remoteCall s c q pkg fail fun d s1 => go (leBytes n d) s1

/-- A request that its home has refused while its issuer was frozen (R171, R204): the cause, and the state without that answer. -/
def refusedMeanwhile (s : State) (c q : Nat) : Option (Nat × State) :=
  (s.links.inbox.find? fun o => o.core == c && o.q == q && o.cause != 0).map fun o =>
    (o.cause, { s with links := { s.links with inbox := s.links.inbox.erase o } })

/-- A range that has been reached, by request q of a core or memory actor of a context: a fault, a parked page or earlier requests
in its home's kitty (R203, R204), a stale replica (R61), the answer of another package, or its pieces with that package's bytes. -/
def withPieces (s : State) (c q x va : Nat) (r : Reach) (fail : Nat → State → State)
    (go : List (Nat × Nat) → List Byte → State → State) : State :=
  let toPark := fun (v pa sh : Nat) => if inKitty s c q then s else park s c q v pa sh x none
  match r, refusedMeanwhile s c q with
  | .fault f, _ => fail f s
  | _, some (f, s1) => fail f s1
  | .parked v pa sh, none => toPark v pa sh
  | .ok ps, none =>
    match kittyFirst s ps with
    | some (pa, sh) => toPark va pa sh
    | none => if staleReplica s c ps then s else withFar s c q ps fail (go ps)

/-- Bytes of which the spec gives no value (R380, log entry 53). -/
def freeBytes (s : State) : Nat → List Byte × State
  | 0 => ([], s)
  | n + 1 =>
    let r := s.takeFresh
    let q := freeBytes r.2 n
    (BitVec.ofNat 8 r.1 :: q.1, q.2)

/-- The pieces are read in order: their bytes, those of another package being what its answer brought, or the place of an
uncorrectable byte (R274). -/
def readPieces (c : Nat) : List (Nat × Nat) → List Byte → State → Except Nat (List Byte) × State
  | [], _, s => (.ok [], s)
  | (a, n) :: ps, far, s =>
    let one : Except Nat (List Byte) × State :=
      if !(isLocal s a) then (.ok (far.take n), s)
      else
        let lp := a % 2 ^ 45
        let key := keyOf s (c / 192) lp
        match s.ueAt key n with
        | some u => (.error u, s)
        | none => (.ok (localRead (s.correct key n) (c / 192) lp n), s.correct key n)
    match one with
    | (.error u, s1) => (.error u, s1)
    | (.ok bs, s1) =>
      match readPieces c ps (if isLocal s a then far else far.drop n) s1 with
      | (.ok rest, s2) => (.ok (bs ++ rest), s2)
      | r => r

/-- The bytes are stored at the pieces in order, by aligned doubles (R209); those of another package are stored there by its home. -/
def writePieces : List (Nat × Nat) → List Byte → State → State
  | [], _, s => s
  | (a, n) :: ps, bs, s =>
    let s1 := if !(isLocal s a) then s
      else ((pieces 8 (a % 2 ^ 45) n).foldl (fun (p : State × List Byte) (x, k) =>
        (homeStore p.1 x (p.2.take k), p.2.drop k)) (s, bs.take n)).1
    writePieces ps (bs.drop n) s1

end Sys2Proof.Machine
end

