-- ==== Sys2Proof/Machine/GridCmd.lean ====
section
/-! DEFINITION. The grid commands of the CP: GLOAD, GSWAP, GGO, GSTOP, GSTAT, GSTV (R349 to R355). Where a command's rule
names no value for sr.tval, it is zero (R347). -/

namespace Sys2Proof.Machine

/-- An engine command: held after an acquire (R338), then its checks in order with one value for sr.tval (R347), then its
effect. -/
def command (cs : State → List (Option Nat)) (tval : Nat) (s : State) (f : State → Result) : Result :=
  afterAcquire s fun s => checks (cs s) tval s f

/-- The operand bytes of an engine command in own tile SRAM, read during issue; an uncorrectable error halts the graph and
nothing is done (R274, R347). -/
def withOperand (x n : Nat) (s : State) (f : List Byte → State → Result) : Result :=
  let key := winBase s.turn + x
  match s.ueAt key n with
  | some a => .next (s.ueHalt s.turn a)
  | none => let s1 := s.correct key n; f (s1.read key n) s1

/-- A load is in progress or waits in the grid's queue. -/
def loadPending (g : Grid) : Bool :=
  g.lstate == 1 || g.queue.any fun x => match x with | .load _ => true | _ => false

/-- A command enters the grid's queue of four, or the CP waits (R349). -/
def gridPush (x : GCmd) (s : State) : Result :=
  if 4 ≤ s.cur.grid.queue.length then .next s.wait
  else finish0 (pump (s.modGrid s.turn fun g => { g with queue := g.queue ++ [x] }) s.turn)

/-- GLOAD (R351): SYNC.0, SYNC.1, SYNC.2, then the load enters the grid's queue. -/
def execGload (a : Reg) (s : State) : Result :=
  let x := s.reg a
  command (fun s => [failIf (fld x 63 16 != 0) 0x130, failIf (loadPending s.cur.grid || s.cur.grid.armed) 0x131,
    failIf (libraryBlock s s.turn (fld x 15 0)).isNone 0x132]) 0 s (gridPush (.load (fld x 15 0)))

/-- The validity of the active and the shadow plane after a queued command: a load fills the shadow plane, a swap exchanges
them (R351, R352). -/
def planesAfter (p : Bool × Bool) : GCmd → Bool × Bool
  | .load _ => (p.1, true)
  | .swapDrain => (true, p.1)
  | .swapEos => (true, p.1)
  | .go => p

/-- The shadow plane holds a block once the load and the swap in progress and every queued command are done (R352). -/
def shadowAhead (g : Grid) : Bool :=
  let p := (g.act.valid, g.sh.valid || g.lstate == 1)
  (g.queue.foldl planesAfter (if g.armed || g.draining then planesAfter p .swapEos else p)).2

/-- A GSWAP (R352): SYNC.3 without a valid or loading shadow plane, or behind a first swap after a commit that leaves it empty; then
the swap enters the grid's queue. -/
def gswap (x : GCmd) (s : State) : Result :=
  command (fun s => [failIf ((!s.cur.grid.sh.valid && !(loadPending s.cur.grid)) || !(shadowAhead s.cur.grid)) 0x133]) 0 s
    (gridPush x)

/-- GSWAP.drain (R352). -/
def execGswapDrain (s : State) : Result := gswap .swapDrain s
/-- GSWAP.eos (R352). -/
def execGswapEos (s : State) : Result := gswap .swapEos s

/-- In U mode GGO and GSTOP need a firing (R353). -/
def goFault (s : State) : Option Nat := failIf (decide (s.cur.mode = .u) && !s.cur.infire) 0x134

/-- GGO (R353): a go-ahead for every root controller. -/
def execGgo (s : State) : Result := command (fun s => [goFault s]) 0 s (gridPush .go)

/-- GGO.RES (R353): the hold of GSTOP is released. -/
def execGgoRes (s : State) : Result :=
  command (fun s => [goFault s]) 0 s fun s => finish0 (s.modGrid s.turn fun g => { g with held := false })

/-- GSTOP (R353): every element, router and controller is held. -/
def execGstop (s : State) : Result :=
  command (fun s => [goFault s]) 0 s fun s => finish0 (s.modGrid s.turn fun g => { g with held := true })

/-- The status word of GSTAT (R354). -/
def gridStatus (k : Core) : Word :=
  let g := k.grid
  (State.srCfgst k &&& 0xFFFFFFFFF0000000#64) ||| BitVec.ofNat 64 ((if g.held then 1 else 0) * 2 ^ 27
    + (if gridBusy g then 1 else 0) * 2 ^ 26 + g.queue.length % 8 * 2 ^ 16 + min g.dones 0xFFFF)

/-- GSTAT (R354). -/
def execGstat (d : Reg) (s : State) : Result := command (fun _ => []) 0 s fun s => finish s d (gridStatus s.cur)

/-- The checks of both GSTV forms (R355). -/
def gstvFaults (s : State) (x y : Word) : List (Option Nat) :=
  [failIf (fld y 63 7 != 0) 0x130, operandFault x.toNat 256 64, failIf (Config.fusedElem s.turn (fld y 6 0)) 0x02A]

/-- GSTV (R355, R190): 256 bytes into the loading vector of an element. -/
def execGstv (a b : Reg) (s : State) : Result :=
  let x := s.reg a
  let y := s.reg b
  command (fun s => gstvFaults s x y) 0 s fun s =>
    withOperand x.toNat 256 s fun bs s => finish0 (s.write (loadTarget s s.turn (fld y 6 0)) bs)

/-- GSTV.act (R355): once the active plane is idle, 256 bytes into the active vector of an element. -/
def execGstvAct (a b : Reg) (s : State) : Result :=
  let x := s.reg a
  let y := s.reg b
  command (fun s => gstvFaults s x y) 0 s fun s =>
    if gridBusy s.cur.grid then .next s.wait
    else withOperand x.toNat 256 s fun bs s => finish0 (s.write (statKey s.turn (fld y 6 0) false) bs)

end Sys2Proof.Machine
end

