-- ==== Sys2Proof/Machine/StreamCmd.lean ====
section
/-! DEFINITION. The stream commands of the CP: SRDS, SWRS, SCPY, SAGC, SXLT, SWAIT and its time-out (R356 to R363). -/

namespace Sys2Proof.Machine

/-! ### Shapes (R231, R249, R359) -/

/-- A type whose k-groups carry an exponent record: floating, block-scaled or SD16 (R248, R249). -/
def isAligned (t : Nat) : Bool := isFloat t || isBlock t || t == 0x1B

/-- K of an operand tile of n bytes (R359), none when no K fits. -/
def tileK (t n : Nat) : Option Nat :=
  if n % 32 ≠ 0 then none
  else
    let row := n / 32
    if t = 0x1B then
      let j := ceilDiv (row / 4) 65
      let k := row / 4 - j
      if row % 4 = 0 ∧ 0 < k ∧ k % 8 = 0 ∧ ceilDiv k 64 = j then some k else none
    else if isBlock t then
      let k := row / unitBytes t * unitElems t
      if row % unitBytes t = 0 ∧ 0 < k then some k else none
    else
      let k := row * 8 / elemBits t
      if k * elemBits t = row * 8 ∧ k % 8 = 0 ∧ 0 < k then some k else none

/-- The shape check of LKIND 2 (R359). -/
def shapeBad (t p n : Nat) : Bool :=
  decide (0x1B < t) || p == 0 || decide (16 < p) || (p == 1 && isAligned t) || (tileK t n).isNone

/-- Bytes of the layout of R249 for K elements a row. -/
def layoutBytes (t p k : Nat) : Nat := k / 8 * ((if isAligned t then 64 else 0) + 32 * p)

/-- Bytes of the local range of LKIND 1 and 2 (R358). -/
def localBytes (m : StrCmd) : Nat :=
  if m.lkind = 2 then layoutBytes m.tcode m.planes ((tileK m.tcode m.bytes).getD 0) else m.bytes

/-! ### Checks (R358) -/

/-- The instruction of the active plane at a channel port: its index. -/
def channelInstr (g : Grid) (op port : Nat) : Option Nat :=
  if g.act.valid then
    (List.range g.act.words.length).find? fun i => wOp (g.act.words.getD i 0) == op && g.act.place.getD i 0xFF == 0xC0 + port
  else none

/-- The APORT of a PIN or POUT (R417). -/
def aport (w : Word) : Nat := bitsOf (wMod w) 8 3

/-- A stream can use a channel port: an entry or exit of the active plane that serves the stream engine (R358, R417). -/
def streamPort (g : Grid) (op port : Nat) : Bool :=
  match channelInstr g op port with
  | none => false
  | some i => aport (g.act.words.getD i 0) == 0x3F

/-- Reserved bits and fields that must be zero (R357, R358): STRM.0. -/
def descReserved (m : StrCmd) : Bool :=
  fld (m.dbl 1) 58 53 != 0 || fld (m.dbl 1) 47 21 != 0 || fld (m.dbl 2) 27 21 != 0 || fld (m.dbl 2) 15 4 != 0
    || fld (m.dbl 3) 63 32 != 0 || m.dbl 7 != 0 || m.lkind == 3 || ((m.eos || m.eot) && m.lkind != 0)
    || (!m.follow && (m.fword != 0 || m.frs1 != 0 || m.frs2 != 0)) || (m.kind != 2 && m.dbl 6 != 0)
    || (m.lkind != 2 && m.planes != 0)

/-- FWORD is a matrix or meld command without destination other than MXWAIT (R360). -/
def followOk (w : Word32) : Bool := fld w 31 26 == 0x1E && fld w 25 21 == 0 && fld w 10 5 != 0x06

/-- The interval that the runs of a chain from a base cover. -/
def chainSpan (h : Option Chain) (base n : Nat) : Int × Int :=
  match h with
  | none => (base, base + n)
  | some h => h.dims.foldl (fun (lo, hi) d =>
      let t : Int := ((d.1 - 1 : Nat) : Int) * d.2
      (lo + min 0 t, hi + max 0 t)) ((base : Int), (base : Int) + (h.run : Int))

/-- Source and destination ranges of a copy meet (R358). -/
def copyOverlaps (m : StrCmd) : Bool :=
  let a := chainSpan m.chain m.addr m.bytes
  let lo : Int := m.daddr
  decide (a.1 < lo + m.bytes ∧ lo < a.2)

/-- The widest element an address range starts with. -/
def startWidth (a n : Nat) : Nat := if a % 8 = 0 ∧ 8 ≤ n then 8 else if a % 4 = 0 ∧ 4 ≤ n then 4 else 1

/-- The checks of an address at issue (R332 steps 2 and 4, R358); whether it may be stored to is seen as the stream reaches each
burst. -/
def streamAddrFault (s : State) (a n : Nat) : Option Nat :=
  if s.cur.mode ≠ .m then (if 2 ^ 48 ≤ a then some 0x03D else none)
  else if 2 ^ 57 ≤ a then some 0x025
  else issueFaultM s s.turn { ld := true, st := false, atomic := false, bytes := startWidth a n, mode := .m } a

/-- The checks of R358 after that of the descriptor's address, in their order. -/
def streamFaults (s : State) (m : StrCmd) : List (Option Nat) :=
  let k := s.cur
  let scpy := m.kind == 2
  let grid := m.lkind == 0 && !scpy
  [ failIf (descReserved m) 0x0C0,
    failIf ((m.kind == 1 && m.lkind == 2) || (scpy && m.dbl 1 != 0)) 0x0C1,
    failIf (m.bytes == 0 || (grid && m.bytes % vecBytes m.tcode != 0)) 0x0C2,
    failIf (m.lkind == 2 && shapeBad m.tcode m.planes m.bytes) 0x0C3,
    failIf (m.chv && (match NMap.find k.chains m.chainNo with | none => true | some h => h.size != m.bytes)) 0x0C4,
    failIf (grid && !(streamPort k.grid (if m.kind = 0 then 0x2C0 else 0x2C1) m.port)) 0x0C7,
    failIf ((m.lkind == 1 || m.lkind == 2) && (decide (tileSize < m.loff + localBytes m)
      || (m.kind == 0 && (k.inCode m.loff (localBytes m) || k.inWindow m.loff (localBytes m))))) 0x0C8,
    failIf (m.follow && !(followOk m.fword)) 0x0C9,
    failIf (scpy && copyOverlaps m) 0x0CD,
    failIf (grid && !k.infire) 0x0CE,
    streamAddrFault s m.addr m.bytes,
    if scpy then streamAddrFault s m.daddr m.bytes else none ]

/-! ### Issue (R356) -/

/-- The stream command of a descriptor as it enters an engine's queue. -/
def newStream (s : State) (kind n : Nat) (ds : List Word) : StrCmd :=
  let k := s.cur
  let re := k.engine n
  let we := k.engine (2 + n)
  let own := if kind = 1 then we else re
  let m : StrCmd := {
    kind := kind, seq := if kind = 0 then re.issued else we.issued, desc := ds, chain := none, mode := k.mode
    xmode := own.xmode, xwin := own.xwin, xmode2 := we.xmode, xwin2 := we.xwin
    infire := k.infire, iseq := k.issueSeq }
  { m with tok := if kind ≠ 2 ∧ m.lkind = 0 then vecBytes m.tcode else 0, chain := if m.chv then NMap.find k.chains m.chainNo else none }

/-- A command enters an engine's queue. -/
def pushStream (e : Nat) (m : StrCmd) (k : Core) : Core :=
  let x := k.engine e
  k.setEngine e { x with queue := x.queue ++ [m], issued := x.issued + 1 }

/-- A ticket (R356). -/
def ticket (kind eng seq : Nat) : Word := BitVec.ofNat 64 (kind % 4 * 2 ^ 40 + eng % 2 * 2 ^ 32 + seq % 2 ^ 32)

/-- A stream command issues (R347, R356, R358). -/
def streamIssue (kind : Nat) (d a : Reg) (e : BitVec 1) (s : State) : Result :=
  let x := (s.reg a).toNat
  let n := e.toNat
  command (fun _ => [operandFault x 64 64]) x s fun s =>
    withOperand x 64 s fun bs s =>
      let m := newStream s kind n ((chunks 8 8 bs).map fun b => BitVec.ofNat 64 (ofLe b))
      checks (streamFaults s m) x s fun s =>
        let full := fun e => decide (8 ≤ (s.cur.engine e).queue.length)
        if (kind ≠ 1 ∧ full n = true) ∨ (kind ≠ 0 ∧ full (2 + n) = true) then .next s.wait
        else
          let put : Core → Core := fun k =>
            if kind = 0 then pushStream n m k
            else if kind = 1 then pushStream (2 + n) m k
            else pushStream (2 + n) m (pushStream n { m with kind := 3, seq := (k.engine n).issued } k)
          finish (s.modCur fun k => let k1 := put k; { k1 with issueSeq := k1.issueSeq + 1 }) d (ticket kind n m.seq)

/-- SRDS (R358). -/
def execSrds (d a : Reg) (e : BitVec 1) (s : State) : Result := streamIssue 0 d a e s
/-- SWRS (R358). -/
def execSwrs (d a : Reg) (e : BitVec 1) (s : State) : Result := streamIssue 1 d a e s
/-- SCPY (R358). -/
def execScpy (d a : Reg) (e : BitVec 1) (s : State) : Result := streamIssue 2 d a e s

/-! ### Chains (R361) -/

/-- The chain of a record and a first node. -/
def chainOf (ds : List Word) (node : Nat) : Chain :=
  let d0 := ds.getD 0 0
  { run := fld d0 31 0
    dims := (List.range (fld d0 34 32)).map fun i => (fld (ds.getD (1 + i) 0) 31 0, sgn 32 (fld (ds.getD (1 + i) 0) 63 32))
    node := node }

/-- A chain record is malformed (R361): STRM.5. -/
def chainBad (ds : List Word) (node : Nat) : Bool :=
  let n := fld (ds.getD 0 0) 34 32
  let h := chainOf ds node
  decide (4 < n) || h.run == 0 || decide (4096 < h.run) || h.dims.any (fun d => d.1 == 0 || decide (2 ^ 24 < d.1))
    || (List.range 4).any (fun i => decide (n ≤ i) && ds.getD (1 + i) 0 != 0) || node / 8 != (node + n) / 8

/-- The nodes of a chain: one for the run and one a dimension. -/
def Chain.nodes (h : Chain) : List Nat := (List.range (h.dims.length + 1)).map fun i => h.node + i

/-- A node serves an address instruction of the active plane. -/
def nodeInPlane (g : Grid) (n : Nat) : Bool := g.act.valid && g.act.place.any fun p => p == 0x80 + n

/-- Nodes in use, or the chain serves an uncompleted command (R361): STRM.6. -/
def chainBusy (k : Core) (c : Nat) (h : Chain) : Bool :=
  h.nodes.any (fun n => nodeInPlane k.grid n || k.chains.any fun (j, x) => j != c && x.nodes.contains n)
    || k.engines.any fun (_, e) => e.queue.any fun m => m.chv && m.chainNo == c

/-- SAGC (R361). -/
def execSagc (a b : Reg) (c : BitVec 3) (s : State) : Result :=
  let x := (s.reg a).toNat
  let y := s.reg b
  command (fun _ => [failIf (fld y 63 4 != 0) 0x130, operandFault x 48 16]) 0 s fun s =>
    withOperand x 48 s fun bs s =>
      let ds := (chunks 8 6 bs).map fun b => BitVec.ofNat 64 (ofLe b)
      let h := chainOf ds (fld y 3 0)
      checks [failIf (fld (ds.getD 0 0) 63 35 != 0 || ds.getD 5 0 != 0) 0x0C0, failIf (chainBad ds (fld y 3 0)) 0x0C5,
          failIf (chainBusy s.cur c.toNat h) 0x0C6] 0 s fun s =>
        finish0 (s.modCur fun k => { k with chains := NMap.put k.chains c.toNat h })

/-- SXLT (R362). -/
def execSxlt (a : Reg) (e : BitVec 2) (s : State) : Result :=
  let x := s.reg a
  command (fun s => [failIf (fld x 63 14 != 0 || fld x 7 2 != 0) 0x130, failIf (fld x 1 0 == 3) 0x0C0,
      failIf (fld x 1 0 == 2 && decide (s.cur.mode ≠ .m)) 0x0CA]) 0 s fun s =>
    finish0 (s.modCur fun k => k.setEngine e.toNat { k.engine e.toNat with xmode := fld x 1 0, xwin := fld x 13 8 })

/-! ### Waiting (R363) -/

/-- The engine a ticket names. -/
def ticketEngine (x : Word) : Nat := (if fld x 41 40 = 0 then 0 else 2) + fld x 32 32

/-- A command of an engine has reached an event: one no longer queued has reached both. -/
def streamReached (e : Engine) (seq : Nat) (vis : Bool) : Bool :=
  match e.queue.find? fun m => m.seq == seq with
  | none => true
  | some m => if vis then m.visible else m.released

/-- SWAIT (R363). -/
def swait (vis : Bool) (a : Reg) (s : State) : Result :=
  let x := s.reg a
  let e := s.cur.engine (ticketEngine x)
  command (fun _ => [failIf (fld x 63 42 != 0 || fld x 39 33 != 0) 0x130,
      failIf (fld x 41 40 == 3 || decide (e.issued ≤ fld x 31 0)) 0x0CB]) 0 s fun s =>
    if streamReached e (fld x 31 0) vis then finish0 s else .next s.wait

/-- SWAIT.src (R363). -/
def execSwaitSrc (a : Reg) (s : State) : Result := swait false a s
/-- SWAIT.vis (R363). -/
def execSwaitVis (a : Reg) (s : State) : Result := swait true a s

/-- SWAIT_TIMEOUT (R363): an SWAIT that has waited 1 s of graph time raises STRM.12. -/
def execSwaitTimeout (c : Nat) (s : State) : Result :=
  let isSwait := fun (i : Instr) => match i with | .swaitSrc _ => true | .swaitVis _ => true | _ => false
  .next (if waited s c 1000000000 isSwait then s.trapAt c 0x0CC 0 (s.core c).pc else s)

end Sys2Proof.Machine
end

