-- ==== Sys2Proof/Machine/Firing.lean ====
section
/-! DEFINITION. Ring windows, the end of a firing and mode tokens: RWSET, RWRST, RWQRY, FDONE, FABORT, MODE, MWAIT
(R364 to R369). -/

namespace Sys2Proof.Machine

/-! ### Ring windows (R364, R365) -/

/-- The window checks of R129 in the order of R364: RING.2, RING.15, RING.1; i is the descriptor's own index. -/
def windowFault (k : Core) (i : Nat) (d : WinDesc) : Option Nat :=
  let n := d.cap * d.stride
  if d.base % 64 ≠ 0 ∨ d.tsize = 0 ∨ 4096 < d.tsize then some 0x062
  else if tileSize < d.base + n then some 0x06F
  else if !d.isOut && (k.inCode d.base n
      || k.descs.any fun (j, x) => j != i && x.valid && !x.isOut && rangesMeet d.base n x.base (x.cap * x.stride)) then some 0x061
  else none

/-- The window descriptor an image of 64 bytes gives (R128, R364): reserved and read-only bits as the register has them. -/
def descOfImage (bs : List Byte) : WinDesc :=
  let ds := (chunks 8 8 bs).map fun b => BitVec.ofNat 64 (ofLe b)
  let d0 := setDescDouble (setDescDouble (setDescDouble {} 0 (ds.getD 0 0)) 1 (ds.getD 1 0)) 4 (ds.getD 4 0)
  { d0 with d0 := d0.d0 ||| 0x8000000000000000#64, wr := BitVec.ofNat 64 d0.ante, rd := 0, att := true }

/-- A port that the image leaves unbound and no window serves (R364). -/
def portUnbound (s : State) (c a p : Nat) : Bool :=
  portIndex s c a p == 0xFF && match portRecOf s c a p with
    | some (_, r) => r.arc == 0xFFFF && r.host == 0xFFFF
    | none => false

/-- An image's DIR, PKIND or TCODE differs from port p of an actor (R364); an unbound port has no peer but a core of the
card (log entry 17). -/
def descUnlike (s : State) (c a p : Nat) (d : WinDesc) : Bool :=
  d.isOut != decide (16 ≤ p) || d.pkind != 0 || match portRecOf s c a p with
    | some (_, r) => d.tcode != r.tcode
    | none => true

/-- RWSET (R364). -/
def execRwset (a b : Reg) (s : State) : Result :=
  privileged supervisorOnly s fun s =>
    let x := s.reg a
    let y := (s.reg b).toNat
    let i := fld x 7 0
    let p := fld x 12 8
    let act := fld x 15 13
    command (fun _ => [failIf (fld x 63 16 != 0) 0x130, operandFault y 64 64]) 0 s fun s =>
      withOperand y 64 s fun bs s =>
        let d := descOfImage bs
        let old := s.cur.desc i
        checks [failIf (decide (63 < i)) 0x06C,
            failIf ((old.valid && !old.att) || !(portUnbound s s.turn act p)) 0x067,
            failIf (descUnlike s s.turn act p d) 0x06B, windowFault s.cur i d] 0 s fun s =>
          finish0 (setPortIndex (s.modCur fun k => { k with descs := NMap.put k.descs i d }) s.turn act p i)

/-- The actor-table entries that name a descriptor read 0xFF again (R365). -/
def unbindPort (s : State) (c i : Nat) : State :=
  (List.range 256).foldl (fun s n => if portIndex s c (n / 32) (n % 32) = i then setPortIndex s c (n / 32) (n % 32) 0xFF else s) s

/-- The descriptor released, its tokens discarded (R365). -/
def releaseDesc (d : WinDesc) : WinDesc :=
  { d with d0 := d.d0 &&& 0x7FFFFFFFFFFFFFFF#64, rd := d.wr, att := false, marks := [] }

/-- RWRST (R365). -/
def execRwrst (a : Reg) (s : State) : Result :=
  privileged supervisorOnly s fun s =>
    let x := s.reg a
    let i := fld x 7 0
    command (fun s => [failIf (fld x 63 8 != 0) 0x130, failIf (decide (63 < i)) 0x06C,
        failIf ((s.cur.desc i).valid && !(s.cur.desc i).att) 0x067]) 0 s fun s =>
      if (s.cur.desc i).valid then
        finish0 (unbindPort (s.modCur fun k => { k with descs := NMap.put k.descs i (releaseDesc (k.desc i)) }) s.turn i)
      else finish0 s

/-- The status word of a descriptor (R365). -/
def descStatus (d : WinDesc) : Word :=
  BitVec.ofNat 64 ((if d.valid then 1 else 0) * 2 ^ 63 + (if d.isOut then 1 else 0) * 2 ^ 62
    + (if d.drain then 1 else 0) * 2 ^ 61 + (if d.att then 1 else 0) * 2 ^ 60 + d.cap % 2 ^ 16 * 2 ^ 32 + d.occ % 2 ^ 32)

/-- RWQRY (R365). -/
def execRwqry (d a : Reg) (s : State) : Result :=
  let x := s.reg a
  command (fun _ => [failIf (fld x 63 8 != 0) 0x130, failIf (decide (63 < fld x 7 0)) 0x06C]) 0 s fun s =>
    finish s d (descStatus (s.cur.desc (fld x 7 0)))

/-! ### The end of a firing (R366, R367) -/

/-- The sequencer's place after its head entry: the next entry, or the first of a further round (R121). -/
def nextHead (s : State) (c : Nat) (head round : Nat) : Nat × Nat :=
  let k := s.core c
  let w := firingEntry s c (segFirst s c k.rset + head)
  if bitAt w 23 || decide (segCount s c k.rset ≤ head + 1) then (0, round + 1) else (head + 1, round)

/-- A core's sequencer takes its next entry. -/
def advanceHead (s : State) (c : Nat) : State :=
  s.modCore c fun k =>
    let p := nextHead s c k.head k.round
    { k with head := p.1, round := p.2 }

/-- The first port of a range whose count in the firing is short, if any (R125). -/
def shortPort (s : State) (c lo : Nat) : Option Nat :=
  let k := s.core c
  ((List.range 16).map fun i => lo + i).find? fun p => decide ((k.port k.actorNo p).cnt < curRate s c p)

/-- The commands and blocks of the firing are finished as FDONE waits for (R366): no go-ahead is out, what was given one has
drained, and every stream command of the firing has read its source. -/
def firingSettled (k : Core) : Bool :=
  let g := k.grid
  let streams := k.engines.all fun (_, e) => e.queue.all fun m => !m.infire || m.released || m.kind == 3
  let feeding := k.engines.any fun (_, e) => e.queue.any fun m => m.infire && m.kind == 0 && m.lkind == 0 && !m.visible
  let going := g.queue.any fun x => match x with | .go => true | _ => false
  streams && !going && (g.goes == 0 || (decide (g.goes ≤ g.dones) && !(gridBusy g) && !feeding))

/-- A gang member of the firing's actor is in a firing of another phase (R127). -/
def gangSkew (s : State) (c : Nat) : Bool :=
  let k := s.core c
  (gangCores s c).any fun c' =>
    let k' := s.core c'
    k'.infire && k'.actorNo == k.actorNo && k'.phaseNo != k.phaseNo

/-- The leader of a gang in gang mode, or with an MXGANG on its way, has commands that are not complete (R440). -/
def gangPending (s : State) (c : Nat) : Bool :=
  let turns := (s.core c).matrix.queue.any fun m => match m.op with | .gang _ => true | _ => false
  ((s.core c).matrix.gang || turns) && (gangCores s c).head? == some c
    && (gangCores s c).any fun c' => !(s.core c').matrix.queue.isEmpty

/-- Gang mode ends at its leader's FDONE (R440). -/
def gangOff (s : State) (c : Nat) : State :=
  if (s.core c).matrix.gang && (gangCores s c).head? == some c then
    (gangCores s c).foldl (fun s c' => s.modCore c' fun k => { k with matrix := { k.matrix with gang := false } }) s
  else s

/-- The tokens of a firing at an input port are freed, and the new read pointer is on its way to the producer (R130). -/
def freeTokens (c : Nat) (s : State) (p : Nat) : State :=
  let k := s.core c
  let n := curRate s c p
  match portDesc s c k.actorNo p with
  | none => s
  | some i =>
    if n = 0 then s
    else
      let d := k.desc i
      if d.occ < n then portHalt s c k.actorNo p 0x066 (k.port k.actorNo p).ord
      else
        let rd := d.rd + BitVec.ofNat 64 n
        s.modCore c fun k => { k with
          descs := NMap.put k.descs i { d with rd := rd, marks := d.marks.filter fun (w, _) => decide (rd.toNat ≤ w) }
          mirrors := k.mirrors ++ [{ desc := i, rd := rd.toNat, seq := k.issueSeq, was := d.rd.toNat }] }

/-- The firing ends (R366): read pointers advance, INFIRE is cleared, the sequencer takes its next entry, and the CP
executes nothing until the next firing. -/
def endFiring (s : State) (c : Nat) : State :=
  let s1 := (List.range 16).foldl (freeTokens c) s
  (advanceHead s1 c).modCore c fun k =>
    { k with phase := k.phase &&& 0x7FFFFFFFFFFFFFFF#64, run := if k.run = .running then .betweenFirings else k.run
             waitSince := none }

/-- FABORT (R367): RATE.11 outside a firing, otherwise RATE.12 with the reason, and the graph halts. -/
def execFabort (a : Reg) (s : State) : Result :=
  let x := s.reg a
  command (fun s => [failIf (!s.cur.infire) 0x05B]) 0 s fun s =>
    .next (s.haltGraph s.cur.graph { cause := 0x05C, core := coreName s.turn, detail := fld x 15 0 })

/-- HALT (R344): CPX.0 in U mode, CPX.10 with a busy entry; then the CP stops with CPX.11 to management; a supervisor's firing ends
there, and management halts its context. -/
def execHalt (s : State) : Result :=
  privileged supervisorOnly s fun s =>
    let busy := bitsOf (State.srQstat s.cur).toNat 15 0
    if busy ≠ 0 then .next (s.trap 0x01A busy)
    else
      let k := s.cur
      let s1 := (s.advance 4).modCur fun k => { k with run := .halted }
      let s2 := s1.tellMgmt (s1.graphNotice k.graph { cause := 0x01B, core := coreName s.turn })
      let sup := match s.graph? k.graph with | none => false | some g => g.supervisor
      .next (match s.ctxOf s.turn with
        | some x => if sup then (if k.infire then endFiring s2 s.turn else s2).haltContext x else s2
        | none => s2)

/-! ### Mode tokens (R368, R369) -/

/-- The outcome word of MWAIT (R369): M, or zero with a cause; the set the token names. -/
def modeOutcome (m tok cause : Nat) : Nat :=
  (if cause = 0 then m % 2 ^ 32 else 0) * 2 ^ 32 + tok % 8 * 2 ^ 13 + cause % 512

/-- The core that sent a mode token, named as 1 + the core, learns its outcome (R369), when the token is that of its last MODE: the
token is known by its sender's point of issue. -/
def tellSender (s : State) (sender seq out : Nat) : State :=
  if sender = 0 then s else s.modCore (sender - 1) fun k => if k.modeTok.isSome && k.modeSeq == seq then { k with modeRes := some out } else k

/-- A mode token, sent at a point of issue, arrives at a graph's mode port: MODE.3 once a source has drained (R137), otherwise it
waits there. -/
def modeArrive (s : State) (h t sender seq : Nat) : State :=
  match s.graph? h with
  | none => s
  | some g =>
    if g.srcDrained && g.coord.isNone then tellSender (s.notifyGraph h { cause := 0x073 }) sender seq (modeOutcome 0 t 0x073)
    else s.modGraph h fun g => { g with modeCtl := { g.modeCtl with waiting := g.modeCtl.waiting ++ [(t, sender, seq)] } }

/-- MODE (R368): SYNC.0, MODE.5, SYNC.5; a send at the mode port's channel, whose window holds four tokens (R134). The token's
release (R217) holds the token, which the controller takes once the core's earlier writes are visible, and not the CP. -/
def execMode (a : Reg) (s : State) : Result :=
  let x := s.reg a
  command (fun s => [failIf (fld x 63 32 != 0) 0x130, failIf (portRecOf s s.turn s.cur.actorNo 33).isNone 0x075,
      failIf (!s.cur.infire || s.cur.modeSent) 0x135]) 0 s fun s =>
    let h := s.cur.graph
    let full := match s.graph? h with | none => false | some g => decide (4 ≤ g.modeCtl.waiting.length)
    if full then .next s.wait
    else
      let t := fld x 31 0
      let s1 := s.modCur fun k => { k with modeTok := some t, modeSeq := k.issueSeq, modeRes := none, modeSent := true, issueSeq := k.issueSeq + 1 }
      finish0 (modeArrive s1 h t (s.turn + 1) s.cur.issueSeq)

/-- MWAIT (R369). -/
def execMwait (d : Reg) (s : State) : Result :=
  command (fun s => [failIf s.cur.modeTok.isNone 0x136]) 0 s fun s =>
    match s.cur.modeRes with
    | none => .next s.wait
    | some r => finish (s.modCur fun k => { k with modeTok := none, modeRes := none }) d (BitVec.ofNat 64 r)

end Sys2Proof.Machine
end

