-- ==== Sys2Proof/Machine/Flags.lean ====
section
/-! DEFINITION. Flag computations. The CP of this hardware has no arithmetic flags: no operation of R322 sets any flag, and
compares write a register. What the spec counts beside a result are the five statistics counts of R259, kept by the
engines and elements; here are the compares (R322, R327) and the counters. -/

namespace Sys2Proof

/-- Signed comparison of doubles, s(x) < s(y) (R321). -/
def ltS (x y : Word) : Bool := x.slt y

/-- Unsigned comparison of doubles. -/
def ltU (x y : Word) : Bool := x.ult y

/-- The 0 or 1 a compare writes (R322). -/
def flagWord (b : Bool) : Word := if b then 1 else 0

end Sys2Proof
end

