-- ==== Sys2Proof/Machine/Memory.lean ====
section
/-! DEFINITION. Direct loads and stores of the CP, LDA and STL (R185, R186, R329, R330). -/

namespace Sys2Proof.Machine

/-- The replica of a core's card is stale: loads stall (R61). -/
def replicaStale (s : State) (c : Nat) : Bool := NMap.getD false s.deck.stale (c / 192)

/-- The memory key a direct address reaches. -/
def directKey (c : Nat) : Direct → Nat
  | .tile o => winBase c + o
  | .replica o => replicaBase (c / 192) + o

/-- A direct load of n bytes (R329): its checks, the stall of R61, an uncorrectable error that halts the graph and writes
nothing (R274), a correctable one corrected; then rd takes the extended value. -/
def directLoad (n : Nat) (aligned : Bool) (ext : Nat → Word) (d a : Reg) (off : Word) (s : State) : Result :=
  afterAcquire s fun s =>
    let ea := effAddr (s.reg a) off
    match loadFault s ea n aligned, directRange ea with
    | some f, _ => .next (s.trap f ea)
    | none, none => .next (s.trap 0x020 ea)
    | none, some r =>
      let key := directKey s.turn r
      if decide (r = .replica (ea - 0x1F0000000000)) && replicaStale s s.turn then .next s.wait
      else match s.ueAt key n with
        | some x => .next (s.ueHalt s.turn x)
        | none =>
          let s1 := s.correct key n
          finish s1 d (ext (ofLe (s1.read key n)))

/-- The bytes a store takes from a register: y[8n − 1 : 0], lowest first. -/
def storeBytes (n : Nat) (y : Word) : List Byte := leBytes n y.toNat

/-- A store of the CP into its code region: fetches keep what they saw until FENCEI (R184). -/
def keepCode (s : State) (off n : Nat) : State :=
  if s.cur.inCode off n then
    s.modCur fun k => { k with
      codeOld := (List.range n).foldl (fun m i =>
        match NMap.find m (off + i) with
        | some _ => m
        | none => if k.inCode (off + i) 1 then NMap.put m (off + i) (memGet s.mem (winBase s.turn + off + i)) else m) k.codeOld }
  else s

/-- The store of a direct store whose checks have passed: into own tile SRAM. -/
def directPut (s : State) (off n : Nat) (y : Word) : State :=
  (keepCode s off n).setTile s.turn off (storeBytes n y)

/-- A direct store of n bytes (R329). -/
def directStore (n : Nat) (b a : Reg) (off : Word) (s : State) : Result :=
  afterAcquire s fun s =>
    let ea := effAddr (s.reg a) off
    match storeFault s ea n false with
    | some f => .next (s.trap f ea)
    | none => finish0 (directPut s ea n (s.reg b))

/-- LDB (R329). -/
def execLdb (d a : Reg) (i : BitVec 16) (s : State) : Result :=
  directLoad 1 false (fun v => sext64 (BitVec.ofNat 8 v)) d a (sext64 i) s
/-- LDBU (R329). -/
def execLdbu (d a : Reg) (i : BitVec 16) (s : State) : Result :=
  directLoad 1 false (BitVec.ofNat 64) d a (sext64 i) s
/-- LDH (R329). -/
def execLdh (d a : Reg) (i : BitVec 16) (s : State) : Result :=
  directLoad 2 false (fun v => sext64 (BitVec.ofNat 16 v)) d a (sext64 i) s
/-- LDHU (R329). -/
def execLdhu (d a : Reg) (i : BitVec 16) (s : State) : Result :=
  directLoad 2 false (BitVec.ofNat 64) d a (sext64 i) s
/-- LDW (R329). -/
def execLdw (d a : Reg) (i : BitVec 16) (s : State) : Result :=
  directLoad 4 false (fun v => sext64 (BitVec.ofNat 32 v)) d a (sext64 i) s
/-- LDWU (R329). -/
def execLdwu (d a : Reg) (i : BitVec 16) (s : State) : Result :=
  directLoad 4 false (BitVec.ofNat 64) d a (sext64 i) s
/-- LDD (R329). -/
def execLdd (d a : Reg) (i : BitVec 16) (s : State) : Result :=
  directLoad 8 false (BitVec.ofNat 64) d a (sext64 i) s
/-- LDA (R330): aligned, zero-extended; the load is performed before any later access, since the CP goes on only after
it, at whatever scope it names (R211). -/
def execLda (d a : Reg) (_sc : Scope) (w : Width) (i : BitVec 12) (s : State) : Result :=
  directLoad (widthBytes w) true (BitVec.ofNat 64) d a (sext64 i) s

/-- STB (R329). -/
def execStb (b a : Reg) (i : BitVec 16) (s : State) : Result := directStore 1 b a (sext64 i) s
/-- STH (R329). -/
def execSth (b a : Reg) (i : BitVec 16) (s : State) : Result := directStore 2 b a (sext64 i) s
/-- STW (R329). -/
def execStw (b a : Reg) (i : BitVec 16) (s : State) : Result := directStore 4 b a (sext64 i) s
/-- STD (R329). -/
def execStd (b a : Reg) (i : BitVec 16) (s : State) : Result := directStore 8 b a (sext64 i) s

/-- STL (R330): the checks, the wait of a release at its scope, ATM.15 when one of the entries it covers faulted, then the
store. -/
def execStl (b a : Reg) (sc : Scope) (w : Width) (i : BitVec 12) (s : State) : Result :=
  afterAcquire s fun s =>
    let ea := effAddr (s.reg a) (sext64 i)
    match storeFault s ea (widthBytes w) true with
    | some f => .next (s.trap f ea)
    | none =>
      if releaseHeld s s.turn sc s.cur.issueSeq true then .next s.wait
      else match faultedWithin s s.turn sc s.cur.issueSeq with
        | some q => .next (s.trap 0x04F q)
        | none => finish0 (directPut s ea (widthBytes w) (s.reg b))

end Sys2Proof.Machine
end

