-- ==== Sys2Proof/Machine/Sync.lean ====
section
/-! DEFINITION. Launches, barriers, deck commands, RNG commands and append regions at issue (R370 to R380). -/

namespace Sys2Proof.Machine

/-- An entry that a command takes (R192). -/
def commandEntry (s : State) (op : EntryOp) (store : Bool) (x y : Word) : QEntry where
  busy := true
  op := op
  storeType := store
  seq := s.cur.issueSeq
  addr := x.toNat
  data := y.toNat
  mode := s.cur.mode
  issuedAt := s.clock s.turn

/-! ### Launches (R370, R371) -/

/-- LNCH (R370): the request leaves once the release of R221 holds (LAUNCH_REQUEST). -/
def execLnch (a b : Reg) (q : QNum) (s : State) : Result :=
  let x := s.reg a
  let y := s.reg b
  command (fun s => [failIf (fld y 63 28 != 0 || fld y 15 3 != 0) 0x130, failIf (s.cur.entry q.toNat).busy 0x015,
      failIf (bitAt y 2 && decide (3072 ≤ fld y 27 16)) 0x110, failIf (bitAt y 2 && !s.links.pkgSet) 0x113]) 0 s fun s =>
    finish0 (takeEntry s q.toNat (commandEntry s .launch false x y))

/-- A graph is still on its way to an outcome. -/
def graphLive (g : Graph) : Bool :=
  match g.phase with
  | .halted => false
  | .retired => false
  | .refused => false
  | _ => true

/-- The outcome LWAIT gives for a handle of this package, none while the graph is on its way (R371). -/
def launchOutcome (s : State) (x h : Nat) : Option Nat :=
  let past := match NMap.find s.ctxs x with
    | none => none
    | some k => (k.outcomes.reverse.find? fun (o : Nat × Nat) => o.1 == h).map Prod.snd
  match s.graph? h with
  | none => some (past.getD 0x137)
  | some g => if graphLive g then none else some (past.getD 0x137)

/-- LWAIT (R371): the outcome of a graph of another package is what that package tells once the graph has ended (log entry 18). -/
def execLwait (d a : Reg) (s : State) : Result :=
  let x := s.reg a
  let h := fld x 31 0
  let own := (s.ctxOf s.turn).getD 0
  command (fun _ => [failIf (fld x 63 44 != 0) 0x130, failIf (h / 2 ^ 28 != own) 0x137]) 0 s fun s =>
    let pkg := fld x 43 32
    if pkg ≠ s.links.pkg then
      match s.cur.awaited with
      | some (p, g, r) =>
        let s1 := s.modCur fun k => { k with awaited := none }
        if p = pkg ∧ g = h then finish s1 d (BitVec.ofNat 64 (r % 512)) else .next s1.wait
      | none => .next s.wait
    else match launchOutcome s own h with
      | none => .next s.wait
      | some r => finish s d (BitVec.ofNat 64 r)

/-! ### Barriers (R372 to R374) -/

/-- The scope a code names (R292). -/
def scopeOf (n : Nat) : Scope := if n = 0 then .core else if n = 1 then .card else if n = 2 then .deck else .dom

/-- The number of a barrier's instance at a scope, seen from a core (R372). -/
def barKey (b : Nat) (sc : Scope) (c : Nat) : Nat :=
  16 * b + (match sc with | .core => 15 | .card => c / 192 | .deck => 12 | .dom => 13)

/-- The instances of a barrier that a core can reach. -/
def barKeys (b c : Nat) : List Nat := [barKey b .card c, barKey b .deck c, barKey b .dom c]

/-- A barrier instance of a graph. -/
def barInst (g : Graph) (key : Nat) : Option BarInst := NMap.find g.barriers key

/-- The completed phases of a core's instance of a barrier. -/
def barPhases (s : State) (c b : Nat) : Nat :=
  let sc := (NMap.getD ({} : CoreBar) (s.core c).bars b).scope
  match (s.graph? (s.core c).graph).bind fun g => barInst g (barKey b sc c) with
  | none => 0
  | some i => i.c

/-- The largest count of participants of a scope (R372). -/
def barLimit (sc : Scope) : Nat :=
  match sc with
  | .dom => 2 ^ 24
  | .deck => 2304
  | _ => 192

/-- A BARI with a count and a scope reaches a barrier's instance of a graph, or finds the one that a core can reach: the first sets
it, one with other values is refused (R372). -/
def bariAt (g : Graph) (b c p : Nat) (sc : Scope) : Option Graph :=
  match (barKeys b c).findSome? (barInst g) with
  | none => some { g with barriers := NMap.put g.barriers (barKey b sc c) { scope := sc, p := p } }
  | some i => if i.scope = sc ∧ i.p = p then some g else none

/-- An arrival of phase k is counted at an instance: a phase is complete at P arrivals, and C counts those complete without a gap
(R373). -/
def BarInst.count (i : BarInst) (k : Nat) : BarInst :=
  let counts := NMap.put i.counts k (NMap.getD 0 i.counts k + 1)
  let full := fun (j : Nat) => decide (i.p ≤ NMap.getD 0 counts j)
  let done := (List.range 17).foldl (fun (a : Nat) _ => if full a then a + 1 else a) i.c
  { i with c := done, counts := counts.filter fun (j, _) => decide (done ≤ j) }

/-- An arrival of phase k is counted at the instance of a graph with a key, if it is there. -/
def Graph.barCount (g : Graph) (key k : Nat) : Graph :=
  match barInst g key with
  | none => g
  | some i => { g with barriers := NMap.put g.barriers key (i.count k) }

/-- The instance of a scope lies at another package, which coordinates the graph: this one keeps what it is told of it (R372). -/
def barAway (g : Graph) (sc : Scope) : Bool := g.coord.isSome && decide (sc = .dom)

/-- BARI (R372): SYNC.0, SYNC.8; the first to reach an instance sets it, a later one with other values halts the graph. -/
def execBari (a b : Reg) (n : BitVec 3) (s : State) : Result :=
  let p := (s.reg a).toNat
  let y := s.reg b
  let sc := scopeOf (fld y 1 0)
  command (fun _ => [failIf (fld y 63 2 != 0) 0x130,
      failIf (fld y 1 0 == 0 || p == 0 || decide (barLimit sc < p)) 0x138]) 0 s fun s =>
    let c := s.turn
    let h := s.cur.graph
    let mine : CoreBar := NMap.getD {} s.cur.bars n.toNat
    let s1 := s.modCur fun k => { k with bars := NMap.put k.bars n.toNat { mine with inited := true, p := p, scope := sc } }
    match s.graph? h with
    | none => finish0 s1
    | some g =>
      match bariAt g n.toNat c p sc with
      | some g1 => finish0 (s1.modGraph h fun _ => g1)
      | none => .next ((s.advance 4).haltGraph h { cause := 0x138, core := coreName c })

/-- A phase token (R373). -/
def phaseToken (h b k : Nat) : Word := BitVec.ofNat 64 (h % 256 * 2 ^ 48 + b % 8 * 2 ^ 40 + k % 2 ^ 32)

/-- BARA (R373): SYNC.9; at most fifteen phases ahead; the arrival is on its way (BARRIER_ARRIVAL). -/
def execBara (d : Reg) (n : BitVec 3) (s : State) : Result :=
  command (fun s => [failIf (!(NMap.getD ({} : CoreBar) s.cur.bars n.toNat).inited) 0x139]) 0 s fun s =>
    let m : CoreBar := NMap.getD {} s.cur.bars n.toNat
    let k := m.arrivals
    if barPhases s s.turn n.toNat + 16 ≤ k then .next s.wait
    else
      let m1 := { m with arrivals := k + 1, onWay := m.onWay ++ [(k, s.cur.issueSeq)] }
      finish (s.modCur fun x => { x with bars := NMap.put x.bars n.toNat m1 }) d (phaseToken s.cur.graph n.toNat k)

/-- The checks of a phase token (R372, R374): SYNC.10, then SYNC.9. -/
def tokenFaults (s : State) (x : Word) : List (Option Nat) :=
  [failIf (fld x 63 56 != 0 || fld x 47 43 != 0 || fld x 39 32 != 0 || fld x 55 48 != s.cur.graph % 256) 0x13A,
    failIf (!(NMap.getD ({} : CoreBar) s.cur.bars (fld x 42 40)).inited) 0x139]

/-- The phase of a token is complete. -/
def phaseDone (s : State) (x : Word) : Bool := decide (fld x 31 0 < barPhases s s.turn (fld x 42 40))

/-- BARW (R374). -/
def execBarw (a : Reg) (s : State) : Result :=
  let x := s.reg a
  command (fun s => tokenFaults s x) 0 s fun s => if phaseDone s x then finish0 s else .next s.wait

/-- BART (R374). -/
def execBart (d a : Reg) (s : State) : Result :=
  let x := s.reg a
  command (fun s => tokenFaults s x) 0 s fun s => finish s d (flagWord (phaseDone s x))

/-- BARRIER_ARRIVAL (R373, R222): the oldest arrival of a core whose release holds is counted, by the package that has the instance.
A core that stands still sends nothing (R126, R170, R282). -/
def execBarrierArrival (c n : Nat) (s : State) : Result :=
  let m : CoreBar := NMap.getD {} (s.core c).bars n
  match m.onWay with
  | [] => .next s
  | (k, seq) :: rest =>
    if releaseHeld s c m.scope seq true || !(coreMoves (s.core c)) || (s.core c).cut then .next s
    else
      let h := (s.core c).graph
      let key := barKey n m.scope c
      let s1 := s.modCore c fun x => { x with bars := NMap.put x.bars n { m with onWay := rest } }
      .next (s1.modGraph h fun g => if barAway g m.scope then g else g.barCount key k)

/-! ### Deck commands (R375 to R377) -/

/-- The context of a core has a KCLASS 2 slot on its card (R45, R54). -/
def hasWindowSlot (s : State) (c : Nat) : Bool :=
  match s.ctxOf c with
  | none => false
  | some x => s.deck.calendar.any fun (_, w) =>
      bitAt w 31 && fld w 30 27 == c / 192 && fld w 26 23 == x && fld w 22 20 == 2

/-- A deck operation of the moving core. -/
def deckOp (s : State) (off : Nat) (bs : List Byte) : DeckOp where
  atomic := false
  card := s.turn / 192
  index := s.turn % 192
  ctx := (s.ctxOf s.turn).getD 0
  off := off
  bytes := bs
  seq := s.cur.issueSeq

/-- An operation enters the deck interface of the moving core. -/
def deckPush (o : DeckOp) (s : State) : State := s.modCur fun k => { k with deckq := k.deckq ++ [o] }

/-- DKST (R375): SYNC.0, DECK.4, DECK.3, DECK.1, DECK.6, CPM.0, CPM.4; sixteen operations a core (R349). -/
def execDkst (a b : Reg) (s : State) : Result :=
  let off := (s.reg a).toNat
  let y := s.reg b
  let n := fld y 44 32
  let src := fld y 20 0
  command (fun s => [failIf (fld y 63 45 != 0 || fld y 31 21 != 0) 0x130, failIf (n == 0 || decide (4096 < n)) 0x104,
      failIf (decide (2 ^ 20 < off + n)) 0x103, failIf (!(deckRangeOk s s.turn s.cur.mode off n)) 0x101,
      failIf (!(hasWindowSlot s s.turn)) 0x106, operandFault src n 1]) 0 s fun s =>
    if 16 ≤ s.cur.deckq.length then .next s.wait
    else withOperand src n s fun bs s =>
      finish0 ((deckPush (deckOp s off bs) s).modCur fun k => { k with issueSeq := k.issueSeq + 1 })

/-- DKADD and DKCAS (R376): CPX.5, DECK.1, DECK.5, DECK.6; a store-type entry whose source is released at issue. -/
def deckAtomic (aop : Nat) (op : EntryOp) (cmp : Word) (a b : Reg) (w : AWidth) (q : QNum) (s : State) : Result :=
  let off := (s.reg a).toNat
  let y := s.reg b
  let n := awidthBytes w
  command (fun s => [failIf (s.cur.entry q.toNat).busy 0x015,
      failIf (decide (2 ^ 20 < off + n) || !(deckRangeOk s s.turn s.cur.mode off n)) 0x101, failIf (off % n != 0) 0x105,
      failIf (!(hasWindowSlot s s.turn)) 0x106]) 0 s fun s =>
    if 16 ≤ s.cur.deckq.length then .next s.wait
    else
      let o := { deckOp s off (leBytes n y.toNat) with
        atomic := true, aop := aop, double := n == 8, cmp := cmp.toNat % 2 ^ (8 * n), q := q.toNat }
      finish0 (takeEntry (deckPush o s) q.toNat { commandEntry s op true (s.reg a) y with released := true, bytes := n })

/-- DKADD (R376). -/
def execDkadd (a b : Reg) (w : AWidth) (q : QNum) (s : State) : Result := deckAtomic 0 .deckAdd 0 a b w q s
/-- DKCAS (R376). -/
def execDkcas (d a b : Reg) (w : AWidth) (q : QNum) (s : State) : Result := deckAtomic 1 .deckCas (s.reg d) a b w q s

/-- DKSYNC (R377). -/
def execDksync (s : State) : Result :=
  command (fun _ => []) 0 s fun s => if s.cur.deckq.isEmpty && s.cur.deckOut == 0 then finish0 s else .next s.wait

/-! ### RNG commands (R378) -/

/-- A stream that the active configuration binds: FMT.11 (R256). -/
def boundFault (s : State) (n : Nat) : Option Nat := failIf (rngBound s.cur n) 0x0FB

/-- RNGK (R378). -/
def execRngk (a : Reg) (n : BitVec 3) (s : State) : Result :=
  let x := s.reg a
  command (fun s => [boundFault s n.toNat]) 0 s fun s =>
    finish0 (s.modCur fun k => { k with rngs := NMap.put k.rngs n.toNat { k.rng n.toNat with key := x } })

/-- RNGC (R378). -/
def execRngc (a b : Reg) (n : BitVec 3) (s : State) : Result :=
  let x := s.reg a
  let y := s.reg b
  command (fun s => [boundFault s n.toNat]) 0 s fun s =>
    finish0 (s.modCur fun k => { k with rngs := NMap.put k.rngs n.toNat { k.rng n.toNat with ctr := y ++ x } })

/-- One draw of a stream by the CP: FMT.10 at the counter's end (R378). -/
def rngDraw (n : Nat) (s : State) (f : List Nat → State → Result) : Result :=
  match drawOnce s s.turn n with
  | .error c => .next (s.trap c 0)
  | .ok (ws, s1) => f ws s1

/-- The destination of a draw: y_1:y_0. -/
def drawWord (ws : List Nat) : Word := BitVec.ofNat 64 (ws.getD 1 0 * 2 ^ 32 + ws.getD 0 0)

/-- RNGD (R378). -/
def execRngd (d : Reg) (n : BitVec 3) (s : State) : Result :=
  command (fun s => [boundFault s n.toNat]) 0 s fun s => rngDraw n.toNat s fun ws s => finish s d (drawWord ws)

/-- RNGD.st (R378): the buffer's checks, then FMT.11, then the draw; the four words are stored. -/
def execRngdSt (d a : Reg) (n : BitVec 3) (s : State) : Result :=
  let x := (s.reg a).toNat
  command (fun s => [operandFault x 16 16, failIf (decide (s.cur.mode = .u) && s.cur.inCode x 16) 0x027,
      boundFault s n.toNat]) 0 s fun s =>
    rngDraw n.toNat s fun ws s =>
      finish ((keepCode s x 16).setTile s.turn x (ws.map (leBytes 4)).flatten) d (drawWord ws)

/-! ### Append regions (R379, R380) -/

/-- An append region of the moving core. -/
def region (s : State) (n : BitVec 3) : Append := NMap.getD {} s.cur.appends n.toNat

/-- The state with a region of the moving core replaced. -/
def setRegion (s : State) (n : BitVec 3) (r : Append) : State :=
  s.modCur fun k => { k with appends := NMap.put k.appends n.toNat r }

/-- The limits of a region record (R379): SYNC.11. -/
def regionBad (ds : List Word) : Bool :=
  let d2 := ds.getD 2 0
  let d3 := ds.getD 3 0
  fld (ds.getD 0 0) 3 0 != 0 || fld (ds.getD 1 0) 2 0 != 0 || fld d2 63 40 == 0 || fld d2 39 13 != 0
    || fld d2 12 0 == 0 || decide (4096 < fld d2 12 0) || fld d2 3 0 != 0 || fld d3 63 32 != 0
    || decide (fld d2 63 40 < fld d3 31 0)

/-- APND.SET (R379). -/
def execApndSet (a : Reg) (n : BitVec 3) (s : State) : Result :=
  let x := (s.reg a).toNat
  command (fun _ => [operandFault x 32 16]) 0 s fun s =>
    withOperand x 32 s fun bs s =>
      let ds := (chunks 8 4 bs).map fun b => BitVec.ofNat 64 (ofLe b)
      let len := fld (ds.getD 3 0) 31 0
      checks [failIf (regionBad ds) 0x13B] 0 s fun s =>
        finish0 (setRegion s n { region s n with
          set := true, base := (ds.getD 0 0).toNat, lenAddr := (ds.getD 1 0).toNat, capRows := fld (ds.getD 2 0) 63 40
          rowBytes := fld (ds.getD 2 0) 12 0, len := len, tlen := len, mpos := len })

/-- A write enters a region's queue. -/
def pushAppend (s : State) (n : BitVec 3) (r : Append) (w : ApWrite) : State :=
  (setRegion s n { r with queue := r.queue ++ [w] }).modCur fun k => { k with issueSeq := k.issueSeq + 1 }

/-- APND.ROW (R380): SYNC.11, the row's address checks, SYNC.12; four row writes a region (R349). -/
def execApndRow (d a : Reg) (n : BitVec 3) (s : State) : Result :=
  let x := (s.reg a).toNat
  let r := region s n
  command (fun _ => [failIf (!r.set) 0x13B, operandFault x r.rowBytes 16, failIf (r.tlen == r.capRows) 0x13C]) 0 s fun s =>
    if 4 ≤ (r.queue.filter fun w => !w.isLen).length then .next s.wait
    else withOperand x r.rowBytes s fun bs s =>
      let w : ApWrite := { addr := (r.base + r.tlen * r.rowBytes) % 2 ^ 64, bytes := bs, isLen := false
                           seq := s.cur.issueSeq, mode := s.cur.mode }
      finish (pushAppend s n { r with tlen := r.tlen + 1 } w) d (BitVec.ofNat 64 r.tlen)

/-- The committed length becomes t, and its store enters the region's queue (R380). -/
def commitRows (s : State) (n : BitVec 3) (r : Append) (t : Nat) : State :=
  let w : ApWrite := { addr := r.lenAddr, bytes := leBytes 8 t, isLen := true, seq := s.cur.issueSeq, mode := s.cur.mode }
  pushAppend s n { r with tlen := t, len := t, mpos := t } w

/-- MARK (R380). -/
def execMark (n : BitVec 3) (s : State) : Result :=
  let r := region s n
  command (fun _ => [failIf (!r.set) 0x13B]) 0 s fun s => finish0 (commitRows s n r r.tlen)

/-- A row of a region loses its bytes: what memory holds of it, and what the region's queue still carries to it, becomes
free (R380, log entry 53). -/
def loseRow (n : BitVec 3) (s : State) (row : Nat) : State :=
  let r := region s n
  let addr := (r.base + row * r.rowBytes) % 2 ^ 64
  let f := freeBytes s r.rowBytes
  let s1 := match reach [] f.2 s.turn 0 0 s.cur.mode addr r.rowBytes false true with
    | .ok ps => writePieces ps f.1 f.2
    | _ => f.2
  setRegion s1 n { r with queue := r.queue.map fun w =>
    if !w.isLen && w.addr == addr then { w with bytes := (f.1 ++ w.bytes.drop f.1.length).take w.bytes.length } else w }

/-- The rows of a region from row t on lose their bytes. -/
def loseRows (s : State) (n : BitVec 3) (t : Nat) : State :=
  (List.range ((region s n).tlen - t)).foldl (fun s i => loseRow n s (t + i)) s

/-- FOLD (R380). -/
def execFold (a : Reg) (n : BitVec 3) (s : State) : Result :=
  let x := (s.reg a).toNat
  let r := region s n
  command (fun _ => [failIf (!r.set) 0x13B, failIf (decide (r.tlen - r.mpos < x)) 0x13C]) 0 s fun s =>
    let s1 := loseRows s n (r.mpos + x)
    finish0 (commitRows s1 n (region s1 n) (r.mpos + x))

end Sys2Proof.Machine
end

