-- ==== Sys2Proof/Machine/Matrix.lean ====
section
/-! DEFINITION. The matrix engine: its commands at issue, judged against the engine as it will stand, and the events that
run them (R430 to R443). -/

namespace Sys2Proof.Machine

/-- What issuing a matrix or meld command gives: it waits for room, faults, halts the graph over an uncorrectable error of the
record it reads, or changes the state and returns a value for rd. -/
inductive Issue where
  | wait
  | fault (cause : Nat)
  | halt (s : State)
  | ok (s : State) (v : Word)

/-- The first failing check faults; otherwise the command goes on. -/
def issueChecks (cs : List (Option Nat)) (f : Unit → Issue) : Issue :=
  match cs.findSome? id with
  | some c => .fault c
  | none => f ()

/-- A command of the CP with what its issue gives: held after an acquire (R338), a precise trap (R430), a wait for room
(R349), or done. -/
def runIssue (d : Reg) (s : State) (f : State → Issue) : Result :=
  afterAcquire s fun s =>
    match f s with
    | .wait => .next s.wait
    | .fault c => .next (s.trap c 0)
    | .halt s1 => .next s1
    | .ok s1 v => finish s1 d v

/-- n bytes of the record a command reads to make its checks: an uncorrectable error halts the graph (R274, R430). -/
def issueRead (c off n : Nat) (s : State) (f : State → Issue) : Issue :=
  match s.ueAt (winBase c + off) n with
  | some u => .halt (s.ueHalt c u)
  | none => f (s.correct (winBase c + off) n)

/-! ### The engine as it will stand (R432) -/

/-- What the checks judge: the two B buffers (valid, groups, type), the bank modes, gang mode. -/
structure MxView where
  active : Bool × Nat × Nat
  loading : Bool × Nat × Nat
  modes : NMap Nat
  gang : Bool

/-- BTYPE and KG of a B word. -/
def bType (y : Word) : Nat := fld y 12 8
/-- KG of a B word or a multiply word. -/
def wordKg (y : Word) : Nat := fld y 5 0 + 1

/-- A command's effect on the view. -/
def viewStep (v : MxView) (m : MxCmd) : MxView :=
  match m.op with
  | .mxb _ => { v with loading := (true, wordKg m.y, bType m.y) }
  | .mxsw => { v with active := v.loading, loading := v.active }
  | .clr b => { v with modes := NMap.put v.modes b (fld m.y 1 0) }
  | .sort _ _ => { v with loading := (false, 0, 0) }
  | .gang on => { v with gang := on }
  | _ => v

/-- The engine as it stands now. -/
def viewNow (x : Matrix) : MxView where
  active := (x.active.valid, x.active.kg, x.active.tcode)
  loading := (x.loading.valid, x.loading.kg, x.loading.tcode)
  modes := x.banks.map fun (b, k) => (b, k.mode)
  gang := x.gang

/-- The engine as it will stand after its queue. -/
def mxView (k : Core) : MxView := k.matrix.queue.foldl viewStep (viewNow k.matrix)

/-! ### Checks shared by the commands -/

/-- PWR.10 (R37): the core's class has no matrix part. -/
def noMatrix (k : Core) : Option Nat := failIf (!(k.eclass == 4 || k.eclass == 5)) 0x15A

/-- MTX.6 (R440): gang mode is on and the core is not the leader. -/
def gangMember (s : State) (c : Nat) : Option Nat :=
  failIf ((mxView (s.core c)).gang && (gangCores s c).head? != some c) 0x0D6

/-- A PIN or POUT of the active plane with an APORT at a south port (R417). -/
def southWired (g : Grid) (op ap : Nat) : Bool :=
  g.act.valid && g.act.words.any fun w => wOp w == op && aport w == ap

/-- The port rule of R435: the port is wired, and in U mode a firing is in progress. -/
def portFault (k : Core) (md : Mode) (op ap cause : Nat) : Option Nat :=
  failIf (!(southWired k.grid op ap) || (decide (md = .u) && !k.infire)) cause

/-- A command enters the matrix queue of a core, and of every gang member in gang mode (R440). -/
def mxPush (s : State) (c : Nat) (op : MxOp) (x y : Word) (rcd : List Word) : Issue :=
  let gang := (mxView (s.core c)).gang || (match op with | .gang _ => true | _ => false)
  let cs := if gang then gangCores s c else [c]
  if cs.any fun c' => decide (8 ≤ (s.core c').matrix.queue.length) then .wait
  else
    let m : MxCmd := { op := op, x := x, y := y, rcd := rcd, iseq := (s.core c).issueSeq, gang := gang }
    let s1 := cs.foldl (fun s c' => s.modCore c' fun k => { k with matrix := { k.matrix with queue := k.matrix.queue ++ [m] } }) s
    .ok (s1.modCore c fun k => { k with issueSeq := k.issueSeq + 1 }) 0

/-! ### Issue (R433 to R441) -/

/-- Bytes of a column of K elements of a type (R433). -/
def columnBytes (t k : Nat) : Nat := if isBlock t then k / unitElems t * unitBytes t else ceilDiv (k * elemBits t) 8

/-- MTX.1 (R433). -/
def bWordBad (y : Word) (port : Bool) : Bool :=
  let t := bType y
  let k := 8 * wordKg y
  let st := fld y 52 32
  t == 0x04 || t == 0x08 || t == 0x09 || decide (0x1B ≤ t) || ((isFloat t || isBlock t) != (fld y 19 16 != 0))
    || (isBlock t && k % unitElems t != 0) || (!port && (decide (st < columnBytes t k) || st % 16 != 0)) || (port && isBlock t)

/-- Zero bits of the B word. -/
def bWordReserved (y : Word) (port : Bool) : Bool :=
  fld y 63 53 != 0 || fld y 31 20 != 0 || fld y 15 13 != 0 || fld y 7 6 != 0 || (port && fld y 52 32 != 0)

/-- MXB at issue. -/
def issueMxb (port : Bool) (c : Nat) (md : Mode) (x y : Word) (s : State) : Issue :=
  issueChecks [noMatrix (s.core c), failIf (bWordReserved y port) 0x0DE, gangMember s c, failIf (bWordBad y port) 0x0D1,
      if port then portFault (s.core c) md 0x2C1 0x39 0x0DA else operandFault x.toNat (64 * fld y 52 32) 16]
    fun _ => mxPush s c (.mxb port) x y []

/-- MXSW at issue (R434). -/
def issueMxsw (c : Nat) (s : State) : Issue :=
  issueChecks [noMatrix (s.core c), gangMember s c, failIf (!(mxView (s.core c)).loading.1) 0x0DC]
    fun _ => mxPush s c .mxsw 0 0 []

/-- ATYPE, p, mode and KOFF of a multiply word (R435). -/
def aType (y : Word) : Nat := fld y 20 16
/-- p. -/
def aPlanes (y : Word) : Nat := fld y 11 8 + 1
/-- MODE. -/
def mulMode (y : Word) : Nat := fld y 33 32
/-- KOFF. -/
def mulOff (y : Word) : Nat := fld y 29 24

/-- Zero bits of the multiply word. -/
def mulReserved (y : Word) : Bool :=
  fld y 63 34 != 0 || fld y 31 30 != 0 || fld y 23 21 != 0 || fld y 15 12 != 0 || fld y 7 6 != 0

/-- MTX.0 (R435). -/
def aTypeBad (y : Word) : Bool :=
  let t := aType y
  let p := aPlanes y
  decide (0x1B < t) || (t == 0x0B && p != 1) || (t == 0x0A && decide (p < 2))
    || (p == 1 && t != 0x0B && !(isInteger t))

/-- MTX.4 (R435). -/
def mulModeBad (v : MxView) (bank : Nat) (y : Word) : Bool :=
  let md := mulMode y
  md == 3 || md != NMap.getD 0 v.modes bank
    || (md == 0 && (isAligned (aType y) || (v.active.1 && isAligned v.active.2.2)))

/-- The bytes of A that a multiply reads (R435). -/
def aBytes (y : Word) : Nat := wordKg y * ((if isAligned (aType y) then 64 else 0) + 32 * aPlanes y)

/-- MXMM at issue (R435). -/
def issueMxmm (bank : Nat) (port : Bool) (c : Nat) (md : Mode) (x y : Word) (s : State) : Issue :=
  let v := mxView (s.core c)
  issueChecks [noMatrix (s.core c), failIf (mulReserved y) 0x0DE, gangMember s c, failIf (aTypeBad y) 0x0D0,
      failIf (mulModeBad v bank y) 0x0D4, failIf (!v.active.1) 0x0D3, failIf (decide (v.active.2.1 < mulOff y + wordKg y)) 0x0D2,
      if port then portFault (s.core c) md 0x2C1 0x38 0x0DA else operandFault x.toNat (aBytes y) 16]
    fun _ => mxPush s c (.mxmm bank port) x y []

/-- MXACC.clr at issue (R439): MTX.14 for the bits that are always zero, MTX.8 for a field out of range. -/
def issueClr (bank : Nat) (c : Nat) (y : Word) (s : State) : Issue :=
  issueChecks [noMatrix (s.core c), failIf (fld y 63 32 != 0 || fld y 15 2 != 0) 0x0DE, gangMember s c,
      failIf (fld y 1 0 == 3 || (fld y 1 0 != 2 && fld y 31 16 != 0)) 0x0D8]
    fun _ => mxPush s c (.clr bank) 0 y []

/-- Zero bits of an output word (R439). -/
def outReserved (y : Word) : Bool :=
  fld y 63 14 != 0 || bitAt y 11 || fld y 7 5 != 0

/-- MTX.8 for the fields of an output word; EOT belongs to outp only. -/
def outBad (y : Word) (mode : Nat) (port : Bool) : Bool :=
  let t := fld y 4 0
  decide (4 ≤ fld y 10 8) || (!port && bitAt y 12) || !(decide (t ≤ 0x13) || (t == 0x1C && mode == 2))

/-- MXACC.outs and outp at issue (R439). -/
def issueOut (bank : Nat) (port : Bool) (c : Nat) (md : Mode) (x y : Word) (s : State) : Issue :=
  let k := s.core c
  let n := 32 * vecBytes (fld y 4 0)
  let mode := NMap.getD 0 (mxView k).modes bank
  let a := x.toNat
  issueChecks [noMatrix k, failIf (outReserved y) 0x0DE, gangMember s c,
      failIf (outBad y mode port || (!port && (k.inCode a n || k.inWindow a n))) 0x0D8,
      if port then portFault k md 0x2C0 0x3A 0x0DA else operandFault a n 16]
    fun _ => mxPush s c (if port then .outp bank else .outs bank) x y []

/-- The status of a bank (R439). -/
def bankStatus (k : Core) (bank : Nat) : Word :=
  let b : Bank := NMap.getD {} k.matrix.banks bank
  let pend := banksBusy k bank
  BitVec.ofNat 64 (wrapN 16 b.e * 2 ^ 48 + b.mode % 4 * 2 ^ 46 + (if pend ≠ 0 then 1 else 0) * 2 ^ 45
    + (if k.matrix.active.valid then 1 else 0) * 2 ^ 44 + (if k.matrix.loading.valid then 1 else 0) * 2 ^ 43
    + pend % 256 * 2 ^ 32 + b.done % 2 ^ 32)

/-- Fields of a sort record (R441): N, KTYPE, ORDER, IDXGEN. -/
def sortN (r : List Word) : Nat := fld (r.getD 4 0) 20 0
/-- KTYPE. -/
def sortType (r : List Word) : Nat := fld (r.getD 4 0) 28 24
/-- Descending order. -/
def sortDown (r : List Word) : Bool := bitAt (r.getD 4 0) 32
/-- IDXGEN. -/
def sortGen (r : List Word) : Bool := bitAt (r.getD 4 0) 33

/-- MTX.9 (R441). -/
def sortBad (k : Core) (r : List Word) (keysIn out : Bool) : Bool :=
  let d := fun i => r.getD i 0
  let t := sortType r
  let n := sortN r
  let kb := n * elemBits t / 8
  let leaves := fun (i bytes : Nat) => decide (tileSize < (d i).toNat % 2 ^ 21 + bytes)
  let hits := fun (i bytes : Nat) => k.inCode ((d i).toNat % 2 ^ 21) bytes || k.inWindow ((d i).toNat % 2 ^ 21) bytes
  (List.range 4).any (fun i => fld (d i) 63 21 != 0) || fld (d 4) 63 34 != 0 || fld (d 4) 31 29 != 0 || fld (d 4) 23 21 != 0
    || (d 5) != 0 || (d 6) != 0 || (d 7) != 0 || n == 0 || decide (2 ^ 20 < n)
    || !(t == 0x03 || t == 0x04 || t == 0x08 || t == 0x09 || t == 0x0C || t == 0x0D || t == 0x0E)
    || (keysIn && !(sortGen r)) || (!keysIn && leaves 0 kb) || (!(sortGen r) && leaves 1 (4 * n))
    || (!out && (leaves 2 kb || leaves 3 (4 * n) || hits 2 kb || hits 3 (4 * n)))

/-- MXSORT at issue (R440, R441). -/
def issueSort (keysIn out : Bool) (c : Nat) (md : Mode) (x : Word) (s : State) : Issue :=
  issueChecks [noMatrix (s.core c), operandFault x.toNat 64 16] fun _ =>
    issueRead c x.toNat 64 s fun s =>
      let k := s.core c
      let r := s.tileDs c x.toNat 8
      issueChecks [failIf (mxView k).gang 0x0D6, failIf (sortBad k r keysIn out) 0x0D9,
          if keysIn then portFault k md 0x2C1 0x38 0x0DA else none, if out then portFault k md 0x2C0 0x3A 0x0DA else none]
        fun _ => mxPush s c (.sort keysIn out) x 0 r

/-- MXGANG at issue (R440). -/
def issueGang (c : Nat) (x : Word) (s : State) : Issue :=
  let g := gangCores s c
  issueChecks [noMatrix (s.core c), gangMember s c, failIf (decide (g.length ≤ 1) || g.head? != some c) 0x0D5]
    fun _ => mxPush s c (.gang (bitAt x 0)) x 0 []

/-! ### The commands of the CP -/

/-- MXB (R433). -/
def execMxb (a b : Reg) (s : State) : Result :=
  runIssue 0 s fun s => issueMxb false s.turn s.cur.mode (s.reg a) (s.reg b) s
/-- MXB.pb (R433). -/
def execMxbPb (b : Reg) (s : State) : Result := runIssue 0 s fun s => issueMxb true s.turn s.cur.mode 0 (s.reg b) s
/-- MXSW (R434). -/
def execMxsw (s : State) : Result := runIssue 0 s fun s => issueMxsw s.turn s
/-- MXMM (R435). -/
def execMxmm (a b : Reg) (n : BitVec 2) (s : State) : Result :=
  runIssue 0 s fun s => issueMxmm n.toNat false s.turn s.cur.mode (s.reg a) (s.reg b) s
/-- MXMM.pa (R435). -/
def execMxmmPa (b : Reg) (n : BitVec 2) (s : State) : Result :=
  runIssue 0 s fun s => issueMxmm n.toNat true s.turn s.cur.mode 0 (s.reg b) s
/-- MXACC.clr (R439). -/
def execMxaccClr (b : Reg) (n : BitVec 2) (s : State) : Result := runIssue 0 s fun s => issueClr n.toNat s.turn (s.reg b) s
/-- MXACC.qry (R439). -/
def execMxaccQry (d : Reg) (n : BitVec 2) (s : State) : Result :=
  runIssue d s fun s => .ok s (bankStatus s.cur n.toNat)
/-- MXACC.outs (R439). -/
def execMxaccOuts (a b : Reg) (n : BitVec 2) (s : State) : Result :=
  runIssue 0 s fun s => issueOut n.toNat false s.turn s.cur.mode (s.reg a) (s.reg b) s
/-- MXACC.outp (R439). -/
def execMxaccOutp (b : Reg) (n : BitVec 2) (s : State) : Result :=
  runIssue 0 s fun s => issueOut n.toNat true s.turn s.cur.mode 0 (s.reg b) s
/-- MXSORT (R441). -/
def execMxsort (a : Reg) (k : BitVec 1) (i : BitVec 1) (s : State) : Result :=
  runIssue 0 s fun s => issueSort (k == 1) (i == 1) s.turn s.cur.mode (s.reg a) s
/-- MXGANG (R440). -/
def execMxgang (a : Reg) (s : State) : Result := runIssue 0 s fun s => issueGang s.turn (s.reg a) s

/-- What an MXWAIT waits for: the matrix commands issued before the point where it issued, and the count of meld commands completed
once those before it are. Commands that a follow-on enters meanwhile are later ones (R443). -/
def mxTarget (k : Core) : Nat × Nat := k.mxWait.getD (k.issueSeq, k.meld.done + k.meld.queue.length)

/-- Every earlier command of the selected queues has completed: of a gang's leader also those its members run for it (R440, R443). -/
def mxIdle (s : State) (c sel : Nat) : Bool :=
  let k := s.core c
  let t := mxTarget k
  let own := k.matrix.queue.all fun m => decide (t.1 ≤ m.iseq)
  let mates := (gangCores s c).head? != some c || (gangCores s c).all fun c' =>
    c' == c || (s.core c').matrix.queue.all fun m => !m.gang || decide (t.1 ≤ m.iseq)
  (sel % 2 == 0 || (own && mates)) && (decide (sel < 2) || decide (t.2 ≤ k.meld.done))

/-- MXWAIT (R443). -/
def execMxwait (d : Reg) (m : BitVec 2) (s : State) : Result :=
  afterAcquire s fun s =>
    if mxIdle s s.turn m.toNat then
      finish (s.modCur fun k => { k with mxWait := none }) d
        (BitVec.ofNat 64 (s.cur.meld.done % 2 ^ 32 * 2 ^ 32 + s.cur.matrix.done % 2 ^ 32))
    else .next (s.modCur fun k => { k with mxWait := some (mxTarget k) }).wait

/-- MXWAIT_TIMEOUT (R443). -/
def execMxwaitTimeout (c : Nat) (s : State) : Result :=
  let isWait := fun (i : Instr) => match i with | .mxwait _ _ => true | _ => false
  .next (if waited s c 1000000000 isWait then (s.modCore c fun k => { k with mxWait := none }).trapAt c 0x0DD 0 (s.core c).pc else s)

/-! ### Execution -/

/-- The engine of a core may act (R126, R170, R282). -/
def engineOk (k : Core) : Bool := !k.cut && decide (k.run ≠ .graphHalted) && decide (k.run ≠ .frozen)

/-- A command of an engine, issued at a point, goes on: its engine moves, or an accepted deck operation waits for it (R57). -/
def engineRuns (k : Core) (iseq : Nat) : Bool := engineOk k || deckBehind k iseq

/-- The point of issue of the oldest command of a core's matrix queue. -/
def mxIssue (k : Core) : Nat := (k.matrix.queue.head?.map MxCmd.iseq).getD k.issueSeq

/-- A core's matrix engine changed. -/
def modMatrix (s : State) (c : Nat) (f : Matrix → Matrix) : State := s.modCore c fun k => { k with matrix := f k.matrix }

/-- The command at a place of the queue is complete. -/
def mxDone (s : State) (c i : Nat) : State :=
  modMatrix s c fun m => { m with queue := m.queue.eraseIdx i, done := m.done + 1 }

/-- Operand bytes of a running command: an uncorrectable error halts the graph (R274). -/
def engineRead (s : State) (c off n : Nat) (f : State → List Byte → State) : State :=
  match s.ueAt (winBase c + off) n with
  | some a => s.ueHalt c a
  | none => f (s.correct (winBase c + off) n) (s.tile c off n)

/-- A fault of a running command that no port names: it goes to the supervisor and halts the graph. -/
def engineHalt (s : State) (c cause : Nat) : State :=
  s.haltGraph (s.core c).graph { cause := cause, core := coreName c, detail := (s.core c).matrix.done % 2 ^ 48 }

/-- The POUT of the active plane at a south port. -/
def southPout (s : State) (c ap : Nat) : Option Nat :=
  let ws := (s.core c).grid.act.words
  (List.range ws.length).find? fun i => wOp (ws.getD i 0) == 0x2C1 && aport (ws.getD i 0) == ap

/-- The ordinal, on the link into the POUT that feeds a south port, of the j-th data token that waits at the port's queue n. -/
def southOrd (s : State) (c ap n j : Nat) : Nat :=
  match southPout s c ap with
  | some i => slotOrd s ⟨c, i, false⟩ 0 + j - ((s.chan c n).filter fun i => (asMark i).isNone).length
  | none => 0

/-- A fault of the token with an ordinal at a south port: the link into the POUT that feeds it is named (R473). -/
def southHalt (s : State) (c ap cause ord : Nat) : State :=
  match southPout s c ap with
  | some i => slotHalt s ⟨c, i, false⟩ 0 cause ord
  | none => engineHalt s c cause

/-- The place of the first token that cannot be read. -/
def firstBad (t : Nat) (l : List (List Byte)) : Nat := l.findIdx fun bs => match decodeToken t bs with | .error _ => true | .ok _ => false

/-- The data tokens at the head of a port, marks ahead of them absorbed: the tokens up to the next mark, and whether a mark
follows. -/
def portTokens (s : State) (c n : Nat) : List (List Byte) × Bool :=
  let l := (s.chan c n).dropWhile fun i => (asMark i).isSome
  let ds := l.takeWhile fun i => (asMark i).isNone
  (ds.map itemBytes, decide (ds.length < l.length))

/-- n data tokens taken from a port with the marks ahead of them. -/
def takePort (s : State) (c n k : Nat) : State :=
  s.setChan c n (((s.chan c n).dropWhile fun i => (asMark i).isSome).drop k)

/-- The counts of a core's matrix engine outside its banks advance: of B loads and sorts (R259, R433, R442; log entry 94). -/
def mxCount (s : State) (c : Nat) (cs : List Nat) : State :=
  let r := joinCounts (s.core c).matrix.counts cs
  statNotice (modMatrix s c fun m => { m with counts := r.1 }) (s.core c).graph (coreName c) 0 r.2

/-- What aligning a column counts (R248, R433). -/
def columnCounts (t pb : Nat) (vs : List Val) : List Nat :=
  if isAligned t then sumCounts ((chunks 8 (vs.length / 8) vs).map fun g => (alignBlock g pb).2) else noCount

/-- What the load of a B word counts. -/
def loadCounts (y : Word) (cols : List (List Val)) : List Nat := sumCounts (cols.map (columnCounts (bType y) (fld y 19 16 + 1)))

/-- The aligned groups of a column from its exact values (R433). -/
def columnGroups (t pb : Nat) (vs : List Val) : List KGroup :=
  (chunks 8 (vs.length / 8) vs).map fun g =>
    if isAligned t then
      match (alignBlock g pb).1 with
      | none => ⟨0x7FFF, List.replicate 8 0⟩
      | some (e, n) => ⟨e, n⟩
    else ⟨0, g.map Val.toInt⟩

/-- The loading buffer filled from its columns' values. -/
def fillB (y : Word) (cols : List (List Val)) (m : Matrix) : Matrix :=
  { m with loading := { valid := true, kg := wordKg y, tcode := bType y, pb := fld y 19 16 + 1
                        cols := cols.map (columnGroups (bType y) (fld y 19 16 + 1)) } }

/-- The values of K packed elements of a type (R232). -/
def packedValues (t k : Nat) (bs : List Byte) : Except Nat (List Val) :=
  match decodeToken t bs with
  | .ok vs => .ok (vs.take k)
  | .error f => .error f

/-- Lists of values in step, or the first fault. -/
def allValues : List (Except Nat (List Val)) → Except Nat (List (List Val))
  | [] => .ok []
  | .error f :: _ => .error f
  | .ok v :: xs =>
    match allValues xs with
    | .ok vs => .ok (v :: vs)
    | .error f => .error f

/-- An MXB at place i of the queue runs on the load lane (R433). -/
def runMxb (s : State) (c i : Nat) (port : Bool) (x y : Word) : State :=
  let t := bType y
  let k := 8 * wordKg y
  if port then
    let all := (s.chan c 17).filter fun it => (asMark it).isNone
    if all.length < k then s
    else
      let rest := ((s.chan c 17).filter fun it => (asMark it).isNone).drop k
      match allValues ((all.take k).map fun it => decodeToken t (itemBytes it)) with
      | .error f => southHalt s c 0x39 f (southOrd s c 0x39 17 (firstBad t ((all.take k).map itemBytes)))
      | .ok rows =>
        let cols := (List.range 64).map fun j => rows.map fun r => r.getD j (.num false 0 1)
        mxDone (mxCount (modMatrix (s.setChan c 17 rest) c (fillB y cols)) c (loadCounts y cols)) c i
  else
    let st := fld y 52 32
    let n := columnBytes t k
    engineRead s c x.toNat (64 * st) fun s bs =>
      match allValues ((List.range 64).map fun j => packedValues t k ((bs.drop (j * st)).take n)) with
      | .error f => engineHalt s c f
      | .ok cols => mxDone (mxCount (modMatrix s c (fillB y cols)) c (loadCounts y cols)) c i

/-- A command that neither changes a buffer nor the gang mode. -/
def passesLoads (m : MxCmd) : Bool :=
  match m.op with
  | .mxmm _ _ => true
  | .clr _ => true
  | .outs _ => true
  | .outp _ => true
  | _ => false

/-- MXB_LOAD (R433): the first MXB of the queue, when only computation and outputs stand before it. -/
def execMxbLoad (c : Nat) (s : State) : Result :=
  let k := s.core c
  .next (if !(engineRuns k (mxIssue k)) then s
    else match (List.range k.matrix.queue.length).find? fun i => !(passesLoads (k.matrix.queue.getD i { op := .mxsw, x := 0, y := 0 })) with
      | none => s
      | some i =>
        match k.matrix.queue[i]? with
        | some ⟨.mxb port, x, y, _, _, _⟩ => runMxb s c i port x y
        | _ => s)

/-- The head of the matrix queue, when the engine may act, runs. -/
def mxHead (s : State) (c : Nat) (f : MxCmd → State) : Result :=
  let k := s.core c
  .next (if !(engineRuns k (mxIssue k)) then s else match k.matrix.queue with | [] => s | m :: _ => f m)

/-- The first command of the matrix queue that is no MXB, when the engine may act, runs at its place: computation goes on
beside loads that stand before it (R433). -/
def mxCompute (s : State) (c : Nat) (f : Nat → MxCmd → State) : Result :=
  let k := s.core c
  let isLoad := fun (m : MxCmd) => match m.op with | .mxb _ => true | _ => false
  .next (if !(engineRuns k (mxIssue k)) then s
    else match k.matrix.queue.findIdx? fun m => !(isLoad m) with
      | none => s
      | some i =>
        match k.matrix.queue[i]? with
        | none => s
        | some m => f i m)

/-- MXSW_EXCHANGE (R434). -/
def execMxswExchange (c : Nat) (s : State) : Result :=
  mxHead s c fun m =>
    match m.op with
    | .mxsw => mxDone (modMatrix s c fun x => { x with active := x.loading, loading := x.active }) c 0
    | _ => s

/-- The integer of element (r, i) of a k-group from its plane records (R249): the p bits, highest plane first. -/
def planeElem (t p : Nat) (planes : List Byte) (r i : Nat) : Int :=
  let bits := (List.range p).foldl (fun n j =>
    2 * n + (if ((planes.getD (32 * j + r) 0).getLsbD i) then 1 else 0)) 0
  if t = 0x0B then (if bits % 2 = 1 then -1 else 1)
  else if isAligned t || isSigned t || t == 0x0A then sgn p bits else bits

/-- The k-groups of row r of an A tile in the layout of R249. -/
def aRow (t p kg : Nat) (bs : List Byte) (r : Nat) : List KGroup :=
  let rcd := (if isAligned t then 64 else 0) + 32 * p
  (List.range kg).map fun g =>
    let rc := bs.drop (g * rcd)
    let e := if isAligned t then sgn 16 (ofLe ((rc.drop (2 * r)).take 2)) else 0
    let planes := (rc.drop (if isAligned t then 64 else 0)).take (32 * p)
    ⟨e, (List.range 8).map (planeElem t p planes r)⟩

/-- The exact sum of products of two k-groups as a value, none when either is special (R436). -/
def groupSum (qa qb : Int) (a b : KGroup) : Option Val :=
  if a.e = 0x7FFF ∨ b.e = 0x7FFF then none
  else
    let k := (a.n.zip b.n).foldl (fun x (p, q) => x + p * q) 0
    some (if k = 0 then .num false 0 1 else Val.scaled (decide (k < 0)) k.natAbs (qa + qb))

/-- One k-group taken by an accumulator element: its new bits and counts, none for MTX.7 (R436). -/
def accumulate (mode : Nat) (e : Int) (acc : Nat) (v : Option Val) : Option (Nat × List Nat) :=
  match mode, v with
  | 0, some v =>
    let t := sgn 32 acc + v.toInt
    some (wrapN 32 t, if t < -(2 ^ 31) ∨ 2 ^ 31 ≤ t then count 0 else noCount)
  | 0, none => some (acc, noCount)
  | 1, none => some (0x7FC00000, count 2)
  | 1, some v =>
    if v.isZero then some (acc, noCount)
    else some (encodeFloat (floatFmt 0x0C) 0 0 ((decodeFloat (floatFmt 0x0C) acc).add 0 v))
  | _, none => none
  | _, some v =>
    let r := xwElem e v
    some ((acc + r.1) % 2 ^ 128, r.2)

/-- The exponent of the weight of plane 0, or 0 for an integer type. -/
def groupScale (t p : Nat) (e : Int) : Int := if isAligned t then e - p + 2 else 0

/-- The accumulator element (i, j) of a bank (R438). -/
def accKey (c bank i j : Nat) : Nat := winBase c + 0x400000 + 0x8000 * bank + 16 * (64 * i + j)

/-- A command that reads a bank: an uncorrectable error of the bank halts the graph (R274). -/
def bankRead (s : State) (c bank : Nat) (f : State → State) : State :=
  match s.ueAt (accKey c bank 0 0) 0x8000 with
  | some u => s.ueHalt c u
  | none => f (s.correct (accKey c bank 0 0) 0x8000)

/-- The statistics counts of a bank advance (R439, R260). -/
def bankCount (s : State) (c bank : Nat) (cs : List Nat) : State :=
  let k : Bank := NMap.getD {} (s.core c).matrix.banks bank
  let r := joinCounts k.counts cs
  statNotice (modMatrix s c fun m => { m with banks := NMap.put m.banks bank { k with counts := r.1 } }) (s.core c).graph (coreName c)
    0 r.2

/-- The byte of A in which the first special k-group of a multiply begins, in the order of its elements (R249, R436). -/
def specialAt (s : State) (c : Nat) (y : Word) (bs : List Byte) : Nat :=
  let b := (s.core c).matrix.active
  let t := aType y
  let rcd := (if isAligned t then 64 else 0) + 32 * aPlanes y
  let rows := (List.range 32).map (aRow t (aPlanes y) (wordKg y) bs)
  ((List.range 2048).findSome? fun ij =>
    let cs := (b.cols.getD (ij % 64) []).drop (mulOff y)
    ((rows.getD (ij / 64) []).zip cs).findIdx? (fun (p : KGroup × KGroup) => p.1.e == 0x7FFF || p.2.e == 0x7FFF)
      |>.map fun g => g * rcd + (if isAligned t then 2 * (ij / 64) else ij / 64)).getD 0

/-- A multiply of A bytes into a bank (R436): none for MTX.7. -/
def multiply (s : State) (c bank : Nat) (y : Word) (bs : List Byte) : Option State :=
  let b := (s.core c).matrix.active
  let k : Bank := NMap.getD {} (s.core c).matrix.banks bank
  let t := aType y
  let p := aPlanes y
  let mode := mulMode y
  let w := if mode = 2 then 16 else 4
  let rows := (List.range 32).map (aRow t p (wordKg y) bs)
  let cell := fun (acc : Option (State × List Nat)) (ij : Nat) =>
    acc.bind fun (s, cnt) =>
      let i := ij / 64
      let j := ij % 64
      let as := rows.getD i []
      let cs := (b.cols.getD j []).drop (mulOff y)
      let key := accKey c bank i j
      let r := (as.zip cs).foldl (fun (st : Option (Nat × List Nat)) (ab : KGroup × KGroup) =>
        st.bind fun (v, cn) =>
          (accumulate mode k.e v (groupSum (groupScale t p ab.1.e) (groupScale b.tcode b.pb ab.2.e) ab.1 ab.2)).map
            fun (v', c') => (v', addCounts cn c')) (some (ofLe (s.read key w), noCount))
      r.map fun (v, cn) => (s.write key (leBytes w v), addCounts cnt cn)
  ((List.range 2048).foldl cell (some (s, noCount))).map fun (s, cnt) =>
    bankCount (modMatrix s c fun m => { m with banks := NMap.put m.banks bank { k with done := (k.done + 1) % 2 ^ 32 } }) c bank cnt

/-- MXMM_EXECUTE (R436): the multiply first to compute in the queue, from tile SRAM or from port pma; MTX.7 and MTX.11 name the token
on the link to pma. -/
def execMxmmExecute (c : Nat) (s : State) : Result :=
  mxCompute s c fun i m =>
    match m.op with
    | .mxmm bank port =>
      let n := aBytes m.y
      let go := fun (s : State) (bs : List Byte) (special : State → State) =>
        bankRead s c bank fun s =>
          match multiply s c bank m.y bs with
          | some s1 => mxDone s1 c i
          | none => special s
      if port then
        let r := portTokens s c 16
        let k := ceilDiv n 256
        let bs := (r.1.take k).flatten.take n
        if k ≤ r.1.length then
          go (takePort s c 16 k) bs fun s1 => southHalt s1 c 0x38 0x0D7 (southOrd s c 0x38 16 (specialAt s c m.y bs / 256))
        else if r.2 && !r.1.isEmpty then southHalt s c 0x38 0x0DB (southOrd s c 0x38 16 r.1.length)
        else s
      else engineRead s c m.x.toNat n fun s bs => go s bs fun s1 => engineHalt s1 c 0x0D7
    | _ => s

/-- The exact value of an accumulator element. -/
def accValue (s : State) (c bank i j : Nat) : Val :=
  let k : Bank := NMap.getD {} (s.core c).matrix.banks bank
  let key := accKey c bank i j
  match k.mode with
  | 0 => Val.ofInt (sgn 32 (ofLe (s.read key 4)))
  | 1 => decodeFloat (floatFmt 0x0C) (ofLe (s.read key 4))
  | _ => xwValue k.e (ofLe (s.read key 16))

/-- Row i of a bank as a vector token of a type (R439). -/
def rowToken (s : State) (c bank t rm i : Nat) : List Byte :=
  let k : Bank := NMap.getD {} (s.core c).matrix.banks bank
  if t = 0x1C then ((List.range 64).map fun j => s.read (accKey c bank i j) 16).flatten ++ tailBytes 0x1C k.e
  else (encodeToken t rm [] ((List.range 64).map (accValue s c bank i))).1

/-- What the conversion of row i of a bank counts (R439). -/
def rowCounts (s : State) (c bank t rm i : Nat) : List Nat :=
  if t = 0x1C then noCount else (encodeToken t rm [] ((List.range 64).map (accValue s c bank i))).2

/-- A bank cleared (R438, R439): its elements, count and statistics; mode and exponent as given. -/
def clearBank (s : State) (c bank mode : Nat) (e : Int) : State :=
  let s1 := s.write (accKey c bank 0 0) (List.replicate 0x8000 0)
  modMatrix s1 c fun m => { m with banks := NMap.put m.banks bank { mode := mode, e := e, done := 0, counts := [] } }

/-- MXACC_EXECUTE (R439): a clr, outs or outp first to compute in the queue. -/
def execMxaccExecute (c : Nat) (s : State) : Result :=
  mxCompute s c fun i m =>
    let rows := fun bank (s : State) => (List.range 32).map (rowToken s c bank (fld m.y 4 0) (fld m.y 10 8))
    let after := fun bank (s : State) =>
      let k : Bank := NMap.getD {} (s.core c).matrix.banks bank
      let cs := sumCounts ((List.range 32).map (rowCounts s c bank (fld m.y 4 0) (fld m.y 10 8)))
      mxDone (if bitAt m.y 13 then clearBank (bankCount s c bank cs) c bank k.mode k.e else bankCount s c bank cs) c i
    match m.op with
    | .clr bank => mxDone (clearBank s c bank (fld m.y 1 0) (if fld m.y 1 0 = 2 then sgn 16 (fld m.y 31 16) else 0)) c i
    | .outs bank => bankRead s c bank fun s => after bank (s.setTile c m.x.toNat (rows bank s).flatten)
    | .outp bank =>
      bankRead s c bank fun s =>
        let items := (rows bank s).map Item.data ++ (if bitAt m.y 12 then [markItem 2] else [])
        after bank (s.setChan c 18 (s.chan c 18 ++ items))
    | _ => s

/-- A key sorts before another (R442): by value, −0 before +0, reversed for descending, NaN last; equal keys by index. -/
def keyBefore (down : Bool) (a b : Val × Nat × Int) : Bool :=
  let lt := fun (x y : Val) =>
    if x.isNan then false else if y.isNan then true
    else if down then Val.below y x else Val.below x y
  lt a.1 b.1 || (!(lt b.1 a.1) && decide (a.2.2 < b.2.2))

/-- The sorted keys, as bits, and their indices. -/
def sortKeys (r : List Word) (keys : List Nat) (idx : List Int) : List (Nat × Int) :=
  let t := sortType r
  let items := (keys.zip idx).map fun (k, i) => ((decodeElem t k).getD .nan, k, i)
  (sortBy (keyBefore (sortDown r)) items).map fun x => (x.2.1, x.2.2)

/-- A sort delivered (R442): to tile SRAM, or in groups of 64 to pmo with an EOT mark. -/
def deliverSort (s : State) (c : Nat) (r : List Word) (out : Bool) (res : List (Nat × Int)) : State :=
  let w := elemBits (sortType r)
  let ks := res.map Prod.fst
  let is := res.map fun x => wrapN 32 x.2
  if out then
    let groups := ceilDiv res.length 64
    let pad := fun (xs : List Nat) (z : Nat) => xs ++ List.replicate (64 * groups - xs.length) z
    let kg := chunks 64 groups (pad ks 0)
    let ig := chunks 64 groups (pad is 0xFFFFFFFF)
    let items := ((kg.zip ig).map fun (a, b) => [Item.data (packBits w a), Item.data (packBits 32 b)]).flatten
    s.setChan c 18 (s.chan c 18 ++ items ++ [markItem 2])
  else
    (s.setTile c ((r.getD 2 0).toNat % 2 ^ 21) (packBits w ks)).setTile c ((r.getD 3 0).toNat % 2 ^ 21) (packBits 32 is)

/-- What a sort counts: its NaN keys (R442). -/
def sortCounts (r : List Word) (keys : List Nat) : List Nat :=
  let n := (keys.filter fun k => (valOf (sortType r) k).isNan).length
  [0, 0, n, 0, 0]

/-- MXSORT_EXECUTE (R442): the sort at the head of the queue; the loading buffer is left invalid. -/
def execMxsortExecute (c : Nat) (s : State) : Result :=
  mxHead s c fun m =>
    match m.op with
    | .sort keysIn out =>
      let r := m.rcd
      let n := sortN r
      let w := elemBits (sortType r)
      let put := fun (s : State) (bs : List Byte) (idx : List Int) =>
        let s1 := mxCount (deliverSort s c r out (sortKeys r (unpackBits w n bs) idx)) c (sortCounts r (unpackBits w n bs))
        mxDone (modMatrix s1 c fun x => { x with loading := { x.loading with valid := false } }) c 0
      let go := fun (s : State) (bs : List Byte) =>
        if sortGen r then put s bs ((List.range n).map fun (i : Nat) => (i : Int))
        else engineRead s c ((r.getD 1 0).toNat % 2 ^ 21) (4 * n) fun s is => put s bs ((unpackBits 32 n is).map (sgn 32))
      if keysIn then
        let p := portTokens s c 16
        let k := ceilDiv n 64
        if k ≤ p.1.length then go (takePort s c 16 k) (p.1.take k).flatten
        else if p.2 && !p.1.isEmpty then southHalt s c 0x38 0x0DB (southOrd s c 0x38 16 p.1.length)
        else s
      else engineRead s c ((r.getD 0 0).toNat % 2 ^ 21) (n * w / 8) go
    | _ => s

/-- MXGANG_EXECUTE (R440): gang mode turns on or off in queue order. -/
def execMxgangExecute (c : Nat) (s : State) : Result :=
  mxHead s c fun m =>
    match m.op with
    | .gang on => mxDone (modMatrix s c fun x => { x with gang := on }) c 0
    | _ => s

end Sys2Proof.Machine
end

