-- ==== Sys2Proof/Machine/Meld.lean ====
section
/-! DEFINITION. The meld array: loading and checking graphs, its queue and its runs (R444 to R452). -/

namespace Sys2Proof.Machine

/-! ### Node words (R311) -/

/-- OP. -/
def nOp (w : Word) : Nat := fld w 63 61
/-- Source A: an input lane or not, its index, its shift. -/
def nSrcA (w : Word) : Bool × Nat × Nat := (bitAt w 60, fld w 59 46, fld w 45 42)
/-- Source B. -/
def nSrcB (w : Word) : Bool × Nat × Nat := (bitAt w 41, fld w 40 27, fld w 26 23)
/-- WIDTH. -/
def nWidth (w : Word) : Nat := fld w 22 17
/-- TLANE. -/
def nLane (w : Word) : Nat := fld w 16 7
/-- The sources a node uses: an input lane or not, index, shift. -/
def nSources (w : Word) : List (Bool × Nat × Nat) :=
  match nOp w with
  | 1 => [nSrcA w, nSrcB w]
  | 2 => [nSrcA w, nSrcB w]
  | 3 => [nSrcA w]
  | 4 => [nSrcA w]
  | _ => []

/-- A malformed node word (R312). -/
def nodeBad (w : Word) : Bool :=
  let op := nOp w
  decide (4 < op) || nWidth w == 0 || fld w 5 0 != 0 || (op != 4 && (nLane w != 0 || bitAt w 6))
    || (op != 1 && op != 2 && fld w 41 23 != 0) || (op == 0 && fld w 60 42 != 0)
    || (nSources w).any fun (lane, i, _) => lane && decide (1023 < i)

/-! ### The record (R444) and its checks (R447) -/

/-- A meld graph record. -/
structure MeldRec where
  nnode : Nat
  nin : Nat
  ntap : Nat
  d : Nat
  zero : Bool
  words : List Word

/-- A record from its bytes. -/
def meldRec (bs : List Byte) : MeldRec where
  nnode := ofLe (bs.take 2)
  nin := ofLe ((bs.drop 2).take 2)
  ntap := ofLe ((bs.drop 4).take 2)
  d := ofLe ((bs.drop 6).take 1)
  zero := ((bs.drop 7).take 9).all fun b => b == 0
  words := (chunks 8 ((bs.length - 16) / 8) (bs.drop 16)).map fun b => BitVec.ofNat 64 (ofLe b)

/-- The declared width of a source (R446): 16 for an input lane. -/
def srcWidth (ws : List Word) (x : Bool × Nat × Nat) : Nat := if x.1 then 16 else nWidth (ws.getD x.2.1 0)

/-- The least width of a node (R446). -/
def minWidth (ws : List Word) (w : Word) : Nat :=
  let need := (nSources w).foldl (fun m x => max m (srcWidth ws x + x.2.2)) 0
  match nOp w with
  | 0 => 1
  | 1 => need + 1
  | 2 => need + 1
  | _ => need

/-- The levels of the nodes in order (R445). -/
def levels (ws : List Word) : List Nat :=
  ws.foldl (fun ls w => ls ++ [1 + (nSources w).foldl (fun m x => max m (if x.1 then 0 else ls.getD x.2.1 0)) 0]) []

/-- A source that is no earlier node, or a TAP, or a lane outside the inputs; or output lanes not each named once (R447). -/
def orderBad (r : MeldRec) : Bool :=
  let bad := (List.range r.nnode).any fun k => (nSources (r.words.getD k 0)).any fun (lane, i, _) =>
    if lane then decide (r.nin ≤ i) else decide (k ≤ i) || nOp (r.words.getD i 0) == 4
  let taps := (r.words.filter fun w => nOp w == 4).map nLane
  bad || taps.length != r.ntap || (List.range r.ntap).any fun l => !(taps.contains l)

/-- The width rule, node by node (R446, R447). -/
def widthFault (r : MeldRec) : Option Nat :=
  r.words.findSome? fun w =>
    let m := minWidth r.words w
    if 63 < m then some 0x0E6 else if nWidth w < m then some 0x0E5 else none

/-- More than eight references to a node or lane (R447). -/
def fanoutBad (r : MeldRec) : Bool :=
  let refs := (r.words.map nSources).flatten.map fun x => (x.1, x.2.1)
  refs.any fun x => decide (8 < (refs.filter fun y => y == x).length)

/-- The physical nodes of a core that are free and live (R448), in order. -/
def freeNodes (k : Core) (c : Nat) : List Nat := (List.range 16384).filter fun n => !(Config.fusedNode c n) && !(nodeHeld k n)

/-- The checks of R447 in order. -/
def meldFault (k : Core) (c : Nat) (r : MeldRec) : Option Nat :=
  if !r.zero ∨ r.nnode = 0 ∨ r.nin = 0 ∨ r.ntap = 0 ∨ 16384 < r.nnode ∨ r.d < 8 ∨ 24 < r.d then some 0x0ED
  else if 1024 < r.nin ∨ 1024 < r.ntap then some 0x0E3
  else if r.words.any nodeBad then some 0x0E4
  else if orderBad r then some 0x0E7
  else match widthFault r with
    | some f => some f
    | none =>
      if fanoutBad r then some 0x0E2
      else if (levels r.words).any fun l => decide (48 < l) then some 0x0E1
      else if 16 ≤ k.meld.graphs.length then some 0x0E9
      else if (freeNodes k c).length < r.nnode then some 0x0E0
      else none

/-! ### Loading (R448) -/

/-- The lowest free graph id. -/
def nextMeldId (k : Core) : Nat := ((List.range 16).find? fun i => (NMap.find k.meld.graphs i).isNone).getD 0

/-- A node word with its sources named by physical nodes. -/
def relocate (ns : List Nat) (w : Word) : Word :=
  let a := if !(bitAt w 60) && (nSources w).length ≥ 1 then setBits w.toNat 59 46 (ns.getD (fld w 59 46) 0) else w.toNat
  BitVec.ofNat 64 (if !(bitAt w 41) && (nSources w).length = 2 then setBits a 40 27 (ns.getD (fld w 40 27) 0) else a)

/-- A checked graph loaded under the lowest free id, with no cut. -/
def loadMeld (s : State) (c : Nat) (r : MeldRec) : State :=
  let k := s.core c
  let ns := (freeNodes k c).take r.nnode
  let s1 := (ns.zip r.words).foldl (fun s (n, w) => s.write (winBase c + 0x500000 + 8 * n) (leBytes 8 (relocate ns w).toNat)) s
  s1.modCore c fun k => { k with meld := { k.meld with
    graphs := NMap.put k.meld.graphs (nextMeldId k) { nin := r.nin, ntap := r.ntap, d := r.d, nodes := ns } } }

/-! ### Issue -/

/-- PWR.11 (R37): the core's class has no meld array. -/
def noMeld (k : Core) : Option Nat := failIf (!(k.eclass == 3 || k.eclass == 5)) 0x15B

/-- The record at a tile SRAM address: CPM.0, CPM.1, CPM.4 on its bytes (R430). -/
def recordFault (s : State) (c a : Nat) : Option Nat :=
  match operandFault a 16 16 with
  | some f => some f
  | none => operandFault a (16 + 8 * ofLe (s.tile c a 2)) 16

/-- The record at a tile SRAM address. -/
def recordAt (s : State) (c a : Nat) : MeldRec := meldRec (s.tile c a (16 + 8 * ofLe (s.tile c a 2)))

/-- MLDG at issue (R447, R448). -/
def issueMldg (c : Nat) (x : Word) (s : State) : Issue :=
  let k := s.core c
  issueChecks [noMeld k, recordFault s c x.toNat] fun _ =>
    issueRead c x.toNat (16 + 8 * ofLe (s.tile c x.toNat 2)) s fun s =>
      let r := recordAt s c x.toNat
      issueChecks [meldFault k c r] fun _ =>
        .ok (loadMeld s c r) (BitVec.ofNat 64 (r.nnode * 2 ^ 32 + ((freeNodes k c).headD 0) * 2 ^ 16 + nextMeldId k))

/-- The plain status of MLCHK (R449). -/
def meldStatus (k : Core) (c : Nat) : Word :=
  let n := k.meld.graphs.length
  BitVec.ofNat 64 ((if n = 16 then 0 else nextMeldId k) * 2 ^ 24 + n % 32 * 2 ^ 16 + (freeNodes k c).length % 2 ^ 15)

/-- MLCHK.rec at issue (R449): the cause an MLDG would raise now, or 0. -/
def issueMlchkRec (c : Nat) (x : Word) (s : State) : Issue :=
  issueChecks [recordFault s c x.toNat] fun _ =>
    issueRead c x.toNat (16 + 8 * ofLe (s.tile c x.toNat 2)) s fun s =>
      .ok s (BitVec.ofNat 64 ([noMeld (s.core c), meldFault (s.core c) c (recordAt s c x.toNat)].findSome? id |>.getD 0))

/-- MELD.8 (R450): the graph is not loaded, or an MLFREE of it has been issued. -/
def meldGone (k : Core) (m : Nat) : Option Nat :=
  match NMap.find k.meld.graphs m with
  | none => some 0x0E8
  | some g => failIf g.freeing 0x0E8

/-- A command enters the meld queue. -/
def mlPush (s : State) (c : Nat) (m : MlCmd) : Issue :=
  if 8 ≤ (s.core c).meld.queue.length then .wait
  else .ok (s.modCore c fun k => { k with meld := { k.meld with queue := k.meld.queue ++ [m] }, issueSeq := k.issueSeq + 1 }) 0

/-- MLFREE at issue (R450). -/
def issueMlfree (m c : Nat) (s : State) : Issue :=
  issueChecks [noMeld (s.core c), meldGone (s.core c) m] fun _ =>
    match mlPush s c (.free m), NMap.find (s.core c).meld.graphs m with
    | .ok s1 v, some g =>
      .ok (s1.modCore c fun k => { k with meld := { k.meld with graphs := NMap.put k.meld.graphs m { g with freeing := true } } }) v
    | r, _ => r

/-- MLCUT at issue (R450). -/
def issueMlcut (m c : Nat) (x : Word) (s : State) : Issue :=
  issueChecks [noMeld (s.core c), failIf (fld x 63 6 != 0) 0x0EA, meldGone (s.core c) m] fun _ => mlPush s c (.cut m (fld x 5 0))

/-- ITYPE of a run word. -/
def runIn (y : Word) : Nat := fld y 20 16
/-- OTYPE of a run word. -/
def runOut (y : Word) : Nat := fld y 28 24
/-- V. -/
def runV (y : Word) : Nat := fld y 15 0 + 1

/-- The bytes of one vector of n elements in tile SRAM, and its stride (R451). -/
def vectorBytes (t n : Nat) : Nat := if t = 0x1B then 4 * n + 4 else ceilDiv (n * elemBits t) 8

/-- Zero bits of a run word. -/
def runReserved (y : Word) : Bool := fld y 63 57 != 0 || bitAt y 35 || fld y 31 29 != 0 || fld y 23 21 != 0

/-- MELD.11 (R451), without the ranges. -/
def runBad (y : Word) : Bool :=
  let t := runIn y
  let u := runOut y
  !(decide (t ≤ 0x03) || t == 0x05 || t == 0x06 || t == 0x07 || t == 0x0C || t == 0x0D || t == 0x0E || t == 0x0F || t == 0x10
      || t == 0x1B)
    || !(u == 0x04 || u == 0x0C || u == 0x1C) || (bitAt y 34 && !(bitAt y 32)) || (bitAt y 32 && fld y 56 36 != 0)

/-- MLRUN at issue (R451). -/
def issueMlrun (m c : Nat) (md : Mode) (x y : Word) (s : State) : Issue :=
  let k := s.core c
  let g := NMap.getD { nin := 0, ntap := 0, d := 8, nodes := [] } k.meld.graphs m
  let inB := runV y * roundUp (vectorBytes (runIn y) g.nin) 16
  let outB := runV y * roundUp (g.ntap * elemBits (runOut y) / 8) 16
  let o := fld y 56 36
  issueChecks [noMeld k, failIf (runReserved y) 0x0EA, meldGone k m,
      failIf (runBad y || (!(bitAt y 32) && (k.inCode o outB || k.inWindow o outB))) 0x0EB,
      if bitAt y 33 then portFault k md 0x2C1 0x3B 0x0EE else none, if bitAt y 32 then portFault k md 0x2C0 0x3C 0x0EE else none,
      if bitAt y 33 then none else operandFault x.toNat inB 16, if bitAt y 32 then none else operandFault o outB 16]
    fun _ => mlPush s c (.run m x y k.issueSeq 0)

/-- MLDG (R448). -/
def execMldg (d a : Reg) (s : State) : Result := runIssue d s fun s => issueMldg s.turn (s.reg a) s
/-- MLCHK (R449). -/
def execMlchk (d : Reg) (s : State) : Result := runIssue d s fun s => .ok s (meldStatus s.cur s.turn)
/-- MLCHK.rec (R449). -/
def execMlchkRec (d a : Reg) (s : State) : Result := runIssue d s fun s => issueMlchkRec s.turn (s.reg a) s
/-- MLFREE (R450). -/
def execMlfree (m : BitVec 4) (s : State) : Result := runIssue 0 s fun s => issueMlfree m.toNat s.turn s
/-- MLRUN (R451). -/
def execMlrun (a b : Reg) (m : BitVec 4) (s : State) : Result :=
  runIssue 0 s fun s => issueMlrun m.toNat s.turn s.cur.mode (s.reg a) (s.reg b) s
/-- MLCUT (R450). -/
def execMlcut (a : Reg) (m : BitVec 4) (s : State) : Result := runIssue 0 s fun s => issueMlcut m.toNat s.turn (s.reg a) s

/-! ### Runs (R445, R451) -/

/-- A core's meld array changed. -/
def modMeld (s : State) (c : Nat) (f : Meld → Meld) : State := s.modCore c fun k => { k with meld := f k.meld }

/-- The head of the meld queue is complete. -/
def mlDone (s : State) (c : Nat) : State := modMeld s c fun m => { m with queue := m.queue.drop 1, done := m.done + 1 }

/-- The digits of an SD16 element, most significant first; none for a digit 0b11 (R238). -/
def sdDigitList (x : Nat) : Option (List Int) :=
  (List.range 16).mapM fun i =>
    match bitsOf x (31 - 2 * i) (30 - 2 * i) with
    | 0 => some 0
    | 1 => some 1
    | 2 => some (-1)
    | _ => none

/-- One input vector as an exponent and digit strings of 16 (R451): from its values, or from its SD16 elements. -/
def vectorDigits (t : Nat) (bs : List (List Byte)) (n : Nat) : Except Nat (Int × List (List Int)) :=
  if t = 0x1B then
    match bs.map (tailExp 0x1B) with
    | es =>
      if es.any Option.isNone then .error 0x0FD
      else match es.filterMap id with
        | [] => .ok (0, [])
        | e :: rest =>
          if rest.any fun f => f != e then .error 0x0EC
          else match ((bs.map (tokenFields 0x1B)).flatten.take n).mapM sdDigitList with
            | none => .error 0x0F1
            | some ds => .ok (e, ds)
  else
    match allValues (bs.map (decodeToken t)) with
    | .error f => .error f
    | .ok vss =>
      let vs := vss.flatten.take n
      if isInteger t then
        let b := elemBits t
        .ok ((b : Int) - 1, vs.map fun v => (sdDigitList (sdPattern (decide (v.toInt < 0)) (v.toInt.natAbs * 2 ^ (16 - b)))).getD [])
      else
        let r := (toSd vs).1
        .ok ((tailExp 0x1B r).getD 0, (tokenFields 0x1B r).map fun x => (sdDigitList x).getD [])

/-- What the conversion of an input vector to SD16 counts: that of R240, for a floating type (R451). -/
def vectorCounts (t : Nat) (bs : List (List Byte)) (n : Nat) : List Nat :=
  if t = 0x1B ∨ isInteger t = true then noCount
  else match allValues (bs.map (decodeToken t)) with
    | .error _ => noCount
    | .ok vss => (toSd (vss.flatten.take n)).2

/-- The place of the token of an input vector at which its conversion fails: the first that cannot be read, or whose E differs from
that of the first (R451). -/
def vectorBad (t : Nat) (bs : List (List Byte)) : Nat :=
  let i := firstBad t bs
  if i < bs.length then i
  else match bs.map (tailExp 0x1B) with
    | e :: es => 1 + es.findIdx fun f => f != e
    | [] => 0

/-- A digit string in W digits: zeros above it, or its W lowest digits; digit weights from 2^(W−1) down to 2^0. -/
def fitDigits (w : Nat) (a : DigitStr) : DigitStr := ⟨w, (List.range w).map fun (i : Nat) => a.at ((w : Int) - 1 - (i : Int))⟩

/-- The result of a node in its width (R445). -/
def nodeValue (ins : List (List Int)) (vals : List DigitStr) (w : Word) : DigitStr :=
  let src := fun (x : Bool × Nat × Nat) => if x.1 then (⟨16, ins.getD x.2.1 []⟩ : DigitStr) else vals.getD x.2.1 ⟨0, []⟩
  let neg := fun (a : DigitStr) => (⟨a.top, a.ds.map fun d => -d⟩ : DigitStr)
  let up := fun (a : DigitStr) (k : Nat) => (⟨a.top + k, a.ds⟩ : DigitStr)
  let a := src (nSrcA w)
  let b := src (nSrcB w)
  let sa := (nSrcA w).2.2
  let sb := (nSrcB w).2.2
  fitDigits (nWidth w) (match nOp w with
    | 1 => sdAdd a sa b sb
    | 2 => sdAdd a sa (neg b) sb
    | 3 => up a sa
    | 4 => if bitAt w 6 then neg (up a sa) else up a sa
    | _ => ⟨0, []⟩)

/-- An uncorrectable byte of the nodes of a loaded graph, if there is one. -/
def nodesUe (s : State) (c : Nat) (g : MeldGraph) : Option Nat :=
  g.nodes.findSome? fun n => s.ueAt (winBase c + 0x500000 + 8 * n) 8

/-- The words of a loaded graph, their sources named by position in the graph again. -/
def meldWords (s : State) (c : Nat) (g : MeldGraph) : List Word :=
  let back := fun (n : Nat) => g.nodes.findIdx fun m => m == n
  g.nodes.map fun n =>
    let w : Word := BitVec.ofNat 64 (ofLe (s.read (winBase c + 0x500000 + 8 * n) 8))
    let a := if bitAt w 60 then w.toNat else setBits w.toNat 59 46 (back (fld w 59 46))
    BitVec.ofNat 64 (if bitAt w 41 then a else setBits a 40 27 (back (fld w 40 27)))

/-- The strings of the taps for one vector, by output lane: the width W, the digits delivered, the digits discarded; none for a lane
without a tap. -/
def meldTaps (ws : List Word) (g : MeldGraph) (ins : List (List Int)) : List (Option (Nat × List Int × List Int)) :=
  let vals := ws.foldl (fun vs w => vs ++ [nodeValue ins vs w]) []
  let c := if g.cut = 0 then 63 else g.cut
  (List.range g.ntap).map fun lane =>
    ((List.range ws.length).find? fun k => nOp (ws.getD k 0) == 4 && nLane (ws.getD k 0) == lane).map fun k =>
      let w := nWidth (ws.getD k 0)
      let ds := (vals.getD k ⟨0, []⟩).ds
      let n := min w (min g.d c)
      (w, ds.take n, ds.drop n)

/-- The values the taps deliver for one vector, by output lane (R451): the most significant min(W, D, C) digits. -/
def meldOutputs (ws : List Word) (g : MeldGraph) (e : Int) (ins : List (List Int)) : List Val :=
  (meldTaps ws g ins).map fun t =>
    match t with
    | none => Val.num false 0 1
    | some (w, ds, _) =>
      let v := (⟨0, ds⟩ : DigitStr).int
      if v = 0 then .num false 0 1 else Val.scaled (decide (v < 0)) v.natAbs (e - 15 + ((w - ds.length : Nat) : Int))

/-- The taps of one vector whose cut discards a digit that is not zero (R239). -/
def meldCuts (ws : List Word) (g : MeldGraph) (ins : List (List Int)) : Nat :=
  ((meldTaps ws g ins).filter fun t =>
    match t with
    | none => false
    | some (_, _, rest) => rest.any fun d => d != 0).length

/-- A value in the output type of a run, by RNE, and its counts (R451). -/
def meldElem (u : Nat) (v : Val) : Nat × List Nat := if u = 0x1C then xwElem 0 v else encodeElem u 0 0 v

/-- The output tokens of one vector for port plo: lanes past NTAP zero. -/
def meldTokens (u : Nat) (xs : List Nat) : List Item :=
  let n := ceilDiv xs.length 64
  (chunks 64 n (xs ++ List.replicate (64 * n - xs.length) 0)).map fun g =>
    .data (packBits (elemBits u) g ++ if u = 0x1C then tailBytes 0x1C 0 else [])

/-- The counts of a core's meld array advance; they are discarded where a run's EOT mark ends the tile (R259, R451). -/
def mlCount (s : State) (c : Nat) (cs : List Nat) (eot : Bool) : State :=
  let r := joinCounts (s.core c).meld.counts cs
  statNotice (modMeld s c fun m => { m with counts := if eot then [] else r.1 }) (s.core c).graph (coreName c) 0 r.2

/-- One vector of a run passed through and delivered, with what its conversions and cuts count; the run is complete after its last. -/
def runVector (s : State) (c : Nat) (id : Nat) (g : MeldGraph) (x y : Word) (iseq pos : Nat) (e : Int) (ins : List (List Int))
    (cin : List Nat) : State :=
  let u := runOut y
  let ws := meldWords s c g
  let rs := (meldOutputs ws g e ins).map (meldElem u)
  let xs := rs.map Prod.fst
  let bytes := packBits (elemBits u) xs
  let last := decide (pos + 1 = runV y)
  let cs := addCounts (addCounts cin (sumCounts (rs.map Prod.snd))) [0, 0, 0, 0, meldCuts ws g ins]
  let s0 := mlCount s c cs (last && bitAt y 32 && bitAt y 34)
  let s1 :=
    if bitAt y 32 then
      s0.setChan c 20 (s.chan c 20 ++ meldTokens u xs ++ (if last && bitAt y 34 then [markItem 2] else []))
    else s0.setTile c (fld y 56 36 + pos * roundUp bytes.length 16) bytes
  if last then mlDone s1 c
  else modMeld s1 c fun m => { m with queue := .run id x y iseq (pos + 1) :: m.queue.drop 1 }

/-- The point of issue of the run at the head of a core's meld queue. -/
def mlIssue (k : Core) : Nat :=
  match k.meld.queue with
  | .run _ _ _ i _ :: _ => i
  | _ => k.issueSeq

/-- The head of the meld queue, when the array may act, runs. -/
def mlHead (s : State) (c : Nat) (f : MlCmd → State) : Result :=
  let k := s.core c
  .next (if !(engineRuns k (mlIssue k)) then s else match k.meld.queue with | [] => s | m :: _ => f m)

/-- MELD_RUN (R451): the next vector of the run at the head of the queue. -/
def execMeldRun (c : Nat) (s : State) : Result :=
  mlHead s c fun m =>
    match m with
    | .run id x y iseq pos =>
      match NMap.find (s.core c).meld.graphs id with
      | none => mlDone s c
      | some g =>
        match nodesUe s c g with
        | some u => s.ueHalt c u
        | none =>
        let t := runIn y
        if bitAt y 33 then
          let p := portTokens s c 19
          let n := ceilDiv g.nin 64
          if n ≤ p.1.length then
            let s1 := takePort s c 19 n
            match vectorDigits t (p.1.take n) g.nin with
            | .error f => southHalt s1 c 0x3B f (southOrd s c 0x3B 19 (vectorBad t (p.1.take n)))
            | .ok (e, ins) => runVector s1 c id g x y iseq pos e ins (vectorCounts t (p.1.take n) g.nin)
          else if p.2 && !p.1.isEmpty then southHalt s c 0x3B 0x0EB (southOrd s c 0x3B 19 p.1.length)
          else s
        else
          let n := vectorBytes t g.nin
          engineRead s c (x.toNat + pos * roundUp n 16) n fun s bs =>
            match vectorDigits t [bs] g.nin with
            | .error f => engineHalt s c f
            | .ok (e, ins) => runVector s c id g x y iseq pos e ins (vectorCounts t [bs] g.nin)
    | _ => s

/-- MLFREE_COMPLETE (R450): a graph's nodes and id become free. -/
def execMlfreeComplete (c : Nat) (s : State) : Result :=
  mlHead s c fun m =>
    match m with
    | .free id => mlDone (modMeld s c fun x => { x with graphs := NMap.del x.graphs id }) c
    | _ => s

/-- MLCUT_EXECUTE (R450): a graph's cut is set for later runs. -/
def execMlcutExecute (c : Nat) (s : State) : Result :=
  mlHead s c fun m =>
    match m with
    | .cut id n =>
      mlDone (modMeld s c fun x =>
        match NMap.find x.graphs id with
        | none => x
        | some g => { x with graphs := NMap.put x.graphs id { g with cut := n } }) c
    | _ => s

/-! ### Follow-ons (R360) -/

/-- A matrix or meld command word issued in a mode with two operand values, as the CP would issue it; an ENC fault for a
word that is no command. -/
def issueWord (s : State) (c : Nat) (md : Mode) (w : Word32) (x y : Word) : Issue :=
  match decodeCp w 0 false with
  | .bad sub => .fault sub.toNat
  | .ok i =>
    match i with
    | .mxb _ _ => issueMxb false c md x y s
    | .mxbPb _ => issueMxb true c md 0 y s
    | .mxsw => issueMxsw c s
    | .mxmm _ _ n => issueMxmm n.toNat false c md x y s
    | .mxmmPa _ n => issueMxmm n.toNat true c md 0 y s
    | .mxaccClr _ n => issueClr n.toNat c y s
    | .mxaccQry _ _ => .ok s 0
    | .mxaccOuts _ _ n => issueOut n.toNat false c md x y s
    | .mxaccOutp _ n => issueOut n.toNat true c md 0 y s
    | .mxsort _ k i => issueSort (k == 1) (i == 1) c md x s
    | .mxgang _ => issueGang c x s
    | .mldg _ _ => issueMldg c x s
    | .mlchk _ => .ok s 0
    | .mlchkRec _ _ => issueMlchkRec c x s
    | .mlfree m => issueMlfree m.toNat c s
    | .mlrun _ _ m => issueMlrun m.toNat c md x y s
    | .mlcut _ m => issueMlcut m.toNat c x s
    | _ => .fault 0x007

end Sys2Proof.Machine
end

