-- ==== Sys2Proof/Machine/Streams.lean ====
section
/-! DEFINITION. Stream engines at work, the boundary guard, append regions, and requests at their homes
(R162, R202 to R204, R356 to R360, R380, R464). -/

namespace Sys2Proof.Machine

/-! ### The boundary guard (R162, R464) -/

/-- A dropped packet's SCHED.2: at most 64 notices a millisecond of graph time, further drops counted with
the context's suppressed notices (R161, R162). -/
def guardNotice (s : State) (c : Nat) (n : Notice) : State :=
  let ms := s.clock c / nanos 1000000
  let g0 := (s.core c).guard
  let g := if g0.ms = ms then g0 else { g0 with ms := ms, sent := 0 }
  let h := (s.core c).graph
  if 64 ≤ g.sent then s.modCtx (h / 2 ^ 28) fun k => { k with suppressed := k.suppressed + 1 }
  else
    let note := { n with cause := 0x142, core := coreName c, flags := 2 }
    let s1 := (s.modCore c fun k => { k with guard := { g with sent := g.sent + 1 } }).notifyGraph h note
    s1.tellMgmt (s1.graphNotice h note)

/-! ### Stream commands at work -/

/-- The command at the head of an engine's queue. -/
def streamHead (s : State) (c e : Nat) : Option StrCmd := ((s.core c).engine e).queue.head?

/-- An engine changed. -/
def modEngine (s : State) (c e : Nat) (f : Engine → Engine) : State := s.modCore c fun k => k.setEngine e (f (k.engine e))

/-- The command at the head of an engine's queue replaced. -/
def setHead (s : State) (c e : Nat) (m : StrCmd) : State := modEngine s c e fun x => { x with queue := m :: x.queue.drop 1 }

/-- The names of a stream command in a notice: PORT, CHAN (R473), and the tokens (LKIND 0) or bytes its engine has sent
since commit (R464). -/
def streamNote (s : State) (c e : Nat) (m : StrCmd) : Notice :=
  let x := (s.core c).engine e
  { core := coreName c, port := 0x8000 + m.kind * 2 + e % 2, chan := m.seq
    detail := (if m.kind ≠ 2 ∧ m.lkind = 0 then x.tokens else x.bytes) % 2 ^ 48 }

/-- A stream stops at the token that met a fault, and the graph halts (R198). -/
def streamHalt (s : State) (c e : Nat) (m : StrCmd) (cause : Nat) : State :=
  s.haltReached (s.core c).graph { streamNote s c e m with cause := cause }

/-- A stream has moved n bytes on its memory side. -/
def streamMoved (s : State) (c e n : Nat) (m : StrCmd) (buf : List Byte) : State :=
  let v := vecBytes m.tcode
  let s1 := setHead s c e { m with pos := m.pos + n, buf := buf }
  modEngine s1 c e fun x => { x with tokens := x.tokens + ((m.pos + n) / v - m.pos / v), bytes := x.bytes + n }

/-- One side of a stream: its translation setting, address, length and direction. -/
structure Side where
  xmode : Nat
  xwin : Nat
  va : Nat
  n : Nat
  st : Bool

/-- The range of one side of a stream, translated by what its engine's nodes hold (R199, R201). -/
def sideReach (s : State) (c e : Nat) (m : StrCmd) (x : Side) : Reach :=
  let en := (s.core c).engine e
  let f := fun a => streamXlatHeld en.held (NMap.find en.rows (if x.st then 1 else 0)) s c x.xmode x.xwin m.mode a (!x.st) x.st
  reachBy f s c m.mode x.va x.n (!x.st) x.st

/-- What the engine's nodes hold once the range has been reached: the translation of its last address. -/
def sideHold (s : State) (c e : Nat) (m : StrCmd) (x : Side) : State :=
  modEngine s c e fun en => en.holds s c x.xmode x.xwin m.mode ((x.va + x.n - 1) % 2 ^ 64) (!x.st) x.st

/-- One side of a stream is reached: a fault halts the graph; a parked page, an earlier request in the kitty, a stale replica or an
answer to come holds the stream; otherwise it goes on with the pieces. -/
def streamReach (s : State) (c e : Nat) (m : StrCmd) (x : Side) (r : Reach) (f : List (Nat × Nat) → List Byte → State → State) : State :=
  withPieces s c (16 + e) ((s.ctxOf c).getD 0) x.va r (fun y s1 => streamHalt s1 c e m y) fun ps far s1 =>
    f ps far (sideHold s1 c e m x)

/-- The values of a row of an operand tile (R359). -/
def rowValues (t k : Nat) (bs : List Byte) : Except Nat (List Val) :=
  if t = 0x1B then
    let js := List.range (ceilDiv k 64)
    js.foldl (fun acc j =>
      let n := min 64 (k - 64 * j)
      match acc, decodeToken 0x1B ((bs.drop (260 * j)).take (4 * n + 4)) with
      | .error f, _ => .error f
      | _, .error f => .error f
      | .ok vs, .ok ws => .ok (vs ++ ws)) (.ok [])
  else decodeToken t bs

/-- The k-groups of a row, aligned to p planes (R248): exponent field and the eight numbers as p-bit patterns; with what the
alignment counts. -/
def rowGroups (t p k : Nat) (bs : List Byte) : Except Nat (List (Nat × List Nat) × List Nat) :=
  if t = 0x0B then .ok ((chunks 8 (k / 8) (tokenFields t bs)).map fun g => (0, g), noCount)
  else match rowValues t k bs with
    | .error f => .error f
    | .ok vs =>
      let gs := chunks 8 (k / 8) vs
      if isAligned t then
        .ok (gs.map fun g =>
          match (alignBlock g p).1 with
          | none => (0x7FFF, g.map fun _ => 0)
          | some (e, ns) => (wrapN 16 e, ns.map (wrapN p)), sumCounts (gs.map fun g => (alignBlock g p).2))
      else
        .ok (gs.map fun g => (0, g.map fun v => wrapN p (planeInt t p v).1), sumCounts (vs.map fun v => (planeInt t p v).2))

/-- The layout of R249 of 32 rows of groups. -/
def layoutRows (t p k : Nat) (rows : List (List (Nat × List Nat))) : List Byte :=
  ((List.range (k / 8)).map fun g =>
    let gs := rows.map fun r => r.getD g (0, [])
    let exps := if isAligned t then (gs.map fun x => leBytes 2 x.1).flatten else []
    exps ++ ((List.range p).reverse.map fun j =>
      gs.map fun x => BitVec.ofNat 8 ((List.range 8).foldl (fun b i => b + x.2.getD i 0 / 2 ^ j % 2 * 2 ^ i) 0)).flatten).flatten

/-- The tile of an LKIND 2 stream in its layout, and its counts (R249, R359). -/
def tileLayout (m : StrCmd) (bs : List Byte) : Except Nat (List Byte × List Nat) :=
  let k := (tileK m.tcode m.bytes).getD 0
  let rb := m.bytes / 32
  match (chunks rb 32 bs).foldl (fun acc r =>
    match acc, rowGroups m.tcode m.planes k r with
    | .error f, _ => .error f
    | _, .error f => .error f
    | .ok r, .ok g => .ok (r.1 ++ [g.1], addCounts r.2 g.2)) (Except.ok ([], noCount) : Except Nat (List (List (Nat × List Nat)) × List Nat)) with
  | .error f => .error f
  | .ok r => .ok (layoutRows m.tcode m.planes k r.1, r.2)

/-- The counts of an engine's transpositions advance (R259, R359): no end-of-tile mark reaches them (log entry 94). -/
def engineCounts (s : State) (c e : Nat) (cs : List Nat) : State :=
  let r := joinCounts ((s.core c).engine e).counts cs
  statNotice (modEngine s c e fun x => { x with counts := r.1 }) (s.core c).graph (coreName c) 0 r.2

/-- The bytes a read stream has read go to its local side (R359): kept until they make a token for LKIND 0, in place for
LKIND 1, as a whole tile for LKIND 2. -/
def readPlace (s : State) (c e : Nat) (m : StrCmd) (n : Nat) (bs : List Byte) : State :=
  match m.lkind with
  | 0 => streamMoved s c e n m (m.buf ++ bs)
  | 1 => streamMoved (s.setTile c (m.loff + m.pos) bs) c e n m []
  | _ =>
    let all := m.buf ++ bs
    if m.pos + n < m.bytes then streamMoved s c e n m all
    else match tileLayout m all with
      | .error f => streamHalt s c e m f
      | .ok (out, cs) => streamMoved (engineCounts (s.setTile c m.loff out) c e cs) c e n m []

/-- One burst of a read stream, of no more than some bytes. -/
def readBurst (s : State) (c e : Nat) (m : StrCmd) (most : Nat) : State :=
  let n := min most (burstLen m.chain m.addr m.pos m.bytes)
  let x : Side := ⟨m.xmode, m.xwin, streamAddr m.chain m.addr m.pos, n, false⟩
  streamReach s c e m x (sideReach s c e m x) fun ps far s =>
    match readPieces c ps far s with
    | (.error u, s1) => s1.ueHalt c u
    | (.ok bs, s1) => readPlace s1 c e m n bs

/-- A read stream of LKIND 0 gives its port a token, then its marks, one at a time; pos beyond BYTES counts the marks. -/
def readDeliver (s : State) (c e : Nat) (m : StrCmd) : State :=
  let v := vecBytes m.tcode
  let put := fun (m' : StrCmd) (l : List Item) => setHead (s.setChan c m.port l) c e m'
  if s.chan c m.port ≠ [] then s
  else if v ≤ m.buf.length then put { m with buf := m.buf.drop v } [mkItem m.tcode (m.buf.take v)]
  else if m.pos = m.bytes then put { m with pos := m.bytes + 1 } (if m.eot then [markItem 2] else [])
  else if m.pos = m.bytes + 1 then put { m with pos := m.bytes + 2 } (if m.eos then [markItem 3] else [])
  else s

/-- A read stream moves. -/
def readMove (s : State) (c e : Nat) (m : StrCmd) : State :=
  if m.lkind = 0 ∧ (vecBytes m.tcode ≤ m.buf.length ∨ m.bytes ≤ m.pos) then readDeliver s c e m
  else if m.pos < m.bytes then readBurst s c e m m.bytes
  else s

/-- One packet of a write stream: performed, or dropped by the guard and counted as performed (R464). -/
def writeBurst (s : State) (c e : Nat) (m : StrCmd) (xmode xwin va n : Nat) (bs rest : List Byte) : State :=
  let x : Side := ⟨xmode, xwin, va, n, true⟩
  let r := sideReach s c e m x
  if r = .fault 0x143 then guardNotice (streamMoved s c e n m rest) c (streamNote s c e m)
  else streamReach s c e m x r fun ps _ s => streamMoved (writePieces ps bs s) c e n m rest

/-- A write stream moves: LKIND 0 takes a token from its port and sends it, as two packets across a page; LKIND 1 sends the
bytes of its burst. -/
def writeMove (s : State) (c e : Nat) (m : StrCmd) : State :=
  let va := streamAddr m.chain m.addr m.pos
  let b := burstLen m.chain m.addr m.pos m.bytes
  if m.bytes ≤ m.pos then s
  else if m.lkind = 0 then
    let v := vecBytes m.tcode
    let n := min b (v - m.pos % v)
    if n ≤ m.buf.length then writeBurst s c e m m.xmode m.xwin va n (m.buf.take n) (m.buf.drop n)
    else match s.chan c (8 + m.port) with
      | [] => s
      | i :: l => setHead (s.setChan c (8 + m.port) l) c e { m with buf := m.buf ++ itemBytes i }
  else
    let key := winBase c + m.loff + m.pos
    match s.ueAt key b with
    | some u => s.ueHalt c u
    | none => let s1 := s.correct key b; writeBurst s1 c e m m.xmode m.xwin va b (s1.read key b) []

/-- A copy stream moves: the bytes of one burst of both sides; bytes that have been read wait in the engine while the other side is
held. -/
def copyMove (s : State) (c e : Nat) (m : StrCmd) : State :=
  if m.bytes ≤ m.pos then s
  else
    let src := streamAddr m.chain m.addr m.pos
    let dst := m.daddr + m.pos
    let n := min (burstLen m.chain m.addr m.pos m.bytes) (burstLen none m.daddr m.pos m.bytes)
    let x : Side := ⟨m.xmode, m.xwin, src, n, false⟩
    if m.buf ≠ [] then writeBurst s c e m m.xmode2 m.xwin2 dst m.buf.length m.buf []
    else streamReach s c e m x (sideReach s c e m x) fun ps far s =>
      match readPieces c ps far s with
      | (.error u, s1) => s1.ueHalt c u
      | (.ok bs, s1) =>
        let m1 := { m with buf := bs }
        writeBurst (setHead s1 c e m1) c e m1 m.xmode2 m.xwin2 dst n bs []

/-- A stream engine moves (R359). One that a freeze or a cut stops goes on to the end of the token it stands in (R170, R282). -/
def streamMove (s : State) (c e : Nat) : State :=
  match streamHead s c e with
  | none => s
  | some m =>
    let runs := engineRuns (s.core c) m.iseq
    if !m.started || (!runs && !(m.midToken && decide ((s.core c).run ≠ .graphHalted))) then s
    else if !runs && decide (m.kind = 0) then readBurst s c e m (m.tok - m.pos % m.tok)
    else match m.kind with
      | 0 => readMove s c e m
      | 1 => writeMove s c e m
      | 2 => copyMove s c e m
      | _ => s

/-! ### The events of streams -/

/-- STREAM_START (R350): the head command of a queue starts; a copy when it heads both its queues. Its nodes hold
no translation or row yet (R199, R201). -/
def execStreamStart (c e : Nat) (s : State) : Result :=
  .next (match streamHead s c e with
    | none => s
    | some m =>
      let twin := match streamHead s c (e - 2) with | some q => q.kind == 3 | none => false
      if m.started || m.kind == 3 || !(engineRuns (s.core c) m.iseq) || (m.kind == 2 && !twin) then s
      else modEngine (setHead s c e { m with started := true }) c e fun x => { x with held := [], rows := [] })

/-- STREAM_BURST (R359, R187): one move of a stream's engine. -/
def execStreamBurst (c e : Nat) (s : State) : Result := .next (streamMove s c e)

/-- Every source byte of a command has been read, or every local byte or token taken (R356). -/
def sourceDone (m : StrCmd) : Bool :=
  if m.kind = 1 then decide (m.bytes ≤ m.pos + m.buf.length) else decide (m.bytes ≤ m.pos)

/-- Every byte of a command is written, or every token accepted by the grid port (R356). -/
def sinkDone (s : State) (c : Nat) (m : StrCmd) : Bool :=
  if m.kind = 0 ∧ m.lkind = 0 then decide (m.bytes + 2 ≤ m.pos) && m.buf.isEmpty && (s.chan c m.port).isEmpty
  else decide (m.bytes ≤ m.pos)

/-- STREAM_SOURCE_RELEASED (R356). -/
def execStreamSourceReleased (c e : Nat) (s : State) : Result :=
  .next (match streamHead s c e with
    | none => s
    | some m =>
      if m.started && !m.released && sourceDone m then
        modEngine (setHead s c e { m with released := true }) c e fun x => { x with released := x.released + 1 }
      else s)

/-- A command leaves its queue, a copy both its queues. -/
def streamLeave (s : State) (c e : Nat) (m : StrCmd) : State :=
  let s1 := modEngine s c e fun x => { x with queue := x.queue.drop 1 }
  if m.kind = 2 then modEngine s1 c (e - 2) fun x => { x with queue := x.queue.drop 1 } else s1

/-- The follow-on of a visible stream enters the matrix and meld queue, waits for room, or halts the graph with the fault it
would raise (R360). -/
def followOn (s : State) (c e : Nat) (m : StrCmd) : State :=
  match issueWord s c m.mode m.fword m.frs1 m.frs2 with
  | .wait => s
  | .ok s1 _ => streamLeave s1 c e m
  | .halt s1 => streamLeave s1 c e m
  | .fault f =>
    let n : Notice := { cause := f, core := coreName c, port := 0x8000 + m.kind * 2 + e % 2, chan := m.seq
                        detail := (ticket m.kind e m.seq).toNat % 2 ^ 48 }
    (streamLeave s c e m).haltGraph (s.core c).graph n

/-- STREAM_VISIBLE (R356, R360). -/
def execStreamVisible (c e : Nat) (s : State) : Result :=
  .next (match streamHead s c e with
    | none => s
    | some m =>
      if !m.started || !m.released || !(engineRuns (s.core c) m.iseq) || !(sinkDone s c m) then s
      else
        let s1 := if m.visible then s
          else modEngine (setHead s c e { m with visible := true }) c e fun x => { x with visible := x.visible + 1 }
        if m.follow then followOn s1 c e m else streamLeave s1 c e m)

/-! ### Append regions (R380) -/

/-- What a length store, an STQ.rel at its home's scope, waits for (R380, R211, R213): every earlier store-type access and engine
write, whatever its home, every earlier load from a home within its scope, and any earlier store-type entry that has faulted and is
not freed (log entry 23). -/
def lengthHeld (s : State) (c : Nat) (w : ApWrite) : Bool :=
  let sc := match streamXlat s c 0 0 w.mode w.addr false true with
    | .ok pa => scopeInstance s c pa
    | _ => .dom
  releaseHeld s c .dom w.seq false || releaseHeld s c sc w.seq true || (faultedStore (s.core c) w.seq).isSome

/-- The head write of an append region's queue is performed: a row at once, a length store when nothing before it holds it; an
address fault halts the graph, its DETAIL the row. -/
def appendPerform (s : State) (c n : Nat) : State :=
  let k := s.core c
  let a := NMap.getD ({} : Append) k.appends n
  match a.queue with
  | [] => s
  | w :: rest =>
    if (w.isLen && lengthHeld s c w) || !(engineRuns k w.seq) then s
    else
      let drop := fun (s : State) => s.modCore c fun k =>
        { k with appends := NMap.put k.appends n { a with queue := rest } }
      let row := if w.isLen then a.len else (w.addr - a.base) / max a.rowBytes 1
      let r := reach [] s c 0 0 w.mode w.addr w.bytes.length false true
      if r = .fault 0x143 then guardNotice (drop s) c { detail := row }
      else withPieces s c (24 + n) ((s.ctxOf c).getD 0) w.addr r
        (fun f s1 => (drop s1).haltReached k.graph { cause := f, core := coreName c, detail := row })
        fun ps _ s1 => drop (writePieces ps w.bytes s1)

/-! ### Requests at their homes -/

/-- HOME_PERFORM (R202, R380): a queue entry's request, or with 24 + n the head write of append region n. -/
def execHomePerform (c q : Nat) (s : State) : Result :=
  .next (if q < 16 then tryHome s c q else if q < 24 then streamMove s c (q - 16) else appendPerform s c (q - 24))

/-- KITTY_RESEND (R203): a request refused by a full share is sent again. -/
def execKittyResend (c q : Nat) (s : State) : Result :=
  .next (if q < 16 then
      match ((s.core c).entry q).dest with
      | .parked _ => tryHome s c q
      | _ => s
    else if q < 24 then streamMove s c (q - 16) else appendPerform s c (q - 24))

end Sys2Proof.Machine
end

