-- ==== Sys2Proof/Machine/Ring.lean ====
section
/-! DEFINITION. Firings start and actors drain, pointers travel, memory actors fire, and the mode controller switches rate
sets (R121, R130, R131, R135 to R137, R455). -/

namespace Sys2Proof.Machine

/-! ### Actors and sinks of a graph -/

/-- A port record is a numbered output port. -/
def PortRec.isOut (p : PortRec) : Bool := decide (16 ≤ p.pnum ∧ p.pnum < 32)

/-- The sinks of a graph on this package: actor records without an output port (R115), and, from 0x10000 up, the port
records of host sinks (R98). -/
def sinkList (s : State) (img : List Byte) : List Nat :=
  let ps := portRecs img
  let acts := (List.range (nActors img)).filter fun i =>
    actorHere s img (actorRec img i) && !(ps.any fun p => p.actor == i && p.isOut)
  let hosts := (List.range (nPorts img)).filter fun j => (portRec img j).isOut && (portRec img j).host != 0xFFFF
    && actorHere s img (portActor img j)
  acts ++ hosts.map (· + 0x10000)

/-- A graph retires (R136): its resources are released, and LWAIT gives 0 (R371). -/
def retire (s : State) (h : Nat) : State :=
  (((s.release h).modGraph h fun g => { g with phase := .retired }).recordOutcome h 0).settleHalt (h / 2 ^ 28)

/-- The drain tokens have reached every sink of a graph on this package, and, at the coordinating package, on every other
(R136, R78). -/
def allDrained (s : State) (g : Graph) : Bool :=
  (sinkList s g.img).all (fun i => g.sinksDrained.contains i)
    && (packagesOf g.img).all fun p => !(spans g.img) || p == s.links.pkg || g.peers.sinks.contains p

/-- A graph of this package retires once the drain tokens have reached all its sinks; one that another package coordinates retires
when that package says so. -/
def retireDrained (s : State) (h : Nat) : State :=
  match s.graph? h with
  | none => s
  | some g => if g.coord.isNone && allDrained s g then retire s h else s

/-- The drain tokens have reached a sink of a graph; at the last the graph retires (R136). -/
def reachSink (s : State) (h n : Nat) : State :=
  let s1 := s.modGraph h fun g =>
    { g with sinksDrained := if g.sinksDrained.contains n then g.sinksDrained else n :: g.sinksDrained }
  retireDrained s1 h

/-- A mode switch is abandoned by a drain token with MODE.4 (R137); before M is set the token's sender learns it (R369). -/
def abandonSwitch (s : State) (h : Nat) : State :=
  match s.graph? h with
  | none => s
  | some g =>
    if g.modeCtl.step = 0 then s
    else
      let s1 := g.cores.foldl (fun s x => s.modCore x.2 fun k => { k with seqMode := {} }) s
      let s2 := (s1.modGraph h fun g => { g with modeCtl := { g.modeCtl with step := 0 } }).notifyGraph h { cause := 0x074 }
      if g.modeCtl.step = 2 then tellSender s2 g.modeCtl.sender g.modeCtl.seq (modeOutcome 0 g.modeCtl.token 0x074) else s2

/-! ### Tokens arrive (R114, R130, R131) -/

/-- A notice that names the port of a window descriptor and the ordinal of a token. -/
def windowNote (s : State) (c i cause ord : Nat) : Notice :=
  let x := portOfDesc s c i
  { cause := cause, core := coreName c, port := x.2, chan := arcOf s c x.1 x.2, detail := ord % 2 ^ 48 }

/-- A token of a channel type reaches an input window with its pointer write (R130): RING.5 for a pointer out of range,
the conversion of R114 with its counts (R259), RING.13 for bytes that are no whole token; then the slot and WRPTR are written. -/
def landToken (s : State) (c i t : Nat) (m : PtrMsg) : State :=
  let k := s.core c
  let d := k.desc i
  let stop := fun (f : Nat) => s.haltGraph k.graph (windowNote s c i f (m.wrptr - 1))
  match s.ueAt (winBase c + 0x600000 + 64 * i) 64 with
  | some u => s.ueHalt c u
  | none =>
    if m.wrptr < d.wr.toNat ∨ d.rd.toNat + d.cap < m.wrptr then stop 0x065
    else match convert t d.tcode m.bytes with
      | .error f => stop f
      | .ok (bs, cs) =>
        if bs.length ≠ d.tsize then stop 0x06D
        else
          let w := m.wrptr - 1
          let marks := if m.marks = [] then d.marks else NMap.put d.marks w m.marks
          let r := tokenCounts (NMap.getD [] k.convs i) cs m.marks
          let s1 := (s.setTile c (d.slotAt w) bs).modCore c fun k =>
            { k with descs := NMap.put k.descs i { d with wr := BitVec.ofNat 64 m.wrptr, marks := marks }
                     convs := if t = d.tcode then k.convs else NMap.put k.convs i r.1 }.wake
          statNotice s1 k.graph (coreName c) i r.2

/-- The record number of an actor of a core. -/
def actorIndex (s : State) (c a : Nat) : Option Nat :=
  match s.graph? (s.core c).graph with
  | none => none
  | some g => ((coreActors g.img (s.core c).lcore).find? fun x => x.2.lact == a).map Prod.fst

/-- An actor of a core, drained, has received the drain token of every input (R220). -/
def inputsDrained (s : State) (c a : Nat) : Bool :=
  (s.core c).drainedActors.contains a && (List.range 16).all fun p =>
    match portDesc s c a p with
    | none => true
    | some i => ((s.core c).desc i).drain

/-- The drain tokens have reached a sink once its actor has drained and every input window of it holds one, on each core of its
gang (R136, R220). -/
def sinkReached (s : State) (c a : Nat) : State :=
  let h := (s.core c).graph
  match s.graph? h, actorIndex s c a with
  | some g, some i =>
    if (sinkList s g.img).contains i && (matesOf s c a).all fun m => inputsDrained s m a then reachSink s h i else s
  | _, _ => s

/-- A drain token enters an input window (R136, R137). -/
def landDrain (s : State) (c i : Nat) : State :=
  let s1 := s.modCore c fun k => { k with descs := NMap.put k.descs i (k.desc i).setDrain }
  sinkReached (abandonSwitch s1 (s.core c).graph) c (portOfDesc s c i).1

/-- A message lands at an input window. -/
def landMsg (s : State) (c i t : Nat) (m : PtrMsg) : State := if m.drain then landDrain s c i else landToken s c i t m

/-- The producers of an output descriptor's arc: the gang of the port's actor. -/
def arcCores (s : State) (c i : Nat) : List Nat :=
  if (shareAt s c i).size = 1 then [c] else matesOf s c (portOfDesc s c i).1

/-- The output descriptors of a core that lead to a window. -/
def descsTo (s : State) (c c' i : Nat) : List Nat :=
  ((s.core c).descs.filter fun (_, d) => d.valid && d.isOut && d.pkind == 0 && peerCore c d == c' && d.pdesc == i).map Prod.fst

/-- The drain token of a gang member counts once every member has sent its own and no token of theirs is on its way. -/
def gangDrained (s : State) (c i : Nat) : Bool :=
  let x := portOfDesc s c i
  (matesOf s c x.1).all fun m => ((s.core m).port x.1 x.2).drained && !((s.core m).outMsgs.any fun y => !y.drain)

/-- The scope of an output descriptor's channel (R217). -/
def channelScope (c : Nat) (d : WinDesc) : Scope :=
  match d.pkind with
  | 0 => if peerCore c d = c then .core else .card
  | 2 => .dom
  | _ => .deck

/-- The wider of two scopes. -/
def widerScope (a b : Scope) : Scope := if scopeRank a < scopeRank b then b else a

/-- The scope of a send through an output descriptor: the widest among the arcs of its port (R472, R217). -/
def sendScope (s : State) (c i : Nat) : Scope :=
  let k := s.core c
  let x := portOfDesc s c i
  let own := channelScope c (k.desc i)
  if x.2 = 0xFFFF then own
  else ((portChain s c x.1 x.2).map fun j => channelScope c (k.desc j)).foldl widerScope own

/-- WRPTR_WRITE (R130, R131, R217, R162, R39): the oldest pointer write of an output descriptor arrives once its release
holds, unless its core stands still (R126, R170, R282); the guard, a power-gated core and a wrong producer discard it. Gang members'
tokens arrive in the arc's order (R466). -/
def execWrptrWrite (c d : Nat) (s : State) : Result :=
  .next (
    let k := s.core c
    match k.outMsgs.find? fun m => m.desc == d with
    | none => s
    | some m =>
      let x := k.desc d
      let c' := peerCore c x
      let k' := s.core c'
      let y := k'.desc x.pdesc
      let gang := decide (1 < (shareAt s c d).size)
      let s1 := s.modCore c fun k => { k with outMsgs := k.outMsgs.erase m }
      let note := windowNote s c d 0 (m.wrptr - 1)
      if releaseHeld s c (sendScope s c d) m.seq false || !(coreMoves k) || k.cut then s
      else if k.mode ≠ .m ∧ s.ctxOf c' ≠ s.ctxOf c then guardNotice s1 c note
      else if !(coreMoves k') || decide (k'.power = .waking) || (gang && !m.drain && decide (y.wr.toNat + 1 < m.wrptr)) then s
      else
        if k'.power = .powerGated then s1.notifyGraph k.graph { note with cause := 0x150 }
        else if !y.valid || y.isOut || y.pkind != 0 || !((arcCores s c d).contains (peerCore c' y)) then
          s1.notifyGraph k'.graph (windowNote s c' x.pdesc 0x069 (m.wrptr - 1))
        else if gang && m.drain && !(gangDrained s1 c d) then s1
        else landMsg s1 c' x.pdesc x.tcode m)

/-- A channel replaced. -/
def setChannel (s : State) (ch : Nat) (x : Channel) : State :=
  { s with links := { s.links with channels := NMap.put s.links.channels ch x } }

/-- Every port of a channel carries traffic: it is up, neither retraining nor down (R81, R82). -/
def channelUp (s : State) (x : Channel) : Bool := x.ports.all fun n => s.links.up.testBit n

/-- The input windows of this package that a channel fills: one, or one of each member of a gang. -/
def channelWindows (s : State) (ch : Nat) : List (Nat × Nat) :=
  (s.cores.map fun (c, k) =>
    (k.descs.filter fun (_, d) => d.valid && !d.isOut && d.pkind == 2 && d.stream == ch).map fun (i, _) => (c, i)).flatten

/-- The arc's read pointer at the windows of a channel: every token below it is freed, and its reads are done (R466, R218). -/
def arcRead (s : State) (ch : Nat) : Nat :=
  (minOf ((channelWindows s ch).map fun (c, i) =>
    let y := shareAt s c i
    let rd := (s.core c).freedRd i
    if y.size = 1 then rd else y.global rd)).getD 0

/-- The read pointer of the window of a Herlo channel leaves as credit (R75). -/
def sendCredit (s : State) (ch rd : Nat) : State :=
  match NMap.find s.links.channels ch with
  | none => s
  | some x => setChannel s ch { x with credited := rd }

/-- RDPTR_MIRROR (R130, R75, R218, RING.8): the oldest new read pointer of an input descriptor, the reads of the tokens it frees
being done, reaches its producer's output descriptor, or leaves on its Herlo channel; a core that stands still sends none (R282). -/
def execRdptrMirror (c d : Nat) (s : State) : Result :=
  .next (
    let k := s.core c
    let x := k.desc d
    match k.mirrors.find? fun m => m.desc == d with
    | none => s
    | some m =>
      let c' := peerCore c x
      let y := (s.core c').desc x.pdesc
      if coreMoves k = false ∨ k.cut = true ∨ readsHeld s c m.seq = true then s
      else
        let s1 := s.modCore c fun k => { k with mirrors := k.mirrors.erase m }
        match x.pkind with
        | 0 =>
          if k.mode ≠ .m ∧ s.ctxOf c' ≠ s.ctxOf c then guardNotice s1 c (windowNote s c d 0 m.rd)
          else if coreMoves (s.core c') = false then s
          else if y.valid && y.isOut then
            let tell := fun (s : State) (n : Nat) => (descsTo s n c d).foldl (fun s i => s.modCore n fun k =>
              { k with descs := NMap.put k.descs i { k.desc i with rd := BitVec.ofNat 64 m.rd } }) s
            if (shareAt s c' x.pdesc).size = 1 then
              s1.modCore c' fun k => { k with descs := NMap.put k.descs x.pdesc { y with rd := BitVec.ofNat 64 m.rd } }
            else (arcCores s c' x.pdesc).foldl tell s1
          else s1.tellMgmt (s1.graphNotice (s.core c').graph { cause := 0x068, core := coreName c' })
        | 2 =>
          if ((NMap.find s.links.channels x.stream).map (channelUp s)).getD true then
            sendCredit s1 x.stream (if (shareAt s c d).size = 1 then m.rd else arcRead s1 x.stream)
          else s
        | _ => s)

/-! ### Firings start (R121) -/

/-- The next entry whose actor has not drained, from a place in the segment; none within one pass. -/
def seekHead (s : State) (c : Nat) : Nat → Nat × Nat → Option (Nat × Nat)
  | 0, _ => none
  | fuel + 1, p =>
    let k := s.core c
    let w := firingEntry s c (segFirst s c k.rset + p.1)
    if k.drainedActors.contains (fld w 30 28) then seekHead s c fuel (nextHead s c p.1 p.2) else some p

/-- The sequencer's next entry: its place and the entry, none without a segment for the rate set. -/
def headEntry (s : State) (c : Nat) : Option ((Nat × Nat) × Word32) :=
  let k := s.core c
  if segCount s c k.rset = 0 then none
  else match seekHead s c (segCount s c k.rset) (k.head, k.round) with
    | none => none
    | some p =>
      let w := firingEntry s c (segFirst s c k.rset + p.1)
      if bitAt w 31 then some (p, w) else none

/-- The graph of a core runs, and the core's sequencer serves its table between firings. -/
def sequencing (s : State) (c : Nat) : Bool :=
  let k := s.core c
  let live := match s.graph? k.graph with
    | none => false
    | some g => decide (g.phase = .running) && !(g.supervisor && match NMap.find s.ctxs (g.handle / 2 ^ 28) with
        | some x => x.halted
        | none => true)
  live && decide (k.run = .betweenFirings) && !k.cut && !k.seqMode.stopped

/-- A mode switch lets a firing of a round start (R135): it begins no period beyond the target, or beyond those begun. -/
def mayBegin (k : Core) (round : Nat) : Bool :=
  !k.seqMode.holding || decide (round + 1 ≤ k.seqMode.target.getD (k.seqMode.reported.getD 0))

/-- Tokens held at an input port of an actor. -/
def tokensAt (s : State) (c a p : Nat) : Nat :=
  match portDesc s c a p with
  | none => 0
  | some i => ((s.core c).desc i).occ

/-- The one port of a memory actor. -/
def enginePort (img : List Byte) (a : Nat) : Option PortRec := (portRecs img).find? fun p => p.actor == a

/-- The memory sinks that hear a stream. -/
def streamSinks (s : State) (key : Nat) : List (Nat × MemActor) :=
  s.actors.filter fun (_, a) => a.sink && a.graph / 2 ^ 28 == key / 0x10000 && a.stream % 0x10000 == key % 0x10000

/-- The arc record of a memory actor. -/
def actorArc (s : State) (a : MemActor) : Option ArcRec :=
  (s.graph? a.graph).bind fun g => (enginePort g.img a.actor).map fun p => arcRec g.img p.arc

/-- The pointer a receiver of a stream has sent back. -/
def ackOf (st : DeckStream) (r : Nat) : Nat := NMap.getD 0 st.acks r

/-- The name of an input window among a stream's receivers. -/
def winRecv (c i : Nat) : Nat := c * 64 + i
/-- The name of a memory actor among a stream's receivers. -/
def memRecv (n : Nat) : Nat := 2 ^ 20 + n

/-- Some receiving window of a stream is a gang member's. -/
def toGang (s : State) (key : Nat) : Bool := (streamWindows s key).any fun (c, i) => decide (1 < (shareAt s c i).size)

/-- Every receiver of a stream has a free place for token w, as far as its credits say (R50). -/
def streamFree (s : State) (key w : Nat) : Bool :=
  let st : DeckStream := NMap.getD {} s.streams key
  ((streamWindows s key).all fun (c, i) =>
      match arrivePtr s st c i (w + 1) with
      | none => true
      | some p => decide (p ≤ ackOf st (winRecv c i) + ((s.core c).desc i).cap))
    && ((streamSinks s key).all fun (n, a) =>
      match actorArc s a with
      | none => false
      | some r => decide (w + 1 - senderAnte s st + a.ante ≤ ackOf st (memRecv n) + r.cap))
    && (st.mem || st.host || toGang s key || !(streamWindows s key).isEmpty || !(streamSinks s key).isEmpty || decide (w < ((s.core st.core).desc st.desc).rd.toNat + ((s.core st.core).desc st.desc).cap))

/-- A descriptor of an output port has places for the next n tokens of a gang's split (R466). -/
def splitSpace (s : State) (c a p n i : Nat) : Bool :=
  let d := (s.core c).desc i
  (List.range n).all fun t =>
    match outPlace s c a p i t with
    | none => true
    | some w => if d.pkind ≠ 0 ∧ toGang s (streamKey s c d.stream) = true then streamFree s (streamKey s c d.stream) w
        else decide (w < d.rd.toNat + d.cap)

/-- The arc through a descriptor joins no gang. -/
def plainArc (s : State) (c a p i : Nat) : Bool :=
  let d := (s.core c).desc i
  (shareOf s c a p).size == 1 &&
    (if d.pkind = 0 then (shareAt s (peerCore c d) d.pdesc).size == 1 else !(toGang s (streamKey s c d.stream)))

/-- A descriptor has free places for n tokens: a deck stream while every receiver has them, as far as its credits say (R472). -/
def descSpace (s : State) (c n i : Nat) : Bool :=
  let d := (s.core c).desc i
  if d.pkind = 1 ∨ d.pkind = 3 then n == 0 || streamFree s (streamKey s c d.stream) (d.wr.toNat + n - 1) else decide (n ≤ d.free)

/-- An output port has free places for n tokens: all its chain has them (R121, R466, R472). -/
def spaceFor (s : State) (c a p n : Nat) : Bool :=
  let ch := portChain s c a p
  if ch.all (plainArc s c a p) then ch.all (descSpace s c n) else ch.all (splitSpace s c a p n)

/-- Every input port holds its tokens and every output port has its free places (R121). -/
def canFire (s : State) (c a p : Nat) : Bool :=
  let set := (s.core c).rset
  (List.range 16).all fun k =>
    decide (rateOf s c a set p k ≤ tokensAt s c a k)
      && (rateOf s c a set p (16 + k) == 0 || spaceFor s c a (16 + k) (rateOf s c a set p (16 + k)))

/-- The firing of an actor in a phase starts (R121, R122): sr.actor and sr.phase are set, the monitors cleared, the CP goes to
the firing routine. -/
def startFiring (s : State) (c : Nat) (p : Nat × Nat) (a ph : Nat) : State :=
  let start := actorRoutine s c a
  s.modCore c fun k => { k with
    head := p.1, round := p.2, run := .running, pc := start, waitSince := none, modeSent := false
    actor := BitVec.ofNat 64 (max k.period (p.2 + 1) % 2 ^ 48 * 2 ^ 16 + a)
    phase := BitVec.ofNat 64 (2 ^ 63 + k.rset * 256 + ph)
    ports := k.ports.map fun (n, x) => if n / 32 = a then (n, { x with cnt := 0, hold := none }) else (n, x)
    grid := { k.grid with goes := 0, dones := 0, goAct := false, goSh := false } }

/-- The bytes of the sequencer region that a firing of an actor needs: its entry and its actor-table entry. -/
def sequencerUe (s : State) (c e a : Nat) : Option Nat :=
  let b := winBase c + 0x700000
  match s.ueAt (b + 0x1000 + 4 * (e % 256)) 4 with
  | some u => some u
  | none => s.ueAt (b + 0x100 + 64 * a) 64

/-- FIRING_START (R121): the head entry's firing starts when, and only when, tokens and space suffice. -/
def execFiringStart (c : Nat) (s : State) : Result :=
  .next (if !(sequencing s c) then s
    else match headEntry s c with
      | none => s
      | some (p, w) =>
        let k := s.core c
        let a := fld w 30 28
        let ph := fld w 27 24
        match sequencerUe s c (segFirst s c k.rset + p.1) a with
        | some u => s.ueHalt c u
        | none => if mayBegin k p.2 && canFire s c a ph then startFiring s c p a ph else s)

/-- The head entry's firing may start. -/
def firingReady (s : State) (c : Nat) : Bool :=
  sequencing s c && match headEntry s c with
    | none => false
    | some (p, w) => mayBegin (s.core c) p.2 && canFire s c (fld w 30 28) (fld w 27 24)

/-- The power state of a core (R39): a running core between firings with none ready is clock-gated. -/
def powerState (s : State) (c : Nat) : Power :=
  let k := s.core c
  if k.power = .running ∧ k.run = .betweenFirings ∧ firingReady s c = false then .clockGated else k.power

/-! ### Draining (R136) -/

/-- The input ports of an actor that its phase takes tokens from. -/
def needed (s : State) (c a ph : Nat) : List Nat :=
  (List.range 16).filter fun k => rateOf s c a (s.core c).rset ph k != 0

/-- The window of a port of an actor has DRAIN set. -/
def drainAt (s : State) (c a p : Nat) : Bool :=
  match portDesc s c a p with
  | none => false
  | some i => ((s.core c).desc i).drain

/-- The actor of the head entry is drained (R136). -/
def isDrained (s : State) (c a ph : Nat) : Bool :=
  (needed s c a ph).all (fun k => drainAt s c a k)
    && (needed s c a ph).any fun k => decide (tokensAt s c a k < rateOf s c a (s.core c).rset ph k)

/-- The writes of an actor's firings hold back its drain tokens (R220). -/
def drainHeld (s : State) (c a : Nat) : Bool :=
  let k := s.core c
  (List.range 16).any fun n => (portChain s c a (16 + n)).any fun i =>
    releaseHeld s c (channelScope c (k.desc i)) k.issueSeq false

/-- Tokens left at an input port are discarded, with RATE.6 for the count and the port. -/
def discardResidue (c a : Nat) (s : State) (p : Nat) : State :=
  match portDesc s c a p with
  | none => s
  | some i =>
    let d := (s.core c).desc i
    if d.occ = 0 then s
    else
      let s1 := s.modCore c fun k => { k with
        descs := NMap.put k.descs i { d with rd := d.wr, marks := [] }, mirrors := k.mirrors ++ [{ desc := i, rd := d.wr.toNat, seq := k.issueSeq, was := d.rd.toNat }] }
      s1.notifyGraph (s.core c).graph
        { cause := 0x056, core := coreName c, port := p, chan := arcOf s c a p, detail := d.occ }

/-- A drained actor's steps (R136): residue discarded, drain tokens sent, no further firing; a sink that drains may retire
the graph. -/
def drainActor (s : State) (c a : Nat) : State :=
  let s1 := (List.range 16).foldl (discardResidue c a) s
  let s2 := (List.range 16).foldl (fun s n => sendDrain s c a (16 + n)) s1
  sinkReached (s2.modCore c fun k => { k with drainedActors := a :: k.drainedActors }) c a

/-- ACTOR_DRAIN (R136): the head entry's actor, found drained and not able to start, drains. -/
def execActorDrain (c : Nat) (s : State) : Result :=
  .next (if !(sequencing s c) then s
    else match headEntry s c with
      | none => s
      | some (_, w) =>
        let a := fld w 30 28
        let ph := fld w 27 24
        if isDrained s c a ph && !(drainHeld s c a) then drainActor s c a else s)

/-! ### Memory actors (R455) -/

/-- The pseudo core that names a memory actor in notices (R160) and in a kitty; memory actor n runs on engine n mod 64. -/
def engineCore (n : Nat) : Nat := 12 * 192 + n

/-- The stream descriptor of a memory actor: its DATA run at offset 0, later runs and init clauses over it (R455, R468). -/
def engineDesc (img : List Byte) (n : Nat) : List Word :=
  let put := fun (bs : List Byte) (r : Nat × List Byte) => bs.take r.1 ++ r.2 ++ bs.drop (r.1 + r.2.length)
  let bs := ((imageData img (0x1000 + n)).foldl put (List.replicate 64 0)).take 64
  (chunks 8 8 bs).map fun b => BitVec.ofNat 64 (ofLe b)

/-- The fault of a translated address of a memory actor: it must lie in HBM4, here or in another package. -/
def engineFault (s : State) (pa n : Nat) : Option Nat :=
  if !(isLocal s pa) then remoteFault s pa n
  else match regionOf s (pa % 2 ^ 45) with
    | .hbm => none
    | .core _ _ => some 0x029
    | _ => some 0x025

/-- The address range of a firing of a memory actor, judged as a U-mode access of its context. -/
def engineReach (s : State) (x va n : Nat) (ld st : Bool) : Reach :=
  reachWith (fun a => translate s x a ld st .u) (fun a k => [engineFault s a k]) s va n

/-- A mode switch lets a memory actor's next firing start (R135): it lies within period M. -/
def engineMayFire (g : Graph) (a : MemActor) : Bool :=
  g.modeCtl.step == 0 ||
    decide (a.fired < g.modeCtl.target * periodFirings g.img g.modeCtl.inForce a.actor)

/-- A fault of a memory actor's stream halts its graph (R198). -/
def memHalt (s : State) (n : Nat) (a : MemActor) (arc cause : Nat) : State :=
  s.haltReached a.graph { cause := cause, core := coreName (engineCore (n % 64)), chan := arc, detail := a.f % 2 ^ 48 }

/-- A memory actor's range is reached, parked in the kitty of its home, or faults. -/
def engineAt (s : State) (n : Nat) (a : MemActor) (arc va len : Nat) (st : Bool)
    (f : List (Nat × Nat) → List Byte → State → State) : State :=
  let x := a.graph / 2 ^ 28
  withPieces s (engineCore n) 0x1000 x va (engineReach s x va len (!st) st) (fun e s1 => memHalt s1 n a arc e) f

/-- An uncorrectable byte met by a memory actor halts its graph with the location (R274). -/
def engineUe (s : State) (a : MemActor) (u : Nat) : State :=
  let l := State.ueLocation u
  s.haltLocation a.graph l.1 l.2.1 l.2.2.1 l.2.2.2.1

/-- The state with a memory actor replaced. -/
def setActor (s : State) (n : Nat) (a : MemActor) : State := { s with actors := NMap.put s.actors n a }

/-- The arcs that leave a memory source's port on Herlo channels, and whether some leave on its deck stream (R28, R472). -/
def sourceArcs (g : Graph) (a : MemActor) : List Nat × Bool :=
  let mine := (List.range (nArcs g.img)).filter fun x => (portRec g.img (arcRec g.img x).src).actor == a.actor
  (mine.filter fun x => arcKind g.img x == 2, mine.any fun x => arcKind g.img x == 3)

/-- The number of an arc's Herlo channel. -/
def channelOf (g : Graph) (arc : Nat) : Nat := g.vbase + 1 + arc

/-- A memory source's message of token t, or its drain token, joins its stream and its Herlo channels, whose arcs each have their own
ante tokens. -/
def sourceSend (s : State) (n : Nat) (a : MemActor) (g : Graph) (t : Nat) (bytes : List Byte) (drain : Bool) : State :=
  let msg := fun (ante : Nat) => ({ desc := 0, wrptr := ante + t + if drain then 0 else 1, bytes := bytes, marks := [], drain := drain } : PtrMsg)
  let key := ctxStream (a.graph / 2 ^ 28) a.stream
  let st : DeckStream := NMap.getD {} s.streams key
  let st1 := { st with graph := a.graph, mem := true, core := n, tokens := st.tokens ++ [msg a.ante] }
  let s1 : State := if (sourceArcs g a).2 then { s with streams := NMap.put s.streams key st1 } else s
  (sourceArcs g a).1.foldl (fun (s : State) (x : Nat) =>
    match NMap.find s.links.channels (channelOf g x) with
    | none => s
    | some ch => setChannel s (channelOf g x) { ch with sent := ch.sent ++ [msg (arcRec g.img x).ante] }) s1

/-- A memory source finds a free place for token t on its stream and on each of its Herlo channels (R121, R50, R75). -/
def sourceRoom (s : State) (a : MemActor) (g : Graph) (t : Nat) : Bool :=
  (!(sourceArcs g a).2 || streamFree s (ctxStream (a.graph / 2 ^ 28) a.stream) (a.ante + t))
    && (sourceArcs g a).1.all fun x =>
      match NMap.find s.links.channels (channelOf g x) with
      | none => true
      | some ch => decide ((arcRec g.img x).ante + t < ch.rd + (arcRec g.img x).cap)

/-- The tokens that a memory actor moves in the firing at hand: n(p, k) of its phase (R115). -/
def engineRate (g : Graph) (a : MemActor) (p : PortRec) : Nat :=
  imgRate g.img a.actor g.modeCtl.inForce (a.fired % max (actorRec g.img a.actor).nphase 1) p.pnum

/-- A memory actor has moved a token, its firing's last or not. -/
def MemActor.moved (a : MemActor) (rate : Nat) : MemActor :=
  if rate ≤ a.cnt + 1 then { a with f := a.f + 1, fired := a.fired + 1, cnt := 0 } else { a with f := a.f + 1, cnt := a.cnt + 1 }

/-- A memory source moves on in its firing (R455, R115): with room for the whole firing it reads a token and sends it; it ends its
stream with a drain token. -/
def sourceFire (s : State) (n : Nat) (a : MemActor) (g : Graph) (p : PortRec) : State :=
  let ds := engineDesc g.img (n % 64)
  let addr := (ds.getD 0 0).toNat
  let total := fld (ds.getD 2 0) 63 32 / max p.tsize 1
  let rate := engineRate g a p
  if total ≤ a.f then
    if a.drained then s
    else
      let s1 := setActor s n { a with drained := true }
      (sourceSend s1 n a g a.f [] true).modGraph a.graph fun g => { g with srcDrained := true }
  else if rate = 0 then setActor s n { a with fired := a.fired + 1 }
  else if a.cnt = 0 && !(sourceRoom s a g (min (a.f + rate) total - 1)) then s
  else engineAt s n a p.arc ((addr + a.f * p.tsize) % 2 ^ 64) p.tsize false fun ps far s =>
    match readPieces (engineCore n) ps far s with
    | (.error u, s1) => engineUe s1 a u
    | (.ok bs, s1) => sourceSend (setActor s1 n (a.moved rate)) n a g a.f bs false

/-- The Herlo channel that feeds a memory sink carries its read pointer back (R75, R82). -/
def sinkUp (s : State) (g : Graph) (p : PortRec) : Bool :=
  arcKind g.img p.arc != 2 || ((NMap.find s.links.channels (channelOf g p.arc)).map (channelUp s)).getD true

/-- A memory sink moves on in its firing (R455, R115): holding the tokens of the whole firing it writes the oldest, and its read
pointer goes back on a Herlo channel (R75), which must be up (R82); with fewer after its drain token it discards them, with RATE.6, and is done (R136). -/
def sinkFire (s : State) (n : Nat) (a : MemActor) (g : Graph) (p : PortRec) : State :=
  let rate := engineRate g a p
  if a.drained then s
  else if rate = 0 then setActor s n { a with fired := a.fired + 1 }
  else if a.cnt = 0 && decide (a.window.length < rate) then
    if a.drainIn then
      let s1 := if a.window = [] then s
        else s.notifyGraph a.graph { cause := 0x056, core := coreName (engineCore (n % 64)), port := p.pnum, chan := p.arc, detail := a.window.length }
      reachSink (setActor s1 n { a with drained := true, window := [] }) a.graph a.actor
    else s
  else match a.window with
    | [] => s
    | t :: rest =>
      if !(sinkUp s g p) then s else
      let addr := ((engineDesc g.img (n % 64)).getD 0 0).toNat
      engineAt s n a p.arc ((addr + a.f * p.tsize) % 2 ^ 64) p.tsize true fun ps _ s =>
        let s1 := writePieces ps t (setActor s n { a.moved rate with window := rest })
        if arcKind g.img p.arc = 2 then sendCredit s1 (channelOf g p.arc) (a.f + 1) else s1

/-- A memory actor engine acts. -/
def engineFire (s : State) (n : Nat) : State :=
  match NMap.find s.actors n with
  | none => s
  | some a =>
    match s.graph? a.graph with
    | none => s
    | some g =>
      if g.phase ≠ .running ∨ g.cutSince.isSome = true ∨ engineMayFire g a = false then s
      else match enginePort g.img a.actor with
        | none => s
        | some p => if a.sink then sinkFire s n a g p else sourceFire s n a g p

/-! ### Mode switches (R135, R137) -/

/-- The periods a memory actor has begun since the last switch. -/
def enginePeriods (g : Graph) (a : MemActor) : Nat := ceilDiv a.fired (max (periodFirings g.img g.modeCtl.inForce a.actor) 1)

/-- The memory actors of a graph. -/
def enginesOf (s : State) (h : Nat) : List (Nat × MemActor) := s.actors.filter fun (_, a) => a.graph == h

/-- The periods that a graph's sequencers and memory actors on this package have begun: the largest. -/
def periodsBegun (s : State) (h : Nat) (g : Graph) : Nat :=
  ((g.cores.map fun x => (s.core x.2).period) ++ (enginesOf s h).map fun x => enginePeriods g x.2).foldl max 0

/-- The other packages of a graph. -/
def otherPackages (s : State) (g : Graph) : List Nat :=
  if spans g.img then (packagesOf g.img).filter fun p => p != s.links.pkg else []

/-- The hold of a mode switch to a rate set reaches the sequencers of a package (R135, step 2). -/
def holdMode (s : State) (h set who tok seq : Nat) (g : Graph) : State :=
  let s1 := g.cores.foldl (fun s x => s.modCore x.2 fun k => { k with seqMode := { holding := true, reported := some k.period } }) s
  s1.modGraph h fun g => { g with
    modeCtl := { g.modeCtl with step := 2, set := set, target := periodsBegun s h g, sender := who, token := tok, seq := seq }
    peers := { g.peers with begun := [], stopped := [] } }

/-- The target M reaches the sequencers of a package (R135, step 3). -/
def targetMode (s : State) (h m : Nat) (g : Graph) : State :=
  let s1 := g.cores.foldl (fun s x => s.modCore x.2 fun k => { k with seqMode := { k.seqMode with target := some m } }) s
  s1.modGraph h fun g => { g with modeCtl := { g.modeCtl with step := 4, target := m } }

/-- With the report of every package, the largest becomes the target, and the token's sender learns it (R135, step 3; R369). -/
def settleTarget (s : State) (h : Nat) : State :=
  match s.graph? h with
  | none => s
  | some g =>
    if g.modeCtl.step = 2 ∧ (otherPackages s g).all (fun p => g.peers.begun.any fun b => b.1 == p) = true then
      let m := (g.peers.begun.map Prod.snd).foldl max g.modeCtl.target
      tellSender (targetMode s h m g) g.modeCtl.sender g.modeCtl.seq (modeOutcome m g.modeCtl.token 0)
    else s

/-- A mode token's release still holds it (R217): who sent it, and when; one of the host or another package has none here. The way to
a controller on another package is a Herlo channel. -/
def modeHeld (s : State) (g : Graph) (t : Nat × Nat × Nat) : Bool :=
  t.2.1 != 0 && releaseHeld s (t.2.1 - 1) (if g.coord.isSome then .dom else .deck) t.2.2 false

/-- MODE_TOKEN_ACCEPT (R135, steps 1 to 3): MODE.0 for a set the image does not declare; otherwise every sequencer reports
the periods it has begun and holds, and the largest becomes every sequencer's target. The controller runs on the package that
coordinates the graph. -/
def execModeTokenAccept (g : Word32) (s : State) : Result :=
  let h := g.toNat
  .next (match s.graph? h with
    | none => s
    | some g =>
      match g.modeCtl.waiting with
      | [] => s
      | t :: rest =>
        if g.phase ≠ .running ∨ g.cutSince.isSome = true ∨ g.modeCtl.step ≠ 0 ∨ g.coord.isSome = true ∨ modeHeld s g t = true then s
        else
          let s1 := s.modGraph h fun g => { g with modeCtl := { g.modeCtl with waiting := rest } }
          let set := t.1 % 8
          if nSets g.img ≤ set then tellSender (s1.notifyGraph h { cause := 0x070 }) t.2.1 t.2.2 (modeOutcome 0 t.1 0x070)
          else settleTarget (holdMode s1 h set t.2.1 t.1 t.2.2 g) h)

/-- A sequencer has completed period M (R135, step 4). -/
def periodDone (s : State) (c : Nat) (m : Nat) : Bool :=
  let k := s.core c
  decide (k.run = .betweenFirings) && !k.cut && match seekHead s c (segCount s c k.rset) (k.head, k.round) with
    | none => true
    | some p => decide (m ≤ p.2)

/-- A token of a graph is on its way to a window of this package; one that comes from another is when its window lacks an ante
token. -/
def inFlight (s : State) (h : Nat) : Bool :=
  ((s.coresOf h).any fun c => !(s.core c).outMsgs.isEmpty)
    || (s.streams.any fun (_, st) => st.graph == h && !st.tokens.isEmpty)
    || ((s.coresOf h).any fun c => (s.core c).descs.any fun (_, d) =>
          d.valid && !d.isOut && d.pkind == 2 && decide (d.occ < d.ante))
    || match s.graph? h with
      | none => false
      | some g => (enginesOf s h).any fun (_, a) => a.sink && decide (a.window.length < a.ante)
          && ((enginePort g.img a.actor).map fun p => arcKind g.img p.arc == 2).getD false

/-- Every sequencer and memory actor of a graph has stopped after period M, and nothing is on its way: the graph is at its
quiescent point (R135, step 5). -/
def quiescent (s : State) (h : Nat) (g : Graph) : Bool :=
  (g.cores.all fun x => (s.core x.2).seqMode.stopped) && !(inFlight s h)
    && (enginesOf s h).all fun (_, a) => a.fired == g.modeCtl.target * periodFirings g.img g.modeCtl.inForce a.actor

/-- Every window of a graph holds exactly ANTE tokens. -/
def windowsAnte (s : State) (h : Nat) : Bool :=
  ((s.coresOf h).all fun c => (s.core c).descs.all fun (_, d) => !d.valid || d.isOut || d.occ == d.ante)
    && (enginesOf s h).all fun (_, a) => !a.sink || a.window.length == a.ante

/-- Every sequencer of a graph moves to the first entry of the new set's segment, with PERIOD 0 (R135, step 6); the controller's package tells its supervisor. -/
def switchSet (s : State) (h : Nat) (g : Graph) : State :=
  let set := g.modeCtl.set
  let s1 := g.cores.foldl (fun s x => s.modCore x.2 fun k => { k with
    phase := BitVec.ofNat 64 (setBits k.phase.toNat 10 8 set)
    actor := BitVec.ofNat 64 (setBits k.actor.toNat 63 16 0)
    head := 0, round := 0, seqMode := {} }) s
  let acts := s1.actors.map fun (n, a) => if a.graph = h then (n, { a with fired := 0 }) else (n, a)
  ({ s1 with actors := acts }.modGraph h fun g => { g with
    modeCtl := { g.modeCtl with step := 0, inForce := set }, latePeriod := 0
    peers := { g.peers with begun := [], stopped := [] } }) |> fun s => if g.coord.isSome then s else s.notifyGraph h { cause := 0x07C }

/-- A package of a graph has reported that it stopped. -/
def noteStopped (s : State) (h pkg : Nat) : State :=
  s.modGraph h fun g =>
    { g with peers := { g.peers with stopped := if g.peers.stopped.any fun x => x.1 == pkg then g.peers.stopped else g.peers.stopped ++ [(pkg, g.gtime)] } }

/-- With every sequencer of a graph stopped on this package, its windows are checked, MODE.14 for one that does not hold ANTE tokens;
with every other package stopped too the coordinating package switches the graph (R135, steps 5 and 6). -/
def settleSwitch (s : State) (h : Nat) : State :=
  match s.graph? h with
  | none => s
  | some g =>
    if g.phase ≠ .running ∨ g.modeCtl.step ≠ 4 ∨ quiescent s h g = false then s
    else if windowsAnte s h = false then s.haltCopied h { cause := 0x07E }
    else
      let s1 := noteStopped s h s.links.pkg
      match s1.graph? h with
      | none => s1
      | some g1 =>
        if g.coord.isNone && (otherPackages s g).all fun p => g1.peers.stopped.any fun x => x.1 == p then switchSet s1 h g1 else s1

/-- The graph of a memory actor. -/
def actorGraph (s : State) (n : Nat) : Nat := ((NMap.find s.actors n).map MemActor.graph).getD 0

/-- MEMORY_ACTOR_FIRING (R455, R135): a memory actor engine moves on in its firing; the last one a mode switch waits for ends step
4. -/
def execMemoryActorFiring (n : Nat) (s : State) : Result := .next (settleSwitch (engineFire s n) (actorGraph s n))

/-- SEQUENCER_STOP (R135, steps 4 to 6): a sequencer that has completed period M stops; with all stopped the switch follows. -/
def execSequencerStop (c : Nat) (s : State) : Result :=
  .next (
    let k := s.core c
    let h := k.graph
    match s.graph? h, k.seqMode.target with
    | some g, some m =>
      if g.phase ≠ .running ∨ periodDone s c m = false then s
      else settleSwitch (s.modCore c fun k => { k with seqMode := { k.seqMode with stopped := true } }) h
    | _, _ => s)

/-- MODE_XPKG_TIMEOUT (R137): one package of a graph that spans packages has not reported stopped within 10 ms of the last of the
others: MODE.15. -/
def execModeXpkgTimeout (g : Word32) (s : State) : Result :=
  let h := g.toNat
  .next (match s.graph? h with
    | some g =>
      let missing := (packagesOf g.img).filter fun p => !(g.peers.stopped.any fun x => x.1 == p)
      let last := (g.peers.stopped.map Prod.snd).foldl max 0
      if g.phase = .running ∧ spans g.img = true ∧ g.coord.isNone = true ∧ g.modeCtl.step = 4 ∧ missing.length = 1
          ∧ last + nanos 10000000 ≤ g.gtime then s.haltGraph h { cause := 0x07F }
      else s
    | none => s)

end Sys2Proof.Machine
end

