-- ==== Sys2Proof/Machine/Layout.lean ====
section
/-! DEFINITION. What an image's arcs, ports and tables become on the cores it names: descriptors, streams, sequencer bytes,
quadrants (R28, R119, R120, R128, R129, R143, R145, R148, R472). -/

namespace Sys2Proof.Machine

/-! ### Logical cores and descriptors (R143, R472) -/

/-- The logical cores of this package that an image uses. -/
def localCores (s : State) (img : List Byte) : List Nat :=
  (imgCores img).filter fun l => !(spans img) || Config.packageOf img (l / 0x2000) == s.links.pkg

/-- A descriptor to be of a logical core: its actor, port record and direction, its peer kind, its arc (0xFFFF for a host
port), and for a window of the same card the logical core at the other end. -/
structure DescPlan where
  lact : Nat
  prec : Nat
  out : Bool
  kind : Nat
  arc : Nat
  peer : Nat
  deriving DecidableEq, Repr

/-- The descriptors of a port record of an actor on one of its cores, in chain order (R472). -/
def portPlans (img : List Byte) (lact : Nat) (j : Nat) : List DescPlan :=
  let p := portRec img j
  let host : List DescPlan := if p.host = 0xFFFF then [] else [⟨lact, j, p.isOut, 1, 0xFFFF, 0⟩]
  if p.isOut then
    let as := arcsFrom img j
    let mesh := (as.filter fun a => arcKind img a == 0).map fun a =>
      (actorCores (portActor img (arcRec img a).dst)).map fun l => (⟨lact, j, true, 0, a, l⟩ : DescPlan)
    let each := (as.filter fun a => decide (2 ≤ arcKind img a)).map fun a => (⟨lact, j, true, arcKind img a, a, 0⟩ : DescPlan)
    let deck := ((as.filter fun a => arcKind img a == 1).take 1).map fun a => (⟨lact, j, true, 1, a, 0⟩ : DescPlan)
    mesh.flatten ++ each ++ deck ++ host
  else if p.pnum < 16 then
    (if p.arc = 0xFFFF then [] else
      [⟨lact, j, false, arcKind img p.arc, p.arc, ((actorCores (portActor img (arcRec img p.arc).src)).headD 0)⟩]) ++ host
  else []

/-- The descriptors of a logical core, in order: by actor record, then port record. -/
def corePlans (img : List Byte) (l : Nat) : List DescPlan :=
  ((coreActors img l).map fun (i, r) =>
    (((List.range (nPorts img)).filter fun j => (portRec img j).actor == i).map (portPlans img r.lact)).flatten).flatten

/-- The index of the first descriptor of a port of a logical core's actor, 0xFF for none. -/
def planIndex (img : List Byte) (l lact j : Nat) : Nat :=
  ((corePlans img l).findIdx? fun p => p.lact == lact && p.prec == j).getD 0xFF

/-- The members of an actor's gang, and the count a firing that one of them has on a port in a phase (R127, R466). -/
def memberRate (img : List Byte) (i set ph p : Nat) : Nat :=
  imgRate img i set ph p / max (actorCores (actorRec img i)).length 1

/-- The share of a port record that the actor's member on a logical core has. -/
def planShare (img : List Byte) (l j : Nat) : Share :=
  let p := portRec img j
  let cs := actorCores (actorRec img p.actor)
  if cs.length ≤ 1 then {}
  else { size := cs.length, member := cs.findIdx fun x => x == l, part := max (memberRate img p.actor 0 0 p.pnum) 1 }

/-- The capacity of a descriptor: its arc's, the least of those that a deck stream serves (R472), or for a host port the largest count
of a firing. -/
def planCap (img : List Byte) (p : DescPlan) : Nat :=
  if p.arc = 0xFFFF then
    let r := portRec img p.prec
    let ns := ((List.range (nSets img)).map fun st =>
      (List.range (actorRec img r.actor).nphase).map fun ph => memberRate img r.actor st ph r.pnum).flatten
    max (ns.foldl max 0) 1
  else if p.out && p.kind == 1 then
    (minOf (((arcsFrom img p.prec).filter fun a => arcKind img a == 1).map fun a => (arcRec img a).cap)).getD 0
  else (arcRec img p.arc).cap

/-- The ante tokens of an arc that a window of a logical core holds at commit (R466). -/
def anteOf (img : List Byte) (l : Nat) (p : DescPlan) : List Nat :=
  if p.arc = 0xFFFF then []
  else (List.range (arcRec img p.arc).ante).filter fun w => (planShare img l (arcRec img p.arc).dst).mine w

/-- The tile SRAM base of the window of descriptor i of a logical core. -/
def baseOf (img : List Byte) (l i : Nat) : Nat := Config.windowBase (imgRd img 8 8) l i

/-- The input descriptor at the far end of a mesh arc on a logical core. -/
def inputIndex (img : List Byte) (l a : Nat) : Nat :=
  ((corePlans img l).findIdx? fun p => !p.out && p.arc == a).getD 0

/-- The output descriptor of a mesh arc on a logical core that leads to another. -/
def outputIndex (img : List Byte) (l a peer : Nat) : Nat :=
  ((corePlans img l).findIdx? fun p => p.out && p.kind == 0 && p.arc == a && p.peer == peer).getD 0

/-- The core that a logical core runs on. -/
def coreFor (cores : List (Nat × Nat)) (l : Nat) : Nat := ((cores.find? fun x => x.1 == l).map Prod.snd).getD 0

/-- The stream or channel number of a descriptor: streams and channels of a load are numbered from a base (R45). -/
def planStream (img : List Byte) (base vbase : Nat) (p : DescPlan) : Nat :=
  if p.kind = 0 then 0
  else if p.arc = 0xFFFF then base + 1 + nArcs img + p.prec
  else if p.kind = 2 then vbase + 1 + p.arc
  else base + 1 + arcStream img p.arc

/-- A descriptor of a logical core as the commit installs it (R128, R129). -/
def planDesc (img : List Byte) (cores : List (Nat × Nat)) (base vbase l i : Nat) (p : DescPlan) : WinDesc :=
  let ps := corePlans img l
  let r := portRec img p.prec
  let next := ps.getD (i + 1) ⟨99, 0, false, 0, 0, 0⟩
  let more := p.out && next.out && next.lact == p.lact && next.prec == p.prec
  let far := if p.out then inputIndex img p.peer p.arc else outputIndex img p.peer p.arc l
  let ante := if p.out && p.kind != 0 then (if p.arc = 0xFFFF then 0 else (arcRec img p.arc).ante)
    else (anteOf img (if p.out then p.peer else l) p).length
  let wbase := if p.out then (if p.kind = 0 then baseOf img p.peer far else 0) else baseOf img l i
  { d0 := BitVec.ofNat 64 (2 ^ 63 + (if p.out then 2 ^ 62 else 0) + (if more then 2 ^ 61 else 0) + r.tcode * 2 ^ 48
      + planCap img p % 2 ^ 16 * 2 ^ 32 + wbase % 2 ^ 21)
    d1 := BitVec.ofNat 64 (p.kind * 2 ^ 62 + (if p.kind = 0 then coreFor cores p.peer % 192 * 2 ^ 44 + far * 2 ^ 38 else 0)
      + (if more then (i + 1) * 2 ^ 32 else 0) + planStream img base vbase p % 2 ^ 16 * 2 ^ 16 + r.tsize)
    wr := BitVec.ofNat 64 ante
    d4 := BitVec.ofNat 64 ante }

/-- The descriptors of a logical core. -/
def coreDescs (img : List Byte) (cores : List (Nat × Nat)) (base vbase l : Nat) : NMap WinDesc :=
  let ps := corePlans img l
  (List.range ps.length).map fun i => (i, planDesc img cores base vbase l i (ps.getD i ⟨0, 0, false, 0, 0, 0⟩))

/-! ### The sequencer region (R119, R120) -/

/-- The entries of a rate set on a logical core. -/
def segment (img : List Byte) (l set : Nat) : List Word32 := imageSched img l set

/-- The first entry of a rate set's segment: the sets follow one another. -/
def segStart (img : List Byte) (l set : Nat) : Nat :=
  (List.range set).foldl (fun n t => n + (segment img l t).length) 0

/-- The firing-routine address of an actor record on a logical core. -/
def routineAt (img : List Byte) (l : Nat) (r : ActorRec) : Nat :=
  let c := imageCode img l
  c.1 + (r.entry - c.2.1)

/-- The bytes of the sequencer region of a logical core, as offsets and runs. -/
def sequencerBytes (img : List Byte) (l : Nat) : List (Nat × List Byte) :=
  let sets := List.range (nSets img)
  let segs := (sets.filter fun t => segment img l t ≠ []).map fun t =>
    (8 * t, leBytes 8 (2 ^ 63 + segStart img l t * 256 + ((segment img l t).length - 1)))
  let firings := sets.map fun t =>
    (0x1000 + 4 * segStart img l t, ((segment img l t).map fun w => leBytes 4 (w &&& 0xFF800000#32).toNat).flatten)
  let actors := (coreActors img l).map fun (i, r) =>
    let index := fun (p : Nat) =>
      match actorPort img i p with
      | none => (0xFF#8)
      | some (j, _) => BitVec.ofNat 8 (planIndex img l r.lact j)
    (0x100 + 64 * r.lact, leBytes 8 (routineAt img l r) ++ leBytes 8 r.nphase ++ (List.range 32).map index)
  let rates := (coreActors img l).map fun (i, r) =>
    (sets.map fun t => (List.range r.nphase).map fun ph =>
      (0x2000 + 64 * ((r.lact * 8 + t) * 16 + ph),
        ((List.range 32).map fun p => leBytes 2 (memberRate img i t ph p)).flatten)).flatten
  segs ++ firings ++ actors ++ rates.flatten

/-! ### Tile SRAM (R117, R129, R142, R184) -/

/-- The bytes of an ante token of an arc, of its consumer's size: the image's, which stand in the window as they are, or zero bytes
(R117, R129). -/
def anteBytes (img : List Byte) (a w : Nat) : List Byte :=
  let r := arcRec img a
  let n := (portRec img r.dst).tsize
  if r.anteOff = 0xFFFFFFFF then List.replicate n 0
  else
    let bs := (img.drop (secOff img 5 + r.anteOff + n * w)).take n
    bs ++ List.replicate (n - bs.length) 0

/-- The tile SRAM bytes of a logical core that a commit places: code, data, ante tokens. -/
def tileRuns (img : List Byte) (l : Nat) : List (Nat × List Byte) :=
  let c := imageCode img l
  let ps := corePlans img l
  let antes := (List.range ps.length).map fun i =>
    let p := ps.getD i ⟨0, 0, true, 0, 0, 0⟩
    if p.out ∨ p.arc = 0xFFFF then []
    else
      let r := portRec img p.prec
      let ws := anteOf img l p
      (List.range ws.length).map fun n =>
        (baseOf img l i + n % max (planCap img p) 1 * roundUp r.tsize 16, anteBytes img p.arc (ws.getD n 0))
  (c.1, (img.drop (secOff img 8 + c.2.1)).take c.2.2) :: imageData img l ++ antes.flatten

/-- sr.codewin of a logical core: the whole pages its code touches (R184). -/
def codeWindow (img : List Byte) (l : Nat) : Word :=
  let c := imageCode img l
  BitVec.ofNat 64 (ceilDiv c.2.2 4096 * 2 ^ 32 + c.1 / 4096 % 512 * 2 ^ 12)

/-! ### Quadrants (R145) -/

/-- The logical quadrants of this package that an image uses, as 4 × card + quad, in rising order. -/
def logicalQuads (s : State) (img : List Byte) : List Nat := ((localCores s img).map lquadOf).eraseDups

/-- A physical quadrant, 4 × card + quad, may serve a logical quadrant of a context's graph: it belongs to the partition,
and where it holds SUPCORE the image leaves that place unused (R145, R166). -/
def quadServes (s : State) (k : Ctx) (img : List Byte) (lq pq : Nat) : Bool :=
  k.qmask.testBit pq &&
    !(decide (4 * k.supCard + k.supIdx / 48 = pq) &&
      (localCores s img).any fun l => lquadOf l == lq && inQuad l == k.supIdx % 48)

/-- A physical quadrant holds no core of a graph but a supervisor. -/
def quadFree (s : State) (k : Ctx) (pq : Nat) : Bool :=
  s.cores.all fun (c, x) => x.graph == 0 || x.graph == k.supHandle || decide (c / 48 ≠ pq)

/-- The physical quadrants of a card for logical quadrants in order, each the lowest that serves and is not taken. -/
def mapOnCard (ok : Nat → Nat → Bool) (card : Nat) : List Nat → List (Nat × Nat) → Option (List (Nat × Nat))
  | [], m => some m
  | lq :: rest, m =>
    match (List.range 4).find? fun q => ok lq (4 * card + q) && m.all fun x => x.2 != 4 * card + q with
    | none => none
    | some q => mapOnCard ok card rest (m ++ [(lq, 4 * card + q)])

/-- The mapping of logical cards in order, each to the lowest card not used yet on which every quadrant finds its place
(R145). -/
def mapCards (ok : Nat → Nat → Bool) (lqs : List Nat) : List Nat → List (Nat × Nat) → Option (List (Nat × Nat))
  | [], m => some m
  | lc :: rest, m =>
    let mine := lqs.filter fun q => q / 4 == lc
    match (List.range 12).findSome? fun card =>
        if m.any fun x => x.2 / 4 == card then none else mapOnCard ok card mine m with
    | none => none
    | some m1 => mapCards ok lqs rest m1

/-- The quadrants that an image's logical quadrants take, under a judgement of which quadrants are free. -/
def mapQuads (s : State) (k : Ctx) (img : List Byte) (free : Nat → Bool) : Option (List (Nat × Nat)) :=
  let lqs := logicalQuads s img
  mapCards (fun lq pq => free pq && quadServes s k img lq pq) lqs (lqs.map fun q => q / 4).eraseDups []

/-- The cores of an image under a mapping of its quadrants: logical and physical. -/
def placeCores (s : State) (img : List Byte) (m : List (Nat × Nat)) : List (Nat × Nat) :=
  (localCores s img).map fun l =>
    let pq := ((m.find? fun x => x.1 == lquadOf l).map Prod.snd).getD 0
    (l, pq * 48 + inQuad l)

end Sys2Proof.Machine
end

