-- ==== Sys2Proof/Machine/Grant.lean ====
section
/-! DEFINITION. Energy classes, the demand of a graph, and the grant the arbiter gives it (R30 to R34, R163). -/

namespace Sys2Proof.Machine

/-- c_b of an energy class in milliwatts (R31). -/
def baseMw : Nat → Nat
  | 0 => 20
  | 1 => 70
  | 2 => 130
  | 3 => 195
  | 4 => 130
  | 5 => 195
  | _ => 0

/-- c_m of an energy class in milliwatts (R31). -/
def matrixMw (cl : Nat) : Nat := if cl = 4 ∨ cl = 5 then 287 else 0

/-- The frequency of a step code in MHz (R29). -/
def stepMhz : Nat → Nat
  | 0 => 940
  | 1 => 705
  | 2 => 470
  | _ => 235

/-- The demand of a core at a step and a plane-rate limit, in units of 1/7520 mW: d × 8 × 940 (R32). -/
def coreDemand (cl step plim : Nat) : Nat := (8 * baseMw cl + matrixMw cl * plim) * stepMhz step

/-- The class charged for a logical core, which governs its commands (R31, R37): the highest of its actors'. It is the one of
the highest demand without a plane-rate limit, whatever the grant (R35; log entry 66). -/
def classFor (img : List Byte) (l : Nat) : Nat := ((coreActors img l).map fun x => x.2.eclass).foldl max 0

/-- The demand of a logical core at a step and a plane-rate limit: the highest of its actors' (R31, R32). -/
def coreNeeds (img : List Byte) (l step plim : Nat) : Nat :=
  ((coreActors img l).map fun x => coreDemand x.2.eclass step plim).foldl max (coreDemand 0 step plim)

/-- The candidates of R34: step code and plane-rate limit. -/
def candidates : List (Nat × Nat) := [(0, 8), (0, 6), (0, 4), (1, 4), (2, 4), (3, 4), (3, 2), (3, 1)]

/-- The demand of a graph in each of its islands at a candidate, in half watts (R32). -/
def islandDemand (img : List Byte) (cores : List (Nat × Nat)) (step plim : Nat) : List (Nat × Nat) :=
  (cores.map fun x => State.islandOf x.2).eraseDups.map fun i =>
    let mine := cores.filter fun x => State.islandOf x.2 == i
    (i, ceilDiv ((mine.map fun x => coreNeeds img x.1 step plim).sum) (7520 * 500))

/-- The base-die charges of a graph in half watts, with their islands (R29, R32): HBM4, deck slots, Herlo ports. -/
def baseCharges (id slots ports : Nat) : List (Nat × Nat) :=
  [(60, ceilDiv (980 * Config.actorBandwidth id) 20480000000000), (63, ceilDiv (100 * slots) 2048), (61, ceilDiv (860 * ports) 24)]

/-- The half watts of a grant. -/
def Grant.total (g : Grant) : Nat := (g.islands.map Prod.snd).sum + (g.base.map Prod.snd).sum

/-- The core at a place of a card: row 0 to 11, column 0 to 15. -/
def coreAt (card row col : Nat) : Nat := card * 192 + (row / 6 * 2 + col / 8) * 48 + row % 6 * 8 + col % 8

/-- The demand of a core held by a graph already admitted. -/
def standing (s : State) (c : Nat) : Nat :=
  match s.graph? (s.core c).graph with
  | none => 0
  | some g => if g.grant.plim = 0 then 0 else coreNeeds g.img (s.core c).lcore g.grant.step g.grant.plim

/-- The bound of R33 and R163 holds in every 2 × 2 window of a card for cores with their demand; in a window of two
partitions each core of the graph has its own limit. -/
def windowsOk (s : State) (mine : Nat → Bool) (demand : Nat → Nat) (card : Nat) : Bool :=
  (List.range 11).all fun r => (List.range 15).all fun c =>
    let w := [coreAt card r c, coreAt card r (c + 1), coreAt card (r + 1) c, coreAt card (r + 1) (c + 1)]
    let owners := (w.filterMap s.ctxOf).eraseDups
    if 1 < owners.length then w.all fun x => !(mine x) || decide (demand x ≤ 450 * 7520) else decide ((w.map demand).sum ≤ 1800 * 7520)

/-- The demand of each core with a graph placed at a candidate. -/
def demandWith (s : State) (img : List Byte) (cores : List (Nat × Nat)) (step plim : Nat) (alone : Bool) (c : Nat) : Nat :=
  match cores.find? fun x => x.2 == c with
  | some x => coreNeeds img x.1 step plim
  | none => if alone then 0 else standing s c

/-- A candidate's local bound holds on every card of the graph. -/
def localOk (s : State) (img : List Byte) (cores : List (Nat × Nat)) (step plim : Nat) (alone : Bool) : Bool :=
  (cores.map fun x => x.2 / 192).eraseDups.all (windowsOk s (fun c => cores.any fun x => x.2 == c) (demandWith s img cores step plim alone))

/-- The sum of all standing grants in half watts. -/
def standingGrants (s : State) : Nat := (s.graphs.map fun hg => hg.2.grant.total).sum

/-- The grants of a context in half watts. -/
def ctxGrants (s : State) (x : Nat) : Nat := ((s.graphs.filter fun hg => hg.1 / 2 ^ 28 == x).map fun hg => hg.2.grant.total).sum

/-- The grant of a candidate. -/
def grantAt (img : List Byte) (cores : List (Nat × Nat)) (base : List (Nat × Nat)) (c : Nat × Nat) : Grant :=
  { step := c.1, plim := c.2, islands := islandDemand img cores c.1 c.2, base := base }

/-- A candidate is admissible (R30, R33, R166). -/
def grantOk (s : State) (x share : Nat) (img : List Byte) (cores : List (Nat × Nat)) (g : Grant) : Bool :=
  g.islands.all (fun i => match s.islandStep i.1 with
    | none => true
    | some st => st == g.step)
  && decide (standingGrants s + 120 + g.total ≤ s.power.limit)
  && decide (ctxGrants s x + g.total ≤ share)
  && localOk s img cores g.step g.plim false

/-- The arbiter's answer for a graph (R34): PWR.2 or PWR.3, the first admissible grant, or none for now. -/
def arbitrate (s : State) (x share : Nat) (img : List Byte) (cores : List (Nat × Nat)) (base : List (Nat × Nat)) :
    Except Nat (Option Grant) :=
  let last := grantAt img cores base (3, 1)
  if 3080 < last.total then .error 0x152
  else if !(localOk s img cores 3 1 true) then .error 0x153
  else .ok ((candidates.map (grantAt img cores base)).find? (grantOk s x share img cores))

end Sys2Proof.Machine
end

