-- ==== Sys2Proof/Machine/Links.lean ====
section
/-! DEFINITION. Requests and tokens between packages, and the state of the Herlo ports (R66 to R83). -/

namespace Sys2Proof.Machine

/-! ### Routes (R74, R82) -/

/-- The ports of this package on the way to another: as at domain enumeration, or as a reroute has left them. -/
def viaPorts (s : State) (pkg : Nat) : List Nat := (NMap.find s.links.via pkg).getD (Config.routePorts pkg)

/-- Every port on the way to a package is up, neither retraining nor down: traffic passes (R81, R82). -/
def routeUp (s : State) (pkg : Nat) : Bool := (viaPorts s pkg).all fun n => s.links.up.testBit n

/-! ### Requests of other packages (R68, R71) -/

/-- The answer to a request of another package. -/
def replyTo (m : RemoteMsg) (cause data : Nat) : Reply := ⟨m.pkg, m.core, m.seq.toNat, cause, data⟩

/-- The last 256 answers to one issuing core are kept (R71). -/
def keepReply (r : Reply) (l : List Reply) : List Reply :=
  let mine := l.filter fun x => x.pkg == r.pkg && x.core == r.core
  let old := mine.take (mine.length - 255)
  l.filter (fun x => !(old.contains x)) ++ [r]

/-- An answer leaves; that of a request performed is recorded. -/
def sendReply (s : State) (r : Reply) (keep : Bool) : State :=
  { s with links := { s.links with answer := some r, seen := if keep then keepReply r s.links.seen else s.links.seen } }

/-- The import table lets a request through: its bytes lie in one range of its package and context (R68). -/
def importOk (s : State) (m : RemoteMsg) : Bool :=
  s.links.imports.any fun i =>
    i.pkg == m.pkg && i.ctx == m.ctx && decide (i.first ≤ m.addr ∧ m.addr + m.bytes ≤ i.past)

/-- A request of another package is performed at its home in local HBM4 (R68, R226): the state and the answer. -/
def performRemote (s : State) (m : RemoteMsg) : State :=
  let a := accOf m.op m.bytes .u .rlx .core
  match homeFault s 0 a m.addr with
  | some f => sendReply s (replyTo m f 0) false
  | none =>
    let run := fun (s : State) =>
      let r := performAccess s 0 m.op m.bytes m.data m.cmp m.addr m.bytes 0
      sendReply r.2 (replyTo m 0 r.1) true
    match s.ueAt m.addr m.bytes, m.op with
    | none, _ => run (s.correct m.addr m.bytes)
    | some _, .stq => run s
    | some _, .ldq => sendReply s (replyTo m 0x163 0) false
    | some u, _ => sendReply (s.tellMgmt { cause := 0x044, ctx := m.ctx, detail := u }) (replyTo m 0x044 0) false

/-- The virtual address of a request whose page is parked, and the size of the page; of another that finds requests for its page
before it, its own address, and theirs (R203, R204). -/
def remotePark (s : State) (m : RemoteMsg) : Option (Nat × Nat) :=
  match m.parked with
  | some p => some p
  | none => if kittyHas s m.addr then some (m.addr, kittySize s m.addr) else none

/-- REMOTE_REQUEST (R68, R71, R203, R204): a recorded sequence number gives its answer again and counts LINK.14; LINK.4 outside
every import range; for a parked page, or behind requests for its page, the request joins the kitty; otherwise it is performed. A
duplicate of a request that is still in the kitty, of which R71 does not speak, is dropped and counted too (log entry 71, DESIGN
CHOICE). While a port on the way to its package retrains nothing arrives (R82). -/
def execRemoteRequest (m : RemoteMsg) (s : State) : Result :=
  let same := fun (p : Parked) => match p.msg with
    | some x => x.pkg == m.pkg && x.core == m.core && x.seq == m.seq
    | none => false
  .next (if !(routeUp s m.pkg) then s
    else match s.links.seen.find? fun r => r.pkg == m.pkg && r.core == m.core && r.seq == m.seq.toNat with
    | some r => (sendReply s r false).countMgmt 0x11E
    | none =>
      if s.kitty.any same then s.countMgmt 0x11E
      else if !(importOk s m) then sendReply s (replyTo m 0x114 0) false
      else match remotePark s m with
        | some p => park s 0 32 p.1 m.addr p.2 m.ctx (some m)
        | none => performRemote s m)

/-! ### Requests of this package (R69, R72) -/

/-- The request of a core's entry, or the request of that number of a core or memory actor, that is on its way to another
package. -/
def onWay (s : State) (c q : Nat) : Option Away :=
  s.links.outbox.find? fun o => o.core == c && o.q == q && (decide (16 ≤ q) || o.seq == ((s.core c).entry q).seq)

/-- A request is no longer on its way. -/
def leaveOutbox (s : State) (o : Away) : State :=
  { s with links := { s.links with outbox := s.links.outbox.erase o } }

/-- What a response brings to whoever waits for it: a queue entry completes; another request's answer is kept for the step that
asked (R68, R69). -/
def bring (s : State) (c q cause data : Nat) : State :=
  if q < 16 then
    let e := (s.core c).entry q
    let v := match entryOp e with
      | some .stq => 0
      | some _ => data % 2 ^ (8 * e.bytes)
      | none => data % 2 ^ 64
    s.completeEntry c q cause (if cause = 0 then v else 0)
  else { s with links := { s.links with inbox := s.links.inbox ++ [{ core := c, q := q, cause := cause, data := data }] } }

/-- A core is frozen or cut, and takes no response (R171, R283). -/
def takesNone (s : State) (c : Nat) : Bool := decide (c < 12 * 192) && (decide ((s.core c).run = .frozen) || (s.core c).cut)

/-- REMOTE_RESPONSE (R69, R171, R283): the answer reaches the issuer; it is held while the core is frozen or cut, and while a port on
the way retrains. -/
def execRemoteResponse (c q : Nat) (cause : BitVec 9) (data : Nat) (s : State) : Result :=
  .next (match onWay s c q with
    | none => s
    | some o => if takesNone s c || !(routeUp s o.pkg) then s else bring (leaveOutbox s o) c q cause.toNat data)

/-- REMOTE_TIMEOUT (R72): a request 1 ms on its way, in graph time, completes with LINK.5. -/
def execRemoteTimeout (c q : Nat) (s : State) : Result :=
  .next (match onWay s c q with
    | none => s
    | some o => if decide (o.since + nanos 1000000 ≤ retryClock s c) then bring (leaveOutbox s o) c q 0x115 0 else s)

/-! ### Cross-package arcs (R73 to R77) -/

/-- The memory sink of this package that a channel fills. -/
def channelSink (s : State) (x : Channel) : Option (Nat × MemActor) :=
  match s.graph? x.graph with
  | none => none
  | some g => s.actors.find? fun (_, a) => a.graph == x.graph && a.sink && (portRec g.img (arcRec g.img x.arc).dst).actor == a.actor

/-- The input window that the next token of a channel fills: of a gang, its member's (R466). -/
def arrivalWindow (s : State) (ch : Nat) (x : Channel) : Option (Nat × Nat) :=
  let ws := channelWindows s ch
  ws.find? fun (c, i) => decide ((shareAt s c i).size = 1) || (shareAt s c i).mine (arcAnte s c i + x.received)

/-- The type of the tokens on a channel: that of its arc's producer. -/
def channelType (s : State) (x : Channel) : Nat :=
  match s.graph? x.graph with
  | none => 0
  | some g => (portRec g.img (arcRec g.img x.arc).src).tcode

/-- A late token is counted, and the first of a period of its graph gives LINK.13 (R77). -/
def noteLate (s : State) (ch : Nat) (x : Channel) (n : Notice) : State :=
  let s1 := setChannel s ch { x with late := x.late + 1 }
  match s.graph? x.graph with
  | none => s1
  | some g =>
    let per := periodsBegun s x.graph g + 1
    if per ≤ g.latePeriod then s1
    else (s1.modGraph x.graph fun g => { g with latePeriod := per }).notifyGraph x.graph { n with chan := ch }

/-- A token of a channel is counted as received, and as late where it is. -/
def receive (s : State) (ch : Nat) (x : Channel) (late : Bool) (n : Notice) : State :=
  let s1 := if late then noteLate s ch x n else s
  setChannel s1 ch { (NMap.getD {} s1.links.channels ch : Channel) with received := x.received + 1 }

/-- A token of a channel, or a drain token, enters a memory sink, when it has room (R28, R455). -/
def sinkArrival (s : State) (ch : Nat) (x : Channel) (n : Nat) (a : MemActor) (bytes : List Byte) (late : Bool) : State :=
  let runs := match s.graph? x.graph with
    | none => false
    | some g => decide (g.phase = .running) && g.cutSince.isNone && decide (a.window.length < (arcRec g.img x.arc).cap)
  let note : Notice := { cause := 0x11D, core := coreName (engineCore (n % 64)), detail := x.received % 2 ^ 48 }
  if !runs then s
  else if bytes = [] then abandonSwitch (setActor s n { a with drainIn := true }) x.graph
  else
    let t := match s.graph? x.graph with
      | none => 0
      | some g => (portRec g.img (arcRec g.img x.arc).dst).tcode
    match convert (channelType s x) t bytes with
    | .error f => s.haltGraph x.graph { note with cause := f, chan := ch }
    | .ok (bs, cs) =>
      let r := tokenCounts a.counts cs []
      let s1 := statNotice (setActor s n { a with window := a.window ++ [bs], counts := r.1 }) x.graph note.core 0 r.2
      receive s1 ch x late note

/-- VC_TOKEN_ARRIVAL (R75, R77): a token of a channel, or its drain token when it has no bytes, enters its window or memory sink;
without space that its credits cover (R218), with the graph stopped, or while a port is not up, it waits on the link. -/
def execVcTokenArrival (ch : Nat) (bytes : List Byte) (late : Bool) (s : State) : Result :=
  .next (match NMap.find s.links.channels ch with
    | none => s
    | some x =>
      if !(channelUp s x) then s
      else match channelSink s x, arrivalWindow s ch x with
        | some (n, a), _ => sinkArrival s ch x n a bytes late
        | none, none => s
        | none, some (c, i) =>
          let k := s.core c
          let d := k.desc i
          if !(coreMoves k) || k.cut || (decide (bytes ≠ []) && decide (d.cap + k.freedRd i ≤ d.wr.toNat)) then s
          else if bytes = [] then (channelWindows s ch).foldl (fun s y => landDrain s y.1 y.2) s
          else
            let m : PtrMsg := { desc := i, wrptr := d.wr.toNat + 1, bytes := bytes, marks := [], drain := false }
            landMsg (receive s ch x late (windowNote s c i 0x11D x.received)) c i (channelType s x) m)

/-- The output descriptors of this package that send on a channel: one, or one of each member of a gang. -/
def channelDescs (s : State) (ch : Nat) : List (Nat × Nat) :=
  (s.cores.map fun (c, k) =>
    (k.descs.filter fun (_, d) => d.valid && d.isOut && d.pkind == 2 && d.stream == ch).map fun (i, _) => (c, i)).flatten

/-- A token of a channel that a credit covers has not left: its send is a release at DOMAIN that still waits (R217). -/
def sendHeld (s : State) (ch rdptr : Nat) (x : Channel) : Bool :=
  x.sent.any fun m => !m.drain && decide (m.wrptr ≤ rdptr) && (channelDescs s ch).any fun (c, i) =>
    let y := shareAt s c i
    (y.size == 1 || y.mine (m.wrptr - 1 - ((s.core c).desc i).ante)) && releaseHeld s c .dom m.seq false

/-- VC_CREDIT (R75, R217): the consumer's read pointer returns to the producer, on every core of its gang; RING.6 past WRPTR. It
covers no token that has not left. -/
def execVcCredit (ch rdptr : Nat) (s : State) : Result :=
  .next (match NMap.find s.links.channels ch with
    | none => s
    | some x =>
      let ds := channelDescs s ch
      let left : Channel := { x with sent := x.sent.filter fun m => m.drain || decide (rdptr < m.wrptr), rd := max x.rd rdptr }
      let top := (ds.map fun y => ((s.core y.1).desc y.2).wr.toNat).foldl max 0
      if !(channelUp s x) || ds.any (fun y => !(coreMoves (s.core y.1))) || sendHeld s ch rdptr x then s
      else if 12 * 192 ≤ x.core then setChannel s ch left
      else if ds = [] then s
      else if top < rdptr then s.haltGraph x.graph { windowNote s x.core x.desc 0x066 rdptr with chan := ch }
      else ds.foldl (fun s y => s.modCore y.1 fun k =>
        { k with descs := NMap.put k.descs y.2 { k.desc y.2 with rd := BitVec.ofNat 64 (max (k.desc y.2).rd.toNat rdptr) } })
        (setChannel s ch left))

/-! ### Ports (R81 to R83) -/

/-- A bit of a set of ports changed. -/
def withBit (x n : Nat) (b : Bool) : Nat := setBits x n n (if b then 1 else 0)

/-- PORT_RETRAIN (R82): the port retrains, and carries no traffic. -/
def execPortRetrain (n : Nat) (s : State) : Result :=
  let l := s.links
  .next (if n < 24 ∧ l.retrain.testBit n = false then
      { s with links := { l with
          up := withBit l.up n false, retrain := withBit l.retrain n true, retrainSince := NMap.put l.retrainSince n s.time } }
    else s)

/-- The graphs with a channel on a port. -/
def portGraphs (s : State) (n : Nat) : List Nat :=
  ((s.links.channels.filter fun (_, x) => x.ports.contains n).map fun (_, x) => x.graph).eraseDups

/-- PORT_RETRAINED (R82): the port carries traffic, and LINK.10 goes to the supervisors with a channel on it and to
management. -/
def execPortRetrained (n : Nat) (s : State) : Result :=
  let l := s.links
  .next (if n < 24 ∧ l.retrain.testBit n = true then
      let s1 := { s with links := { l with
          up := withBit l.up n true, retrain := withBit l.retrain n false, retrainSince := NMap.del l.retrainSince n } }
      let xs := ((portGraphs s n).map (· / 2 ^ 28)).eraseDups
      let note : Notice := { cause := 0x11A, flags := 2, detail := n }
      (xs.foldl (fun s x => s.notify x note) s1).tellMgmt note
    else s)

/-- A graph with an arc on a lost port is halted, LINK.15 going to its supervisor, and goes back to the launch queue, so that the
Dealer binds its arcs anew (R82): what it ran is gone, its egress ports show the halt (R100), and it starts again at its next commit; one that another package coordinates
waits there. -/
def requeue (s : State) (h : Nat) : State :=
  match s.graph? h with
  | none => s
  | some g =>
    let s0 := s.notifyGraph h { cause := 0x11F, flags := 1 }
    if g.phase = .loading ∨ g.coord.isSome = true then s0.failLoad h
    else
      let s1 := (s0.completeAll g.waiters 0x13D).egressHalt h 0x11F
      ((s1.modGraph h fun g => { g with
        phase := .queued, reported := [], acked := [], decided := false, pkgOk := [], waiters := [], frzSince := none
        frzCores := [], image := none, held := false, cutSince := none, cutDone := false, cutCores := []
        modeCtl := {}, barriers := [], srcDrained := false, sinksDrained := [], peers := {}, latePeriod := 0 }).release h).settleHalt (h / 2 ^ 28)

/-- Management installs a route around a lost port for every package whose way led through it (R82). -/
def reroute (s : State) (n : Nat) : State :=
  let lost := s.links.routes.filter fun p => (viaPorts s p).contains n
  { s with links := { s.links with via := lost.foldl (fun m p => NMap.put m p (Config.rerouted p n)) s.links.via } }

/-- PORT_DOWN (R82): after 10 ms of retraining the port is down, with LINK.11 to management; a new route around it is installed where
management has one. The graphs with an arc on it are halted with LINK.15 (log entry 72), and with a new route re-queued. -/
def execPortDown (n : Nat) (around : Bool) (s : State) : Result :=
  let l := s.links
  let due := match NMap.find l.retrainSince n with
    | none => false
    | some t => decide (t + nanos 10000000 ≤ s.time)
  .next (if n < 24 ∧ l.retrain.testBit n = true ∧ due = true then
      let s1 : State := { s with links := { l with
          retrain := withBit l.retrain n false, retrainSince := NMap.del l.retrainSince n } }
      let s2 := s1.tellMgmt { cause := 0x11B, detail := n }
      let gs := portGraphs s n
      if around then gs.foldl requeue (reroute s2 n)
      else gs.foldl (fun s h => s.haltGraph h { cause := 0x11F, detail := n }) s2
    else s)

/-- FLIT_UNCORRECTABLE (R83): an arc's flit halts the consumer's graph with LINK.12; a memory request is replayed and
filtered (R71). -/
def execFlitUncorrectable (o : FlitOwner) (s : State) : Result :=
  .next (match o with
    | .request _ _ => s
    | .arc ch ord =>
      match NMap.find s.links.channels ch with
      | none => s
      | some x =>
        match channelSink s x, arrivalWindow s ch x with
        | some (n, _), _ => s.haltGraph x.graph { cause := 0x11C, core := coreName (engineCore (n % 64)), chan := ch, detail := ord % 2 ^ 48 }
        | none, some (c, i) => s.haltGraph x.graph { windowNote s c i 0x11C ord with chan := ch }
        | none, none => s)

/-- DOMAIN_ENUMERATION (R25, R67, R68, R74, R87, R147, R276, R351): management sets the package number, writes the route and import
tables, reserves its regions, and then accepts ingress traffic; while it is held in reset nothing of this happens (R105). -/
def execDomainEnumeration (pkg : BitVec 12) (s : State) : Result :=
  let n := pkg.toNat
  let imp := (Config.imports n).map fun x => (⟨x.1, x.2.1, x.2.2.1, x.2.2.2⟩ : Import)
  .next (if !(s.managementUp) then s
    else { s with
      links := { s.links with
        pkg := n, pkgSet := true, routes := Config.routes n, imports := imp
        via := (Config.routes n).foldl (fun m p => NMap.put m p (Config.routePorts p)) [] }
      dealer := { s.dealer with cache := Config.cacheReserved }
      host := { s.host with ready := true } })

end Sys2Proof.Machine
end

