-- ==== Sys2Proof/Machine/Loops.lean ====
section
/-! DEFINITION. Loop and address generators and the controllers: LGEN, AGEN, AGCH, CSEQ, CPIPE, CSTRM (R132, R412, R413,
R419). -/

namespace Sys2Proof.Machine

/-! ### LGEN, AGEN, AGCH -/

/-- NDIM of a modifier (R412). -/
def ndimOf (b : Blk) : Nat := bitsOf (bMod b) 23 22 + 1

/-- The address of an index vector, from the stationary base and strides of an AG node (R413). -/
def agAddress (s : State) (x : Site) (n : Nat) (ix : List Int) : Nat :=
  let l := statLanes s x.c (physAt s x)
  let pair := fun (i : Nat) => l.getD i 0 + l.getD (i + 1) 0 * 2 ^ 32
  let off := ((List.range n).map fun d => ix.getD d 0 * sgn 64 (pair (2 + 2 * d))).foldl (· + ·) 0
  wrapN 64 ((pair 0 : Int) + off)

/-- An address token (R413). -/
def addressToken (a : Nat) : Item := rawToken [a % 2 ^ 32, a / 2 ^ 32]

/-- The next index vector, index 0 fastest (R412). -/
def nextIndex : List Nat → List Nat → List Nat
  | c :: cs, i :: is => if i + 1 < c then (i + 1) :: is else 0 :: nextIndex cs is
  | _, is => is

/-- How many indices from the first on are at their last value (R412). -/
def atLast : List Nat → List Nat → Nat
  | c :: cs, i :: is => if i + 1 = c then 1 + atLast cs is else 0
  | _, _ => 0

/-- The run of a loop generator ends with DONE (R412). -/
def endRun (b : Blk) (x : Site) (s : State) : State :=
  let i := (s.elem x).iter
  emitDone (s.modElem x fun e => { e with phase := 0, bounds := [], index := [] }) x b i

/-- A run starts with its counts: GRID.2 at a slot for a count out of range (R412). -/
def startRun (b : Blk) (x : Site) (slot : Nat) (cs : List Int) (s : State) : State :=
  if cs.any fun c => decide (c < 0 ∨ 2 ^ 24 < c) then tokenHalt s x slot 0x0B2
  else if cs.any fun c => decide (c = 0) then endRun b x (emitData s x b [eodItem (cs.length - 1)])
  else s.modElem x fun e => { e with phase := 1, bounds := cs.map Int.toNat, index := cs.map fun _ => 0 }

/-- One step of a run: its token, an EOD where one is due, the next index vector (R412). -/
def runStep (b : Blk) (x : Site) (tok : List Nat → State → Item) (s : State) : State :=
  let e := s.elem x
  let d := atLast e.bounds e.index
  let s1 := emitData s x b (tok e.index s :: (if d = 0 then [] else [eodItem (d - 1)]))
  if d = e.bounds.length then endRun b x s1
  else s1.modElem x fun e => { e with index := nextIndex e.bounds e.index }

/-- A loop generator: a GO starts a run, whose counts come from stationary lanes or a token on a (R412); a mark on ctl passes,
with the slot a it is judged beside when that is linked (R395). -/
def loopAct (b : Blk) (bsrc : Bool) (lane : Nat) (tok : List Nat → State → Item) (x : Site) (s : State) : State :=
  let n := ndimOf b
  let e := s.elem x
  if e.phase = 1 then runStep b x tok s
  else if e.phase = 2 then
    if (head? s x 0).isNone then waitsNow s x
    else withHead x 0 (fun i s =>
      if (asMark i).isSome then gridHalt s x 0 0x0B2
      else startRun b x 0 ((tokenFields 0x04 (itemBytes i)).take n |>.map (sgn 32)) (pop s x 0)) s
  else if bsrc && (head? s x 3).isNone then noteWait s x [0]
  else withHead x 3 (fun i s =>
    match i with
    | .data _ => gridHalt s x 3 0x0B6
    | .ctl w =>
      if ctlKind w = 0 then
        let s1 := (pop s x 3).modElem x fun e => { e with iter := ctlOrd w }
        if bsrc then s1.modElem x fun e => { e with phase := 2 }
        else startRun b x 3 ((((statLanes s x.c (physAt s x)).drop lane).take n).map (sgn 32)) s1
      else if ctlKind w = 1 then gridHalt s x 3 0x0B6
      else if bsrc then react b [0, 3] false allMarks noBefore (fun _ _ s => s) x s
      else passMark b x 3 w s) s

/-- LGEN (R412): INT32 index tokens. -/
def execLgen (b : Blk) (s : State) : Result :=
  elemAct b (loopAct b ((bMod b).testBit 24) 0
    fun ix _ => token64 0x04 (ix ++ List.replicate (64 - ix.length) 0)) s

/-- AGEN (R413): an address token for each index token. -/
def execAgen (b : Blk) (s : State) : Result :=
  reactAll b 0x241 false (fun x items s =>
    let ix := (tokenFields 0x04 (itemBytes (items.headD (.data [])))).map (sgn 32)
    emit s x b [addressToken (agAddress s x (ndimOf b) ix)]) s

/-- AGCH (R413): the loop of R412 with counts in stationary lanes 12 to 15, giving address tokens. -/
def execAgch (b : Blk) (s : State) : Result :=
  let x := siteOf s
  elemAct b (loopAct b false 12
    fun ix s => addressToken (agAddress s x (ndimOf b) (ix.map fun (i : Nat) => (i : Int)))) s

/-! ### Controllers (R132, R419) -/

/-- A child of a controller: its index, the target its GO leaves through (none for a controller), its leaf heads. -/
structure CtlKid where
  idx : Nat
  target : Option Nat
  leaves : List Nat
  deriving DecidableEq, Repr

/-- The leaf heads that a target reaches, directly or through COPY of CTL type (R419). -/
def leavesOf (p : Plane) : Nat → Bool × Nat × Nat × Nat → List Nat
  | 0, _ => []
  | fuel + 1, t =>
    if !t.1 then []
    else
      let w := p.words.getD t.2.1 0
      if (wOp w == 0x240 || wOp w == 0x242 || wOp w == 0x002) && t.2.2.1 == 3 then [t.2.1]
      else if wOp w == 0x004 && wTcode w == 0x1F then leavesOf p fuel (wTarget w 0) ++ leavesOf p fuel (wTarget w 1)
      else []

/-- The children of a controller in ascending index; leaf heads that share a target start together, at the place of the
lowest of them (R419). -/
def kidsOf (p : Plane) (k : Nat) : List CtlKid :=
  let w := p.words.getD k 0
  let ctls := (List.range p.words.length).filter fun j =>
    isCtlOp (wOp (p.words.getD j 0)) && bitsOf (wMod (p.words.getD j 0)) 24 18 == k
  let leafs := (List.range 2).filterMap fun t =>
    let l := leavesOf p 128 (wTarget w t)
    (minOf l).map fun i => ({ idx := i, target := some t, leaves := l } : CtlKid)
  sortBy (fun a b => decide (a.idx < b.idx)) (ctls.map (fun j => { idx := j, target := none, leaves := [] }) ++ leafs)

/-- What a controller keeps of child j: iterations started and done. -/
def kidAt (e : Elem) (j : Nat) : Nat × Nat := e.kids.getD j (0, 0)

/-- The iterations a child has finished: of a shared target, those every leaf of it has. -/
def kidDone (e : Elem) (kid : CtlKid) (j : Nat) : Nat :=
  match kid.target with
  | none => (kidAt e j).2
  | some _ => (minOf (kid.leaves.map fun l => NMap.getD 0 e.ords (0x100 + l))).getD 0

/-- A token at the ctl slot of a controller: DONE of an iteration of a leaf that has started, or GRID.1 or GRID.6
(R393, R419). -/
def ctlToken (kids : List CtlKid) (x : Site) (t : Nat × Nat) (s : State) : State × Bool :=
  let w : Word := BitVec.ofNat 64 t.2
  let e := s.elem x
  let n := NMap.getD 0 e.ords (0x100 + t.1)
  let started := match (kids.zip (List.range kids.length)).find? fun p => p.1.leaves.contains t.1 with
    | some p => (kidAt e p.2).1
    | none => 0
  if ctlBad w then (gridHalt s x 3 0x0B1, false)
  else if ctlKind w ≠ 1 ∨ e.phase = 0 ∨ started ≤ ctlOrd w ∨ started ≤ n then (gridHalt s x 3 0x0B6, false)
  else (s.modElem x fun e => { e with
      ords := NMap.put (NMap.put e.ords (0x100 + t.1) (n + 1)) 3 (NMap.getD 0 e.ords 3 + 1) }, true)

/-- The tokens at the ctl slot, in arrival order. -/
def ctlTokens (kids : List CtlKid) (x : Site) : List (Nat × Nat) → State → State × Bool
  | [], s => (s, true)
  | t :: ts, s =>
    let r := ctlToken kids x t s
    if r.2 then ctlTokens kids x ts r.1 else r

/-- A controller starts its iterations of a go-ahead (R419). -/
def ctlBegin (kids : List CtlKid) (x : Site) (n : Nat) (s : State) : State :=
  s.modElem x fun e => { e with
    phase := 1, cnt := n, goQ := e.goQ - 1, kids := kids.map fun _ => (0, 0)
    ords := kids.foldl (fun o k => k.leaves.foldl (fun o l => NMap.del o (0x100 + l)) o) e.ords }

/-- A controller with a go-ahead takes its count: from its modifier, or lane 0 of an INT32 token on a (R419). -/
def ctlStart (b : Blk) (kids : List CtlKid) (x : Site) (s : State) : State :=
  let e := s.elem x
  let n := bitsOf (bMod b) 13 0
  if e.phase ≠ 0 ∨ e.goQ = 0 then s
  else if n ≠ 0 then ctlBegin kids x n s
  else withHead x 0 (fun i s =>
    if (asMark i).isSome then gridHalt s x 0 0x0B2
    else
      let c := sgn 32 ((tokenFields 0x04 (itemBytes i)).headD 0)
      if c < 0 ∨ 2 ^ 24 < c then gridHalt s x 0 0x0B2 else ctlBegin kids x c.toNat (pop s x 0)) s

/-- Child j of a controller may start its next iteration (R132): kind 0 sequential, 1 pipelined, 2 streaming. -/
def mayStart (kind : Nat) (kids : List CtlKid) (e : Elem) (j : Nat) : Bool :=
  let dones := (kids.zip (List.range kids.length)).map fun p => kidDone e p.1 p.2
  let i := (kidAt e j).1
  decide (i < e.cnt) && decide (i ≤ dones.getD j 0) &&
    match kind with
    | 0 => if j = 0 then dones.all fun d => decide (i ≤ d) else decide (i < dones.getD (j - 1) 0)
    | 1 => j == 0 || decide (i < (kidAt e (j - 1)).1)
    | _ => true

/-- Child j starts its next iteration: a GO through its target, or a go-ahead over the controller network; a target that
reaches no leaf head gets its GO with child 0's. -/
def startKid (b : Blk) (kids : List CtlKid) (x : Site) (j : Nat) (s : State) : State :=
  match kids[j]? with
  | none => s
  | some kid =>
    let i := (kidAt (s.elem x) j).1
    let s1 := s.modElem x fun e => { e with kids := e.kids.set j (i + 1, (kidAt e j).2) }
    let s2 := match kid.target with
      | none => s1.modElem ⟨x.c, kid.idx, x.sh⟩ fun e => { e with goQ := e.goQ + 1 }
      | some 0 => emit0 s1 x b [goToken i]
      | some _ => emit1 s1 x b [goToken i]
    let free := fun (t : Nat) => j == 0 && kids.all fun k => k.target != some t
    let s3 := if free 0 then emit0 s2 x b [goToken i] else s2
    if free 1 then emit1 s3 x b [goToken i] else s3

/-- The children that may start do, in order. -/
def startKids (b : Blk) (kind : Nat) (kids : List CtlKid) (x : Site) : List Nat → State → State
  | [], s => s
  | j :: js, s =>
    startKids b kind kids x js (if mayStart kind kids (s.elem x) j then startKid b kids x j s else s)

/-- A controller whose children have all finished reports its done: to its parent, or as a root done token
(R132, R419). -/
def ctlFinish (b : Blk) (kids : List CtlKid) (x : Site) (s : State) : State :=
  let e := s.elem x
  let ended := (kids.zip (List.range kids.length)).all fun p => decide (e.cnt ≤ kidDone e p.1 p.2)
  if e.phase = 0 ∨ ended = false then s
  else
    let s1 := s.modElem x fun e => { e with phase := 0, kids := [] }
    let par := bitsOf (bMod b) 24 18
    if par = 0x7F then s1.modGrid x.c fun g => { g with dones := g.dones + 1 }
    else
      match (kidsOf (planeOf (s.core x.c).grid x.sh) par).findIdx? fun k => k.idx == x.i && k.target.isNone with
      | none => s1
      | some j => s1.modElem ⟨x.c, par, x.sh⟩ fun e =>
          { e with kids := e.kids.set j ((kidAt e j).1, (kidAt e j).2 + 1) }

/-- A controller acts (R132, R419): its tokens, its next go-ahead, its children, its end. -/
def ctlAct (b : Blk) (kind : Nat) (s : State) : Result :=
  let x := siteOf s
  if !(elemOk s x) then .next s
  else
    let kids := kidsOf (planeOf (s.core x.c).grid x.sh) x.i
    let s1 := flush s x b
    let toks := (s1.elem x).items
    let r := ctlTokens kids x toks (s1.modElem x fun e => { e with items := [] })
    if !r.2 then .next r.1
    else
      let s2 := ctlStart b kids x r.1
      let e := s2.elem x
      let s3 := if e.phase = 1 && e.out0.isEmpty && e.out1.isEmpty then
          startKids b kind kids x (List.range kids.length) s2 else s2
      .next (waveDone (flush (ctlFinish b kids x s3) x b) x.c)

/-- CSEQ (R419). -/
def execCseq (b : Blk) (s : State) : Result := ctlAct b 0 s
/-- CPIPE (R419). -/
def execCpipe (b : Blk) (s : State) : Result := ctlAct b 1 s
/-- CSTRM (R419). -/
def execCstrm (b : Blk) (s : State) : Result := ctlAct b 2 s

end Sys2Proof.Machine
end

