-- ==== Sys2Proof/Machine/BlkCheck.lean ====
section
/-! DEFINITION. The checks of a dataflow block at load, in the order of R399. Each answers the cause that refuses the
graph, or none. -/

namespace Sys2Proof.Machine

/-- The first cause of a list of checks. -/
def firstFault (fs : List (Option Nat)) : Option Nat := fs.findSome? id

/-- A cause when a check fails. -/
def refuseIf (b : Bool) (cause : Nat) : Option Nat := if b then some cause else none

/-- A type of the sets F, I, X, B of R400. -/
def isF (t : Nat) : Bool := decide (0x0C ≤ t ∧ t ≤ 0x13)
/-- A value format without scale or tail: 0x00 to 0x13. -/
def isPlain (t : Nat) : Bool := decide (t ≤ 0x13)

/-- The opcodes of R309. -/
def opAssigned (op : Nat) : Bool :=
  decide (0x001 ≤ op ∧ op ≤ 0x004) || decide (0x040 ≤ op ∧ op ≤ 0x049) || decide (0x080 ≤ op ∧ op ≤ 0x087)
    || decide (0x0C0 ≤ op ∧ op ≤ 0x0C3) || decide (0x100 ≤ op ∧ op ≤ 0x103) || decide (0x140 ≤ op ∧ op ≤ 0x145)
    || decide (0x180 ≤ op ∧ op ≤ 0x185) || decide (0x1C0 ≤ op ∧ op ≤ 0x1C1) || decide (0x200 ≤ op ∧ op ≤ 0x203)
    || decide (0x240 ≤ op ∧ op ≤ 0x242) || decide (0x280 ≤ op ∧ op ≤ 0x282) || decide (0x2C0 ≤ op ∧ op ≤ 0x2C1)
    || decide (0x300 ≤ op ∧ op ≤ 0x302) || decide (0x340 ≤ op ∧ op ≤ 0x342) || decide (0x380 ≤ op ∧ op ≤ 0x383)
    || decide (0x3C0 ≤ op ∧ op ≤ 0x3C1)

/-- Channel ports that PIN (0x2C0) or POUT (0x2C1) instructions of a block use. -/
def portUses (ws : List Word) (op : Nat) : List Nat :=
  (ws.filter fun w => wOp w == op && !(isSouth w)).map fun w => bitsOf (wMod w) 2 0

/-- Step 3: the header agrees with the instructions (R306, R399); a port instruction that the header lacks is left to
step 13. -/
def headerBad (hdr : Nat) (ws : List Word) : Bool :=
  let bits := fun (m : Nat) => (List.range 8).filter fun i => m.testBit i
  hdrNinst hdr != ws.length || ws.length == 0 || decide (128 < ws.length)
    || bitsOf hdr 111 104 != (ws.filter fun w => isCtlOp (wOp w)).length
    || bitsOf hdr 87 82 != 0
    || (bits (hdrEntry hdr)).any (fun i => !((portUses ws 0x2C0).contains i))
    || (bits (hdrExit hdr)).any fun i => !((portUses ws 0x2C1).contains i)

/-- The valid targets of an instruction: consumer index, slot, buffer slots, target number. -/
def targetsOf (w : Word) : List (Nat × Nat × Nat × Nat) :=
  (List.range 2).filterMap fun t =>
    let x := wTarget w t
    if x.1 then some (x.2.1, x.2.2.1, x.2.2.2, t) else none

/-- Step 4: targets (R399). -/
def targetsBad (ws : List Word) (i : Nat) (w : Word) : Bool :=
  (List.range 2).any (fun t =>
    let x := wTarget w t
    if x.1 then
      decide (ws.length ≤ x.2.1) || x.2.1 == i || !((linkedSlots (ws.getD x.2.1 0)).contains x.2.2.1)
    else x.2.1 != 0 || x.2.2.1 != 0 || x.2.2.2 != 0)
  || ((wOp w == 0x1C0 || wOp w == 0x2C1) && !(targetsOf w).isEmpty)

/-- Step 5: the type codes an instruction accepts (R401 to R426). -/
def typeOk (w : Word) : Bool :=
  let op := wOp w
  let t := wTcode w
  let src := bitsOf (wMod w) 4 0
  let int := isInteger t
  let fi := isF t || int
  match op with
  | 0x001 => true
  | 0x002 => t != 0x1F
  | 0x003 => true
  | 0x004 => true
  | 0x040 => fi || t == 0x1C
  | 0x041 => fi || t == 0x1C
  | 0x080 => int || t == 0x1E
  | 0x081 => int || t == 0x1E
  | 0x082 => int || t == 0x1E
  | 0x083 => int || t == 0x1E
  | 0x084 => int
  | 0x085 => int
  | 0x086 => int
  | 0x0C3 => fi || t == 0x1E || t == 0x1D
  | 0x100 => decide (0x0C ≤ t ∧ t ≤ 0x0E)
  | 0x101 => decide (0x0C ≤ t ∧ t ≤ 0x0E)
  | 0x102 => decide (0x0C ≤ t ∧ t ≤ 0x0E)
  | 0x103 => decide (0x0C ≤ t ∧ t ≤ 0x0E)
  | 0x140 => (isPlain t || t == 0x1E) && (isPlain src || src == 0x1E)
  | 0x141 => decide (0x14 ≤ t ∧ t ≤ 0x1A) && isPlain src
  | 0x142 => isPlain t && decide (0x14 ≤ src ∧ src ≤ 0x1A)
  | 0x143 => t == 0x1B && isPlain src
  | 0x144 => isPlain t && src == 0x1B
  | 0x145 => decide (t ≤ 0x0B)
  | 0x180 => fi || t == 0x1C
  | 0x181 => fi
  | 0x182 => fi
  | 0x183 => t != 0x1F
  | 0x184 => t != 0x1F && t != 0x1C
  | 0x185 => t != 0x1F && t != 0x1C
  | 0x1C0 => true
  | 0x1C1 => true
  | 0x200 => true
  | 0x201 => true
  | 0x202 => true
  | 0x203 => true
  | 0x240 => t == 0x04
  | 0x241 => t == 0x1D
  | 0x242 => t == 0x1D
  | 0x280 => t != 0x1F
  | 0x281 => t != 0x1F
  | 0x282 => t == 0x04 || t == 0x09 || t == 0x0C
  | 0x2C0 => true
  | 0x2C1 => true
  | 0x300 => t == 0x1F
  | 0x301 => t == 0x1F
  | 0x302 => t == 0x1F
  | 0x340 => true
  | 0x341 => true
  | 0x342 => true
  | 0x380 => decide (0x0C ≤ t ∧ t ≤ 0x0E) || decide (2 ≤ t ∧ t ≤ 4) || t == 0x09
  | 0x381 => if (wMod w).testBit 18 then t == 0x09 else decide (0x0C ≤ t ∧ t ≤ 0x0E)
  | 0x382 => t == 0x1D
  | 0x383 => true
  | 0x3C0 => t == 0x1D
  | 0x3C1 => t == 0x1D
  | _ => fi

/-- An instruction has a rounding-mode field (R308, R407). -/
def hasRm (op : Nat) : Bool := opRounds op || op == 0x180

/-- Step 8: the modifier lies within its ranges, its reserved bits zero (R308, R399 and the pages). -/
def modBad (w : Word) : Bool :=
  let op := wOp w
  let m := wMod w
  let rm := bitsOf m 24 22
  let srs := bitsOf m 21 19
  if opRounds op then
    (isInteger (wTcode w) && rm != 0) || (rm != 4 && srs != 0) || (decide (0x080 ≤ op ∧ op ≤ 0x087) && rm != 0)
      || (decide (0x140 ≤ op) && bitsOf m 11 5 != 0) || ((op == 0x141 || op == 0x143) && rm != 0)
      || (op == 0x145 && (bitsOf m 4 0 == 0 || decide (16 < bitsOf m 4 0) || (wTcode w == 0x0B && bitsOf m 4 0 != 1)))
  else match op with
    | 0x002 => bitsOf m 23 12 != 0
    | 0x180 => (isInteger (wTcode w) && rm != 0) || (rm != 4 && srs != 0) || bitsOf m 17 13 != 0
    | 0x181 => bitsOf m 24 19 != 0 || bitsOf m 17 13 != 0
    | 0x182 => bitsOf m 24 19 != 0 || bitsOf m 17 13 != 0
    | 0x183 => bitsOf m 24 19 != 0 || bitsOf m 17 13 != 0
    | 0x184 => bitsOf m 24 19 != 0 || bitsOf m 17 13 != 0
    | 0x185 => bitsOf m 24 19 != 0 || bitsOf m 17 13 != 0
    | 0x1C0 => bitsOf m 24 7 != 0
    | 0x240 => bitsOf m 21 0 != 0
    | 0x241 => bitsOf m 21 0 != 0 || m.testBit 24
    | 0x242 => bitsOf m 21 0 != 0 || m.testBit 24
    | 0x280 => bitsOf m 24 8 != 0 || decide (2 ≤ bitsOf m 1 0)
    | 0x281 => bitsOf m 24 8 != 0 || decide (2 ≤ bitsOf m 1 0)
    | 0x282 => bitsOf m 24 13 != 0 || decide (6 < bitsOf m 11 8) || decide (2 ≤ bitsOf m 1 0)
    | 0x2C0 =>
      let a := bitsOf m 8 3
      bitsOf m 24 9 != 0 || !(decide (a < 16) || a == 0x3F || a == 0x3A || a == 0x3C) || (isSouth w && bitsOf m 2 0 != 0)
    | 0x2C1 =>
      let a := bitsOf m 8 3
      bitsOf m 24 9 != 0 || !(decide (16 ≤ a ∧ a < 32) || a == 0x3F || a == 0x38 || a == 0x39 || a == 0x3B)
        || (isSouth w && bitsOf m 2 0 != 0)
    | 0x300 => false
    | 0x301 => false
    | 0x302 => false
    | 0x340 => bitsOf m 24 12 != 0
    | 0x341 => bitsOf m 24 12 != 0
    | 0x342 => bitsOf m 24 3 != 0
    | 0x380 => bitsOf m 24 13 != 0 || bitsOf m 11 8 != 0
    | 0x381 => bitsOf m 24 22 != 0 || bitsOf m 17 13 != 0 || bitsOf m 11 0 != 0
    | 0x382 => bitsOf m 24 22 != 0 || bitsOf m 18 0 != 0
    | 0x383 => bitsOf m 24 22 != 0 || bitsOf m 18 0 != 0
    | 0x3C0 => bitsOf m 24 12 != 0
    | _ => m != 0

/-- Step 9: operand sources (R395, R399 to R405, R308). -/
def selBad (w : Word) : Bool :=
  let op := wOp w
  let m := wMod w
  let sels := (List.range 3).map (selOf m)
  let named := op == 0x2C0 || op == 0x3C0
  let shape :=
    if !(opRounds op) then false
    else if 0x140 ≤ op then sels.any fun x => x != 0
    else
      (List.range 3).any (fun s => if s < arity op then selOf m s == 3 else selOf m s != 0)
        || decide (1 < (sels.filter fun x => x == 2).length)
        || ((op == 0x040 || op == 0x041) && wTcode w == 0x1C && sels.any fun x => x != 0)
        || (op == 0x0C3 && selOf m 2 != 0)
  shape || ((linkedSlots w).isEmpty && !named)

/-- An instruction reads its element's active stationary vector (R391, R400, R412, R413, R422, R426). -/
def readsStationary (w : Word) : Bool :=
  let op := wOp w
  let m := wMod w
  if opRounds op then (List.range 3).any fun s => selOf m s == 1
  else match op with
    | 0x002 => m.testBit 24
    | 0x240 => !(m.testBit 24)
    | 0x241 => true
    | 0x242 => true
    | 0x381 => true
    | _ => false

/-- Step 10: stationary use (R391, R408). -/
def stationaryBad (ws : List Word) (w : Word) : Bool :=
  let t := wTcode w
  let held := isPlain t || t == 0x1D || t == 0x1E
  (readsStationary w && !held)
    || (wOp w == 0x1C0 &&
        (let j := bitsOf (wMod w) 6 0
         let v := ws.getD j 0
         decide (ws.length ≤ j) || !(readsStationary v) || wTcode v != t || !held))

/-- The producers of a slot: instruction indices. -/
def producersOf (ws : List Word) (j slot : Nat) : List Nat :=
  ((List.range ws.length).map fun i =>
    (targetsOf (ws.getD i 0)).filterMap fun t => if t.1 == j && t.2.1 == slot then some i else none).flatten

/-- The leaf heads that the targets of a controller reach (R419). -/
def leafKids (p : Plane) (i : Nat) : List Nat :=
  ((List.range 2).map fun t => leavesOf p 128 (wTarget (p.words.getD i 0) t)).flatten

/-- Step 11: fan-in, one producer a linked slot; at the ctl slot of a controller one for each leaf child at most (R399, R419). -/
def faninBad (ws : List Word) (j : Nat) (w : Word) : Bool :=
  (linkedSlots w).any fun slot =>
    if isCtlOp (wOp w) && slot == 3 then decide ((leafKids { words := ws } j).length < (producersOf ws j 3).length)
    else (producersOf ws j slot).length != 1

/-- The type on the link of target t of an instruction at a slot of its consumer: target 1 of a leaf head carries DONE to a ctl slot,
and what target 0 carries elsewhere (R402 to R426). -/
def outType (w : Word) (t slot : Nat) : Nat :=
  let op := wOp w
  let done := t == 1 && slot == 3
  if 0x0C0 ≤ op ∧ op ≤ 0x0C2 then 0x1E
  else match op with
    | 0x145 => 0x1D
    | 0x002 => if done then 0x1F else wTcode w
    | 0x240 => if done then 0x1F else 0x04
    | 0x242 => if done then 0x1F else 0x1D
    | 0x342 => if t = 1 then 0x1E else wTcode w
    | 0x281 => 0x1E
    | 0x380 => if t = 1 then 0x04 else wTcode w
    | 0x381 => 0x1D
    | 0x382 => 0x1E
    | 0x383 => 0x1D
    | _ => wTcode w

/-- The type a slot expects, or none where it takes any (R402 to R426). -/
def slotType (w : Word) (slot : Nat) : Option Nat :=
  let op := wOp w
  if slot = 3 then some 0x1F
  else match op, slot with
    | 0x0C3, 2 => some 0x1E
    | 0x200, 1 => some 0x1E
    | 0x201, 2 => some 0x1E
    | 0x202, 2 => some 0x1E
    | 0x203, 2 => some 0x1E
    | 0x184, 1 => some 0x07
    | 0x240, _ => some 0x04
    | 0x241, _ => some 0x04
    | 0x280, _ => some 0x1D
    | 0x281, 0 => some 0x1D
    | 0x282, 0 => some 0x1D
    | 0x282, 2 => some 0x04
    | 0x300, _ => some 0x04
    | 0x301, _ => some 0x04
    | 0x302, _ => some 0x04
    | 0x380, 1 => some 0x04
    | 0x383, _ => none
    | _, _ => if 0x140 ≤ op ∧ op ≤ 0x144 then some (bitsOf (wMod w) 4 0) else some (wTcode w)

/-- Step 12: link types (R399). -/
def typesBad (ws : List Word) (w : Word) : Bool :=
  (targetsOf w).any fun t =>
    match slotType (ws.getD t.1 0) t.2.1 with
    | none => false
    | some u => u != outType w t.2.2.2 t.2.1

/-- Something appears twice in a list. -/
def repeats (xs : List Nat) : Bool := xs.eraseDups.length != xs.length

/-- A token size is a whole number of units of its type; SD16 and XW128 tokens hold 1 to 64 elements (R231). -/
def sizeBad (t n : Nat) : Bool :=
  if t = 0x1B then decide (n < 8 ∨ 260 < n ∨ n % 4 ≠ 0)
  else if t = 0x1C then decide (n < 32 ∨ 1040 < n ∨ n % 16 ≠ 0)
  else if t = 0x1F then n % 8 != 0
  else n % max (unitBytes t) 1 != 0

/-- Step 13: ports (R417). sizes gives the token sizes of the core's ports of a number. -/
def portsBad (sizes : Nat → List Nat) (hdr : Nat) (ws : List Word) : Bool :=
  let ports := ws.filter fun w => wOp w == 0x2C0 || wOp w == 0x2C1
  let outside := ports.any fun w => !(isSouth w) &&
    !((if wOp w = 0x2C0 then hdrEntry hdr else hdrExit hdr).testBit (bitsOf (wMod w) 2 0))
  let south := (ports.filter isSouth).map fun w => bitsOf (wMod w) 8 3
  let size := ports.any fun w =>
    let a := bitsOf (wMod w) 8 3
    let ts := if a < 32 then sizes a else []
    !ts.isEmpty && ts.all fun n => sizeBad (wTcode w) n || n % max (portVec (wTcode w) n) 1 != 0
  outside || repeats (portUses ws 0x2C0 ++ portUses ws 0x2C1) || repeats south || size

/-- The parent chain of a controller reaches a root. -/
def reachesRoot (ws : List Word) : Nat → Nat → Bool
  | 0, _ => false
  | fuel + 1, i =>
    let p := bitsOf (wMod (ws.getD i 0)) 24 18
    p == 0x7F || (decide (p < ws.length) && isCtlOp (wOp (ws.getD p 0)) && reachesRoot ws fuel p)

/-- The children of a controller: child controllers and leaf heads (R419). -/
def childCount (p : Plane) (i : Nat) : Nat :=
  let ctls := (p.words.filter fun w => isCtlOp (wOp w) && bitsOf (wMod w) 24 18 == i).length
  ctls + (leafKids p i).length

/-- Step 14: the controller tree (R419). -/
def treeBad (ws : List Word) : Bool :=
  let p : Plane := { words := ws }
  let cs := (List.range ws.length).filter fun i => isCtlOp (wOp (ws.getD i 0))
  decide (16 < cs.length) || cs.any fun i =>
    !(reachesRoot ws 128 i) || bitsOf (wMod (ws.getD i 0)) 17 14 + 1 != childCount p i

/-- The instructions of a set that no unbuffered link from the set enters are taken out (R397). -/
def peel (ws : List Word) (live : List Nat) : List Nat :=
  live.filter fun j => live.any fun i => (targetsOf (ws.getD i 0)).any fun t => t.1 == j && t.2.2.1 == 0

/-- Step 15: a directed cycle without a buffered link (R397). -/
def loopBad (ws : List Word) : Bool :=
  !((List.range 128).foldl (fun live _ => peel ws live) (List.range ws.length)).isEmpty

/-- The places of a class that a block needs. -/
def classNeed (ws : List Word) (cl : Nat) : Nat :=
  ((ws.filter fun w => classOf (wOp w) == cl).map placesOf).foldl (fun n x => n + x) 0

/-- The places of a class on the grid (R389, R399). -/
def classHas : Nat → Nat
  | 0 => 64
  | 1 => 32
  | 2 => 16
  | 3 => 8
  | 4 => 8
  | 5 => 16
  | 6 => 128
  | 7 => 16
  | _ => 128

/-- Step 16: class counts. -/
def classesBad (ws : List Word) : Bool := (List.range 8).any fun cl => decide (classHas cl < classNeed ws cl)

/-- An instruction with STAT 1 (R308, R407, R421, R422). -/
def hasStat (w : Word) : Bool :=
  let op := wOp w
  (opRounds op || decide (0x180 ≤ op ∧ op ≤ 0x185) || op == 0x380 || op == 0x381) && (wMod w).testBit 12

/-- Step 17: statistics wiring (R425). -/
def statsBad (ws : List Word) : Bool :=
  let n := (ws.filter hasStat).length
  let cs := ws.filter fun w => wOp w == 0x3C0
  decide (1 < cs.length) || (decide (0 < n) && cs.isEmpty) || cs.any fun w => bitsOf (wMod w) 11 0 != n

/-- One check over every instruction of a block. -/
def anyInstr (ws : List Word) (f : Nat → Word → Bool) : Bool := (List.range ws.length).any fun i => f i (ws.getD i 0)

/-- Steps 1 to 17 of R399 for one block; FMT.11 where two elements draw from one stream (R256). -/
def blockFault (sizes : Nat → List Nat) (blk : List Byte) : Option Nat :=
  let hdr := blkHeader blk
  let ws := blkWords blk
  let streams := ws.filterMap drawer
  firstFault [
    refuseIf (bitsOf hdr 127 120 != 1) 0x080,
    refuseIf (ws.any fun w => !(opAssigned (wOp w))) 0x081,
    refuseIf (headerBad hdr ws || blk.length % 8 != 0 || decide (blk.length < 24)) 0x082,
    refuseIf (anyInstr ws (targetsBad ws)) 0x083,
    refuseIf (ws.any fun w => !(typeOk w)) 0x085,
    refuseIf (ws.any fun w => hasRm (wOp w) && decide (5 ≤ bitsOf (wMod w) 24 22)) 0x0F3,
    refuseIf (ws.any modBad) 0x088,
    refuseIf (ws.any selBad) 0x086,
    refuseIf (ws.any (stationaryBad ws)) 0x08D,
    refuseIf (anyInstr ws (faninBad ws)) 0x087,
    refuseIf (ws.any (typesBad ws)) 0x08A,
    refuseIf (portsBad sizes hdr ws) 0x08B,
    refuseIf (treeBad ws) 0x089,
    refuseIf (loopBad ws) 0x084,
    refuseIf (classesBad ws) 0x08C,
    refuseIf (statsBad ws) 0x08E,
    refuseIf (repeats streams) 0x0FB]

/-- Step 18: BLOCKID unique in the core's library. -/
def libraryFault (sizes : Nat → List Nat) (blks : List (List Byte)) : Option Nat :=
  firstFault (blks.map (blockFault sizes) ++ [refuseIf (repeats (blks.map blkId)) 0x08F])

end Sys2Proof.Machine
end

