-- ==== Sys2Proof/Machine/Validate.lean ====
section
/-! DEFINITION. The Dealer's checks of an image, in the order of R144. Each answers the cause that refuses the graph, or
none. -/

namespace Sys2Proof.Machine

/-! ### The graph store (R88 to R90) -/

/-- GSEN. -/
def storeOn (s : State) : Bool := bitAt s.host.gs 63
/-- GSSIZE in bytes. -/
def storeSize (s : State) : Nat := fld s.host.gs 23 16 * 2 ^ 30
/-- The local HBM4 address of store byte 0. -/
def storeBase (s : State) : Nat := fld s.host.gs 8 0 * 2 ^ 30

/-- The first directory entry of an image identifier: its store offset and pages, none without an entry, with the store
disabled, or when the image extends beyond the store (R90). -/
def directory (s : State) (id : Nat) : Option (Nat × Nat) :=
  if !(storeOn s) ∨ id = 0 then none
  else
    let word := fun (i o : Nat) => ofLe (s.read (storeBase s + 16 * i + o) 8)
    (List.range 65536).findSome? fun i =>
      let off := bitsOf (word i 8) 39 0
      let pages := bitsOf (word i 8) 63 40
      if word i 0 = id ∧ off + pages * 4096 ≤ storeSize s then some (off, pages) else none

/-! ### Steps 1 to 8 (R141 to R144) -/

/-- Steps 2 to 6: header, digest, grade. -/
def headerFault (s : State) (img : List Byte) (id pages : Nat) : Option Nat :=
  let zero := fun (o n : Nat) => imgRd img o n == 0
  let len := imgRd img 0x10 4
  let ns := imgRd img 0x14 2
  firstFault [
    refuseIf (imgRd img 0 4 != 0x4B594749 || imgRd img 4 2 != 1) 0x0A0,
    refuseIf (decide (len < 0x100 ∨ pages * 4096 < len)) 0x0A1,
    refuseIf (imgRd img 8 8 == 0 || imgRd img 8 8 != id) 0x0AC,
    refuseIf (bitsOf (imgRd img 7 1) 7 2 != 0 || !(zero 0x17 1) || !(zero 0x1C 4) || !(zero 0x40 192)
      || (List.range ns).any fun i => !(zero (0x100 + 16 * i + 2) 2)) 0x0A2,
    refuseIf (sm3 ((img.take len).drop 0x100) != (img.drop 0x20).take 32) 0x0A4,
    refuseIf (imgRd img 6 1 != s.grade) 0x090]

/-- The sections that an image must have. -/
def mandatory : List Nat := [1, 2, 4, 8, 10]

/-- Step 7: the section table (R142). -/
def sectionFault (img : List Byte) : Option Nat :=
  let ss := imgSections img
  let len := imgRd img 0x10 4
  let meet := (List.range ss.length).any fun i => (List.range i).any fun j =>
    let x := ss.getD i ⟨0, 0, 0, 0⟩
    let y := ss.getD j ⟨0, 0, 0, 0⟩
    rangesMeet x.off x.len y.off y.len
  refuseIf (ss.isEmpty || decide (32 < ss.length)
    || ss.any (fun x => x.type == 0 || decide (0x0D ≤ x.type) || x.off % 64 != 0 || decide (len < x.off + x.len)
      || (decide (x.type ≤ 3) && decide (x.len < 16 * x.records)))
    || repeats (ss.map Section.type) || mandatory.any (fun t => (imgSection img t).isNone) || meet) 0x0A3

/-- A core of an actor record has more than eight actors, which RATE.8 refuses (R114). -/
def crowded (img : List Byte) (r : ActorRec) : Bool := (actorCores r).any fun l => decide (8 < (coreActors img l).length)

/-- An actor record names only what exists, in range (R143): PORT0 its first port record, ENTRY a byte of CODE, a gang of at most 6 × 6
(R21, log entry 81). Two actors of a core with the same LACT are refused here, where no rule names a fault for them (log entry 82,
DESIGN CHOICE); on a core with more than eight the rule does (R114). -/
def actorBad (img : List Byte) (i : Nat) : Bool :=
  let r := actorRec img i
  let o := secOff img 1 + 16 * i
  !(decide (r.lcore < 2304) || r.isMem) || decide (0x40 ≤ r.gang) || decide (6 < bitsOf r.gang 2 0 + 1) || decide (16 ≤ r.eclass)
    || decide (nPorts img ≤ r.port0) || ((portPlaces img i).head?.map fun j => j != r.port0).getD false
    || (!r.isMem && decide ((secBytes img 8).length ≤ r.entry)) || imgRd img (o + 14) 2 != 0
    || (!(spans img) && r.lpkg != 0)
    || (!(crowded img r) && (decide (8 ≤ r.lact) || (List.range i).any fun j =>
        let q := actorRec img j
        q.lact == r.lact && (actorCores q).any fun l => (actorCores r).contains l))

/-- An actor record has more than sixteen input ports or output ports, which RATE.10 refuses (R114). -/
def manyPorts (img : List Byte) (i : Nat) : Bool :=
  let ps := (portPlaces img i).map fun j => (portRec img j).pnum
  decide (16 < (ps.filter fun p => decide (p < 16)).length) || decide (16 < (ps.filter fun p => decide (16 ≤ p ∧ p < 32)).length)

/-- A port record names only what exists, in range (R143). -/
def portBad (img : List Byte) (j : Nat) : Bool :=
  let p := portRec img j
  let o := secOff img 2 + 16 * j
  decide (32 ≤ imgRd img (o + 1) 1) || decide (nActors img ≤ p.actor)
    || (p.arc != 0xFFFF && decide (nArcs img ≤ p.arc)) || imgRd img (o + 10) 6 != 0
    || (!(manyPorts img p.actor) && (List.range j).any fun i => (portRec img i).actor == p.actor && (portRec img i).pnum == p.pnum)

/-- An arc record joins an output port to an input port, or a mode output port to the mode port, in range (R114, R134, R143). -/
def arcBad (img : List Byte) (a : Nat) : Bool :=
  let r := arcRec img a
  let p := portRec img r.src
  let q := portRec img r.dst
  decide (nPorts img ≤ r.src) || decide (nPorts img ≤ r.dst) || !((p.isOut && decide (q.pnum < 16)) || (p.pnum == 33 && q.pnum == 32))
    || r.cap == 0
    || (if arcKind img a = 2 then r.bound == 0 || decide (1000000 < r.bound) else r.bound != 0)

/-- Step 8: records (R143). -/
def recordsFault (img : List Byte) : Option Nat :=
  let count := fun (t n : Nat) => (match imgSection img t with | none => 0 | some x => x.records) != n
  refuseIf (nActors img == 0 || decide (18432 < nActors img) || count 1 (nActors img) || count 3 (nArcs img)
    || (List.range (nActors img)).any (actorBad img) || (List.range (nPorts img)).any (portBad img)
    || (List.range (nArcs img)).any (arcBad img)) 0x0A9

/-! ### Step 9: limits, consistency, schedule, windows, simulation -/

/-- The counts of an actor record in a rate set. -/
def ratesOf (img : List Byte) (i set : Nat) : List Nat :=
  ((List.range (actorRec img i).nphase).map fun ph => (List.range 32).map fun p => imgRate img i set ph p).flatten

/-- The limits of R114 on every core of the image, unlike channels without a conversion or with another number of elements a token
(R246), and FMT.4 of R231 at any port. -/
def limitsFault (img : List Byte) : Option Nat :=
  let acts := List.range (nActors img)
  let ports := portRecs img
  let arcs := List.range (nArcs img)
  firstFault [
    refuseIf ((imgCores img).any fun l => decide (8 < (coreActors img l).length)) 0x058,
    refuseIf (ports.any (fun p => decide (33 < p.pnum)) || acts.any (manyPorts img)
      || acts.any (fun i => (List.range (nSets img)).any fun t => (ratesOf img i t).any fun n => decide (1023 < n))
      || (List.range (nPorts img)).any (fun j =>
        decide (8 < (arcsFrom img j).length) || decide (1 < (arcs.filter fun a => (arcRec img a).dst == j).length))) 0x05A,
    refuseIf (acts.any fun i => (actorRec img i).nphase == 0 || decide (16 < (actorRec img i).nphase)) 0x077,
    refuseIf (nSets img == 0 || decide (8 < nSets img)) 0x076,
    refuseIf (decide (1 < (ports.filter fun p => p.pnum == 32).length)) 0x07B,
    refuseIf (ports.any fun p => p.pnum == 32 && p.tcode != 0x1D) 0x07A,
    refuseIf (arcs.any fun a =>
      let p := portRec img (arcRec img a).src
      let q := portRec img (arcRec img a).dst
      !(convExists p.tcode q.tcode) || (if p.tcode == q.tcode then p.tsize != q.tsize
        else tokenElems p.tcode p.tsize != tokenElems q.tcode q.tsize)) 0x064,
    refuseIf (ports.any fun p => sizeBad p.tcode p.tsize) 0x0F4]

/-- The consistency of R116. -/
def consistencyFault (img : List Byte) : Option Nat :=
  let sets := List.range (nSets img)
  firstFault [
    refuseIf (repetition img 0).isNone 0x054,
    refuseIf (sets.any fun t => (repetition img t).isNone) 0x072,
    refuseIf ((List.range (nActors img)).any fun i => sets.any fun t => (ratesOf img i t).all fun n => n == 0) 0x07D]

/-- The phases of an actor's entries in a segment, in order. -/
def entryPhases (seg : List Word32) (lact : Nat) : List Nat :=
  (seg.filter fun w => fld w 30 28 == lact).map fun w => fld w 27 24

/-- The schedule of R120, on every core of the image: no other package judges it. -/
def scheduleFault (img : List Byte) : Option Nat :=
  let sets := List.range (nSets img)
  let ls := imgCores img
  let each := fun (f : Nat → Nat → ActorRec → Nat → Bool) =>
    ls.any fun l => sets.any fun t => (coreActors img l).any fun (i, r) => f l t r i
  firstFault [
    refuseIf (each fun l t r _ =>
      let ps := entryPhases (segment img l t) r.lact
      ps.length % max r.nphase 1 != 0 || (List.range ps.length).any fun n => ps.getD n 0 != n % max r.nphase 1) 0x057,
    refuseIf (each fun l t r i => (entryPhases (segment img l t) r.lact).length != periodFirings img t i) 0x059,
    refuseIf (ls.any fun l => decide (256 < segStart img l (nSets img))) 0x078,
    refuseIf (ls.any fun l => sets.any fun t => (segment img l t).any fun w =>
      !((coreActors img l).any fun x => x.2.lact == fld w 30 28) ) 0x058]

/-- The input windows of a logical core: index, base, bytes. -/
def windowsOf (img : List Byte) (l : Nat) : List (Nat × Nat × Nat) :=
  let ps := corePlans img l
  (List.range ps.length).filterMap fun i =>
    let p := ps.getD i ⟨0, 0, true, 0, 0, 0⟩
    if p.out then none else some (i, baseOf img l i, planCap img p * roundUp (portRec img p.prec).tsize 16)

/-- The ante bytes that the image gives an arc: from its offset to the next that an arc names, or to the end of ANTE (R129, log entry
83). -/
def anteGiven (img : List Byte) (r : ArcRec) : Nat :=
  let later := ((arcRecs img).map ArcRec.anteOff).filter fun o => decide (r.anteOff < o ∧ o ≠ 0xFFFFFFFF)
  (later.foldl min (secBytes img 5).length) - r.anteOff

/-- The windows of R129, on every core of the image. -/
def windowsFault (img : List Byte) : Option Nat :=
  let ls := imgCores img
  let ws := fun (l : Nat) => windowsOf img l
  let code := fun (l : Nat) => ((imageCode img l).1, ceilDiv (imageCode img l).2.2 4096 * 4096)
  firstFault [
    refuseIf (ls.any fun l => (ws l).any fun w => decide (tileSize < w.2.1 + w.2.2)) 0x06F,
    refuseIf (ls.any fun l => (ws l).any fun w =>
      rangesMeet w.2.1 w.2.2 (code l).1 (code l).2
        || (ws l).any fun v => v.1 != w.1 && rangesMeet w.2.1 w.2.2 v.2.1 v.2.2) 0x061,
    refuseIf (ls.any (fun l => (ws l).any fun w => w.2.1 % 64 != 0)
      || (portRecs img).any fun p => p.tsize == 0 || decide (4096 < p.tsize)) 0x062,
    refuseIf (ls.any fun l => decide (64 < (corePlans img l).length)) 0x063,
    refuseIf ((arcRecs img).any fun r =>
      r.anteOff != 0xFFFFFFFF && anteGiven img r != r.ante * (portRec img r.dst).tsize) 0x06A]

/-! ### The simulation of R117 -/

/-- A firing in a table: actor record, gang member, phase. -/
structure SimEntry where
  act : Nat
  member : Nat
  phase : Nat
  deriving DecidableEq, Repr

/-- The simulation: what each table has left, the tokens each producing member has made on an arc, those each consuming
member has used. -/
structure Sim where
  tables : List (List SimEntry)
  made : NMap Nat := []
  used : NMap Nat := []
  deriving DecidableEq, Repr

/-- The key of an arc and a member. -/
def simKey (a m : Nat) : Nat := a * 64 + m

/-- The share of a port that a member of an actor record has. -/
def memberShare (img : List Byte) (i m p : Nat) : Share :=
  let n := (actorCores (actorRec img i)).length
  if n ≤ 1 then {} else { size := n, member := m, part := max (memberRate img i 0 0 p) 1 }

/-- Token w of an arc is in its consumer's window. -/
def simReady (img : List Byte) (x : Sim) (a w : Nat) : Bool :=
  let r := arcRec img a
  let p := portRec img r.src
  if w < r.ante then true
  else
    let y := memberShare img p.actor 0 p.pnum
    let k := w - r.ante
    decide (y.place k < NMap.getD 0 x.made (simKey a (k / y.part % y.size)))

/-- Token w of an arc finds a free place in its consumer's window. -/
def simRoom (img : List Byte) (x : Sim) (a w : Nat) : Bool :=
  let r := arcRec img a
  let q := portRec img r.dst
  let y := memberShare img q.actor 0 q.pnum
  decide (y.place w < NMap.getD 0 x.used (simKey a (w / y.part % y.size)) + r.cap)

/-- The arcs into an actor record, and those out of it. -/
def arcsInto (img : List Byte) (i : Nat) : List Nat :=
  (List.range (nArcs img)).filter fun a => (portRec img (arcRec img a).dst).actor == i && arcKind img a != 4
/-- The arcs out of an actor record. -/
def arcsOut (img : List Byte) (i : Nat) : List Nat :=
  (List.range (nArcs img)).filter fun a => (portRec img (arcRec img a).src).actor == i && arcKind img a != 4

/-- The input tokens of a firing are there. -/
def simInputs (img : List Byte) (set : Nat) (x : Sim) (e : SimEntry) : Bool :=
  (arcsInto img e.act).all fun a =>
    let p := (portRec img (arcRec img a).dst).pnum
    let y := memberShare img e.act e.member p
    let u := NMap.getD 0 x.used (simKey a e.member)
    (List.range (memberRate img e.act set e.phase p)).all fun t => simReady img x a (y.global (u + t))

/-- The output tokens of a firing find room. -/
def simOutputs (img : List Byte) (set : Nat) (x : Sim) (e : SimEntry) : Bool :=
  (arcsOut img e.act).all fun a =>
    let p := (portRec img (arcRec img a).src).pnum
    let y := memberShare img e.act e.member p
    let m := NMap.getD 0 x.made (simKey a e.member)
    (List.range (memberRate img e.act set e.phase p)).all fun t =>
      simRoom img x a ((arcRec img a).ante + y.global (m + t))

/-- A firing takes and makes its tokens. -/
def simFire (img : List Byte) (set : Nat) (x : Sim) (e : SimEntry) : Sim :=
  let bump := fun (pick : ArcRec → Nat) (m : NMap Nat) (a : Nat) =>
    let k := simKey a e.member
    NMap.put m k (NMap.getD 0 m k + memberRate img e.act set e.phase (portRec img (pick (arcRec img a))).pnum)
  { x with
    used := (arcsInto img e.act).foldl (bump ArcRec.dst) x.used
    made := (arcsOut img e.act).foldl (bump ArcRec.src) x.made }

/-- Table n fires its head once, if it can. -/
def simTable (img : List Byte) (set : Nat) (x : Sim) (n : Nat) : Sim :=
  match x.tables.getD n [] with
  | [] => x
  | e :: rest =>
    if simInputs img set x e && simOutputs img set x e then
      let y := simFire img set x e
      { y with tables := y.tables.set n rest }
    else x

/-- One pass over the tables. -/
def simPass (img : List Byte) (set : Nat) (x : Sim) : Sim := (List.range x.tables.length).foldl (simTable img set) x

/-- The tables of a rate set: each core's segment and each memory actor's firings. -/
def simTables (img : List Byte) (set : Nat) : List (List SimEntry) :=
  let cores := (imgCores img).map fun l => (segment img l set).filterMap fun w =>
    ((coreActors img l).find? fun x => x.2.lact == fld w 30 28).map fun x =>
      ⟨x.1, (actorCores x.2).findIdx fun y => y == l, fld w 27 24⟩
  let mems := ((List.range (nActors img)).filter fun i => (actorRec img i).isMem).map fun i =>
    (List.range (periodFirings img set i)).map fun n => ⟨i, 0, n % max (actorRec img i).nphase 1⟩
  cores ++ mems

/-- One period of a rate set, simulated as far as it goes. -/
def simulate (img : List Byte) (set : Nat) : Sim :=
  let ts := simTables img set
  times (simPass img set) (ts.map List.length).sum { tables := ts }

/-- The simulation of R117: RATE.5 or RING.0 for rate set 0, MODE.2 for another. -/
def simFault (img : List Byte) : Option Nat :=
  (List.range (nSets img)).findSome? fun set =>
    let x := simulate img set
    let heads := x.tables.filterMap List.head?
    if heads.isEmpty then none
    else if set ≠ 0 then some 0x072
    else if heads.any fun e => simInputs img set x e then some 0x060
    else some 0x055

/-! ### Steps 10 to 15 -/

/-- Steps 10 and 11: the blocks of each logical core. -/
def blocksFault (img : List Byte) : Option Nat :=
  let ls := imgCores img
  let lib := fun (l : Nat) => imageBlocks img l
  let digest := fun (b : List Byte) => bitsOf (blkHeader b) 63 0 != ofBe ((sm3 (b.drop 16)).drop 24)
  let sizes := fun (l p : Nat) => ((coreActors img l).filterMap fun x => actorPort img x.1 p).map fun x => x.2.tsize
  firstFault (refuseIf (ls.any fun l => (lib l).any digest) 0x0A5 :: ls.map fun l => libraryFault (sizes l) (lib l))

/-- Step 12: meld graphs (R447). -/
def meldsFault (img : List Byte) : Option Nat :=
  firstFault ((imgCores img).map fun l =>
    let rs := imageMelds img l
    firstFault ((rs.map fun r => match meldFault {} l (meldRec r) with
      | some f => if f = 0x0E0 then none else some f
      | none => none) ++ [refuseIf (decide (16 < rs.length)) 0x0E9]))

/-- The path latency of a cross-package arc in nanoseconds (R76). -/
def pathLatency (img : List Byte) (a : Nat) : Nat :=
  let r := arcRec img a
  let x := Config.packageOf img (portActor img r.src).lpkg
  let y := Config.packageOf img (portActor img r.dst).lpkg
  let h := Config.hops x y
  ceilDiv (400 * h * 224 + 256 * ceilDiv (portRec img r.src).tsize 224) 224

/-- Step 13: cross-package arcs (R76). -/
def linksFault (img : List Byte) : Option Nat :=
  let as := (List.range (nArcs img)).filter fun a => arcKind img a == 2
  let emitted := fun (a t : Nat) =>
    let p := portRec img (arcRec img a).src
    ((repetition img t).getD []).getD p.actor 1 * cycleCount img p.actor t p.pnum
  firstFault [
    refuseIf (as.any fun a => (List.range (nSets img)).any fun t => decide ((arcRec img a).ante < emitted a t)) 0x116,
    refuseIf (as.any fun a => decide ((arcRec img a).bound < pathLatency img a)) 0x117]

/-- Step 14: code, data, windows and spill of each logical core fit its tile SRAM, no two of them in one place and none at the placement
tables, and its library is no larger than these (R144, R390). The image gives no spill a place or a size (log entry 84). -/
def fitFault (img : List Byte) : Option Nat :=
  refuseIf ((imgCores img).any fun l =>
    let c := imageCode img l
    let runs := (c.1, c.2.2) :: (imageData img l).map (fun x => (x.1, x.2.length)) ++ (windowsOf img l).map fun w => w.2
    let meet := (List.range runs.length).any fun i => (List.range i).any fun j =>
      let x := runs.getD i (0, 0)
      let y := runs.getD j (0, 0)
      rangesMeet x.1 x.2 y.1 y.2
    decide (128 < (imageBlocks img l).length) || meet || decide (tileSize < (runs.map Prod.snd).sum + 0x8000)
      || runs.any fun r => decide (tileSize < r.1 + r.2) || rangesMeet r.1 r.2 0x1F8000 0x8000) 0x0AD

/-- A gang extends beyond its quadrant. -/
def gangOut (r : ActorRec) : Bool :=
  !r.isMem && (decide (6 < r.lcore % 48 / 8 + bitsOf r.gang 5 3 + 1) || decide (8 < r.lcore % 8 + bitsOf r.gang 2 0 + 1))

/-- The blocks and meld graphs of a logical core fit a physical core, with every link routed within the block's latency class: at most 1, 2
or 4 hops for classes 1, 2 and 3 (R146). -/
def placeFault (img : List Byte) (l c : Nat) : Option Nat :=
  let bs := imageBlocks img l
  let short := fun (cl : Nat) => bs.any fun b => decide (liveSites c cl < classNeed (blkWords b) cl)
  let ports := fun (b : List Byte) => ((portUses (blkWords b) 0x2C0) ++ portUses (blkWords b) 0x2C1).any fun n => Config.fusedElem c (144 + n)
  let nodes := (List.range 16384).filter fun n => !(Config.fusedNode c n)
  let slow := fun (b : List Byte) => match hdrLat (blkHeader b), Config.routeHops (blkWords b) c with
    | 0, _ => false
    | n, some hs => hs.any fun h => decide (2 ^ (n - 1) < h)
    | _, none => false
  firstFault [
    refuseIf ((List.range 5).any short || short 6) 0x093,
    refuseIf (short 5 || short 7 || bs.any ports) 0x095,
    refuseIf (decide (nodes.length < ((imageMelds img l).map fun r => (meldRec r).nnode).sum)) 0x096,
    refuseIf (bs.any fun b => (Config.routeHops (blkWords b) c).isNone) 0x094,
    refuseIf (bs.any slow) 0x092]

/-- The blocks of a graph fit the cores it is placed on. -/
def placesFault (img : List Byte) (cores : List (Nat × Nat)) : Option Nat :=
  firstFault (cores.map fun x => placeFault img x.1 x.2)

/-- Deck slots of R145 that an image's streams demand a frame. -/
def deckDemand (img : List Byte) : Nat := ((imageDeck img).map Prod.snd).sum

/-- Step 15: shape and placement (R145, R146), on the quadrants of the context counted free. -/
def shapeFault (s : State) (x : Nat) (img : List Byte) : Option Nat :=
  let live := if s.grade = 1 then 12 else 10
  firstFault [
    refuseIf ((imgCores img).any (fun l => decide (live ≤ lcardOf l)) || (actorRecs img).any gangOut) 0x091,
    refuseIf (decide (1984 < deckDemand img)) 0x09E,
    match NMap.find s.ctxs x with
    | none => none
    | some k => match mapQuads s k img fun _ => true with
      | none => none
      | some m => placesFault img (placeCores s img m)]

/-- The checks of R144, steps 2 to 15, on the bytes of an image. -/
def imageFault (s : State) (x id pages : Nat) (img : List Byte) : Option Nat :=
  firstFault [headerFault s img id pages, sectionFault img, recordsFault img, limitsFault img, consistencyFault img,
    scheduleFault img, windowsFault img, simFault img, blocksFault img, meldsFault img, linksFault img,
    fitFault img, shapeFault s x img]

end Sys2Proof.Machine
end

