-- ==== Sys2Proof/Machine/Admit.lean ====
section
/-! DEFINITION. The launch queue and admission: launch requests, validation, the scheduler's examination of the queue, the
resources a graph takes and the shadow copies written for it (R98, R144, R148, R164 to R168, R176). -/

namespace Sys2Proof.Machine

/-! ### Refusals -/

/-- A copy to management of the notice of a graph that is refused or retired. -/
def copyGraph (s : State) (h cause : Nat) : State := s.tellMgmt (s.graphNotice h { cause := cause, flags := 3 })

/-! ### Launch and validation (R144, R164, R370) -/

/-- A graph takes a place of its context's share of the launch queue. -/
def waits (g : Graph) : Bool :=
  match g.phase with
  | .validating => true
  | .queued => true
  | .frozen => !g.held
  | _ => false

/-- The graphs of a context that take a place of the launch queue. -/
def queueLength (s : State) (x : Nat) : Nat := (s.graphs.filter fun hg => hg.1 / 2 ^ 28 == x && waits hg.2).length

/-- A context's share of the queue, or the queue, is full (R164). -/
def queueFull (s : State) (x : Nat) : Bool :=
  decide (16 ≤ queueLength s x) || decide (256 ≤ (s.graphs.filter fun hg => waits hg.2).length)

/-- A graph is created (R158, R164): the next handle of its context, at the tail of the queue, still to be validated. -/
def createGraph (s : State) (x id off pages cls : Nat) (who : Option (Nat × Nat)) : Nat × State :=
  let k := NMap.find s.ctxs x
  let seq := (k.map Ctx.nextSeq).getD 1
  let h := x * 2 ^ 28 + seq
  let g : Graph := { handle := h, imageid := id, created := s.time, off := off, pages := pages, cls := cls, arrival := s.order, launcher := who }
  let s1 := s.modCtx x fun k => { k with nextSeq := if seq + 1 = 2 ^ 28 then 1 else seq + 1 }
  (h, { s1 with graphs := NMap.put s1.graphs h g, order := s1.order + 1 })

/-- A LNCH whose target is another package (R370). -/
def launchAway (s : State) (y : Nat) : Bool := y.testBit 2 && bitsOf y 27 16 != s.links.pkg

/-- LAUNCH_REQUEST (R164, R221, R370): once its release holds, the request of an entry reaches the scheduler and creates a
graph, or is refused with SCHED.0, SCHED.1 or SCHED.13; a request for another package takes its route, or LINK.1. -/
def execLaunchRequest (c q : Nat) (s : State) : Result :=
  .next (
    let k := s.core c
    let e := k.entry q
    let sc : Scope := if launchAway s e.data then .dom else .deck
    if !(e.busy && e.op == .launch && !e.performed && !e.released) || !(coreMoves k) || k.cut || releaseHeld s c sc e.seq true then s
    else
      let x := (s.ctxOf c).getD 0
      if launchAway s e.data then
        if s.links.routes.contains (bitsOf e.data 27 16) then
          let s1 := s.modCore c fun k => k.setEntry q { e with released := true }
          leave s1 { core := c, q := q, seq := e.seq, since := s.clock c, pkg := bitsOf e.data 27 16 }
        else s.completeEntry c q 0x111 0
      else match NMap.find s.ctxs x with
        | none => s.completeEntry c q 0x140 0
        | some kx =>
          if queueFull s x then s.completeEntry c q 0x140 0
          else if e.data % 4 < kx.maxpri then s.completeEntry c q 0x141 0
          else match directory s e.addr with
            | none => s.completeEntry c q 0x14D 0
            | some (off, pages) =>
              let s1 := s.modCore c fun k => k.setEntry q { e with released := true }
              (createGraph s1 x e.addr off pages (e.data % 4) (some (c, q))).2)

/-- The launch ticket of a graph of this package (R370). -/
def launchTicket (s : State) (h : Nat) : Nat := s.links.pkg * 2 ^ 32 + h

/-- IMAGE_VALIDATION (R144): the Dealer reads and checks an image; the graph is refused at the first failing check, or
queued, which completes its launch. -/
def execImageValidation (g : Word32) (s : State) : Result :=
  let h := g.toNat
  .next (match s.graph? h with
    | none => s
    | some g =>
      if g.phase ≠ .validating then s
      else
        let a := storeBase s + g.off
        let n := g.pages * 4096
        if !(storeOn s) || (s.ueAt a n).isSome then copyGraph (refuse s h 0x0AF) h 0x0AF
        else
          let img := s.read a n
          match imageFault s (h / 2 ^ 28) g.imageid g.pages img with
          | some f => refuse s h f
          | none =>
            let s1 := s.modGraph h fun g => { g with
              phase := .queued, img := img.take (imgRd img 0x10 4), launcher := none, arrival := s.order }
            let s2 : State := { s1 with order := s1.order + 1 }
            match g.launcher with
            | none => s2
            | some (c, q) => s2.completeEntry c q 0 (launchTicket s h))

/-- PLACEMENT_TIMEOUT (R146): a graph whose placement is not complete within 100 ms is refused with DEAL.10. From when they count the
spec does not say: from its creation (log entry 99, DESIGN CHOICE). -/
def execPlacementTimeout (g : Word32) (s : State) : Result :=
  let h := g.toNat
  .next (match s.graph? h with
    | none => s
    | some g => if g.phase = .validating ∧ g.created + nanos 100000000 ≤ s.time then refuse s h 0x09A else s)

/-! ### What an admission takes (R166) -/

/-- What a graph takes when it is admitted: cores, grant, calendar entries, egress ports, freeze reservation, and the bases
of its stream and channel numbers. -/
structure AdmitPlan where
  cores : List (Nat × Nat)
  grant : Grant
  slots : List (Nat × Word32)
  sinks : List (Nat × Nat)
  frzAt : Nat
  sbase : Nat
  vbase : Nat
  deriving DecidableEq, Repr

/-- A calendar entry (R45). -/
def calEntry (sender x kclass stream : Nat) : Word32 :=
  BitVec.ofNat 32 (2 ^ 31 + sender * 2 ^ 27 + x * 2 ^ 23 + kclass * 2 ^ 20 + stream % 2 ^ 16)

/-- A calendar index, 512 × suit + slot, that is never granted (R47). -/
def slotReserved (i : Nat) : Bool := decide (3 * 512 + 448 ≤ i)

/-- A calendar entry of the hub. -/
def calAt (s : State) (i : Nat) : Word32 := NMap.getD 0 s.deck.calendar i

/-- The valid calendar entries of a context. -/
def ctxSlots (s : State) (x : Nat) : Nat := (s.deck.calendar.filter fun (_, w) => bitAt w 31 && fld w 26 23 == x).length

/-- The calendar indices no entry holds, in order. Which slots the Dealer grants is left open: the model takes the free indices
512 × suit + slot in rising order, and exactly one window slot a card where the spec says at least one (log entry 63, DESIGN
CHOICE). -/
def freeSlots (s : State) : List Nat := (List.range 2048).filter fun i => !(slotReserved i) && !(bitAt (calAt s i) 31)

/-- The largest stream number a context uses. -/
def streamTop (s : State) (x : Nat) : Nat :=
  ((s.streams.filter fun (n, _) => n / 0x10000 == x).map fun (n, _) => n % 0x10000).foldl max 0

/-- The largest channel number in use. -/
def channelTop (s : State) : Nat := (s.links.channels.map Prod.fst).foldl max 0

/-- The entries that a stream of an image asks for (R48): its sender's layer, KCLASS and number. -/
def streamEntry (img : List Byte) (x sbase : Nat) (cores : List (Nat × Nat)) (n : Nat) : Word32 :=
  let p := if n < 0x10000 then (arcRec img n).src else n - 0x10000
  let r := portActor img p
  let num := if n < 0x10000 then sbase + 1 + arcStream img n else sbase + 1 + nArcs img + p
  if r.isMem then calEntry 12 x 4 num
  else if n < 0x10000 || (portRec img p).isOut then calEntry (coreFor cores ((actorCores r).headD 0) / 192) x 1 num
  else calEntry 12 x 1 num

/-- The entries a graph needs: its streams' slots, and a window slot for each card where the context has none (R48). -/
def entriesFor (s : State) (img : List Byte) (x sbase : Nat) (cores : List (Nat × Nat)) : List Word32 :=
  let streams := ((imageDeck img).map fun d => List.replicate d.2 (streamEntry img x sbase cores d.1)).flatten
  let cards := (cores.map fun c => c.2 / 192).eraseDups
  let has := fun (card : Nat) => s.deck.calendar.any fun (_, w) =>
    bitAt w 31 && fld w 26 23 == x && fld w 22 20 == 2 && fld w 30 27 == card
  streams ++ (cards.filter fun c => !(has c)).map fun c => calEntry c x 2 0

/-- The host sinks of an image, in rising order. -/
def hostSinks (img : List Byte) : List Nat :=
  sortBy (fun (x y : Nat) => decide (x < y)) (((portRecs img).filter fun p => p.isOut && p.host != 0xFFFF).map PortRec.host)

/-- The enabled egress ports of a context, in order. -/
def egressPorts (s : State) (x : Nat) : List Nat := (s.host.egress.filter fun (_, e) => e.asgn && e.ctx == x && e.en).map Prod.fst

/-- The egress ports that the host sinks of a graph take (R98): a thaw first those it held, then the free ones in order. -/
def bindSinks (s : State) (x : Nat) (g : Graph) : Option (List (Nat × Nat)) :=
  let free := (egressPorts s x).filter fun n => (NMap.getD ({} : Egress) s.host.egress n).graph == 0
  let sinks := hostSinks g.img
  let old := if g.image.isSome then g.lastSinks.filter fun b => sinks.contains b.1 && free.contains b.2 else []
  let rest := sinks.filter fun k => old.all fun b => b.1 != k
  let left := free.filter fun n => old.all fun b => b.2 != n
  if left.length < rest.length then none else some (old ++ rest.zip left)

/-- The cross-package arcs of an image with an end on this package (R74). -/
def channelArcs (s : State) (img : List Byte) : List Nat :=
  (List.range (nArcs img)).filter fun a => arcKind img a == 2 &&
    (actorHere s img (portActor img (arcRec img a).src) || actorHere s img (portActor img (arcRec img a).dst))

/-- The ports of this package on an arc's route: those to the package at its other end. -/
def arcPorts (s : State) (img : List Byte) (a : Nat) : List Nat :=
  let x := portActor img (arcRec img a).src
  let y := portActor img (arcRec img a).dst
  viaPorts s (Config.packageOf img (if actorHere s img x then y else x).lpkg)

/-- The ports that a graph's channels cross, one for each channel and port (R74). -/
def channelPorts (s : State) (img : List Byte) : List Nat := ((channelArcs s img).map (arcPorts s img)).flatten

/-- The virtual channels that the arcs of a graph take on each port, as port and number: the lowest free ones (R73, R74). -/
def bindVcs (s : State) (img : List Byte) : List (Nat × List (Nat × Nat)) :=
  (channelArcs s img).foldl (fun (out : List (Nat × List (Nat × Nat))) a =>
    let taken := (out.map Prod.snd).flatten ++ (s.links.channels.map fun x => x.2.vcs).flatten
    out ++ [(a, (arcPorts s img a).filterMap fun p =>
      ((List.range 16).find? fun v => !(taken.contains (p, v))).map fun v => (p, v))]) []

/-- Every arc of a graph finds a virtual channel on each port of its route. -/
def vcsFound (s : State) (img : List Byte) : Bool := (bindVcs s img).all fun x => x.2.length == (arcPorts s img x.1).length

/-- The channels bound on a port for a context. -/
def boundOn (s : State) (x n : Nat) : Nat :=
  (s.links.channels.filter fun (_, c) => c.graph / 2 ^ 28 == x && c.ports.contains n).length

/-- The freeze reservation of a graph with a number of cores, in bytes (R166). -/
def reservation (n : Nat) : Nat := (5 * n + 2) * 2 ^ 19

/-- The lowest address of a context's freeze area with room for a reservation beside those of its other graphs; for a graph that thaws
that of its image, which its next freeze overwrites (R175). -/
def placeFreeze (s : State) (x h : Nat) (g : Graph) (k : Ctx) (n : Nat) : Option Nat :=
  let held := (s.graphs.filter fun hg => hg.1 / 2 ^ 28 == x && hg.1 != h && hg.2.frzLen != 0).map fun hg => (hg.2.frzAt, hg.2.frzLen)
  let starts := k.frzbase :: held.map fun r => roundUp (r.1 + r.2) 4096
  let ok := fun (a : Nat) => decide (a + n ≤ k.frzbase + k.frzsize * 2 ^ 20) && held.all fun r => !(rangesMeet a n r.1 r.2)
  if g.image.isSome then (if ok g.frzAt then some g.frzAt else none)
  else (sortBy (fun (a b : Nat) => decide (a < b)) starts).find? ok

/-- What a waiting graph would take now (R145, R166, R98, LINK.9, PWR.1): a cause that refuses it, nothing while a resource
lacks or the Dealer places no graph (DEAL.9, DEAL.12), or its plan. free says which physical quadrants count as free. -/
def planFor (s : State) (h : Nat) (g : Graph) : Except Nat (Option AdmitPlan) :=
  let x := h / 2 ^ 28
  let n := (localCores s g.img).length
  let ports := channelPorts s g.img
  match NMap.find s.ctxs x with
  | none => .ok none
  | some k =>
    if !(s.dealer.map && s.dealer.test) then .ok none
    else if (actorRecs g.img).any fun a => decide (5 < a.eclass) then .error 0x151
    else if k.frzsize * 2 ^ 20 < reservation n then .error 0x147
    else if (egressPorts s x).length < (hostSinks g.img).length then .error 0x12A
    else if (List.range 24).any fun p => decide (16 < (ports.filter fun y => y == p).length) then .error 0x119
    else
      let gated := fun (pq : Nat) => s.power.gatedIslands.contains (5 * (pq / 4) + pq % 4)
      match mapQuads s k g.img (fun pq => quadFree s k pq && !(gated pq)) with
      | none => .ok none
      | some m =>
        let cores := placeCores s g.img m
        match placesFault g.img cores with
        | some f => .error f
        | none =>
          let sbase := streamTop s x
          let need := entriesFor s g.img x sbase cores
          let base := baseCharges g.imageid need.length ports.eraseDups.length
          match arbitrate s x k.pshare g.img cores base with
          | .error f => .error f
          | .ok none => .ok none
          | .ok (some grant) =>
            let vcOk := vcsFound s g.img && (List.range 24).all fun p =>
              decide (boundOn s x p + (ports.filter fun y => y == p).length ≤ k.vcq) || !(ports.contains p)
            let k2 := (need.filter fun w => fld w 22 20 == 2).length
              + (s.deck.calendar.filter fun (_, w) => bitAt w 31 && fld w 22 20 == 2).length
            match bindSinks s x g, placeFreeze s x h g k (reservation n) with
            | some sinks, some at' =>
              if vcOk && decide (ctxSlots s x + need.length ≤ k.slots) && decide (need.length ≤ (freeSlots s).length)
                  && decide (k2 ≤ 1024) then
                .ok (some { cores := cores, grant := grant, slots := (freeSlots s).zip need, sinks := sinks, frzAt := at'
                            sbase := sbase, vbase := channelTop s })
              else .ok none
            | _, _ => .ok none

/-! ### Writing the shadow copies (R148) -/

/-- The streams of a graph that cores, memory actors or the host's ports of this package send on. -/
def streamsOf (s : State) (h : Nat) (img : List Byte) (p : AdmitPlan) : List (Nat × DeckStream) :=
  let key := fun (n : Nat) => ctxStream (h / 2 ^ 28) n
  let cores := (p.cores.map fun (l, c) =>
    let ps := corePlans img l
    (List.range ps.length).filterMap fun i =>
      let d := ps.getD i ⟨0, 0, false, 0, 0, 0⟩
      if d.out && (d.kind == 1 || d.kind == 3) then
        some (key (planStream img p.sbase p.vbase d), ({ graph := h, core := c, desc := i } : DeckStream))
      else none).flatten
  let mems := ((List.range (nActors img)).filter fun i => (actorRec img i).isMem && actorHere s img (actorRec img i)).filterMap fun i =>
    match enginePort img i with
    | none => none
    | some r =>
      match (arcsFrom img ((portPlaces img i).getD 0 0)).find? fun a => arcKind img a == 3 with
      | some a => if r.isOut then some (key (p.sbase + 1 + arcStream img a), ({ graph := h, mem := true } : DeckStream)) else none
      | none => none
  let hosts := ((List.range (nPorts img)).filter fun j => decide ((portRec img j).pnum < 16) && (portRec img j).host != 0xFFFF).map
    fun j => (key (p.sbase + 1 + nArcs img + j), ({ graph := h, host := true, desc := j } : DeckStream))
  cores ++ mems ++ hosts

/-- The memory actors of a graph on this package (R143, R455): a source holds its arc's ante, a sink its ante tokens. -/
def memActorsOf (s : State) (h : Nat) (img : List Byte) (sbase : Nat) : List (Nat × MemActor) :=
  ((List.range (nActors img)).filter fun i => (actorRec img i).isMem && actorHere s img (actorRec img i)).filterMap fun i =>
    match enginePort img i with
    | none => none
    | some r =>
      let arc := if r.isOut then ((arcsFrom img ((portPlaces img i).getD 0 0)).find? fun a => arcKind img a == 3).getD r.arc else r.arc
      let ante := (arcRec img arc).ante
      let a : MemActor := { graph := h, actor := i, sink := !r.isOut, stream := sbase + 1 + arcStream img arc, ante := ante }
      some ((actorRec img i).lcore - 0x1000,
        if r.isOut then a else { a with window := (List.range ante).map fun w => anteBytes img r.arc w })

/-- The number under which a memory actor of an engine stands: the lowest free one that is the engine's modulo 64. -/
def freeActor (s : State) (n : Nat) : Nat :=
  n + 64 * ((List.range (s.actors.length + 1)).find? fun j => (NMap.find s.actors (n + 64 * j)).isNone).getD 0

/-- A memory actor stands at its engine; a source's stream and Herlo channels name it. -/
def placeActor (s : State) (x : Nat × MemActor) : State :=
  let n := freeActor s x.1
  let key := ctxStream (x.2.graph / 2 ^ 28) x.2.stream
  let s1 : State := { s with actors := NMap.put s.actors n x.2 }
  match x.2.sink, s.graph? x.2.graph with
  | false, some g =>
    let st : DeckStream := NMap.getD {} s1.streams key
    let s2 : State := if (sourceArcs g x.2).2 then
        { s1 with streams := NMap.put s1.streams key { st with graph := x.2.graph, mem := true, core := n } }
      else s1
    (sourceArcs g x.2).1.foldl (fun (s : State) (a : Nat) =>
      match NMap.find s.links.channels (channelOf g a) with
      | none => s
      | some ch => setChannel s (channelOf g a) { ch with core := engineCore n }) s2
  | _, _ => s1

/-- The channels of a graph with an end on this package, each with its virtual channels (R74). -/
def channelsOf (s : State) (h : Nat) (img : List Byte) (p : AdmitPlan) : List (Nat × Channel) :=
  (bindVcs s img).map fun (a, vcs) =>
    let r := arcRec img a
    let l := (actorCores (portActor img r.src)).headD 0
    let i := ((corePlans img l).findIdx? fun d => d.out && d.kind == 2 && d.arc == a).getD 0
    (p.vbase + 1 + a, { graph := h, arc := a, vcs := vcs, bound := r.bound, core := coreFor p.cores l, desc := i })

/-- The state of a core to which the Dealer writes a shadow copy (R148, R39, R151). -/
def writeCore (img : List Byte) (h : Nat) (sup : Bool) (p : AdmitPlan) (s : State) (x : Nat × Nat) : State :=
  let sh : Shadow := {
    codewin := codeWindow img x.1
    seqBytes := sequencerBytes img x.1
    descs := coreDescs img p.cores p.sbase p.vbase x.1
    melds := imageMelds img x.1
    eclass := classFor img x.1
    mode := if sup then .s else .u }
  let s1 := (tileRuns img x.1).foldl (fun s r => s.setTile x.2 r.1 r.2) s
  s1.modCore x.2 fun k => { k with
    graph := h, lcore := x.1, shadow := some sh, grid := { k.grid with lstate := 1 }
    power := if k.power = .powerGated then .waking else k.power
    wakeSince := if k.power = .powerGated then s.time else k.wakeSince }

/-- Egress ports are bound to a graph's sinks. -/
def bindEgress (s : State) (h : Nat) (sinks : List (Nat × Nat)) : State :=
  let one := fun (x : Nat × Egress) =>
    match sinks.find? (fun b => b.2 == x.1) with
    | some b => (x.1, { x.2 with graph := h, sink := b.1, records := [], ords := 0 })
    | none => x
  { s with host := { s.host with egress := s.host.egress.map one } }

/-- DEAL.8 goes to management for a placement without the cache (R147). -/
def noteUncached (s : State) (h : Nat) : State :=
  if s.dealer.cache then s else s.tellMgmt (s.graphNotice h { cause := 0x098 })

/-- The entries of the placement cache that stay when space runs out: the least recently used go first, whole (R147). -/
def cacheFit : List CacheEntry → List CacheEntry
  | [] => []
  | e :: es =>
    if 2 ^ 30 < ((e :: es).map fun e => Config.cacheBytes e.size e.places.length).sum then cacheFit es else e :: es

/-- A block that is placed on a core uses the entry of its body, or makes it, and the entry holds its placement there (R147). -/
def cachePlace (s : State) (x : Nat × List Byte) : State :=
  let ws := blkWords x.2
  let dig := sm3 (x.2.drop 16)
  let same := fun (e : CacheEntry) => e.digest == dig && e.defect == Config.defectId && e.grade == s.grade
  let old := match s.dealer.entries.find? same with
    | some e => e
    | none => { digest := dig, defect := Config.defectId, grade := s.grade, size := ws.length, places := [] }
  let rest := s.dealer.entries.filter fun e => !(same e)
  { s with dealer := { s.dealer with
      entries := cacheFit (rest ++ [{ old with places := NMap.put old.places x.1 (placements x.1 ws) }]) } }

/-- The Dealer's placements of a graph go through the cache where management has reserved one (R147). -/
def cacheGraph (s : State) (img : List Byte) (cores : List (Nat × Nat)) : State :=
  if s.dealer.cache then ((cores.map fun x => (imageBlocks img x.1).map fun b => (x.2, b)).flatten).foldl cachePlace s else s

/-- An admitted graph takes its resources, and the Dealer writes its shadow copies and calendar entries (R59, R148). -/
def takeResources (s : State) (h : Nat) (g : Graph) (p : AdmitPlan) : State :=
  let strs := streamsOf s h g.img p
  let chans := channelsOf s h g.img p
  let s1 : State := { s with
    deck := { s.deck with calendar := p.slots.foldl (fun m x => NMap.put m x.1 x.2) s.deck.calendar }
    streams := strs.foldl (fun m x => NMap.put m x.1 x.2) s.streams
    links := { s.links with channels := chans.foldl (fun m x => NMap.put m x.1 x.2) s.links.channels }
    order := s.order + 1
    graphs := NMap.put s.graphs h { g with
      phase := .loading, cores := p.cores, grant := p.grant, sinks := p.sinks, frzAt := p.frzAt
      frzLen := reservation p.cores.length, sbase := p.sbase, vbase := p.vbase, admitted := g.gtime, admitOrder := s.order
      loadSince := g.gtime, reported := [], acked := [], decided := false, pkgOk := [] } }
  let s2 := (memActorsOf s h g.img p.sbase).foldl placeActor (cacheGraph (noteUncached s1 h) g.img p.cores)
  bindEgress (p.cores.foldl (writeCore g.img h g.supervisor p) s2) h p.sinks

/-! ### The scheduler (R165, R167, R168) -/

/-- The effective class of a waiting graph (R165). -/
def effective (g : Graph) : Nat := g.cls - g.waited / nanos 20000000

/-- A graph waits for admission: queued, or frozen and not held. -/
def inQueue (g : Graph) : Bool :=
  match g.phase with
  | .queued => true
  | .frozen => !g.held
  | _ => false

/-- A graph may be admitted: it waits, in a context that is neither halted nor being halted. -/
def candidate (s : State) (hg : Nat × Graph) : Bool :=
  inQueue hg.2 && match NMap.find s.ctxs (hg.1 / 2 ^ 28) with
    | some k => !k.halted && !k.halting
    | none => false

/-- The waiting graphs in the scheduler's order (R167). -/
def waiting (s : State) : List Nat :=
  (sortBy (fun (a b : Nat × Graph) =>
      decide (effective a.2 < effective b.2 ∨ (effective a.2 = effective b.2 ∧ a.2.arrival < b.2.arrival)))
    (s.graphs.filter (candidate s))).map Prod.fst

/-- The freeze image of a graph as its memory holds it is whole (R176): SCHED.9 or SCHED.8 when it is not; that of a graph which another
package coordinates stands there (R79). -/
def imageBad (s : State) (g : Graph) : Option Nat :=
  if g.coord.isSome then none
  else if (s.ueAt g.frzAt g.imgLen).isSome then some 0x149
  else if s.read (g.frzAt + 0x30) 32 ≠ sm3 (s.read (g.frzAt + 0x80) (g.imgLen - 0x80)) then some 0x148
  else none

/-- A frozen graph whose image is bad is retired, and the image discarded (R176). -/
def loseImage (s : State) (h cause : Nat) : State :=
  let s1 := copyGraph (s.notifyGraph h { cause := cause, flags := 3 }) h cause
  (s1.modGraph h fun g => { g with phase := .retired, image := none, frzLen := 0, cause := cause }).recordOutcome h cause

/-- What a reserved graph needs and the plan of a graph would take from it (R167): a quadrant of its mapping on the whole partition, or
slots, channels or power share that it lacks then. -/
def takesFrom (s : State) (r g : Graph) (p : AdmitPlan) : Bool :=
  let x := r.handle / 2 ^ 28
  match NMap.find s.ctxs x with
  | none => false
  | some k =>
    let quads := match mapQuads s k r.img (fun _ => true) with
      | none => []
      | some m => m.map Prod.snd
    let need := entriesFor s r.img x 0 (placeCores s r.img ((logicalQuads s r.img).zip quads))
    let last := grantAt r.img (placeCores s r.img ((logicalQuads s r.img).zip quads))
      (baseCharges r.imageid need.length (channelPorts s r.img).eraseDups.length) (3, 1)
    p.cores.any (fun c => quads.contains (c.2 / 48))
      || (!p.slots.isEmpty && decide (k.slots < ctxSlots s x + p.slots.length + need.length))
      || decide (k.pshare < ctxGrants s x + p.grant.total + last.total)
      || (channelPorts s r.img).any fun n =>
          let on := fun (img : List Byte) => ((channelPorts s img).filter fun y => y == n).length
          decide (0 < on g.img ∧ k.vcq < boundOn s x n + on g.img + on r.img)

/-- A graph of a context is reserved ahead of another in the order: it has waited 100 ms. -/
def reservedAhead (s : State) (h : Nat) (ahead : List Nat) : Option Graph :=
  let due := fun (a : Nat) => a / 2 ^ 28 == h / 2 ^ 28 && match s.graph? a with
    | some g => decide (nanos 100000000 ≤ g.waited) && candidate s (a, g)
    | none => false
  (ahead.find? due).bind s.graph?

/-- The victims for a waiting graph, in the order of R168. -/
def victims (s : State) (h : Nat) (g : Graph) : List Nat :=
  (sortBy (fun (a b : Nat × Graph) =>
      decide (b.2.cls < a.2.cls ∨ (a.2.cls = b.2.cls ∧ b.2.admitOrder < a.2.admitOrder)))
    (s.graphs.filter fun hg =>
      decide (hg.1 / 2 ^ 28 = h / 2 ^ 28 ∧ hg.2.phase = .running ∧ g.cls < hg.2.cls ∧ nanos 2000000 ≤ hg.2.gtime - hg.2.admitted)
        && !hg.2.supervisor)).map Prod.fst

/-- A graph would be admissible. -/
def admissible (s : State) (h : Nat) (g : Graph) : Bool :=
  match planFor s h g with
  | .ok (some _) => true
  | _ => false

/-- What the freeze of a graph frees: all but its freeze reservation, where its image will stand. -/
def freezeFrees (s : State) (h : Nat) : State :=
  match s.graph? h with
  | none => s
  | some g => (s.release h).modGraph h fun x => { x with frzLen := g.frzLen }

/-- The shortest prefix of the victims whose freeing makes a graph admissible, beside the graphs already freezing (R168). -/
def chooseVictims (s : State) (h : Nat) (g : Graph) : List Nat :=
  let freezing := (s.graphs.filter fun hg => decide (hg.1 / 2 ^ 28 = h / 2 ^ 28 ∧ hg.2.phase = .freezing)).map Prod.fst
  let s1 := freezing.foldl freezeFrees s
  let vs := victims s h g
  if admissible s1 h g then []
  else match (List.range (vs.length + 1)).find? fun n => admissible ((vs.take n).foldl freezeFrees s1) h g with
    | some n => vs.take n
    | none => []

/-- No free quadrants of a graph's shape exist (R145). -/
def noQuads (s : State) (h : Nat) (g : Graph) : Bool :=
  match NMap.find s.ctxs (h / 2 ^ 28) with
  | none => false
  | some k => (mapQuads s k g.img fun pq => quadFree s k pq && !(s.power.gatedIslands.contains (5 * (pq / 4) + pq % 4))).isNone

/-- A frozen graph finds no place: it stays queued with DEAL.11 (R176), sent once for each freeze (log entry 73, DESIGN CHOICE). -/
def noPlace (s : State) (h : Nat) (g : Graph) : State :=
  if g.homeless then s else (s.modGraph h fun g => { g with homeless := true }).notifyGraph h { cause := 0x09B }

/-- The scheduler considers one waiting graph (R166 to R168, R176): it refuses it, admits it, or looks for victims. A frozen graph whose
context has fewer enabled egress ports than its host sinks waits, without HOST.10 (R98; log entry 97, DESIGN CHOICE). -/
def consider (ahead : List Nat) (s : State) (h : Nat) : State :=
  match s.graph? h with
  | none => s
  | some g =>
    if !(candidate s (h, g)) then s
    else match planFor s h g with
      | .error f =>
        if g.image.isSome then (if 0x090 ≤ f ∧ f ≤ 0x09F then noPlace s h g else s)
        else if g.coord.isSome then (s.notifyGraph h { cause := f, flags := 1 }).failLoad h
        else refuse s h f
      | .ok none =>
        let s1 := if g.image.isSome && noQuads s h g then noPlace s h g else s
        (chooseVictims s h g).foldl (fun s v => s.requestFreeze v 0) s1
      | .ok (some p) =>
        let blocked : Bool := match reservedAhead s h ahead with
          | some r => takesFrom s r g p
          | none => false
        if blocked then s
        else match g.image, imageBad s g with
          | some _, some f => loseImage s h f
          | _, _ => takeResources s h g p

/-- The scheduler examines the queue in its order (R167). -/
def schedule (s : State) : State :=
  let hs := waiting s
  (List.range hs.length).foldl (fun s i => consider (hs.take i) s (hs.getD i 0)) s

/-- GRAPH_ADMIT (R167). -/
def execGraphAdmit (s : State) : Result := .next (schedule s)

/-- VICTIM_MIN_RUN_TIME (R168): a running graph has run 2 ms of graph time since its latest admission or thaw, so the
scheduler examines the queue again. -/
def execVictimMinRunTime (g : Word32) (s : State) : Result :=
  .next (match s.graph? g.toNat with
    | none => s
    | some g => if g.phase = .running ∧ nanos 2000000 ≤ g.gtime - g.admitted then schedule s else s)

end Sys2Proof.Machine
end

