-- ==== Sys2Proof/Machine/Arith.lean ====
section
/-! DEFINITION. Arithmetic, logic, compare and special-function elements (R401 to R404). -/

namespace Sys2Proof.Machine

/-- ADD (R401); XW128 tokens add modulo 2^128 (R241). -/
def execElemAdd (b : Blk) (s : State) : Result :=
  if eType b = 0x1C then reactAll b 0x040 (bStat b) (xwFire b false) s
  else arith b 0x040 2 (fun rm xs => (vAt xs 0).add rm (vAt xs 1)) s
/-- SUB (R401). -/
def execElemSub (b : Blk) (s : State) : Result :=
  if eType b = 0x1C then reactAll b 0x041 (bStat b) (xwFire b true) s
  else arith b 0x041 2 (fun rm xs => (vAt xs 0).add rm (vAt xs 1).neg) s
/-- MUL (R401). -/
def execElemMul (b : Blk) (s : State) : Result := arith b 0x042 2 (fun _ xs => (vAt xs 0).mul (vAt xs 1)) s
/-- FMA (R401): x × y + z, rounded once. -/
def execFma (b : Blk) (s : State) : Result :=
  arith b 0x043 3 (fun rm xs => ((vAt xs 0).mul (vAt xs 1)).add rm (vAt xs 2)) s
/-- FMS (R401): x × y − z. -/
def execFms (b : Blk) (s : State) : Result :=
  arith b 0x044 3 (fun rm xs => ((vAt xs 0).mul (vAt xs 1)).add rm (vAt xs 2).neg) s
/-- NFMA (R401): z − x × y. -/
def execNfma (b : Blk) (s : State) : Result :=
  arith b 0x045 3 (fun rm xs => (vAt xs 2).add rm ((vAt xs 0).mul (vAt xs 1)).neg) s
/-- MIN (R401). -/
def execElemMin (b : Blk) (s : State) : Result := arith b 0x046 2 (fun _ xs => vMin (vAt xs 0) (vAt xs 1)) s
/-- MAX (R401). -/
def execElemMax (b : Blk) (s : State) : Result := arith b 0x047 2 (fun _ xs => vMax (vAt xs 0) (vAt xs 1)) s
/-- ABS (R401). -/
def execAbs (b : Blk) (s : State) : Result := arith b 0x048 1 (fun _ xs => (vAt xs 0).abs) s
/-- NEG (R401). -/
def execNeg (b : Blk) (s : State) : Result := arith b 0x049 1 (fun _ xs => (vAt xs 0).neg) s

/-- AND (R402). -/
def execElemAnd (b : Blk) (s : State) : Result :=
  logic b 0x080 2 (fun xs => (xs.getD 0 0 &&& xs.getD 1 0, noCount)) s
/-- OR (R402). -/
def execElemOr (b : Blk) (s : State) : Result :=
  logic b 0x081 2 (fun xs => (xs.getD 0 0 ||| xs.getD 1 0, noCount)) s
/-- XOR (R402). -/
def execElemXor (b : Blk) (s : State) : Result :=
  logic b 0x082 2 (fun xs => (xs.getD 0 0 ^^^ xs.getD 1 0, noCount)) s
/-- NOT (R402). -/
def execNot (b : Blk) (s : State) : Result :=
  logic b 0x083 1 (fun xs => (2 ^ elemBits (eType b) - 1 - xs.getD 0 0 % 2 ^ elemBits (eType b), noCount)) s

/-- SHL of one lane (R402): reduced to the width, an overflow when the exact value is out of range. -/
def shlLane (t x y : Nat) : Nat × List Nat :=
  let w := elemBits t
  let n := shiftCount t y
  let v : Int := if isSigned t then sgn w x else (x : Int)
  if w ≤ n then (0, if v = 0 then noCount else count 0)
  else
    let e := v * 2 ^ n
    let g := intRange w (isSigned t)
    (wrapN w e, if e < g.lo ∨ g.hi < e then count 0 else noCount)

/-- SRA of one lane (R402): floor(x / 2^n); for UINT types as SHR. -/
def sraLane (t x y : Nat) : Nat :=
  let w := elemBits t
  let n := min (shiftCount t y) w
  if isSigned t then wrapN w (Int.fdiv (sgn w x) (2 ^ n)) else x / 2 ^ n

/-- SHL (R402). -/
def execElemShl (b : Blk) (s : State) : Result :=
  logic b 0x084 2 (fun xs => shlLane (eType b) (xs.getD 0 0) (xs.getD 1 0)) s
/-- SHR (R402). -/
def execElemShr (b : Blk) (s : State) : Result :=
  logic b 0x085 2
    (fun xs => (xs.getD 0 0 / 2 ^ min (shiftCount (eType b) (xs.getD 1 0)) (elemBits (eType b)), noCount)) s
/-- SRA (R402). -/
def execElemSra (b : Blk) (s : State) : Result :=
  logic b 0x086 2 (fun xs => (sraLane (eType b) (xs.getD 0 0) (xs.getD 1 0), noCount)) s
/-- CLAMP (R402): min(max(x, y), z), z when y > z; only a NaN is not a copy of an operand. -/
def execClamp (b : Blk) (s : State) : Result :=
  logic b 0x087 3 (fun xs =>
    let v := xs.map (valOf (eType b))
    encodeElem (eType b) 0 0 (vMin (vMax (vAt v 0) (vAt v 1)) (vAt v 2))) s

/-- CMPEQ (R403). -/
def execCmpeq (b : Blk) (s : State) : Result := compare b 0x0C0 (fun x y => x.eq y) s
/-- CMPLT (R403). -/
def execCmplt (b : Blk) (s : State) : Result := compare b 0x0C1 (fun x y => x.lt y) s
/-- CMPLE (R403). -/
def execCmple (b : Blk) (s : State) : Result := compare b 0x0C2 (fun x y => x.lt y || x.eq y) s
/-- SEL (R403): z ? x : y, bits copied. -/
def execSel (b : Blk) (s : State) : Result :=
  laneOp b 0x0C3 [eType b, eType b, 0x1E] false (eType b)
    (fun _ xs => (if xs.getD 2 0 = 1 then xs.getD 0 0 else xs.getD 1 0, noCount)) s

/-- EXP2 (R404, R245). -/
def execExp2 (b : Blk) (s : State) : Result := arith b 0x100 1 (fun _ xs => exp2Val (vAt xs 0)) s
/-- LOG2 (R404, R245). -/
def execLog2 (b : Blk) (s : State) : Result := arith b 0x101 1 (fun _ xs => log2Val (vAt xs 0)) s
/-- RCP (R404, R245). -/
def execRcp (b : Blk) (s : State) : Result := arith b 0x102 1 (fun _ xs => rcpVal (vAt xs 0)) s
/-- RSQ (R404, R245). -/
def execRsq (b : Blk) (s : State) : Result := arith b 0x103 1 (fun _ xs => rsqVal (vAt xs 0)) s

end Sys2Proof.Machine
end

