-- ==== Sys2Proof/Machine/Commit.lean ====
section
/-! DEFINITION. The two-phase commit of a load, in one package and across packages, and the restoration of a frozen graph
(R78, R79, R148 to R150, R176). -/

namespace Sys2Proof.Machine

/-! ### Aborts (R149) -/

/-- The location word of a core's failed read-back (R274): that of an uncorrectable byte of its window, or one the core
gives. -/
def reportPlace (s : State) (c : Nat) : Nat × State :=
  match s.ueAt (winBase c) (2 ^ 24) with
  | some u =>
    let l := State.ueLocation u
    (l.2.1 * 2 ^ 44 + l.2.2.1 * 2 ^ 40 + l.2.2.2.1, s)
  | none =>
    let r := s.takeFresh
    (r.1 / 2 ^ 24 % 9 * 2 ^ 44 + c / 192 * 2 ^ 40 + c % 192 * 2 ^ 32 + r.1 % 2 ^ 24, r.2)

/-- A core's read-back fails (R149, R151): the load is aborted, LSTATE and LCAUSE show it on the core, LOAD.6 goes to the
supervisor and the location to management. -/
def reportFailure (s : State) (h c cause : Nat) : State :=
  let r := reportPlace s c
  let note : Notice := { cause := 0x0A6, flags := 2, core := coreName c, detail := r.1 }
  let s1 := loadError r.2 h note
  s1.modCore c fun k => { k with grid := { k.grid with lstate := 3, lcause := cause } }

/-! ### Reports (R148, R78) -/

/-- A core can read back its shadow state: it is awake, and so is its card. -/
def reportReady (s : State) (c : Nat) : Bool :=
  let k := s.core c
  k.shadow.isSome && decide (k.power ≠ .powerGated ∧ k.power ≠ .waking) && !(s.deck.asleep.testBit (c / 192))

/-- Every core of a graph has reported OK: the graph is committed, or, spanning packages, reports success and waits for GO. -/
def reachDecision (s : State) (h : Nat) : State :=
  match s.graph? h with
  | none => s
  | some g =>
    if !(g.cores.all fun x => g.reported.contains x.2) then s
    else if spans g.img then
      let s1 := s.modGraph h fun g => { g with decided := true, pkgOk := if g.pkgOk.contains s.links.pkg then g.pkgOk else s.links.pkg :: g.pkgOk }
      if g.coord.isSome then reportLoad s1 h true else s1
    else s.modGraph h fun g => { g with decided := true, phase := .committing }

/-- SHADOW_REPORT (R148, R149): a core reports its shadow state whole, or a failure with its cause; with every report in,
the decision point is reached. -/
def execShadowReport (c : Nat) (cause : BitVec 9) (s : State) : Result :=
  let h := (s.core c).graph
  .next (match s.graph? h with
    | none => s
    | some g =>
      if g.phase ≠ .loading ∨ g.reported.contains c = true ∨ reportReady s c = false then s
      else if cause ≠ 0 then reportFailure s h c cause.toNat
      else
        let s1 := s.modCore c fun k => { k with grid := { k.grid with lstate := 2 } }
        reachDecision (s1.modGraph h fun g => { g with reported := c :: g.reported }) h)

/-- STATUS_TIMEOUT (R149): a report missing after 1 ms aborts the load with LOAD.8. -/
def execStatusTimeout (g : Word32) (s : State) : Result :=
  let h := g.toNat
  .next (match s.graph? h with
    | none => s
    | some g =>
      if g.phase = .loading ∧ g.decided = false ∧ g.loadSince + nanos 1000000 ≤ g.gtime then abortCounted s h { cause := 0x0A8 }
      else s)

/-- PACKAGE_REPORT (R78): a package reports its load to this one, which coordinates the graph; a failure aborts the graph
on every package, and it is refused with DEAL.13. -/
def execPackageReport (g : Word32) (pkg : Nat) (ok : Bool) (s : State) : Result :=
  let h := g.toNat
  .next (match s.graph? h with
    | none => s
    | some g =>
      if g.phase ≠ .loading ∨ spans g.img = false ∨ g.coord.isSome = true ∨ (packagesOf g.img).contains pkg = false then s
      else if ok then s.modGraph h fun g => { g with pkgOk := if g.pkgOk.contains pkg then g.pkgOk else pkg :: g.pkgOk }
      else (refuse (s.abortLoad h) h 0x09D).modGraph h fun g => { g with image := none, frzLen := 0 })

/-- XPKG_GO (R78): the coordinating package sends GO once every package has reported success; at a package that has reported its own,
GO has come, and its commit wave starts. -/
def execXpkgGo (g : Word32) (s : State) : Result :=
  let h := g.toNat
  .next (match s.graph? h with
    | none => s
    | some g =>
      if g.phase = .loading && spans g.img && g.decided && (g.coord.isSome || (packagesOf g.img).all fun p => g.pkgOk.contains p) then
        s.modGraph h fun g => { g with phase := .committing }
      else s)

/-- XPKG_ABORT (R78, R79): the package keeps its old configuration; the graph waits again at its coordinating package. -/
def execXpkgAbort (g : Word32) (s : State) : Result :=
  let h := g.toNat
  .next (match s.graph? h with
    | none => s
    | some g =>
      if spans g.img = false then s
      else if g.coord.isSome then (if g.phase = .loading ∨ g.phase = .queued then s.dropPeer h else s)
      else if g.phase = .loading then s.abortLoad h else s)

/-- XPKG_REPORT_TIMEOUT (R78): a package's report missing 10 ms after the configuration was sent, at the admission here, aborts the
commit with LINK.8. -/
def execXpkgReportTimeout (g : Word32) (s : State) : Result :=
  let h := g.toNat
  .next (match s.graph? h with
    | none => s
    | some g =>
      if g.phase = .loading ∧ spans g.img = true ∧ g.coord.isNone = true ∧ g.admitted + nanos 10000000 ≤ g.gtime
          ∧ ((packagesOf g.img).all fun p => g.pkgOk.contains p) = false then (s.abortLoad h).notifyGraph h { cause := 0x118 }
      else s)

/-- PEER_HALT (R79): a graph halted on another package halts here with LINK.15. -/
def execPeerHalt (g : Word32) (s : State) : Result :=
  let h := g.toNat
  .next (match s.graph? h with
    | none => s
    | some g => if spans g.img then s.haltGraph h { cause := 0x11F } else s)

/-! ### The commit wave (R148) -/

/-- A range of memory reads as nothing has written it; its storage errors are gone. -/
def State.clear (s : State) (a n : Nat) : State :=
  let out := fun (x : Nat) => !(decide (a ≤ x ∧ x < a + n))
  { s with mem := s.mem.filter fun m => out m.1, ecc := { s.ecc with marks := s.ecc.marks.filter fun m => out m.1 } }

/-- MODE of sr.status for a mode (R268). -/
def modeBits : Mode → Word
  | .u => 0
  | .s => 1
  | .m => 3

/-- A core as a graph's first commit leaves it: its general registers and handler stay, the rest is what the commit sets
(R119, R122, R123, R128, R253, R343, R351, R356, R361, R362, R379, R434, R438). -/
def committedCore (k : Core) (sh : Shadow) (t : Nat) : Core :=
  { ({} : Core) with
    regs := k.regs, vector := k.vector, run := .betweenFirings, status := modeBits sh.mode, codewin := sh.codewin
    graph := k.graph, lcore := k.lcore, eclass := sh.eclass, descs := sh.descs, power := .running, idleSince := t
    grid := { lcause := k.grid.lcause } }

/-- A core swaps its copies: sequencer region, accumulators, registers, meld graphs, placement tables and its slice of the library
(R148, R351, R390, R438, R448). -/
def swapCore (s : State) (c : Nat) (sh : Shadow) : State :=
  let s1 := (s.clear (winBase c + 0x700000) 0x100000).clear (winBase c + 0x400000) 0x100000
  let s2 := sh.seqBytes.foldl (fun s r => s.write (winBase c + 0x700000 + r.1) r.2) s1
  let s3 := s2.modCore c fun k => committedCore k sh s.time
  let s4 := sh.melds.foldl (fun s r => loadMeld s c (meldRec r)) s3
  let blocks := match s.graph? (s.core c).graph with
    | none => []
    | some g => imageBlocks g.img (s.core c).lcore
  blocks.foldl (fun s b => writeLibrary (writePlacement s c b) c b) s4

/-! ### A thaw (R175, R176) -/

/-- Where a thaw puts what a freeze image names: cores, and the bases of stream and channel numbers. -/
structure Moved where
  cores : List (Nat × Nat)
  sfrom : Nat
  sto : Nat
  vfrom : Nat
  vto : Nat
  deriving DecidableEq, Repr

/-- The moves of a thaw, from the placement a graph was frozen on to its present one. -/
def movedFor (g : Graph) (m : Snapshot) : Moved where
  cores := m.placed.map fun x => (x.2, coreFor g.cores x.1)
  sfrom := m.sbase
  sto := g.sbase
  vfrom := m.vbase
  vto := g.vbase

/-- The core that has a core's place now. -/
def Moved.core (m : Moved) (c : Nat) : Nat := ((m.cores.find? fun x => x.1 == c).map Prod.snd).getD c
/-- A stream number now. -/
def Moved.stream (m : Moved) (n : Nat) : Nat := n - m.sfrom + m.sto
/-- A channel number now. -/
def Moved.channel (m : Moved) (n : Nat) : Nat := n - m.vfrom + m.vto

/-- A window descriptor of core c on the new placement: PCORE and STREAM name what serves them now. -/
def Moved.desc (m : Moved) (c : Nat) (d : WinDesc) : WinDesc :=
  let w := d.d1.toNat
  let v := match d.pkind with
    | 0 => setBits w 51 44 (m.core (peerCore c d) % 192)
    | 2 => setBits w 31 16 (m.channel d.stream)
    | _ => setBits w 31 16 (m.stream d.stream)
  { d with d1 := BitVec.ofNat 64 v }

/-- A plane on another core: its instructions stand on the sites the Dealer gives them there. -/
def movedPlane (c : Nat) (p : Plane) : Plane :=
  if p.valid then { p with place := placement c p.words } else p

/-- The stationary registers of a plane's elements move with them. -/
def moveStations (c : Nat) (old : List Host.Cell) (s : State) (x : Nat × Nat) : State :=
  if x.1 < 128 ∧ x.2 < 128 then s.write (winBase c + 0x300000 + 512 * x.2) (memRead old (0x300000 + 512 * x.1) 512) else s

/-- A meld node word with its sources renamed. -/
def renameNode (f : Nat → Nat) (w : Word) : Word :=
  let a := if !(bitAt w 60) && (nSources w).length ≥ 1 then setBits w.toNat 59 46 (f (fld w 59 46)) else w.toNat
  BitVec.ofNat 64 (if !(bitAt w 41) && (nSources w).length = 2 then setBits a 40 27 (f (fld w 40 27)) else a)

/-- The meld graphs of a core stand on the free live nodes of its new place, in order. -/
def moveMelds (c : Nat) (old : List Host.Cell) (k : Core) (s : State) : State :=
  let from' := (k.meld.graphs.map fun x => x.2.nodes).flatten
  let pairs := from'.zip (freeNodes {} c)
  let f := fun (n : Nat) => ((pairs.find? fun p => p.1 == n).map Prod.snd).getD n
  let s1 := pairs.foldl (fun s p =>
    let w : Word := BitVec.ofNat 64 (ofLe (memRead old (0x500000 + 8 * p.1) 8))
    s.write (winBase c + 0x500000 + 8 * p.2) (leBytes 8 (renameNode f w).toNat)) s
  s1.modCore c fun k => { k with meld := { k.meld with graphs := k.meld.graphs.map fun x => (x.1, { x.2 with nodes := x.2.nodes.map f }) } }

/-- A recorded core is restored on its new place: the bytes of its window, its state, its planes and meld graphs. -/
def restoreCore (m : Moved) (bytes : List (Nat × List Host.Cell)) (s : State) (x : Nat × Core × Nat) : State :=
  let c := x.2.2
  let k := x.2.1
  let old := ((bytes.find? fun b => b.1 == x.1).map Prod.snd).getD []
  let s1 := s.clear (winBase c) (2 ^ 24)
  let s2 := old.foldl (fun s b => s.write (winBase c + b.1) [b.2]) s1
  let s3 := ((s2.clear (winBase c + 0x300000) 0x100000)).clear (winBase c + 0x500000) 0x100000
  let act := movedPlane c k.grid.act
  let sh := movedPlane c k.grid.sh
  let s4 := s3.modCore c fun now => { k with
    graph := now.graph, lcore := now.lcore, power := .running, shadow := none, run := k.frozeAs
    descs := k.descs.map fun d => (d.1, m.desc c d.2), grid := { k.grid with act := act, sh := sh, lcause := now.grid.lcause } }
  let s5 := (k.grid.act.place.zip act.place ++ k.grid.sh.place.zip sh.place).foldl (moveStations c old) s4
  let s6 := moveMelds c old k s5
  let blocks := match s.graph? (s.core c).graph with
    | none => []
    | some g => imageBlocks g.img (s.core c).lcore
  blocks.foldl (fun s b => writePlacement s c b) s6

/-- A receiver's name now. -/
def Moved.recv (m : Moved) (f : Nat → Nat) (r : Nat) : Nat :=
  if 2 ^ 20 ≤ r then 2 ^ 20 + f (r - 2 ^ 20) else m.core (r / 64) * 64 + r % 64

/-- Where each recorded memory actor stands now: the memory actors of the graph in the order of their engines and arcs. -/
def actorNow (s : State) (h : Nat) (acts : NMap MemActor) (n : Nat) : Nat :=
  match NMap.find acts n with
  | none => n
  | some a => ((s.actors.find? fun x => x.2.graph == h && x.2.actor == a.actor).map Prod.fst).getD n

/-- A frozen graph's recorded state takes the place of what its commit set (R176): cores, tokens, memory actors, outstanding
requests and the requests its homes hold. -/
def restore (s : State) (h : Nat) (g : Graph) (m : Snapshot) : State :=
  let mv := movedFor g m
  let x := h / 2 ^ 28
  let act := actorNow s h m.actors
  let s1 := (m.cores.map fun c => (c.1, c.2, coreFor g.cores c.1)).foldl (restoreCore mv m.bytes) s
  let strs := m.streams.map fun (n, d) =>
    (ctxStream x (mv.stream (n % 0x10000)),
      { d with core := if d.mem then act d.core else if d.host then d.core else mv.core d.core, acks := d.acks.map fun (a : Nat × Nat) => (mv.recv act a.1, a.2) })
  let acts := m.actors.map fun (n, a) => (act n, { a with stream := mv.stream a.stream })
  let chans := m.channels.map fun (n, ch) =>
    let now : Channel := NMap.getD ch s.links.channels (mv.channel n)
    (mv.channel n, { ch with core := mv.core ch.core, vcs := now.vcs })
  let issuer := fun (c : Nat) => if c < 12 * 192 then mv.core c else engineCore (act (c - 12 * 192))
  let card := fun (n : Nat) => ((mv.cores.find? fun p => p.1 / 192 == n).map fun p => p.2 / 192).getD n
  let bar := fun (b : Nat × BarInst) => if b.1 % 16 < 12 then (b.1 / 16 * 16 + card (b.1 % 16), b.2) else b
  let back := fun (p : Parked) =>
    match p.frz with
    | some (h', l) => if h' = h then { p with core := coreFor g.cores l, frz := none } else p
    | none => p
  let ring := fun (e : Nat × Egress) =>
    match m.egress.find? fun r => e.2.graph == h && r.1 == e.2.sink with
    | some r => (e.1, { e.2 with records := r.2.1, ords := r.2.2 })
    | none => e
  let sent := g.modeCtl.waiting.map fun t => (t.1, (if t.2.1 = 0 then 0 else mv.core (t.2.1 - 1) + 1), t.2.2)
  { s1 with
    host := { s1.host with egress := s1.host.egress.map ring }
    streams := strs.foldl (fun t d => NMap.put t d.1 d.2) s1.streams
    actors := acts.foldl (fun t a => NMap.put t a.1 a.2) s1.actors
    kitty := s1.kitty.map back
    graphs := NMap.put s1.graphs h { g with
      barriers := g.barriers.map bar
      modeCtl := { g.modeCtl with waiting := sent, sender := if g.modeCtl.sender = 0 then 0 else mv.core (g.modeCtl.sender - 1) + 1 } }
    links := { s1.links with
      channels := chans.foldl (fun t c => NMap.put t c.1 c.2) s1.links.channels
      outbox := s1.links.outbox ++ m.outbox.map fun o => { o with core := issuer o.core }
      inbox := s1.links.inbox ++ m.inbox.map fun o => { o with core := issuer o.core } } }

/-! ### The start (R148, R95) -/

/-- The port record that a GPORT of an image names: a source port. -/
def sourcePort (img : List Byte) (gport : Nat) : Option (Nat × PortRec) :=
  ((List.range (nPorts img)).map fun j => (j, portRec img j)).find? fun x => decide (x.2.pnum < 16) && x.2.host == gport

/-- The key of the stream of a graph's host port record. -/
def hostStream (h j : Nat) (g : Graph) : Nat := ctxStream (h / 2 ^ 28) (g.sbase + 1 + nArcs g.img + j)

/-- The drain token joins the stream of a source port, behind its last token (R95, R136). -/
def hostDrain (s : State) (h gport : Nat) : State :=
  match s.graph? h with
  | none => s
  | some g =>
    match sourcePort g.img gport with
    | none => s
    | some (j, _) =>
      let key := hostStream h j g
      let st : DeckStream := NMap.getD {} s.streams key
      let m : PtrMsg := { desc := 0, wrptr := st.fed, bytes := [], marks := [], drain := true }
      { s with streams := NMap.put s.streams key { st with tokens := st.tokens ++ [m] } }

/-- The ingress ports that opened a graph are bound to it; one that is closing at the graph's first start ends its stream, which a thaw
brings back as it was (R95, R176). -/
def bindIngress (s : State) (h : Nat) (thaw : Bool) : State :=
  let one := fun (x : Nat × Ingress) =>
    if x.2.graph = h ∧ x.2.st = 1 then (x.1, { x.2 with st := 2 }.note) else x
  let closing := (s.host.ingress.filter fun (_, p) => p.graph == h && p.st == 3).map fun x => x.2.gport
  let s1 : State := { s with host := { s.host with ingress := s.host.ingress.map one } }
  if thaw then s1 else closing.foldl (fun (s : State) (p : Nat) => hostDrain s h p) s1

/-- Management's copies for the responses of a core that were lost across the freeze (R226). -/
def tellLost (s : State) (c : Nat) : State :=
  ((s.core c).entries.filter fun (_, e) => e.busy && !e.done && e.fault == 0x04A).foldl
    (fun s (x : Nat × QEntry) => copyMgmt s c 0x04A x.2.addr) s

/-- Every core has acknowledged: a thawed graph's state is restored, with SCHED.6; a freeze that waited for the commit
begins; sources start (R148, R150, R176). -/
def startGraph (s : State) (h : Nat) : State :=
  match s.graph? h with
  | none => s
  | some g =>
    let s1 := match g.image with
      | none => s
      | some m => g.cores.foldl (fun s (x : Nat × Nat) => pump (tellLost s x.2) x.2) (restore s h g m)
    let s2 := s1.modGraph h fun g => { g with
      phase := if g.frzSince.isSome then .freezing else .running, image := none, thawed := g.image, frzCores := [] }
    let s3 := bindIngress s2 h g.image.isSome
    if g.image.isSome then s3.notifyGraph h { cause := 0x146 } else s3

/-- A core's state, its tile SRAM within it, holds an uncorrectable error. -/
def stateUe (s : State) (c : Nat) : Option Nat := s.ueAt (winBase c) 0x1000000

/-- COMMIT_SWAP (R148, R150): the commit wave reaches a core, which swaps its copies and acknowledges; an uncorrectable
error in its state before that halts the graph with LOAD.14. -/
def execCommitSwap (c : Nat) (s : State) : Result :=
  let k := s.core c
  let h := k.graph
  .next (match s.graph? h, k.shadow with
    | some g, some sh =>
      if g.phase ≠ .committing ∨ g.acked.contains c = true then s
      else match stateUe s c with
        | some u =>
          let l := State.ueLocation u
          s.haltLocation h 0x0AE l.2.1 l.2.2.1 l.2.2.2.1
        | none =>
          let s1 := (swapCore s c sh).modGraph h fun g => { g with acked := c :: g.acked }
          if g.cores.all fun x => x.2 == c || g.acked.contains x.2 then startGraph s1 h else s1
    | _, _ => s)

end Sys2Proof.Machine
end

