-- ==== Sys2Proof/Machine/Control.lean ====
section
/-! DEFINITION. Statistics, cuts, breakpoints, freezes, grants and quotes at issue: STATS, CUTM, TKBP, FRZ, THAW, PWRQ, QUOTE
(R110 to R112, R381 to R386). -/

namespace Sys2Proof.Machine

/-! ### STATS (R285, R381) -/

/-- A saturating 32-bit count. -/
def sat32 (n : Nat) : Nat := min n 0xFFFFFFFF

/-- The 48-byte activity record of element e from its unsaturated counts (R285). -/
def activityRecord (actid e : Nat) (cs : List Nat) : List Byte :=
  leBytes 4 (e % 256 + actid % 2 ^ 16 * 256) ++ ((List.range 9).map fun i => leBytes 4 (sat32 (cs.getD i 0))).flatten
    ++ leBytes 8 (cs.foldl (· + ·) 0)

/-- The counts of an element after an advance by nine free values (log entry 11). -/
def advanceActivity (fresh : Nat) (old : List Nat) : List Nat :=
  (List.range 9).map fun i => old.getD i 0 + Config.freeValue (fresh + i)

/-- STATS (R381): the counters, advanced by the cycles this model does not count, are sampled and written at x; DBG.14 for
the first to saturate in its interval. -/
def execStats (a : Reg) (s : State) : Result :=
  let x := (s.reg a).toNat
  command (fun s => [operandFault x 6144 16, failIf (decide (s.cur.mode = .u) && s.cur.inCode x 6144) 0x027]) 0 s fun s =>
    let c := s.turn
    let es := (List.range 128).filter fun e => !(Config.fusedElem c e)
    let old := s.cur.grid.activity
    let new : NMap (List Nat) := es.map fun e => (e, advanceActivity (s.fresh + 9 * e) (NMap.getD [] old e))
    let actid := s.cur.grid.act.blockid
    let recs := (List.range 128).map fun e =>
      match NMap.find new e with
      | some cs => activityRecord actid e cs
      | none => leBytes 4 e ++ List.replicate 44 0
    let top := fun (cs : List Nat) => cs.any fun n => decide (0xFFFFFFFF ≤ n)
    let first := new.any fun (e, cs) => top cs && !(top (NMap.getD [] old e))
    let s1 := { s.modGrid c fun g => { g with activity := new } with fresh := s.fresh + 1152 }
    let s2 := if first then s1.notifyGraph s.cur.graph { cause := 0x17E, core := coreName c } else s1
    finish0 ((keepCode s2 x 6144).setTile c x recs.flatten)

/-! ### Cuts (R282, R382) -/

/-- A handle's graph. -/
def handleGraph (s : State) (x : Word) : Option Graph := if fld x 63 32 = 0 then s.graph? x.toNat else none

/-- CUTM.start (R382): SYNC.13 for a non-zero handle in U mode, another context's graph, the supervisor or a graph not
running; then the cut starts. -/
def execCutmStart (a : Reg) (s : State) : Result :=
  let x := s.reg a
  let own := decide (x = 0)
  let h := if own then s.cur.graph else x.toNat
  let ok := fun (s : State) =>
    !(decide (s.cur.mode = .u) && !own) && match (if own then s.graph? h else handleGraph s x) with
      | none => false
      | some g => decide (some (h / 2 ^ 28) = s.ctxOf s.turn) && !g.supervisor && decide (g.phase = .running)
  command (fun s => [failIf (!(ok s)) 0x13D]) 0 s fun s =>
    let at' := if h = s.cur.graph then s.turn else ((s.coresOf h).head?).getD s.turn
    .next ((s.advance 4).startCut h at')

/-- CUTM.rel (R382): SYNC.13 unless the graph is one of the context and cut; then the cut is released. -/
def execCutmRel (a : Reg) (s : State) : Result :=
  privileged supervisorOnly s fun s =>
    let x := s.reg a
    let ok := fun (s : State) => match handleGraph s x with
      | none => false
      | some g => decide (some (x.toNat / 2 ^ 28) = s.ctxOf s.turn) && g.cutSince.isSome
    command (fun s => [failIf (!(ok s)) 0x13D]) 0 s fun s => .next ((s.advance 4).releaseCut x.toNat)

/-! ### Breakpoints (R281, R383) -/

/-- The core a link word names. -/
def linkCore (x : Word) : Nat := fld x 27 24 * 192 + fld x 23 16

/-- The named core lies outside the context's partition or holds no graph: SYNC.14. -/
def linkCoreBad (s : State) (x : Word) : Bool :=
  decide (11 < fld x 27 24 ∨ 191 < fld x 23 16) || decide (s.ctxOf (linkCore x) ≠ s.ctxOf s.turn)
    || (s.core (linkCore x)).graph == 0

/-- The breakpoint of a link word and an ordinal. -/
def breakOf (x y : Word) : Break :=
  if bitAt x 15 then { elem := true, sub := fld x 9 8, link := fld x 6 0, ordinal := fld y 47 0 }
  else { elem := false, sub := fld x 10 8, link := fld x 4 0, ordinal := fld y 47 0 }

/-- The link of a breakpoint is part of the active configuration of a core: an element's linked slot, or a port that a window
serves. -/
def linkActive (s : State) (c : Nat) (b : Break) : Bool :=
  let g := (s.core c).grid
  if b.elem then
    g.act.valid && (List.range g.act.words.length).any fun i =>
      g.act.place.getD i 0xFF == b.link && (linkedSlots (g.act.words.getD i 0)).contains b.sub
  else (portDesc s c b.sub b.link).isSome

/-- The zero bits of a link word and an ordinal (R383). -/
def linkReserved (x y : Word) : Bool :=
  fld x 63 28 != 0 || fld x 14 11 != 0 || bitAt x 7 || fld y 63 48 != 0
    || (if bitAt x 15 then bitAt x 10 else fld x 6 5 != 0)

/-- TKBP (R383): SYNC.0, SYNC.14, DBG.5, DBG.4, then the breakpoint is armed. -/
def execTkbp (a b : Reg) (s : State) : Result :=
  privileged supervisorOnly s fun s =>
    let x := s.reg a
    let y := s.reg b
    let c := linkCore x
    command (fun s => [failIf (linkReserved x y) 0x130, failIf (linkCoreBad s x) 0x13E,
        failIf (!(linkActive s c (breakOf x y))) 0x175, failIf (decide (4 ≤ (s.core c).breaks.length)) 0x174]) 0 s fun s =>
      finish0 (s.modCore c fun k => { k with breaks := k.breaks ++ [breakOf x y] })

/-- TKBP.clr (R383). -/
def execTkbpClr (a : Reg) (s : State) : Result :=
  privileged supervisorOnly s fun s =>
    let x := s.reg a
    command (fun s => [failIf (fld x 63 28 != 0) 0x130, failIf (linkCoreBad s x) 0x13E]) 0 s fun s =>
      finish0 (s.modCore (linkCore x) fun k => { k with breaks := [] })

/-! ### Freezes (R169, R384, R385) -/

/-- SCHED.14 (R169): the handle is of another context, or names the supervisor graph. -/
def freezeDenied (s : State) (h : Nat) : Bool :=
  match s.ctxOf s.turn with
  | none => true
  | some x => h / 2 ^ 28 != x || match NMap.find s.ctxs x with
    | none => true
    | some k => k.supHandle == h

/-- The checks of FRZ and THAW (R384, R385). -/
def freezeFaults (s : State) (x : Word) (q : QNum) : List (Option Nat) :=
  [failIf (fld x 63 32 != 0) 0x130, failIf (s.cur.entry q.toNat).busy 0x015, failIf (freezeDenied s x.toNat) 0x14E]

/-- FRZ (R384): a freeze request of origin 2; the entry completes with SYNC.13 at once when there is nothing to freeze. -/
def execFrz (a : Reg) (q : QNum) (s : State) : Result :=
  privileged supervisorOnly s fun s =>
    let x := s.reg a
    let h := x.toNat
    command (fun s => freezeFaults s x q) 0 s fun s =>
      let c := s.turn
      let s1 := (takeEntry s q.toNat (commandEntry s .freeze false x 0)).advance 4
      let s2 := s1.requestFreeze h 2
      .next (match (s1.graph? h).map Graph.phase with
        | some .running => s2.modGraph h fun g => { g with waiters := g.waiters ++ [(c, q.toNat)] }
        | some .committing => s2.modGraph h fun g => { g with waiters := g.waiters ++ [(c, q.toNat)] }
        | some .freezing => s2.modGraph h fun g => { g with waiters := g.waiters ++ [(c, q.toNat)] }
        | _ => s2.completeEntry c q.toNat 0x13D 0)

/-- THAW (R385): a held graph that its supervisor froze (origin 2) is queued again; SYNC.13 for any other. -/
def execThaw (a : Reg) (q : QNum) (s : State) : Result :=
  privileged supervisorOnly s fun s =>
    let x := s.reg a
    let h := x.toNat
    command (fun s => freezeFaults s x q) 0 s fun s =>
      let c := s.turn
      let s1 := (takeEntry s q.toNat (commandEntry s .thaw false x 0)).advance 4
      let ok : Bool := match s1.graph? h with
        | none => false
        | some g => g.held && decide (g.phase = .frozen) && decide (g.origin = 2)
      .next (if ok then (s1.modGraph h fun g => { g with held := false }).completeEntry c q.toNat 0 0
        else s1.completeEntry c q.toNat 0x13D 0)

/-! ### Grants (R36, R386) -/

/-- PWRQ in U or S mode reaches only islands of the context's cards and quadrants, and 60 to 63: else PWR.6. -/
def islandDenied (s : State) (i : Nat) : Bool :=
  decide (s.cur.mode ≠ .m) && decide (i < 60) && match (s.ctxOf s.turn).bind (NMap.find s.ctxs) with
    | none => true
    | some k =>
      let card := i / 5
      if i % 5 = 4 then bitsOf k.qmask (4 * card + 3) (4 * card) == 0 else !(k.qmask.testBit (4 * card + i % 5))

/-- PWRQ (R386). -/
def execPwrq (d a : Reg) (s : State) : Result :=
  let x := s.reg a
  let i := fld x 5 0
  command (fun s => [failIf (fld x 63 6 != 0) 0x130, failIf (islandDenied s i) 0x156]) 0 s fun s =>
    let valid := s.graphs.any fun (_, g) => g.grant.islands.any fun n => n.1 == i
    let here := (s.coresOf s.cur.graph).any fun c => State.islandOf c == i
    let plim := match s.graph? s.cur.graph with | none => 0 | some g => if here && valid then g.grant.plim else 0
    finish s d (s.grantWord i plim 0 valid)

/-! ### Quotes (R110 to R112) -/

/-- A request reaches the security block: with eight pending it is busy, and the entry completes with status 1. Those that have been
dropped count until they reach the head (R108; log entry 75, DESIGN CHOICE). -/
def sendQuote (r : SecReq) (s : State) : State :=
  if 8 ≤ s.sec.pending.length then s.completeEntry r.core r.q 0 1
  else { s with sec := { s.sec with pending := s.sec.pending ++ [r] } }

/-- QUOTE (R110, R111): CPX.0, CPX.5, the addresses; the nonce is read at issue. On a core that no context owns CTX is 0
(R107; log entry 50, DESIGN CHOICE). -/
def execQuote (a b : Reg) (q : QNum) (s : State) : Result :=
  privileged supervisorOnly s fun s =>
    let x := s.reg a
    let y := s.reg b
    command (fun s => [failIf (s.cur.entry q.toNat).busy 0x015, operandFault x.toNat 32 32, operandFault y.toNat 752 16]) 0 s
      fun s => withOperand x.toNat 32 s fun bs s =>
        let r : SecReq := { core := s.turn, q := q.toNat, ext := false, bytes := bs, slot := 0, buf := y.toNat
                            ctx := (s.ctxOf s.turn).getD 0 }
        .next (sendQuote r ((takeEntry s q.toNat (commandEntry s .quote false x y)).advance 4))

/-- QUOTE.ext (R110, R111): M mode only; the digest is read at issue. -/
def execQuoteExt (a b : Reg) (q : QNum) (s : State) : Result :=
  privileged (fun md => decide (md = .m)) s fun s =>
    let x := s.reg a
    let y := s.reg b
    command (fun s => [failIf (s.cur.entry q.toNat).busy 0x015, operandFault x.toNat 32 32]) 0 s
      fun s => withOperand x.toNat 32 s fun bs s =>
        let r : SecReq := { core := s.turn, q := q.toNat, ext := true, bytes := bs, slot := y, buf := 0
                            ctx := (s.ctxOf s.turn).getD 0 }
        .next (sendQuote r ((takeEntry s q.toNat (commandEntry s .quoteExt false x y)).advance 4))

end Sys2Proof.Machine
end

