-- ==== Sys2Proof/Machine/Convert.lean ====
section
/-! DEFINITION. Conversion elements: CVT, QBLK, DQBLK, TOSD, FROMSD, BPLN (R405, R406). -/

namespace Sys2Proof.Machine

/-- The source type of a conversion, IMM[4:0] (R405). -/
def srcType (b : Blk) : Nat := bitsOf (bMod b) 4 0

/-- A conversion fires (R405): the token decoded exactly, 64 values, each rounded into TCODE; the word of a draw for every
element under SR. -/
def cvtFire (b : Blk) (u : Nat) (x : Site) (items : List Item) (s : State) : State :=
  let t := eType b
  let bs := itemBytes (items.headD (.data []))
  match decodeToken u bs with
  | .error f => tokenHalt s x 0 f
  | .ok vs =>
    if nanScaled u bs && lacksNan t && !(bStat b) then tokenHalt s x 0 0x0FC
    else
      let zero := Val.num false 0 1
      let all := (List.range 64).map fun l => vs.getD l zero
      match srWords s x.c b 16 with
      | .error f => tokenHalt (drawsMade s x.c (bSrs b) 16) x 0 f
      | .ok (us, s1) =>
        let r := encodeToken t (bRm b) us all
        emit (addStats s1 x r.2) x b [.data r.1]

/-- CVT (R405). -/
def execCvt (b : Blk) (s : State) : Result := reactAll b 0x140 (bStat b) (cvtFire b (srcType b)) s
/-- QBLK (R405, R247). -/
def execQblk (b : Blk) (s : State) : Result := reactAll b 0x141 (bStat b) (cvtFire b (srcType b)) s
/-- DQBLK (R405, R237): with STAT 0 a NaN-scaled block into a format without NaN raises FMT.12. -/
def execDqblk (b : Blk) (s : State) : Result := reactAll b 0x142 (bStat b) (cvtFire b (srcType b)) s
/-- TOSD (R405, R240). -/
def execTosd (b : Blk) (s : State) : Result := reactAll b 0x143 (bStat b) (cvtFire b (srcType b)) s
/-- FROMSD (R405, R240): lanes from n on are +0. -/
def execFromsd (b : Blk) (s : State) : Result := reactAll b 0x144 (bStat b) (cvtFire b 0x1B) s

/-- The p-plane numbers of a token of type 0x00 to 0x0B, with counts (R406): BIN1 bits unchanged. -/
def planeNumbers (t p : Nat) (bs : List Byte) : Except Nat (List (Nat × List Nat)) :=
  if t = 0x0B then .ok ((tokenFields t bs).map fun x => (x, noCount))
  else match decodeToken t bs with
    | .error f => .error f
    | .ok vs => .ok (vs.map fun v => let r := planeInt t p v; (wrapN p r.1, r.2))

/-- BPLN fires (R406): p plane tokens, the highest plane first. -/
def bplnFire (b : Blk) (x : Site) (items : List Item) (s : State) : State :=
  let p := bitsOf (bMod b) 4 0
  match planeNumbers (eType b) p (itemBytes (items.headD (.data []))) with
  | .error f => tokenHalt s x 0 f
  | .ok ns =>
    let plane := fun (j : Nat) => Item.data (packBits 1 (ns.map fun n => n.1 / 2 ^ j % 2))
    emit (addStats s x (sumCounts (ns.map Prod.snd))) x b (((List.range p).reverse).map plane)

/-- BPLN (R406). -/
def execBpln (b : Blk) (s : State) : Result := reactAll b 0x145 (bStat b) (bplnFire b) s

end Sys2Proof.Machine
end

