-- ==== Sys2Proof/Machine/Slots.lean ====
section
/-! DEFINITION. A slot as it crosses the deck bus: the 1,024-bit header, the check of the data bytes, the destination layers
(R41 to R44, R49 to R51, R56). -/

namespace Sys2Proof.Machine

/-! ### The header (R43) -/

/-- One step of the CRC-32C shift register, low bit first. -/
def crcBit (c : Nat) : Nat := if c % 2 = 1 then (c / 2) ^^^ 0x82F63B78 else c / 2

/-- The CRC-32C of a byte string: the Castagnoli polynomial in its usual form, low bit first, all ones before and inverted
after. -/
def crc32c (bs : List Byte) : Nat :=
  (bs.foldl (fun (c : Nat) (b : Byte) => Nat.repeat crcBit 8 (c ^^^ b.toNat)) 0xFFFFFFFF) ^^^ 0xFFFFFFFF

/-- Bits 1023 to 64 of the header of a slot with its data bytes, as a number: bit 64 of the header is its bit 0 (R43). -/
def SlotHead.upper (h : SlotHead) (bs : List Byte) : Nat :=
  h.dmask * 2 ^ 947 + h.kind * 2 ^ 944 + h.sender * 2 ^ 940 + h.ctx * 2 ^ 936 + h.fseq * 2 ^ 888 + h.slot * 2 ^ 879
    + h.suit * 2 ^ 877 + h.stream * 2 ^ 861 + h.waddr * 2 ^ 841 + h.bcount * 2 ^ 828 + h.ordinal % 2 ^ 32 * 2 ^ 796
    + h.aop * 2 ^ 792 + h.asize * 2 ^ 790 + h.issuer * 2 ^ 782 + h.atag * 2 ^ 774 + crc32c bs * 2 ^ 742
    + h.ordinal / 2 ^ 32 % 2 ^ 16 * 2 ^ 726

/-- The header of a slot: its fields, and HECC over them (R43). -/
def SlotHead.bits (h : SlotHead) (bs : List Byte) : Nat :=
  h.upper bs * 2 ^ 64 + (Config.slotCode (h.upper bs)).toNat

/-- Beat b of a slot: 256 data bytes, and 64 header bits (R42). -/
def SlotSent.beat (x : SlotSent) (b : Nat) : List Byte × Nat :=
  ((x.bytes.drop (256 * b)).take 256, bitsOf x.header (1023 - 64 * b) (960 - 64 * b))

/-- Every layer of the package (R63). -/
def allLayers : Nat := 2 ^ 13 - 1

/-- The destination mask of layers. -/
def layerMask (ls : List Nat) : Nat := (ls.eraseDups.map fun l => 2 ^ l).sum

/-! ### Sending (R41, R64) -/

/-- The place of a slot in its frame: by slot, then suit. -/
def slotPlace (suit slot : Nat) : Nat := 4 * slot + suit

/-- A slot with its header and bytes is on a suit. -/
def onWire (s : State) (h : SlotHead) (bs : List Byte) : State :=
  let h1 := { h with fseq := s.deck.frame, bcount := bs.length }
  { s with deck := { s.deck with wire := NMap.put s.deck.wire h.suit { header := h1.bits bs, bytes := bs } } }

/-- The last slot of a suit that passes from the present place of the frame to before another. -/
def lastSlot (pos place suit : Nat) : Option Nat :=
  if suit < place ∧ pos ≤ 4 * ((place - 1 - suit) / 4) + suit then some ((place - 1 - suit) / 4) else none

/-- The slots up to a place pass with nothing sent in them: KIND 0, every field but FSEQ, SLOT, SUIT and HECC zero (R44, R45,
R49). -/
def idleTo (s : State) (place : Nat) : State :=
  (List.range 4).foldl (fun (t : State) (suit : Nat) => match lastSlot s.deck.slotPos place suit with
    | none => t
    | some slot => onWire t { slot := slot, suit := suit } []) s

/-- A slot passes, after the idle ones before it. -/
def passSlot (s : State) (suit slot : Nat) : State :=
  let s1 := idleTo s (slotPlace suit slot)
  { s1 with deck := { s1.deck with slotPos := slotPlace suit slot + 1 } }

/-- A slot passes with nothing sent in it. -/
def idleSlot (s : State) (suit slot : Nat) : State :=
  let s1 := idleTo s (slotPlace suit slot + 1)
  { s1 with deck := { s1.deck with slotPos := slotPlace suit slot + 1 } }

/-- A layer receives the present slot with an error (R64). -/
def isStruck (s : State) (l : Nat) : Bool := (NMap.find s.deck.struck l).isSome

/-- The errors of the present slot have their consequences, and are past. -/
def slotErrors (lose : State → Nat → Nat → State) (s : State) : State :=
  s.deck.struck.foldl (fun (s : State) (x : Nat × Nat) => lose s x.1 x.2) { s with deck := { s.deck with struck := [] } }

/-- The data bytes of a deck atomic's slot: operand and compare value (R56). -/
def DeckOp.slotBytes (o : DeckOp) : List Byte :=
  if o.atomic then leBytes 8 (ofLe o.bytes) ++ leBytes 8 o.cmp else o.bytes

/-- The header of a window operation's slot (R43, R63). -/
def DeckOp.head (o : DeckOp) (suit slot : Nat) : SlotHead :=
  { dmask := allLayers, kind := if o.atomic then 3 else 2, sender := o.card, ctx := o.ctx, slot := slot, suit := suit
    waddr := o.off, aop := if o.atomic then o.aop else 0, asize := if o.atomic && o.double then 1 else 0
    issuer := o.index, atag := if o.atomic then o.q else 0 }

end Sys2Proof.Machine
end

