-- ==== Sys2Proof/Machine/Deck.lean ====
section
/-! DEFINITION. The deck bus: its slots, the deck window's replicas, the hub, sleep and wake (R41 to R64). -/

namespace Sys2Proof.Machine

/-! ### Slots and their order (R41, R45) -/

/-- A slot of the current frame has not passed. -/
def slotAhead (s : State) (suit slot : Nat) : Bool := decide (suit < 4 ∧ slot < 512 ∧ s.deck.slotPos ≤ slotPlace suit slot)

/-- The calendar entry of a slot. -/
def slotEntry (s : State) (suit slot : Nat) : Word32 := calAt s (512 * suit + slot)

/-- A slot is granted for a class, and belongs to the frame's remainder. -/
def slotFor (s : State) (suit slot kclass : Nat) : Bool :=
  slotAhead s suit slot && bitAt (slotEntry s suit slot) 31 && fld (slotEntry s suit slot) 22 20 == kclass
    && !(slotReserved (512 * suit + slot))

/-- A time on the bus in slots, from cold reset. -/
def slotTime (frame slot : Nat) : Nat := 512 * frame + slot

/-! ### The window's replicas (R52, R55, R56) -/

/-- The operations a layer has received and not applied. -/
def pendingAt (s : State) (l : Nat) : List DeckOp := NMap.getD [] s.deck.pending l

/-- A replica is stale. -/
def isStale (s : State) (l : Nat) : Bool := NMap.getD false s.deck.stale l

/-- A card is asleep. -/
def cardAsleep (s : State) (l : Nat) : Bool := (s.deck.asleep ||| s.fusedAsleep).testBit l

/-- A layer queues the operations of a frame: the hub and every awake card whose replica is not stale, and a card in its
refresh from frame F0 + 1 on (R60, R64). -/
def receives (s : State) (l frame : Nat) : Bool :=
  if l = 12 then true
  else if cardAsleep s l then false
  else if isStale s l then
    match NMap.find s.deck.wakes l with
    | none => false
    | some w => decide (w.f0 < frame) && decide ((pendingAt s l).length < 8192)
  else true

/-- The range of the window that a context owns, as first byte and length (R53). -/
def ctxWindow (k : Ctx) : Nat × Nat := (4096 * k.dkbase, 4096 * k.dksize)

/-- The bytes an operation touches. -/
def opBytes (o : DeckOp) : Nat := if o.atomic then (if o.double then 8 else 4) else o.bytes.length

/-- A WFE of a card's cores wakes when an operation touches their context's range (R343). -/
def wakeCard (s : State) (card off n : Nat) : State :=
  let hit := fun (x : Nat) => match NMap.find s.ctxs x with
    | none => false
    | some k => rangesMeet off n (ctxWindow k).1 (ctxWindow k).2
  { s with cores := s.cores.map fun (c, k) =>
      if c / 192 = card ∧ (match s.ctxOf c with | some x => hit x | none => false) = true then (c, k.wake) else (c, k) }

/-- What an atomic writes, from the old value (R56). -/
def deckNew (o : DeckOp) (old : Nat) : Nat :=
  let v := ofLe o.bytes
  if o.aop = 0 then (old + v) % 2 ^ (8 * opBytes o) else if old = o.cmp then v else old

/-- An operation of a card's core counts as applied at its own replica. -/
def opApplied (s : State) (o : DeckOp) : State := s.modCore (o.card * 192 + o.index) fun k => { k with deckOut := k.deckOut - 1 }

/-- Two operations are one: the same slot carried them. -/
def DeckOp.same (o p : DeckOp) : Bool := o.fseq == p.fseq && o.slot == p.slot && o.suit == p.suit

/-- The hub is to return an old value to an operation's issuer (R56). -/
def hubReturn (s : State) (o : DeckOp) (old : Nat) : State :=
  { s with deck := { s.deck with hub := s.deck.hub ++ [.record o.card o.index o.q old] } }

/-- The old value that the master has computed stands with the operation where its own card has it queued. -/
def noteOld (s : State) (o : DeckOp) (old : Nat) : State :=
  let note := fun (p : DeckOp) => if p.same o then { p with mold := some old } else p
  { s with deck := { s.deck with pending := NMap.put s.deck.pending o.card ((pendingAt s o.card).map note) } }

/-- An operation that its own card queued and will not apply, since a snapshot holds it: the hub returns the old value, now
or when the master applies it (R56). -/
def throughHub (s : State) (o : DeckOp) : State :=
  if !o.atomic then s
  else match o.mold with
    | some old => hubReturn s o old
    | none =>
      let mark := fun (p : DeckOp) => if p.same o then { p with viaHub := true } else p
      { s with deck := { s.deck with pending := NMap.put s.deck.pending 12 ((pendingAt s 12).map mark) } }

/-- A replica applies an operation in one step; the old value goes to the issuer from its own card's replica, or, for an
operation its card did not queue, through the hub (R55, R56). -/
def applyOp (s : State) (l : Nat) (o : DeckOp) : State :=
  let key := replicaBase l + o.off
  let c := o.card * 192 + o.index
  if o.atomic then
    let old := ofLe (s.read key (opBytes o))
    let s1 := s.write key (leBytes (opBytes o) (deckNew o old))
    let s2 := wakeCard s1 l o.off (opBytes o)
    if l = o.card then (opApplied s2 o).completeEntry c o.q 0 old
    else if l = 12 then (if o.viaHub then hubReturn s2 o old else noteOld s2 o old)
    else s2
  else
    let s1 := wakeCard (s.write key o.bytes) l o.off o.bytes.length
    if l = o.card then opApplied s1 o else s1

/-- An uncorrectable error in the master replica (R64): DECK.11 to management, and every graph whose context has a window
range halts with the location. -/
def masterFails (s : State) (u : Nat) : State :=
  let l := State.ueLocation u
  let place := 9 * 2 ^ 44 + 12 * 2 ^ 40 + l.2.2.2.1
  let s1 := s.tellMgmt { cause := 0x10B, detail := place }
  let owns := fun (h : Nat) => match NMap.find s.ctxs (h / 2 ^ 28) with
    | none => false
    | some k => decide (k.dksize ≠ 0)
  (s.graphs.filter fun hg => owns hg.1).foldl (fun s hg => s.haltGraph hg.1 { cause := 0x10B, detail := place, flags := 2 }) s1

/-- A card's replica is lost: it is stale, and its refresh begins with the next round (R60, R62, R64). -/
def roundStart (s : State) : Nat :=
  let f := s.deck.frame
  match s.deck.wakes.find? fun (_, w) => decide (f ≤ w.f0) with
  | some w => w.2.f0
  | none => match s.deck.wakes.find? fun (_, w) => decide (f ≤ w.f0 + 8) with
    | some w => w.2.f0 + 9
    | none => f

/-- A card drops the operations it has queued; its own atomics among them get their values through the hub (R56). -/
def dropQueue (s : State) (l : Nat) : State :=
  let s1 := ((pendingAt s l).filter fun o => o.card == l).foldl throughHub s
  { s1 with deck := { s1.deck with pending := NMap.del s1.deck.pending l } }

/-- A card's replica is marked stale and waits for a refresh; what it had queued stands in the snapshot to come. -/
def beginRefresh (s : State) (l : Nat) : State :=
  let s1 := dropQueue s l
  { s1 with deck := { s1.deck with
      stale := NMap.put s1.deck.stale l true
      wakes := NMap.put s1.deck.wakes l { f0 := roundStart s } } }

/-- The oldest operation of a layer is applied: an atomic that meets an uncorrectable byte fails its replica, and delivers
nothing (R64, R274). -/
def applyHead (s : State) (l : Nat) : State :=
  match pendingAt s l with
  | [] => s
  | o :: rest =>
    let s1 : State := { s with deck := { s.deck with pending := NMap.put s.deck.pending l rest } }
    match (if o.atomic then s.ueAt (replicaBase l + o.off) (opBytes o) else none) with
    | none => applyOp (if o.atomic then s1.correct (replicaBase l + o.off) (opBytes o) else s1) l o
    | some u =>
      if l = 12 then masterFails s1 u
      else
        let s2 := if l = o.card then (opApplied s1 o).completeEntry (o.card * 192 + o.index) o.q 0x161 0 else s1
        beginRefresh (s2.tellMgmt { cause := 0x161, core := l * 256 + o.index, detail := l * 2 ^ 40 + o.off }) l

/-- A replica in its refresh has the whole copy and nothing queued: it is whole again, and its card no longer wakes (R60). -/
def refreshDone (s : State) (l : Nat) : State :=
  match NMap.find s.deck.wakes l with
  | none => s
  | some w =>
    if w.f0 + 8 < s.deck.frame ∧ w.copied = 0x100000 ∧ pendingAt s l = [] then
      let s1 : State := { s with
        deck := { s.deck with
          wakes := NMap.del s.deck.wakes l
          stale := NMap.del s.deck.stale l
          waking := setBits s.deck.waking l l 0 } }
      { s1 with cores := s1.cores.map fun (c, k) => if c / 192 = l then (c, { k with deckOut := 0 }) else (c, k) }
    else s

/-- A layer may apply what it has queued: not while its copy is under way. -/
def mayApply (s : State) (l : Nat) : Bool :=
  match NMap.find s.deck.wakes l with
  | none => true
  | some w => decide (w.f0 + 8 < s.deck.frame) && w.copied == 0x100000

/-- The operations of a layer received more than 64 slot times before a time are applied (R55). -/
def applyOverdue (t : Nat) : Nat → State → Nat → State
  | 0, s, _ => s
  | fuel + 1, s, l =>
    match pendingAt s l with
    | [] => s
    | o :: _ => if slotTime o.fseq o.slot + 64 < t && mayApply s l then applyOverdue t fuel (applyHead s l) l else s

/-- Every replica applies what is overdue at a slot. -/
def settle (s : State) (slot : Nat) : State :=
  (List.range 13).foldl (fun s l =>
    if isStale s l then s else applyOverdue (slotTime s.deck.frame slot) (pendingAt s l).length s l) s

/-- The slot that carried an operation has ended: the four suits' slots of one number pass at the same time (R41, R55). -/
def slotEnded (s : State) (o : DeckOp) : Bool :=
  decide (4 * (slotTime o.fseq o.slot + 1) ≤ 4 * slotTime s.deck.frame 0 + s.deck.slotPos)

/-- REPLICA_APPLY (R55, R60): a layer applies its oldest operation once its slot has ended; the last one of a refresh makes
the replica whole. -/
def execReplicaApply (layer : Nat) (s : State) : Result :=
  .next (if 13 ≤ layer ∨ mayApply s layer = false then s
    else match pendingAt s layer with
      | [] => refreshDone s layer
      | o :: _ =>
        if slotEnded s o then refreshDone (applyHead s layer) layer else s)

/-! ### Errors in received slots (R64) -/

/-- A layer loses a slot of KIND 2, 3 or 6, or a frame: it is reported, and a card's replica is refreshed. -/
def replicaLost (cause : Nat) (s : State) (layer : Nat) : State :=
  let s1 := s.tellMgmt { cause := cause, detail := layer }
  if 12 ≤ layer ∨ cardAsleep s layer = true then s1 else beginRefresh s1 layer

/-- A layer loses a notice's slot: it is reported. -/
def noticeLost (cause : Nat) (s : State) (layer : Nat) : State := s.tellMgmt { cause := cause, detail := layer }

/-- A layer loses a slot of a stream: it is reported, and, if the slot was for the layer, the consumer's graph halts with the
fault, naming the stream and the ordinal of its first token. -/
def streamLost (key graph ord mask cause : Nat) (s : State) (layer : Nat) : State :=
  let n : Notice := { cause := cause, flags := 3, chan := key % 0x10000, detail := ord % 2 ^ 48 }
  if mask.testBit layer then (s.tellMgmt (s.graphNotice graph { n with core := layer * 256 })).haltGraph graph n
  else s.tellMgmt { cause := cause, detail := layer }

/-! ### Window writes and atomics (R49, R55, R56) -/

/-- The oldest operation of the cores of a context on a card, if it is of a kind and its release holds: the core with the
lowest index first (a choice the spec leaves open, log entry 35). -/
def deckHead (s : State) (card x : Nat) (atomic : Bool) : Option (Nat × DeckOp) :=
  ((List.range 192).map fun i => card * 192 + i).findSome? fun c =>
    match (s.core c).deckq with
    | [] => none
    | o :: _ => if o.ctx = x ∧ o.atomic = atomic ∧ releaseHeld s c .deck o.seq false = false then some (c, o) else none

/-- A layer queues an operation of the present slot: it listens, and receives it without an error. -/
def takesOp (s : State) (l : Nat) : Bool := receives s l s.deck.frame && !(isStruck s l)

/-- An operation is sent in a slot: every layer that receives it queues it (R55, R63). -/
def sendOp (s : State) (c suit slot : Nat) (o : DeckOp) : State :=
  let o1 := { o with fseq := s.deck.frame, slot := slot, suit := suit, viaHub := !(takesOp s o.card) }
  let s1 := s.modCore c fun k => { k with deckq := k.deckq.drop 1, deckOut := k.deckOut + 1 }
  let pend := (List.range 13).foldl (fun m l => if takesOp s l then NMap.put m l (pendingAt s l ++ [o1]) else m) s.deck.pending
  { s1 with deck := { s1.deck with pending := pend } }

/-- A slot of the window or a service slot passes with its content; where it arrived with an error, that shows (R64). -/
def endSlot (s : State) (h : SlotHead) (bs : List Byte) : State :=
  let lose := fun (s : State) (l cause : Nat) => if h.kind = 5 then noticeLost cause s l else replicaLost cause s l
  slotErrors lose (onWire s h bs)

/-- A KCLASS 2 slot: the context's oldest operation of a kind on the sending card leaves in it (R49), or, where there is none of
either kind, nothing (R44); one with a reserved AOP is discarded by every layer with DECK.12 (R56). -/
def windowSlot (atomic : Bool) (suit slot : Nat) (s : State) : State :=
  if !(slotFor s suit slot 2) then s
  else
    let w := slotEntry s suit slot
    let s1 := settle s slot
    match deckHead s1 (fld w 30 27) (fld w 26 23) atomic with
    | none =>
      if (deckHead s1 (fld w 30 27) (fld w 26 23) (!atomic)).isSome then s else idleSlot s1 suit slot
    | some (c, o) =>
      let s2 := passSlot s1 suit slot
      let s3 := if o.atomic && decide (2 ≤ o.aop) then
          (s2.modCore c fun k => { k with deckq := k.deckq.drop 1 }).tellMgmt { cause := 0x10C, core := coreName c }
        else sendOp s2 c suit slot o
      endSlot s3 (o.head suit slot) o.slotBytes

/-- WINDOW_WRITE_SLOT (R55). -/
def execWindowWriteSlot (suit slot : Nat) (s : State) : Result := .next (windowSlot false suit slot s)
/-- DECK_ATOMIC_SLOT (R56). -/
def execDeckAtomicSlot (suit slot : Nat) (s : State) : Result := .next (windowSlot true suit slot s)

/-! ### Stream data (R49 to R51, R63) -/

/-- The channel type of a stream's tokens: that of its producer, or of the source port that the host feeds. -/
def streamType (s : State) (st : DeckStream) : Nat :=
  if st.host then ((s.graph? st.graph).map fun g => (portRec g.img st.desc).tcode).getD 0
  else if st.mem then
    match NMap.find s.actors st.core, s.graph? st.graph with
    | some a, some g => ((enginePort g.img a.actor).map PortRec.tcode).getD 0
    | _, _ => 0
  else ((s.core st.core).desc st.desc).tcode

/-- The port record of a host sink that a stream carries, and the egress port bound to it. -/
def streamEgress (s : State) (key : Nat) (st : DeckStream) : Option (Nat × Nat) :=
  match s.graph? st.graph with
  | none => none
  | some g =>
    let j := key % 0x10000 - g.sbase - 1 - nArcs g.img
    if st.host || decide (key % 0x10000 < g.sbase + 1 + nArcs g.img) then none
    else ((s.host.egress.filter fun (_, e) => e.graph == st.graph && e.sink == (portRec g.img j).host).map fun x => (j, x.1)).head?

/-- The name of an egress port among a stream's receivers. -/
def egressRecv (n : Nat) : Nat := 2 ^ 21 + n

/-- The members of the gang that sends on a stream. -/
def streamSenders (s : State) (st : DeckStream) : List Nat := if st.mem || st.host then [] else arcCores s st.core st.desc

/-- The layer that sends on a stream (R49, R51). -/
def streamLayer (st : DeckStream) : Nat := if st.mem || st.host then 12 else st.core / 192

/-- The oldest message of a stream may leave: its turn among the gang's, its release, space at every receiver, and nobody
stopped (R50, R217, R466). -/
def streamHeadReady (s : State) (key : Nat) (st : DeckStream) (m : PtrMsg) : Bool :=
  let free := m.drain || streamFree s key (m.wrptr - 1)
  let mover := st.mem || st.host || (coreMoves (s.core st.core) && !(s.core st.core).cut && !(releaseHeld s st.core (sendScope s st.core st.desc) m.seq false))
  let takers := (streamWindows s key).all fun (c, _) => coreMoves (s.core c) && !(s.core c).cut && (s.core c).power != .waking
  let order : Bool := match st.tokens.find? fun x => !x.drain with
    | some x => !m.drain || decide (m = x)
    | none => true
  let inTurn := (streamWindows s key).all fun (c, i) =>
    match arrivePtr s st c i m.wrptr with
    | none => true
    | some p => m.drain || decide (p = ((s.core c).desc i).wr.toNat + 1)
  free && mover && takers && order && inTurn

/-- The ordinal that a message of a stream has, or the drain token the next. -/
def streamOrd (s : State) (st : DeckStream) (m : PtrMsg) : Nat :=
  (if m.drain then m.wrptr else m.wrptr - 1) - senderAnte s st

/-- A message of a stream reaches an input window: not one of a card that sleeps (R63), nor one that receives the slot with an
error (R64). -/
def streamLand (key : Nat) (st : DeckStream) (m : PtrMsg) (s : State) (w : Nat × Nat) : State :=
  let t := streamType s st
  if cardAsleep s (w.1 / 192) then
    { s with deck := { s.deck with asleepHits := s.deck.asleepHits ++ [(st.core, key, streamOrd s st m)] } }
  else if isStruck s (w.1 / 192) then s
  else if m.drain then landDrain s w.1 w.2
  else match arrivePtr s st w.1 w.2 m.wrptr with
    | none => s
    | some p => landToken s w.1 w.2 t { m with desc := w.2, wrptr := p }

/-- A message of a stream reaches a memory sink: converted to its port's type, it joins what the sink holds (R114, R455). -/
def sinkTake (st : DeckStream) (m : PtrMsg) (s : State) (x : Nat × MemActor) : State :=
  let n := x.1
  let a := x.2
  if isStruck s 12 then s
  else if m.drain then abandonSwitch (setActor s n { a with drainIn := true }) a.graph
  else
    let u := match s.graph? a.graph with
      | none => 0
      | some g => ((enginePort g.img a.actor).map PortRec.tcode).getD 0
    match convert (streamType s st) u m.bytes with
    | .ok (bs, cs) =>
      let r := tokenCounts a.counts cs m.marks
      statNotice (setActor s n { a with window := a.window ++ [bs], counts := r.1 }) a.graph (coreName (engineCore (n % 64))) 0 r.2
    | .error f => memHalt s n a 0xFFFFFFFF f

/-- A message of a stream reaches the egress port of its host sink. -/
def egressTake (key : Nat) (st : DeckStream) (m : PtrMsg) (s : State) : State :=
  match streamEgress s key st with
  | none => s
  | some (_, n) =>
    if isStruck s 12 then s else
    let e : Egress := NMap.getD {} s.host.egress n
    let item : Item := if m.drain then .ctl 0 else .data m.bytes
    { s with host := { s.host with egress := NMap.put s.host.egress n { e with records := e.records ++ [item] } } }

/-- The drain token of a stream counts when every member of a sending gang has sent its own. -/
def drainCounts (s : State) (st : DeckStream) : Bool :=
  (streamSenders s st).length ≤ 1 || (matesOf s st.core (portOfDesc s st.core st.desc).1).all fun c =>
    ((s.core c).port (portOfDesc s st.core st.desc).1 (portOfDesc s st.core st.desc).2).drained

/-- The messages of a stream that fit one slot leave: whole tokens of at most 4,096 bytes (R44). -/
def streamSend (key : Nat) : Nat → Nat → State → State
  | 0, _, s => s
  | fuel + 1, room, s =>
    let st : DeckStream := NMap.getD {} s.streams key
    match st.tokens with
    | [] => s
    | m :: rest =>
      if room < m.bytes.length || !(streamHeadReady s key st m) then s
      else
        let s1 : State := { s with streams := NMap.put s.streams key { st with tokens := rest } }
        if m.drain && !(drainCounts s st && rest.isEmpty) then s1
        else
          let s2 := (streamWindows s1 key).foldl (streamLand key st m) s1
          let s3 := (streamSinks s2 key).foldl (sinkTake st m) s2
          streamSend key fuel (room - m.bytes.length) (egressTake key st m s3)

/-- The layers that a stream's slots are for: the cards of its windows, and the base die for memory sinks and egress ports
(R51). -/
def streamMask (s : State) (key : Nat) (st : DeckStream) : Nat :=
  let cards := (streamWindows s key).map fun w => w.1 / 192
  let base := if (streamSinks s key).isEmpty && (streamEgress s key st).isNone then [] else [12]
  layerMask (cards ++ base)

/-- The slot of a stream with the messages it carried. -/
def streamWire (s : State) (key suit slot : Nat) (st : DeckStream) (ms : List PtrMsg) : SlotHead × List Byte :=
  ({ dmask := streamMask s key st, kind := if st.mem then 4 else 1, sender := streamLayer st, ctx := key / 0x10000
     slot := slot, suit := suit, stream := key % 0x10000, ordinal := (ms.head?.map (streamOrd s st)).getD 0 },
   (ms.map PtrMsg.bytes).flatten)

/-- What a stream's slot sends, its slot on the wire, and what layers lost of it (R41, R49, R64). -/
def streamCarry (key suit slot : Nat) (s : State) : State :=
  let st : DeckStream := NMap.getD {} s.streams key
  let s1 := streamSend key (st.tokens.length + 1) 4096 s
  let left : DeckStream := NMap.getD {} s1.streams key
  let ms := st.tokens.take (st.tokens.length - left.tokens.length)
  if ms = [] then idleSlot s1 suit slot
  else
    let w := streamWire s key suit slot st ms
    slotErrors (fun (s : State) (l cause : Nat) => streamLost key st.graph w.1.ordinal w.1.dmask cause s l)
      (onWire (passSlot s1 suit slot) w.1 w.2)

/-- A stream slot of a class: its layer's tokens of the entry's stream, the graph neither cut nor halted; a granted slot with
nothing to send in it is idle (R44, R49). -/
def streamSlot (kclass suit slot : Nat) (s : State) : State :=
  if !(slotFor s suit slot kclass) then s
  else
    let w := slotEntry s suit slot
    let key := ctxStream (fld w 26 23) (fld w 15 0)
    let st : DeckStream := NMap.getD {} s.streams key
    let runs : Bool := match s.graph? st.graph with
      | none => false
      | some g => decide (g.phase = .running) && g.cutSince.isNone
    if st.mem != (kclass == 4) || streamLayer st != fld w 30 27 || !runs then idleSlot (settle s slot) suit slot
    else streamCarry key suit slot (settle s slot)

/-- STREAM_DATA_SLOT (R49). -/
def execStreamDataSlot (suit slot : Nat) (s : State) : Result := .next (streamSlot 1 suit slot s)
/-- MEMORY_ACTOR_RESPONSE_SLOT (R51). -/
def execMemoryActorResponseSlot (suit slot : Nat) (s : State) : Result := .next (streamSlot 4 suit slot s)

/-! ### Credits (R47, R50) -/

/-- The pointers that a stream's receivers have sent, as the sender counts: those of windows that take every token, of memory
sinks, of the egress port. -/
def sentPointers (s : State) (key : Nat) (st : DeckStream) : List Nat :=
  let ante := senderAnte s st
  let wins := ((streamWindows s key).filter fun (c, i) => (shareAt s c i).size == 1).map fun (c, i) =>
    NMap.getD 0 st.acks (winRecv c i) + ante - arcAnte s c i
  let mems := (streamSinks s key).map fun (n, a) => NMap.getD 0 st.acks (memRecv n) + ante - a.ante
  let outs := match streamEgress s key st with
    | none => []
    | some (_, n) => [NMap.getD 0 st.acks (egressRecv n) + ante]
  wins ++ mems ++ outs

/-- The output descriptors that send on a stream. -/
def streamDescs (s : State) (key : Nat) : List (Nat × Nat) :=
  (s.cores.map fun (c, k) =>
    if streamKey s c (key % 0x10000) = key then
      (k.descs.filter fun (_, d) => d.valid && d.isOut && (d.pkind == 1 || d.pkind == 3) && d.stream == key % 0x10000).map
        fun (i, _) => (c, i)
    else []).flatten

/-- The senders of a stream see the least of its receivers' pointers. -/
def spreadCredit (s : State) (key : Nat) : State :=
  let st : DeckStream := NMap.getD {} s.streams key
  match minOf (sentPointers s key st) with
  | none => s
  | some r => (streamDescs s key).foldl (fun s x => s.modCore x.1 fun k =>
      { k with descs := NMap.put k.descs x.2 { k.desc x.2 with rd := BitVec.ofNat 64 (max r (k.desc x.2).rd.toNat) } }) s

/-- A receiver's pointer is known at a stream's sender. -/
def setAck (s : State) (key r p : Nat) : State :=
  match NMap.find s.streams key with
  | none => s
  | some st => spreadCredit { s with streams := NMap.put s.streams key { st with acks := NMap.put st.acks r p } } key

/-- One credit record of a card: DECK.14 for a stream its sender does not know (R64); a sender that received the slot with an
error learns nothing. -/
def creditRecord (s : State) (x : Nat × Nat × Mirror) : State :=
  let c := x.1
  let i := x.2.1
  let key := streamKey s c ((s.core c).desc i).stream
  let s1 := s.modCore c fun k => { k with mirrors := k.mirrors.erase x.2.2 }
  match NMap.find s.streams key with
  | none => s1.tellMgmt { cause := 0x10E, core := coreName c, chan := ((s.core c).desc i).stream }
  | some st => if isStruck s (streamLayer st) then s1 else setAck s1 key (winRecv c i) x.2.2.rd

/-- No sender of a stream is stopped: its mirrored pointers may move (R126, R170, R282). -/
def sendersMove (s : State) (key : Nat) : Bool := (streamDescs s key).all fun x => coreMoves (s.core x.1) && !(s.core x.1).cut

/-- The changed pointers of a card's stream windows, at most 256; one waits while reads of the tokens it frees are not done
(R218), or a sender of the stream is stopped. -/
def creditsOf (s : State) (card : Nat) : List (Nat × Nat × Mirror) :=
  let of := fun (x : Nat × Core) =>
    if x.1 / 192 = card ∧ coreMoves x.2 = true then
      (x.2.mirrors.filter fun m => let d := x.2.desc m.desc; (d.pkind == 1 || d.pkind == 3) && !(readsHeld s x.1 m.seq)
          && sendersMove s (streamKey s x.1 d.stream)).map
        fun m => (x.1, m.desc, m)
    else []
  ((s.cores.map of).flatten).take 256

/-- The hub's changed pointers, at most 256: what memory sinks have written and egress ports have put into their rings, as
stream, receiver and pointer; of streams whose senders are not stopped (R126). -/
def hubCredits (s : State) : List (Nat × Nat × Nat) :=
  let mems := (s.actors.filter fun (_, a) => a.sink).map fun (n, a) => (ctxStream (a.graph / 2 ^ 28) a.stream, memRecv n, a.f)
  let outs := s.streams.filterMap fun (key, st) =>
    (streamEgress s key st).map fun x => (key, egressRecv x.2, (NMap.getD ({} : Egress) s.host.egress x.2).ords)
  let changed := fun (x : Nat × Nat × Nat) => ackOf (NMap.getD ({} : DeckStream) s.streams x.1) x.2.1 != x.2.2
  ((mems ++ outs).filter fun x => changed x && sendersMove s x.1).take 256

/-- One credit record of the hub. -/
def hubCredit (s : State) (x : Nat × Nat × Nat) : State :=
  if isStruck s (streamLayer (NMap.getD ({} : DeckStream) s.streams x.1)) then s else setAck s x.1 x.2.1 x.2.2

/-- The bytes of credit records: stream and context, and pointer (R47). -/
def creditBytes (rs : List (Nat × Nat)) : List Byte :=
  (rs.map fun r => (List.range 16).map (Config.creditByte (r.1 % 0x10000) (r.1 / 0x10000) r.2)).flatten

/-- A credit slot's header; it goes to every layer. -/
def creditHead (layer slot : Nat) : SlotHead := { dmask := allLayers, kind := 6, sender := layer, slot := slot, suit := 3 }

/-- CREDIT_SLOT (R47, R50): a layer's next credit slot of the frame carries its changed pointers. -/
def execCreditSlot (layer : Nat) (s : State) : Result :=
  let slot := if slotAhead s 3 (448 + 2 * layer) then 448 + 2 * layer else 449 + 2 * layer
  .next (if 13 ≤ layer || !(slotAhead s 3 slot) || (decide (layer < 12) && cardAsleep s layer) then s
    else
      let s1 := passSlot (settle s slot) 3 slot
      if layer = 12 then
        endSlot ((hubCredits s1).foldl hubCredit s1) (creditHead 12 slot) (creditBytes ((hubCredits s1).map fun x => (x.1, x.2.2)))
      else
        let rs := creditsOf s1 layer
        endSlot (rs.foldl creditRecord s1) (creditHead layer slot)
          (creditBytes (rs.map fun x => (streamKey s1 x.1 ((s1.core x.1).desc x.2.1).stream, x.2.2.rd))))

/-! ### Service slots (R47, R56, R60) -/

/-- A copy round is in progress: the service slots carry only the copy. -/
def roundActive (s : State) : Bool := s.deck.wakes.any fun (_, w) => decide (w.f0 < s.deck.frame ∧ s.deck.frame ≤ w.f0 + 8)

/-- A service slot of suit 3, ahead in the frame. -/
def serviceSlot (s : State) (slot : Nat) : Bool := decide (480 ≤ slot) && slotAhead s 3 slot

/-- A notice's slot to a card: its STREAM field, the notice kind, is the cause (log entry 61). -/
def noticeHead (x card slot cause : Nat) : SlotHead :=
  { dmask := 2 ^ card, kind := 5, sender := 12, ctx := x, slot := slot, suit := 3, stream := cause }

/-- A notice of a context has crossed the deck, or is lost on its way (R64). -/
def notCrossed (s : State) (x card : Nat) : State :=
  s.modCtx x fun k => if isStruck s card then { k with notices := k.notices.eraseIdx k.sent } else { k with sent := k.sent + 1 }

/-- A card's copy round is still to come or in progress: its return records wait for its end (R56). -/
def roundAwaited (s : State) (card : Nat) : Bool :=
  match NMap.find s.deck.wakes card with
  | none => false
  | some w => decide (s.deck.frame ≤ w.f0 + 8)

/-- An item of the hub may leave: a record, after the round that includes its operation; notices do not wait for it (R56, R60). -/
def hubMay (s : State) : HubItem → Bool
  | .record card _ _ _ => !(roundAwaited s card)
  | .notice _ => true

/-- NOTICE_SLOT (R44, R60): the hub's oldest item that may leave, a notice, crosses the deck to its supervisor's card. -/
def execNoticeSlot (slot : Nat) (s : State) : Result :=
  .next (if !(serviceSlot s slot) || roundActive s then s
    else match s.deck.hub.find? (hubMay s) with
      | some (.notice x) =>
        let rest := s.deck.hub.eraseP (hubMay s)
        let s1 := passSlot (settle s slot) 3 slot
        let k : Option Ctx := NMap.find s.ctxs x
        let card := (k.map Ctx.supCard).getD 0
        let n : Notice := (k.bind fun k => k.notices[k.sent]?).getD {}
        endSlot (notCrossed { s1 with deck := { s1.deck with hub := rest } } x card) (noticeHead x card slot n.cause) n.bytes
      | _ => s)

/-- A return record. -/
def HubItem.isRecord : HubItem → Bool
  | .record _ _ _ _ => true
  | .notice _ => false

/-- The return records that lead the items of the hub that may leave. -/
def leadingRecords (s : State) (items : List HubItem) : List HubItem := (items.filter (hubMay s)).takeWhile HubItem.isRecord

/-- A return record reaches its issuer. -/
def deliverRecord (s : State) : HubItem → State
  | .record card index tag old => if isStruck s card then s else s.completeEntry (card * 192 + index) tag 0 old
  | .notice _ => s

/-- The bytes of a return record (R56). -/
def HubItem.bytes : HubItem → List Byte
  | .record card index tag old => leBytes 8 old ++ leBytes 1 card ++ leBytes 1 index ++ leBytes 1 tag ++ leBytes 5 0
  | .notice _ => []

/-- The card of a return record. -/
def HubItem.card : HubItem → Nat
  | .record card _ _ _ => card
  | .notice _ => 0

/-- RETURN_RECORD_SLOT (R56): the hub's oldest return records, up to 256, reach their issuers. -/
def execReturnRecordSlot (slot : Nat) (s : State) : Result :=
  .next (if !(serviceSlot s slot) || roundActive s then s
    else
      let s1 := settle s slot
      let rs := (leadingRecords s1 s1.deck.hub).take 256
      if rs = [] then s
      else
        let s2 := passSlot s1 3 slot
        let s3 := rs.foldl deliverRecord { s2 with deck := { s2.deck with hub := rs.foldl List.erase s2.deck.hub } }
        endSlot s3 { dmask := layerMask (rs.map HubItem.card), kind := 6, sender := 12, slot := slot, suit := 3 }
          (rs.map HubItem.bytes).flatten)

/-- The memory of a range takes the place of another range's. -/
def State.copy (s : State) (a b n : Nat) : State :=
  let cells := s.mem.filter fun m => decide (a ≤ m.1 ∧ m.1 < a + n)
  cells.foldl (fun s m => s.write (b + (m.1 - a)) [m.2]) (s.clear b n)

/-- The layer number of the hub's snapshot. -/
def snapshotLayer : Nat := 13

/-- REFRESH_COPY_SLOT (R60): a service slot of frames F0 + 1 to F0 + 8 carries 4 KiB of the snapshot to every card in the
round. -/
def execRefreshCopySlot (slot : Nat) (s : State) : Result :=
  .next (if !(serviceSlot s slot) || !(roundActive s) then s
    else
      let s1 := passSlot (settle s slot) 3 slot
      let f := s.deck.frame
      let round := s.deck.wakes.filter fun (_, w) => decide (w.f0 < f ∧ f ≤ w.f0 + 8)
      let at' := fun (x : Nat × Wake) => ((f - x.2.f0 - 1) * 32 + (slot - 480)) * 4096
      let s2 := round.foldl (fun (s : State) (x : Nat × Wake) =>
        if isStruck s x.1 then s
        else
          let s2 := s.copy (replicaBase snapshotLayer + at' x) (replicaBase x.1 + at' x) 4096
          { s2 with deck := { s2.deck with wakes := NMap.put s2.deck.wakes x.1 { x.2 with copied := x.2.copied + 4096 } } }) s1
      endSlot s2 { dmask := layerMask (round.map Prod.fst), kind := 6, sender := 12, slot := slot, suit := 3 }
        (s.read (replicaBase snapshotLayer + (round.head?.map at').getD 0) 4096))

/-! ### Frames (R41, R60, R63) -/

/-- Operations applied on a copy, with no other effect. -/
def applyQuiet (s : State) (l : Nat) (o : DeckOp) : State :=
  let key := replicaBase l + o.off
  if o.atomic then s.write key (leBytes (opBytes o) (deckNew o (ofLe (s.read key (opBytes o))))) else s.write key o.bytes

/-- The hub's snapshot after every operation of frames up to F0 (R60), at the first slot of frame F0 + 1. Where it meets an
uncorrectable byte of the master, the spec gives only the fault (R64): no snapshot is taken, and the round copies the bytes of
the earlier one (log entry 36, DESIGN CHOICE). -/
def takeSnapshot (s : State) : State :=
  match s.ueAt (replicaBase 12) 0x100000 with
  | some u => masterFails s u
  | none =>
    let s1 := s.copy (replicaBase 12) (replicaBase snapshotLayer) 0x100000
    (pendingAt s1 12).foldl (fun s o => applyQuiet s snapshotLayer o) s1

/-- The name of a stream's sender in a notice: a core, a memory actor engine, or none for the host's (R160). -/
def senderName (st : DeckStream) : Nat :=
  if st.mem then coreName (engineCore (st.core % 64)) else if st.host then 0xFFFF else coreName st.core

/-- DECK.0 reaches the senders whose slots named a sleeping card, and their graphs halt (R63). -/
def asleepFault (s : State) (x : Nat × Nat × Nat) : State :=
  match NMap.find s.streams x.2.1 with
  | some st => s.haltGraph st.graph
      { cause := 0x100, core := senderName st, chan := x.2.1 % 0x10000, detail := x.2.2 % 2 ^ 48 }
  | none => s

/-- A graph's time advances: it is admitted, neither frozen nor halted, nor cut (R180, R282). -/
def graphTicks (g : Graph) : Bool :=
  g.cutSince.isNone && match g.phase with
    | .loading => true
    | .committing => true
    | .running => true
    | .freezing => true
    | _ => false

/-- A context that is not halted. -/
def ctxLive (s : State) (x : Nat) : Bool := match NMap.find s.ctxs x with | none => false | some k => !k.halted

/-- Time advances by a frame: the machine's, the graphs', the contexts', and the waits of queued graphs (R41, R165, R180). -/
def advanceTime (s : State) (dt : Nat) : State :=
  let one := fun (x : Nat × Graph) =>
    let g1 := if graphTicks x.2 then { x.2 with gtime := x.2.gtime + dt } else x.2
    (x.1, if inQueue x.2 && ctxLive s (x.1 / 2 ^ 28) then { g1 with waited := g1.waited + dt } else g1)
  { s with
    time := s.time + dt
    graphs := s.graphs.map one
    ctxs := s.ctxs.map fun (n, k) => if k.halted then (n, k) else (n, { k with ctime := k.ctime + dt }) }

/-- FRAME_BOUNDARY (R41): the frame ends, its late consequences follow, and the next begins: 409.6 ns have passed. -/
def execFrameBoundary (s : State) : Result :=
  let s1 := settle (idleTo s 2048) 511
  let s2 := s1.deck.asleepHits.foldl asleepFault { s1 with deck := { s1.deck with asleepHits := [] } }
  let f := (s2.deck.frame + 1) % 2 ^ 48
  let s3 := advanceTime { s2 with deck := { s2.deck with frame := f, slotPos := 0 } } 2048
  let s4 := if s3.deck.wakes.any fun (_, w) => w.f0 + 1 == f then takeSnapshot s3 else s3
  .next ((s4.deck.wakes.map Prod.fst).foldl refreshDone s4)

/-! ### Calendar and window ranges (R46, R53) -/

/-- A calendar write that the hub refuses (R46). -/
def calendarBad (s : State) (i : Nat) (w : Word32) : Bool :=
  let k2 := (s.deck.calendar.filter fun (j, e) => j != i && bitAt e 31 && fld e 22 20 == 2).length
  decide (2048 ≤ i) || decide (12 < fld w 30 27) || !([1, 2, 4].contains (fld w 22 20)) || s.fusedAsleep.testBit (fld w 30 27)
    || (bitAt w 31 && fld w 22 20 == 2 && decide (1024 < k2 + 1)) || slotReserved i

/-- CALENDAR_WRITE (R46, R105): the Dealer, if it was started, writes an entry, or the hub refuses with DECK.13. -/
def execCalendarWrite (i : Nat) (w : BitVec 32) (s : State) : Result :=
  .next (if !(s.dealerUp) then s
    else if calendarBad s i w then s.tellMgmt { cause := 0x10D, detail := i }
    else { s with deck := { s.deck with calendar := NMap.put s.deck.calendar i (w &&& 0xFFF0FFFF#32) } })

/-- DKWIN_RANGE_WRITE (R53, R105): management, running, sets a context's range, or the hub refuses with DECK.13. -/
def execDkwinRangeWrite (x base size : Nat) (s : State) : Result :=
  let clash := s.ctxs.any fun (n, k) => n != x && rangesMeet k.dkbase k.dksize base size
  .next (if !(s.managementUp) then s
    else if decide (256 < base + size) || clash then s.tellMgmt { cause := 0x10D, ctx := x }
    else s.modCtx x fun k => { k with dkbase := base, dksize := size })

/-! ### Sleep and wake (R59 to R62) -/

/-- An admitted graph holds a core of a card. -/
def cardHeld (s : State) (card : Nat) : Bool := s.cores.any fun (c, k) => decide (c / 192 = card ∧ k.graph ≠ 0)

/-- CARD_SLEEP (R59, R105): management, running, puts a card to sleep, its replica stale; DECK.15 while an admitted graph holds a core of
it. -/
def execCardSleep (card : Nat) (s : State) : Result :=
  .next (if 12 ≤ card ∨ cardAsleep s card = true ∨ s.managementUp = false then s
    else if cardHeld s card then s.tellMgmt { cause := 0x10F, detail := card }
    else { s with deck := { s.deck with
        asleep := setBits s.deck.asleep card card 1
        waking := setBits s.deck.waking card card 0
        stale := NMap.put s.deck.stale card true
        pending := NMap.del s.deck.pending card
        wakes := NMap.del s.deck.wakes card } })

/-- CARD_WAKE (R60, R62): a card that a load needs wakes; its refresh begins with the next copy round. -/
def execCardWake (card : Nat) (s : State) : Result :=
  .next (if 12 ≤ card ∨ cardAsleep s card = false ∨ s.fusedAsleep.testBit card = true ∨ cardHeld s card = false then s
    else
      let s1 := beginRefresh s card
      { s1 with deck := { s1.deck with
          asleep := setBits s1.deck.asleep card card 0
          waking := setBits s1.deck.waking card card 1 } })

/-- The admission that woke a card is aborted: the graph waits again, queued, or frozen with the image it was thawed from
(R60). -/
def abortAdmission (s : State) (h : Nat) : State :=
  (s.modGraph h fun g => { g with image := if g.image.isSome then g.image else g.thawed }).failLoad h

/-- A graph has been admitted and has not ended. -/
def admitted (g : Graph) : Bool :=
  match g.phase with
  | .loading => true
  | .committing => true
  | .running => true
  | .freezing => true
  | _ => false

/-- WAKE_SEQUENCE_TIMEOUT (R60): a sequence not complete by the end of frame F0 + 12 raises DECK.10; the card sleeps again
and the admission that woke it is aborted, be its graph committed meanwhile. The spec speaks of a waking card only: for the
refresh of an awake card after an error (R64) the model raises DECK.10 too and begins the refresh again, and what the card has
queued is dropped for the new snapshot (log entry 62, DESIGN CHOICE). -/
def execWakeSequenceTimeout (card : Nat) (s : State) : Result :=
  .next (match NMap.find s.deck.wakes card with
    | none => s
    | some w =>
      if s.deck.frame ≤ w.f0 + 12 then s
      else
        let s1 := s.tellMgmt { cause := 0x10A, detail := card }
        if s.deck.waking.testBit card then
          let hs := (s1.graphs.filter fun hg => admitted hg.2 && hg.2.cores.any fun x => x.2 / 192 == card).map Prod.fst
          let s2 := dropQueue (hs.foldl abortAdmission s1) card
          { s2 with deck := { s2.deck with
              asleep := setBits s2.deck.asleep card card 1
              waking := setBits s2.deck.waking card card 0
              pending := NMap.del s2.deck.pending card
              wakes := NMap.del s2.deck.wakes card } }
        else beginRefresh { s1 with deck := { s1.deck with wakes := NMap.del s1.deck.wakes card } } card)

end Sys2Proof.Machine
end

