-- ==== Sys2Proof/Machine/Sections.lean ====
section
/-! DEFINITION. The sections of freeze images and dumps, and the freeze image (R173, R174, R278). The spec gives the contents of each
type of section and the layout of its in-flight tokens; the layout of the other contents it does not give: an opaque function of the
contents (log entry 78). -/

/-- The bytes of a section of a core's state, by type, the core's physical name in a dump, its logical core, the state the section holds,
the bytes of its window that it holds, and its requests to other packages, on their way and answered. -/
opaque Sys2Proof.Config.coreSection : Nat → Option Nat → Nat → Sys2Proof.Machine.Core → List Host.Cell →
  List Sys2Proof.Machine.Away → List Sys2Proof.Machine.Brought → List Sys2Proof.Byte

/-- The bytes of a package's section: the mode controller's state, and the lengths of the other packages' sections. -/
opaque Sys2Proof.Config.packageSection : Sys2Proof.Machine.ModeCtl → List (Nat × Nat) → List Sys2Proof.Byte

namespace Sys2Proof.Machine

/-- The bytes of a core's window that hold something, by offset. -/
def windowCells (s : State) (c : Nat) : List Host.Cell :=
  (s.mem.filter fun m => decide (winBase c ≤ m.1 ∧ m.1 < winBase c + 2 ^ 24)).map fun m => (m.1 - winBase c, m.2)

/-- The part of a core's state that a section type holds (R174). -/
def sectionPart (t : Nat) (k : Core) : Core :=
  match t with
  | 1 => { grid := k.grid }
  | 2 => { regs := k.regs, pc := k.pc, frozeAs := k.frozeAs, status := k.status, cause := k.cause, epc := k.epc, tval := k.tval
           vector := k.vector, codewin := k.codewin, actor := k.actor, phase := k.phase, rngs := k.rngs, event := k.event
           wfe := k.wfe, woken := k.woken, waitSince := k.waitSince, mxWait := k.mxWait, issueSeq := k.issueSeq }
  | 3 => { head := k.head, round := k.round, actor := k.actor, phase := k.phase, ports := k.ports, drainedActors := k.drainedActors
           seqMode := k.seqMode, modeTok := k.modeTok, modeSeq := k.modeSeq, modeRes := k.modeRes, modeSent := k.modeSent }
  | 4 => { descs := k.descs, mirrors := k.mirrors, convs := k.convs }
  | 5 => { matrix := k.matrix, meld := k.meld }
  | _ => { entries := k.entries, engines := k.engines, chains := k.chains, appends := k.appends, bars := k.bars, deckq := k.deckq
           deckOut := k.deckOut, issueSeq := k.issueSeq, matrix := { queue := k.matrix.queue }, meld := { queue := k.meld.queue }
           grid := { queue := k.grid.queue, lstate := k.grid.lstate, loading := k.grid.loading } }

/-- An offset lies in a token between RDPTR and WRPTR of some input window of a core (R174). -/
def inToken (k : Core) (off : Nat) : Bool :=
  k.descs.any fun (_, d) => d.valid && !d.isOut && (List.range d.occ).any fun i =>
    decide (d.slotAt (d.rd.toNat + i) ≤ off ∧ off < d.slotAt (d.rd.toNat + i) + d.stride)

/-- A section type holds the byte of a core's window at an offset: stationary registers; sequencer; tokens; tile SRAM, accumulators and
meld configuration. -/
def sectionHas (t : Nat) (k : Core) (off : Nat) : Bool :=
  match t with
  | 1 => decide (0x300000 ≤ off ∧ off < 0x400000)
  | 3 => decide (0x700000 ≤ off ∧ off < 0x800000)
  | 4 => inToken k off
  | 5 => decide (off < 0x200000) || decide (0x400000 ≤ off ∧ off < 0x600000)
  | _ => false

/-- The section of a type of a core: in a dump its physical name stands beside the logical one (R278). -/
def coreSection (s : State) (dump : Bool) (t : Nat) (x : Nat × Nat) : List Byte :=
  let k := s.core x.2
  Config.coreSection t (if dump then some (coreName x.2) else none) x.1 (sectionPart t k)
    ((windowCells s x.2).filter fun m => sectionHas t k m.1)
    (if t = 6 then s.links.outbox.filter fun o => o.core == x.2 else []) (if t = 6 then s.links.inbox.filter fun o => o.core == x.2 else [])

/-- Sections one behind another, each at a multiple of 64 bytes, after their table of 16-byte entries at byte 128. -/
def packSections (xs : List (Nat × List Byte)) : List Byte :=
  let start := roundUp (128 + 16 * xs.length) 64
  let add := fun (a : Nat × List Byte × List Byte) (x : Nat × List Byte) =>
    let n := x.2.length
    (a.1 + roundUp n 64, a.2.1 ++ leBytes 2 x.1 ++ leBytes 2 0 ++ leBytes 4 1 ++ leBytes 4 a.1 ++ leBytes 4 n,
      a.2.2 ++ x.2 ++ List.replicate (roundUp n 64 - n) 0)
  let r := xs.foldl add (start, [], [])
  r.2.1 ++ List.replicate (start - 128 - 16 * xs.length) 0 ++ r.2.2

/-- The flags of an in-flight token: drain, end-of-stream, SWAP, end-of-tile (R174). -/
def flightFlags (drain : Bool) (marks : List Word) : Nat :=
  let has := fun (n : Nat) => if marks.any fun w => ctlKind w == n then 1 else 0
  (if drain then 1 else 0) + 2 * has 3 + 4 * has 5 + 8 * has 2

/-- The record of an in-flight token: arc, destination port, location, flags, ordinal, bytes (R174). -/
def flightRecord (arc port loc flags ord : Nat) (bs : List Byte) : List Byte :=
  leBytes 2 arc ++ leBytes 2 port ++ leBytes 1 loc ++ leBytes 1 flags ++ leBytes 2 bs.length
    ++ leBytes 6 ord ++ leBytes 2 0 ++ bs ++ List.replicate (roundUp bs.length 16 - bs.length) 0

/-- The port that an arc leads to; no port of an arc record that is none (0xFFFF). -/
def arcPort (img : List Byte) (a : Nat) : Nat := if a = 0xFFFF then 0 else (portRec img (arcRec img a).dst).pnum

/-- The arc record of a stream of a graph, and the port it leads to: 0xFFFF and the source port for a stream of the host. -/
def streamArc (g : Graph) (n : Nat) : Nat × Nat :=
  let a := n % 0x10000 - g.sbase - 1
  if a < nArcs g.img then (a, arcPort g.img a) else (0xFFFF, (portRec g.img (a - nArcs g.img)).pnum)

/-- The record of an item of the grid: it lies on no arc; port names the link's slot or the channel. -/
def itemFlight (port loc ord : Nat) (i : Item) : List Byte :=
  match i with
  | .data bs => flightRecord 0xFFFF port loc 0 ord bs
  | .ctl w => flightRecord 0xFFFF port loc (flightFlags (ctlKind w == 4) [w]) ord (leBytes 8 w.toNat)

/-- The in-flight tokens of a core: at the inputs of its elements (the first of each link) and on their links, in stream buffers, and on
their way to the windows of other cores (R174). -/
def coreFlight (s : State) (g : Graph) (c : Nat) : List Byte :=
  let k := s.core c
  let links := k.grid.links.map fun (key, is) =>
    let base := NMap.getD 0 (NMap.getD ({} : Elem) k.grid.elems (key / 4)).ords (key % 4)
    ((List.range is.length).map fun j => itemFlight key (if j = 0 then 0 else 1) (base + j) (is.getD j (.data []))).flatten
  let chans := k.grid.chan.map fun (n, is) => ((List.range is.length).map fun j => itemFlight n (if n < 16 then 2 else 1) j (is.getD j (.data []))).flatten
  let bufs := k.engines.map fun (e, x) => match x.queue.head? with
    | some m => if m.buf = [] then [] else flightRecord 0xFFFF e 2 0 m.pos m.buf
    | none => []
  let outs := k.outMsgs.map fun m =>
    let arc := arcOf s c (portOfDesc s c m.desc).1 (portOfDesc s c m.desc).2
    flightRecord arc (arcPort g.img arc) 1 (flightFlags m.drain m.marks) (m.wrptr - 1) m.bytes
  links.flatten ++ chans.flatten ++ bufs.flatten ++ outs.flatten

/-- The in-flight tokens of a graph: in its cores, on the deck, on Herlo channels, at memory actors (R174). -/
def flightRecords (s : State) (h : Nat) (g : Graph) : List Byte :=
  let cores := g.cores.map fun x => coreFlight s g x.2
  let deck := (s.streams.filter fun (_, d) => d.graph == h).map fun (n, d) =>
    (d.tokens.map fun m => flightRecord (streamArc g n).1 (streamArc g n).2 3 (flightFlags m.drain m.marks) (m.wrptr - 1) m.bytes).flatten
  let links := (s.links.channels.filter fun (_, c) => c.graph == h).map fun (_, c) =>
    (c.sent.map fun m => flightRecord c.arc (arcPort g.img c.arc) 4 (flightFlags m.drain m.marks) (m.wrptr - 1) m.bytes).flatten
  let mems := (s.actors.filter fun (_, a) => a.graph == h).map fun (_, a) =>
    ((List.range a.window.length).map fun i =>
      let p := enginePort g.img a.actor
      flightRecord ((p.map PortRec.arc).getD 0xFFFF) ((p.map PortRec.pnum).getD 0) 5 0 (a.f + i) (a.window.getD i [])).flatten
  cores.flatten ++ deck.flatten ++ links.flatten ++ mems.flatten

/-- The sections of a graph on this package: six of each core, two of the package (R174), and behind them what the other packages have
sent of theirs (R79). -/
def graphSections (s : State) (dump : Bool) (h : Nat) (g : Graph) : List (Nat × List Byte) :=
  let mine := (g.cores.map fun x => [1, 2, 3, 4, 5, 6].map fun t => (t, coreSection s dump t x)).flatten
  let map := g.peers.sections.map fun (x : Nat × List Byte) => (x.1, x.2.length)
  mine ++ [(7, Config.packageSection g.modeCtl map), (8, flightRecords s h g)] ++ g.peers.sections.map fun (x : Nat × List Byte) => (7, x.2)

/-- A freeze image: its header, its digest over what follows (R173). -/
def freezeImage (s : State) (h : Nat) (g : Graph) : List Byte :=
  let xs := graphSections s false h g
  let body := packSections xs
  leBytes 4 0x4B59465A ++ leBytes 2 1 ++ leBytes 1 s.grade ++ leBytes 1 g.origin ++ leBytes 8 g.imageid ++ leBytes 4 h
    ++ leBytes 4 g.cores.length ++ leBytes 8 (128 + body.length) ++ leBytes 8 (g.gtime / 5) ++ leBytes 4 xs.length
    ++ leBytes 4 0 ++ sm3 body ++ List.replicate 48 0 ++ body

end Sys2Proof.Machine
end

