-- ==== Sys2Proof/Machine/Sm2.lean ====
section
/-! DEFINITION. The SM2 signature scheme over its recommended 256-bit curve, with SM3 (R102, R107). The spec names GB/T 32918 for
it; the curve's constants and the scheme's steps are that standard's (log entry 74, PRESUMED). -/

namespace Sys2Proof.Machine

/-- The field prime of the curve. -/
def sm2P : Nat := 0xFFFFFFFEFFFFFFFFFFFFFFFFFFFFFFFFFFFFFFFF00000000FFFFFFFFFFFFFFFF
/-- The order of the base point. -/
def sm2N : Nat := 0xFFFFFFFEFFFFFFFFFFFFFFFFFFFFFFFF7203DF6B21C6052B53BBF40939D54123
/-- The curve's coefficient a. -/
def sm2A : Nat := sm2P - 3
/-- The curve's coefficient b. -/
def sm2B : Nat := 0x28E9FA9E9D9F5E344D5A9E4BCF6509A7F39789F515AB8F92DDBCBD414D940E93

/-- A point of the curve; none is the point at infinity. -/
abbrev Sm2Point := Option (Nat × Nat)

/-- The base point. -/
def sm2G : Sm2Point :=
  some (0x32C4AE2C1F1981195F9904466A39C9948FE30BBFF2660BE1715A4589334C74C7,
    0xBC3736A2F4F6779C59BDCEE36B692153D0A9877CC62A474002DF32E52139F0A0)

/-- A power modulo m, over the low bits of the exponent. -/
def powMod (m : Nat) : Nat → Nat → Nat → Nat
  | 0, _, _ => 1
  | n + 1, x, e =>
    let y := powMod m n (x * x % m) (e / 2)
    if e % 2 = 1 then x * y % m else y

/-- The inverse modulo a prime of 256 bits. -/
def invMod (m x : Nat) : Nat := powMod m 256 (x % m) (m - 2)

/-- The point on the line of slope k through p and a point of abscissa x, reflected. -/
def sm2Chord (k x : Nat) (p : Nat × Nat) : Sm2Point :=
  let x3 := (k * k + 2 * sm2P - p.1 - x) % sm2P
  some (x3, (k * (p.1 + sm2P - x3) + sm2P - p.2) % sm2P)

/-- The sum of two points. -/
def sm2Add : Sm2Point → Sm2Point → Sm2Point
  | none, q => q
  | p, none => p
  | some p, some q =>
    if p.1 ≠ q.1 then sm2Chord ((q.2 + sm2P - p.2) * invMod sm2P (q.1 + sm2P - p.1) % sm2P) q.1 p
    else if (p.2 + q.2) % sm2P = 0 then none
    else sm2Chord ((3 * p.1 * p.1 + sm2A) * invMod sm2P (2 * p.2) % sm2P) p.1 p

/-- A multiple of a point, over the low bits of the factor. -/
def sm2Mul : Nat → Nat → Sm2Point → Sm2Point
  | 0, _, _ => none
  | n + 1, k, p =>
    let q := sm2Mul n (k / 2) (sm2Add p p)
    if k % 2 = 1 then sm2Add p q else q

/-- A multiple of the base point, as coordinates. -/
def sm2Base (k : Nat) : Nat × Nat := (sm2Mul 256 k sm2G).getD (0, 0)

/-- The 32 bytes of a number, the most significant first. -/
def be32 (x : Nat) : List Byte := (leBytes 32 x).reverse

/-- The public key of a private one, in uncompressed form. -/
def sm2Public (d : Nat) : List Byte := 4#8 :: (be32 (sm2Base d).1 ++ be32 (sm2Base d).2)

/-- The signer identity KYVAL-H12 (R107). -/
def signerId : List Byte := [0x4B, 0x59, 0x56, 0x41, 0x4C, 0x2D, 0x48, 0x31, 0x32]

/-- The digest that SM2 signs: SM3 over the signer's digest and the message. -/
def sm2Digest (d : Nat) (msg : List Byte) : Nat :=
  let z := sm3 ([0#8, 0x48] ++ signerId ++ be32 sm2A ++ be32 sm2B ++ be32 (sm2Base 1).1 ++ be32 (sm2Base 1).2
    ++ (sm2Public d).drop 1)
  ofBe (sm3 (z ++ msg))

/-- The signature of a digest under a private key with a nonce; none where the scheme asks for another nonce. -/
def sm2Try (d e k : Nat) : Option (Nat × Nat) :=
  let r := (e + (sm2Base k).1) % sm2N
  let t := invMod sm2N (1 + d) * ((k + sm2N * sm2N - r * d) % sm2N) % sm2N
  if k = 0 ∨ r = 0 ∨ r + k = sm2N ∨ t = 0 then none else some (r, t)

/-- The signature of a message, r then s, with the first of the nonces drawn that the scheme takes. -/
def sm2Sign (d : Nat) (msg : List Byte) (nonces : List Nat) : List Byte :=
  let e := sm2Digest d msg
  let sig := ((nonces.filterMap fun k => sm2Try d e (k % sm2N)).head?).getD (0, 0)
  be32 sig.1 ++ be32 sig.2

/-- The identity key (R102): the SM3-based key derivation over the device unique secret, brought into 1 to n − 2. -/
def identityKey : Nat := ofBe (sm3 (be32 Config.deviceSecret.toNat ++ [0, 0, 0, 1])) % (sm2N - 2) + 1

end Sys2Proof.Machine
end

