-- ==== Sys2Proof/Machine/Trust.lean ====
section
/-! DEFINITION. Cold reset with its measurements, quotes, and the answers of the SPDM responder (R102 to R113). -/

namespace Sys2Proof.Machine

/-! ### Measurement (R104 to R106) -/

/-- Bytes cut or padded with zeros to a length. -/
def fitBytes (n : Nat) (bs : List Byte) : List Byte := (bs ++ List.replicate (n - bs.length) 0).take n

/-- A measurement slot: 32 zero bytes until it is extended. -/
def slotOf (x : Security) (n : Nat) : List Byte := NMap.getD (List.replicate 32 0) x.ms n

/-- A slot extended by a digest, in one step (R104). -/
def extendSlot (x : Security) (n : Nat) (d : List Byte) : Security :=
  { x with
    ms := NMap.put x.ms n (sm3 (slotOf x n ++ d))
    ext := NMap.put x.ext n (min (NMap.getD 0 x.ext n + 1) 0xFFFFFFFF) }

/-- The measurement of a firmware component: its digest, or 32 bytes of 0xFF when it cannot be read (R105). -/
def componentDigest (i : Nat) : List Byte :=
  match Config.firmware i with
  | none => List.replicate 32 0xFF
  | some bs => sm3 bs

/-- The fuse configuration block (R105). -/
def fuseBlock (s : State) : List Byte := leBytes 8 s.srDevid.toNat ++ leBytes 8 Config.defectId ++ List.replicate 48 0

/-- The slots as the boot ROM leaves them: the fuse block, then management, the Dealer, the arbiter, the dump engine (R105). -/
def bootMeasure (s : State) (x : Security) : Security :=
  (List.range 4).foldl (fun x i => extendSlot x i (componentDigest i)) (extendSlot x 4 (sm3 (fuseBlock s)))

/-- An island whose regulator fails its power-on test is held power-gated, with PWR.9 (R40). -/
def testRegulators (n : Nat) (s : State) : State :=
  ((List.range 64).filter fun i => !(Config.regulatorOk n i)).foldl (fun s i =>
    { s with power := { s.power with gatedIslands := s.power.gatedIslands ++ [i] } }.tellMgmt { cause := 0x159, detail := i }) s

/-- All four components can be read from boot flash: management, Dealer, arbiter, dump engine (R105). -/
def allReadable : Bool := (List.range 4).all fun i => (Config.firmware i).isSome

/-- The four components start (R105, R154): each of Dealer, arbiter and dump engine where its image can be read, the Dealer with DEAL.9 when
the defect map cannot be and DEAL.12 when its start test fails; management where every component can be read, else it stays in
reset. -/
def startFirmware (n : Nat) (s : State) : State :=
  let on := (Config.firmware 1).isSome
  let d : Dealer := {
    managers := (List.range 4).map fun i => (i, if allReadable then Run.running else Run.idle)
    map := on && Config.defectMapOk n, test := on && Config.dealerOk n
    parts := [1, 2, 3].filter fun i => (Config.firmware i).isSome }
  let s1 : State := { s with dealer := d }
  let s2 := if d.map || !on then s1 else s1.tellMgmt { cause := 0x099 }
  if d.test || !on then s2 else s2.tellMgmt { cause := 0x09C }

/-- COLD_RESET (R11, R40, R104, R105): the machine is as after reset, what the fuses and the world outside hold apart; the
boot ROM derives the identity key and measures, the regulators are tested, and the components start. -/
def execColdReset (s : State) : Result :=
  let n := s.sec.resets + 1
  let s1 : State := { State.reset with
    grade := s.grade, agenda := s.agenda, fresh := s.fresh, host := { ({} : HostIf) with mem := s.host.mem } }
  .next (startFirmware n (testRegulators n { s1 with sec := bootMeasure s1 { key := identityKey, resets := n } }))

/-! ### Quotes (R107, R108, R112) -/

/-- The quote but for its signature. -/
def quoteBody (s : State) (origin ctx : Nat) (nonce : List Byte) : List Byte :=
  let slots := List.range 16
  leBytes 2 1 ++ leBytes 2 752 ++ leBytes 1 origin ++ leBytes 1 ctx ++ leBytes 2 0 ++ leBytes 8 s.srDevid.toNat
    ++ fitBytes 16 Config.serial ++ leBytes 8 (Config.resetId s.sec.resets) ++ leBytes 8 0 ++ fitBytes 32 nonce
    ++ (slots.map fun n => fitBytes 32 (slotOf s.sec n)).flatten ++ (slots.map fun n => leBytes 4 (NMap.getD 0 s.sec.ext n)).flatten
    ++ sm3 (sm2Public s.sec.key)

/-- The number of nonces a signature may draw: all but the first only where SM2 takes none before (log entry 74). -/
def signDraws : Nat := 4

/-- A quote of 752 bytes, signed by the identity key with a nonce drawn afresh (R103, R107). -/
def quoteBytes (s : State) (origin ctx : Nat) (nonce : List Byte) : List Byte :=
  let body := quoteBody s origin ctx nonce
  body ++ sm2Sign s.sec.key body ((List.range signDraws).map fun i => Config.freeValue (s.fresh + i))

/-- The nonces of a signature are drawn. -/
def drawn (s : State) : State := { s with fresh := s.fresh + signDraws }

/-! ### SPDM (R109) -/

/-- An answer on an interface, whose request waits no longer. -/
def answer (s : State) (r : SpdmReq) (kind : Nat) (payload : List Byte) : State :=
  { s with sec := { s.sec with
    spdm := NMap.del s.sec.spdm r.iface
    answers := NMap.put s.sec.answers r.iface (Config.spdmEncode kind payload) } }

/-- The response codes of SPDM. -/
def spdmVersion : Nat := 0x04
/-- CAPABILITIES. -/
def spdmCapabilities : Nat := 0x61
/-- ALGORITHMS. -/
def spdmAlgorithms : Nat := 0x63
/-- DIGESTS. -/
def spdmDigests : Nat := 0x01
/-- CERTIFICATE. -/
def spdmCertificate : Nat := 0x02
/-- CHALLENGE_AUTH. -/
def spdmChallenge : Nat := 0x03
/-- MEASUREMENTS. -/
def spdmMeasurements : Nat := 0x60
/-- ERROR. -/
def spdmError : Nat := 0x7F

/-- An ERROR answer of a type: InvalidRequest 1, UnsupportedRequest 7. -/
def spdmFails (s : State) (r : SpdmReq) (type : Nat) : State := answer s r spdmError (leBytes 1 type)

/-- A measurement block (R109): 1 to 16 are the slots, 0x11 is the quote. -/
def measurementBlock (s : State) (nonce : List Byte) (i : Nat) : List Byte :=
  if i = 0x11 then quoteBytes s 0 0xFF nonce else fitBytes 32 (slotOf s.sec (i - 1))

/-- GET_MEASUREMENTS is answered (R109): index 0 asks for the number of blocks, 0xFF for all of them; a quote draws its nonces; the
spec gives no type of ERROR for another index (log entry 76). -/
def answerMeasurements (s : State) (r : SpdmReq) : State :=
  if r.index = 0 then answer s r spdmMeasurements (leBytes 1 17)
  else if r.index = 0x11 then drawn (answer s r spdmMeasurements (measurementBlock s r.nonce 0x11))
  else if r.index < 0x11 then answer s r spdmMeasurements (measurementBlock s r.nonce r.index)
  else if r.index = 0xFF then
    drawn (answer s r spdmMeasurements (((List.range 17).map fun i => measurementBlock s r.nonce (i + 1)).flatten))
  else spdmFails s r 1

/-- NEGOTIATE_ALGORITHMS is answered (R109): with SM2 and SM3 as far as offered, or with ERROR to a requester that offers neither;
the spec does not give that ERROR's type, the model takes InvalidRequest (log entry 76). -/
def answerAlgorithms (s : State) (r : SpdmReq) : State :=
  if r.sm2 || r.sm3 then answer s r spdmAlgorithms (leBytes 1 (if r.sm2 then 1 else 0) ++ leBytes 1 (if r.sm3 then 1 else 0))
  else spdmFails s r 1

/-- A request is answered (R109), by its kind: 0 GET_VERSION, 1 GET_CAPABILITIES, 2 NEGOTIATE_ALGORITHMS, 3 GET_DIGESTS,
4 GET_CERTIFICATE and 5 CHALLENGE, both for slot 0 only, 6 GET_MEASUREMENTS, else one that is not supported. -/
def serveSpdm (s : State) (kind : Nat) (r : SpdmReq) : State :=
  match kind with
  | 0 => answer s r spdmVersion (leBytes 1 0x13)
  | 1 => answer s r spdmCapabilities []
  | 2 => answerAlgorithms s r
  | 3 => answer s r spdmDigests (sm3 Config.certChain)
  | 4 => if r.slot = 0 then answer s r spdmCertificate ((Config.certChain.drop r.off).take r.len) else spdmFails s r 1
  | 5 => if r.slot = 0 then answer s r spdmChallenge (sm3 Config.certChain ++ fitBytes 32 r.nonce) else spdmFails s r 1
  | 6 => answerMeasurements s r
  | _ => spdmFails s r 7

/-- An SPDM request arrives (R108): it is ordered with the pending requests, and served at once when there is none; an interface
holds one, and another stays with its transport until that is answered. -/
def arriveSpdm (s : State) (kind : Nat) (r : SpdmReq) : State :=
  if (NMap.find s.sec.spdm r.iface).isSome then s
  else if s.sec.pending.isEmpty then serveSpdm s kind r
  else { s with sec := { s.sec with spdm := NMap.put s.sec.spdm r.iface (kind, s.sec.pending.length, r) } }

/-- Pending requests leave, those an answer says so of; the SPDM requests that waited for no others are served (R108). -/
def requestsLeave (s : State) (gone : SecReq → Bool) (first : Bool) : State :=
  let ps := s.sec.pending
  let left := fun (n : Nat) => ((ps.take n).filter fun r => !(gone r)).length - (if first && n ≠ 0 then 1 else 0)
  let s1 : State := { s with sec := { s.sec with
    pending := (ps.filter fun r => !(gone r)).drop (if first then 1 else 0)
    spdm := s.sec.spdm.map fun (i, x) => (i, x.1, left x.2.1, x.2.2) } }
  (s1.sec.spdm.filter fun (_, x) => x.2.1 == 0).foldl (fun s (_, x) => serveSpdm s x.1 x.2.2) s1

/-- GET_VERSION (R109): version 1.3. -/
def execGetVersion (r : SpdmReq) (s : State) : Result := .next (arriveSpdm s 0 r)

/-- GET_CAPABILITIES (R109). -/
def execGetCapabilities (r : SpdmReq) (s : State) : Result := .next (arriveSpdm s 1 r)

/-- NEGOTIATE_ALGORITHMS (R109). -/
def execNegotiateAlgorithms (r : SpdmReq) (s : State) : Result := .next (arriveSpdm s 2 r)

/-- GET_DIGESTS (R109): the digest of the chain of slot 0. -/
def execGetDigests (r : SpdmReq) (s : State) : Result := .next (arriveSpdm s 3 r)

/-- GET_CERTIFICATE (R109): the part asked for of the chain of slot 0. -/
def execGetCertificate (r : SpdmReq) (s : State) : Result := .next (arriveSpdm s 4 r)

/-- CHALLENGE (R109): for slot 0. -/
def execChallenge (r : SpdmReq) (s : State) : Result := .next (arriveSpdm s 5 r)

/-- GET_MEASUREMENTS (R108, R109): captured in the order of arrival. -/
def execGetMeasurements (r : SpdmReq) (s : State) : Result := .next (arriveSpdm s 6 r)

/-- KEY_EXCHANGE, PSK_EXCHANGE and session requests (R109): ERROR of type UnsupportedRequest. -/
def execSpdmUnsupportedRequest (r : SpdmReq) (s : State) : Result := .next (arriveSpdm s 7 r)

/-! ### The oldest request (R106, R108, R112, R113) -/

/-- The oldest request leaves the security block. -/
def popRequest (s : State) : State := requestsLeave s (fun _ => false) true

/-- A request is still served: its core has not halted and its graph is not gone; the spec speaks of freezes alone, the model drops
the others, whose entries stand in cores that execute no more (log entry 75, DESIGN CHOICE). -/
def served (s : State) (r : SecReq) : Bool := (s.core r.core).run != .graphHalted && !r.void

/-- QUOTE_CAPTURE (R108, R112): the oldest request, a QUOTE, is captured and signed, its 752 bytes written to the buffer, its
entry completed with status 0. -/
def execQuoteCapture (s : State) : Result :=
  .next (match s.sec.pending with
    | [] => s
    | r :: _ =>
      if r.ext then s
      else if !(served s r) then popRequest s
      else ((popRequest (drawn s)).setTile r.core r.buf (quoteBytes s 1 r.ctx r.bytes)).completeEntry r.core r.q 0 0)

/-- QUOTE_EXTEND_APPLY (R104, R106, R112): the oldest request, a QUOTE.EXT, extends its slot and completes with status 0, or
with 3 for a slot it may not extend. -/
def execQuoteExtendApply (s : State) : Result :=
  .next (match s.sec.pending with
    | [] => s
    | r :: _ =>
      if !r.ext then s
      else if !(served s r) then popRequest s
      else if fld r.slot 63 4 ≠ 0 ∨ fld r.slot 3 0 < 5 then (popRequest s).completeEntry r.core r.q 0 3
      else
        let s1 : State := { s with sec := extendSlot s.sec (fld r.slot 3 0) r.bytes }
        (popRequest s1).completeEntry r.core r.q 0 0)

/-- A pending quote or extend of a core is withdrawn; its entry completes with status 2 (R113). -/
def withdrawQuotes (s : State) (c : Nat) : State :=
  (s.sec.pending.filter fun r => r.core == c).foldl (fun s r => s.completeEntry c r.q 0 2) (requestsLeave s (fun r => r.core == c) false)

end Sys2Proof.Machine
end

