-- ==== Sys2Proof/Machine/Freeze.lean ====
section
/-! DEFINITION. Freezes, stops, and the life of a context (R156 to R161, R169 to R180). -/

namespace Sys2Proof.Machine

/-! ### Freeze requests and waves (R169, R170) -/

/-- FREEZE_REQUEST (R169): system software asks management to freeze a graph; the supervisor graph is never frozen. -/
def execFreezeRequest (g : Word32) (s : State) : Result :=
  let h := g.toNat
  .next (match s.graph? h with
    | none => s
    | some g => if g.supervisor then s else s.requestFreeze h 3)

/-- A load in progress is abandoned, leaving SVALID 0; the grid's queue begins with it, so that it is issued again at the thaw (R170). -/
def leaveLoad (g : Grid) : Grid := if g.lstate = 1 then { g with lstate := 0, queue := .load g.loading :: g.queue } else g

/-- FREEZE_WAVE (R170, R113): the wave reaches a core of a freezing graph; its parts stop where they stand, a stream at the end of its
token: the core has stopped when every part has. -/
def execFreezeWave (c : Nat) (s : State) : Result :=
  let h := (s.core c).graph
  .next (match s.graph? h with
    | none => s
    | some g =>
      if g.phase ≠ .freezing ∨ g.frzCores.contains c = true then s
      else
        let s1 := if (s.core c).run = .frozen then s else (withdrawQuotes s c).modCore c fun k =>
          let k1 := k.leaveWait
          { k1 with run := .frozen, frozeAs := k1.run, grid := leaveLoad k1.grid }
        if s1.splitToken c then s1 else s1.modGraph h fun g => { g with frzCores := c :: g.frzCores })

/-! ### The recorded state (R174) -/

/-- A request's issuer is a core or a memory actor of a graph. -/
def ownRequest (s : State) (h : Nat) (g : Graph) (c : Nat) : Bool :=
  (g.cores.map Prod.snd).contains c || s.actors.any fun (n, a) => a.graph == h && engineCore n == c

/-- What a freeze image records of a graph (R174). -/
def snapshotOf (s : State) (h : Nat) (g : Graph) : Snapshot where
  placed := g.cores
  sbase := g.sbase
  vbase := g.vbase
  cores := g.cores.map fun x => (x.1, s.core x.2)
  bytes := g.cores.map fun x => (x.1, windowCells s x.2)
  streams := s.streams.filter fun (_, d) => d.graph == h
  channels := s.links.channels.filter fun (_, c) => c.graph == h
  actors := s.actors.filter fun (_, a) => a.graph == h
  outbox := s.links.outbox.filter fun o => ownRequest s h g o.core
  inbox := s.links.inbox.filter fun o => ownRequest s h g o.core
  egress := (s.host.egress.filter fun (_, e) => e.graph == h).map fun (_, e) => (e.sink, e.records, e.ords)

/-- Parked requests of a graph that freezes stay with their homes, at their place in the home's order (R171, R229); those of memory
actors are asked for again (log entry 93). -/
def keepParked (s : State) (h : Nat) (g : Graph) : State :=
  let acts := (s.actors.filter fun (_, a) => a.graph == h).map fun x => engineCore x.1
  let one := fun (p : Parked) =>
    match g.cores.find? fun x => x.2 == p.core && p.msg.isNone && p.frz.isNone with
    | some x => some { p with core := 2 ^ 20 + p.core, frz := some (h, x.1) }
    | none => if acts.contains p.core then none else some p
  { s with kitty := s.kitty.filterMap one }

/-! ### Completion and time-outs (R172, R57, R113) -/

/-- A core's deck operations have been sent and answered. -/
def deckSettled (k : Core) : Bool :=
  k.deckq.isEmpty && k.deckOut == 0 && k.entries.all fun (_, e) =>
    !(e.busy && !e.performed && (e.op == .deckAdd || e.op == .deckCas))

/-- A freeze that fails halts its graph with SCHED.10, copied to management. -/
def freezeFails (s : State) (h : Nat) : State :=
  s.haltCopied h { cause := 0x14A }

/-- A graph is stopped (R178): its resources are released, SCHED.12 goes to the supervisor, its egress ports and LWAIT show
the cause. -/
def stopped (s : State) (h : Nat) : State :=
  let s1 := ((s.egressHalt h 0x14C).release h).modGraph h fun g => { g with
    phase := .retired, cause := 0x14C, image := none, frzLen := 0, waiters := [], frzSince := none, cutSince := none }
  ((s1.notifyGraph h { cause := 0x14C, flags := 1 }).recordOutcome h 0x14C).settleHalt (h / 2 ^ 28)

/-- The image is complete (R172): it is written, by the package that coordinates the graph with the sections of the others (R79), the graph's state recorded and its resources released, with SCHED.5, and
PWR.4 after a thermal freeze (R38). -/
def freezeDone (s : State) (h : Nat) (g : Graph) : State :=
  let img := freezeImage s h g
  let s0 := s.completeAll g.waiters 0
  let s1 := if g.coord.isSome then s0 else s0.write g.frzAt img
  let s2 := keepParked s1 h g
  let snap := snapshotOf s1 h g
  let s3 := s2.modGraph h fun g => { g with
    phase := .frozen, image := some snap, lastSinks := g.sinks, held := g.origin == 2 || g.coord.isSome, frzLen := img.length, imgLen := img.length, peers := { g.peers with sections := [] }, frzSince := none, frzCores := [], homeless := false
    waiters := [], reported := [], acked := [], decided := false, pkgOk := [] }
  let s4 := (s3.release h).notifyGraph h { cause := 0x145 }
  (if g.origin = 1 then s4.notifyGraph h { cause := 0x154 } else s4).settleHalt (h / 2 ^ 28)

/-- FREEZE_COMPLETE (R172, R177, R179): every core has stopped and its deck operations are sent, and at the coordinating package the
sections of every other package have come (R79); the image is written, or a
stop that came meanwhile discards it; an image that cannot be written halts the graph. -/
def execFreezeComplete (g : Word32) (ok : Bool) (s : State) : Result :=
  let h := g.toNat
  .next (match s.graph? h with
    | none => s
    | some g =>
      let ready := (g.cores.all fun x => g.frzCores.contains x.2 && deckSettled (s.core x.2))
        && (g.coord.isSome || (otherPackages s g).all fun p => g.peers.sections.any fun x => x.1 == p)
      if g.phase ≠ .freezing ∨ ready = false then s
      else if g.dropImage then stopped (s.completeAll g.waiters 0x14C) h
      else if !ok || decide (g.frzLen < (freezeImage s h g).length) then freezeFails s h
      else freezeDone s h g)

/-- The largest latency bound of a graph's cross-package arcs, in nanoseconds. -/
def boundMax (img : List Byte) : Nat := ((arcRecs img).map ArcRec.bound).foldl max 0

/-- The time a freeze or a cut of a graph may take (R172, R79, R282). -/
def waveBound (g : Graph) : Nat :=
  if spans g.img then nanos (100000 + 2 * boundMax g.img)
  else if (g.cores.map fun x => x.2 / 192).eraseDups.length ≤ 1 then nanos 50000 else nanos 100000

/-- FREEZE_TIMEOUT (R172, R79): a freeze not complete in time, at the coordinating package, halts the graph with SCHED.10. -/
def execFreezeTimeout (g : Word32) (s : State) : Result :=
  let h := g.toNat
  .next (match s.graph? h with
    | none => s
    | some g =>
      let late := match g.frzSince with
        | none => false
        | some t => decide (t + waveBound g ≤ g.gtime)
      if g.phase = .freezing ∧ g.coord.isNone = true ∧ late = true then freezeFails s h else s)

/-! ### Stops (R178, R149, R177) -/

/-- An ingress port that waits for a graph which ends goes to fault with the cause. -/
def openingFails (s : State) (h cause : Nat) : State :=
  let one := fun (x : Nat × Ingress) =>
    if x.2.graph = h ∧ x.2.st = 1 then (x.1, x.2.toFault cause) else x
  { s with host := { s.host with ingress := s.host.ingress.map one } }

/-- The requests that homes hold for a frozen graph go. -/
def forgetHeld (s : State) (h : Nat) : State :=
  { s with kitty := s.kitty.filter fun p => match p.frz with
      | some (h', _) => h' != h
      | none => true }

/-- System software stops a graph (R178): a freeze in progress first completes (R177), a halted graph is already stopped. An ingress
port bound to it stays bound or closing with what it holds until RST: R96 is silent on it (log entry 64, DESIGN CHOICE). -/
def stopGraph (s : State) (h : Nat) : State :=
  match s.graph? h with
  | none => s
  | some g =>
    match g.phase with
    | .freezing => s.modGraph h fun g => { g with dropImage := true }
    | .validating | .queued | .loading | .committing | .running | .frozen =>
      let s1 := match g.launcher with
        | none => s
        | some (c, q) => s.completeEntry c q 0x14C 0
      forgetHeld (openingFails (stopped (s1.completeAll g.waiters 0x14C) h) h 0x14C) h
    | _ => s

/-- GRAPH_STOP (R178): system software stops a graph; a supervisor graph stops only with its context (R159). -/
def execGraphStop (g : Word32) (s : State) : Result :=
  let h := g.toNat
  .next (match s.graph? h with
    | none => s
    | some g => if g.supervisor then s else stopGraph s h)

/-! ### Contexts (R156 to R159, R179) -/

/-- n bytes of a partition descriptor at an offset. -/
def partRd (d : List Byte) (off n : Nat) : Nat := ofLe ((d.drop off).take n)

/-- The context of a partition descriptor (R156). -/
def ctxFrom (d : List Byte) : Ctx where
  qmask := partRd d 0 8
  inmask := partRd d 8 8
  egmask := partRd d 0x10 8
  supCard := partRd d 0x19 1
  supIdx := partRd d 0x18 1
  maxpri := partRd d 0x1A 1
  defpri := partRd d 0x1B 1
  slots := partRd d 0x1C 2
  pshare := partRd d 0x1E 2
  hbase := partRd d 0x20 2
  hsize := partRd d 0x22 2
  vcq := partRd d 0x24 1
  dkbase := partRd d 0x25 1
  dksize := partRd d 0x26 2
  frzbase := partRd d 0x28 8
  frzsize := partRd d 0x30 4

/-- On some card a partition is exactly two quadrants at opposite corners (R157). -/
def diagonal (q : Nat) : Bool := (List.range 12).any fun c => let m := bitsOf q (4 * c + 3) (4 * c); m == 9 || m == 6

/-- A range of local HBM4 meets one that management keeps: the graph store, the placement cache, the library region, the dump
area (R157). -/
def reservedMeet (s : State) (a n : Nat) : Bool :=
  (storeOn s && rangesMeet a n (storeBase s) (storeSize s)) || (s.dealer.cache && rangesMeet a n Config.cacheBase (2 ^ 30))
    || rangesMeet a n Config.libraryBase (1152 * 2 ^ 20) || rangesMeet a n Config.dumpBase Config.dumpSize

/-- A reserved or zero field of a descriptor is not zero, or a count is out of its range (R156). -/
def partReserved (d : List Byte) (k : Ctx) : Bool :=
  d.length != 64 || bitsOf k.qmask 63 48 != 0 || decide (3 < k.maxpri ∨ 3 < k.defpri) || partRd d 0x34 12 != 0
    || decide (1984 < k.slots ∨ 3080 < k.pshare ∨ 16 < k.vcq) || k.hsize == 0 || k.frzbase % 4096 != 0

/-- Management refuses a partition descriptor (R157, R53); it also refuses one whose supervisor's island is held power-gated (R40,
log entry 67, DESIGN CHOICE). -/
def partBad (s : State) (d : List Byte) : Bool :=
  let k := ctxFrom d
  let others := s.ctxs.map Prod.snd
  let sum := fun (f : Ctx → Nat) => (others.map f).sum + f k
  partReserved d k || (List.range 12).any (fun c => s.fusedAsleep.testBit c && bitsOf k.qmask (4 * c + 3) (4 * c) != 0)
    || s.power.gatedIslands.contains (5 * k.supCard + k.supIdx / 48) || diagonal k.qmask || decide (191 < k.supIdx ∨ 11 < k.supCard) || !(k.qmask.testBit (4 * k.supCard + k.supIdx / 48))
    || decide (k.defpri < k.maxpri)
    || others.any (fun x => x.qmask &&& k.qmask != 0 || x.inmask &&& k.inmask != 0 || x.egmask &&& k.egmask != 0
        || rangesMeet x.hbase x.hsize k.hbase k.hsize || rangesMeet x.dkbase x.dksize k.dkbase k.dksize)
    || reservedMeet s (k.hbase * 2 ^ 30) (k.hsize * 2 ^ 30) || decide (512 < k.hbase + k.hsize)
    || decide (k.frzbase < k.hbase * 2 ^ 30 ∨ (k.hbase + k.hsize) * 2 ^ 30 < k.frzbase + k.frzsize * 2 ^ 20)
    || decide (1984 < sum Ctx.slots ∨ 3080 < sum Ctx.pshare ∨ 16 < sum Ctx.vcq) || decide (256 < k.dkbase + k.dksize)
    || decide (16 ≤ s.ctxs.length)

/-- The image of a supervisor graph (R159): one actor with one phase on the core at its place of the card, one input port of
32-byte RAW32 tokens with a count of 1, and the code management brings. -/
def supervisorImage (x : Nat) (k : Ctx) : List Byte :=
  let code := Config.supervisorCode x
  let sec := fun (t n o l : Nat) => leBytes 2 t ++ leBytes 2 0 ++ leBytes 4 n ++ leBytes 4 o ++ leBytes 4 l
  let head := leBytes 4 0x4B594749 ++ leBytes 2 1 ++ leBytes 2 0 ++ leBytes 8 0 ++ leBytes 4 (0x240 + code.length)
    ++ leBytes 2 4 ++ leBytes 1 1 ++ leBytes 1 0 ++ leBytes 2 1 ++ leBytes 2 0 ++ leBytes 4 0
  let pad := fun (bs : List Byte) (n : Nat) => bs ++ List.replicate (n - bs.length) 0
  let actor := leBytes 2 k.supIdx ++ leBytes 1 0 ++ leBytes 1 0 ++ leBytes 1 1 ++ leBytes 11 0
  let port := leBytes 1 0 ++ leBytes 1 0x1D ++ leBytes 2 32 ++ leBytes 2 0 ++ leBytes 2 0xFFFF ++ leBytes 2 0xFFFF ++ leBytes 6 0
  pad head 0x100 ++ pad (sec 1 1 0x140 16 ++ sec 2 1 0x180 16 ++ sec 4 0 0x1C0 64 ++ sec 8 0 0x240 code.length) 0x40
    ++ pad actor 0x40 ++ pad port 0x40 ++ pad (leBytes 2 1) 0x80 ++ code

/-- The sequencer bytes of a supervisor graph: one entry, of actor 0 and phase 0, for ever; its routine at offset 0. -/
def supervisorSeq : List (Nat × List Byte) :=
  [(0, leBytes 8 (2 ^ 63)), (0x1000, leBytes 4 (2 ^ 31 + 2 ^ 23)),
    (0x100, leBytes 8 0 ++ leBytes 8 1 ++ (0#8 :: List.replicate 31 0xFF)), (0x2000, leBytes 2 1)]

/-- The notice port's window: one 32-byte token at the end of tile SRAM. -/
def noticeDesc : WinDesc where
  d0 := BitVec.ofNat 64 (2 ^ 63 + 0x1D * 2 ^ 48 + 2 ^ 32 + 0x1FFFC0)
  d1 := BitVec.ofNat 64 (2 ^ 62 + 32)

/-- Management admits the supervisor graph of a new context (R159): it is charged under R31 and runs in S mode at once. -/
def startSupervisor (s : State) (x : Nat) (k : Ctx) : State :=
  let h := x * 2 ^ 28 + 1
  let c := k.supCard * 192 + k.supIdx
  let img := supervisorImage x k
  let cores := [(k.supIdx, c)]
  let grant := match arbitrate s x k.pshare img cores [] with
    | .ok (some g) => g
    | _ => grantAt img cores [] (3, 1)
  let g : Graph := {
    handle := h, imageid := 0, img := img, phase := .running, supervisor := true, cls := k.maxpri, cores := cores
    grant := grant, admitOrder := s.order, arrival := s.order }
  let code := Config.supervisorCode x
  let sh : Shadow := {
    codewin := BitVec.ofNat 64 (ceilDiv code.length 4096 * 2 ^ 32), seqBytes := supervisorSeq, descs := [(0, noticeDesc)]
    mode := .s }
  let s1 : State := { s with graphs := NMap.put s.graphs h g, order := s.order + 1 }
  let s2 := (s1.modCore c fun n => { n with graph := h, lcore := k.supIdx }).setTile c 0 code
  swapCore s2 c sh

/-- CONTEXT_CREATE (R156 to R159): management creates the context of a partition descriptor with its supervisor graph and its
ports, or refuses it with SCHED.11; management that stays in reset does nothing (R105). -/
def execContextCreate (desc : List Byte) (s : State) : Result :=
  .next (if !(s.managementUp) then s
    else if partBad s desc then s.tellMgmt { cause := 0x14B }
    else match (List.range 16).find? fun x => (NMap.find s.ctxs x).isNone with
      | none => s.tellMgmt { cause := 0x14B }
      | some x =>
        let k := { ctxFrom desc with supHandle := x * 2 ^ 28 + 1, nextSeq := 2, ptroot := Config.tableRoot x }
        let ports := (List.range 64).filter fun n => k.inmask.testBit n
        let outs := (List.range 64).filter fun n => k.egmask.testBit n
        let s1 : State := { s with
          ctxs := NMap.put s.ctxs x k
          host := { s.host with
            ingress := ports.foldl (fun m n => NMap.put m n { NMap.getD ({} : Ingress) m n with asgn := true, ctx := x }) s.host.ingress
            egress := outs.foldl (fun m n => NMap.put m n { NMap.getD ({} : Egress) m n with asgn := true, ctx := x }) s.host.egress } }
        startSupervisor s1 x k)

/-- CONTEXT_HALT (R179). -/
def execContextHalt (x : Nat) (s : State) : Result := .next (s.haltContext x)

/-- The cores of a context's supervisor. -/
def supervisorCores (s : State) (x : Nat) : List Nat :=
  (s.graphs.filter fun hg => hg.1 / 2 ^ 28 == x && hg.2.supervisor).flatMap fun hg => hg.2.cores.map Prod.snd

/-- The CPs of some cores that HALT stopped go on past it (R344). -/
def restartHalted (s : State) (cs : List Nat) : State :=
  { s with cores := s.cores.map fun (c, k) => (c, if cs.contains c && k.run = .halted then { k with run := .running } else k) }

/-- CONTEXT_RESUME (R179, R344): the supervisor goes on, past the HALT that stopped it if one did, and the context's frozen graphs wait
for their thaw again. -/
def execContextResume (x : Nat) (s : State) : Result :=
  .next (restartHalted (s.modCtx x fun k => { k with halted := false, halting := false }) (supervisorCores s x))

/-- CONTEXT_DESTROY (R159): the context's graphs stop, its supervisor graph among them, and all that was its own is free. -/
def execContextDestroy (x : Nat) (s : State) : Result :=
  .next (match NMap.find s.ctxs x with
    | none => s
    | some _ =>
      let mine := (s.graphs.filter fun hg => hg.1 / 2 ^ 28 == x).map Prod.fst
      let s1 := mine.foldl (fun s h => s.release (h : Nat)) s
      let other := fun (h : Nat) => h / 2 ^ 28 != x
      requestsLeave { s1 with
        ctxs := NMap.del s1.ctxs x
        graphs := s1.graphs.filter fun hg => other hg.1
        deck := { s1.deck with
          hub := s1.deck.hub.filter fun i => i != .notice x
          calendar := s1.deck.calendar.map fun (i, w) => if bitAt w 31 && fld w 26 23 == x then (i, 0) else (i, w) }
        kitty := s1.kitty.filter fun p => p.ctx != x || p.msg.isSome
        dump := { s1.dump with
          queue := s1.dump.queue.filter other
          current := s1.dump.current.filter other }
        host := { s1.host with
          ingress := s1.host.ingress.filter fun (_, p) => !(p.asgn && p.ctx == x)
          egress := s1.host.egress.filter fun (_, p) => !(p.asgn && p.ctx == x) } } (fun r => r.ctx == x) false)

/-- NOTICE_DELIVERY (R159 to R161): the oldest notice of a context that has crossed the deck enters the notice port of its supervisor when its window
has room. -/
def execNoticeDelivery (x : Nat) (s : State) : Result :=
  .next (match NMap.find s.ctxs x with
    | none => s
    | some k =>
      let c := k.supCard * 192 + k.supIdx
      let n := s.core c
      match k.notices, portDesc s c 0 0 with
      | r :: rest, some i =>
        let d := n.desc i
        if n.graph ≠ k.supHandle ∨ coreMoves n = false ∨ n.cut = true ∨ d.free = 0 ∨ k.sent = 0 then s
        else
          let s1 := s.modCtx x fun k => { k with notices := rest, sent := k.sent - 1, delivered := k.delivered + 1 }
          landMsg s1 c i 0x1D { desc := i, wrptr := d.wr.toNat + 1, bytes := r.bytes, marks := [], drain := false }
      | _, _ => s)

end Sys2Proof.Machine
end

