-- ==== Sys2Proof/Machine/GridMem.lean ====
section
/-! DEFINITION. Memory elements: MLD, MST, MATOM (R415, R416). -/

namespace Sys2Proof.Machine

/-- XMODE of a memory element. -/
def memXmode (b : Blk) : Nat := bitsOf (bMod b) 1 0
/-- WIN of a memory element. -/
def memWin (b : Blk) : Nat := bitsOf (bMod b) 7 2

/-- The address an address token holds (R413). -/
def tokenAddress (i : Item) : Nat := ofLe ((itemBytes i).take 8)

/-- The number by which the kitty knows the requests of an element. -/
def elemQ (x : Site) : Nat := 64 + elemKey x.sh x.i

/-- What an element's AG node holds once its instruction has reached an address (R199, R415). -/
def elemHold (s : State) (x : Site) (b : Blk) (va : Nat) (ld st : Bool) : State :=
  let md := (s.core x.c).mode
  match s.ctxOf x.c with
  | none => s
  | some ctx =>
    if md = .m then s
    else
      let a := if memXmode b = 1 then (remapRow none s ctx x.c (memWin b) va md).map fun r => r.2.2 else some va
      match a with
      | none => s
      | some a => s.modElem x fun e => { e with xlats := holdWay e.xlats s ctx a ld st md }

/-- A memory element's range, translated with what its AG node holds (R199, R415). -/
def elemReach (s : State) (x : Site) (b : Blk) (va n : Nat) (ld st : Bool) : Reach :=
  reach (s.elem x).xlats s x.c (memXmode b) (memWin b) (s.core x.c).mode va n ld st

/-- A memory element reaches its memory: it waits with its tokens for a parked page, a stale replica, the requests ahead of it or
another package's answer, halts the graph on a fault, or goes on with the pieces. s0 is the state with its tokens still on their
links, s1 that without them. -/
def withReach (s0 s1 : State) (x : Site) (r : Reach) (va : Nat) (f : List (Nat × Nat) → List Byte → State → State) : State :=
  withPieces s0 x.c (elemQ x) ((s0.ctxOf x.c).getD 0) va r (fun c s => gridHalt s x 0 c) fun ps far s =>
    f ps far { s1 with links := s.links }

/-- MLD (R415): the bytes of a vector token from the address. -/
def execMld (b : Blk) (s : State) : Result :=
  elemAct b (fun x s => react b [0] false allMarks noBefore (fun x items s1 =>
    let va := tokenAddress (items.headD (.data []))
    let n := vecBytes (eType b)
    withReach s s1 x (elemReach s x b va n true false) va fun ps far s1 =>
      match readPieces x.c ps far (elemHold s1 x b (va + n - 1) true false) with
      | (.error u, s2) => s2.ueHalt x.c u
      | (.ok bs, s2) => emit s2 x b [.data bs]) x s) s

/-- MST (R415): b's bytes at the address; then a token of true lanes on target 0. -/
def execMst (b : Blk) (s : State) : Result :=
  elemAct b (fun x s => react b [0, 1] false allMarks noBefore (fun x items s1 =>
    let va := tokenAddress (items.headD (.data []))
    let bs := itemBytes (items.getD 1 (.data []))
    withReach s s1 x (elemReach s x b va bs.length false true) va fun ps _ s1 =>
      emit0 (writePieces ps bs (elemHold s1 x b (va + bs.length - 1) false true)) x b [boolToken true]) x s) s

/-- The operation of a MATOM for its type, if the pairing is defined (R415). -/
def matomOp (t n : Nat) : Option QOp :=
  if t = 0x0C then (if n = 0 then some .aaddf else none)
  else match n with
    | 0 => some .aadd
    | 1 => some (if isSigned t then .amin else .aminu)
    | 2 => some (if isSigned t then .amax else .amaxu)
    | 3 => some .aand
    | 4 => some .aor
    | 5 => some .axor
    | 6 => some .aswp
    | _ => none

/-- The lanes of a MATOM: lane and address; lanes with a negative index are skipped (R415). -/
def matomLanes (b : Blk) (va : Nat) (idx : List Nat) : List (Nat × Nat) :=
  if (bMod b).testBit 12 then
    ((idx.zip (List.range idx.length)).filter fun p => decide (0 ≤ sgn 32 p.1)).map fun (i, l) =>
      (l, wrapN 64 ((va : Int) + 4 * sgn 32 i))
  else (List.range 64).map fun l => (l, (va + 4 * l) % 2 ^ 64)

/-- The address behind one lane of a MATOM, with the faults of R198, R193 and R227. -/
def matomReach (s : State) (x : Site) (b : Blk) (va : Nat) : Reach :=
  let md := (s.core x.c).mode
  let far := fun (pa : Nat) => match remoteFault s pa 4 with | some f => Reach.fault f | none => .ok [(pa, 4)]
  match streamXlatHeld (s.elem x).xlats none s x.c (memXmode b) (memWin b) md va true true with
  | .fault c => .fault c
  | .parked pa sh => if isLocal s pa then .parked va pa sh else far pa
  | .ok pa =>
    if !(isLocal s pa) then far pa
    else
      let a : Acc := { ld := true, st := true, atomic := true, bytes := 4, mode := md }
      match (if md = .m then issueFaultM s x.c a pa else none), homeFault s x.c a (pa % 2 ^ 45) with
      | some f, _ => .fault f
      | none, some f => .fault f
      | none, none => .ok [(pa, 4)]

/-- The addresses behind all lanes, the first that is not ready deciding. -/
def matomAll (s : State) (x : Site) (b : Blk) : List (Nat × Nat) → Reach
  | [] => .ok []
  | (_, va) :: ls =>
    match matomReach s x b va with
    | .ok p =>
      match matomAll s x b ls with
      | .ok ps => .ok (p ++ ps)
      | r => r
    | r => r

/-- One lane at its home (R202, R209): the old value, which another package's answer has brought, or the place of an uncorrectable
byte. -/
def matomOne (c : Nat) (op : QOp) (pa v : Nat) (far : List Byte) (s : State) : Except Nat Nat × State :=
  if !(isLocal s pa) then (.ok (ofLe (far.take 4)), s)
  else
    let lp := pa % 2 ^ 45
    let key := keyOf s (c / 192) lp
    match s.ueAt key 4 with
    | some u => (.error u, s)
    | none => let r := performAccess (s.correct key 4) (c / 192) op 4 v 0 lp 4 0; (.ok r.1, r.2)

/-- The lanes in order, each with its operand. -/
def matomRun (c : Nat) (op : QOp) (vs : List Nat) : List (Nat × Nat) → List Byte → State → Except Nat (NMap Nat) × State
  | [], _, s => (.ok [], s)
  | (l, pa) :: ls, far, s =>
    match matomOne c op pa (vs.getD l 0) far s with
    | (.error u, s1) => (.error u, s1)
    | (.ok o, s1) =>
      match matomRun c op vs ls (if isLocal s pa then far else far.drop 4) s1 with
      | (.ok m, s2) => (.ok (NMap.put m l o), s2)
      | r => r

/-- MATOM (R415): GRID.8 for a lane address that is no multiple of 4, ATM.3 for an undefined pairing, then one atomic a
lane, and the old values. -/
def execMatom (b : Blk) (s : State) : Result :=
  elemAct b (fun x s => react b (slotsOf 0x282 (bMod b)) false allMarks noBefore (fun x items s1 =>
    let va := tokenAddress (items.headD (.data []))
    let vs := tokenFields (eType b) (itemBytes (items.getD 1 (.data [])))
    let ls := matomLanes b va (tokenFields 0x04 (itemBytes (items.getD 2 (.data []))))
    if ls.any fun p => p.2 % 4 != 0 then gridHalt s x 0 0x0B8
    else match matomOp (eType b) (bitsOf (bMod b) 11 8) with
      | none => gridHalt s x 0 0x043
      | some op =>
        withReach s s1 x (matomAll s x b ls) va fun ps far s2 =>
          let s1 := match ls.getLast? with
            | some l => elemHold s2 x b l.2 true true
            | none => s2
          match matomRun x.c op vs ((ls.zip ps).map fun (l, p) => (l.1, p.1)) far s1 with
          | (.error u, s2) => (copyMgmt s2 x.c 0x044 u).ueHalt x.c u
          | (.ok m, s2) => emit s2 x b [token64 (eType b) ((List.range 64).map fun l => NMap.getD 0 m l)]) x s) s

end Sys2Proof.Machine
end

