-- ==== Sys2Proof/Machine/GridEv.lean ====
section
/-! DEFINITION. What happens to a grid: loads complete, planes swap, elements and ports time out
(R152, R153, R351, R352, R417, R429). -/

namespace Sys2Proof.Machine

/-- The configuration of a core's grid goes on: no halt, freeze or cut has stopped it (R126, R170, R282). -/
def gridMoves (s : State) (c : Nat) : Bool := coreMoves (s.core c) && !(s.core c).cut

/-- GLOAD_COMPLETE (R351): the block stands in the shadow plane, its placement table written again (R390); or an
uncorrectable error fails the load. -/
def execGloadComplete (c : Nat) (s : State) : Result :=
  let g := (s.core c).grid
  if g.lstate ≠ 1 ∨ gridMoves s c = false then .next s
  else match s.ueAt (libraryPlace s c g.loading) 4096, libraryBlock s c g.loading with
    | none, some blk =>
      let s1 := s.correct (libraryPlace s c g.loading) 4096
      let s2 := s1.modGrid c fun g => { g with
        sh := planeOfBlock c blk, lstate := 0
        elems := g.elems.filter fun p => decide (p.1 < 128), links := g.links.filter fun p => decide (p.1 < 512) }
      .next (pump (writePlacement s2 c blk) c)
    | _, _ =>
      let s1 := s.modGrid c fun g => { g with lstate := 3, lcause := 0x0AB }
      .next (s1.haltGraph (s1.core c).graph { cause := 0x0AB, core := coreName c })

/-- The slots of an instruction. -/
def slotsAt (g : Grid) (i : Nat) : List Nat := linkedSlots (g.act.words.getD i 0)

/-- A link of the active plane that the drain mark has passed holds a token (R153): instruction and slot. A stopped entry port
takes no token of a window or a stream, which waits for the swap (R352); rows on the link from the matrix or meld output are on
its link (R459). -/
def strayLink (s : State) (c : Nat) : Option (Nat × Nat) :=
  let g := (s.core c).grid
  let data := fun (l : List Item) => l.any fun i => (asMark i).isNone
  ((List.range g.act.words.length).map fun i =>
    let w := g.act.words.getD i 0
    let e := s.elem ⟨c, i, false⟩
    if wOp w = 0x2C0 then
      match pinChan (Blk.ofWord w) with
      | some n => if e.drained && decide (8 ≤ n) && data (s.chan c n) then [(i, 0)] else []
      | none => []
    else ((slotsAt g i).filter fun n => e.passed.contains n && data (s.link ⟨c, i, false⟩ n)).map fun n => (i, n)).flatten.head?

/-- Every link of the active plane is empty, and nothing is on its way in an element or run of it (R153). -/
def gridDrained (s : State) (c : Nat) : Bool :=
  let g := (s.core c).grid
  (List.range g.act.words.length).all fun i =>
    let e := s.elem ⟨c, i, false⟩
    let op := wOp (g.act.words.getD i 0)
    e.out0.isEmpty && e.out1.isEmpty && e.phase == 0 && e.goQ == 0 && (!(op == 0x2C0 || isCtlOp op) || e.items.isEmpty)
      && (List.range 4).all fun n => (s.link ⟨c, i, false⟩ n).isEmpty

/-- DRAIN_GATED_SWAP (R153, R352): LOAD.10 for a stray token, or the swap. -/
def execDrainGatedSwap (c : Nat) (s : State) : Result :=
  if !(s.core c).grid.draining || !(gridMoves s c) then .next s
  else match strayLink s c with
    | some (i, n) => .next (s.haltToken c 0x0AA (0x4000 + 4 * i + n) (linkArc s ⟨c, i, false⟩) (slotOrd s ⟨c, i, false⟩ n))
    | none => .next (if gridDrained s c then pump (s.modGrid c exchange) c else s)

/-- WAVEFRONT_SWAP_UNMARKED (R152): once every element the mark reaches has swapped, an idle element it never reaches
does. -/
def execWavefrontSwapUnmarked (c k : Nat) (s : State) : Result :=
  let g := (s.core c).grid
  let x : Site := ⟨c, k, false⟩
  let others := (List.range g.act.words.length).all fun i =>
    unmarked (g.act.words.getD i 0) || (s.elem ⟨c, i, false⟩).gone
  if gridMoves s c && g.armed && g.sh.valid && decide (k < g.act.words.length) && unmarked (g.act.words.getD k 0) && others
      && idleAt g false k then
    .next (waveDone ((s.modElem x fun e => { e with swapped := true }).modGrid c fun g =>
      { g with activity := NMap.del g.activity (placeAt s x) }) c)
  else .next s

/-- An instruction of the active plane has waited for a second of graph time. -/
def waitedSecond (s : State) (x : Site) : Bool :=
  match (s.elem x).since with
  | none => false
  | some t => decide (t + nanos 1000000000 ≤ s.clock x.c)

/-- An element holds part of the operands of its next step and lacks the rest (R429). SWAP, EOT, EOS and INVAR take one item at a
time; MERGE and CARRY need what c says; a loop generator with counts on a needs its GO and its bound token (R409 to R412, R420);
the others need an item at every linked slot (R395). -/
def partialSet (s : State) (x : Site) : Bool :=
  let w := wordAt s x
  let here := fun (n : Nat) => (head? s x n).isSome
  let e := s.elem x
  match wOp w with
  | 0x1C1 => false
  | 0x203 => false
  | 0x340 => false
  | 0x341 => false
  | 0x201 =>
    match head? s x 2 with
    | none => here 0 || here 1
    | some i => if (asMark i).isSome then !(here 0 && here 1) else !(here (if lane0 i then 0 else 1))
  | 0x202 =>
    e.phase != 0 && match head? s x 2 with
      | none => here 1
      | some i => lane0 i && !(here 1)
  | 0x240 => (wMod w).testBit 24 && ((e.phase == 2 && !(here 0)) || (e.phase == 0 && here 0 != here 3))
  | op => !(isCtlOp op) && (linkedSlots w).any here && (linkedSlots w).any fun n => !(here n)

/-- GRID_WATCHDOG (R429): an element that has held a partial operand set for 1 s raises GRID.9 at its lowest held slot, its ctl slot
where only a GO is held. -/
def execGridWatchdog (c k : Nat) (s : State) : Result :=
  let x : Site := ⟨c, k, false⟩
  let op := wOp (wordAt s x)
  let held := ((linkedSlots (wordAt s x)).find? fun n => (head? s x n).isSome).getD 3
  .next (if op ≠ 0x2C0 ∧ op ≠ 0x2C1 ∧ waitedSecond s x = true ∧ partialSet s x = true then gridHalt s x held 0x0B9 else s)

/-- A port has waited for a second of graph time: for space while its outputs wait, for a token otherwise (R417). -/
def portWaited (s : State) (x : Site) : Bool :=
  let e := s.elem x
  if e.out0.isEmpty && e.out1.isEmpty then waitedSecond s x
  else match e.blocked with
    | none => false
    | some t => decide (t + nanos 1000000000 ≤ s.clock x.c)

/-- PORT_WAIT_TIMEOUT (R417): a PIN or POUT that has waited 1 s for a token or for space raises GRID.10. -/
def execPortWaitTimeout (c k : Nat) (s : State) : Result :=
  let x : Site := ⟨c, k, false⟩
  let op := wOp (wordAt s x)
  .next (if (op = 0x2C0 ∨ op = 0x2C1) ∧ portWaited s x = true then gridHalt s x 0 0x0BA else s)

end Sys2Proof.Machine
end

