-- ==== Sys2Proof/Machine/Reduce.lean ====
section
/-! DEFINITION. Reductions and lane moves: RSUM, RMAX, RMIN, BCAST, SHUF, ROTL (R407, R251). -/

namespace Sys2Proof.Machine

/-- A rounded value: its bits, the value they hold, what was counted. -/
def roundTo (t rm u : Nat) (v : Val) : Nat × Val × List Nat :=
  let r := encodeElem t rm u v
  (r.1, valOf t r.1, r.2)

/-- One level of the pairwise tree, its additions numbered from i (R251, R255). -/
def treeLevel (t rm : Nat) (us : List Nat) : Nat → List Val → List Val × List Nat
  | i, x :: y :: vs =>
    let r := roundTo t rm (us.getD i 0) (x.add rm y)
    let q := treeLevel t rm us (i + 1) vs
    (r.2.1 :: q.1, addCounts r.2.2 q.2)
  | _, vs => (vs, noCount)

/-- The levels of the tree, until one value remains. -/
def treeSum (t rm : Nat) (us : List Nat) : Nat → Nat → List Val → Val × List Nat
  | 0, _, vs => (vs.headD (.num false 0 1), noCount)
  | fuel + 1, i, vs =>
    match vs with
    | [v] => (v, noCount)
    | _ =>
      let l := treeLevel t rm us i vs
      let r := treeSum t rm us fuel (i + vs.length / 2) l.1
      (r.1, addCounts l.2 r.2)

/-- The exact sum of integers, saturated (R407). -/
def intSum (t : Nat) (vs : List Val) : Val × List Nat :=
  let r := roundTo t 0 0 (Val.ofInt (vs.foldl (fun n v => n + v.toInt) 0))
  (r.2.1, r.2.2)

/-- The extreme of some values, the canonical NaN if one is NaN, counted once (R407). -/
def extreme (f : Val → Val → Val) (vs : List Val) : Val × List Nat :=
  match vs with
  | [] => (.nan, noCount)
  | v :: rest =>
    let r := rest.foldl f v
    (r, if r.isNan then count 2 else noCount)

/-- What a reduction keeps of a tile: its running value's token. -/
def accOn (b : Blk) : Bool := (bMod b).testBit 18

/-- The result of a reduction leaves, or joins the tile's running value (R407). -/
def reduceOut (b : Blk) (x : Site) (tok : List Byte) (join : List Byte → List Byte × List Nat) (s : State) : State :=
  if !(accOn b) then emit s x b [.data tok]
  else
    let e := s.elem x
    if e.held = [] then s.modElem x fun e => { e with held := tok }
    else
      let r := join e.held
      (addStats s x r.2).modElem x fun e => { e with held := r.1 }

/-- A token with every lane one value. -/
def splat (t : Nat) (v : Val) : List Byte := fieldBytes t (List.replicate 64 (encodeElem t 0 0 v).1)

/-- The value every lane of a token holds. -/
def splatVal (t : Nat) (bs : List Byte) : Val := valOf t ((tokenFields t bs).headD 0)

/-- RSUM of a floating or integer token (R407, R251, R255). -/
def rsumFire (b : Blk) (x : Site) (items : List Item) (s : State) : State :=
  let t := eType b
  let rm := bRm b
  let vs := (tokenFields t (itemBytes (items.headD (.data [])))).map (valOf t)
  match srWords s x.c b 16 with
  | .error f => tokenHalt (drawsMade s x.c (bSrs b) 16) x 0 f
  | .ok (us, s1) =>
    let r := if isInteger t then intSum t vs else treeSum t rm us 7 0 vs
    reduceOut b x (splat t r.1) (fun h =>
      let q := roundTo t rm (us.getD 63 0) ((splatVal t h).add rm r.1)
      (splat t q.2.1, q.2.2)) (addStats s1 x r.2)

/-- RSUM of an XW128 token (R407, R241): the sum modulo 2^128 in n lanes; within a tile GRID.3 for another n, FMT.2 for
another E. -/
def rsumXw (b : Blk) (x : Site) (items : List Item) (s : State) : State :=
  let p := tailParts 0x1C (items.headD (.data []))
  match p.2.1 with
  | none => tokenHalt s x 0 0x0FD
  | some e =>
    let z := p.2.2.foldl (fun a v => (a + v) % 2 ^ 128) 0
    let tok := fun (v : Nat) => packBits 128 (List.replicate p.1 v) ++ tailBytes 0x1C e
    let h := (s.elem x).held
    let q := tailParts 0x1C (.data h)
    if accOn b && decide (h ≠ []) && decide (q.1 ≠ p.1) then tokenHalt s x 0 0x0B3
    else if accOn b && decide (h ≠ []) && decide (q.2.1 ≠ some e) then tokenHalt s x 0 0x0F2
    else reduceOut b x (tok z) (fun _ => (tok ((q.2.2.headD 0 + z) % 2 ^ 128), noCount)) s

/-- RMAX and RMIN (R407). -/
def extremeFire (b : Blk) (f : Val → Val → Val) (x : Site) (items : List Item) (s : State) : State :=
  let t := eType b
  let r := extreme f ((tokenFields t (itemBytes (items.headD (.data [])))).map (valOf t))
  reduceOut b x (splat t r.1) (fun h => (splat t (f (splatVal t h) r.1), noCount)) (addStats s x r.2)

/-- An EOT makes an accumulating reduction emit its running value first (R396, R407). -/
def reduceBefore (b : Blk) (x : Site) (w : Word) (s : State) : State × Bool :=
  let h := (s.elem x).held
  if ctlKind w = 2 ∧ h ≠ [] then ((emit s x b [.data h]).modElem x fun e => { e with held := [] }, true) else (s, true)

/-- A reduction. -/
def reduction (b : Blk) (op : Nat) (fire : Site → List Item → State → State) (s : State) : Result :=
  elemAct b (react b (slotsOf op (bMod b)) (bStat b) allMarks (reduceBefore b) fire) s

/-- RSUM (R407). -/
def execRsum (b : Blk) (s : State) : Result :=
  reduction b 0x180 (if eType b = 0x1C then rsumXw b else rsumFire b) s
/-- RMAX (R407). -/
def execRmax (b : Blk) (s : State) : Result := reduction b 0x181 (extremeFire b vMax) s
/-- RMIN (R407). -/
def execRmin (b : Blk) (s : State) : Result := reduction b 0x182 (extremeFire b vMin) s

/-- A lane move (R407): result lane l is lane f n l of the token; block-scaled values are encoded afresh, a tail is
kept. -/
def moveFire (b : Blk) (f : List Item → Nat → Nat → Nat) (x : Site) (items : List Item) (s : State) : State :=
  let t := eType b
  let bs := itemBytes (items.headD (.data []))
  if isBlock t then
    match decodeToken t bs with
    | .error e => tokenHalt s x 0 e
    | .ok vs =>
      let r := quantToken t ((List.range 64).map fun l => vs.getD (f items 64 l) .nan)
      emit (addStats s x r.2) x b [.data r.1]
  else
    let n := tokenElems t bs.length
    let xs := tokenFields t bs
    let tail := bs.drop (n * elemBits t / 8)
    let ys := (List.range n).map fun l => xs.getD (f items n l) 0
    emit s x b [.data (fieldBytes t ys ++ (if t = 0x1B ∨ t = 0x1C then tail else []))]

/-- BCAST (R407). -/
def execBcast (b : Blk) (s : State) : Result :=
  reactAll b 0x183 (bStat b) (moveFire b fun _ n _ => bitsOf (bMod b) 11 6 % max n 1) s
/-- SHUF (R407): the indices are a UINT8 token. -/
def execShuf (b : Blk) (s : State) : Result :=
  reactAll b 0x184 (bStat b)
    (moveFire b fun items n l => ((itemBytes (items.getD 1 (.data []))).getD l 0).toNat % max n 1) s
/-- ROTL (R407). -/
def execElemRotl (b : Blk) (s : State) : Result :=
  reactAll b 0x185 (bStat b) (moveFire b fun _ n l => (l + bitsOf (bMod b) 5 0) % max n 1) s

end Sys2Proof.Machine
end

