-- ==== Sys2Proof/Machine/Select.lean ====
section
/-! DEFINITION. Ranking, sampling, acceptance, random tokens and the statistics network: PQC, SMPL, ACPT, RNGE, STCNT,
STADD (R257 to R260, R421 to R425). -/

namespace Sys2Proof.Machine

/-! ### PQC (R421) -/

/-- K of a PQC. -/
def pqK (b : Blk) : Nat := bitsOf (bMod b) 5 0 + 1
/-- ORDER of a PQC: smallest first. -/
def pqAsc (b : Blk) : Bool := (bMod b).testBit 7

/-- A key is better than another; NaN keys rank below all others (R421). -/
def better (t : Nat) (asc : Bool) (a c : Nat) : Bool :=
  let x := valOf t a
  let y := valOf t c
  (!x.isNan && y.isNan) || (if asc then x.lt y else y.lt x)

/-- A key with its index joins the ranked list of at most K. -/
def rankIn (b : Blk) (l : List (Nat × Nat)) (k : Nat × Nat) : List (Nat × Nat) :=
  (insertBy (fun a c => better (eType b) (pqAsc b) a.1 c.1) k l).take (pqK b)

/-- A token of keys at a PQC: GRID.11 above 2^24 keys in a tile. -/
def pqFire (b : Blk) (x : Site) (items : List Item) (s : State) : State :=
  let t := eType b
  let e := s.elem x
  let keys := tokenFields t (itemBytes (items.headD (.data [])))
  let tok := e.index.headD 0
  let idx := if (bMod b).testBit 6 then (List.range 64).map fun l => 64 * tok + l
    else tokenFields 0x04 (itemBytes (items.getD 1 (.data [])))
  let n := e.cnt + keys.length
  if 2 ^ 24 < n then tokenHalt s x 0 0x0BB
  else
    let nans := (keys.filter fun k => (valOf t k).isNan).length
    (addStats s x [0, 0, nans, 0, 0]).modElem x fun e =>
      { e with items := (keys.zip idx).foldl (rankIn b) e.items, cnt := n, index := [tok + 1] }

/-- What a PQC emits for a tile: the ranked keys, and their indices. -/
def pqEmit (b : Blk) (x : Site) (s : State) : State :=
  let t := eType b
  let l := (s.elem x).items
  let fill := (encodeElem t 0 0 (.inf (!(pqAsc b)))).1
  let keys := l.map Prod.fst ++ List.replicate (64 - l.length) fill
  let idx := l.map (fun p => p.2 % 2 ^ 32) ++ List.replicate (64 - l.length) 0xFFFFFFFF
  emit1 (emit0 (s.modElem x fun e => { e with items := [], cnt := 0, index := [] }) x b [token64 t keys]) x b [token64 0x04 idx]

/-- A PQC ahead of a mark: it emits at EOT, and with pending keys at EOS and DRAIN. -/
def pqBefore (b : Blk) (x : Site) (w : Word) (s : State) : State × Bool :=
  let k := ctlKind w
  if k = 2 ∨ ((k = 3 ∨ k = 4) ∧ (s.elem x).cnt ≠ 0) then (pqEmit b x s, true) else (s, true)

/-- PQC (R421): EOD marks are absorbed. -/
def execPqc (b : Blk) (s : State) : Result :=
  elemAct b (react b (slotsOf 0x380 (bMod b)) (bStat b) (fun w => ctlKind w != 6) (pqBefore b) (pqFire b)) s

/-! ### SMPL (R257, R258, R422) -/

/-- RES of an SMPL. -/
def smplRes (b : Blk) : Bool := (bMod b).testBit 18

/-- A token of logits or weights at an SMPL: FMT.7 above 2^20 items. -/
def smplFire (b : Blk) (x : Site) (items : List Item) (s : State) : State :=
  let t := if smplRes b then 0x09 else eType b
  let new := (tokenFields t (itemBytes (items.headD (.data [])))).zip
    (if smplRes b then tokenFields 0x09 (itemBytes (items.getD 1 (.data []))) else List.replicate 64 0)
  let e := s.elem x
  if 2 ^ 20 < e.items.length + new.length then tokenHalt s x 0 0x0F7
  else s.modElem x fun e => { e with items := e.items ++ new }

/-- The weight of one logit below the maximum m under a scale (R257), with its counts. -/
def logitWeight (m sc l : Val) : Nat × List Nat :=
  match l with
  | .nan => (0, count 2)
  | .inf _ => (0, noCount)
  | .num _ _ _ =>
    let d := roundInt (intRange 32 true) 0 0 (((l.add 0 m.neg).mul sc).mul (Val.scaled false 1 16))
    let w := roundInt (intRange 32 false) 0 0
      (exp2Val ((Val.ofInt 31).add 0 ((Val.ofInt d.1).mul (Val.scaled false 1 (-16)))))
    (w.1.toNat, addCounts d.2 w.2)

/-- The weights of the logits of a tile (R257), with their counts. -/
def logitWeights (sc : Val) (ls : List Val) : List (Nat × List Nat) :=
  if ls.any fun l => decide (l = .inf false) then
    ls.map fun l => (if l = .inf false then 2 ^ 31 else 0, if l.isNan then count 2 else noCount)
  else
    let fin := ls.filter fun l => match l with | .num _ _ _ => true | _ => false
    let m := match fin with | [] => Val.ofInt 0 | v :: vs => vs.foldl vMax v
    ls.map (logitWeight m sc)

/-- The selected index, its weight and the total for a word u (R257). -/
def selectIndex (u : Nat) (ws : List Nat) : Nat × Nat × Nat :=
  let total := ws.foldl (· + ·) 0
  let th := u * total / 2 ^ 32
  let r := ws.foldl (fun (p : Nat × Nat × Option Nat) w =>
    let sum := p.2.1 + w
    (p.1 + 1, sum, match p.2.2 with
      | some k => some k
      | none => if th < sum then some p.1 else none)) (0, 0, none)
  let k := r.2.2.getD 0
  (k, ws.getD k 0, total)

/-- The words of a number of several words, low first. -/
def wordsOf (n v : Nat) : List Nat := (List.range n).map fun i => v / 2 ^ (32 * i) % 2 ^ 32

/-- An SMPL closes its tile (R422): FMT.8, then FMT.6, then one draw and the result token. -/
def smplClose (b : Blk) (x : Site) (s : State) : State × Bool :=
  let e := s.elem x
  let l := statLanes s x.c (physAt s x)
  let sc := valOf 0x0C (l.getD 0 0)
  let td := l.getD 0 0 + l.getD 1 0 * 2 ^ 32
  let tt := l.getD 2 0 + l.getD 3 0 * 2 ^ 32
  let good := match sc with | .num neg n _ => !neg && n != 0 | _ => false
  if !(smplRes b) && !good then (gridHalt s x 0 0x0F8, false)
  else
    let wc := if smplRes b then e.items.map fun p => (p.1 * td - p.2 * tt, noCount)
      else logitWeights sc (e.items.map fun p => valOf (eType b) p.1)
    let ws := wc.map Prod.fst
    if ws.all fun w => w == 0 then (gridHalt s x 0 0x0F6, false)
    else match drawOnce s x.c (bSrs b) with
      | .error f => (gridHalt s x 0 f, false)
      | .ok (us, s1) =>
        let r := selectIndex (us.headD 0) ws
        let words := if smplRes b then r.1 :: (wordsOf 4 r.2.1 ++ wordsOf 4 r.2.2)
          else r.1 :: r.2.1 % 2 ^ 32 :: wordsOf 2 r.2.2
        let s2 := addStats (s1.modElem x fun e => { e with items := [] }) x (sumCounts (wc.map Prod.snd))
        (emit s2 x b [rawToken words], true)

/-- An SMPL ahead of a mark: EOT closes the tile, and EOS or DRAIN one with items (R422, R427). -/
def smplBefore (b : Blk) (x : Site) (w : Word) (s : State) : State × Bool :=
  let k := ctlKind w
  if k = 2 ∨ ((k = 3 ∨ k = 4) ∧ (s.elem x).items ≠ []) then smplClose b x s else (s, true)

/-- SMPL (R422). -/
def execSmpl (b : Blk) (s : State) : Result :=
  elemAct b (react b (slotsOf 0x381 (bMod b)) (bStat b) allMarks (smplBefore b) (smplFire b)) s

/-! ### ACPT, RNGE (R258, R423, R424) -/

/-- ACPT (R423): FMT.9 for a total of zero, one draw, a BOOL token. -/
def execAcpt (b : Blk) (s : State) : Result :=
  reactAll b 0x382 false (fun x items s =>
    let ws := tokenFields 0x1D (itemBytes (items.headD (.data [])))
    let pair := fun (i : Nat) => ws.getD i 0 + ws.getD (i + 1) 0 * 2 ^ 32
    if pair 2 = 0 ∨ pair 6 = 0 then tokenHalt s x 0 0x0F9
    else match drawOnce s x.c (bSrs b) with
      | .error f => tokenHalt s x 0 f
      | .ok (us, s1) =>
        let ok : Bool := decide (us.headD 0 * pair 0 * pair 6 < pair 4 * pair 2 * 2 ^ 32)
        emit s1 x b [boolToken ok]) s

/-- RNGE (R424): sixteen draws, 64 words, for each token. -/
def execRnge (b : Blk) (s : State) : Result :=
  reactAll b 0x383 false (fun x _ s =>
    match drawMany s x.c (bSrs b) 16 with
    | .error f => tokenHalt (drawsMade s x.c (bSrs b) 16) x 0 f
    | .ok (us, s1) => emit s1 x b [rawToken us]) s

/-! ### STCNT, STADD (R260, R425) -/

/-- The instructions of a plane that send count tokens: STAT 1 where the modifier has it (R425). -/
def statSources (p : Plane) : List Nat :=
  (List.range p.words.length).filter fun i =>
    let w := p.words.getD i 0
    let op := wOp w
    (opRounds op || decide (0x180 ≤ op ∧ op ≤ 0x185) || op == 0x380 || op == 0x381) && (wMod w).testBit 12

/-- A count token's item: 32 bytes (R260). -/
def countItem (ws : List Nat) : Item := .data (packBits 32 ws)

/-- STCNT (R425): one count token of each source, merged in their order. -/
def stcntAct (b : Blk) (x : Site) (s : State) : State :=
  let e := s.elem x
  let src := statSources (planeOf (s.core x.c).grid x.sh)
  let heads := src.filterMap fun i => (NMap.getD [] e.statq i).head?
  match heads with
  | [] => s
  | h :: hs =>
    if heads.length < src.length then s
    else
      let s1 := s.modElem x fun e =>
        { e with statq := src.foldl (fun m i => NMap.put m i ((NMap.getD [] m i).drop 1)) e.statq }
      emit0 s1 x b [countItem (hs.foldl mergeCounts h)]

/-- STCNT (R425). -/
def execStcnt (b : Blk) (s : State) : Result := elemAct b (stcntAct b) s

/-- STADD (R425): two count tokens merged, a's the first operand. -/
def execStadd (b : Blk) (s : State) : Result :=
  reactAll b 0x3C1 false (fun x items s =>
    let ws := fun (i : Nat) => unpackBits 32 8 ((itemBytes (items.getD i (.data []))).take 32)
    emit s x b [countItem (mergeCounts (ws 0) (ws 1))]) s

end Sys2Proof.Machine
end

