-- ==== Sys2Proof/Machine/ElementMark.lean ====
section
/-! DEFINITION. An element consumes its marks, and any element by its opcode (R396). -/

namespace Sys2Proof.Machine

/-- The meaning of an element instruction by its opcode (R309). -/
def runElem (op : Nat) (b : Blk) (s : State) : Result :=
  match op with
  | 0x001 => execElemNop b s
  | 0x002 => execConst b s
  | 0x003 => execSink b s
  | 0x004 => execCopy b s
  | 0x040 => execElemAdd b s
  | 0x041 => execElemSub b s
  | 0x042 => execElemMul b s
  | 0x043 => execFma b s
  | 0x044 => execFms b s
  | 0x045 => execNfma b s
  | 0x046 => execElemMin b s
  | 0x047 => execElemMax b s
  | 0x048 => execAbs b s
  | 0x049 => execNeg b s
  | 0x080 => execElemAnd b s
  | 0x081 => execElemOr b s
  | 0x082 => execElemXor b s
  | 0x083 => execNot b s
  | 0x084 => execElemShl b s
  | 0x085 => execElemShr b s
  | 0x086 => execElemSra b s
  | 0x087 => execClamp b s
  | 0x0C0 => execCmpeq b s
  | 0x0C1 => execCmplt b s
  | 0x0C2 => execCmple b s
  | 0x0C3 => execSel b s
  | 0x100 => execExp2 b s
  | 0x101 => execLog2 b s
  | 0x102 => execRcp b s
  | 0x103 => execRsq b s
  | 0x140 => execCvt b s
  | 0x141 => execQblk b s
  | 0x142 => execDqblk b s
  | 0x143 => execTosd b s
  | 0x144 => execFromsd b s
  | 0x145 => execBpln b s
  | 0x180 => execRsum b s
  | 0x181 => execRmax b s
  | 0x182 => execRmin b s
  | 0x183 => execBcast b s
  | 0x184 => execShuf b s
  | 0x185 => execElemRotl b s
  | 0x1C0 => execSld b s
  | 0x1C1 => execSwap b s
  | 0x200 => execSteer b s
  | 0x201 => execMerge b s
  | 0x202 => execCarry b s
  | 0x203 => execInvar b s
  | 0x240 => execLgen b s
  | 0x241 => execAgen b s
  | 0x242 => execAgch b s
  | 0x280 => execMld b s
  | 0x281 => execMst b s
  | 0x282 => execMatom b s
  | 0x2C0 => execPin b s
  | 0x2C1 => execPout b s
  | 0x300 => execCseq b s
  | 0x301 => execCpipe b s
  | 0x302 => execCstrm b s
  | 0x340 => execEot b s
  | 0x341 => execEos b s
  | 0x342 => execTstm b s
  | 0x380 => execPqc b s
  | 0x381 => execSmpl b s
  | 0x382 => execAcpt b s
  | 0x383 => execRnge b s
  | 0x3C0 => execStcnt b s
  | 0x3C1 => execStadd b s
  | _ => .next s

/-- The element of instruction k of a plane of a core acts. -/
def actElem (c k : Nat) (sh : Bool) (s : State) : Result :=
  let s1 := { s with turn := c, focus := (k, sh) }
  match (planeOf (s1.core c).grid sh).words[k]? with
  | none => .next s
  | some w => runElem (wOp w) (Blk.ofWord w) s1

/-- ELEMENT_MARK (R396): an element with a mark at the head of a linked slot acts. -/
def execElementMark (c k : Nat) (sh : Bool) (s : State) : Result :=
  let x : Site := ⟨c, k, sh⟩
  let marked := (linkedSlots (wordAt s x)).any fun n =>
    match head? s x n with
    | some i => (asMark i).isSome
    | none => false
  if marked then actElem c k sh s else .next s

end Sys2Proof.Machine
end

