-- ==== Sys2Proof/Machine/Kitty.lean ====
section
/-! DEFINITION. Management releases or declines a parked page (R204). -/

namespace Sys2Proof.Machine

/-- The parked requests for the leaf of a page of a context, with those of others behind them for the same place in memory. -/
def parkedFor (s : State) (x page : Nat) : List Parked :=
  let mine := s.kitty.filter fun p => p.ctx == x && p.page * 4096 / 2 ^ p.sh == page * 4096 / 2 ^ p.sh
  s.kitty.filter fun p => mine.any fun q => p.pa / 2 ^ q.sh == q.pa / 2 ^ q.sh

/-- The kitty without some of its requests. -/
def unpark (s : State) (ps : List Parked) : State := { s with kitty := s.kitty.filter fun p => !(ps.contains p) }

/-- The state an element's move leaves, with the moving core as before. -/
def elemMove (s : State) (c key : Nat) : State :=
  match actElem c (key % 128) (decide (128 ≤ key)) s with
  | .next s1 => { s1 with turn := s.turn, focus := s.focus }
  | _ => s

/-- An entry in the freeze image of a graph gets its answer, which its home holds until the thaw (R171). -/
def holdAnswer (s : State) (h l q fault resp : Nat) : State :=
  let put := fun (x : Nat × Core) =>
    if x.1 = l then (x.1, x.2.setEntry q { x.2.entry q with performed := true, fault := fault, resp := resp }) else x
  s.modGraph h fun g => { g with image := g.image.map fun m => { m with cores := m.cores.map put } }

/-- The entry of a logical core in the freeze image of a graph. -/
def heldEntry (s : State) (h l q : Nat) : QEntry :=
  match (s.graph? h).bind Graph.image with
  | none => {}
  | some m => ((m.cores.find? fun x => x.1 == l).map fun x => x.2.entry q).getD {}

/-- The entries of a logical core in the freeze image of a graph. -/
def heldEntries (s : State) (h l : Nat) : NMap QEntry :=
  match (s.graph? h).bind Graph.image with
  | none => []
  | some m => ((m.cores.find? fun x => x.1 == l).map fun x => x.2.entries).getD []

/-- An entry in the freeze image of a graph changed. -/
def setHeld (s : State) (h l q : Nat) (e : QEntry) : State :=
  s.modGraph h fun g => { g with image := g.image.map fun m =>
    { m with cores := m.cores.map fun x => if x.1 = l then (x.1, x.2.setEntry q e) else x } }

/-- The address of an entry's first byte, once it has been translated. -/
def entryAt (e : QEntry) (other : Nat) : Nat :=
  match e.dest with
  | .parked pa => pa
  | .phys pa => pa
  | .none => other

/-- An entry one of whose parked pages has been released: it leads to its first byte, and parks for what is left. -/
def QEntry.unparked (e : QEntry) (pa : Nat) : QEntry :=
  { e with parks := e.parks.drop 1, dest := if 1 < e.parks.length then .parked pa else .phys pa }

/-- A parked request of a frozen graph goes on where it would without the freeze (R171, R229): to the kitty of its next page, or to
its home, which holds its answer. -/
def performHeld (s : State) (p : Parked) (h l : Nat) : State :=
  let e0 := heldEntry s h l p.q
  let pa := entryAt e0 (s.links.pkg * 2 ^ 45 + p.pa)
  let e := e0.unparked pa
  let s0 := setHeld s h l p.q e
  let next := match e.parks with
    | y :: _ => some y
    | [] => entryKitty s e pa
  let es := heldEntries s h l
  let there := fun (y : Nat × Nat) (q : Nat) => s.kitty.any fun z =>
    z.frz == some (h, l) && z.q == q && z.pa / 2 ^ y.2 == y.1 % 2 ^ 45 / 2 ^ y.2
  if (match next with
      | some y => earlierMeets es p.q e pa (there y)
      | none => earlierMeets es p.q e pa fun _ => false) then s0
  else match next with
  | some y =>
    let lp := y.1 % 2 ^ 45
    let va := if y.1 = pa then e.addr else nextPage e.addr
    joinKitty s0 0xFFFF va { p with page := va / 4096, pa := lp, sh := y.2, home := State.homeOf (lp / 2 ^ y.2 * 2 ^ y.2) }
  | none =>
    let c := p.core % 2 ^ 20
    match spanFault s c (entryAcc e) pa (firstPart e) e.pa2 with
    | some f =>
      let s1 := holdAnswer s0 h l p.q f 0
      if f = 0x143 then s1.tellMgmt (s1.graphNotice h { cause := f, core := coreName c, detail := e.addr }) else s1
    | none =>
      let r := homeAnswer s0 (c / 192) e pa
      let s1 := holdAnswer r.state h l p.q r.cause r.resp
      match r.bad with
      | none => s1
      | some x =>
        let s2 := if r.cause = 0x044 then s1.tellMgmt (s1.graphNotice h { cause := 0x044, detail := x }) else s1
        let u := State.ueLocation x
        s2.haltLocation h u.1 u.2.1 u.2.2.1 u.2.2.2.1

/-- An engine of a core asks its memory again: a stream, an append region, an element. -/
def engineAsks (s : State) (c q : Nat) : State :=
  if q < 24 then streamMove s c (q - 16)
  else if q < 32 then appendPerform s c (q - 24)
  else elemMove s c (q - 64)

/-- A parked request as the home knows it while its core stands in the core's place: the occupant's requests step aside. -/
def swapIn (h l c : Nat) (p : Parked) : Parked :=
  if p.msg.isSome then p
  else if p.frz = some (h, l) then { p with core := c, frz := none }
  else if p.frz.isNone ∧ p.core = c then { p with core := 2 ^ 21 + c }
  else p

/-- The parked requests afterwards: those of the image's core are held again, the occupant's stand as before. -/
def swapOut (h l c : Nat) (p : Parked) : Parked :=
  if p.msg.isSome ∨ p.frz.isSome then p
  else if p.core = c then { p with core := 2 ^ 20 + c, frz := some (h, l) }
  else if p.core = 2 ^ 21 + c then { p with core := c }
  else p

/-- The core of a freeze image stands in its core's place for one move, and the image then holds what the move leaves (R171, R229): a
home that performs the request of a frozen graph's engine holds the answer with the image. -/
def inImage (s : State) (h l c : Nat) (f : State → State) : State :=
  match (s.graph? h).bind Graph.image with
  | none => s
  | some m =>
    let k := ((m.cores.find? fun x => x.1 == l).map Prod.snd).getD {}
    let old := ((m.bytes.find? fun x => x.1 == l).map Prod.snd).getD []
    let mine := windowCells s c
    let inside := fun (x : Nat × Bool) => decide (winBase c ≤ x.1 ∧ x.1 < winBase c + 2 ^ 24)
    let fill := fun (s : State) (cells : List Host.Cell) => cells.foldl (fun s b => s.write (winBase c + b.1) [b.2]) (s.clear (winBase c) (2 ^ 24))
    let s1 := (fill s old).setCore c { k with graph := h, lcore := l, run := k.frozeAs }
    let s2 := f { s1 with
      kitty := s1.kitty.map (swapIn h l c)
      links := { s1.links with
        outbox := (s1.links.outbox.map fun (o : Away) => if o.core = c then { o with core := 2 ^ 21 + c } else o)
          ++ m.outbox.filter fun (o : Away) => o.core == c
        inbox := (s1.links.inbox.map fun (o : Brought) => if o.core = c then { o with core := 2 ^ 21 + c } else o)
          ++ m.inbox.filter fun (o : Brought) => o.core == c } }
    let k2 := { s2.core c with graph := k.graph, lcore := k.lcore, run := k.run, frozeAs := k.frozeAs }
    let m2 : Snapshot := { m with
      cores := m.cores.map fun x => if x.1 = l then (l, k2) else x
      bytes := m.bytes.map fun x => if x.1 = l then (l, windowCells s2 c) else x
      outbox := (m.outbox.filter fun (o : Away) => o.core != c) ++ s2.links.outbox.filter fun (o : Away) => o.core == c
      inbox := (m.inbox.filter fun (o : Brought) => o.core != c) ++ s2.links.inbox.filter fun (o : Brought) => o.core == c }
    let s3 := (fill s2 mine).setCore c (s.core c)
    { s3 with
      ecc := { s3.ecc with marks := (s3.ecc.marks.filter fun x => !(inside x)) ++ s.ecc.marks.filter inside }
      kitty := s3.kitty.map (swapOut h l c)
      links := { s3.links with
        outbox := (s3.links.outbox.filter fun (o : Away) => o.core != c).map fun (o : Away) => if o.core = 2 ^ 21 + c then { o with core := c } else o
        inbox := (s3.links.inbox.filter fun (o : Brought) => o.core != c).map fun (o : Brought) => if o.core = 2 ^ 21 + c then { o with core := c } else o }
    }.modGraph h fun g => { g with image := some m2 }

/-- A queue entry one of whose parked pages has been released goes on (R198, R204): to the kitty of its next page, or to its home. -/
def performEntry (s : State) (p : Parked) : State :=
  let e0 := (s.core p.core).entry p.q
  if !e0.busy || e0.performed then s
  else
    let pa := entryAt e0 (s.links.pkg * 2 ^ 45 + p.pa)
    let e := e0.unparked pa
    let s1 := s.modCore p.core fun k => k.setEntry p.q e
    match e.parks, entryKitty s1 e pa with
    | _ :: _, _ => toKitty s1 p.core p.q e pa
    | [], some y => if joinHeld s1 p.core p.q e pa y then s1 else parkEntry s1 p.core p.q e pa y
    | [], none => if doubleHeld s1 p.core p.q e pa then s1 else reachHome s1 p.core p.q e pa

/-- A parked request is performed at its home (R204). -/
def performParked (s : State) (p : Parked) : State :=
  match p.msg, p.frz with
  | some m, _ => performRemote s m
  | none, some (h, l) =>
    if p.q < 16 then performHeld s p h l else inImage s h l (p.core % 2 ^ 20) fun s => engineAsks s (p.core % 2 ^ 20) p.q
  | none, none =>
    if 12 * 192 ≤ p.core then engineFire s (p.core - 12 * 192)
    else if p.q < 16 then performEntry s p
    else engineAsks s p.core p.q

/-- KITTY_RELEASE (R204): the home performs the page's requests once each in arrival order, and XLT.14 goes to the
supervisor. -/
def execKittyRelease (x page : Nat) (s : State) : Result :=
  let ps := parkedFor s x page
  .next (if ps = [] then s
    else (ps.foldl performParked (unpark s ps)).notify x { cause := 0x03E, detail := page * 4096 })

/-- A request of a kitty completes with a cause and is not performed. -/
def endParked (f : Nat) (s : State) (p : Parked) : State :=
  match p.msg, p.frz with
  | some m, _ => sendReply s (replyTo m f 0) false
  | none, some (h, l) =>
    if p.q < 16 then holdAnswer s h l p.q f 0
    else s.modGraph h fun g => { g with image := g.image.map fun m =>
      { m with inbox := m.inbox ++ [{ core := p.core % 2 ^ 20, q := p.q, cause := f, data := 0 }] } }
  | none, none =>
    if 12 * 192 ≤ p.core then
      match NMap.find s.actors (p.core - 12 * 192) with
      | some a => memHalt s (p.core - 12 * 192) a 0xFFFFFFFF f
      | none => s
    else if p.q < 16 then arrive s p.core p.q f 0
    else if p.q < 24 then
      match streamHead s p.core (p.q - 16) with
      | some m => streamHalt s p.core (p.q - 16) m f
      | none => s
    else if p.q < 32 then s.haltReached (s.core p.core).graph { cause := f, core := coreName p.core }
    else gridHalt s ⟨p.core, (p.q - 64) % 128, decide (128 ≤ p.q - 64)⟩ 0 f

/-- A declined request completes with XLT.4 and is not performed (R204). -/
def declineParked (s : State) (p : Parked) : State := endParked 0x034 s p

/-- KITTY_DECLINE (R204). -/
def execKittyDecline (x page : Nat) (s : State) : Result :=
  let ps := parkedFor s x page
  .next (ps.foldl declineParked (unpark s ps))

end Sys2Proof.Machine
end

