-- ==== Sys2Proof/Machine/Dumps.lean ====
section
/-! DEFINITION. Cuts, dumps, the patrol scrubber and spare rows (R273, R275 to R282). -/

namespace Sys2Proof.Machine

/-! ### Cuts (R282) -/

/-- CUT_MARKER (R282): the marker reaches a core of a graph that is being cut; its parts stop, and with the last the cut is
complete. -/
def execCutMarker (c : Nat) (s : State) : Result :=
  .next (match s.graph? (s.core c).graph with
    | none => s
    | some g => if g.cutSince.isSome && !(g.cutCores.contains c) then s.cutCore c else s)

/-- CUT_TIMEOUT (R282, R79): a cut not complete in time, at the coordinating package, halts the graph with DBG.7. The bound counts
device time on every package, since graph time stands still while a cut stands (log entry 96, DESIGN CHOICE). -/
def execCutTimeout (g : Word32) (s : State) : Result :=
  let h := g.toNat
  .next (match s.graph? h with
    | none => s
    | some g =>
      let late := match g.cutSince with
        | none => false
        | some t => decide (t + waveBound g ≤ s.time)
      if late && !g.cutDone && g.coord.isNone then s.haltGraph h { cause := 0x177 } else s)

/-! ### Pending stores (R279) -/

/-- The record of a pending store. -/
def storeRecord (addr src ann core num flags seq : Nat) (bs : List Byte) : List Byte :=
  leBytes 8 addr ++ leBytes 2 bs.length ++ leBytes 1 src ++ leBytes 1 ann ++ leBytes 2 core ++ leBytes 1 num ++ leBytes 1 flags
    ++ leBytes 8 seq ++ leBytes 8 0 ++ bs ++ List.replicate (roundUp bs.length 16 - bs.length) 0

/-- The code of an annotation. -/
def annCode : Ann → Nat
  | .rlx => 0
  | .rel => 1
  | .acq => 2
  | .ar => 3

/-- The address field of an entry's record: where it leads, or its untranslated address. -/
def entryPlace (e : QEntry) : Nat :=
  match e.dest with
  | .phys pa => pa
  | .parked pa => pa
  | .none => 2 ^ 63 + e.addr % 2 ^ 48

/-- The record of an entry of a core. -/
def entryRecord (s : State) (c q flags : Nat) : List Byte :=
  let e := (s.core c).entry q
  let src := match entryOp e with
    | some .stq => 0
    | _ => 3
  storeRecord (entryPlace e) src (annCode e.ann) (coreName c) q flags e.seq (leBytes e.bytes e.data)

/-- An entry holds a store not performed: a store or an atomic. -/
def entryPending (e : QEntry) : Bool :=
  e.busy && !e.performed && match entryOp e with
    | some op => op != .ldq
    | none => false

/-- The records of a core's entries whose stores are withdrawn: those that have not left the package. -/
def entryStores (s : State) (c : Nat) : List (List Byte) :=
  ((s.core c).entries.filter fun (q, e) =>
    entryPending e && !(isAway s c q)).map fun (q, _) => entryRecord s c q 0

/-- The record of the packet that a stream of a core waits to write: a write's, or a copy's that has been read. -/
def streamRecord (s : State) (c e flags : Nat) : Option (List Byte) :=
  match streamHead s c e with
  | none => none
  | some m =>
    let put := fun (va : Nat) (bs : List Byte) => some (storeRecord (2 ^ 63 + va % 2 ^ 48) 1 0 (coreName c) e flags m.iseq bs)
    let n := burstLen m.chain m.addr m.pos m.bytes
    match m.kind with
    | 1 => put (streamAddr m.chain m.addr m.pos) (if m.lkind = 1 then s.tile c (m.loff + m.pos) n else m.buf.take n)
    | 2 => if m.buf = [] then none else put (m.daddr + m.pos) m.buf
    | _ => none

/-- The records of a core's streams whose write waits in a kitty. -/
def streamStores (s : State) (c : Nat) : List (List Byte) :=
  ([0, 1, 2, 3].filter fun e => inKitty s c (16 + e)).filterMap fun e => streamRecord s c e 0

/-- The instruction of the element that the kitty and the outbox know by a number. -/
def elemInstr (k : Core) (q : Nat) : Option Instr :=
  let p := if 128 ≤ q - 64 then k.grid.sh else k.grid.act
  (p.words[(q - 64) % 128]?).bind decodeBlk

/-- The records of what an element, waiting for its memory, was to store: an MST's bytes, a MATOM's lanes. -/
def elemRecords (s : State) (c q flags : Nat) : List (List Byte) :=
  let k := s.core c
  let item := fun (n : Nat) => ((NMap.getD [] k.grid.links ((q - 64) * 4 + n)).headD (.data []))
  let va := tokenAddress (item 0)
  let rec1 := fun (va src : Nat) (bs : List Byte) =>
    storeRecord (2 ^ 63 + va % 2 ^ 48) src 0 (coreName c) ((q - 64) % 256) flags k.issueSeq bs
  match elemInstr k q with
  | some (.mst _) => [rec1 va 2 (itemBytes (item 1))]
  | some (.matom b) =>
    let vs := tokenFields (eType b) (itemBytes (item 1))
    (matomLanes b va (tokenFields 0x04 (itemBytes (item 2)))).map fun l => rec1 l.2 3 (leBytes 4 (vs.getD l.1 0))
  | _ => []

/-- The records of the stores and atomics of a core's elements that wait in a kitty. -/
def elemStores (s : State) (c : Nat) : List (List Byte) :=
  (((s.kitty.filter fun p => p.core == c && decide (64 ≤ p.q ∧ p.q < 64 + 256)).map Parked.q).eraseDups.map fun q => elemRecords s c q 0).flatten

/-- The record of the token that a memory sink of a graph waits to write. -/
def sinkRecord (s : State) (n : Nat) (flags : Nat) : Option (List Byte) :=
  match NMap.find s.actors n with
  | none => none
  | some a =>
    match a.window, (s.graph? a.graph).bind fun g => (enginePort g.img a.actor).map fun p => (g, p) with
    | t :: _, some (g, p) =>
      let addr := ((engineDesc g.img (n % 64)).getD 0 0).toNat + a.f * p.tsize
      if a.sink then some (storeRecord (2 ^ 63 + addr % 2 ^ 48) 1 0 (coreName (engineCore (n % 64))) (n % 64) flags a.f t) else none
    | _, _ => none

/-- The records of a graph's memory sinks whose write waits in a kitty. -/
def sinkStores (s : State) (h : Nat) : List (List Byte) :=
  ((s.actors.filter fun (n, a) => a.graph == h && inKitty s (engineCore n) 0x1000).filterMap fun (n, _) => sinkRecord s n 0)

/-- The record of a write of an append region of a core. -/
def appendRecord (c n flags : Nat) (w : ApWrite) : List Byte :=
  storeRecord (2 ^ 63 + w.addr % 2 ^ 48) 1 (if w.isLen then 1 else 0) (coreName c) n flags w.seq w.bytes

/-- An append region's head write is on its way to another package. -/
def appendAway (s : State) (c n : Nat) : Bool := s.links.outbox.any fun o => o.core == c && o.q == 24 + n

/-- The records of a core's append regions' writes that have not left the package. -/
def appendStores (s : State) (c : Nat) : List (List Byte) :=
  ((s.core c).appends.map fun (n, a) => ((if appendAway s c n then a.queue.drop 1 else a.queue).map (appendRecord c n 0))).flatten

/-- The records of a graph's pending stores when its dump starts. -/
def pendingStores (s : State) (g : Graph) : List (List Byte) :=
  (g.cores.map fun x => entryStores s x.2 ++ streamStores s x.2 ++ appendStores s x.2 ++ elemStores s x.2).flatten ++ sinkStores s g.handle

/-- The records of the stores that a request on its way to another package was to make there: of an entry, a stream, an append region,
an element, a memory sink. -/
def awayRecords (s : State) (c q : Nat) : List (List Byte) :=
  if entryPending ((s.core c).entry q) then [entryRecord s c q 1]
  else if q < 16 then []
  else if 12 * 192 ≤ c then (sinkRecord s (c - 12 * 192) 1).toList
  else if q < 24 then (streamRecord s c (q - 16) 1).toList
  else if q < 64 then ((NMap.getD ({} : Append) (s.core c).appends (q - 24)).queue.head?.map (appendRecord c (q - 24) 1)).toList
  else elemRecords s c q 1

/-- A core or memory actor of a graph has issued a request. -/
def issuedBy (s : State) (h c : Nat) : Bool :=
  (s.core c).graph == h || (decide (12 * 192 ≤ c) && actorGraph s (c - 12 * 192) == h)

/-! ### Dumps (R276 to R280) -/

/-- The fault list: each fault but the primary, 16 bytes (R278). -/
def faultList (g : Graph) : List Byte :=
  (g.faults.map fun n => leBytes 2 n.cause ++ leBytes 2 n.core ++ leBytes 2 n.port ++ leBytes 2 0
    ++ leBytes 6 n.detail ++ leBytes 2 0).flatten

/-- The location words of the uncorrectable errors in a graph's cores (R278). -/
def errorList (s : State) (g : Graph) : List Byte :=
  let hit := fun (m : Nat × Bool) => m.2 && g.cores.any fun x => decide (winBase x.2 ≤ m.1 ∧ m.1 < winBase x.2 + 2 ^ 24)
  ((s.ecc.marks.filter hit).map fun m =>
    let l := State.ueLocation m.1
    leBytes 8 (l.2.1 * 2 ^ 44 + l.2.2.1 * 2 ^ 40 + l.2.2.2.1)).flatten

/-- The sections of a dump (R278). -/
def dumpSections (s : State) (h : Nat) (g : Graph) : List (Nat × List Byte) :=
  graphSections s true h g ++ [(9, s.dump.stores.flatten), (10, faultList g), (11, errorList s g)]

/-- The header of a dump over a body (R277). -/
def dumpHeader (s : State) (h : Nat) (g : Graph) (flags nsect : Nat) (body : List Byte) : List Byte :=
  leBytes 4 0x4B59444D ++ leBytes 2 1 ++ leBytes 1 s.grade ++ leBytes 1 flags ++ leBytes 8 g.imageid ++ leBytes 4 h
    ++ leBytes 2 g.cause ++ leBytes 2 g.primary.core ++ leBytes 8 g.primary.detail ++ leBytes 8 (g.gtime / 5)
    ++ leBytes 4 g.cores.length ++ leBytes 4 nsect ++ leBytes 8 (128 + body.length + 64) ++ leBytes 8 s.dump.written
    ++ sm3 body ++ List.replicate 32 0

/-- The trailer of a dump (R280). -/
def dumpTrailer (s : State) (h : Nat) : List Byte :=
  let done := match NMap.find s.ctxs (h / 2 ^ 28) with
    | none => 0
    | some k => k.ctime / 5
  let n := s.dump.secondary.getD { core := 0 }
  leBytes 4 0x4B59454E ++ leBytes 2 (if s.dump.secondary.isSome then 2 ^ 15 + n.cause else 0) ++ leBytes 2 s.dump.nsec
    ++ leBytes 4 n.graph ++ leBytes 2 n.core ++ leBytes 2 0 ++ leBytes 8 n.detail ++ leBytes 8 done ++ List.replicate 32 0

/-- The sections that fit whole into a number of bytes with header and trailer. -/
def fitting (room : Nat) (xs : List (Nat × List Byte)) : List (Nat × List Byte) :=
  let n := ((List.range (xs.length + 1)).reverse.find? fun n =>
    decide (128 + (packSections (xs.take n)).length + 64 ≤ room)).getD 0
  xs.take n

/-- The running dump ends with its trailer: some sections, flags and the count of dumps; what is in the area is there for
system software, the graph's resources are released (R276, R280). -/
def endDump (s : State) (h : Nat) (g : Graph) (xs : List (Nat × List Byte)) (flags : Nat) : State :=
  let room := Config.dumpSize - s.dump.next
  let ys := fitting room xs
  let cut := decide (ys.length < xs.length)
  let body := packSections ys
  let bs := dumpHeader s h g (flags ||| s.dump.flags ||| (if cut then 2 else 0)) ys.length body ++ body ++ dumpTrailer s h
  let s1 := if bs.length ≤ room then s.write (Config.dumpBase + s.dump.next) bs else s
  let s2 : State := { s1 with dump := { queue := s.dump.queue, written := s.dump.written + 1
                                        next := min (s.dump.next + roundUp bs.length 64) Config.dumpSize } }
  let s3 := s2.release h
  if cut then
    let n : Notice := { cause := 0x17A, flags := 2 }
    (s3.notifyGraph h n).tellMgmt (s3.graphNotice h n)
  else s3

/-- DUMP_START (R105, R276, R279): the engine, if it was started, takes the next halted graph; its parked and local requests are withdrawn, their
stores recorded. -/
def execDumpStart (s : State) : Result :=
  .next (if !(s.dumperUp) then s else match s.dump.current, s.dump.queue with
    | none, h :: rest =>
      match s.graph? h with
      | none => { s with dump := { s.dump with queue := rest } }
      | some g =>
        let mine := g.cores.map Prod.snd ++ (s.actors.filter fun (_, a) => a.graph == h).map fun x => engineCore x.1
        { s with
          dump := { s.dump with
            queue := rest, current := some h, since := s.time, flags := 0, secondary := none, nsec := 0, stores := pendingStores s g }
          kitty := s.kitty.filter fun p => p.msg.isSome || !(mine.contains p.core) }
    | _, _ => s)

/-- A store of a graph is on its way to another package. -/
def storesAway (s : State) (g : Graph) : Bool :=
  s.links.outbox.any fun o => issuedBy s g.handle o.core && !(awayRecords s o.core o.q).isEmpty

/-- DUMP_COMPLETE (R276, R280): no store of the graph is awaited from another package; the dump stands in the area, its
trailer written, and DBG.8 goes to the supervisor. -/
def execDumpComplete (s : State) : Result :=
  .next (match s.dump.current with
    | none => s
    | some h =>
      match s.graph? h with
      | none => { s with dump := { s.dump with current := none } }
      | some g =>
        if storesAway s g then s
        else (endDump s h g (dumpSections s h g) 0).notifyGraph h { cause := 0x178 })

/-- DUMP_ENGINE_FAULT (R280): the engine resets; the dump, with the sections written so far, is partial: DBG.9 to the
supervisor, DBG.12 to management. How many sections were written is a free value. -/
def execDumpEngineFault (s : State) : Result :=
  .next (match s.dump.current with
    | none => s
    | some h =>
      match s.graph? h with
      | none => { s with dump := { s.dump with current := none } }
      | some g =>
        let xs := dumpSections s h g
        let r := s.takeFresh
        let s1 := endDump r.2 h g (xs.take (r.1 % (xs.length + 1))) 1
        (s1.notifyGraph h { cause := 0x179 }).tellMgmt (s1.graphNotice h { cause := 0x17C }))

/-- PENDING_REMOTE_EXPIRY (R279): a store of the graph whose dump runs, 1 ms unresolved at another package, is recorded as
outcome unknown. -/
def execPendingRemoteExpiry (c q : Nat) (s : State) : Result :=
  .next (match s.dump.current, onWay s c q with
    | some h, some o =>
      if issuedBy s h c = true ∧ s.dump.since + nanos 1000000 ≤ s.time ∧ awayRecords s c q ≠ [] then
        leaveOutbox { s with dump := { s.dump with stores := s.dump.stores ++ awayRecords s c q } } o
      else s
    | _, _ => s)

/-! ### The scrubber and spare rows (R273, R275) -/

/-- A byte of HBM4 lies in the range that a memory actor reads or writes, its pages translated as the actor's accesses are
(R455). -/
def actorHolds (s : State) (n : Nat) (a : MemActor) (x : Nat) : Bool :=
  match s.graph? a.graph with
  | none => false
  | some g =>
    let ds := engineDesc g.img (n % 64)
    let addr := (ds.getD 0 0).toNat
    let len := fld (ds.getD 2 0) 63 32
    (List.range (len / 4096 + 2)).any fun i =>
      let page := addr / 4096 * 4096 + 4096 * i
      let va := page + x % 4096
      decide (addr ≤ va ∧ va < addr + len) && match translate s (a.graph / 2 ^ 28) page (!a.sink) a.sink .u with
        | .ok pa => isLocal s pa && decide (pa % 2 ^ 45 / 4096 = x / 4096)
        | _ => false

/-- The graph that owns a byte: that of the core whose tile SRAM or library slice it is, in the rest of HBM4 that of a memory actor
whose range holds it (log entry 25). -/
def ownerOf (s : State) (x : Nat) : Nat :=
  if x < 2 ^ 39 then
    let o := x - Config.libraryBase
    if Config.libraryBase ≤ x ∧ o < 1152 * 2 ^ 20 then (s.core (o / 2 ^ 19)).graph
    else match s.actors.find? fun (n, a) => actorHolds s n a x with
      | some (_, a) => a.graph
      | none => 0
  else (s.core ((x - 0x100000000000) / 2 ^ 32 * 192 + (x - 0x100000000000) % 2 ^ 32 / 2 ^ 24)).graph

/-- The scrubber reads tile SRAM and HBM4. -/
def scrubbed (x : Nat) : Bool :=
  decide (x < 2 ^ 39) || (decide (0x100000000000 ≤ x ∧ x < 0x100000000000 + 12 * 2 ^ 32)
    && decide (x % 2 ^ 32 / 2 ^ 24 < 192) && decide (x % 2 ^ 24 < tileSize))

/-- SCRUB_STEP (R275): a line is read and corrected; an uncorrectable one gives ECC.12, and the graph that owns it halts. -/
def execScrubStep (addr : Nat) (s : State) : Result :=
  let a := addr / 64 * 64
  .next (if !(scrubbed a) then s
    else match s.ueAt a 64 with
      | none => s.correct a 64
      | some u =>
        let l := State.ueLocation u
        let place := l.2.1 * 2 ^ 44 + l.2.2.1 * 2 ^ 40 + l.2.2.2.1
        let s1 := (s.correct a 64).tellMgmt (s.graphNotice (ownerOf s u) { cause := 0x16C, detail := place })
        s1.haltLocation (ownerOf s u) l.1 l.2.1 l.2.2.1 l.2.2.2.1)

/-- The bytes taken as an HBM4 row. -/
def rowSize : Nat := 4096

/-- HBM_ROW_SPARE (R273, R105): management, running, moves a row to a spare, its data copied whole and corrected on the way, with
ECC.14. -/
def execHbmRowSpare (addr : Nat) (s : State) : Result :=
  let r := addr / rowSize
  .next (if 2 ^ 39 ≤ addr ∨ s.managementUp = false then s
    else
      let s1 := s.correct (r * rowSize) rowSize
      let e := s1.ecc
      ({ s1 with ecc := { e with spared := if e.spared.contains r then e.spared else e.spared ++ [r] } }).tellMgmt
        { cause := 0x16E, detail := addr })

end Sys2Proof.Machine
end

