-- ==== Sys2Proof/Machine/Enc.lean ====
section
/-! DEFINITION. The two events of the CP's front end: a word that is no instruction (R301) and a failed fetch (R184,
R265, R268, R286). -/

namespace Sys2Proof.Machine

/-- UNASSIGNED_ENCODING (R301): the ENC fault is taken precisely; sr.tval holds the first word and, for an X-format
instruction whose second word was fetched, that word above it (R291: the last word of a region fetches none). -/
def execUnassignedEncoding (w w2 : Word32) (cause : BitVec 9) (s : State) : Result :=
  let second := if majorOf w == 0x3F && cause != 4 && !(lastWord s.cur) then w2.toNat else 0
  .next (s.trap cause.toNat (second * 2 ^ 32 + w.toNat))

/-- INSTRUCTION_FETCH_FAULT (R184, R265): CPM.6 or CPM.13 with the offset in sr.tval, or ECC.4, which halts the graph in
every mode with the place of the word (R274, R286). -/
def execInstructionFetchFault (cause : BitVec 9) (s : State) : Result :=
  let k := s.cur
  let s1 := s.trap cause.toNat (if cause = 0x164 then 0 else k.pc)
  if cause = 0x164 ∧ k.mode ≠ .u then
    .next (s1.haltLocation k.graph 0x164 0 (s.turn / 192) ((s.turn % 192) * 2 ^ 32 + State.badFetch s s.turn))
  else .next s1

end Sys2Proof.Machine
end

