-- ==== Sys2Proof/Machine/FiringEnd.lean ====
section
/-! DEFINITION. FDONE: what a firing waits for at its end, and the input monitor of a firing that asks for more tokens than its
count (R124, R125, R366). -/

namespace Sys2Proof.Machine

/-- The PIN of a port of the active plane has let go of all it has taken: it asks for the next token. -/
def pinAsks (s : State) (c p : Nat) : Bool :=
  let ws := (s.core c).grid.act.words
  (List.range ws.length).any fun i =>
    let w := ws.getD i 0
    let e := s.elem ⟨c, i, false⟩
    wOp w == 0x2C0 && aportOf (Blk.ofWord w) == p && e.items.isEmpty && e.out0.isEmpty && e.out1.isEmpty

/-- The lowest input port of the firing whose PIN has taken its count of tokens and asks for a further one that its window holds
(R124). -/
def overPort (s : State) (c : Nat) : Option Nat :=
  let k := s.core c
  (List.range 16).find? fun p =>
    let x := k.port k.actorNo p
    ownsPort s c p && decide (curRate s c p ≤ x.cnt) && pinAsks s c p && match portDesc s c k.actorNo p with
        | some i => decide (x.cnt < (k.desc i).occ)
        | none => false

/-- An element of the active plane does nothing. -/
def elemStill (s : State) (c i : Nat) : Bool :=
  match actElem c i false s with
  | .next u => decide ({ u with turn := s.turn, focus := s.focus } = s)
  | _ => false

/-- Another core of a gang may yet put a command into the matrix queue of a core: it leads the gang and is in a firing (R440). -/
def ledByOther (s : State) (c : Nat) : Bool :=
  match (gangCores s c).head? with
  | some c' => c' != c && (s.core c').infire
  | none => false

/-- Nothing of a firing that waits at FDONE can move again: no command is left in a queue of the core, nothing waits at a channel or
south port, no request is out, no refresh of the replica is awaited, no swap is under way, and no element of the active plane does
anything. -/
def firingStuck (s : State) (c : Nat) : Bool :=
  let k := s.core c
  let g := k.grid
  g.act.valid && !g.draining && !g.armed && g.queue.isEmpty && (g.chan.all fun (p : Nat × List Item) => p.2.isEmpty)
    && (k.engines.all fun e => e.2.queue.isEmpty) && k.matrix.queue.isEmpty && k.meld.queue.isEmpty
    && !(ledByOther s c) && !(replicaStale s c) && !(k.entries.any fun e => e.2.busy) && !(s.kitty.any fun p => p.core == c) && !(s.links.outbox.any fun o => o.core == c)
    && (List.range g.act.words.length).all fun i => elemStill s c i

/-- The input port at which a firing that waits at FDONE stands for ever: its blocks want a token beyond n(p, k), which the monitor
holds back (R124; log entry 57). -/
def excessPort (s : State) (c : Nat) : Option Nat :=
  match overPort s c with
  | some p => if firingStuck s c then some p else none
  | none => none

/-- FDONE (R366, R124, R125, R127). -/
def execFdone (s : State) : Result :=
  command (fun s => [failIf (!s.cur.infire) 0x05B, failIf s.cur.grid.held 0x134]) 0 s fun s =>
    let c := s.turn
    if gangSkew s c then .next (s.haltGraph s.cur.graph { cause := 0x05E, core := coreName c })
    else if !(firingSettled s.cur) then
      .next (match excessPort s c with
        | some p => monitorTrap s c 0x051 p (s.cur.port s.cur.actorNo p).ord
        | none => s.wait)
    else if gangPending s c then .next s.wait
    else match shortPort s c 0, shortPort s c 16 with
      | some p, _ => .next (rateTrap s c 0x053 p (s.cur.port s.cur.actorNo p).ord)
      | none, some p => .next (rateTrap s c 0x052 p (s.cur.port s.cur.actorNo p).ord)
      | none, none => .next (endFiring (gangOff s c) c)

end Sys2Proof.Machine
end

