-- ==== Sys2Proof/Machine/HostPorts.lean ====
section
/-! DEFINITION. The host side: ingress and egress ports, their records, the graph store, the register writes of BAR 0 (R85 to
R101). -/

namespace Sys2Proof.Machine

/-! ### Faults (R87, R95, R101) -/

/-- A HOST fault that goes to management, naming the port. -/
def hostNote (s : State) (cause n : Nat) : State := s.countHost.tellMgmt { cause := cause, detail := n }

/-- An ingress port. -/
def ingressOf (s : State) (n : Nat) : Ingress := NMap.getD {} s.host.ingress n
/-- The state with an ingress port replaced. -/
def setIngress (s : State) (n : Nat) (p : Ingress) : State :=
  { s with host := { s.host with ingress := NMap.put s.host.ingress n p } }
/-- An egress port. -/
def egressOf (s : State) (n : Nat) : Egress := NMap.getD {} s.host.egress n
/-- The state with an egress port replaced. -/
def setEgress (s : State) (n : Nat) (e : Egress) : State :=
  { s with host := { s.host with egress := NMap.put s.host.egress n e } }

/-- A halted graph still waits for its dump, or is being dumped. -/
def awaitsDump (s : State) (h : Nat) : Bool := s.dump.queue.contains h || s.dump.current == some h

/-- A fault of a port halts the graph it feeds; a graph that has not run, or is frozen, is refused and its image lost; of one that has
ended its supervisor is told. -/
def hostHalt (s : State) (h : Nat) (note : Notice) : State :=
  match s.graph? h with
  | none => s
  | some g =>
    match g.phase with
    | .validating | .queued | .frozen =>
      (refuse s h note.cause).modGraph h fun g => { g with image := none, frzLen := 0 }
    | .retired | .refused => s.countHost.notifyGraph h note
    | .halted => if awaitsDump s h then s.countHost.haltGraph h note else s.countHost.notifyGraph h note
    | _ => s.countHost.haltGraph h note

/-- An ingress port goes to fault: what is buffered is discarded, its graph halts, or the cause goes to its supervisor
(R95). -/
def ingressFault (s : State) (n cause : Nat) : State :=
  let p := ingressOf s n
  let s1 := if p.graph ≠ 0 then hostHalt s p.graph { cause := cause } else s.countHost.notify p.ctx { cause := cause }
  setIngress s1 n (p.toFault cause)

/-! ### The byte stream (R92, R93) -/

/-- Bytes leave an ingress buffer; a write-back is due each 4,096 bytes and when the buffer is empty. -/
def consume (p : Ingress) (n : Nat) : Ingress :=
  let q := { p with consumed := p.consumed + n, buffer := p.buffer.drop n }
  if q.buffer.isEmpty || decide (p.lastWb + 4096 ≤ q.consumed) then q.note else q

/-- INGRESS_WRITE (R92): a host write of bytes at a window offset joins the stream, or is discarded with HOST.13, HOST.9,
HOST.0 or HOST.1; in the fault state what is accepted is discarded. -/
def execIngressWrite (n off : Nat) (bytes : List Byte) (poisoned : Bool) (s : State) : Result :=
  let p := ingressOf s n
  let bad := fun (cause : Nat) => setIngress (hostNote s cause n) n { p with cause := cause }
  .next (if 64 ≤ n ∨ bytes = [] then s
    else if !p.en then hostNote s 0x12D n
    else if poisoned then bad 0x129
    else if off ≠ p.expected % 2 ^ 20 then bad 0x120
    else if p.consumed + 262144 < p.expected + bytes.length then bad 0x121
    else
      let p1 := { p with expected := p.expected + bytes.length, buffer := p.buffer ++ bytes }
      setIngress s n (if p.st = 4 then consume p1 p1.buffer.length else p1))

/-- CREDIT_WRITEBACK (R93): the device writes CONSUMED, as it was at the oldest event still to be told, at the port's CWB
address. -/
def execCreditWriteback (n : Nat) (s : State) : Result :=
  let p := ingressOf s n
  .next (match p.wbs with
    | [] => s
    | v :: rest =>
      let s1 := setIngress s n { p with wbs := rest }
      { s1 with host := { s1.host with mem := memWrite s1.host.mem p.cwb.toNat (leBytes 8 v) } })

/-! ### Records (R94) -/

/-- A record header. -/
structure RecHead where
  rtype : Nat
  tcode : Nat
  gport : Nat
  len : Nat
  arg : Nat
  bad : Bool
  deriving DecidableEq, Repr

/-- The header at the head of a port's buffer, none before it is whole. -/
def recHead (p : Ingress) : Option RecHead :=
  if p.buffer.length < 16 then none
  else
    let w := ofLe (p.buffer.take 16)
    let r := bitsOf w 127 120
    let lone := r == 1 || r == 3
    some {
      rtype := r, tcode := bitsOf w 116 112, gport := bitsOf w 111 96, len := bitsOf w 76 64, arg := bitsOf w 63 0
      bad := decide (r = 0 ∨ 4 < r) || bitsOf w 119 117 != 0 || bitsOf w 95 77 != 0
        || (lone && (bitsOf w 116 112 != 0 || bitsOf w 76 64 != 0)) }

/-- The bytes of a record with its padding. -/
def recSize (h : RecHead) : Nat := 16 + roundUp h.len 16

/-- A graph is frozen, on its way there, or on its way back: the records of its ports wait (R96). -/
def recordsWait (s : State) (h : Nat) : Bool :=
  match s.graph? h with
  | none => false
  | some g => g.image.isSome || decide (g.phase = .freezing ∨ g.phase = .frozen)

/-- A whole record of a type at the head of an enabled port's buffer, in a state that processes records: HOST.4 for one
badly formed. The padding after the payload is not looked at: the spec names no cause for padding that is not zero (log entry
64, DESIGN CHOICE). Records that are buffered when EN is cleared wait until it is set again (log entry 64, DESIGN CHOICE). -/
def withRecord (s : State) (n want : Nat) (f : Ingress → RecHead → State) : State :=
  let p := ingressOf s n
  match recHead p with
  | none => s
  | some h =>
    if !p.en || decide (3 ≤ p.st) || recordsWait s p.graph then s
    else if h.bad then ingressFault s n 0x124
    else if h.rtype ≠ want ∨ p.buffer.length < recSize h then s
    else f p h

/-- An admitted graph of a context with an image's identifier whose GPORT no port feeds. -/
def openGraph (s : State) (x id gport : Nat) : Option Nat :=
  let live := fun (g : Graph) => match g.phase with
    | .loading => true
    | .committing => true
    | .running => true
    | .freezing => true
    | _ => false
  (s.graphs.find? fun hg => hg.1 / 2 ^ 28 == x && !hg.2.supervisor && live hg.2 && hg.2.imageid == id
    && (sourcePort hg.2.img gport).isSome
    && s.host.ingress.all fun (_, q) => q.graph != hg.1 || q.gport != gport || decide (q.st = 0)).map Prod.fst

/-- An OPEN at an idle port, or one that waits for a place in the queue (R95, R164): the port binds to a graph, or a graph is
created. -/
def openPort (s : State) (n : Nat) (p : Ingress) (h : RecHead) : State :=
  match directory s h.arg with
  | none => ingressFault s n 0x127
  | some (off, pages) =>
    let opened := { p with st := 1, gport := h.gport, nextOrd := 0 }
    let p1 := consume (if p.st = 0 then opened.note else opened) 16
    match openGraph s p.ctx h.arg h.gport with
    | some g =>
      let running : Bool := match s.graph? g with
        | some x => decide (x.phase = .running) || decide (x.phase = .freezing)
        | none => false
      setIngress s n (if running then { p1 with graph := g, st := 2 }.note else { p1 with graph := g })
    | none =>
      if queueFull s p.ctx then setIngress s n (if p.st = 0 then opened.note else opened)
      else
        let pri := match NMap.find s.ctxs p.ctx with
          | none => 3
          | some k => k.defpri
        let r := createGraph s p.ctx h.arg off pages pri none
        setIngress r.2 n { p1 with graph := r.1 }

/-- OPEN_RECORD (R95): HOST.3 on a port that is opening or bound. -/
def execOpenRecord (n : Nat) (s : State) : Result :=
  .next (withRecord s n 1 fun p h => if p.st = 0 ∨ (p.st = 1 ∧ p.graph = 0) then openPort s n p h else ingressFault s n 0x123)

/-- The fault of a DATA or MODE record against the port it names: HOST.5, then HOST.6 (R95). -/
def recordFits (h : RecHead) (r : PortRec) : Option Nat :=
  if h.len ≠ r.tsize then some 0x125 else if h.tcode ≠ r.tcode then some 0x126 else none

/-- The next token of a source port joins its stream, which the base die sends in the slots granted for it (R49, R50); it waits
in the buffer while the credits show no space for it. -/
def deliverData (s : State) (n : Nat) (p : Ingress) (h : RecHead) (key : Nat) : State :=
  let st : DeckStream := NMap.getD {} s.streams key
  if !(streamFree s key st.fed) then s
  else
    let m : PtrMsg := { desc := 0, wrptr := st.fed + 1, bytes := (p.buffer.drop 16).take h.len, marks := [], drain := false }
    let s1 := setIngress s n { consume p (recSize h) with nextOrd := p.nextOrd + 1 }
    { s1 with streams := NMap.put s1.streams key { st with tokens := st.tokens ++ [m], fed := st.fed + 1 } }

/-- DATA_RECORD (R95): HOST.2 on an idle port; held while opening; the checks of R95; then the token is on its way. Three points
are the model's choice (log entry 64): a GPORT that names no source port of the image gives HOST.4; a GPORT other than the
OPEN's is served at the port it names; and its records count in the one ordinal sequence of the ingress port. -/
def execDataRecord (n : Nat) (s : State) : Result :=
  .next (withRecord s n 2 fun p h =>
    if p.st = 0 then ingressFault s n 0x122
    else if p.st = 1 then s
    else match s.graph? p.graph with
      | none => s
      | some g =>
        if g.phase ≠ .running then s
        else match sourcePort g.img h.gport with
          | none => ingressFault s n 0x124
          | some (j, r) =>
            match recordFits h r with
            | some f => ingressFault s n f
            | none =>
              if h.arg ≠ p.nextOrd then ingressFault s n 0x128
              else deliverData s n p h (hostStream p.graph j g))

/-- MODE_RECORD (R95, R134): HOST.2 on an idle port; MODE.1 for a graph without a mode port; otherwise a mode token, while the
mode port's window has room. The record's GPORT is compared with nothing: a graph has one mode port (log entry 64, DESIGN
CHOICE). -/
def execModeRecord (n : Nat) (s : State) : Result :=
  .next (withRecord s n 4 fun p h =>
    if p.st = 0 then ingressFault s n 0x122
    else if p.st = 1 then s
    else match s.graph? p.graph with
      | none => s
      | some g =>
        if g.phase ≠ .running then s
        else match modePort g.img with
          | none => setIngress (s.notifyGraph p.graph { cause := 0x071 }) n (consume p (recSize h))
          | some r =>
            match recordFits h r with
            | some f => ingressFault s n f
            | none =>
              if 4 ≤ g.modeCtl.waiting.length then s
              else modeArrive (setIngress s n (consume p (recSize h))) p.graph (h.arg % 2 ^ 32) 0 0)

/-- CLOSE_RECORD (R95): HOST.2 on an idle port; otherwise the port is closing, and the drain token follows the last token of
its stream; while the graph is not committed, the stream ends with its commit. The record's ARG and GPORT are compared with nothing
(log entry 64, DESIGN CHOICE). -/
def execCloseRecord (n : Nat) (s : State) : Result :=
  .next (withRecord s n 3 fun p _ =>
    if p.st = 0 then ingressFault s n 0x122
    else
      let s1 := setIngress s n (consume { p with st := 3 }.note 16)
      if p.st = 2 then hostDrain s1 p.graph p.gport else s1)

/-- INGRESS_DRAIN_ACCEPTED (R95, R136): the drain token has reached the source port's windows, and the port is idle. -/
def execIngressDrainAccepted (n : Nat) (s : State) : Result :=
  let p := ingressOf s n
  .next (match s.graph? p.graph with
    | none => s
    | some g =>
      if p.st ≠ 3 ∨ g.phase ≠ .running then s
      else match sourcePort g.img p.gport with
        | none => s
        | some (j, _) =>
          let st : DeckStream := NMap.getD {} s.streams (hostStream p.graph j g)
          if st.tokens.any PtrMsg.drain then s
          else
            setIngress (s.modGraph p.graph fun g => { g with srcDrained := true }) n
              { p with st := 0, graph := 0, nextOrd := 0 }.note)

/-! ### Ingress registers (R91, R96) -/

/-- INGRESS_EN (R91): HOST.13 when the port has no context. -/
def execIngressEn (n : Nat) (en : Bool) (s : State) : Result :=
  let p := ingressOf s n
  .next (if 64 ≤ n then s
    else if en && !p.asgn then hostNote s 0x12D n
    else if p.asgn then setIngress s n { p with en := en } else s)

/-- A graph has not ended: neither retired, nor refused, nor halted. -/
def graphLives (s : State) (h : Nat) : Bool :=
  match s.graph? h with
  | none => false
  | some g => match g.phase with
    | .retired => false
    | .refused => false
    | .halted => false
    | _ => true

/-- RST of an ingress port (R91, R96): its graph, if it has not ended, halts with HOST.14; buffer, offsets and state are as at
first. -/
def resetIngress (n : Nat) (s : State) : State :=
  let p := ingressOf s n
  if 64 ≤ n then s
  else
    let s1 := if (p.st = 1 ∨ p.st = 2 ∨ p.st = 3) ∧ graphLives s p.graph = true then hostHalt s p.graph { cause := 0x12E } else s
    let q := { ingressOf s1 n with
      st := 0, consumed := 0, expected := 0, buffer := [], graph := 0, gport := 0, nextOrd := 0, lastWb := 0 }
    setIngress s1 n (if p.st ≠ 0 ∨ p.buffer ≠ [] then q.note else q)

/-- INGRESS_RST (R96). -/
def execIngressRst (n : Nat) (s : State) : Result := .next (resetIngress n s)

/-! ### Egress ports (R97 to R100) -/

/-- EGRESS_EN (R97): HOST.13 when the port has no context or LOG2 is outside 16 to 30. -/
def execEgressEn (n : Nat) (en : Bool) (s : State) : Result :=
  let e := egressOf s n
  .next (if 64 ≤ n then s
    else if en && (!e.asgn || decide (e.log2 < 16 ∨ 30 < e.log2)) then hostNote s 0x12D n
    else if e.asgn then setEgress s n { e with en := en } else s)

/-- RST of an egress port (R97): HOST.13 while a graph is bound. -/
def resetEgress (n : Nat) (s : State) : State :=
  let e := egressOf s n
  if 64 ≤ n then s
  else if e.graph ≠ 0 then hostNote s 0x12D n
  else setEgress s n { e with fin := 0, rdpos := 0 }

/-- EGRESS_RST (R97). -/
def execEgressRst (n : Nat) (s : State) : Result := .next (resetEgress n s)

/-- RDPOS_WRITE (R97): HOST.11 below its value or above END. -/
def execRdposWrite (n : Nat) (v : Word) (s : State) : Result :=
  let e := egressOf s n
  .next (if 64 ≤ n then s
    else if v.toNat < e.rdpos ∨ e.fin < v.toNat then hostNote s 0x12B n
    else setEgress s n { e with rdpos := v.toNat })

/-- The bytes of a record of an egress ring: a DATA record of a token, or a CLOSE record (R99, R94). -/
def egressRecord (e : Egress) (tcode : Nat) (x : Item) : List Byte :=
  let head := fun (rtype t len arg : Nat) =>
    leBytes 16 (rtype * 2 ^ 120 + t * 2 ^ 112 + e.sink % 2 ^ 16 * 2 ^ 96 + len * 2 ^ 64 + arg)
  match x with
  | .data bs => head 2 tcode bs.length e.ords ++ bs ++ List.replicate (roundUp bs.length 16 - bs.length) 0
  | .ctl _ => head 3 0 0 e.ords

/-- Bytes written at a stream position of a ring, wrapping at its end (R99). -/
def ringWrite (m : List Host.Cell) (base size : Nat) : Nat → List Byte → List Host.Cell
  | _, [] => m
  | p, b :: bs => ringWrite (memPut m (base + p % size) b) base size (p + 1) bs

/-- EGRESS_RECORD_WRITE (R99, R100): the oldest token of a host sink is written as a record when the ring has room; after the
CLOSE record the sink has drained. -/
def execEgressRecordWrite (n : Nat) (s : State) : Result :=
  let e := egressOf s n
  .next (match e.records, s.graph? e.graph with
    | x :: rest, some g =>
      match ((List.range (nPorts g.img)).map fun j => (j, portRec g.img j)).find? fun y => y.2.isOut && y.2.host == e.sink with
      | none => s
      | some (j, r) =>
        let bs := egressRecord e r.tcode x
        let isClose := match x with | .ctl _ => true | .data _ => false
        if !e.en || decide (g.phase ≠ .running) || g.cutSince.isSome || decide (2 ^ e.log2 < e.fin + bs.length - e.rdpos) then s
        else
          let fin := e.fin + bs.length
          let word := (if isClose then 2 ^ 62 else 0) + fin % 2 ^ 53
          let s1 := setEgress s n { e with
            records := rest, fin := fin, ords := if isClose then e.ords else e.ords + 1, word := word, wordDue := true }
          let s2 : State := { s1 with host := { s1.host with mem := ringWrite s1.host.mem e.rbase.toNat (2 ^ e.log2) e.fin bs } }
          if isClose then reachSink s2 e.graph (0x10000 + j) else s2
    | _, _ => s)

/-- COMPLETION_WORD_WRITE (R100): the device writes the completion word at CWA. -/
def execCompletionWordWrite (n : Nat) (s : State) : Result :=
  let e := egressOf s n
  .next (if !e.wordDue then s
    else
      let s1 := setEgress s n { e with wordDue := false }
      { s1 with host := { s1.host with mem := memWrite s1.host.mem e.cwa.toNat (leBytes 8 e.word) } })

/-! ### The graph store (R87 to R89) -/

/-- The writable bits of the graph-store register. -/
def storeMask : Word := 0x8000000000FF01FF#64

/-- A write of the graph-store register that is refused (R88). One while GSEN is 1 that repeats GSSIZE and GSBASE, such as one that
clears GSEN, is no write to them (log entry 39, DESIGN CHOICE). -/
def storeRefused (s : State) (w : Word) : Bool :=
  let size := fld w 23 16
  let base := fld w 8 0
  let meet := s.ctxs.any fun (_, k) => rangesMeet k.hbase k.hsize base size
  (bitAt w 63 && (size == 0 || decide (64 < size) || decide (512 < base + size) || meet))
    || (storeOn s && (fld s.host.gs 23 16 != size || fld s.host.gs 8 0 != base))

/-- The graph-store register written (R88). -/
def writeStore (w : Word) (s : State) : State :=
  if storeRefused s w then hostNote s 0x12D 0 else { s with host := { s.host with gs := w &&& storeMask } }

/-- GRAPH_STORE_ENABLE (R88). -/
def execGraphStoreEnable (w : Word) (s : State) : Result := .next (writeStore w s)

/-- GRAPH_STORE_ACCESS (R89): a BAR 4 access reaches HBM4, or has no effect with HOST.12 and a read gives bytes of 0xFF; an
uncorrectable byte delivers nothing (R274). -/
def execGraphStoreAccess (off : Nat) (wr : Bool) (bytes : List Byte) (s : State) : Result :=
  let n := bytes.length
  let a := storeBase s + off
  let give := fun (s : State) (bs : List Byte) => { s with host := { s.host with readData := bs } }
  .next (if !(storeOn s) || decide (storeSize s < off + n) then
      let s1 := hostNote s 0x12C 0
      if wr then s1 else give s1 (List.replicate n 0xFF)
    else if wr then s.write a bytes
    else match s.ueAt a n with
      | some u => give (s.tellMgmt { cause := 0x163, detail := 2 ^ 44 + 12 * 2 ^ 40 + u / 32 * 32 }) []
      | none =>
        let s1 := s.correct a n
        give s1 (s1.read a n))

/-! ### The link and other registers (R85, R8, R101) -/

/-- A graph has a host port: a port of its image names one (R143), or an ingress port has opened it. -/
def hasHostPort (s : State) (hg : Nat × Graph) : Bool :=
  ((portRecs hg.2.img).any fun p => p.host != 0xFFFF) || s.host.ingress.any fun (_, p) => p.graph == hg.1 && p.st != 0

/-- PCIE_LINK_DOWN (R101): every graph with a host port halts with HOST.15. In NFAULT the lost link counts once, and once more
for each graph it halts: how often it counts is left open (log entry 65, DESIGN CHOICE). -/
def execPcieLinkDown (s : State) : Result :=
  let hs := (s.graphs.filter fun hg => graphLives s hg.1 && hasHostPort s hg).map Prod.fst
  let n : Notice := { cause := 0x12F, flags := 2 }
  .next (hs.foldl (fun s h => hostHalt s h n) (s.countHost.tellMgmt n))

/-- A write to an ingress register (R91). -/
def writeIngress (n reg : Nat) (v : Word) (s : State) : State :=
  let p := ingressOf s n
  if reg = 0 then
    let s1 := if bitAt v 63 && !p.asgn then hostNote s 0x12D n else setIngress s n { p with en := bitAt v 63 }
    if bitAt v 62 then resetIngress n s1 else s1
  else if reg = 8 then
    if p.en then hostNote s 0x12D n else setIngress s n { p with cwb := v &&& 0xFFFFFFFFFFFFFFF8#64 }
  else s

/-- A write to an egress register (R97). -/
def writeEgress (n reg : Nat) (v : Word) (s : State) : State :=
  let e := egressOf s n
  let locked := fun (e' : Egress) => if e.en then hostNote s 0x12D n else setEgress s n e'
  if reg = 0 then
    let s1 := if bitAt v 62 then resetEgress n s else s
    match execEgressEn n (bitAt v 63) s1 with
    | .next s2 => s2
    | _ => s1
  else if reg = 8 then locked { e with rbase := v &&& 0xFFFFFFFFFFFFF000#64 }
  else if reg = 0x10 then locked { e with log2 := fld v 4 0 }
  else if reg = 0x18 then locked { e with cwa := v &&& 0xFFFFFFFFFFFFFFF8#64 }
  else if reg = 0x20 then
    match execRdposWrite n v s with
    | .next s2 => s2
    | _ => s
  else s

/-- REGISTER_WRITE (R8, R85, R87, R91, R97): a double written to a register of BAR 0 takes effect field by field; a write to
another offset is discarded. -/
def execRegisterWrite (off : Nat) (v : Word) (s : State) : Result :=
  .next (if off = 8 then writeStore v s
    else if 0x100000 ≤ off ∧ off < 0x140000 then writeIngress ((off - 0x100000) / 0x1000) (off % 0x1000) v s
    else if 0x200000 ≤ off ∧ off < 0x240000 then writeEgress ((off - 0x200000) / 0x1000) (off % 0x1000) v s
    else s)

/-! ### Reads of BAR 0 (R8, R85, R87, R91, R97) -/

/-- The double at an offset of an ingress block. -/
def readIngress (p : Ingress) (reg : Nat) : Nat :=
  if reg = 0 then (if p.en then 2 ^ 63 else 0) + (if p.asgn then 16 + p.ctx % 16 else 0)
  else if reg = 8 then p.cwb.toNat
  else if reg = 0x10 then p.st % 8 * 2 ^ 61 + p.cause % 512 * 2 ^ 52
  else if reg = 0x18 then p.consumed % 2 ^ 64
  else 0

/-- The double at an offset of an egress block. -/
def readEgress (e : Egress) (reg : Nat) : Nat :=
  if reg = 0 then (if e.en then 2 ^ 63 else 0) + (if e.asgn then 16 + e.ctx % 16 else 0)
  else if reg = 8 then e.rbase.toNat
  else if reg = 0x10 then e.log2 % 32
  else if reg = 0x18 then e.cwa.toNat
  else if reg = 0x20 then e.rdpos % 2 ^ 64
  else 0

/-- The double that a read of a BAR 0 offset gives: write-only fields and offsets without a register read as zero. -/
def registerValue (s : State) (off : Nat) : Nat :=
  if off = 0 then s.host.nfault % 2 ^ 32 * 2 ^ 32 + (if s.host.ready then 1 else 0)
  else if off = 8 then s.host.gs.toNat
  else if 0x100000 ≤ off ∧ off < 0x140000 then readIngress (ingressOf s ((off - 0x100000) / 0x1000)) (off % 0x1000)
  else if 0x200000 ≤ off ∧ off < 0x240000 then readEgress (egressOf s ((off - 0x200000) / 0x1000)) (off % 0x1000)
  else 0

/-- The host reads a double of BAR 0. -/
def readRegister (off : Nat) (s : State) : State :=
  { s with host := { s.host with readData := leBytes 8 (registerValue s off) } }

end Sys2Proof.Machine
end

