-- ==== Sys2Proof/Machine/Power.lean ====
section
/-! DEFINITION. The power arbiter's events: heat, droop, limits, the power states of cores (R30, R38 to R40). -/

namespace Sys2Proof.Machine

/-! ### Heat (R38) -/

/-- The graphs that run, but for supervisors. -/
def runningGraphs (s : State) : List (Nat × Graph) := s.graphs.filter fun hg => decide (hg.2.phase = .running) && !hg.2.supervisor

/-- The lowest-priority running graph, the latest admitted among equals, is frozen for the heat of a card, whichever card it
is on. -/
def heatFreeze (s : State) (card : Nat) : State :=
  let order := sortBy (fun (a b : Nat × Graph) =>
    decide (b.2.cls < a.2.cls ∨ (a.2.cls = b.2.cls ∧ b.2.admitOrder < a.2.admitOrder))) (runningGraphs s)
  let s1 : State := { s with power := { s.power with lastFreeze := NMap.put s.power.lastFreeze card s.time } }
  match order with
  | [] => s1
  | x :: _ => s1.requestFreeze x.1 1

/-- The admitted graphs that hold a core of a card. -/
def graphsOn (s : State) (card : Nat) : List Nat :=
  ((s.cores.filter fun (c, k) => decide (c / 192 = card ∧ k.graph ≠ 0)).map fun x => x.2.graph).eraseDups

/-- All graphs on a card halt with a cause, which goes to management; the card's quadrant islands are power-gated. -/
def shutCard (s : State) (card cause : Nat) : State :=
  let s1 := s.tellMgmt { cause := cause, detail := card }
  let s2 := (graphsOn s card).foldl (fun s h => s.haltGraph h { cause := cause, detail := card }) s1
  (List.range 192).foldl (fun s i => s.modCore (card * 192 + i) fun k => { k with power := .powerGated }) s2

/-- A card reads a temperature. -/
def readHeat (s : State) (card temp : Nat) : State :=
  let s1 : State := { s with power := { s.power with hot := NMap.put s.power.hot card temp } }
  if 115 ≤ temp then shutCard s1 card 0x155
  else if 105 ≤ temp then
    match NMap.find s.power.lastFreeze card with
    | none => heatFreeze s1 card
    | some _ => s1
  else { s1 with power := { s1.power with lastFreeze := NMap.del s1.power.lastFreeze card } }

/-- SENSOR_SAMPLE (R38): the hottest sensor of a card reads a temperature in degrees Celsius; an arbiter that was not started does
nothing (R105). -/
def execSensorSample (card temp : Nat) (s : State) : Result := .next (if 12 ≤ card ∨ s.arbiterUp = false then s else readHeat s card temp)

/-- THERMAL_REPEAT (R38): 1 ms later the 105 °C condition still holds: a further graph is frozen. -/
def execThermalRepeat (card : Nat) (s : State) : Result :=
  .next (match NMap.find s.power.lastFreeze card with
    | none => s
    | some t =>
      if s.arbiterUp = true ∧ 105 ≤ NMap.getD 0 s.power.hot card ∧ t + nanos 1000000 ≤ s.time then heatFreeze s card else s)

/-- SENSOR_SILENT (R38): a sensor silent for 100 µs is taken as reading 105 °C, with PWR.13. -/
def execSensorSilent (card : Nat) (s : State) : Result :=
  .next (if 12 ≤ card ∨ s.arbiterUp = false then s
    else readHeat (s.tellMgmt { cause := 0x15D, detail := card }) card (max 105 (NMap.getD 0 s.power.hot card)))

/-- EDGE_VIA_OVERCURRENT (R38). -/
def execEdgeViaOvercurrent (card : Nat) (s : State) : Result := .next (if 12 ≤ card ∨ s.arbiterUp = false then s else shutCard s card 0x15C)

/-! ### Droop and limits (R30, R40) -/

/-- A graph is in an island: it has cores in it, in its card for the fifth island of a card, or a charge for a base-die
island. -/
def inIsland (g : Graph) (i : Nat) : Bool :=
  if 60 ≤ i then g.grant.base.any fun x => x.1 == i && decide (0 < x.2)
  else if i % 5 = 4 then g.cores.any fun x => x.2 / 192 == i / 5 else g.cores.any fun x => State.islandOf x.2 == i

/-- SUPPLY_DROOP (R40): the graphs in the island halt with PWR.7, which goes to management too. -/
def execSupplyDroop (island : Nat) (s : State) : Result :=
  let n : Notice := { cause := 0x157, flags := 2, detail := island }
  let live := fun (g : Graph) => match g.phase with
    | .loading => true
    | .committing => true
    | .running => true
    | .freezing => true
    | _ => false
  let hs := (s.graphs.filter fun hg => live hg.2 && inIsland hg.2 island).map Prod.fst
  .next (if 64 ≤ island ∨ s.arbiterUp = false then s else hs.foldl (fun s (h : Nat) => s.haltGraph h n) (s.tellMgmt n))

/-- MODULE_LIMIT_WRITE (R30, R40, R105): firmware that runs sets the module limit; above 1,600 W or below the standing grants and 60 W the
write is ignored. -/
def execModuleLimitWrite (halfWatts : Nat) (s : State) : Result :=
  .next (if !(s.managementUp) then s
    else if 3200 < halfWatts then s.tellMgmt { cause := 0x15E, detail := halfWatts }
    else if halfWatts < standingGrants s + 120 then s.tellMgmt { cause := 0x15F, detail := halfWatts }
    else { s with power := { s.power with limit := halfWatts } })

/-! ### Power states of cores (R39) -/

/-- POWER_GATE (R39): a core that has belonged to no admitted graph for 1 ms is power-gated. -/
def execPowerGate (c : Nat) (s : State) : Result :=
  let k := s.core c
  .next (if k.graph = 0 ∧ k.power ≠ .waking ∧ k.idleSince + nanos 1000000 ≤ s.time then
      s.modCore c fun k => { k with power := .powerGated }
    else s)

/-- CORE_WAKE_COMPLETE (R39): a waking core is awake, and clock-gated until its graph is committed; the time a report may take
counts from here. -/
def execCoreWakeComplete (c : Nat) (s : State) : Result :=
  let k := s.core c
  .next (if k.power = .waking then
      (s.modCore c fun k => { k with power := .clockGated }).modGraph k.graph fun g =>
        if g.phase = .loading then { g with loadSince := g.gtime } else g
    else s)

/-- WAKE_TIMEOUT (R39, R149): a wake not complete after 100 µs aborts the load with PWR.8. -/
def execWakeTimeout (c : Nat) (s : State) : Result :=
  let k := s.core c
  .next (if k.power = .waking ∧ k.wakeSince + nanos 100000 ≤ s.time then
      let h := k.graph
      ((s.failLoad h).modCore c fun k => { k with power := .powerGated }).notifyGraph h { cause := 0x158, core := coreName c }
    else s)

end Sys2Proof.Machine
end

