-- ==== Sys2Proof/Machine/Scalar.lean ====
section
/-! DEFINITION. Integer arithmetic, logic, bit manipulation, branches and jumps of the CP (R322 to R328). -/

namespace Sys2Proof.Machine

/-- A register operation of two operands (R322). -/
def aluRR (f : Word → Word → Word) (d a b : Reg) (s : State) : Result := finish s d (f (s.reg a) (s.reg b))

/-- A register operation of one operand (R324). -/
def aluR (f : Word → Word) (d a : Reg) (s : State) : Result := finish s d (f (s.reg a))

/-! ### The values (R322 to R325) -/

/-- MULH (R322). -/
def mulhVal (x y : Word) : Word := BitVec.ofInt 64 (x.toInt * y.toInt / 2 ^ 64)
/-- MULHU (R322). -/
def mulhuVal (x y : Word) : Word := BitVec.ofNat 64 (x.toNat * y.toNat / 2 ^ 64)
/-- DIV (R323). -/
def divVal (x y : Word) : Word :=
  if y = 0 then BitVec.allOnes 64
  else if x = 0x8000000000000000#64 ∧ y = BitVec.allOnes 64 then 0x8000000000000000#64
  else BitVec.ofInt 64 (x.toInt.tdiv y.toInt)
/-- REM (R323). -/
def remVal (x y : Word) : Word :=
  if y = 0 then x
  else if x = 0x8000000000000000#64 ∧ y = BitVec.allOnes 64 then 0
  else BitVec.ofInt 64 (x.toInt - x.toInt.tdiv y.toInt * y.toInt)
/-- DIVU (R323). -/
def divuVal (x y : Word) : Word := if y = 0 then BitVec.allOnes 64 else x / y
/-- REMU (R323). -/
def remuVal (x y : Word) : Word := if y = 0 then x else x % y
/-- The shift amount y[5:0] (R322). -/
def amount (y : Word) : Nat := fld y 5 0
/-- SHL (R322). -/
def shlVal (x y : Word) : Word := x <<< amount y
/-- SHR (R322). -/
def shrVal (x y : Word) : Word := x >>> amount y
/-- SRA (R322). -/
def sraVal (x y : Word) : Word := x.sshiftRight (amount y)
/-- ROTL (R322). -/
def rotlVal (x y : Word) : Word := x.rotateLeft (amount y)
/-- MIN (R322). -/
def minVal (x y : Word) : Word := if ltS y x then y else x
/-- MAX (R322). -/
def maxVal (x y : Word) : Word := if ltS x y then y else x
/-- MINU (R322). -/
def minuVal (x y : Word) : Word := if ltU y x then y else x
/-- MAXU (R322). -/
def maxuVal (x y : Word) : Word := if ltU x y then y else x

/-- The number of zero bits above the highest one bit, of n bits counted from the top (R324). -/
def clzFrom (x : Word) : Nat → Nat
  | 0 => 0
  | n + 1 => if x.getLsbD n then 0 else 1 + clzFrom x n
/-- CLZ (R324). -/
def clzVal (x : Word) : Word := BitVec.ofNat 64 (clzFrom x 64)
/-- BREV: bit i moved to bit 63 − i (R324). -/
def brevVal (x : Word) : Word := x.reverse
/-- CTZ (R324). -/
def ctzVal (x : Word) : Word := clzVal (brevVal x)
/-- The number of one bits among the n lowest (R324). -/
def onesBelow (x : Word) : Nat → Nat
  | 0 => 0
  | n + 1 => (if x.getLsbD n then 1 else 0) + onesBelow x n
/-- POPC (R324). -/
def popcVal (x : Word) : Word := BitVec.ofNat 64 (onesBelow x 64)
/-- The field mask 2^len − 1 of BEXT and BINS, len := y[13:8] + 1 (R324). -/
def lenMask (y : Word) : Word := BitVec.ofNat 64 (2 ^ (fld y 13 8 + 1) - 1)
/-- BEXT (R324). -/
def bextVal (x y : Word) : Word := (x >>> amount y) &&& lenMask y
/-- BINS with the old value of rd (R324). -/
def binsVal (old x y : Word) : Word :=
  let mask := lenMask y <<< amount y
  (old &&& ~~~mask) ||| ((x <<< amount y) &&& mask)
/-- SEXT: x[b:0] sign-extended from bit b (R324). -/
def sextVal (x y : Word) : Word := (x <<< (63 - amount y)).sshiftRight (63 - amount y)
/-- LUI (R325). -/
def luiVal (i : BitVec 16) : Word := ((i ++ (0 : BitVec 16) : BitVec 32)).signExtend 64
/-- LIX (R326). -/
def lixVal (x : Word) (i : BitVec 32) : Word := ((x.extractLsb' 0 32 : BitVec 32) ++ i : Word)

/-! ### Register operations -/

/-- ADD (R322). -/
def execAdd (d a b : Reg) (s : State) : Result := aluRR (· + ·) d a b s
/-- SUB (R322). -/
def execSub (d a b : Reg) (s : State) : Result := aluRR (· - ·) d a b s
/-- MUL (R322). -/
def execMul (d a b : Reg) (s : State) : Result := aluRR (· * ·) d a b s
/-- MULH (R322). -/
def execMulh (d a b : Reg) (s : State) : Result := aluRR mulhVal d a b s
/-- MULHU (R322). -/
def execMulhu (d a b : Reg) (s : State) : Result := aluRR mulhuVal d a b s
/-- DIV (R323). -/
def execDiv (d a b : Reg) (s : State) : Result := aluRR divVal d a b s
/-- DIVU (R323). -/
def execDivu (d a b : Reg) (s : State) : Result := aluRR divuVal d a b s
/-- REM (R323). -/
def execRem (d a b : Reg) (s : State) : Result := aluRR remVal d a b s
/-- REMU (R323). -/
def execRemu (d a b : Reg) (s : State) : Result := aluRR remuVal d a b s
/-- AND (R322). -/
def execAnd (d a b : Reg) (s : State) : Result := aluRR (· &&& ·) d a b s
/-- OR (R322). -/
def execOr (d a b : Reg) (s : State) : Result := aluRR (· ||| ·) d a b s
/-- XOR (R322). -/
def execXor (d a b : Reg) (s : State) : Result := aluRR (· ^^^ ·) d a b s
/-- ANDN (R322). -/
def execAndn (d a b : Reg) (s : State) : Result := aluRR (fun x y => x &&& ~~~y) d a b s
/-- SHL (R322). -/
def execShl (d a b : Reg) (s : State) : Result := aluRR shlVal d a b s
/-- SHR (R322). -/
def execShr (d a b : Reg) (s : State) : Result := aluRR shrVal d a b s
/-- SRA (R322). -/
def execSra (d a b : Reg) (s : State) : Result := aluRR sraVal d a b s
/-- ROTL (R322). -/
def execRotl (d a b : Reg) (s : State) : Result := aluRR rotlVal d a b s
/-- MIN (R322). -/
def execMin (d a b : Reg) (s : State) : Result := aluRR minVal d a b s
/-- MAX (R322). -/
def execMax (d a b : Reg) (s : State) : Result := aluRR maxVal d a b s
/-- MINU (R322). -/
def execMinu (d a b : Reg) (s : State) : Result := aluRR minuVal d a b s
/-- MAXU (R322). -/
def execMaxu (d a b : Reg) (s : State) : Result := aluRR maxuVal d a b s
/-- SLT (R322). -/
def execSlt (d a b : Reg) (s : State) : Result := aluRR (fun x y => flagWord (ltS x y)) d a b s
/-- SLTU (R322). -/
def execSltu (d a b : Reg) (s : State) : Result := aluRR (fun x y => flagWord (ltU x y)) d a b s
/-- SEQ (R322). -/
def execSeq (d a b : Reg) (s : State) : Result := aluRR (fun x y => flagWord (x == y)) d a b s
/-- CLZ (R324). -/
def execClz (d a : Reg) (s : State) : Result := aluR clzVal d a s
/-- CTZ (R324). -/
def execCtz (d a : Reg) (s : State) : Result := aluR ctzVal d a s
/-- POPC (R324). -/
def execPopc (d a : Reg) (s : State) : Result := aluR popcVal d a s
/-- BREV (R324). -/
def execBrev (d a : Reg) (s : State) : Result := aluR brevVal d a s
/-- BEXT (R324). -/
def execBext (d a b : Reg) (s : State) : Result := aluRR bextVal d a b s
/-- BINS (R324). -/
def execBins (d a b : Reg) (s : State) : Result := finish s d (binsVal (s.reg d) (s.reg a) (s.reg b))
/-- SEXT (R324). -/
def execSext (d a b : Reg) (s : State) : Result := aluRR sextVal d a b s

/-! ### Immediate operations (R325, R326) -/

/-- A register operation whose second operand is an immediate (R325). -/
def aluRI (f : Word → Word → Word) (d a : Reg) (i : Word) (s : State) : Result := finish s d (f (s.reg a) i)

/-- ADDI (R325). -/
def execAddi (d a : Reg) (i : BitVec 16) (s : State) : Result := aluRI (· + ·) d a (sext64 i) s
/-- ANDI (R325). -/
def execAndi (d a : Reg) (i : BitVec 16) (s : State) : Result := aluRI (· &&& ·) d a (zext64 i) s
/-- ORI (R325). -/
def execOri (d a : Reg) (i : BitVec 16) (s : State) : Result := aluRI (· ||| ·) d a (zext64 i) s
/-- XORI (R325). -/
def execXori (d a : Reg) (i : BitVec 16) (s : State) : Result := aluRI (· ^^^ ·) d a (zext64 i) s
/-- SHLI (R325). -/
def execShli (d a : Reg) (i : BitVec 16) (s : State) : Result := aluRI shlVal d a (zext64 i) s
/-- SHRI (R325). -/
def execShri (d a : Reg) (i : BitVec 16) (s : State) : Result := aluRI shrVal d a (zext64 i) s
/-- SRAI (R325). -/
def execSrai (d a : Reg) (i : BitVec 16) (s : State) : Result := aluRI sraVal d a (zext64 i) s
/-- SLTI (R325). -/
def execSlti (d a : Reg) (i : BitVec 16) (s : State) : Result := aluRI (fun x y => flagWord (ltS x y)) d a (sext64 i) s
/-- SLTIU (R325): the immediate is zero-extended. -/
def execSltiu (d a : Reg) (i : BitVec 16) (s : State) : Result := aluRI (fun x y => flagWord (ltU x y)) d a (zext64 i) s
/-- LUI (R325). -/
def execLui (d : Reg) (i : BitVec 16) (s : State) : Result := finish s d (luiVal i)
/-- LIX (R326): two words long. -/
def execLix (d a : Reg) (i : BitVec 32) (s : State) : Result :=
  .next ((s.setReg d (lixVal (s.reg a) i)).advance 8)

/-! ### Branches and jumps (R327, R328) -/

/-- The address a + 4 × sext(offset) (R290), as the CP names it: modulo 2^64. -/
def branchTarget {n : Nat} (pc : Nat) (o : BitVec n) : Nat := (BitVec.ofNat 64 pc + sext64 o * 4).toNat

/-- A branch: taken, the CP goes on at the target, otherwise at the next word (R327). -/
def branch (taken : Word → Word → Bool) (a b : Reg) (o : BitVec 16) (s : State) : Result :=
  if taken (s.reg a) (s.reg b) then .next (s.goto (branchTarget s.cur.pc o)) else finish0 s

/-- BEQ (R327). -/
def execBeq (a b : Reg) (o : BitVec 16) (s : State) : Result := branch (fun x y => x == y) a b o s
/-- BNE (R327). -/
def execBne (a b : Reg) (o : BitVec 16) (s : State) : Result := branch (fun x y => x != y) a b o s
/-- BLT (R327). -/
def execBlt (a b : Reg) (o : BitVec 16) (s : State) : Result := branch ltS a b o s
/-- BGE (R327). -/
def execBge (a b : Reg) (o : BitVec 16) (s : State) : Result := branch (fun x y => !(ltS x y)) a b o s
/-- BLTU (R327). -/
def execBltu (a b : Reg) (o : BitVec 16) (s : State) : Result := branch ltU a b o s
/-- BGEU (R327). -/
def execBgeu (a b : Reg) (o : BitVec 16) (s : State) : Result := branch (fun x y => !(ltU x y)) a b o s

/-- JAL (R328). -/
def execJal (d : Reg) (o : BitVec 21) (s : State) : Result :=
  .next ((s.setReg d (BitVec.ofNat 64 (s.cur.pc + 4))).goto (branchTarget s.cur.pc o))

/-- JALR (R328): x is read before rd is written; a target that is not a multiple of 4 raises CPM.13 at the JALR. -/
def execJalr (d a : Reg) (i : BitVec 16) (s : State) : Result :=
  let t := (s.reg a + sext64 i).toNat
  if t % 4 ≠ 0 then .next (s.trap 0x02D t)
  else .next ((s.setReg d (BitVec.ofNat 64 (s.cur.pc + 4))).goto t)

end Sys2Proof.Machine
end

