-- ==== Sys2Proof/Machine/System.lean ====
section
/-! DEFINITION. Fences, system registers, traps, events and stopping of the CP (R337 to R345). -/

namespace Sys2Proof.Machine

/-- NOP (R344). -/
def execNop (s : State) : Result := finish0 s

/-- A FENCE at a scope completes when nothing within it is pending (R212, R337). -/
def fence (sc : Scope) (s : State) : Result :=
  if releaseHeld s s.turn sc s.cur.issueSeq true then .next s.wait else finish0 s

/-- FENCE.core (R337). -/
def execFenceCore (s : State) : Result := fence .core s
/-- FENCE.card (R337). -/
def execFenceCard (s : State) : Result := fence .card s
/-- FENCE.deck (R337). -/
def execFenceDeck (s : State) : Result := fence .deck s
/-- FENCE.dom (R337). -/
def execFenceDom (s : State) : Result := fence .dom s

/-- FENCEI (R337): every word fetched before is discarded; later fetches read tile SRAM as it stands. -/
def execFencei (s : State) : Result := finish0 (s.modCur fun k => { k with codeOld := [] })

/-- ERET (R342): CPX.0 in U mode, CPX.9 without INTRAP, CPX.14 outside the code region, then the return. -/
def execEret (s : State) : Result :=
  privileged supervisorOnly s fun s =>
    let k := s.cur
    let e := k.epc.toNat / 4 * 4
    if !(bitAt k.status 7) then .next (s.trap 0x019 0)
    else if e < k.codeBase ∨ k.codeBase + k.codeSize ≤ e then .next (s.trap 0x01E e)
    else .next s.returnFromTrap

/-- WFE (R343): a set flag is cleared and the CP goes on; otherwise it waits, until the flag is set or a listed event has
come. -/
def execWfe (s : State) : Result :=
  let k := s.cur
  if k.event || (k.wfe && k.woken) then
    finish0 (s.modCur fun k => { k with event := k.event && k.wfe && k.woken, wfe := false, woken := false })
  else if k.wfe then .next s
  else .next (s.modCur fun k => { k with wfe := true, woken := false })

/-- The cores of a card that hold a graph. -/
def coresOnCard (s : State) (card h : Nat) : List Nat :=
  (s.coresOf h).filter fun c => c / 192 == card

/-- SEV (R343): the flag of every core of the card that holds a core of the issuing graph, the issuer included. -/
def execSev (s : State) : Result :=
  let cs := s.turn :: coresOnCard s (s.turn / 192) s.cur.graph
  finish0 (cs.foldl (fun s c => s.modCore c fun k => { k with event := true }) s)

/-- BRK (R341): DBG.3, resuming at the next instruction; as for TRAP, a cut's notice names it. -/
def execBrk (s : State) : Result :=
  let s1 := s.trapAt s.turn 0x173 0 (s.cur.pc + 4)
  .next (if s.cur.mode = .u then s1.notifyGraph s.cur.graph { cause := 0x173, core := coreName s.turn } else s1)

/-- TRAP (R340): CPX.8 with its argument, resuming at the next instruction; a cut's notice carries the argument. -/
def execTrap (i : BitVec 16) (s : State) : Result :=
  let s1 := s.trapAt s.turn 0x018 i.toNat (s.cur.pc + 4)
  .next (if s.cur.mode = .u then
      s1.notifyGraph s.cur.graph { cause := 0x018, core := coreName s.turn, detail := i.toNat }
    else s1)

/-- SRD (R339). -/
def execSrd (d : Reg) (n : BitVec 12) (s : State) : Result :=
  if srReadable n.toNat s.cur.mode then finish s d (s.sysReg s.turn n.toNat) else .next (s.trap 0x011 n.toNat)

/-- The value or the register's own rule refuses a write (R339 steps 4 and 5): PMODE above the mode in force; a code
region outside tile SRAM (R184); an RNG stream that the active configuration binds (R256). -/
def swrRefused (k : Core) (n : Nat) (v : Word) : Option Nat :=
  if n = 0x700 then
    if fld v 3 2 ≠ 2 ∧ Mode.rank k.mode < Mode.rank (modeOfCode (fld v 3 2)) then some 0x014 else none
  else if n = 0x7C2 then if 512 < fld v 20 12 + fld v 41 32 then some 0x026 else none
  else if 0x7D0 ≤ n ∧ n ≤ 0x7E7 then if rngBound k ((n - 0x7D0) % 8) then some 0x0FB else none
  else none

/-- SWR (R339): CPX.3, CPX.2, then the value's and the register's own refusal; the effect is complete before the next
fetch (R302). -/
def execSwr (a : Reg) (n : BitVec 12) (s : State) : Result :=
  let r := n.toNat
  if !(srWritableAtAll r) then .next (s.trap 0x013 r)
  else if !(srWritable r s.cur.mode) then .next (s.trap 0x012 r)
  else match swrRefused s.cur r (s.reg a) with
    | some f => .next (s.trap f r)
    | none => finish0 (s.modCur fun k => k.writeSysReg r (s.reg a))

end Sys2Proof.Machine
end

