-- ==== Sys2Proof/Machine/Dispatch.lean ====
section
/-! DEFINITION. The dispatch of every instruction and event to its meaning, one arm per constructor of Instr. -/

namespace Sys2Proof.Machine

/-- What an instruction or event does to the state. -/
def exec (i : Instr) (s : State) : Host.Outcome State Fault Refusal :=
  match i with
  | .add d a b => Sys2Proof.Machine.execAdd d a b s
  | .sub d a b => Sys2Proof.Machine.execSub d a b s
  | .mul d a b => Sys2Proof.Machine.execMul d a b s
  | .mulh d a b => Sys2Proof.Machine.execMulh d a b s
  | .mulhu d a b => Sys2Proof.Machine.execMulhu d a b s
  | .div d a b => Sys2Proof.Machine.execDiv d a b s
  | .divu d a b => Sys2Proof.Machine.execDivu d a b s
  | .rem d a b => Sys2Proof.Machine.execRem d a b s
  | .remu d a b => Sys2Proof.Machine.execRemu d a b s
  | .and d a b => Sys2Proof.Machine.execAnd d a b s
  | .or d a b => Sys2Proof.Machine.execOr d a b s
  | .xor d a b => Sys2Proof.Machine.execXor d a b s
  | .andn d a b => Sys2Proof.Machine.execAndn d a b s
  | .shl d a b => Sys2Proof.Machine.execShl d a b s
  | .shr d a b => Sys2Proof.Machine.execShr d a b s
  | .sra d a b => Sys2Proof.Machine.execSra d a b s
  | .rotl d a b => Sys2Proof.Machine.execRotl d a b s
  | .min d a b => Sys2Proof.Machine.execMin d a b s
  | .max d a b => Sys2Proof.Machine.execMax d a b s
  | .minu d a b => Sys2Proof.Machine.execMinu d a b s
  | .maxu d a b => Sys2Proof.Machine.execMaxu d a b s
  | .slt d a b => Sys2Proof.Machine.execSlt d a b s
  | .sltu d a b => Sys2Proof.Machine.execSltu d a b s
  | .seq d a b => Sys2Proof.Machine.execSeq d a b s
  | .clz d a => Sys2Proof.Machine.execClz d a s
  | .ctz d a => Sys2Proof.Machine.execCtz d a s
  | .popc d a => Sys2Proof.Machine.execPopc d a s
  | .brev d a => Sys2Proof.Machine.execBrev d a s
  | .bext d a b => Sys2Proof.Machine.execBext d a b s
  | .bins d a b => Sys2Proof.Machine.execBins d a b s
  | .sext d a b => Sys2Proof.Machine.execSext d a b s
  | .addi d a im => Sys2Proof.Machine.execAddi d a im s
  | .andi d a im => Sys2Proof.Machine.execAndi d a im s
  | .ori d a im => Sys2Proof.Machine.execOri d a im s
  | .xori d a im => Sys2Proof.Machine.execXori d a im s
  | .shli d a im => Sys2Proof.Machine.execShli d a im s
  | .shri d a im => Sys2Proof.Machine.execShri d a im s
  | .srai d a im => Sys2Proof.Machine.execSrai d a im s
  | .slti d a im => Sys2Proof.Machine.execSlti d a im s
  | .sltiu d a im => Sys2Proof.Machine.execSltiu d a im s
  | .lui d im => Sys2Proof.Machine.execLui d im s
  | .lix d a im => Sys2Proof.Machine.execLix d a im s
  | .jal d o => Sys2Proof.Machine.execJal d o s
  | .jalr d a im => Sys2Proof.Machine.execJalr d a im s
  | .beq a b o => Sys2Proof.Machine.execBeq a b o s
  | .bne a b o => Sys2Proof.Machine.execBne a b o s
  | .blt a b o => Sys2Proof.Machine.execBlt a b o s
  | .bge a b o => Sys2Proof.Machine.execBge a b o s
  | .bltu a b o => Sys2Proof.Machine.execBltu a b o s
  | .bgeu a b o => Sys2Proof.Machine.execBgeu a b o s
  | .ldb d a im => Sys2Proof.Machine.execLdb d a im s
  | .ldbu d a im => Sys2Proof.Machine.execLdbu d a im s
  | .ldh d a im => Sys2Proof.Machine.execLdh d a im s
  | .ldhu d a im => Sys2Proof.Machine.execLdhu d a im s
  | .ldw d a im => Sys2Proof.Machine.execLdw d a im s
  | .ldwu d a im => Sys2Proof.Machine.execLdwu d a im s
  | .ldd d a im => Sys2Proof.Machine.execLdd d a im s
  | .lda d a sc w im => Sys2Proof.Machine.execLda d a sc w im s
  | .stb b a im => Sys2Proof.Machine.execStb b a im s
  | .sth b a im => Sys2Proof.Machine.execSth b a im s
  | .stw b a im => Sys2Proof.Machine.execStw b a im s
  | .std b a im => Sys2Proof.Machine.execStd b a im s
  | .stl b a sc w im => Sys2Proof.Machine.execStl b a sc w im s
  | .ldq a q n sc w => Sys2Proof.Machine.execLdq a q n sc w s
  | .stq a b q n sc w => Sys2Proof.Machine.execStq a b q n sc w s
  | .aadd a b q n sc w => Sys2Proof.Machine.execAadd a b q n sc w s
  | .amin a b q n sc w => Sys2Proof.Machine.execAmin a b q n sc w s
  | .amax a b q n sc w => Sys2Proof.Machine.execAmax a b q n sc w s
  | .aminu a b q n sc w => Sys2Proof.Machine.execAminu a b q n sc w s
  | .amaxu a b q n sc w => Sys2Proof.Machine.execAmaxu a b q n sc w s
  | .aand a b q n sc w => Sys2Proof.Machine.execAand a b q n sc w s
  | .aor a b q n sc w => Sys2Proof.Machine.execAor a b q n sc w s
  | .axor a b q n sc w => Sys2Proof.Machine.execAxor a b q n sc w s
  | .aswp a b q n sc w => Sys2Proof.Machine.execAswp a b q n sc w s
  | .acas d a b q n sc w => Sys2Proof.Machine.execAcas d a b q n sc w s
  | .asnap a q n sc w => Sys2Proof.Machine.execAsnap a q n sc w s
  | .aaddf a b q n sc w => Sys2Proof.Machine.execAaddf a b q n sc w s
  | .waitqSrc d q => Sys2Proof.Machine.execWaitqSrc d q s
  | .waitqVis d q => Sys2Proof.Machine.execWaitqVis d q s
  | .popq d q => Sys2Proof.Machine.execPopq d q s
  | .nop => Sys2Proof.Machine.execNop s
  | .fenceCore => Sys2Proof.Machine.execFenceCore s
  | .fenceCard => Sys2Proof.Machine.execFenceCard s
  | .fenceDeck => Sys2Proof.Machine.execFenceDeck s
  | .fenceDom => Sys2Proof.Machine.execFenceDom s
  | .fencei => Sys2Proof.Machine.execFencei s
  | .eret => Sys2Proof.Machine.execEret s
  | .wfe => Sys2Proof.Machine.execWfe s
  | .sev => Sys2Proof.Machine.execSev s
  | .halt => Sys2Proof.Machine.execHalt s
  | .brk => Sys2Proof.Machine.execBrk s
  | .trap im => Sys2Proof.Machine.execTrap im s
  | .srd d n => Sys2Proof.Machine.execSrd d n s
  | .swr a n => Sys2Proof.Machine.execSwr a n s
  | .gload a => Sys2Proof.Machine.execGload a s
  | .gswapDrain => Sys2Proof.Machine.execGswapDrain s
  | .gswapEos => Sys2Proof.Machine.execGswapEos s
  | .ggo => Sys2Proof.Machine.execGgo s
  | .ggoRes => Sys2Proof.Machine.execGgoRes s
  | .gstop => Sys2Proof.Machine.execGstop s
  | .gstat d => Sys2Proof.Machine.execGstat d s
  | .gstv a b => Sys2Proof.Machine.execGstv a b s
  | .gstvAct a b => Sys2Proof.Machine.execGstvAct a b s
  | .srds d a e => Sys2Proof.Machine.execSrds d a e s
  | .swrs d a e => Sys2Proof.Machine.execSwrs d a e s
  | .scpy d a e => Sys2Proof.Machine.execScpy d a e s
  | .sagc a b c => Sys2Proof.Machine.execSagc a b c s
  | .sxlt a e => Sys2Proof.Machine.execSxlt a e s
  | .swaitSrc a => Sys2Proof.Machine.execSwaitSrc a s
  | .swaitVis a => Sys2Proof.Machine.execSwaitVis a s
  | .rwset a b => Sys2Proof.Machine.execRwset a b s
  | .rwrst a => Sys2Proof.Machine.execRwrst a s
  | .rwqry d a => Sys2Proof.Machine.execRwqry d a s
  | .fdone => Sys2Proof.Machine.execFdone s
  | .fabort a => Sys2Proof.Machine.execFabort a s
  | .mode a => Sys2Proof.Machine.execMode a s
  | .mwait d => Sys2Proof.Machine.execMwait d s
  | .lnch a b q => Sys2Proof.Machine.execLnch a b q s
  | .lwait d a => Sys2Proof.Machine.execLwait d a s
  | .bari a b n => Sys2Proof.Machine.execBari a b n s
  | .bara d n => Sys2Proof.Machine.execBara d n s
  | .barw a => Sys2Proof.Machine.execBarw a s
  | .bart d a => Sys2Proof.Machine.execBart d a s
  | .dkst a b => Sys2Proof.Machine.execDkst a b s
  | .dkadd a b w q => Sys2Proof.Machine.execDkadd a b w q s
  | .dkcas d a b w q => Sys2Proof.Machine.execDkcas d a b w q s
  | .dksync => Sys2Proof.Machine.execDksync s
  | .rngk a sc => Sys2Proof.Machine.execRngk a sc s
  | .rngc a b sc => Sys2Proof.Machine.execRngc a b sc s
  | .rngd d sc => Sys2Proof.Machine.execRngd d sc s
  | .rngdSt d a sc => Sys2Proof.Machine.execRngdSt d a sc s
  | .apndSet a n => Sys2Proof.Machine.execApndSet a n s
  | .apndRow d a n => Sys2Proof.Machine.execApndRow d a n s
  | .mark n => Sys2Proof.Machine.execMark n s
  | .fold a n => Sys2Proof.Machine.execFold a n s
  | .stats a => Sys2Proof.Machine.execStats a s
  | .cutmStart a => Sys2Proof.Machine.execCutmStart a s
  | .cutmRel a => Sys2Proof.Machine.execCutmRel a s
  | .tkbp a b => Sys2Proof.Machine.execTkbp a b s
  | .tkbpClr a => Sys2Proof.Machine.execTkbpClr a s
  | .frz a q => Sys2Proof.Machine.execFrz a q s
  | .thaw a q => Sys2Proof.Machine.execThaw a q s
  | .pwrq d a => Sys2Proof.Machine.execPwrq d a s
  | .quote a b q => Sys2Proof.Machine.execQuote a b q s
  | .quoteExt a b q => Sys2Proof.Machine.execQuoteExt a b q s
  | .mxb a b => Sys2Proof.Machine.execMxb a b s
  | .mxbPb b => Sys2Proof.Machine.execMxbPb b s
  | .mxsw => Sys2Proof.Machine.execMxsw s
  | .mxmm a b n => Sys2Proof.Machine.execMxmm a b n s
  | .mxmmPa b n => Sys2Proof.Machine.execMxmmPa b n s
  | .mxaccClr b n => Sys2Proof.Machine.execMxaccClr b n s
  | .mxaccQry d n => Sys2Proof.Machine.execMxaccQry d n s
  | .mxaccOuts a b n => Sys2Proof.Machine.execMxaccOuts a b n s
  | .mxaccOutp b n => Sys2Proof.Machine.execMxaccOutp b n s
  | .mxsort a k im => Sys2Proof.Machine.execMxsort a k im s
  | .mxgang a => Sys2Proof.Machine.execMxgang a s
  | .mxwait d sc => Sys2Proof.Machine.execMxwait d sc s
  | .mldg d a => Sys2Proof.Machine.execMldg d a s
  | .mlchk d => Sys2Proof.Machine.execMlchk d s
  | .mlchkRec d a => Sys2Proof.Machine.execMlchkRec d a s
  | .mlfree m => Sys2Proof.Machine.execMlfree m s
  | .mlrun a b m => Sys2Proof.Machine.execMlrun a b m s
  | .mlcut a m => Sys2Proof.Machine.execMlcut a m s
  | .mxbLoad c => Sys2Proof.Machine.execMxbLoad c s
  | .mxswExchange c => Sys2Proof.Machine.execMxswExchange c s
  | .mxmmExecute c => Sys2Proof.Machine.execMxmmExecute c s
  | .mxaccExecute c => Sys2Proof.Machine.execMxaccExecute c s
  | .mxsortExecute c => Sys2Proof.Machine.execMxsortExecute c s
  | .mxgangExecute c => Sys2Proof.Machine.execMxgangExecute c s
  | .meldRun c => Sys2Proof.Machine.execMeldRun c s
  | .mlfreeComplete c => Sys2Proof.Machine.execMlfreeComplete c s
  | .mlcutExecute c => Sys2Proof.Machine.execMlcutExecute c s
  | .elemNop b => Sys2Proof.Machine.execElemNop b s
  | .const b => Sys2Proof.Machine.execConst b s
  | .sink b => Sys2Proof.Machine.execSink b s
  | .copy b => Sys2Proof.Machine.execCopy b s
  | .elemAdd b => Sys2Proof.Machine.execElemAdd b s
  | .elemSub b => Sys2Proof.Machine.execElemSub b s
  | .elemMul b => Sys2Proof.Machine.execElemMul b s
  | .fma b => Sys2Proof.Machine.execFma b s
  | .fms b => Sys2Proof.Machine.execFms b s
  | .nfma b => Sys2Proof.Machine.execNfma b s
  | .elemMin b => Sys2Proof.Machine.execElemMin b s
  | .elemMax b => Sys2Proof.Machine.execElemMax b s
  | .abs b => Sys2Proof.Machine.execAbs b s
  | .neg b => Sys2Proof.Machine.execNeg b s
  | .elemAnd b => Sys2Proof.Machine.execElemAnd b s
  | .elemOr b => Sys2Proof.Machine.execElemOr b s
  | .elemXor b => Sys2Proof.Machine.execElemXor b s
  | .not b => Sys2Proof.Machine.execNot b s
  | .elemShl b => Sys2Proof.Machine.execElemShl b s
  | .elemShr b => Sys2Proof.Machine.execElemShr b s
  | .elemSra b => Sys2Proof.Machine.execElemSra b s
  | .clamp b => Sys2Proof.Machine.execClamp b s
  | .cmpeq b => Sys2Proof.Machine.execCmpeq b s
  | .cmplt b => Sys2Proof.Machine.execCmplt b s
  | .cmple b => Sys2Proof.Machine.execCmple b s
  | .sel b => Sys2Proof.Machine.execSel b s
  | .exp2 b => Sys2Proof.Machine.execExp2 b s
  | .log2 b => Sys2Proof.Machine.execLog2 b s
  | .rcp b => Sys2Proof.Machine.execRcp b s
  | .rsq b => Sys2Proof.Machine.execRsq b s
  | .cvt b => Sys2Proof.Machine.execCvt b s
  | .qblk b => Sys2Proof.Machine.execQblk b s
  | .dqblk b => Sys2Proof.Machine.execDqblk b s
  | .tosd b => Sys2Proof.Machine.execTosd b s
  | .fromsd b => Sys2Proof.Machine.execFromsd b s
  | .bpln b => Sys2Proof.Machine.execBpln b s
  | .rsum b => Sys2Proof.Machine.execRsum b s
  | .rmax b => Sys2Proof.Machine.execRmax b s
  | .rmin b => Sys2Proof.Machine.execRmin b s
  | .bcast b => Sys2Proof.Machine.execBcast b s
  | .shuf b => Sys2Proof.Machine.execShuf b s
  | .elemRotl b => Sys2Proof.Machine.execElemRotl b s
  | .sld b => Sys2Proof.Machine.execSld b s
  | .swap b => Sys2Proof.Machine.execSwap b s
  | .steer b => Sys2Proof.Machine.execSteer b s
  | .merge b => Sys2Proof.Machine.execMerge b s
  | .carry b => Sys2Proof.Machine.execCarry b s
  | .invar b => Sys2Proof.Machine.execInvar b s
  | .lgen b => Sys2Proof.Machine.execLgen b s
  | .agen b => Sys2Proof.Machine.execAgen b s
  | .agch b => Sys2Proof.Machine.execAgch b s
  | .mld b => Sys2Proof.Machine.execMld b s
  | .mst b => Sys2Proof.Machine.execMst b s
  | .matom b => Sys2Proof.Machine.execMatom b s
  | .pin b => Sys2Proof.Machine.execPin b s
  | .pout b => Sys2Proof.Machine.execPout b s
  | .cseq b => Sys2Proof.Machine.execCseq b s
  | .cpipe b => Sys2Proof.Machine.execCpipe b s
  | .cstrm b => Sys2Proof.Machine.execCstrm b s
  | .eot b => Sys2Proof.Machine.execEot b s
  | .eos b => Sys2Proof.Machine.execEos b s
  | .tstm b => Sys2Proof.Machine.execTstm b s
  | .pqc b => Sys2Proof.Machine.execPqc b s
  | .smpl b => Sys2Proof.Machine.execSmpl b s
  | .acpt b => Sys2Proof.Machine.execAcpt b s
  | .rnge b => Sys2Proof.Machine.execRnge b s
  | .stcnt b => Sys2Proof.Machine.execStcnt b s
  | .stadd b => Sys2Proof.Machine.execStadd b s
  | .elementMark c k sh => Sys2Proof.Machine.execElementMark c k sh s
  | .wavefrontSwapUnmarked c k => Sys2Proof.Machine.execWavefrontSwapUnmarked c k s
  | .drainGatedSwap c => Sys2Proof.Machine.execDrainGatedSwap c s
  | .gloadComplete c => Sys2Proof.Machine.execGloadComplete c s
  | .firingStart c => Sys2Proof.Machine.execFiringStart c s
  | .actorDrain c => Sys2Proof.Machine.execActorDrain c s
  | .wrptrWrite c d => Sys2Proof.Machine.execWrptrWrite c d s
  | .rdptrMirror c d => Sys2Proof.Machine.execRdptrMirror c d s
  | .memoryActorFiring n => Sys2Proof.Machine.execMemoryActorFiring n s
  | .modeTokenAccept g => Sys2Proof.Machine.execModeTokenAccept g s
  | .sequencerStop c => Sys2Proof.Machine.execSequencerStop c s
  | .modeXpkgTimeout g => Sys2Proof.Machine.execModeXpkgTimeout g s
  | .translationWalk c q => Sys2Proof.Machine.execTranslationWalk c q s
  | .homePerform c q => Sys2Proof.Machine.execHomePerform c q s
  | .kittyResend c q => Sys2Proof.Machine.execKittyResend c q s
  | .kittyRelease x page => Sys2Proof.Machine.execKittyRelease x page s
  | .kittyDecline x page => Sys2Proof.Machine.execKittyDecline x page s
  | .pageInvalidate x first last => Sys2Proof.Machine.execPageInvalidate x first last s
  | .rangeEntryWrite x im d0 d1 d2 d3 => Sys2Proof.Machine.execRangeEntryWrite x im d0 d1 d2 d3 s
  | .remapDescriptorWrite x im d0 d1 => Sys2Proof.Machine.execRemapDescriptorWrite x im d0 d1 s
  | .queueEntryComplete c q => Sys2Proof.Machine.execQueueEntryComplete c q s
  | .sourceReleased c q => Sys2Proof.Machine.execSourceReleased c q s
  | .localAtomicTimeout c q => Sys2Proof.Machine.execLocalAtomicTimeout c q s
  | .queueWaitTimeout c => Sys2Proof.Machine.execQueueWaitTimeout c s
  | .streamStart c e => Sys2Proof.Machine.execStreamStart c e s
  | .streamBurst c e => Sys2Proof.Machine.execStreamBurst c e s
  | .streamSourceReleased c e => Sys2Proof.Machine.execStreamSourceReleased c e s
  | .streamVisible c e => Sys2Proof.Machine.execStreamVisible c e s
  | .swaitTimeout c => Sys2Proof.Machine.execSwaitTimeout c s
  | .mxwaitTimeout c => Sys2Proof.Machine.execMxwaitTimeout c s
  | .gridWatchdog c k => Sys2Proof.Machine.execGridWatchdog c k s
  | .portWaitTimeout c k => Sys2Proof.Machine.execPortWaitTimeout c k s
  | .barrierArrival c n => Sys2Proof.Machine.execBarrierArrival c n s
  | .launchRequest c q => Sys2Proof.Machine.execLaunchRequest c q s
  | .imageValidation g => Sys2Proof.Machine.execImageValidation g s
  | .placementTimeout g => Sys2Proof.Machine.execPlacementTimeout g s
  | .graphAdmit => Sys2Proof.Machine.execGraphAdmit s
  | .shadowReport c cause => Sys2Proof.Machine.execShadowReport c cause s
  | .statusTimeout g => Sys2Proof.Machine.execStatusTimeout g s
  | .commitSwap c => Sys2Proof.Machine.execCommitSwap c s
  | .packageReport g pkg ok => Sys2Proof.Machine.execPackageReport g pkg ok s
  | .xpkgGo g => Sys2Proof.Machine.execXpkgGo g s
  | .xpkgAbort g => Sys2Proof.Machine.execXpkgAbort g s
  | .xpkgReportTimeout g => Sys2Proof.Machine.execXpkgReportTimeout g s
  | .peerHalt g => Sys2Proof.Machine.execPeerHalt g s
  | .freezeRequest g => Sys2Proof.Machine.execFreezeRequest g s
  | .freezeWave c => Sys2Proof.Machine.execFreezeWave c s
  | .freezeComplete g ok => Sys2Proof.Machine.execFreezeComplete g ok s
  | .freezeTimeout g => Sys2Proof.Machine.execFreezeTimeout g s
  | .graphStop g => Sys2Proof.Machine.execGraphStop g s
  | .contextCreate desc => Sys2Proof.Machine.execContextCreate desc s
  | .contextHalt x => Sys2Proof.Machine.execContextHalt x s
  | .contextResume x => Sys2Proof.Machine.execContextResume x s
  | .noticeDelivery x => Sys2Proof.Machine.execNoticeDelivery x s
  | .cutMarker c => Sys2Proof.Machine.execCutMarker c s
  | .cutTimeout g => Sys2Proof.Machine.execCutTimeout g s
  | .dumpStart => Sys2Proof.Machine.execDumpStart s
  | .dumpComplete => Sys2Proof.Machine.execDumpComplete s
  | .dumpEngineFault => Sys2Proof.Machine.execDumpEngineFault s
  | .pendingRemoteExpiry c q => Sys2Proof.Machine.execPendingRemoteExpiry c q s
  | .scrubStep addr => Sys2Proof.Machine.execScrubStep addr s
  | .hbmRowSpare addr => Sys2Proof.Machine.execHbmRowSpare addr s
  | .streamDataSlot suit slot => Sys2Proof.Machine.execStreamDataSlot suit slot s
  | .windowWriteSlot suit slot => Sys2Proof.Machine.execWindowWriteSlot suit slot s
  | .deckAtomicSlot suit slot => Sys2Proof.Machine.execDeckAtomicSlot suit slot s
  | .memoryActorResponseSlot suit slot => Sys2Proof.Machine.execMemoryActorResponseSlot suit slot s
  | .noticeSlot slot => Sys2Proof.Machine.execNoticeSlot slot s
  | .creditSlot layer => Sys2Proof.Machine.execCreditSlot layer s
  | .refreshCopySlot slot => Sys2Proof.Machine.execRefreshCopySlot slot s
  | .returnRecordSlot slot => Sys2Proof.Machine.execReturnRecordSlot slot s
  | .frameBoundary => Sys2Proof.Machine.execFrameBoundary s
  | .replicaApply layer => Sys2Proof.Machine.execReplicaApply layer s
  | .calendarWrite im w => Sys2Proof.Machine.execCalendarWrite im w s
  | .dkwinRangeWrite x base size => Sys2Proof.Machine.execDkwinRangeWrite x base size s
  | .cardSleep card => Sys2Proof.Machine.execCardSleep card s
  | .cardWake card => Sys2Proof.Machine.execCardWake card s
  | .wakeSequenceTimeout card => Sys2Proof.Machine.execWakeSequenceTimeout card s
  | .sensorSample card temp => Sys2Proof.Machine.execSensorSample card temp s
  | .thermalRepeat card => Sys2Proof.Machine.execThermalRepeat card s
  | .sensorSilent card => Sys2Proof.Machine.execSensorSilent card s
  | .edgeViaOvercurrent card => Sys2Proof.Machine.execEdgeViaOvercurrent card s
  | .supplyDroop island => Sys2Proof.Machine.execSupplyDroop island s
  | .moduleLimitWrite halfWatts => Sys2Proof.Machine.execModuleLimitWrite halfWatts s
  | .powerGate c => Sys2Proof.Machine.execPowerGate c s
  | .coreWakeComplete c => Sys2Proof.Machine.execCoreWakeComplete c s
  | .wakeTimeout c => Sys2Proof.Machine.execWakeTimeout c s
  | .remoteRequest m => Sys2Proof.Machine.execRemoteRequest m s
  | .remoteResponse c q cause data => Sys2Proof.Machine.execRemoteResponse c q cause data s
  | .remoteTimeout c q => Sys2Proof.Machine.execRemoteTimeout c q s
  | .vcTokenArrival ch bytes late => Sys2Proof.Machine.execVcTokenArrival ch bytes late s
  | .vcCredit ch rdptr => Sys2Proof.Machine.execVcCredit ch rdptr s
  | .portRetrain n => Sys2Proof.Machine.execPortRetrain n s
  | .portRetrained n => Sys2Proof.Machine.execPortRetrained n s
  | .portDown n reroute => Sys2Proof.Machine.execPortDown n reroute s
  | .flitUncorrectable o => Sys2Proof.Machine.execFlitUncorrectable o s
  | .domainEnumeration pkg => Sys2Proof.Machine.execDomainEnumeration pkg s
  | .ingressWrite n off bytes poisoned => Sys2Proof.Machine.execIngressWrite n off bytes poisoned s
  | .creditWriteback n => Sys2Proof.Machine.execCreditWriteback n s
  | .openRecord n => Sys2Proof.Machine.execOpenRecord n s
  | .dataRecord n => Sys2Proof.Machine.execDataRecord n s
  | .closeRecord n => Sys2Proof.Machine.execCloseRecord n s
  | .modeRecord n => Sys2Proof.Machine.execModeRecord n s
  | .ingressDrainAccepted n => Sys2Proof.Machine.execIngressDrainAccepted n s
  | .ingressEn n en => Sys2Proof.Machine.execIngressEn n en s
  | .ingressRst n => Sys2Proof.Machine.execIngressRst n s
  | .egressEn n en => Sys2Proof.Machine.execEgressEn n en s
  | .egressRst n => Sys2Proof.Machine.execEgressRst n s
  | .rdposWrite n v => Sys2Proof.Machine.execRdposWrite n v s
  | .graphStoreEnable w => Sys2Proof.Machine.execGraphStoreEnable w s
  | .graphStoreAccess off wr bytes => Sys2Proof.Machine.execGraphStoreAccess off wr bytes s
  | .egressRecordWrite n => Sys2Proof.Machine.execEgressRecordWrite n s
  | .completionWordWrite n => Sys2Proof.Machine.execCompletionWordWrite n s
  | .pcieLinkDown => Sys2Proof.Machine.execPcieLinkDown s
  | .registerWrite off v => Sys2Proof.Machine.execRegisterWrite off v s
  | .coldReset => Sys2Proof.Machine.execColdReset s
  | .quoteCapture => Sys2Proof.Machine.execQuoteCapture s
  | .quoteExtendApply => Sys2Proof.Machine.execQuoteExtendApply s
  | .getVersion r => Sys2Proof.Machine.execGetVersion r s
  | .getCapabilities r => Sys2Proof.Machine.execGetCapabilities r s
  | .negotiateAlgorithms r => Sys2Proof.Machine.execNegotiateAlgorithms r s
  | .getDigests r => Sys2Proof.Machine.execGetDigests r s
  | .getCertificate r => Sys2Proof.Machine.execGetCertificate r s
  | .challenge r => Sys2Proof.Machine.execChallenge r s
  | .getMeasurements r => Sys2Proof.Machine.execGetMeasurements r s
  | .spdmUnsupportedRequest r => Sys2Proof.Machine.execSpdmUnsupportedRequest r s
  | .victimMinRunTime g => Sys2Proof.Machine.execVictimMinRunTime g s
  | .contextDestroy x => Sys2Proof.Machine.execContextDestroy x s
  | .unassignedEncoding w w2 cause => Sys2Proof.Machine.execUnassignedEncoding w w2 cause s
  | .instructionFetchFault cause => Sys2Proof.Machine.execInstructionFetchFault cause s

end Sys2Proof.Machine
end

