-- ==== Sys2Proof/Machine/Errors.lean ====
section
/-! DEFINITION. Errors from outside in state that no address reaches, and in received slots of the deck: what each of
their causes does (R64, R147, R149, R226, R228, R274 and the fault tables of the classes). -/

namespace Sys2Proof.Machine

/-- The causes of an error in a core's unaddressed state, and the UNIT of the location (R274); the three parity errors are
token-attributed. -/
def coreStrikeUnit (cause : Nat) : Option Nat :=
  if cause = 0x05F ∨ cause = 0x17F ∨ cause = 0x13F ∨ cause = 0x165 then some 2
  else if cause = 0x166 then some 3
  else if cause = 0x0BD ∨ cause = 0x0BE ∨ cause = 0x0BF ∨ cause = 0x167 ∨ cause = 0x0FF then some 4
  else if cause = 0x0DF ∨ cause = 0x168 then some 5
  else if cause = 0x0EF then some 6
  else if cause = 0x16A then some 7
  else if cause = 0x16B ∨ cause = 0x0CF then some 8
  else none

/-- The tokens that a parity error on a core may meet, as notices name them (R263, R473): at a link of the active plane (ECC.7) the next
token of the link; at a port with a card-mesh descriptor (ECC.10) a token whose ordinal is a free value; in a stream engine (ECC.11)
that of the command at work. -/
def parityPlaces (s : State) (c cause : Nat) : List Notice :=
  let k := s.core c
  if cause = 0x167 then
    ((List.range k.grid.act.words.length).map fun i =>
      (linkedSlots (k.grid.act.words.getD i 0)).map fun n =>
        ({ core := coreName c, port := 0x4000 + 4 * i + n, chan := linkArc s ⟨c, i, false⟩, detail := slotOrd s ⟨c, i, false⟩ n % 2 ^ 48 }
          : Notice)).flatten
  else if cause = 0x16A then
    ((List.range 32).filter fun p =>
      match portDesc s c k.actorNo p with
      | some i => (k.desc i).pkind == 0
      | none => false).map fun p =>
        { core := coreName c, port := p, chan := arcOf s c k.actorNo p, detail := Config.freeValue s.fresh % 2 ^ 48 }
  else (List.range 4).filterMap fun e => (streamHead s c e).map fun m => streamNote s c e m

/-- A parity error on a core halts its graph at the token that meets it; which of them it is, is a free value. With no token to meet
it the error is lost. -/
def strikeParity (s : State) (c cause : Nat) : State :=
  let l := parityPlaces s c cause
  let r := s.takeFresh.2.takeFresh
  match l[r.1 % max l.length 1]? with
  | none => s
  | some n => r.2.haltReached (s.core c).graph { n with cause := cause }

/-- An error in a core's unaddressed state: its graph halts; the fault goes to the supervisor, and to management as well where its
class's table says so. In a load it does what R149 and R150 say. -/
def strikeCore (s : State) (c cause : Nat) : State :=
  match coreStrikeUnit cause with
  | none => s
  | some u =>
    let h := (s.core c).graph
    let loading : Bool := match s.graph? h with
      | some g => (g.phase == .loading && !g.decided) || g.unswapped u (c / 192) ((c % 192) * 2 ^ 32)
      | none => false
    if loading then s.haltLocation h cause u (c / 192) ((c % 192) * 2 ^ 32)
    else if cause = 0x167 ∨ cause = 0x16A ∨ cause = 0x16B then
      strikeParity s c cause
    else s.haltLocation h cause u (c / 192) ((c % 192) * 2 ^ 32)

/-- An error in the launch-queue state of a graph (SCHED.15): it goes to management; a graph that runs or loads is halted, its supervisor's notice naming the copy (R160), one that
waits, frozen or not, has nothing to dump and ends with the cause. -/
def schedError (s : State) (h : Nat) : State :=
  match s.graph? h with
  | none => s
  | some g =>
    match g.phase with
    | .validating | .queued | .frozen =>
      let s1 := s.tellMgmt (s.graphNotice h { cause := 0x14F, flags := 1 })
      let s2 := match g.launcher with
        | none => s1
        | some (c, q) => s1.completeEntry c q 0x14F 0
      ((forgetHeld (openingFails (s2.completeAll g.waiters 0x14F) h 0x14F) h).modGraph h fun g => { g with
        phase := .halted, cause := 0x14F, image := none, frzLen := 0, launcher := none, waiters := [] }).recordOutcome h 0x14F
    | _ => s.haltCopied h { cause := 0x14F }

/-- An error in state kept for a graph: the Dealer's aborts the load and re-queues it (R149), the others halt it. -/
def strikeGraph (s : State) (h cause : Nat) : State :=
  match s.graph? h with
  | none => s
  | some g =>
    if cause = 0x09F then
      if g.phase = .loading then (s.tellMgmt (s.graphNotice h { cause := cause })).failLoad h else s
    else if cause = 0x079 then s.haltCopied h { cause := cause }
    else if cause = 0x14F then schedError s h
    else if cause = 0x16F then s.haltLocation h cause 9 12 0
    else s

/-- An error in a context's translation block (XLT.15): the graphs of the context halt. -/
def strikeContext (s : State) (x : Nat) : State :=
  match NMap.find s.ctxs x with
  | none => s
  | some _ =>
    let s1 := s.tellMgmt { cause := 0x03F, ctx := x }
    (s.graphs.filter fun hg => hg.1 / 2 ^ 28 == x).foldl (fun s hg => s.haltGraph hg.1 { cause := 0x03F, flags := 2 }) s1

/-- An error in a kitty entry (ATM.7): its request completes with the cause and is not performed. -/
def strikeKitty (s : State) (n : Nat) : State :=
  match s.kitty[n]? with
  | none => s
  | some p =>
    let s1 := { s with kitty := s.kitty.eraseIdx n }
    endParked 0x047 (s1.tellMgmt { cause := 0x047, ctx := p.ctx, detail := p.page * 4096 }) p

/-- An entry's request waits in the window of a sparse-update unit. -/
def inUnit (s : State) (unit c q : Nat) (e : QEntry) : Bool :=
  let here := match e.dest with
    | .phys pa => isLocal s pa && State.unitOf (pa % 2 ^ 45) == unit
    | _ => false
  e.busy && !e.done && !e.performed && (entryOp e).isSome && here && !(inKitty s c q)

/-- An error in the window of a sparse-update unit (ATM.8): every request there that is not yet performed completes its entry with
the cause, with its location to management (R228). -/
def strikeWindow (s : State) (unit : Nat) : State :=
  let hit := (s.cores.map fun (c, k) =>
    (k.entries.filter fun (q, e) => inUnit s unit c q e).map fun (q, _) => (c, q)).flatten
  hit.foldl (fun s (x : Nat × Nat) => copyMgmt (arrive s x.1 x.2 0x048 0) x.1 0x048 ((s.core x.1).entry x.2).addr) s

/-- An entry's atomic has been performed, and its response is on its way (R226). -/
def answering (e : QEntry) : Bool :=
  e.busy && e.performed && !e.done && e.fault == 0 && match entryOp e with | some op => qopAtomic op | none => false

/-- The response of a performed atomic is lost (ATM.9): its value is unknown. -/
def loseResponse (s : State) (c q : Nat) : State :=
  let e := (s.core c).entry q
  if answering e then copyMgmt (arrive s.takeFresh.2 c q 0x049 s.takeFresh.1) c 0x049 e.addr else s

/-- A response held for a frozen graph is lost (ATM.10): the restored entry completes with the cause. -/
def loseHeld (s : State) (h l q : Nat) : State :=
  if answering (heldEntry s h l q) then holdAnswer s.takeFresh.2 h l q 0x04A s.takeFresh.1 else s

/-- An error from outside. -/
def strike (s : State) : Strike → State
  | .core c cause => strikeCore s c cause
  | .context x => strikeContext s x
  | .kitty n => strikeKitty s n
  | .window unit => strikeWindow s unit
  | .response c q => loseResponse s c q
  | .heldResponse h l q => loseHeld s h l q
  | .graph h cause => strikeGraph s h cause
  | .cacheEntry n =>
    if n < s.dealer.entries.length then
      ({ s with dealer := { s.dealer with entries := s.dealer.entries.eraseIdx n } }).countMgmt 0x097
    else s
  | .slot layer cause =>
    if (cause = 0x107 ∨ cause = 0x108) ∧ layer < 13 ∧ cardAsleep s layer = false then
      { s with deck := { s.deck with struck := NMap.put s.deck.struck layer cause } }
    else s
  | .frame layer => if layer < 13 ∧ cardAsleep s layer = false then replicaLost 0x109 s layer else s

end Sys2Proof.Machine
end

