-- ==== Sys2Proof/Machine/Peers.lean ====
section
/-! DEFINITION. What the other packages of a graph that spans packages tell this one (R78, R79, R135 to R137), and the management
control processors (R344). A message whose conditions do not hold changes nothing: how packages exchange them the spec leaves open
(log entry 79). -/

namespace Sys2Proof.Machine

/-- The configuration of a graph arrives from the package that coordinates it (R78, step 1): a new graph waits for its load here, one
that is frozen here waits for its thaw; a handle that another graph has here is reported as a failure. -/
def configure (s : State) (h id cls from' : Nat) (img : List Byte) : State :=
  let new : Graph := { handle := h, imageid := id, img := img, phase := .queued, cls := cls, arrival := s.order, coord := some from' }
  let put : State := { s with graphs := NMap.put s.graphs h new, order := s.order + 1 }
  if (NMap.find s.ctxs (h / 2 ^ 28)).isNone then reportLoad s h false
  else match s.graph? h with
    | none => put
    | some g =>
      if g.coord ≠ some from' then reportLoad s h false
      else match g.phase with
        | .frozen => s.modGraph h fun g => { g with held := false, cls := cls }
        | .halted | .retired | .refused => put
        | _ => s

/-- A message about a graph that another package coordinates. -/
def asPeer (s : State) (h : Nat) (f : Graph → State) : State :=
  match s.graph? h with
  | none => s
  | some g => if g.coord.isSome then f g else s

/-- A message of another package of a graph, which this one coordinates. -/
def asCoordinator (s : State) (h pkg : Nat) (f : Graph → State) : State :=
  match s.graph? h with
  | none => s
  | some g => if g.coord.isNone && (otherPackages s g).contains pkg then f g else s

/-- The target comes before the hold: it is kept (R135, step 3), and step 1 says so. -/
def targetEarly (s : State) (h m : Nat) : State :=
  s.modGraph h fun g => { g with modeCtl := { g.modeCtl with step := 1, target := m } }

/-- The hold of a mode switch arrives (R135, step 2): the sequencers report and hold, and take a target that has come before. -/
def peerHold (s : State) (h set : Nat) (g : Graph) : State :=
  if g.phase ≠ .running then s
  else match g.modeCtl.step with
    | 0 => holdMode s h set 0 0 0 g
    | 1 => targetMode (holdMode s h set 0 0 0 g) h g.modeCtl.target g
    | _ => s

/-- No core: the name under which another package's BARI reaches none of the cards here. -/
def noCore : Nat := 14 * 192

/-- The completed phases of an instance of the whole graph, as its coordinating package tells them (R373). -/
def Graph.barTold (g : Graph) (key c : Nat) : Graph :=
  match barInst g key with
  | none => g
  | some i => { g with barriers := NMap.put g.barriers key { i with c := max i.c c } }

/-- The outcome of a graph of another package reaches a core whose CP waits for it in LWAIT (R371). -/
def tellOutcome (s : State) (c pkg h out : Nat) : State :=
  let k := s.core c
  let asked := match instrAtPc s c with
    | some (.lwait _ a) => k.reg a == BitVec.ofNat 64 (pkg * 2 ^ 32 + h)
    | _ => false
  if k.run = .running ∧ k.cut = false ∧ k.waitSince.isSome = true ∧ asked = true ∧ pkg ≠ s.links.pkg then
    s.modCore c fun k => { k with awaited := some (pkg, h, out) }
  else s

/-- A message of another package. -/
def peerMove (s : State) : PeerMsg → State
  | .configuration h id cls from' img => configure s h id cls from' img
  | .freeze h origin =>
    match s.graph? h with
    | none => s
    | some g => if spans g.img then s.requestFreeze h origin else s
  | .freezeSection h pkg bs => asCoordinator s h pkg fun g =>
    if g.phase = .freezing then s.modGraph h fun g => { g with peers := { g.peers with sections := NMap.put g.peers.sections pkg bs } } else s
  | .sinks h pkg => asCoordinator s h pkg fun _ =>
    retireDrained (s.modGraph h fun g => { g with peers := { g.peers with sinks := pkg :: g.peers.sinks } }) h
  | .retire h => asPeer s h fun g => if g.phase = .running then retire s h else s
  | .hold h set => asPeer s h fun g => peerHold s h set g
  | .begun h pkg b => asCoordinator s h pkg fun g =>
    if g.phase ≠ .running ∨ g.modeCtl.step ≠ 2 then s
    else settleTarget (s.modGraph h fun g => { g with peers := { g.peers with begun := NMap.put g.peers.begun pkg b } }) h
  | .target h m => asPeer s h fun g =>
    if g.phase ≠ .running then s
    else match g.modeCtl.step with
      | 0 => targetEarly s h m
      | 2 => settleSwitch (targetMode s h m g) h
      | _ => s
  | .stopped h pkg => asCoordinator s h pkg fun g =>
    if g.phase ≠ .running ∨ g.modeCtl.step ≠ 4 then s else settleSwitch (noteStopped s h pkg) h
  | .switch h => asPeer s h fun g => if g.phase = .running ∧ g.modeCtl.step = 4 ∧ quiescent s h g = true then switchSet s h g else s
  | .modeToken h t =>
    match s.graph? h with
    | none => s
    | some g => if g.coord.isNone && spans g.img && decide (g.modeCtl.waiting.length < 4) then modeArrive s h t 0 0 else s
  | .modeTaken h => asPeer s h fun g =>
    match g.modeCtl.waiting with
    | [] => s
    | t :: rest => if modeHeld s g t then s else s.modGraph h fun g => { g with modeCtl := { g.modeCtl with waiting := rest } }
  | .modeOutcome h c tok out => asPeer s h fun _ => if (s.core c).graph = h then tellSender s (c + 1) tok out else s
  | .sources h pkg => asCoordinator s h pkg fun _ => s.modGraph h fun g => { g with srcDrained := true }
  | .barInit h pkg b p => asCoordinator s h pkg fun g =>
    match bariAt g b noCore p .dom with
    | some g1 => s.modGraph h fun _ => g1
    | none => s.haltGraph h { cause := 0x138 }
  | .barArrival h pkg b k => asCoordinator s h pkg fun _ => s.modGraph h fun g => g.barCount (barKey b .dom noCore) k
  | .barPhases h b c => asPeer s h fun _ => s.modGraph h fun g => g.barTold (barKey b .dom noCore) c
  | .outcome c pkg h out => tellOutcome s c pkg h out
  | .abandon h =>
    match s.graph? h with
    | none => s
    | some g => if spans g.img then abandonSwitch s h else s

/-- A management control processor executes HALT (R16, R344): it stops, and CPX.11 goes to management. -/
def managerHalts (s : State) (n : Nat) : State :=
  if (s.dealer.managers.any fun x => x.1 == n && x.2 == .running) then
    { s with dealer := { s.dealer with managers := NMap.put s.dealer.managers n .halted } }.tellMgmt { cause := 0x01B, detail := n }
  else s

end Sys2Proof.Machine
end

