-- ==== Sys2Proof/Machine/Step.lean ====
section
/-! DEFINITION. One step of the machine: the agent the agenda names moves, or the CP of the moving core when the agenda
is empty. -/

namespace Sys2Proof.Machine

/-- The CP of the moving core fetches, with correctable errors corrected (R273), decodes and executes one instruction; a CP that cannot execute stays as it is. -/
def stepCp (s : State) : Host.Outcome State Fault Refusal :=
  if cpReady s s.turn then
    match fetch s s.turn with
    | .fault cause => Sys2Proof.Machine.execInstructionFetchFault cause s
    | .word w w2 tail =>
      let s1 := s.correct (winBase s.turn + s.cur.pc) (fetchBytes s s.turn)
      match decodeCp w w2 tail with
      | .ok i => exec i s1
      | .bad sub => Sys2Proof.Machine.execUnassignedEncoding w w2 (sub.zeroExtend 9) s1
  else .next s

/-- The element that holds instruction k of a plane acts: its block word is decoded and executed. -/
def stepElem (s : State) (k : Nat) (shadow : Bool) : Host.Outcome State Fault Refusal :=
  let g := s.cur.grid
  let plane := if shadow then g.sh else g.act
  match plane.words[k]? with
  | none => .next s
  | some w =>
    match decodeBlk w with
    | none => .next s
    | some i => exec i { s with focus := (k, shadow) }

/-- An event an agenda may name: every row without an encoding but the two that only a fetch and a decode raise. -/
def isEvent (i : Instr) : Bool :=
  (encode i).isEmpty && (match i with
    | .unassignedEncoding _ _ _ => false
    | .instructionFetchFault _ => false
    | _ => true)

/-- One step of the machine. -/
def step (s : State) : Host.Outcome State Fault Refusal :=
  match s.agenda with
  | [] => stepCp s
  | .cp c :: ms => stepCp { s with agenda := ms, turn := c }
  | .elem c k shadow :: ms => stepElem { s with agenda := ms, turn := c } k shadow
  | .event i :: ms =>
    if isEvent i then exec i { s with agenda := ms } else .next { s with agenda := ms }
  | .registerRead off :: ms => .next (readRegister off { s with agenda := ms })
  | .softError a ue :: ms => .next (strikeByte { s with agenda := ms } a ue)
  | .peer m :: ms => .next (peerMove { s with agenda := ms } m)
  | .mgmtHalt n :: ms => .next (managerHalts { s with agenda := ms } n)
  | .strike e :: ms => .next (strike { s with agenda := ms } e)

/-- The state with the instruction of the given bits where the next step fetches it (log entry 6). -/
def State.withFetchWord (s : State) (nbits w : Nat) : State :=
  let lix := majorOf (BitVec.ofNat 32 w) == 0x3F && immOf (BitVec.ofNat 32 w) == 1
  if nbits ≤ 32 then placeCp s (w % 2 ^ 32) else if lix then placeCp s w else placeBlk s w

end Sys2Proof.Machine
end

