-- ==== Sys2Proof/Safety.lean ====
section
/-! DEFINITION. What the claims speak of: what an instruction that only computes may change, what stays as it is beside a
core, states a run reaches, and the invariants of the machine. -/

namespace Sys2Proof.Machine

/-- Nothing but the record of one core differs between two states. -/
def OnlyCore (s t : State) (c : Nat) : Prop := ∃ k, t = s.setCore c k

/-- Every byte of every address space reads as before. -/
def SameMemory (s t : State) : Prop := (∀ a, memGet t.mem a = memGet s.mem a) ∧ t.host.mem = s.host.mem

/-- Every byte outside a range reads as before. -/
def SameOutside (s t : State) (a n : Nat) : Prop := ∀ x, x < a ∨ a + n ≤ x → memGet t.mem x = memGet s.mem x

/-- A core but for its general registers, its pc and the record of a wait. -/
def Core.rest (k : Core) : Core := { k with regs := [], pc := 0, waitSince := none }

/-- A core but for those and the registers that a trap writes. -/
def Core.restTrap (k : Core) : Core := { k.rest with status := 0, cause := 0, epc := 0, tval := 0 }

/-- The instruction went on: no other core, no memory and nothing else of the machine changed, and of its own core only
the general register d, the pc and the record of a wait. -/
def Computed (s t : State) (d : Reg) : Prop :=
  OnlyCore s t s.turn ∧ t.cur.rest = s.cur.rest ∧ ∀ r : Reg, r ≠ d → t.reg r = s.reg r

/-- The instructions that only compute (R322 to R328), with the register they write: g0 for a branch. -/
def computedReg : Instr → Option Reg
  | .add d _ _ => some d
  | .sub d _ _ => some d
  | .mul d _ _ => some d
  | .mulh d _ _ => some d
  | .mulhu d _ _ => some d
  | .div d _ _ => some d
  | .divu d _ _ => some d
  | .rem d _ _ => some d
  | .remu d _ _ => some d
  | .and d _ _ => some d
  | .or d _ _ => some d
  | .xor d _ _ => some d
  | .andn d _ _ => some d
  | .shl d _ _ => some d
  | .shr d _ _ => some d
  | .sra d _ _ => some d
  | .rotl d _ _ => some d
  | .min d _ _ => some d
  | .max d _ _ => some d
  | .minu d _ _ => some d
  | .maxu d _ _ => some d
  | .slt d _ _ => some d
  | .sltu d _ _ => some d
  | .seq d _ _ => some d
  | .bext d _ _ => some d
  | .bins d _ _ => some d
  | .sext d _ _ => some d
  | .clz d _ => some d
  | .ctz d _ => some d
  | .popc d _ => some d
  | .brev d _ => some d
  | .lui d _ => some d
  | .jal d _ => some d
  | .addi d _ _ => some d
  | .andi d _ _ => some d
  | .ori d _ _ => some d
  | .xori d _ _ => some d
  | .shli d _ _ => some d
  | .shri d _ _ => some d
  | .srai d _ _ => some d
  | .slti d _ _ => some d
  | .sltiu d _ _ => some d
  | .lix d _ _ => some d
  | .jalr d _ _ => some d
  | .beq _ _ _ => some 0
  | .bne _ _ _ => some 0
  | .blt _ _ _ => some 0
  | .bge _ _ _ => some 0
  | .bltu _ _ _ => some 0
  | .bgeu _ _ _ => some 0
  | _ => none

/-- One step reaches the next state. -/
def StepsTo (s t : State) : Prop := step s = .next t

/-- States that a run from s reaches. -/
inductive Reaches (s : State) : State → Prop where
  | refl : Reaches s s
  | tail {t u : State} : Reaches s t → StepsTo t u → Reaches s u

/-- Memory, of the machine and of the host, in canonical form. -/
abbrev MemOk (s : State) : Prop := Memory.wf s.mem = true ∧ Memory.wf s.host.mem = true

/-- MODE and PMODE of sr.status name a mode, and its reserved bits read as zero (R268). -/
def statusOk (w : Word) : Bool := fld w 1 0 != 2 && fld w 3 2 != 2 && fld w 6 4 == 0 && fld w 63 8 == 0

/-- Where a direct access of n bytes leads (R185, R186, R54): own tile SRAM, or the replica of the card within the context's
range; key is the memory key of its first byte. -/
def DirectAt (s : State) (ea n key : Nat) : Prop :=
  (ea + n ≤ tileSize ∧ key = winBase s.turn + ea) ∨
  (∃ o, ea = 0x1F0000000000 + o ∧ o + n ≤ 2 ^ 20 ∧ deckRangeOk s s.turn s.cur.mode o n = true ∧
    replicaStale s s.turn = false ∧ key = replicaBase (s.turn / 192) + o)

/-- A CP access may go on: no acquire holds it (R338), and no storage error is marked. -/
abbrev Clear (s : State) : Prop := acquireHeld s.cur = false ∧ s.ecc.marks = []

/-- A tile SRAM operand of an engine command that no check of R347 refuses. -/
abbrev OperandOk (x n align : Nat) : Prop := 0 < n ∧ x + n ≤ tileSize ∧ x % align = 0

/-- The state but for memory, its storage errors and the cores. -/
def State.restStore (s : State) : State := { s with mem := [], ecc := {}, cores := [] }

/-- What a direct store of n bytes at ea leaves: the bytes of its register at ea, every other byte, every register and the
rest of the machine as before, the pc at the next word. -/
def Stored (s t : State) (ea n : Nat) (v : Word) : Prop :=
  (∀ j, j < n → memGet t.mem (winBase s.turn + ea + j) = BitVec.ofNat 8 (v.toNat / 256 ^ j)) ∧
  SameOutside s t (winBase s.turn + ea) n ∧ t.restStore = s.restStore ∧ (∀ c, c ≠ s.turn → t.core c = s.core c) ∧
  { t.cur.rest with codeOld := [] } = { s.cur.rest with codeOld := [] } ∧ t.cur.regs = s.cur.regs ∧ t.cur.pc = s.cur.pc + 4

/-! ### Engines -/

/-- The matrix engine of a core takes a command: the class has a matrix part, no gang mode is on or queued, the queue has a
place (R37, R349, R440). -/
abbrev MatrixFree (k : Core) : Prop := (k.eclass = 4 ∨ k.eclass = 5) ∧ (mxView k).gang = false ∧ k.matrix.queue.length < 8

/-- The moving CP has put a command into the matrix queue of its core and gone on, and nothing else changed. -/
def MxEntered (s t : State) (op : MxOp) (x y : Word) (rcd : List Word) : Prop :=
  OnlyCore s t s.turn ∧ t.cur.regs = s.cur.regs ∧ t.cur.pc = s.cur.pc + 4 ∧
  t.cur.matrix = { s.cur.matrix with
    queue := s.cur.matrix.queue ++ [{ op := op, x := x, y := y, rcd := rcd, iseq := s.cur.issueSeq }] }

/-- The moving CP has put a command into the meld queue of its core and gone on; no memory changed. -/
def MlEntered (s t : State) (m : MlCmd) : Prop :=
  t.cur.meld.queue = s.cur.meld.queue ++ [m] ∧ t.cur.regs = s.cur.regs ∧ t.cur.pc = s.cur.pc + 4 ∧ t.mem = s.mem ∧
  ∀ c, c ≠ s.turn → t.core c = s.core c

/-- The south port of an engine is wired in the active plane, and in U mode a firing is in progress (R435). -/
abbrev SouthOk (k : Core) (op ap : Nat) : Prop := southWired k.grid op ap = true ∧ (k.mode = .u → k.infire = true)

/-! ### Elements -/

/-- The element that moves has sent what it held, may act, and has not passed a swap of its plane; f is the state once its
targets have taken what they can (R395, R397). -/
def ElemFree (s f : State) (b : Blk) : Prop :=
  let e := f.elem (siteOf s)
  f = flush s (siteOf s) b ∧ elemOk s (siteOf s) = true ∧ e.out0 = [] ∧ e.out1 = [] ∧ e.swapped = false

/-- A data token, or a CTL token that is no mark, stands at the head of a slot, and no breakpoint waits for it (R281). -/
def TokenAt (s f : State) (slot : Nat) (i : Item) : Prop :=
  head? f (siteOf s) slot = some i ∧ asMark i = none ∧ itemBad i = false ∧ slotBreak f (siteOf s) slot = none

/-- Such tokens stand at the heads of several slots, in order. -/
def TokensAt (s f : State) : List Nat → List Item → Prop
  | [], is => is = []
  | n :: ns, is => ∃ i js, is = i :: js ∧ TokenAt s f n i ∧ TokensAt s f ns js

/-- A mark stands at the head of a slot. -/
def MarkAt (s f : State) (slot : Nat) (w : Word) : Prop :=
  head? f (siteOf s) slot = some (.ctl w) ∧ asMark (.ctl w) = some w ∧ ctlBad w = false

/-- The element has done what its rule says; its targets take what they can (R397). -/
def leaves (s : State) (b : Blk) (t : State) : Result := .next (waveDone (flush t (siteOf s) b) s.turn)

/-- A lane instruction's result: the operands consumed in f1, one token of the results of the 64 lanes sent to both targets,
their counts added to the element's; us are the words of SR rounding and f2 the state after their draws (R400, R255,
R259). -/
def laneResult (s f1 f2 : State) (us : List Nat) (b : Blk) (op out : Nat) (types : List Nat) (items : List Item)
    (g : Nat → List Nat → Nat × List Nat) : State :=
  let x := siteOf s
  let slots := slotsOf op (bMod b)
  let ops := (types.zip (List.range types.length)).map fun (t, n) => operand b x f1 (slots.zip items) n t
  let rs := (List.range 64).map fun l => g (us.getD l 0) (ops.map fun o => o.1.getD l 0)
  let imm := if ops.any fun o => o.2 != noCount then (immLane (eType b) (bMod b)).2 else noCount
  emit (addStats f2 x (addCounts imm (sumCounts (rs.map Prod.snd)))) x b [token64 out (rs.map Prod.fst)]

end Sys2Proof.Machine
end

