-- ==== Sys2Proof/Certificates/Slice0/Obligations.lean ====
section
/-! DEFINITION. The statements about the machine, one Prop each; OBLIGATIONS.json says which rule each formalises. -/

open Sys2Proof Sys2Proof.Machine

/-! ### The scalar instructions of the CP -/

/-- R322: the operations on two registers write their result to rd, and the CP goes on at the next word. R323:
division truncates towards zero, with defined results for a zero divisor and for signed overflow. -/
def Obligations.AluResults : Prop :=
  (∀ (s : State) (d a b : Reg),
   let x := s.reg a
   let y := s.reg b
   let n := y.toNat % 64
   let done := fun (v : Word) => (Host.Outcome.next ((s.setReg d v).advance 4) : Result)
   exec (.add d a b) s = done (x + y) ∧
   exec (.sub d a b) s = done (x - y) ∧
   exec (.mul d a b) s = done (BitVec.ofNat 64 (x.toNat * y.toNat)) ∧
   exec (.mulh d a b) s = done (((x.signExtend 128 * y.signExtend 128 : BitVec 128).extractLsb' 64 64)) ∧
   exec (.mulhu d a b) s = done (((x.zeroExtend 128 * y.zeroExtend 128 : BitVec 128).extractLsb' 64 64)) ∧
   exec (.and d a b) s = done (x &&& y) ∧
   exec (.or d a b) s = done (x ||| y) ∧
   exec (.xor d a b) s = done (x ^^^ y) ∧
   exec (.andn d a b) s = done (x &&& ~~~y) ∧
   exec (.shl d a b) s = done (x <<< n) ∧
   exec (.shr d a b) s = done (x >>> n) ∧
   exec (.sra d a b) s = done (x.sshiftRight n) ∧
   exec (.rotl d a b) s = done (x.rotateLeft n) ∧
   exec (.min d a b) s = done (if x.toInt ≤ y.toInt then x else y) ∧
   exec (.max d a b) s = done (if x.toInt ≤ y.toInt then y else x) ∧
   exec (.minu d a b) s = done (if x.toNat ≤ y.toNat then x else y) ∧
   exec (.maxu d a b) s = done (if x.toNat ≤ y.toNat then y else x) ∧
   exec (.slt d a b) s = done (if x.toInt < y.toInt then 1 else 0) ∧
   exec (.sltu d a b) s = done (if x.toNat < y.toNat then 1 else 0) ∧
   exec (.seq d a b) s = done (if x = y then 1 else 0)) ∧
  (∀ (s : State) (d a b : Reg),
   let x := s.reg a
   let y := s.reg b
   let done := fun (v : Word) => (Host.Outcome.next ((s.setReg d v).advance 4) : Result)
   (y = 0 → exec (.div d a b) s = done 0xFFFFFFFFFFFFFFFF#64 ∧ exec (.rem d a b) s = done x ∧
     exec (.divu d a b) s = done 0xFFFFFFFFFFFFFFFF#64 ∧ exec (.remu d a b) s = done x) ∧
   (x.toInt = -(2 ^ 63) → y.toInt = -1 →
     exec (.div d a b) s = done 0x8000000000000000#64 ∧ exec (.rem d a b) s = done 0) ∧
   (y ≠ 0 → exec (.divu d a b) s = done (BitVec.ofNat 64 (x.toNat / y.toNat)) ∧
     exec (.remu d a b) s = done (BitVec.ofNat 64 (x.toNat % y.toNat))) ∧
   (y ≠ 0 → ¬(x.toInt = -(2 ^ 63) ∧ y.toInt = -1) →
     ∃ q r : Word, exec (.div d a b) s = done q ∧ exec (.rem d a b) s = done r ∧
       x.toInt = q.toInt * y.toInt + r.toInt ∧ r.toInt.natAbs < y.toInt.natAbs ∧
       (0 ≤ x.toInt → 0 ≤ r.toInt) ∧ (x.toInt ≤ 0 → r.toInt ≤ 0)))

/-- R325, R326: the immediate operations; SLTIU and the logic operations extend with zeros, ADDI and SLTI with the
sign. R324: the bit-manipulation operations, bit by bit. -/
def Obligations.ImmediateAndBitResults : Prop :=
  (∀ (s : State) (d a : Reg) (i : BitVec 16) (w : BitVec 32),
   let x := s.reg a
   let done := fun (v : Word) => (Host.Outcome.next ((s.setReg d v).advance 4) : Result)
   exec (.addi d a i) s = done (x + i.signExtend 64) ∧
   exec (.andi d a i) s = done (x &&& i.zeroExtend 64) ∧
   exec (.ori d a i) s = done (x ||| i.zeroExtend 64) ∧
   exec (.xori d a i) s = done (x ^^^ i.zeroExtend 64) ∧
   (i.toNat < 64 → exec (.shli d a i) s = done (x <<< i.toNat) ∧ exec (.shri d a i) s = done (x >>> i.toNat) ∧
     exec (.srai d a i) s = done (x.sshiftRight i.toNat)) ∧
   exec (.slti d a i) s = done (if x.toInt < i.toInt then 1 else 0) ∧
   exec (.sltiu d a i) s = done (if x.toNat < i.toNat then 1 else 0) ∧
   exec (.lui d i) s = done ((BitVec.ofNat 32 (i.toNat * 65536)).signExtend 64) ∧
   exec (.lix d a w) s = .next ((s.setReg d (BitVec.ofNat 64 (x.toNat % 2 ^ 32 * 2 ^ 32 + w.toNat))).advance 8)) ∧
  (∀ (s : State) (d a b : Reg),
   let x := s.reg a
   let y := s.reg b
   let old := s.reg d
   let pos := y.toNat % 64
   let len := y.toNat / 256 % 64 + 1
   let done := fun (v : Word) => (Host.Outcome.next ((s.setReg d v).advance 4) : Result)
   (∃ n : Nat, exec (.clz d a) s = done (BitVec.ofNat 64 n) ∧ n ≤ 64 ∧ (n < 64 → x.getLsbD (63 - n) = true) ∧
     ∀ i, i < n → x.getLsbD (63 - i) = false) ∧
   (∃ n : Nat, exec (.ctz d a) s = done (BitVec.ofNat 64 n) ∧ n ≤ 64 ∧ (n < 64 → x.getLsbD n = true) ∧
     ∀ i, i < n → x.getLsbD i = false) ∧
   exec (.popc d a) s = done (BitVec.ofNat 64 ((List.range 64).countP fun i => x.getLsbD i)) ∧
   (∃ v, exec (.brev d a) s = done v ∧ ∀ i, i < 64 → v.getLsbD i = x.getLsbD (63 - i)) ∧
   (∃ v, exec (.bext d a b) s = done v ∧ ∀ i, i < 64 → v.getLsbD i = (decide (i < len) && x.getLsbD (pos + i))) ∧
   (∃ v, exec (.bins d a b) s = done v ∧ ∀ i, i < 64 →
     v.getLsbD i = if pos ≤ i ∧ i < pos + len then x.getLsbD (i - pos) else old.getLsbD i) ∧
   (∃ v, exec (.sext d a b) s = done v ∧ ∀ i, i < 64 → v.getLsbD i = x.getLsbD (min i pos)))

/-- R327, R328: a branch goes to a + 4 × sext(off16) when its condition holds and to the next word otherwise; JAL and JALR
write a + 4 to rd, and JALR reads its base before that. -/
def Obligations.BranchAndJumpTargets : Prop := ∀ (s : State) (d a b : Reg) (o : BitVec 16) (j : BitVec 21),
  let x := s.reg a
  let y := s.reg b
  let pc := BitVec.ofNat 64 s.cur.pc
  let go := fun (c : Prop) [Decidable c] =>
    (Host.Outcome.next (if c then s.goto (pc + 4 * o.signExtend 64).toNat else s.goto (s.cur.pc + 4)) : Result)
  exec (.beq a b o) s = go (x = y) ∧ exec (.bne a b o) s = go (x ≠ y) ∧
  exec (.blt a b o) s = go (x.toInt < y.toInt) ∧ exec (.bge a b o) s = go (y.toInt ≤ x.toInt) ∧
  exec (.bltu a b o) s = go (x.toNat < y.toNat) ∧ exec (.bgeu a b o) s = go (y.toNat ≤ x.toNat) ∧
  exec (.jal d j) s = .next ((s.setReg d (BitVec.ofNat 64 (s.cur.pc + 4))).goto (pc + 4 * j.signExtend 64).toNat) ∧
  ((x + o.signExtend 64).toNat % 4 = 0 →
    exec (.jalr d a o) s = .next ((s.setReg d (BitVec.ofNat 64 (s.cur.pc + 4))).goto (x + o.signExtend 64).toNat)) ∧
  ((x + o.signExtend 64).toNat % 4 ≠ 0 → exec (.jalr d a o) s = .next (s.trap 0x02D (x + o.signExtend 64).toNat))

/-- R289, R322 to R328: an instruction that only computes changes its destination register, the pc and the record of a
wait, and nothing else of the machine; g0 reads as zero before and after. -/
def Obligations.ComputingInstructionFrame : Prop := ∀ (s t : State) (i : Instr) (d : Reg),
  computedReg i = some d → exec i s = .next t → (∀ e a o, i = .jalr e a o → (s.reg a + o.signExtend 64).toNat % 4 = 0) →
  Computed s t d ∧ SameMemory s t ∧ t.reg 0 = 0

/-! ### Direct loads and stores -/

/-- R329, R330: a direct load writes the addressed bytes, lowest first, extended as its opcode says. -/
def Obligations.DirectLoadResults : Prop := ∀ (s : State) (d a : Reg) (i : BitVec 16) (j : BitVec 12) (sc : Scope) (key : Nat),
  let ea := (s.reg a + i.signExtend 64).toNat
  let la := (s.reg a + j.signExtend 64).toNat
  let b := fun n => memGet s.mem (key + n)
  let done := fun (v : Word) => (Host.Outcome.next ((s.setReg d v).advance 4) : Result)
  Clear s →
  (DirectAt s ea 1 key → exec (.ldb d a i) s = done ((b 0).signExtend 64) ∧
    exec (.ldbu d a i) s = done ((b 0).zeroExtend 64)) ∧
  (DirectAt s ea 2 key → exec (.ldh d a i) s = done ((b 1 ++ b 0 : BitVec 16).signExtend 64) ∧
    exec (.ldhu d a i) s = done ((b 1 ++ b 0 : BitVec 16).zeroExtend 64)) ∧
  (DirectAt s ea 4 key → exec (.ldw d a i) s = done ((b 3 ++ b 2 ++ b 1 ++ b 0 : BitVec 32).signExtend 64) ∧
    exec (.ldwu d a i) s = done ((b 3 ++ b 2 ++ b 1 ++ b 0 : BitVec 32).zeroExtend 64)) ∧
  (DirectAt s ea 8 key → exec (.ldd d a i) s = done (b 7 ++ b 6 ++ b 5 ++ b 4 ++ b 3 ++ b 2 ++ b 1 ++ b 0 : BitVec 64)) ∧
  (DirectAt s la 1 key → exec (.lda d a sc .byte j) s = done ((b 0).zeroExtend 64)) ∧
  (la % 2 = 0 → DirectAt s la 2 key → exec (.lda d a sc .half j) s = done ((b 1 ++ b 0 : BitVec 16).zeroExtend 64)) ∧
  (la % 4 = 0 → DirectAt s la 4 key →
    exec (.lda d a sc .word j) s = done ((b 3 ++ b 2 ++ b 1 ++ b 0 : BitVec 32).zeroExtend 64)) ∧
  (la % 8 = 0 → DirectAt s la 8 key →
    exec (.lda d a sc .double j) s = done (b 7 ++ b 6 ++ b 5 ++ b 4 ++ b 3 ++ b 2 ++ b 1 ++ b 0 : BitVec 64))

/-- R329, R330: a direct store writes the low bytes of rs2 at the address it computes, and nothing else; STL does so
once no earlier access holds its release and no access it covers has faulted, and traps with ATM.15 for one that has. R329: the checks of a direct access and
their order: CPM.0, CPM.4, CPM.8, CPM.7, with the address in sr.tval. -/
def Obligations.DirectStoreEffects : Prop :=
  (∀ (s : State) (b a : Reg) (i : BitVec 16) (j : BitVec 12) (sc : Scope) (w : Width),
   let ea := (s.reg a + i.signExtend 64).toNat
   let la := (s.reg a + j.signExtend 64).toNat
   let may := fun (e n : Nat) => e + n ≤ tileSize ∧ ¬(s.cur.mode = .u ∧ s.cur.inCode e n = true)
   acquireHeld s.cur = false → Memory.wf s.mem = true →
   (may ea 1 → ∃ t, exec (.stb b a i) s = .next t ∧ Stored s t ea 1 (s.reg b)) ∧
   (may ea 2 → ∃ t, exec (.sth b a i) s = .next t ∧ Stored s t ea 2 (s.reg b)) ∧
   (may ea 4 → ∃ t, exec (.stw b a i) s = .next t ∧ Stored s t ea 4 (s.reg b)) ∧
   (may ea 8 → ∃ t, exec (.std b a i) s = .next t ∧ Stored s t ea 8 (s.reg b)) ∧
   (may la (widthBytes w) → la % widthBytes w = 0 → releaseHeld s s.turn sc s.cur.issueSeq true = false →
     faultedWithin s s.turn sc s.cur.issueSeq = none →
     ∃ t, exec (.stl b a sc w j) s = .next t ∧ Stored s t la (widthBytes w) (s.reg b)) ∧
   (∀ q, la + widthBytes w ≤ tileSize → ¬(s.cur.mode = .u ∧ s.cur.inCode la (widthBytes w) = true) → la % widthBytes w = 0 →
     releaseHeld s s.turn sc s.cur.issueSeq true = false → faultedWithin s s.turn sc s.cur.issueSeq = some q →
     exec (.stl b a sc w j) s = .next (s.trap 0x04F q))) ∧
  (∀ (s : State) (b a : Reg) (i : BitVec 16),
   let ea := (s.reg a + i.signExtend 64).toNat
   let inTile := ea < tileSize
   let inReplica := 0x1F0000000000 ≤ ea ∧ ea < 0x1F0000100000
   let trapsAll := fun (cause n : Nat) =>
     (n = 4 → exec (.ldw b a i) s = .next (s.trap cause ea) ∧ exec (.stw b a i) s = .next (s.trap cause ea)) ∧
     (n = 8 → exec (.ldd b a i) s = .next (s.trap cause ea) ∧ exec (.std b a i) s = .next (s.trap cause ea))
   acquireHeld s.cur = false →
   (¬inTile → ¬inReplica → ∀ n, trapsAll 0x020 n) ∧
   (inTile → ∀ n, tileSize < ea + n → trapsAll 0x024 n) ∧
   (inReplica → ∀ n, 0x1F0000100000 < ea + n → trapsAll 0x024 n) ∧
   (inReplica → ea + 4 ≤ 0x1F0000100000 → exec (.stw b a i) s = .next (s.trap 0x028 ea)) ∧
   (ea + 4 ≤ tileSize → s.cur.mode = .u → s.cur.inCode ea 4 = true → exec (.stw b a i) s = .next (s.trap 0x027 ea)))

/-! ### Traps -/

/-- R269: a precise trap in S or M mode outside a handler records the address, the cause and the value, sets INTRAP
and PMODE, leaves the mode, and enters the handler; every other field of the core, and the rest of the machine, stays.
R269, R270: a trap in U mode stops the CP with its record; a cause that is not resumable halts the graph, and no
general register and no byte of memory changes. -/
def Obligations.PreciseTrapEntry : Prop :=
  (∀ (s : State) (cause tval : Nat),
   let k := s.cur
   let t := s.trap cause tval
   let base := fld k.vector 20 4 * 16
   s.ecc.marks = [] → k.mode ≠ .u → bitAt k.status 7 = false → cause < 2 ^ 9 → tval < 2 ^ 64 → k.pc % 4 = 0 → k.pc < 2 ^ 64 →
   OnlyCore s t s.turn ∧ t.cur.restTrap = k.restTrap ∧ t.cur.regs = k.regs ∧
   t.cur.epc.toNat = k.pc ∧ t.cur.cause.toNat = 2 ^ 63 + cause ∧ t.cur.tval.toNat = tval ∧
   fld t.cur.status 3 2 = fld k.status 1 0 ∧ fld t.cur.status 1 0 = fld k.status 1 0 ∧ bitAt t.cur.status 7 = true ∧
   t.cur.pc = if bitAt k.vector 0 then base else base + 16 * (cause / 16)) ∧
  (∀ (s : State) (cause tval : Nat) (g : Graph),
   let k := s.cur
   let t := s.trap cause tval
   s.ecc.marks = [] → k.mode = .u → cause ≠ 0x170 → cause ≠ 0x173 → cause ≠ 0x018 → cause < 2 ^ 9 → tval < 2 ^ 64 →
   s.graph? k.graph = some g → g.phase = .running → s.dump.queue.length < 64 →
   (s.turn ∈ g.cores.map Prod.snd → t.cur.run = .graphHalted) ∧ t.cur.regs = k.regs ∧ t.cur.epc.toNat = k.pc % 2 ^ 64 / 4 * 4 ∧
   t.cur.cause.toNat = 2 ^ 63 + cause ∧ t.cur.tval.toNat = tval ∧ t.mem = s.mem ∧
   (t.graph? k.graph).map Graph.phase = some .halted ∧ (t.graph? k.graph).map Graph.cause = some cause ∧
   t.dump.queue = s.dump.queue ++ [k.graph])

/-- R340, R341: TRAP and BRK raise CPX.8 with their argument and DBG.3; they resume at the next instruction. R301,
R184, R265, R269: an encoding that the decoder refuses takes its ENC cause as a precise trap, sr.tval holding the
word, with the second word above it where one was fetched; a fetch at a misaligned pc or outside the code region takes
CPM.13 or CPM.6 with the offset in sr.tval; a fetch of an uncorrectable word takes ECC.4 and halts the graph. -/
def Obligations.SoftwareAndFrontEndTraps : Prop :=
  (∀ (s : State) (i : BitVec 16),
   let k := s.cur
   let base := fld k.vector 20 4 * 16
   s.ecc.marks = [] → k.mode ≠ .u → bitAt k.status 7 = false → k.pc % 4 = 0 → k.pc + 4 < 2 ^ 64 →
   (∃ t, exec (.trap i) s = .next t ∧ OnlyCore s t s.turn ∧ t.cur.restTrap = k.restTrap ∧ t.cur.regs = k.regs ∧
     t.cur.epc.toNat = k.pc + 4 ∧ t.cur.cause.toNat = 2 ^ 63 + 0x018 ∧ t.cur.tval = i.zeroExtend 64 ∧
     bitAt t.cur.status 7 = true ∧ fld t.cur.status 3 2 = fld k.status 1 0 ∧
     t.cur.pc = if bitAt k.vector 0 then base else base + 16) ∧
   (∃ t, exec .brk s = .next t ∧ OnlyCore s t s.turn ∧ t.cur.restTrap = k.restTrap ∧ t.cur.regs = k.regs ∧
     t.cur.epc.toNat = k.pc + 4 ∧ t.cur.cause.toNat = 2 ^ 63 + 0x173 ∧ t.cur.tval = 0 ∧
     bitAt t.cur.status 7 = true ∧ fld t.cur.status 3 2 = fld k.status 1 0 ∧
     t.cur.pc = if bitAt k.vector 0 then base else base + 16 * 23)) ∧
  (∀ (s : State) (w w2 : Word32) (cause : BitVec 9),
   (majorOf w ≠ 0x3F → exec (.unassignedEncoding w w2 cause) s = .next (s.trap cause.toNat w.toNat)) ∧
   (majorOf w = 0x3F → cause ≠ 4 → lastWord s.cur = false →
     exec (.unassignedEncoding w w2 cause) s = .next (s.trap cause.toNat (w2.toNat * 2 ^ 32 + w.toNat))) ∧
   (majorOf w = 0x3F → (cause = 4 ∨ lastWord s.cur = true) → exec (.unassignedEncoding w w2 cause) s = .next (s.trap cause.toNat w.toNat)) ∧
   (cause ≠ 0x164 → exec (.instructionFetchFault cause) s = .next (s.trap cause.toNat s.cur.pc)) ∧
   (s.cur.mode ≠ .u → exec (.instructionFetchFault 0x164) s = .next ((s.trap 0x164 0).haltLocation s.cur.graph 0x164 0 (s.turn / 192)
     ((s.turn % 192) * 2 ^ 32 + if eccBad s (winBase s.turn + s.cur.pc) 4 then s.cur.pc else s.cur.pc + 4))) ∧
   (s.cur.mode = .u → exec (.instructionFetchFault 0x164) s = .next (s.trap 0x164 0))) ∧
  (∀ (s : State) (i : BitVec 16), s.cur.mode = .u →
   exec .brk s = .next ((s.trapAt s.turn 0x173 0 (s.cur.pc + 4)).notifyGraph s.cur.graph { cause := 0x173, core := coreName s.turn }) ∧
   exec (.trap i) s = .next ((s.trapAt s.turn 0x018 i.toNat (s.cur.pc + 4)).notifyGraph s.cur.graph
     { cause := 0x018, core := coreName s.turn, detail := i.toNat }))

/-- R342, R271: ERET in a handler goes to sr.epc, to the mode PMODE names, and clears INTRAP; it is refused with CPX.0 in U
mode, CPX.9 outside a handler and CPX.14 outside the code region. -/
def Obligations.EretReturns : Prop := ∀ (s : State),
  let k := s.cur
  let e := k.epc.toNat / 4 * 4
  let inCode := k.codeBase ≤ e ∧ e < k.codeBase + k.codeSize
  (k.mode = .u → exec .eret s = .next (s.trap 0x010 0)) ∧
  (k.mode ≠ .u → bitAt k.status 7 = false → exec .eret s = .next (s.trap 0x019 0)) ∧
  (k.mode ≠ .u → bitAt k.status 7 = true → ¬inCode → exec .eret s = .next (s.trap 0x01E e)) ∧
  (k.mode ≠ .u → bitAt k.status 7 = true → inCode →
    ∃ t, exec .eret s = .next t ∧ OnlyCore s t s.turn ∧ { t.cur with pc := k.pc, status := k.status } = k ∧
      t.cur.pc = e ∧ fld t.cur.status 1 0 = fld k.status 3 2 ∧ bitAt t.cur.status 7 = false ∧
      fld t.cur.status 3 2 = fld k.status 3 2)

/-- R305, R348: a command of S and M mode, or of M mode alone, raises CPX.0 in any other mode, before its own checks. -/
def Obligations.PrivilegedCommands : Prop := ∀ (s : State) (a b : Reg) (q : QNum),
  (s.cur.mode = .u → ∀ i ∈ [Instr.eret, .halt, .rwset a b, .rwrst a, .cutmRel a, .tkbp a b, .tkbpClr a, .frz a q, .thaw a q,
      .quote a b q], exec i s = .next (s.trap 0x010 0)) ∧
  (s.cur.mode ≠ .m → exec (.quoteExt a b q) s = .next (s.trap 0x010 0))

/-! ### Fences, events and stopping -/

/-- R337, R343, R344: NOP has no effect; a FENCE goes on once no earlier access or engine write within its scope is
pending and waits at its own address until then; FENCEI makes every store to the code region seen by later fetches.
R343: WFE with the flag set clears it and goes on; without it, it waits at its own address, until a listed event has
come; SEV sets the flag of the issuer and of every core of its card that holds its graph. R344: HALT in S or M mode
with no busy queue entry stops the CP with its pc at the next instruction and tells management CPX.11; with a busy
entry it raises CPX.10. -/
def Obligations.FencesEventFlagAndHalt : Prop :=
  (∀ (s : State),
   let fences := [(Instr.fenceCore, Scope.core), (.fenceCard, .card), (.fenceDeck, .deck), (.fenceDom, .dom)]
   exec .nop s = .next (s.advance 4) ∧
   (∀ p ∈ fences, releaseHeld s s.turn p.2 s.cur.issueSeq true = false → exec p.1 s = .next (s.advance 4)) ∧
   (∀ p ∈ fences, releaseHeld s s.turn p.2 s.cur.issueSeq true = true → exec p.1 s = .next s.wait) ∧
   (∃ t, exec .fencei s = .next t ∧ t.mem = s.mem ∧ t.cur.pc = s.cur.pc + 4 ∧ t.cur.regs = s.cur.regs ∧
     ∀ n, codeByte t s.turn n = memGet s.mem (winBase s.turn + n))) ∧
  (∀ (s : State),
   let k := s.cur
   (k.event = true → (k.wfe = false ∨ k.woken = false) →
     exec .wfe s = .next ((s.modCur fun k => { k with event := false, wfe := false, woken := false }).advance 4)) ∧
   (k.event = false → k.wfe = false →
     ∃ t, exec .wfe s = .next t ∧ OnlyCore s t s.turn ∧ t.cur = { k with wfe := true, woken := false }) ∧
   (k.event = false → k.wfe = true → k.woken = false → exec .wfe s = .next s) ∧
   (k.event = false → k.wfe = true → k.woken = true →
     ∃ t, exec .wfe s = .next t ∧ t.cur.pc = k.pc + 4 ∧ t.cur.wfe = false ∧ t.cur.event = false) ∧
   (∃ t, exec .sev s = .next t ∧ t.cur.pc = k.pc + 4 ∧ t.cur.event = true ∧ t.mem = s.mem ∧
     (∀ c, c ∈ s.coresOf k.graph → c / 192 = s.turn / 192 → (t.core c).event = true) ∧
     (∀ c, c ≠ s.turn → c ∉ s.coresOf k.graph → t.core c = s.core c) ∧
     (∀ c, c / 192 ≠ s.turn / 192 → t.core c = s.core c))) ∧
  (∀ (s : State),
   let k := s.cur
   let busy := fld (s.sysReg s.turn 0x7C3) 15 0
   (k.mode ≠ .u → busy ≠ 0 → exec .halt s = .next (s.trap 0x01A busy)) ∧
   (k.mode ≠ .u → busy = 0 → s.graph? k.graph = none → s.mgmt.length < 4096 → s.mgmtLost = 0 →
     ∃ t, exec .halt s = .next t ∧ t.cur = { k with pc := k.pc + 4, waitSince := none, run := .halted } ∧
       t.mgmt = s.mgmt ++ [{ cause := 0x01B, core := coreName s.turn }] ∧ SameMemory s t ∧
       ∀ c, c ≠ s.turn → t.core c = s.core c))

/-! ### System registers -/

/-- R339, R303: SRD in a mode that may read the register writes its value to rd; SWR changes the writable fields
alone; every refusal leaves the register and raises its cause with the number in sr.tval. R268, R303, R304, R122,
R184, R25: what SRD returns for the registers that are read as they stand, and the fields of sr.core. -/
def Obligations.SystemRegisterAccess : Prop :=
  (∀ (s : State) (d a : Reg) (n : BitVec 12),
   let k := s.cur
   let v := s.reg a
   let r := n.toNat
   let wrote := fun (k' : Core) => (Host.Outcome.next ((s.setCore s.turn k').advance 4) : Result)
   (srReadable r k.mode = true → exec (.srd d n) s = .next ((s.setReg d (s.sysReg s.turn r)).advance 4)) ∧
   (srReadable r k.mode = false → exec (.srd d n) s = .next (s.trap 0x011 r)) ∧
   (srWritableAtAll r = false → exec (.swr a n) s = .next (s.trap 0x013 r)) ∧
   (srWritableAtAll r = true → srWritable r k.mode = false → exec (.swr a n) s = .next (s.trap 0x012 r)) ∧
   (k.mode ≠ .u → exec (.swr a 0x701) s = wrote { k with cause := v &&& 0x80000000000001FF#64 } ∧
     exec (.swr a 0x702) s = wrote { k with epc := v &&& ~~~3#64 } ∧
     exec (.swr a 0x703) s = wrote { k with tval := v } ∧
     exec (.swr a 0x704) s = wrote { k with vector := v &&& 0x1FFFF1#64 }) ∧
   (k.mode ≠ .u → (fld v 3 2 = 2 ∨ Mode.rank (modeOfCode (fld v 3 2)) ≤ Mode.rank k.mode) →
     ∃ t, exec (.swr a 0x700) s = .next t ∧ bitAt t.cur.status 7 = bitAt v 7 ∧
       fld t.cur.status 3 2 = (if fld v 3 2 = 2 then fld k.status 3 2 else fld v 3 2) ∧
       fld t.cur.status 1 0 = fld k.status 1 0 ∧ { t.cur with status := k.status, pc := k.pc, waitSince := k.waitSince } = k) ∧
   (k.mode ≠ .u → fld v 3 2 ≠ 2 → Mode.rank k.mode < Mode.rank (modeOfCode (fld v 3 2)) →
     exec (.swr a 0x700) s = .next (s.trap 0x014 0x700))) ∧
  (∀ (s : State) (c : Nat), c < 2304 →
   let k := s.core c
   s.sysReg c 0x700 = k.status ∧ s.sysReg c 0x701 = k.cause ∧ s.sysReg c 0x702 = k.epc ∧ s.sysReg c 0x703 = k.tval ∧
   s.sysReg c 0x704 = k.vector ∧ s.sysReg c 0x7C0 = k.actor ∧ s.sysReg c 0x7C1 = k.phase ∧ s.sysReg c 0x7C2 = k.codewin ∧
   fld (s.sysReg c 0x7C4) 19 16 = c / 192 ∧ fld (s.sysReg c 0x7C4) 15 8 = c % 192 ∧
   (∀ i, i < 16 → bitAt (s.sysReg c 0x7C3) i = (k.entry i).busy ∧
     bitAt (s.sysReg c 0x7C3) (16 + i) = ((k.entry i).busy && (k.entry i).done)))

/-! ### Queued accesses -/

/-- R331 to R333: a queued access or atomic in U or S mode that no check refuses takes its entry with what it asks
for, and the CP goes on; no register and no memory changes at issue. R67: one that translation leads to another package
has its address from then on, or traps with its LINK fault. R332: CPX.5, XLT.13, CPM.5 and, in U and S mode, CPM.1, in
their order, trap with the address in sr.tval and take no entry. -/
def Obligations.QueuedAccessIssue : Prop :=
  (∀ (s : State) (d a b : Reg) (q : QNum) (n : Ann) (sc : Scope) (w : Width) (z : AWidth),
   let k := s.cur
   let x := s.reg a
   let entry := fun (op : QOp) (store : Bool) (bytes data cmp : Nat) => ({
     busy := true, op := .access op, storeType := store, seq := k.issueSeq, addr := x.toNat, bytes := bytes, data := data
     cmp := cmp, ann := n, scope := sc, mode := k.mode, issuedAt := s.clock s.turn } : QEntry)
   let issues := fun (i : Instr) (op : QOp) (store : Bool) (bytes data cmp : Nat) =>
     match issueSpan s ⟨op, bytes, x, data, cmp, q.toNat, n, sc⟩ with
     | none => exec i s = .next ((takeEntry s q.toNat (entry op store bytes data cmp)).advance 4)
     | some t => match linkFault s x.toNat bytes t with
       | some f => exec i s = .next (s.trap f x.toNat)
       | none => exec i s = .next ((takeEntry s q.toNat (if t.away s x.toNat bytes = true then (entry op store bytes data cmp).led t
           else entry op store bytes data cmp)).advance 4)
   let v := (s.reg b).toNat
   let bits := 2 ^ (8 * awidthBytes z)
   acquireHeld k = false → k.mode ≠ .m → (k.entry q.toNat).busy = false → x.toNat < 2 ^ 48 →
   ((n = .rlx ∨ x.toNat % widthBytes w = 0) →
     issues (.ldq a q n sc w) .ldq false (widthBytes w) 0 0 ∧
     issues (.stq a b q n sc w) .stq true (widthBytes w) (v % 2 ^ (8 * widthBytes w)) 0) ∧
   (x.toNat % awidthBytes z = 0 →
     (∀ p ∈ [(Instr.aadd a b q n sc z, QOp.aadd), (.amin a b q n sc z, .amin), (.amax a b q n sc z, .amax),
         (.aminu a b q n sc z, .aminu), (.amaxu a b q n sc z, .amaxu), (.aand a b q n sc z, .aand), (.aor a b q n sc z, .aor),
         (.axor a b q n sc z, .axor), (.aswp a b q n sc z, .aswp), (.aaddf a b q n sc z, .aaddf)],
       issues p.1 p.2 true (awidthBytes z) (v % bits) 0) ∧
     issues (.acas d a b q n sc z) .acas true (awidthBytes z) (v % bits) ((s.reg d).toNat % bits) ∧
     issues (.asnap a q n sc z) .asnap true (awidthBytes z) 0 0)) ∧
  (∀ (s : State) (a b : Reg) (q : QNum) (n : Ann) (sc : Scope) (w : Width) (z : AWidth),
   let k := s.cur
   let x := s.reg a
   acquireHeld k = false →
   ∀ i ∈ [(Instr.ldq a q n sc w, widthBytes w, false), (.stq a b q n sc w, widthBytes w, false), (.aadd a b q n sc z, awidthBytes z, true),
       (.aswp a b q n sc z, awidthBytes z, true), (.asnap a q n sc z, awidthBytes z, true)],
     ((k.entry q.toNat).busy = true → exec i.1 s = .next (s.trap 0x015 x.toNat)) ∧
     ((k.entry q.toNat).busy = false → k.mode ≠ .m → 2 ^ 48 ≤ x.toNat → exec i.1 s = .next (s.trap 0x03D x.toNat)) ∧
     ((k.entry q.toNat).busy = false → k.mode = .m → 2 ^ 57 ≤ x.toNat → exec i.1 s = .next (s.trap 0x025 x.toNat)) ∧
     ((k.entry q.toNat).busy = false → k.mode ≠ .m → x.toNat < 2 ^ 48 → (i.2.2 = true ∨ n ≠ .rlx) → x.toNat % i.2.1 ≠ 0 →
       exec i.1 s = .next (s.trap 0x021 x.toNat)))

/-- R334, R335: WAITQ writes zero once its event has come and the cause, acknowledged, of a fault; POPQ writes the response,
or zero for a fault already acknowledged, and frees the entry; both wait at their own address until then. -/
def Obligations.QueueWaitsAndPops : Prop := ∀ (s : State) (d : Reg) (q : QNum),
  let k := s.cur
  let e := k.entry q.toNat
  let wrote := fun (x : QEntry) (v : Word) =>
    (Host.Outcome.next (((s.modCur fun k => k.setEntry q.toNat x).setReg d v).advance 4) : Result)
  let plain := fun (v : Word) => (Host.Outcome.next ((s.setReg d v).advance 4) : Result)
  (e.busy = false → exec (.waitqSrc d q) s = .next (s.trap 0x016 q.toNat) ∧
    exec (.waitqVis d q) s = .next (s.trap 0x016 q.toNat) ∧ exec (.popq d q) s = .next (s.trap 0x016 q.toNat)) ∧
  (e.busy = true → e.storeType = false → exec (.waitqSrc d q) s = .next (s.trap 0x01D q.toNat)) ∧
  (e.busy = true → e.done = true → e.fault = 0 → exec (.waitqVis d q) s = plain 0 ∧
    exec (.popq d q) s = wrote {} (BitVec.ofNat 64 e.resp)) ∧
  (e.busy = true → e.storeType = true → (e.done = true ∨ e.released = true) → e.fault = 0 → exec (.waitqSrc d q) s = plain 0) ∧
  (e.busy = true → e.done = true → e.fault ≠ 0 →
    exec (.waitqVis d q) s = wrote { e with ack := true } (BitVec.ofNat 64 e.fault) ∧
    (e.storeType = true →
      exec (.waitqSrc d q) s = wrote { e with ack := true } (BitVec.ofNat 64 e.fault)) ∧
    (e.ack = false → exec (.popq d q) s = .next (s.trap 0x017 (q.toNat * 2 ^ 16 + e.fault))) ∧
    (e.ack = true → exec (.popq d q) s = wrote {} 0)) ∧
  (e.busy = true → e.done = false → exec (.waitqVis d q) s = .next s.wait ∧ exec (.popq d q) s = .next s.wait)

/-! ### Grid and stream commands -/

/-- R349 to R355: GLOAD, the swaps and GGO enter the grid's queue of four, or wait for a place; GSTOP holds the grid
and GGO.RES lets it go on; GSTAT reads the grid's status; GSTV writes 256 bytes of tile SRAM into a stationary vector.
R354, R151: the fields of GSTAT's word. -/
def Obligations.GridCommands : Prop :=
  (∀ (s : State) (d a b : Reg),
   let k := s.cur
   let x := s.reg a
   let e := fld (s.reg b) 6 0
   let enters := fun (g : GCmd) =>
     (Host.Outcome.next ((pump (s.modGrid s.turn fun y => { y with queue := y.queue ++ [g] }) s.turn).advance 4) : Result)
   let goes := k.mode ≠ .u ∨ k.infire = true
   let vector := s.read (winBase s.turn + x.toNat) 256
   Clear s →
   (x.toNat < 2 ^ 16 → loadPending k.grid = false → k.grid.armed = false → (libraryBlock s s.turn x.toNat).isSome = true →
     k.grid.queue.length < 4 → exec (.gload a) s = enters (.load x.toNat)) ∧
   ((k.grid.sh.valid = true ∨ loadPending k.grid = true) → shadowAhead k.grid = true → k.grid.queue.length < 4 →
     exec .gswapDrain s = enters .swapDrain ∧ exec .gswapEos s = enters .swapEos) ∧
   (k.grid.queue = [] → k.grid.armed = false → k.grid.draining = false → shadowAhead k.grid = (k.grid.sh.valid || k.grid.lstate == 1)) ∧
   ((k.grid.sh.valid = false ∧ loadPending k.grid = false) ∨ shadowAhead k.grid = false →
     exec .gswapDrain s = .next (s.trap 0x133 0) ∧ exec .gswapEos s = .next (s.trap 0x133 0)) ∧
   (x.toNat < 2 ^ 16 → loadPending k.grid = false → k.grid.armed = false → (libraryBlock s s.turn x.toNat).isSome = true →
     4 ≤ k.grid.queue.length → exec (.gload a) s = .next s.wait) ∧
   ((k.grid.sh.valid = true ∨ loadPending k.grid = true) → shadowAhead k.grid = true → 4 ≤ k.grid.queue.length →
     exec .gswapDrain s = .next s.wait ∧ exec .gswapEos s = .next s.wait) ∧
   (goes → k.grid.queue.length < 4 → exec .ggo s = enters .go) ∧
   (goes → 4 ≤ k.grid.queue.length → exec .ggo s = .next s.wait) ∧
   (goes → exec .ggoRes s = .next ((s.modGrid s.turn fun g => { g with held := false }).advance 4) ∧
     exec .gstop s = .next ((s.modGrid s.turn fun g => { g with held := true }).advance 4)) ∧
   (¬goes → exec .ggo s = .next (s.trap 0x134 0) ∧ exec .ggoRes s = .next (s.trap 0x134 0) ∧
     exec .gstop s = .next (s.trap 0x134 0)) ∧
   exec (.gstat d) s = .next ((s.setReg d (gridStatus k)).advance 4) ∧
   (OperandOk x.toNat 256 64 → fld (s.reg b) 63 7 = 0 → Config.fusedElem s.turn e = false →
     exec (.gstv a b) s = .next ((s.write (loadTarget s s.turn e) vector).advance 4) ∧
     (gridBusy k.grid = false → exec (.gstvAct a b) s = .next ((s.write (statKey s.turn e false) vector).advance 4)) ∧
     (gridBusy k.grid = true → exec (.gstvAct a b) s = .next s.wait))) ∧
  (∀ (k : Core),
   let w := gridStatus k
   let g := k.grid
   fld w 63 48 = g.act.blockid % 2 ^ 16 ∧ fld w 47 32 = g.sh.blockid % 2 ^ 16 ∧ bitAt w 31 = g.sh.valid ∧
   bitAt w 30 = g.armed ∧ fld w 29 28 = g.lstate % 4 ∧ bitAt w 27 = g.held ∧ bitAt w 26 = gridBusy g ∧
   fld w 18 16 = g.queue.length % 8 ∧ fld w 15 0 = min g.dones 0xFFFF)

/-- R356, R358: a stream command whose descriptor passes its checks enters the queues of its engines and writes its
ticket to rd: the kind, the engine and the number of the command since commit. R361 to R363: SAGC sets a chain, SXLT
an engine's translation, and SWAIT goes on once its command has reached the event. -/
def Obligations.StreamCommands : Prop :=
  (∀ (s : State) (d a : Reg) (e : BitVec 1),
   let x := (s.reg a).toNat
   let n := e.toNat
   let desc := (chunks 8 8 (s.read (winBase s.turn + x) 64)).map fun b => BitVec.ofNat 64 (ofLe b)
   let re := s.cur.engine n
   let we := s.cur.engine (2 + n)
   let issued := fun (m : StrCmd) => ∀ f ∈ streamFaults s m, f = none
   Clear s → OperandOk x 64 64 →
   (issued (newStream s 0 n desc) → re.queue.length < 8 → ∃ t, exec (.srds d a e) s = .next t ∧
     (t.cur.engine n).queue = re.queue ++ [newStream s 0 n desc] ∧ (t.cur.engine n).issued = re.issued + 1 ∧
     t = ((s.modCur fun k => { pushStream n (newStream s 0 n desc) k with issueSeq := s.cur.issueSeq + 1 }).setReg d
       (ticket 0 n re.issued)).advance 4) ∧
   (issued (newStream s 1 n desc) → we.queue.length < 8 → ∃ t, exec (.swrs d a e) s = .next t ∧
     (t.cur.engine (2 + n)).queue = we.queue ++ [newStream s 1 n desc] ∧ (t.cur.engine (2 + n)).issued = we.issued + 1 ∧
     (d ≠ 0 → t.reg d = ticket 1 n we.issued) ∧ t.cur.pc = s.cur.pc + 4 ∧ t.mem = s.mem) ∧
   (issued (newStream s 2 n desc) → re.queue.length < 8 → we.queue.length < 8 → ∃ t, exec (.scpy d a e) s = .next t ∧
     (t.cur.engine (2 + n)).queue = we.queue ++ [newStream s 2 n desc] ∧ (t.cur.engine n).queue.length = re.queue.length + 1 ∧
     (d ≠ 0 → t.reg d = ticket 2 n we.issued) ∧ t.cur.pc = s.cur.pc + 4 ∧ t.mem = s.mem)) ∧
  (∀ (s : State) (a b : Reg) (c : BitVec 3) (e : BitVec 2),
   let x := s.reg a
   let node := fld (s.reg b) 3 0
   let rec48 := (chunks 8 6 (s.read (winBase s.turn + x.toNat) 48)).map fun b => BitVec.ofNat 64 (ofLe b)
   let eng := s.cur.engine (ticketEngine x)
   Clear s →
   (OperandOk x.toNat 48 16 → fld (s.reg b) 63 4 = 0 → fld (rec48.getD 0 0) 63 35 = 0 → rec48.getD 5 0 = 0 →
     chainBad rec48 node = false → chainBusy s.cur c.toNat (chainOf rec48 node) = false →
     exec (.sagc a b c) s = .next ((s.modCur fun k =>
       { k with chains := NMap.put k.chains c.toNat (chainOf rec48 node) }).advance 4)) ∧
   (fld x 63 14 = 0 → fld x 7 2 = 0 → (fld x 1 0 < 2 ∨ (fld x 1 0 = 2 ∧ s.cur.mode = .m)) →
     exec (.sxlt a e) s = .next ((s.modCur fun k =>
       k.setEngine e.toNat { k.engine e.toNat with xmode := fld x 1 0, xwin := fld x 13 8 }).advance 4)) ∧
   (fld x 63 42 = 0 → fld x 39 33 = 0 → fld x 41 40 ≠ 3 → fld x 31 0 < eng.issued →
     (streamReached eng (fld x 31 0) false = true → exec (.swaitSrc a) s = .next (s.advance 4)) ∧
     (streamReached eng (fld x 31 0) false = false → exec (.swaitSrc a) s = .next s.wait) ∧
     (streamReached eng (fld x 31 0) true = true → exec (.swaitVis a) s = .next (s.advance 4)) ∧
     (streamReached eng (fld x 31 0) true = false → exec (.swaitVis a) s = .next s.wait)))

/-! ### Ring windows, firings, launches, barriers -/

/-- R364, R365: RWSET writes a descriptor from its image and binds the port; RWRST releases it with its tokens; RWQRY reads
its standing. -/
def Obligations.RingWindowCommands : Prop := ∀ (s : State) (d a b : Reg),
  let x := s.reg a
  let y := (s.reg b).toNat
  let i := fld x 7 0
  let p := fld x 12 8
  let act := fld x 15 13
  let w := descOfImage (s.read (winBase s.turn + y) 64)
  let old := s.cur.desc i
  Clear s →
  (s.cur.mode ≠ .u → fld x 63 16 = 0 → OperandOk y 64 64 → i < 64 → (old.valid = false ∨ old.att = true) →
    portUnbound s s.turn act p = true → descUnlike s s.turn act p w = false → windowFault s.cur i w = none →
    exec (.rwset a b) s =
      .next ((setPortIndex (s.modCur fun k => { k with descs := NMap.put k.descs i w }) s.turn act p i).advance 4)) ∧
  (s.cur.mode ≠ .u → fld x 63 8 = 0 → i < 64 → old.valid = false → exec (.rwrst a) s = .next (s.advance 4)) ∧
  (s.cur.mode ≠ .u → fld x 63 8 = 0 → i < 64 → old.valid = true → old.att = true → ∃ t, exec (.rwrst a) s = .next t ∧
    (t.cur.desc i).valid = false ∧ (t.cur.desc i).occ = 0 ∧ (t.cur.desc i).att = false ∧ t.cur.pc = s.cur.pc + 4) ∧
  (fld x 63 8 = 0 → i < 64 → exec (.rwqry d a) s = .next ((s.setReg d (descStatus old)).advance 4)) ∧
  (fld x 63 8 = 0 → 64 ≤ i → exec (.rwqry d a) s = .next (s.trap 0x06C 0))

/-- R366, R367: FDONE ends the firing once its commands have settled and every port has met its rate: INFIRE is
cleared and the CP executes nothing more; one that stands for ever at an input port's count traps with RATE.1 (R124; that it
traps at FDONE is the model's, log entry 57); FABORT halts the graph with RATE.12 and its reason. R368, R369: MODE sends
its token to the graph's mode port, waiting while four are there, and once in a firing; MWAIT gives the outcome when it
has come. -/
def Obligations.FiringAndModeCommands : Prop :=
  (∀ (s : State) (a : Reg) (g : Graph),
   let k := s.cur
   Clear s →
   (k.infire = false → exec .fdone s = .next (s.trap 0x05B 0) ∧ exec (.fabort a) s = .next (s.trap 0x05B 0)) ∧
   (k.infire = true → k.grid.held = false → gangSkew s s.turn = false → firingSettled k = true → gangPending s s.turn = false →
     shortPort s s.turn 0 = none → shortPort s s.turn 16 = none →
     ∃ t, exec .fdone s = .next t ∧ t = endFiring (gangOff s s.turn) s.turn ∧ t.cur.infire = false ∧ t.cur.run ≠ .running) ∧
   (k.infire = true → k.grid.held = false → gangSkew s s.turn = false →
     (firingSettled k = true → gangPending s s.turn = true → exec .fdone s = .next s.wait) ∧
     (firingSettled k = false → excessPort s s.turn = none → exec .fdone s = .next s.wait) ∧
     (∀ p, firingSettled k = false → excessPort s s.turn = some p →
       exec .fdone s = .next (monitorTrap s s.turn 0x051 p (k.port k.actorNo p).ord))) ∧
   (k.infire = true → s.graph? k.graph = some g → g.phase = .running → s.dump.queue.length < 64 →
     ∃ t, exec (.fabort a) s = .next t ∧ (t.graph? k.graph).map Graph.phase = some .halted ∧
       (t.graph? k.graph).map Graph.cause = some 0x05C ∧
       (t.graph? k.graph).map (fun g => g.primary.detail) = some (fld (s.reg a) 15 0))) ∧
  (∀ (s : State) (d a : Reg) (g : Graph) (r : Nat),
   let k := s.cur
   let x := s.reg a
   Clear s →
   (fld x 63 32 = 0 → (portRecOf s s.turn k.actorNo 33).isSome = true → k.infire = true → k.modeSent = false →
     s.graph? k.graph = some g → g.modeCtl.waiting.length < 4 → g.srcDrained = false →
     ∃ t, exec (.mode a) s = .next t ∧ t.cur.modeTok = some x.toNat ∧ t.cur.modeRes = none ∧ t.cur.modeSent = true ∧
       t.cur.modeSeq = k.issueSeq ∧
       (t.graph? k.graph).map (fun g => g.modeCtl.waiting) = some (g.modeCtl.waiting ++ [(x.toNat, s.turn + 1, k.issueSeq)])) ∧
   (fld x 63 32 = 0 → (portRecOf s s.turn k.actorNo 33).isSome = true → k.infire = true → k.modeSent = false →
     s.graph? k.graph = some g → 4 ≤ g.modeCtl.waiting.length → exec (.mode a) s = .next s.wait) ∧
   (fld x 63 32 = 0 → (portRecOf s s.turn k.actorNo 33).isSome = true → (k.infire = false ∨ k.modeSent = true) →
     exec (.mode a) s = .next (s.trap 0x135 0)) ∧
   (k.modeTok = none → exec (.mwait d) s = .next (s.trap 0x136 0)) ∧
   (k.modeTok.isSome = true → k.modeRes = none → exec (.mwait d) s = .next s.wait) ∧
   (k.modeTok.isSome = true → k.modeRes = some r →
     exec (.mwait d) s = .next (((s.modCur fun k => { k with modeTok := none, modeRes := none }).setReg d
       (BitVec.ofNat 64 r)).advance 4)))

/-- R370 to R374: LNCH takes its entry; LWAIT gives the outcome of a graph of the context that has ended; BARI sets a barrier
and its instance, BARA arrives with the phase token, BARW waits for the phase and BART tests it. -/
def Obligations.LaunchesAndBarriers : Prop := ∀ (s : State) (d a b : Reg) (q : QNum) (n : BitVec 3) (g : Graph) (r : Nat),
  let k := s.cur
  let x := s.reg a
  let y := s.reg b
  let bar : CoreBar := NMap.getD {} k.bars n.toNat
  let ahead := bar.arrivals < barPhases s s.turn n.toNat + 16
  let tokenOk := fld x 63 56 = 0 ∧ fld x 47 43 = 0 ∧ fld x 39 32 = 0 ∧ fld x 55 48 = k.graph % 256 ∧
    (NMap.getD ({} : CoreBar) k.bars (fld x 42 40)).inited = true
  acquireHeld k = false →
  (fld y 63 28 = 0 → fld y 15 3 = 0 → (k.entry q.toNat).busy = false → bitAt y 2 = false →
    exec (.lnch a b q) s = .next ((takeEntry s q.toNat (commandEntry s .launch false x y)).advance 4)) ∧
  (fld x 63 44 = 0 → s.ctxOf s.turn = some (fld x 31 28) → fld x 43 32 = s.links.pkg →
    launchOutcome s (fld x 31 28) (fld x 31 0) = some r →
    exec (.lwait d a) s = .next ((s.setReg d (BitVec.ofNat 64 r)).advance 4)) ∧
  (fld x 63 44 = 0 → s.ctxOf s.turn = some (fld x 31 28) → fld x 43 32 = s.links.pkg →
    launchOutcome s (fld x 31 28) (fld x 31 0) = none → exec (.lwait d a) s = .next s.wait) ∧
  (fld x 63 44 = 0 → s.ctxOf s.turn = some (fld x 31 28) → fld x 43 32 ≠ s.links.pkg →
    (k.awaited = none → exec (.lwait d a) s = .next s.wait) ∧
    (k.awaited = some (fld x 43 32, fld x 31 0, r) → exec (.lwait d a) s =
      .next (((s.modCur fun k => { k with awaited := none }).setReg d (BitVec.ofNat 64 (r % 512))).advance 4))) ∧
  (fld y 63 2 = 0 → fld y 1 0 ≠ 0 → 0 < x.toNat → x.toNat ≤ barLimit (Machine.scopeOf (fld y 1 0)) → s.graph? k.graph = some g →
    (barKeys n.toNat s.turn).findSome? (barInst g) = none →
    ∃ t, exec (.bari a b n) s = .next t ∧ t.cur.pc = k.pc + 4 ∧ (NMap.getD ({} : CoreBar) t.cur.bars n.toNat).inited = true ∧
      ((t.graph? k.graph).bind fun g => barInst g (barKey n.toNat (Machine.scopeOf (fld y 1 0)) s.turn)) =
        some { scope := Machine.scopeOf (fld y 1 0), p := x.toNat }) ∧
  (bar.inited = false → exec (.bara d n) s = .next (s.trap 0x139 0)) ∧
  (bar.inited = true → ahead → ∃ t, exec (.bara d n) s = .next t ∧
    t = ((s.modCur fun z => { z with bars := NMap.put z.bars n.toNat { bar with
        arrivals := bar.arrivals + 1, onWay := bar.onWay ++ [(bar.arrivals, k.issueSeq)] } }).setReg d
      (phaseToken k.graph n.toNat bar.arrivals)).advance 4) ∧
  (bar.inited = true → ¬ahead → exec (.bara d n) s = .next s.wait) ∧
  (tokenOk → exec (.bart d a) s = .next ((s.setReg d (if phaseDone s x = true then 1 else 0)).advance 4) ∧
    (phaseDone s x = true → exec (.barw a) s = .next (s.advance 4)) ∧
    (phaseDone s x = false → exec (.barw a) s = .next s.wait))

/-! ### Deck, RNG and append commands -/

/-- R375 to R377: a deck operation inside the context's range enters the deck interface of its core in program order, or waits
while sixteen are queued; DKADD and DKCAS take an entry whose source is released; DKSYNC waits until none is left. -/
def Obligations.DeckCommands : Prop := ∀ (s : State) (d a b : Reg) (w : AWidth) (q : QNum),
  let k := s.cur
  let off := (s.reg a).toNat
  let y := s.reg b
  let n := fld y 44 32
  let src := fld y 20 0
  let m := awidthBytes w
  let reach := fun (len : Nat) => off + len ≤ 2 ^ 20 ∧ deckRangeOk s s.turn k.mode off len = true ∧ hasWindowSlot s s.turn = true
  let atomic := fun (aop : Nat) (cmp : Word) => { deckOp s off (leBytes m y.toNat) with
    atomic := true, aop := aop, double := m == 8, cmp := cmp.toNat % 2 ^ (8 * m), q := q.toNat }
  let takes := fun (aop : Nat) (op : EntryOp) (cmp : Word) =>
    (Host.Outcome.next ((takeEntry (deckPush (atomic aop cmp) s) q.toNat
      { commandEntry s op true (s.reg a) y with released := true, bytes := m }).advance 4) : Result)
  Clear s →
  (fld y 63 45 = 0 → fld y 31 21 = 0 → 0 < n → n ≤ 4096 → reach n → src + n ≤ tileSize → 16 ≤ k.deckq.length →
    exec (.dkst a b) s = .next s.wait) ∧
  ((k.entry q.toNat).busy = false → reach m → off % m = 0 → 16 ≤ k.deckq.length →
    exec (.dkadd a b w q) s = .next s.wait ∧ exec (.dkcas d a b w q) s = .next s.wait) ∧
  (fld y 63 45 = 0 → fld y 31 21 = 0 → 0 < n → n ≤ 4096 → reach n → src + n ≤ tileSize → k.deckq.length < 16 →
    exec (.dkst a b) s = .next (((deckPush (deckOp s off (s.read (winBase s.turn + src) n)) s).modCur fun k =>
      { k with issueSeq := k.issueSeq + 1 }).advance 4)) ∧
  ((k.entry q.toNat).busy = false → reach m → off % m = 0 → k.deckq.length < 16 →
    exec (.dkadd a b w q) s = takes 0 .deckAdd 0 ∧ exec (.dkcas d a b w q) s = takes 1 .deckCas (s.reg d)) ∧
  ((k.entry q.toNat).busy = false → off + m ≤ 2 ^ 20 → deckRangeOk s s.turn k.mode off m = true → off % m ≠ 0 →
    exec (.dkadd a b w q) s = .next (s.trap 0x105 0) ∧ exec (.dkcas d a b w q) s = .next (s.trap 0x105 0)) ∧
  (k.deckq = [] → k.deckOut = 0 → exec .dksync s = .next (s.advance 4)) ∧
  (k.deckq ≠ [] ∨ k.deckOut ≠ 0 → exec .dksync s = .next s.wait)

/-- R378, R256: the CP sets the key and the counter of a stream that the active configuration does not bind, and draws
from it; each draw advances the counter by one, and the last counter value draws nothing but FMT.10. R379, R380:
APND.SET sets a region from its record; APND.ROW appends a row of tile SRAM and gives its number; MARK commits the
rows so far, and FOLD drops the rows beyond x after the last commit. -/
def Obligations.RngAndAppendCommands : Prop :=
  (∀ (s : State) (d a b : Reg) (n : BitVec 3),
   let x := s.reg a
   let r := s.cur.rng n.toNat
   let ws := (draw r.key r.ctr).map BitVec.toNat
   let drawn := s.modCore s.turn fun k => { k with rngs := NMap.put k.rngs n.toNat { r with ctr := r.ctr + 1 } }
   acquireHeld s.cur = false →
   (rngBound s.cur n.toNat = true → exec (.rngk a n) s = .next (s.trap 0x0FB 0) ∧ exec (.rngc a b n) s = .next (s.trap 0x0FB 0) ∧
     exec (.rngd d n) s = .next (s.trap 0x0FB 0)) ∧
   (rngBound s.cur n.toNat = false →
     (∃ t, exec (.rngk a n) s = .next t ∧ t.cur.rng n.toNat = { r with key := x } ∧ t.cur.pc = s.cur.pc + 4) ∧
     (∃ t, exec (.rngc a b n) s = .next t ∧ t.cur.rng n.toNat = { r with ctr := s.reg b ++ x } ∧ t.cur.pc = s.cur.pc + 4) ∧
     (r.ctr ≠ BitVec.allOnes 128 → exec (.rngd d n) s = .next ((drawn.setReg d (drawWord ws)).advance 4) ∧
       (OperandOk x.toNat 16 16 → s.cur.mode ≠ .u → exec (.rngdSt d a n) s =
         .next ((((keepCode drawn x.toNat 16).setTile s.turn x.toNat (ws.map (leBytes 4)).flatten).setReg d (drawWord ws)).advance 4))) ∧
     (r.ctr = BitVec.allOnes 128 → exec (.rngd d n) s = .next (s.trap 0x0FA 0)))) ∧
  (∀ (s : State) (d a : Reg) (n : BitVec 3),
   let x := (s.reg a).toNat
   let r := region s n
   let bytes := s.read (winBase s.turn + x) 32
   let ds := (chunks 8 4 bytes).map fun b => BitVec.ofNat 64 (ofLe b)
   let len := fld (ds.getD 3 0) 31 0
   let row : ApWrite := {
     addr := (r.base + r.tlen * r.rowBytes) % 2 ^ 64, bytes := s.read (winBase s.turn + x) r.rowBytes, isLen := false
     seq := s.cur.issueSeq, mode := s.cur.mode }
   Clear s →
   (OperandOk x 32 16 → regionBad ds = false → exec (.apndSet a n) s = .next ((setRegion s n { r with
     set := true, base := (ds.getD 0 0).toNat, lenAddr := (ds.getD 1 0).toNat, capRows := fld (ds.getD 2 0) 63 40
     rowBytes := fld (ds.getD 2 0) 12 0, len := len, tlen := len, mpos := len }).advance 4)) ∧
   (r.set = false → exec (.apndRow d a n) s = .next (s.trap 0x13B 0) ∧ exec (.mark n) s = .next (s.trap 0x13B 0) ∧
     exec (.fold a n) s = .next (s.trap 0x13B 0)) ∧
   (r.set = true → OperandOk x r.rowBytes 16 → r.tlen ≠ r.capRows → (r.queue.filter fun w => !w.isLen).length < 4 →
     exec (.apndRow d a n) s =
       .next (((pushAppend s n { r with tlen := r.tlen + 1 } row).setReg d (BitVec.ofNat 64 r.tlen)).advance 4)) ∧
   (r.set = true → exec (.mark n) s = .next ((commitRows s n r r.tlen).advance 4)) ∧
   (r.set = true → x ≤ r.tlen - r.mpos → let u := loseRows s n (r.mpos + x);
     exec (.fold a n) s = .next ((commitRows u n (region u n) (r.mpos + x)).advance 4)) ∧
   (r.set = true → x = r.tlen - r.mpos → exec (.fold a n) s = .next ((commitRows s n r (r.mpos + x)).advance 4)) ∧
   (r.set = true → r.tlen - r.mpos < x → exec (.fold a n) s = .next (s.trap 0x13C 0)))

/-! ### Debug, freeze, grant and quote commands -/

/-- R281, R282, R382, R383: CUTM starts and releases a cut of a running graph; TKBP arms a breakpoint on a link of the
active configuration, at most four on a core, and TKBP.clr removes them. R381, R285: STATS writes the 6,144 bytes of
the activity records at x and goes on; nothing outside them changes. -/
def Obligations.CutBreakpointAndStatsCommands : Prop :=
  (∀ (s : State) (a b : Reg) (g : Graph),
   let x := s.reg a
   let y := s.reg b
   let c := linkCore x
   acquireHeld s.cur = false →
   (x = 0 → s.graph? s.cur.graph = some g → s.ctxOf s.turn = some (s.cur.graph / 2 ^ 28) → g.supervisor = false →
     g.phase = .running → exec (.cutmStart a) s = .next ((s.advance 4).startCut s.cur.graph s.turn)) ∧
   (s.cur.mode ≠ .u → x.toNat < 2 ^ 32 → s.graph? x.toNat = some g → s.ctxOf s.turn = some (x.toNat / 2 ^ 28) →
     g.cutSince.isSome = true → exec (.cutmRel a) s = .next ((s.advance 4).releaseCut x.toNat)) ∧
   (s.cur.mode ≠ .u → linkReserved x y = false → linkCoreBad s x = false → linkActive s c (breakOf x y) = true →
     (s.core c).breaks.length < 4 → exec (.tkbp a b) s =
       .next ((s.modCore c fun k => { k with breaks := k.breaks ++ [breakOf x y] }).advance 4)) ∧
   (s.cur.mode ≠ .u → linkReserved x y = false → linkCoreBad s x = false → linkActive s c (breakOf x y) = true →
     4 ≤ (s.core c).breaks.length → exec (.tkbp a b) s = .next (s.trap 0x174 0)) ∧
   (s.cur.mode ≠ .u → fld x 63 28 = 0 → linkCoreBad s x = false →
     exec (.tkbpClr a) s = .next ((s.modCore c fun k => { k with breaks := [] }).advance 4))) ∧
  (∀ (s : State) (a : Reg),
   let x := (s.reg a).toNat
   acquireHeld s.cur = false → OperandOk x 6144 16 → ¬(s.cur.mode = .u ∧ s.cur.inCode x 6144 = true) → Memory.wf s.mem = true →
   ∃ t, exec (.stats a) s = .next t ∧ t.cur.pc = s.cur.pc + 4 ∧ t.cur.regs = s.cur.regs ∧
     SameOutside s t (winBase s.turn + x) 6144 ∧ t.fresh = s.fresh + 1152 ∧
     ∀ e, e < 128 → memGet t.mem (winBase s.turn + x + 48 * e) = BitVec.ofNat 8 e)

/-- R384, R385: FRZ of a running graph of the context takes its entry and asks for a freeze of origin 2; THAW of a frozen
graph that is held after a freeze of origin 2 queues it again and completes, once every earlier entry has, SYNC.13 for any other; PWRQ reads an island's grant; a QUOTE takes its entry and
reaches the security block with its nonce. -/
def Obligations.FreezeGrantAndQuoteCommands : Prop := ∀ (s : State) (d a b : Reg) (q : QNum) (g : Graph),
  let x := s.reg a
  let y := s.reg b
  let h := x.toNat
  let nonce := s.read (winBase s.turn + x.toNat) 32
  let req : SecReq := { core := s.turn, q := q.toNat, ext := false, bytes := nonce, slot := 0, buf := y.toNat, ctx := (s.ctxOf s.turn).getD 0 }
  Clear s → (s.cur.entry q.toNat).busy = false →
  (s.cur.mode ≠ .u → h < 2 ^ 32 → freezeDenied s h = false → s.graph? h = some g →
    (g.phase = .running → ∃ t, exec (.frz a q) s = .next t ∧ (t.graph? h).map Graph.phase = some .freezing ∧
      (t.graph? h).map Graph.origin = some 2 ∧ (t.graph? h).map Graph.waiters = some (g.waiters ++ [(s.turn, q.toNat)]) ∧
      (t.cur.entry q.toNat).busy = true ∧ (t.cur.entry q.toNat).done = false ∧ t.cur.pc = s.cur.pc + 4) ∧
    (g.phase = .frozen → g.held = true → g.origin = 2 → ∃ t, exec (.thaw a q) s = .next t ∧
      (t.graph? h).map Graph.held = some false ∧ (t.cur.entry q.toNat).performed = true ∧ (t.cur.entry q.toNat).fault = 0 ∧
      (s.cur.cut = false → State.earlierDone s.cur s.cur.issueSeq = true → (t.cur.entry q.toNat).done = true) ∧
      t.cur.pc = s.cur.pc + 4) ∧
    ((g.phase ≠ .frozen ∨ g.held = false ∨ g.origin ≠ 2) → ∃ t, exec (.thaw a q) s = .next t ∧ (t.cur.entry q.toNat).performed = true ∧
      (s.cur.cut = false → State.earlierDone s.cur s.cur.issueSeq = true → (t.cur.entry q.toNat).done = true) ∧
      (t.cur.entry q.toNat).fault = 0x13D)) ∧
  (x.toNat < 64 → islandDenied s x.toNat = false → ∃ t v, exec (.pwrq d a) s = .next t ∧ t = (s.setReg d v).advance 4 ∧
    fld v 53 48 = x.toNat ∧ fld v 31 16 = s.islandGrant x.toNat % 2 ^ 16) ∧
  (s.cur.mode ≠ .u → OperandOk x.toNat 32 32 → OperandOk y.toNat 752 16 → exec (.quote a b q) s =
    .next (sendQuote req ((takeEntry s q.toNat (commandEntry s .quote false x y)).advance 4))) ∧
  (s.cur.mode = .m → OperandOk x.toNat 32 32 → exec (.quoteExt a b q) s =
    .next (sendQuote { req with ext := true, slot := y, buf := 0 } ((takeEntry s q.toNat (commandEntry s .quoteExt false x y)).advance 4)))

/-! ### Matrix engine and meld array -/

/-- R433 to R443: a matrix command that no check of its rule refuses enters the matrix queue of its core with its
operands and the CP goes on; MXACC.qry and MXWAIT write rd; MXGANG enters the queue of every member of the gang. R430,
R433 to R441: the checks of a matrix command at issue, each with its cause, before any of its effect. -/
def Obligations.MatrixCommandIssue : Prop :=
  (∀ (s : State) (a b d : Reg) (n m : BitVec 2) (ki io : BitVec 1),
   let k := s.cur
   let v := mxView k
   let x := s.reg a
   let y := s.reg b
   let out := 32 * vecBytes (fld y 4 0)
   let bank := n.toNat
   let mode := NMap.getD 0 v.modes bank
   let r := s.tileDs s.turn x.toNat 8
   let g := gangCores s s.turn
   let enters := fun (i : Instr) (op : MxOp) (x y : Word) (rcd : List Word) =>
     ∃ t, exec i s = .next t ∧ MxEntered s t op x y rcd
   acquireHeld k = false →
   (MatrixFree k →
     (bWordReserved y false = false → bWordBad y false = false → OperandOk x.toNat (64 * fld y 52 32) 16 →
       enters (.mxb a b) (.mxb false) x y []) ∧
     (bWordReserved y true = false → bWordBad y true = false → SouthOk k 0x2C1 0x39 → enters (.mxbPb b) (.mxb true) 0 y []) ∧
     (v.loading.1 = true → enters .mxsw .mxsw 0 0 []) ∧
     (mulReserved y = false → aTypeBad y = false → mulModeBad v bank y = false → v.active.1 = true →
       mulOff y + wordKg y ≤ v.active.2.1 →
       (OperandOk x.toNat (aBytes y) 16 → enters (.mxmm a b n) (.mxmm bank false) x y []) ∧
       (SouthOk k 0x2C1 0x38 → enters (.mxmmPa b n) (.mxmm bank true) 0 y [])) ∧
     (fld y 63 32 = 0 → fld y 15 2 = 0 → fld y 1 0 ≠ 3 → (fld y 1 0 = 2 ∨ fld y 31 16 = 0) →
       enters (.mxaccClr b n) (.clr bank) 0 y []) ∧
     (outReserved y = false → outBad y mode false = false → k.inCode x.toNat out = false → k.inWindow x.toNat out = false →
       OperandOk x.toNat out 16 → enters (.mxaccOuts a b n) (.outs bank) x y []) ∧
     (outReserved y = false → outBad y mode true = false → SouthOk k 0x2C0 0x3A → enters (.mxaccOutp b n) (.outp bank) 0 y []) ∧
     (s.ecc.marks = [] → OperandOk x.toNat 64 16 → sortBad k r (ki == 1) (io == 1) = false → (ki = 1 → SouthOk k 0x2C1 0x38) →
       (io = 1 → SouthOk k 0x2C0 0x3A) → enters (.mxsort a ki io) (.sort (ki == 1) (io == 1)) x 0 r)) ∧
   ((k.eclass = 4 ∨ k.eclass = 5) → 1 < g.length → g.head? = some s.turn → g.Nodup →
     (∀ c, c ∈ g → (s.core c).matrix.queue.length < 8) →
     ∃ t, exec (.mxgang a) s = .next t ∧ t.cur.pc = k.pc + 4 ∧ ∀ c, c ∈ g → (t.core c).matrix.queue =
       (s.core c).matrix.queue ++ [{ op := .gang (bitAt x 0), x := x, y := 0, iseq := k.issueSeq, gang := true }]) ∧
   exec (.mxaccQry d n) s = .next ((s.setReg d (bankStatus k bank)).advance 4) ∧
   (mxIdle s s.turn m.toNat = true → exec (.mxwait d m) s = .next (((s.modCur fun k => { k with mxWait := none }).setReg d
     (BitVec.ofNat 64 (k.meld.done % 2 ^ 32 * 2 ^ 32 + k.matrix.done % 2 ^ 32))).advance 4)) ∧
   (mxIdle s s.turn m.toNat = false → exec (.mxwait d m) s = .next (s.modCur fun k => { k with mxWait := some (mxTarget k) }).wait)) ∧
  (∀ (s : State) (a b : Reg) (n : BitVec 2) (ki io : BitVec 1),
   let k := s.cur
   let v := mxView k
   let y := s.reg b
   acquireHeld k = false →
   (k.eclass ≠ 4 → k.eclass ≠ 5 → ∀ i ∈ [Instr.mxb a b, .mxbPb b, .mxsw, .mxmm a b n, .mxmmPa b n, .mxaccClr b n,
       .mxaccOuts a b n, .mxaccOutp b n, .mxsort a ki io, .mxgang a], exec i s = .next (s.trap 0x15A 0)) ∧
   ((k.eclass = 4 ∨ k.eclass = 5) → v.gang = false →
     (v.loading.1 = false → exec .mxsw s = .next (s.trap 0x0DC 0)) ∧
     (bWordReserved y false = false → bWordBad y false = true → exec (.mxb a b) s = .next (s.trap 0x0D1 0)) ∧
     (mulReserved y = false → aTypeBad y = true → exec (.mxmm a b n) s = .next (s.trap 0x0D0 0)) ∧
     (mulReserved y = false → aTypeBad y = false → mulModeBad v n.toNat y = true → exec (.mxmm a b n) s = .next (s.trap 0x0D4 0)) ∧
     (mulReserved y = false → aTypeBad y = false → mulModeBad v n.toNat y = false → v.active.1 = false →
       exec (.mxmm a b n) s = .next (s.trap 0x0D3 0))))

/-- R434, R436 to R442: what the engine does with the command at the head of its queue: the buffers exchange, gang mode turns
on or off, a bank is cleared, its rows are written, a multiply accumulates, a B buffer fills, a sort is delivered; the
command leaves the queue and is counted. R439, R433, R442: what the conversions of rows, the alignment of B and the NaN keys of a sort
count. -/
def Obligations.MatrixExecution : Prop := ∀ (s : State) (c bank : Nat) (x y : Word) (r : List Word) (n : Nat) (q : List MxCmd) (on gm : Bool),
  let k := s.core c
  let head := fun (op : MxOp) => k.matrix.queue = ⟨op, x, y, r, n, gm⟩ :: q
  let t := bType y
  let cells := (List.range 64).map fun j => packedValues t (8 * wordKg y)
    (((s.tile c x.toNat (64 * fld y 52 32)).drop (j * fld y 52 32)).take (columnBytes t (8 * wordKg y)))
  let keys := s.tile c ((r.getD 0 0).toNat % 2 ^ 21) (sortN r * elemBits (sortType r) / 8)
  let idx := (List.range (sortN r)).map fun (i : Nat) => (i : Int)
  let raw := unpackBits (elemBits (sortType r)) (sortN r) keys
  let put := s.setTile c x.toNat ((List.range 32).map (rowToken s c bank (fld y 4 0) (fld y 10 8))).flatten
  engineOk k = true → s.ecc.marks = [] →
  (head .mxsw → ∃ t, exec (.mxswExchange c) s = .next t ∧ OnlyCore s t c ∧ (t.core c).matrix =
    { k.matrix with queue := q, done := k.matrix.done + 1, active := k.matrix.loading, loading := k.matrix.active }) ∧
  (head (.gang on) → ∃ t, exec (.mxgangExecute c) s = .next t ∧ OnlyCore s t c ∧
    (t.core c).matrix = { k.matrix with queue := q, done := k.matrix.done + 1, gang := on }) ∧
  (head (.clr bank) → ∃ t, exec (.mxaccExecute c) s = .next t ∧ (t.core c).matrix.queue = q ∧
    NMap.getD {} (t.core c).matrix.banks bank = { mode := fld y 1 0, e := if fld y 1 0 = 2 then sgn 16 (fld y 31 16) else 0 } ∧
    (Memory.wf s.mem = true → SameOutside s t (accKey c bank 0 0) 0x8000 ∧
      ∀ i, i < 0x8000 → memGet t.mem (accKey c bank 0 0 + i) = 0)) ∧
  (head (.outs bank) → bitAt y 13 = false → exec (.mxaccExecute c) s = .next (mxDone (bankCount put c bank
    (sumCounts ((List.range 32).map (rowCounts put c bank (fld y 4 0) (fld y 10 8))))) c 0)) ∧
  (head (.mxmm bank false) →
    (∀ u, multiply s c bank y (s.tile c x.toNat (aBytes y)) = some u → exec (.mxmmExecute c) s = .next (mxDone u c 0)) ∧
    (multiply s c bank y (s.tile c x.toNat (aBytes y)) = none → exec (.mxmmExecute c) s = .next (engineHalt s c 0x0D7))) ∧
  (head (.mxb false) → ∀ cols, allValues cells = .ok cols →
    exec (.mxbLoad c) s = .next (mxDone (mxCount (modMatrix s c (fillB y cols)) c (loadCounts y cols)) c 0)) ∧
  (head (.sort false false) → sortGen r = true →
    exec (.mxsortExecute c) s = .next (mxDone (modMatrix
      (mxCount (deliverSort s c r false (sortKeys r raw idx)) c (sortCounts r raw)) c
      fun m => { m with loading := { m.loading with valid := false } }) c 0))

/-- R444 to R451: MLDG loads a checked graph under the lowest free id and gives its node count, first node and id; MLCHK reads
the standing, MLCHK.rec the cause an MLDG would raise; MLFREE, MLRUN and MLCUT enter the meld queue. -/
def Obligations.MeldCommandIssue : Prop := ∀ (s : State) (d a b : Reg) (id : BitVec 4) (g : MeldGraph),
  let k := s.cur
  let x := s.reg a
  let y := s.reg b
  let m := id.toNat
  let r := recordAt s s.turn x.toNat
  let inB := runV y * roundUp (vectorBytes (runIn y) g.nin) 16
  let outB := runV y * roundUp (g.ntap * elemBits (runOut y) / 8) 16
  let o := fld y 56 36
  acquireHeld k = false →
  exec (.mlchk d) s = .next ((s.setReg d (meldStatus k s.turn)).advance 4) ∧
  (s.ecc.marks = [] → recordFault s s.turn x.toNat = none → (k.eclass = 3 ∨ k.eclass = 5) → exec (.mlchkRec d a) s =
    .next ((s.setReg d (BitVec.ofNat 64 ((meldFault k s.turn r).getD 0))).advance 4)) ∧
  ((k.eclass = 3 ∨ k.eclass = 5) →
    (s.ecc.marks = [] → recordFault s s.turn x.toNat = none → meldFault k s.turn r = none → ∃ t, exec (.mldg d a) s = .next t ∧
      t = ((loadMeld s s.turn r).setReg d (BitVec.ofNat 64
        (r.nnode * 2 ^ 32 + (freeNodes k s.turn).headD 0 * 2 ^ 16 + nextMeldId k))).advance 4 ∧
      NMap.find t.cur.meld.graphs (nextMeldId k) =
        some { nin := r.nin, ntap := r.ntap, d := r.d, nodes := (freeNodes k s.turn).take r.nnode }) ∧
    (s.ecc.marks = [] → recordFault s s.turn x.toNat = none → ∀ f, meldFault k s.turn r = some f → exec (.mldg d a) s = .next (s.trap f 0)) ∧
    (NMap.find k.meld.graphs m = none → exec (.mlfree id) s = .next (s.trap 0x0E8 0)) ∧
    (NMap.find k.meld.graphs m = some g → g.freeing = false → k.meld.queue.length < 8 →
      (∃ t, exec (.mlfree id) s = .next t ∧ MlEntered s t (.free m) ∧
        NMap.find t.cur.meld.graphs m = some { g with freeing := true }) ∧
      (fld x 63 6 = 0 → ∃ t, exec (.mlcut a id) s = .next t ∧ MlEntered s t (.cut m (fld x 5 0))) ∧
      (runReserved y = false → runBad y = false →
        (bitAt y 33 = true → SouthOk k 0x2C1 0x3B) → (bitAt y 33 = false → OperandOk x.toNat inB 16) →
        (bitAt y 32 = true → SouthOk k 0x2C0 0x3C) →
        (bitAt y 32 = false → OperandOk o outB 16 ∧ k.inCode o outB = false ∧ k.inWindow o outB = false) →
        ∃ t, exec (.mlrun a b id) s = .next t ∧ MlEntered s t (.run m x y k.issueSeq 0))))

/-- R450, R451: at the head of the meld queue a free gives the nodes and the id back, a cut applies to later runs, and a run
takes its next vector from tile SRAM and delivers it. -/
def Obligations.MeldExecution : Prop := ∀ (s : State) (c id n : Nat) (q : List MlCmd) (g : MeldGraph) (x y : Word) (i pos : Nat),
  let k := s.core c
  let bytes := vectorBytes (runIn y) g.nin
  let vec := s.tile c (x.toNat + pos * roundUp bytes 16) bytes
  engineOk k = true → s.ecc.marks = [] →
  (k.meld.queue = .free id :: q → ∃ t, exec (.mlfreeComplete c) s = .next t ∧ OnlyCore s t c ∧
    (t.core c).meld = { k.meld with queue := q, done := k.meld.done + 1, graphs := NMap.del k.meld.graphs id }) ∧
  (k.meld.queue = .cut id n :: q → NMap.find k.meld.graphs id = some g → ∃ t, exec (.mlcutExecute c) s = .next t ∧
    OnlyCore s t c ∧ (t.core c).meld =
      { k.meld with queue := q, done := k.meld.done + 1, graphs := NMap.put k.meld.graphs id { g with cut := n } }) ∧
  (k.meld.queue = .run id x y i pos :: q → NMap.find k.meld.graphs id = some g → bitAt y 33 = false →
    (∀ e ins, vectorDigits (runIn y) [vec] g.nin = .ok (e, ins) →
      exec (.meldRun c) s = .next (runVector s c id g x y i pos e ins (vectorCounts (runIn y) [vec] g.nin))) ∧
    (∀ f, vectorDigits (runIn y) [vec] g.nin = .error f → exec (.meldRun c) s = .next (engineHalt s c f)))

/-! ### Elements -/

/-- R401, R404, R400, R255: an arithmetic or special-function element consumes one token from each linked slot and sends one
token: fin() of the exact result in each lane, under the element's rounding mode; XW128 tokens of one n and E add and
subtract modulo 2^128 (R241). -/
def Obligations.ElementArithmetic : Prop := ∀ (s f f2 : State) (b : Blk) (items : List Item) (us : List Nat) (p q : List Byte) (e : Int),
  let x := siteOf s
  let t := eType b
  let rm := bRm b
  let v := fun (xs : List Nat) (i : Nat) => vAt (xs.map (valOf t)) i
  let fin := fun (u : Nat) (z : Val) => encodeElem t rm u z
  let wide := fun (g : Nat → Nat → Nat) => leaves s b (emit (popAll f x [0, 1]) x b [.data
    (packBits 128 (((tokenFields t p).zip (tokenFields t q)).map fun (a, c) => g a c) ++ tailBytes t e)])
  ElemFree s f b →
  (t ≠ 0x1C → ∀ i ∈ [
      (Instr.elemAdd b, 0x040, 2, fun u xs => fin u ((v xs 0).add rm (v xs 1))),
      (.elemSub b, 0x041, 2, fun u xs => fin u ((v xs 0).add rm (v xs 1).neg)),
      (.elemMul b, 0x042, 2, fun u xs => fin u ((v xs 0).mul (v xs 1))),
      (.fma b, 0x043, 3, fun u xs => fin u (((v xs 0).mul (v xs 1)).add rm (v xs 2))),
      (.fms b, 0x044, 3, fun u xs => fin u (((v xs 0).mul (v xs 1)).add rm (v xs 2).neg)),
      (.nfma b, 0x045, 3, fun u xs => fin u ((v xs 2).add rm ((v xs 0).mul (v xs 1)).neg)),
      (.elemMin b, 0x046, 2, fun u xs => fin u (vMin (v xs 0) (v xs 1))),
      (.elemMax b, 0x047, 2, fun u xs => fin u (vMax (v xs 0) (v xs 1))),
      (.abs b, 0x048, 1, fun u xs => fin u (v xs 0).abs),
      (.neg b, 0x049, 1, fun u xs => fin u (v xs 0).neg),
      (.exp2 b, 0x100, 1, fun u xs => fin u (exp2Val (v xs 0))),
      (.log2 b, 0x101, 1, fun u xs => fin u (log2Val (v xs 0))),
      (.rcp b, 0x102, 1, fun u xs => fin u (rcpVal (v xs 0))),
      (.rsq b, 0x103, 1, fun u xs => fin u (rsqVal (v xs 0)))],
    let slots := slotsOf i.2.1 (bMod b)
    let f1 := popAll f x slots
    TokensAt s f slots items →
    (srWords f1 s.turn b 16 = .ok (us, f2) →
      exec i.1 s = leaves s b (laneResult s f1 f2 us b i.2.1 t (List.replicate i.2.2.1 t) items i.2.2.2)) ∧
    (∀ c, srWords f1 s.turn b 16 = .error c → exec i.1 s =
      leaves s b (tokenHalt (drawsMade f1 s.turn (bSrs b) 16) x (slots.headD 0) c))) ∧
  (t = 0x1C → selOf (bMod b) 0 = 0 → selOf (bMod b) 1 = 0 → TokensAt s f [0, 1] [.data p, .data q] →
    tokenElems t p.length = tokenElems t q.length → tailExp t p = some e → tailExp t q = some e →
    exec (.elemAdd b) s = wide (fun a c => (a + c) % 2 ^ 128) ∧
    exec (.elemSub b) s = wide (fun a c => (a + 2 ^ 128 - c) % 2 ^ 128))

/-- R402, R403, R400: logic, shift, compare and select elements, lane by lane; a compare gives a BOOL token, SEL
copies bits. R405, R406, R400: a conversion decodes a whole token, and rounds its 64 values into the type of the
element, with the words of a draw for each under SR; BPLN sends the planes of a token, the highest first. -/
def Obligations.ElementLogicAndConversions : Prop :=
  (∀ (s f : State) (b : Blk) (items : List Item),
   let x := siteOf s
   let t := eType b
   let w := elemBits t
   let v := fun (xs : List Nat) (i : Nat) => valOf t (xs.getD i 0)
   let o := fun (xs : List Nat) (i : Nat) => xs.getD i 0
   let n := fun (xs : List Nat) => shiftCount t (o xs 1)
   let bit := fun (c : Bool) => (if c then 1 else 0, noCount)
   ElemFree s f b →
   ∀ i ∈ [
       (Instr.elemAnd b, 0x080, [t, t], t, fun xs => (o xs 0 &&& o xs 1, noCount)),
       (.elemOr b, 0x081, [t, t], t, fun xs => (o xs 0 ||| o xs 1, noCount)),
       (.elemXor b, 0x082, [t, t], t, fun xs => (o xs 0 ^^^ o xs 1, noCount)),
       (.not b, 0x083, [t], t, fun xs => (2 ^ w - 1 - o xs 0 % 2 ^ w, noCount)),
       (.elemShl b, 0x084, [t, t], t, fun xs => shlLane t (o xs 0) (o xs 1)),
       (.elemShr b, 0x085, [t, t], t, fun xs => (o xs 0 / 2 ^ min (n xs) w, noCount)),
       (.elemSra b, 0x086, [t, t], t, fun xs => (sraLane t (o xs 0) (o xs 1), noCount)),
       (.clamp b, 0x087, [t, t, t], t, fun xs =>
         let z := xs.map (valOf t)
         encodeElem t 0 0 (vMin (vMax (vAt z 0) (vAt z 1)) (vAt z 2))),
       (.cmpeq b, 0x0C0, [t, t], 0x1E, fun xs => bit ((v xs 0).eq (v xs 1))),
       (.cmplt b, 0x0C1, [t, t], 0x1E, fun xs => bit ((v xs 0).lt (v xs 1))),
       (.cmple b, 0x0C2, [t, t], 0x1E, fun xs => bit ((v xs 0).lt (v xs 1) || (v xs 0).eq (v xs 1))),
       (.sel b, 0x0C3, [t, t, 0x1E], t, fun xs => (if o xs 2 = 1 then o xs 0 else o xs 1, noCount))],
     let slots := slotsOf i.2.1 (bMod b)
     let f1 := popAll f x slots
     TokensAt s f slots items →
     exec i.1 s = leaves s b (laneResult s f1 f1 [] b i.2.1 i.2.2.2.1 i.2.2.1 items fun _ xs => i.2.2.2.2 xs)) ∧
  (∀ (s f f2 : State) (b : Blk) (i : Item) (vs : List Val) (us : List Nat)
     (ns : List (Nat × List Nat)),
   let x := siteOf s
   let t := eType b
   let f1 := popAll f x [0]
   let planes := bitsOf (bMod b) 4 0
   ElemFree s f b → TokensAt s f [0] [i] →
   (∀ p ∈ [(Instr.cvt b, srcType b), (.qblk b, srcType b), (.dqblk b, srcType b), (.tosd b, srcType b), (.fromsd b, 0x1B)],
     decodeToken p.2 (itemBytes i) = .ok vs →
     ((nanScaled p.2 (itemBytes i) && lacksNan t && !(bStat b)) = true → exec p.1 s = leaves s b (tokenHalt f1 x 0 0x0FC)) ∧
     ((nanScaled p.2 (itemBytes i) && lacksNan t && !(bStat b)) = false → srWords f1 s.turn b 16 = .ok (us, f2) →
       exec p.1 s = leaves s b
         (let r := encodeToken t (bRm b) us ((List.range 64).map fun l => vs.getD l (.num false 0 1))
          emit (addStats f2 x r.2) x b [.data r.1]))) ∧
   (planeNumbers t planes (itemBytes i) = .ok ns → exec (.bpln b) s = leaves s b
     (emit (addStats f1 x (sumCounts (ns.map Prod.snd))) x b (((List.range planes).reverse).map fun j =>
       Item.data (packBits 1 (ns.map fun n => n.1 / 2 ^ j % 2))))))

/-- R407, R251: RSUM, RMAX and RMIN send one token with their result in every lane, or with ACC keep it, joining what they
hold, until an EOT sends it ahead of the mark; BCAST, SHUF and ROTL send the lanes they choose. -/
def Obligations.ElementReductions : Prop := ∀ (s f f2 : State) (b : Blk) (i j : Item) (us : List Nat) (w : Word),
  let x := siteOf s
  let t := eType b
  let f1 := popAll f x [0]
  let vs := (tokenFields t (itemBytes i)).map (valOf t)
  let sum := if isInteger t then intSum t vs else treeSum t (bRm b) us 7 0 vs
  let held := (f.elem x).held
  let n := tokenElems t (itemBytes i).length
  let lanes := fun (f1 : State) (k : Nat → Nat) => leaves s b (emit f1 x b [.data
    (fieldBytes t ((List.range n).map fun l => (tokenFields t (itemBytes i)).getD (k l) 0)
      ++ (if t = 0x1B ∨ t = 0x1C then (itemBytes i).drop (n * elemBits t / 8) else []))])
  let extremes := [(Instr.rmax b, vMax), (.rmin b, vMin)]
  let kept := fun (u : State) (v : Val) =>
    if accOn b then u.modElem x fun e => { e with held := splat t v } else emit u x b [.data (splat t v)]
  ElemFree s f b →
  (TokensAt s f [0] [i] → (accOn b = true → (f1.elem x).held = []) → (f2.elem x).held = (f1.elem x).held →
    (t ≠ 0x1C → srWords f1 s.turn b 16 = .ok (us, f2) → exec (.rsum b) s = leaves s b (kept (addStats f2 x sum.2) sum.1)) ∧
    (∀ p ∈ extremes, exec p.1 s = leaves s b (kept (addStats f1 x (extreme p.2 vs).2) (extreme p.2 vs).1))) ∧
  (accOn b = true → held ≠ [] → ctlKind w = 2 → MarkAt s f 0 w → markReady f x (bStat b) w = true →
    ∀ p ∈ [Instr.rsum b, .rmax b, .rmin b], exec p s = leaves s b (markAction
      (emit ((emit f1 x b [.data (f1.elem x).held]).modElem x fun e => { e with held := [] }) x b [.ctl w]) x (bStat b) w)) ∧
  (isBlock t = false →
    (TokensAt s f [0] [i] → exec (.bcast b) s = lanes f1 (fun _ => bitsOf (bMod b) 11 6 % max n 1) ∧
      exec (.elemRotl b) s = lanes f1 (fun l => (l + bitsOf (bMod b) 5 0) % max n 1)) ∧
    (TokensAt s f [0, 1] [i, j] → exec (.shuf b) s =
      lanes (popAll f x [0, 1]) (fun l => ((itemBytes j).getD l 0).toNat % max n 1)))

/-- R395, R396: a mark of one KIND and LEVEL at every linked slot is consumed once all have it, sent to both targets, and acts on
the element; marks that differ, or a mark beside a token, halt the graph with GRID.0. -/
def Obligations.ElementMarks : Prop := ∀ (s f : State) (b : Blk) (w w' : Word) (i : Item),
  let x := siteOf s
  ElemFree s f b →
  ∀ p ∈ [(Instr.elemNop b, 0x001, false), (.copy b, 0x004, false), (.elemAdd b, 0x040, bStat b), (.elemMul b, 0x042, bStat b),
      (.fma b, 0x043, bStat b), (.elemAnd b, 0x080, bStat b), (.not b, 0x083, bStat b), (.cmplt b, 0x0C1, bStat b),
      (.sel b, 0x0C3, bStat b), (.exp2 b, 0x100, bStat b), (.cvt b, 0x140, bStat b), (.bpln b, 0x145, bStat b),
      (.shuf b, 0x184, bStat b), (.steer b, 0x200, false), (.agen b, 0x241, false), (.acpt b, 0x382, false),
      (.rnge b, 0x383, false), (.stadd b, 0x3C1, false)],
    let slots := slotsOf p.2.1 (bMod b)
    (slots ≠ [] → (∀ n, n ∈ slots → MarkAt s f n w) →
      (markReady f x p.2.2 w = true →
        exec p.1 s = leaves s b (markAction (emit (popAll f x slots) x b [.ctl w]) x p.2.2 w)) ∧
      (markReady f x p.2.2 w = false → exec p.1 s = leaves s b f)) ∧
    (slots = [0, 1] → MarkAt s f 0 w →
      (TokenAt s f 1 i → exec p.1 s = leaves s b (gridHalt f x 0 0x0B0)) ∧
      (MarkAt s f 1 w' → (ctlKind w' ≠ ctlKind w ∨ ctlLevel w' ≠ ctlLevel w) →
        exec p.1 s = leaves s b (gridHalt f x 0 0x0B0)))

/-- R426, R408 to R411, R414, R420: the utilities, SLD and SWAP, the router operators and the mark elements: what each consumes
and what it sends to which target. -/
def Obligations.ElementFlow : Prop := ∀ (s f : State) (b : Blk) (i j c : Item),
  let x := siteOf s
  let m := bMod b
  let at1 := popAll f x [0]
  let e := f.elem x
  let n := bitsOf m 11 0
  let loops := fun (u : State) (z : Item) => emit (u.modElem x fun y => { y with cnt := e.cnt + 1, phase := 1 }) x b [z]
  ElemFree s f b →
  (TokensAt s f [0] [i] →
    exec (.elemNop b) s = leaves s b (emit at1 x b [i]) ∧ exec (.copy b) s = leaves s b (emit at1 x b [i]) ∧
    exec (.sink b) s = leaves s b at1 ∧
    (∃ u, exec (.sld b) s = leaves s b u ∧ u = at1.write (loadTarget at1 x.c (physAt at1 ⟨x.c, bitsOf m 6 0, x.sh⟩))
      (packBits 32 (tokenFields (eType b) (itemBytes i)))) ∧
    (∀ p ∈ [(Instr.eot b, 2), (.eos b, 3)], 0 < n →
      (e.cnt + 1 < n → exec p.1 s = leaves s b ((emit (pop f x 0) x b [i]).modElem x fun y => { y with cnt := e.cnt + 1 })) ∧
      (e.cnt + 1 = n → exec p.1 s = leaves s b
        (emit ((emit (pop f x 0) x b [i]).modElem x fun y => { y with cnt := 0 }) x b [markItem p.2]))) ∧
    (e.phase = 0 → exec (.tstm b) s =
      leaves s b ((pop f x 0).modElem x fun y => { y with phase := 1, held := itemBytes i }))) ∧
  (e.phase = 1 → head? f x 0 = some i → itemBad i = false → (asMark i ≠ none ∨ slotBreak f x 0 = none) →
    exec (.tstm b) s = leaves s b (emit1 (emit0 (f.modElem x fun y => { y with phase := 0, held := [] }) x b
      [mkItem (eType b) e.held]) x b [boolToken (endsLevel (bitsOf m 1 0) i)])) ∧
  (TokensAt s f [3] [.ctl (mkCtl 0 0 0)] → b.t1.slot ≠ 3 → exec (.const b) s =
    leaves s b (emit1 (emit0 (popAll f x [3]) x b [constToken b x (popAll f x [3])]) x b [constToken b x (popAll f x [3])])) ∧
  (TokensAt s f [3] [c] → exec (.swap b) s = leaves s b (emit (pop f x 3) x b [markItem 5])) ∧
  (head? f x 3 = none → TokensAt s f [0] [i] → exec (.swap b) s = leaves s b (emit (pop f x 0) x b [i])) ∧
  (TokensAt s f [0, 1] [i, c] → exec (.steer b) s =
    leaves s b (if lane0 c then emit0 (popAll f x [0, 1]) x b [i] else emit1 (popAll f x [0, 1]) x b [i])) ∧
  (TokensAt s f [2] [c] →
    (lane0 c = true → TokensAt s f [0] [i] → exec (.merge b) s = leaves s b (emit (popAll f x [2, 0]) x b [i])) ∧
    (lane0 c = false → TokensAt s f [1] [j] → exec (.merge b) s = leaves s b (emit (popAll f x [2, 1]) x b [j])) ∧
    (e.phase = 1 → e.cnt + 1 < 2 ^ 32 →
      (lane0 c = true → TokensAt s f [1] [j] → exec (.carry b) s = leaves s b (loops (popAll f x [2, 1]) j)) ∧
      (lane0 c = false → head? f x 1 = none →
        exec (.carry b) s = leaves s b ((pop f x 2).modElem x fun y => { y with phase := 0 })) ∧
      (lane0 c = true → exec (.invar b) s = leaves s b (loops (pop f x 2) (mkItem (eType b) e.held))) ∧
      (lane0 c = false → exec (.invar b) s =
        leaves s b ((pop f x 2).modElem x fun y => { y with phase := 0, held := [] })))) ∧
  (e.phase = 0 → e.cnt + 1 < 2 ^ 32 → TokensAt s f [0] [i] → head? f x 1 = none → head? f x 2 = none →
    exec (.carry b) s = leaves s b (loops (pop f x 0) i) ∧
    exec (.invar b) s = leaves s b (loops ((pop f x 0).modElem x fun y => { y with held := itemBytes i }) i))

/-- R412, R413: a GO starts the run of a loop generator, one step of a run sends its token and the EOD marks due, and
the last one ends it; AGEN sends the address of each index token. R419, R132: a controller with a go-ahead and a count
in its modifier starts its children's iterations; when all its children are done it reports, a root by a done token.
-/
def Obligations.ElementLoops : Prop :=
  (∀ (s f : State) (b : Blk) (i : Item) (w : Word),
   let x := siteOf s
   let e := f.elem x
   let n := ndimOf b
   let d := atLast e.bounds e.index
   let started := (popAll f x [3]).modElem x fun y => { y with iter := ctlOrd w }
   let counts := fun (lane : Nat) => (((statLanes f x.c (physAt f x)).drop lane).take n).map (sgn 32)
   let runs := [(Instr.lgen b, (token64 0x04 (e.index ++ List.replicate (64 - e.index.length) 0))),
     (.agch b, addressToken (agAddress f x n (e.index.map fun (i : Nat) => (i : Int))))]
   ElemFree s f b →
   (TokensAt s f [0] [i] → exec (.agen b) s = leaves s b (emit (popAll f x [0]) x b [addressToken
     (agAddress (popAll f x [0]) x n ((tokenFields 0x04 (itemBytes i)).map (sgn 32)))])) ∧
   (e.phase = 0 → TokensAt s f [3] [.ctl w] → ctlKind w = 0 →
     ((bMod b).testBit 24 = false → (∀ k, k ∈ counts 0 → 0 < k ∧ k ≤ 2 ^ 24) → exec (.lgen b) s = leaves s b (started.modElem x
       fun y => { y with phase := 1, bounds := (counts 0).map Int.toNat, index := (counts 0).map fun _ => 0 })) ∧
     ((bMod b).testBit 24 = true → exec (.lgen b) s = leaves s b (started.modElem x fun y => { y with phase := 2 })) ∧
     ((∀ k, k ∈ counts 12 → 0 < k ∧ k ≤ 2 ^ 24) → exec (.agch b) s = leaves s b (started.modElem x
       fun y => { y with phase := 1, bounds := (counts 12).map Int.toNat, index := (counts 12).map fun _ => 0 }))) ∧
   (e.phase = 1 → ∀ p ∈ runs,
     (d = 0 → 0 < e.bounds.length → exec p.1 s = leaves s b
       ((emitData f x b [p.2]).modElem x fun y => { y with index := nextIndex e.bounds e.index })) ∧
     (0 < d → d < e.bounds.length → exec p.1 s = leaves s b
       ((emitData f x b [p.2, eodItem (d - 1)]).modElem x fun y => { y with index := nextIndex e.bounds e.index })) ∧
     (0 < d → d = e.bounds.length → exec p.1 s = leaves s b (endRun b x (emitData f x b [p.2, eodItem (d - 1)]))))) ∧
  (∀ (s f : State) (b : Blk),
   let x := siteOf s
   let e := f.elem x
   let kids := kidsOf (planeOf (s.core s.turn).grid x.sh) x.i
   let n := bitsOf (bMod b) 13 0
   let begun := ctlBegin kids x n (f.modElem x fun y => { y with items := [] })
   f = flush s x b → elemOk s x = true → e.items = [] → e.out0 = [] → e.out1 = [] →
   (∀ p ∈ [(Instr.cseq b, 0), (.cpipe b, 1), (.cstrm b, 2)],
     (e.phase = 0 → 0 < e.goQ → n ≠ 0 → exec p.1 s =
       leaves s b (ctlFinish b kids x (startKids b p.2 kids x (List.range kids.length) begun))) ∧
     (e.phase = 1 → exec p.1 s = leaves s b (ctlFinish b kids x
       (startKids b p.2 kids x (List.range kids.length) (f.modElem x fun y => { y with items := [] }))))) ∧
   (∀ (y : Elem) (j : Nat), mayStart 0 kids y (j + 1) = true →
     (kidAt y (j + 1)).1 < (((kids.zip (List.range kids.length)).map fun p => kidDone y p.1 p.2).getD j 0)) ∧
   (∀ (y : Elem) (j : Nat), mayStart 1 kids y (j + 1) = true → (kidAt y (j + 1)).1 < (kidAt y j).1))

/-- R415: MLD sends the bytes at its address, MST stores its token's bytes and then sends a token of true lanes, MATOM performs
one atomic for each lane and sends the old values. R68: a load or store whose bytes lie in another package goes on once the
answer has come. -/
def Obligations.MemoryElements : Prop := ∀ (s f f2 : State) (b : Blk) (i j : Item) (ps : List (Nat × Nat)) (bs : List Byte)
    (op : QOp) (m : NMap Nat) (o : Brought),
  let x := siteOf s
  let t := eType b
  let va := tokenAddress i
  let mine := fun (o : Brought) => o.core == s.turn && o.q == elemQ x
  let brought := fun (u : State) => { u with links := { u.links with inbox := u.links.inbox.filter fun o => !(mine o) } }
  let heard := refusedMeanwhile f s.turn (elemQ x) = none
  let free := fun (ps : List (Nat × Nat)) => heard ∧ kittyFirst f ps = none ∧ staleReplica f s.turn ps = false ∧ farBytes f ps = 0
  let ld := elemReach f x b va (vecBytes t) true false
  let held := fun (u : State) => elemHold u x b (va + vecBytes t - 1) true false
  let ls := (List.range 64).map fun l => (l, (va + 4 * l) % 2 ^ 64)
  let bytes := itemBytes j
  let st := elemReach f x b va bytes.length false true
  let sent := fun (u : State) => elemHold u x b (va + bytes.length - 1) false true
  ElemFree s f b →
  (TokensAt s f [0] [i] → ld = .ok ps → free ps →
    readPieces s.turn ps [] (held (popAll f x [0])) = (.ok bs, f2) → exec (.mld b) s = leaves s b (emit f2 x b [.data bs])) ∧
  (TokensAt s f [0, 1] [i, j] → st = .ok ps → free ps →
    exec (.mst b) s = leaves s b (emit0 (writePieces ps bytes (sent (popAll f x [0, 1]))) x b [boolToken true])) ∧
  (TokensAt s f [0] [i] → ld = .ok ps → heard → kittyFirst f ps = none →
    staleReplica f s.turn ps = false → farBytes f ps ≠ 0 → f.links.inbox.find? mine = some o → o.cause = 0 →
    readPieces s.turn ps (leBytes (farBytes f ps) o.data) (held (brought (popAll f x [0]))) = (.ok bs, f2) →
    exec (.mld b) s = leaves s b (emit f2 x b [.data bs])) ∧
  (TokensAt s f [0, 1] [i, j] → st = .ok ps → heard → kittyFirst f ps = none →
    staleReplica f s.turn ps = false → farBytes f ps ≠ 0 → f.links.inbox.find? mine = some o → o.cause = 0 →
    exec (.mst b) s = leaves s b (emit0 (writePieces ps bytes (sent (brought (popAll f x [0, 1])))) x b [boolToken true])) ∧
  ((bMod b).testBit 12 = false → TokensAt s f [0, 1] [i, j] → va % 4 = 0 → matomOp t (bitsOf (bMod b) 11 8) = some op →
    matomAll f x b ls = .ok ps → free ps →
    matomRun s.turn op (tokenFields t bytes) ((ls.zip ps).map fun (l, p) => (l.1, p.1)) []
      (elemHold (popAll f x [0, 1]) x b ((va + 252) % 2 ^ 64) true true) = (.ok m, f2) →
    exec (.matom b) s = leaves s b (emit f2 x b [token64 t ((List.range 64).map fun l => NMap.getD 0 m l)])) ∧
  (∀ c, TokensAt s f [0] [i] → ld = .fault c → exec (.mld b) s = leaves s b (gridHalt f x 0 c))

/-- R398, R417, R418: a PIN sends the item at the head of its channel, or the next port token of its window; a POUT puts a
token into its channel, or produces its port token once the vector tokens fill it. -/
def Obligations.PortElements : Prop := ∀ (s f : State) (b : Blk) (i : Item) (rest : List Item) (n j : Nat),
  let x := siteOf s
  let c := s.turn
  let k := f.core c
  let p := aportOf b
  let d := k.desc j
  let cnt := (k.port k.actorNo p).cnt
  let all := (f.elem x).held ++ itemBytes i
  let taken := fun (h : List Byte) => (pop f x 0).modElem x fun e => { e with held := h }
  let key := winBase c + d.slotAt (d.rd.toNat + cnt)
  let v := portVec (eType b) d.tsize
  ElemFree s f b → f.ecc.marks = [] →
  ((f.elem x).items = [] → (k.grid.draining = false ∨ x.sh = true) →
    (pinChan b = some n → f.chan c n = i :: rest → itemBad i = false → asMark i = none →
      exec (.pin b) s = leaves s b (emit (countIn (f.setChan c n rest) x 1) x b [i])) ∧
    (pinChan b = none → ownsPort f c p = true → planeGone k.grid x.sh = true → k.infire = true →
      portDesc f c k.actorNo p = some j → cnt < d.occ → cnt < curRate f c p → portBreak k k.actorNo p = none →
      exec (.pin b) s = leaves s b
        (let toks := (chunks v (d.tsize / v) (f.read key d.tsize)).map (mkItem (eType b))
         let marks := (NMap.getD [] d.marks (d.rd.toNat + cnt)).map fun m => (m.toNat, 0)
         emit ((countIn (countToken f c k.actorNo p) x toks.length).modElem x fun e => { e with items := marks }) x b toks))) ∧
  (TokensAt s f [0] [i] →
    (poutChan b = some n → (p = 0x3F → f.chan c n = []) →
      exec (.pout b) s = leaves s b (portIdle ((pop f x 0).setChan c n (f.chan c n ++ [i])) x)) ∧
    (poutChan b = none → k.infire = true → ownsPort f c p = true → portDesc f c k.actorNo p = some j →
      (all.length < d.tsize → exec (.pout b) s = leaves s b (portIdle (taken all) x)) ∧
      (d.tsize ≤ all.length → portBreak k k.actorNo p = none → exec (.pout b) s = leaves s b (produce
        ((pop f x 0).modElem x fun e => { e with held := [], index := [], since := none }) c p (all.take d.tsize) []))))

/-- R421 to R425, R257, R258: PQC and SMPL gather their tile and close it at EOT; ACPT draws and sends its decision, RNGE sends
64 random words for each token, STCNT merges one count token of each source, STADD two. -/
def Obligations.SelectionElements : Prop := ∀ (s f f2 : State) (b : Blk) (i j : Item) (us : List Nat) (w : Word) (h : List Nat)
    (hs : List (List Nat)),
  let x := siteOf s
  let t := eType b
  let f1 := popAll f x [0]
  let e := f.elem x
  let m := bMod b
  let ws := tokenFields 0x1D (itemBytes i)
  let pair := fun (k : Nat) => ws.getD k 0 + ws.getD (k + 1) 0 * 2 ^ 32
  let src := statSources (planeOf (f.core s.turn).grid x.sh)
  let keys := tokenFields t (itemBytes i)
  let count := fun (z : Item) => unpackBits 32 8 ((itemBytes z).take 32)
  ElemFree s f b →
  (TokensAt s f [0] [i] →
    (m.testBit 6 = true → e.cnt + keys.length ≤ 2 ^ 24 → ∃ u, exec (.pqc b) s = leaves s b u ∧
      (u.elem x).items = (keys.zip ((List.range 64).map fun l => 64 * e.index.headD 0 + l)).foldl (rankIn b) e.items ∧
      (u.elem x).cnt = e.cnt + keys.length) ∧
    (smplRes b = false → e.items.length + 64 ≤ 2 ^ 20 → keys.length = 64 → exec (.smpl b) s =
      leaves s b (f1.modElem x fun y => { y with items := e.items ++ keys.zip (List.replicate 64 0) })) ∧
    (pair 2 ≠ 0 → pair 6 ≠ 0 → drawOnce f1 s.turn (bSrs b) = .ok (us, f2) → exec (.acpt b) s = leaves s b
      (emit f2 x b [boolToken (decide (us.headD 0 * pair 0 * pair 6 < pair 4 * pair 2 * 2 ^ 32))])) ∧
    (drawMany f1 s.turn (bSrs b) 16 = .ok (us, f2) → exec (.rnge b) s = leaves s b (emit f2 x b [rawToken us]))) ∧
  (ctlKind w = 2 → markReady f x (bStat b) w = true →
    ((∀ n, n ∈ slotsOf 0x380 m → MarkAt s f n w) → exec (.pqc b) s = leaves s b (markAction
      (emit (pqEmit b x (popAll f x (slotsOf 0x380 m))) x b [.ctl w]) x (bStat b) w)) ∧
    ((∀ n, n ∈ slotsOf 0x381 m → MarkAt s f n w) → ∀ u, smplClose b x (popAll f x (slotsOf 0x381 m)) = (u, true) →
      exec (.smpl b) s = leaves s b (markAction (emit u x b [.ctl w]) x (bStat b) w))) ∧
  (src.filterMap (fun n => (NMap.getD [] e.statq n).head?) = h :: hs → src.length = hs.length + 1 →
    exec (.stcnt b) s = leaves s b (emit0 (f.modElem x fun y => { y with
      statq := src.foldl (fun q n => NMap.put q n ((NMap.getD [] q n).drop 1)) y.statq }) x b
        [countItem (hs.foldl mergeCounts h)])) ∧
  (TokensAt s f [0, 1] [i, j] →
    exec (.stadd b) s = leaves s b (emit (popAll f x [0, 1]) x b [countItem (mergeCounts (count i) (count j))]))

/-! ### Events of the grid -/

/-- R396, R152, R153, R285, R351, R429, R417: a mark at an element's slot is consumed, sent on and acts; an element no mark reaches
swaps after the others; a drained core exchanges its planes, or halts with LOAD.10 for a stray token; a load ends with its
block in the shadow plane, or with LOAD.11, and none of these on a core that is stopped (R126, R170, R282); after a second an element with part of its operands halts the graph with GRID.9, a port with GRID.10. -/
def Obligations.GridEvents : Prop := ∀ (s f : State) (c k n i : Nat) (sh : Bool) (w v : Word) (blk : List Byte),
  let g := (s.core c).grid
  let x : Site := ⟨c, k, false⟩
  let y : Site := ⟨c, k, sh⟩
  let u := { s with turn := c, focus := (k, sh) }
  let b := Blk.ofWord w
  let op := wOp (wordAt s x)
  let moves := coreMoves (s.core c) = true ∧ (s.core c).cut = false
  ((planeOf g sh).words[k]? = some w → wOp w = 0x004 → head? s y 0 = some (.ctl v) → asMark (.ctl v) = some v →
    ElemFree u f b → MarkAt u f 0 v → markReady f y false v = true →
    exec (.elementMark c k sh) s = leaves u b (markAction (emit (pop f y 0) y b [.ctl v]) y false v)) ∧
  (g.armed = true → g.sh.valid = true → k < g.act.words.length → unmarked (g.act.words.getD k 0) = true →
    (∀ j, j < g.act.words.length → unmarked (g.act.words.getD j 0) = false → (s.elem ⟨c, j, false⟩).gone = true) →
    idleAt g false k = true → moves →
    exec (.wavefrontSwapUnmarked c k) s = .next (waveDone ((s.modElem x fun e => { e with swapped := true }).modGrid c
      fun g => { g with activity := NMap.del g.activity (placeAt s x) }) c)) ∧
  (g.draining = true → moves →
    (strayLink s c = none → gridDrained s c = true →
      exec (.drainGatedSwap c) s = .next (pump (s.modGrid c exchange) c) ∧
      (exchange g).act = g.sh ∧ (exchange g).sh = g.act ∧ (exchange g).draining = false ∧ (exchange g).armed = false) ∧
    (strayLink s c = none → gridDrained s c = false → exec (.drainGatedSwap c) s = .next s) ∧
    (strayLink s c = some (i, n) → exec (.drainGatedSwap c) s =
      .next (s.haltToken c 0x0AA (0x4000 + 4 * i + n) (linkArc s ⟨c, i, false⟩) (slotOrd s ⟨c, i, false⟩ n)))) ∧
  (¬moves → exec (.wavefrontSwapUnmarked c k) s = .next s ∧ exec (.drainGatedSwap c) s = .next s ∧
    exec (.gloadComplete c) s = .next s) ∧
  (g.lstate = 1 → moves → s.ecc.marks = [] → g.queue = [] → libraryBlock s c g.loading = some blk →
    ∃ t, exec (.gloadComplete c) s = .next t ∧ (t.core c).grid.lstate = 0 ∧ (t.core c).grid.sh = planeOfBlock c blk ∧
      (t.core c).grid.act = g.act ∧ (t.core c).regs = (s.core c).regs ∧ (t.core c).pc = (s.core c).pc ∧
      ∀ d, d ≠ c → t.core d = s.core d) ∧
  (g.lstate = 1 → moves → s.ueAt (libraryPlace s c g.loading) 4096 = some n → exec (.gloadComplete c) s =
    .next ((s.modGrid c fun g => { g with lstate := 3, lcause := 0x0AB }).haltGraph (s.core c).graph
      { cause := 0x0AB, core := coreName c })) ∧
  (op ≠ 0x2C0 → op ≠ 0x2C1 → waitedSecond s x = true →
    (partialSet s x = true → (linkedSlots (wordAt s x)).find? (fun n => (head? s x n).isSome) = some n →
      exec (.gridWatchdog c k) s = .next (s.haltToken c 0x0B9 (0x4000 + 4 * k + n) (linkArc s x) (slotOrd s x n))) ∧
    (partialSet s x = false → exec (.gridWatchdog c k) s = .next s)) ∧
  ((op = 0x2C0 ∨ op = 0x2C1) → portWaited s x = false → exec (.portWaitTimeout c k) s = .next s) ∧
  ((op = 0x2C0 ∨ op = 0x2C1) → portWaited s x = true →
    exec (.portWaitTimeout c k) s = .next (s.haltToken c 0x0BA (0x4000 + 4 * k) (linkArc s x) (slotOrd s x 0)))

/-! ### Events of firings and ring windows -/

/-- R121, R122, R136: a firing starts when, and only when, its tokens and its space suffice; it sets sr.actor and
sr.phase, clears the port counts and sends the CP to the firing routine. A drained actor sends its drain tokens and has
no further entry of the sequencer. R135, R137: the mode controller takes a token, refuses one whose set the image
does not declare with MODE.0, and otherwise holds every sequencer, for the largest period begun once it knows those of
every package; a sequencer that has completed it stops; with all stopped on every package and every window at its ante
the new set is in force from period 0, and with a window that is not the graph halts with MODE.14. With one package not
stopped 10 ms after the last of the others it halts with MODE.15. -/
def Obligations.FiringAndModeEvents : Prop :=
  (∀ (s : State) (c : Nat) (p : Nat × Nat) (w : Word32) (j i : Nat) (g : Graph),
   let k := s.core c
   let a := fld w 30 28
   let ph := fld w 27 24
   let per := max k.period (p.2 + 1)
   sequencing s c = true → headEntry s c = some (p, w) → s.ecc.marks = [] →
   (mayBegin k p.2 = true →
     (∀ q, q < 16 → rateOf s c a k.rset ph q ≤ tokensAt s c a q) →
     (∀ q, 16 ≤ q → q < 32 → rateOf s c a k.rset ph q ≠ 0 → spaceFor s c a q (rateOf s c a k.rset ph q) = true) →
     ∃ t, exec (.firingStart c) s = .next t ∧ OnlyCore s t c ∧ (t.core c).run = .running ∧
       (t.core c).pc = actorRoutine s c a ∧ fld (t.core c).phase 3 0 = ph ∧ bitAt (t.core c).phase 63 = true ∧
       fld (t.core c).phase 10 8 = k.rset ∧ fld (t.core c).actor 2 0 = a ∧ fld (t.core c).actor 63 16 = per % 2 ^ 48 ∧
       (∀ q, ((t.core c).port a (q % 32)).cnt = 0) ∧ (∀ b q, b ≠ a → (t.core c).port b (q % 32) = k.port b (q % 32)) ∧
       (t.core c).regs = k.regs ∧ (t.core c).descs = k.descs) ∧
   (∀ q, q < 16 → tokensAt s c a q < rateOf s c a k.rset ph q → exec (.firingStart c) s = .next s) ∧
   (∀ q, 16 ≤ q → q < 32 → rateOf s c a k.rset ph q ≠ 0 → spaceFor s c a q (rateOf s c a k.rset ph q) = false →
     exec (.firingStart c) s = .next s) ∧
   a ∉ k.drainedActors ∧
   ((∀ q, q < 16 → rateOf s c a k.rset ph q ≠ 0 → drainAt s c a q = true) → j < 16 →
     tokensAt s c a j < rateOf s c a k.rset ph j → drainHeld s c a = false →
     exec (.actorDrain c) s = .next (drainActor s c a) ∧
     (s.graph? k.graph = some g → actorIndex s c a = some i → (sinkList s g.img).contains i = false →
       a ∈ ((drainActor s c a).core c).drainedActors ∧
       ∀ q, 16 ≤ q → q < 32 → (((drainActor s c a).core c).port a q).drained = true))) ∧
  (∀ (s : State) (c m tok who seq : Nat) (h : Word32) (g : Graph) (rest : List (Nat × Nat × Nat)),
   let k := s.core c
   let begun := (g.cores.map fun x => (s.core x.2).period) ++ (enginesOf s h.toNat).map fun x => enginePeriods g x.2
   let took := s.modGraph h.toNat fun g => { g with modeCtl := { g.modeCtl with waiting := rest } }
   let s1 := s.modCore c fun k => { k with seqMode := { k.seqMode with stopped := true } }
   let others := g.coord = none ∧ ∀ p, p ∈ otherPackages s g → ∃ x, x ∈ g.peers.stopped ∧ x.1 = p
   s.graph? h.toNat = some g → g.phase = .running →
   (g.modeCtl.waiting = (tok, who, seq) :: rest → g.cutSince = none → g.modeCtl.step = 0 → g.coord = none →
     (who ≠ 0 → releaseHeld s (who - 1) .deck seq false = false) →
     (nSets g.img ≤ tok % 8 → exec (.modeTokenAccept h) s = .next (tellSender (took.notifyGraph h.toNat { cause := 0x070 }) who seq
       (modeOutcome 0 tok 0x070))) ∧
     (tok % 8 < nSets g.img → otherPackages s g ≠ [] → ∃ t M, exec (.modeTokenAccept h) s = .next t ∧ M ∈ 0 :: begun ∧
       (∀ p, p ∈ begun → p ≤ M) ∧ (t.graph? h.toNat).map Graph.modeCtl =
         some { g.modeCtl with waiting := rest, step := 2, set := tok % 8, target := M, sender := who, token := tok, seq := seq } ∧
       ∀ q, q ∈ s.coresOf h.toNat → (t.core q).seqMode = { holding := true, reported := some (s.core q).period }) ∧
     (tok % 8 < nSets g.img → otherPackages s g = [] → ∃ t M, exec (.modeTokenAccept h) s = .next t ∧ M ∈ 0 :: begun ∧ (∀ p, p ∈ begun → p ≤ M) ∧
       (t.graph? h.toNat).map Graph.modeCtl =
         some { g.modeCtl with waiting := rest, step := 4, set := tok % 8, target := M, sender := who, token := tok, seq := seq } ∧
       (∀ q, q ∈ s.coresOf h.toNat → (t.core q).seqMode = { holding := true, reported := some (s.core q).period, target := some M }) ∧
       (who ≠ 0 → (s.core (who - 1)).modeTok.isSome = true → (s.core (who - 1)).modeSeq = seq →
         (t.core (who - 1)).modeRes = some (modeOutcome M tok 0)))) ∧
   (k.graph = h.toNat → k.seqMode.target = some m → periodDone s c m = true →
     ((g.modeCtl.step ≠ 4 ∨ quiescent s1 h.toNat g = false) → exec (.sequencerStop c) s = .next s1) ∧
     (g.modeCtl.step = 4 → quiescent s1 h.toNat g = true → windowsAnte s1 h.toNat = true → ¬others →
       exec (.sequencerStop c) s = .next (noteStopped s1 h.toNat s.links.pkg)) ∧
     (g.modeCtl.step = 4 → quiescent s1 h.toNat g = true → windowsAnte s1 h.toNat = true → others → ∃ t, exec (.sequencerStop c) s = .next t ∧
       (t.graph? h.toNat).map (fun g => (g.modeCtl.inForce, g.modeCtl.step)) = some (g.modeCtl.set, 0) ∧
       ∀ q, q ∈ s.coresOf h.toNat → (t.core q).rset = g.modeCtl.set % 8 ∧ (t.core q).period = 0 ∧ (t.core q).head = 0 ∧
         (t.core q).seqMode = {}) ∧
     (g.modeCtl.step = 4 → quiescent s1 h.toNat g = true → windowsAnte s1 h.toNat = false →
       exec (.sequencerStop c) s = .next (s1.haltCopied h.toNat { cause := 0x07E }))) ∧
   (spans g.img = true → g.coord = none → g.modeCtl.step = 4 →
     (∃ p, (packagesOf g.img).filter (fun p => !(g.peers.stopped.any fun x => x.1 == p)) = [p]) →
     (nanos 10000000 ≤ g.gtime → (∀ x, x ∈ g.peers.stopped → x.2 + nanos 10000000 ≤ g.gtime) →
       exec (.modeXpkgTimeout h) s = .next (s.haltGraph h.toNat { cause := 0x07F })) ∧
     ((∃ x, x ∈ g.peers.stopped ∧ g.gtime < x.2 + nanos 10000000) → exec (.modeXpkgTimeout h) s = .next s)))

/-- R130, R131: a producer's token reaches the window of its consumer with its pointer: the bytes stand in the slot of
token WRPTR, and WRPTR covers it; a pointer beyond the window halts the graph with RING.5. The consumer's read pointer
reaches the producer's descriptor as its mirror, or leaves as credit on a Herlo channel (R75), once the reads of what it
frees are done (R218). R455, R115: a memory source, with room for its whole firing, reads token f at ADDR + f × TSIZE and
sends it; after its last token it sends a drain token; a memory sink that holds the tokens of its firing writes token f,
the oldest it holds, at that address. -/
def Obligations.PointerAndActorEvents : Prop :=
  (∀ (s : State) (c d : Nat) (m : PtrMsg) (r : Mirror) (ch : Channel),
   let k := s.core c
   let x := k.desc d
   let c' := peerCore c x
   let k' := s.core c'
   let y := k'.desc x.pdesc
   let moves := coreMoves k = true ∧ k.cut = false ∧ coreMoves k' = true ∧ s.ctxOf c' = s.ctxOf c
   let key := winBase c' + y.slotAt (m.wrptr - 1)
   (moves → k.outMsgs.find? (fun m => m.desc == d) = some m → m.drain = false → m.marks = [] → s.ecc.marks = [] →
     Memory.wf s.mem = true → releaseHeld s c (sendScope s c d) m.seq false = false →
     (k'.power = .running ∨ k'.power = .clockGated) → (shareAt s c d).size = 1 → y.valid = true → y.isOut = false → y.pkind = 0 →
     peerCore c' y = c →
     (y.wr.toNat ≤ m.wrptr → m.wrptr ≤ y.rd.toNat + y.cap → x.tcode = y.tcode → m.bytes.length = y.tsize → m.wrptr < 2 ^ 64 →
       ∃ t, exec (.wrptrWrite c d) s = .next t ∧ ((t.core c').desc x.pdesc).wr.toNat = m.wrptr ∧
         ((t.core c').desc x.pdesc).rd = y.rd ∧ (∀ j, j < y.tsize → memGet t.mem (key + j) = m.bytes.getD j 0) ∧
         SameOutside s t key y.tsize ∧ (∀ e, e ≠ x.pdesc → (t.core c').desc e = k'.desc e) ∧
         (t.core c).outMsgs = k.outMsgs.erase m ∧ (t.core c').regs = k'.regs ∧ ∀ e, e ≠ c → e ≠ c' → t.core e = s.core e) ∧
     ((m.wrptr < y.wr.toNat ∨ y.rd.toNat + y.cap < m.wrptr) →
       exec (.wrptrWrite c d) s = .next (let s1 := s.modCore c fun k => { k with outMsgs := k.outMsgs.erase m }
         s1.haltGraph k'.graph (windowNote s1 c' x.pdesc 0x065 (m.wrptr - 1))))) ∧
   (k.mirrors.find? (fun m => m.desc == d) = some r → (coreMoves k = false ∨ k.cut = true ∨ readsHeld s c r.seq = true) →
     exec (.rdptrMirror c d) s = .next s) ∧
   ((coreMoves k = false ∨ k.cut = true) → exec (.wrptrWrite c d) s = .next s) ∧
   (coreMoves k = true → k.cut = false → k.mirrors.find? (fun m => m.desc == d) = some r → readsHeld s c r.seq = false → x.pkind = 2 →
     (shareAt s c d).size = 1 → NMap.find s.links.channels x.stream = some ch → channelUp s ch = true →
     ∃ t, exec (.rdptrMirror c d) s = .next t ∧ NMap.find t.links.channels x.stream = some { ch with credited := r.rd } ∧
       (t.core c).mirrors = k.mirrors.erase r ∧ t.mem = s.mem ∧ ∀ e, e ≠ c → t.core e = s.core e) ∧
   (moves → k.mirrors.find? (fun m => m.desc == d) = some r → readsHeld s c r.seq = false → x.pkind = 0 → y.valid = true →
     y.isOut = true → r.rd < 2 ^ 64 → (shareAt s c' x.pdesc).size = 1 →
     ∃ t, exec (.rdptrMirror c d) s = .next t ∧ ((t.core c').desc x.pdesc).rd.toNat = r.rd ∧ ((t.core c').desc x.pdesc).wr = y.wr ∧
       (∀ e, e ≠ x.pdesc → (t.core c').desc e = k'.desc e) ∧ t.mem = s.mem ∧ ∀ e, e ≠ c → e ≠ c' → t.core e = s.core e)) ∧
  (∀ (s s1 : State) (n : Nat) (a : MemActor) (g : Graph) (p : PortRec) (ps : List (Nat × Nat))
     (bs t : List Byte) (rest : List (List Byte)),
   let desc := engineDesc g.img (n % 64)
   let va := ((desc.getD 0 0).toNat + a.f * p.tsize) % 2 ^ 64
   let total := fld (desc.getD 2 0) 63 32 / max p.tsize 1
   let key := ctxStream (a.graph / 2 ^ 28) a.stream
   let rate := engineRate g a p
   let on := fun (ld st : Bool) => engineReach s (a.graph / 2 ^ 28) va p.tsize ld st = .ok ps ∧
     refusedMeanwhile s (engineCore n) 0x1000 = none ∧ kittyFirst s ps = none ∧
     staleReplica s (engineCore n) ps = false ∧ farBytes s ps = 0
   let tokens := fun (s : State) => (NMap.getD ({} : DeckStream) s.streams key).tokens
   NMap.find s.actors n = some a → s.graph? a.graph = some g → g.phase = .running → g.cutSince = none → g.modeCtl.step = 0 →
   enginePort g.img a.actor = some p →
   (a.sink = false → a.f < total → rate ≠ 0 → (a.cnt ≠ 0 ∨ sourceRoom s a g (min (a.f + rate) total - 1) = true) →
     on true false → readPieces (engineCore n) ps [] s = (.ok bs, s1) → ∃ u, exec (.memoryActorFiring n) s = .next u ∧
       u = sourceSend (setActor s1 n (a.moved rate)) n a g a.f bs false ∧
       ((sourceArcs g a).2 = true → tokens u = tokens s1 ++
         [{ desc := 0, wrptr := a.ante + a.f + 1, bytes := bs, marks := [], drain := false }])) ∧
   (a.sink = false → a.f < total → rate ≠ 0 → a.cnt = 0 → sourceRoom s a g (min (a.f + rate) total - 1) = false →
     exec (.memoryActorFiring n) s = .next s) ∧
   (a.sink = false → total ≤ a.f → a.drained = false → ∃ u, exec (.memoryActorFiring n) s = .next u ∧
     (u.graph? a.graph).map Graph.srcDrained = some true ∧ (NMap.find u.actors n).map MemActor.drained = some true ∧
     ((sourceArcs g a).2 = true → tokens u = tokens s ++
       [{ desc := 0, wrptr := a.ante + a.f, bytes := [], marks := [], drain := true }])) ∧
   (a.sink = true → a.drained = false → rate ≠ 0 → a.cnt = 0 → a.window.length < rate → a.drainIn = false →
     exec (.memoryActorFiring n) s = .next s) ∧
   (a.sink = true → a.drained = false → rate ≠ 0 → (a.cnt ≠ 0 ∨ rate ≤ a.window.length) → a.window = t :: rest → sinkUp s g p = false →
     exec (.memoryActorFiring n) s = .next s) ∧
   (a.sink = true → a.drained = false → rate ≠ 0 → (a.cnt ≠ 0 ∨ rate ≤ a.window.length) → a.window = t :: rest → sinkUp s g p = true →
     on false true →
     exec (.memoryActorFiring n) s = .next (let u := writePieces ps t (setActor s n { a.moved rate with window := rest })
       if arcKind g.img p.arc = 2 then sendCredit u (channelOf g p.arc) (a.f + 1) else u)))

/-! ### Events of queue entries, of the homes and of management's tables -/

/-- R192 to R199, R228, R333, R336: an access is translated, performed at its home with the response of its operation,
completes in program order and releases its source, and in a cut none is performed and none completes (R282, R283); a local atomic unanswered for 1 ms completes with ATM.14, and a
WAITQ or POPQ that has waited 1 s raises CPX.12. R203, R204: a request to a parked page joins its home's kitty, the
first with XLT.12; refused by a full share it is sent again; once management releases the page its requests are
performed in their order, with XLT.14; declined, they complete with XLT.4. -/
def Obligations.QueueAndKittyEvents : Prop :=
  (∀ (s : State) (c q x pa sh f t0 : Nat) (d : Reg) (p : QNum),
   let k := s.core c
   let e := k.entry q
   let acc := entryAcc e
   let put := fun (e' : QEntry) => (Host.Outcome.next (s.modCore c fun k => k.setEntry q e') : Result)
   let xlat := translateSpan k.tlb s x e.addr e.bytes acc.ld acc.st e.mode
   let led := fun (d : Dest) (ps : List (Nat × Nat)) => (Host.Outcome.next (s.modCore c fun k =>
     { k.setEntry q { e with dest := d, pa2 := xlat.pa2, parks := ps } with
       tlb := holdSpan 4 k.tlb x e.addr e.bytes acc.ld acc.st e.mode xlat }) : Result)
   let old := ofLe (s.read pa e.bytes)
   let w := 8 * e.bytes
   let v := e.data
   let news := [(QOp.stq, v), (.aadd, (old + v) % 2 ^ w), (.amin, if sgn w v < sgn w old then v else old),
     (.amax, if sgn w old < sgn w v then v else old), (.aminu, min v old), (.amaxu, max v old), (.aand, old &&& v), (.aor, old ||| v),
     (.axor, old ^^^ v), (.aswp, v), (.acas, if old = e.cmp then v else old), (.asnap, 0)]
   (q < 16 → e.busy = true → e.done = false → e.performed = false → e.mode ≠ .m → e.dest = .none → (entryOp e).isSome = true →
     s.ctxOf c = some x →
     (linkFault s e.addr e.bytes xlat = none →
       (xlat.out = .ok pa → exec (.translationWalk c q) s = led (.phys pa) []) ∧
       (xlat.out = .parked pa sh → exec (.translationWalk c q) s = led (.parked pa) xlat.parks)) ∧
     (linkFault s e.addr e.bytes xlat = some f →
       exec (.translationWalk c q) s = put { e with performed := true, fault := f, resp := 0 }) ∧
     (xlat.out = .fault f → f ≠ 0x035 → f ≠ 0x036 → f ≠ 0x037 →
       exec (.translationWalk c q) s = put { e with performed := true, fault := f, resp := 0 }) ∧
     (xlat.out = .fault f → (f = 0x035 ∨ f = 0x036 ∨ f = 0x037) → exec (.translationWalk c q) s =
       .next (copyMgmt (s.modCore c fun k => k.setEntry q { e with performed := true, fault := f, resp := 0 }) c f e.addr))) ∧
   (q < 16 → e.busy = true → e.done = false → e.performed = false → inKitty s c q = false → e.ann = .rlx →
     k.run ≠ .graphHalted → k.run ≠ .frozen → k.cut = false → e.dest = .phys pa → s.links.pkg = 0 → pa + e.bytes ≤ 2 ^ 39 → 0 < e.bytes →
     firstPart e = e.bytes → kittyHas s pa = false → doubleHeld s c q e pa = false → s.ecc.marks = [] → Memory.wf s.mem = true →
     (e.op = .access .ldq → exec (.homePerform c q) s = put { e with performed := true, fault := 0, resp := old }) ∧
     (∀ n ∈ news, e.op = .access n.1 → ∃ t, exec (.homePerform c q) s = .next t ∧
       (t.core c).entry q = { e with performed := true, fault := 0, resp := if n.1 = .stq then 0 else old } ∧
       (∀ j, j < e.bytes → memGet t.mem (pa + j) = BitVec.ofNat 8 (n.2 / 256 ^ j)) ∧ SameOutside s t pa e.bytes ∧
       (t.core c).regs = k.regs ∧ (t.core c).pc = k.pc ∧ ∀ a, a ≠ c → t.core a = s.core a)) ∧
   (e.busy = true → e.performed = true → e.done = false → State.earlierDone k e.seq = true → k.cut = false →
     exec (.queueEntryComplete c q) s =
       .next (s.modCore c fun k => (k.setEntry q { e with done := true, released := true }).wake)) ∧
   (k.cut = true → exec (.queueEntryComplete c q) s = .next (s.setCore c k)) ∧
   (q < 16 → e.ann = .rlx → e.done = false → k.run = .running → k.cut = true → k.deckq = [] → exec (.homePerform c q) s = .next s) ∧
   (e.busy = true → e.storeType = true → e.released = false →
     (∀ n, n ∈ k.entries → n.2.busy = true → n.2.storeType = true → n.2.released = false → e.seq ≤ n.2.seq) →
     exec (.sourceReleased c q) s = put { e with released := true }) ∧
   (e.busy = true → e.done = false → ((entryOp e).map qopAtomic) = some true → (e.dest = .phys pa ∨ e.dest = .parked pa) →
     isLocal s pa = true → e.issuedAt + 5 * 1000000 ≤ s.clock c → exec (.localAtomicTimeout c q) s = .next (copyMgmt
       ({ s with kitty := s.kitty.filter fun p => !(p.core == c && p.q == q) }.completeEntry c q 0x04E 0) c 0x04E e.addr)) ∧
   (∀ i ∈ [Instr.waitqSrc d p, .waitqVis d p, .popq d p], instrAtPc s c = some i →
     cpReady s c = true → k.waitSince = some t0 → t0 + 5 * 1000000000 ≤ s.clock c →
     exec (.queueWaitTimeout c) s = .next (s.trapAt c 0x01C p.toNat k.pc))) ∧
  (∀ (s : State) (c q x page pa sh : Nat) (p : Parked) (y : Nat × Nat),
   let k := s.core c
   let e := k.entry q
   let home := State.homeOf (pa % 2 ^ 45 / 2 ^ sh * 2 ^ sh)
   let here := s.kitty.filter fun p => p.home == home
   let entered : Parked := { ctx := x, page := e.addr / 4096, home := home, core := c, q := q, pa := pa % 2 ^ 45, sh := sh }
   let own := { e with dest := .phys pa, parks := [] }
   let freed := (unpark s [p]).modCore c fun k => k.setEntry q own
   (q < 16 → e.busy = true → e.done = false → e.performed = false → e.op = .access .stq → inKitty s c q = false → e.ann = .rlx →
     k.run ≠ .graphHalted → k.run ≠ .frozen → k.cut = false → e.dest = .parked pa → isLocal s pa = true → s.ctxOf c = some x → c < 12 * 192 →
     e.parks = [(pa, sh)] → firstPart e = e.bytes → joinHeld s c q e pa (pa, sh) = false →
     (s.clock c < NMap.getD 0 k.retries q → exec (.kittyResend c q) s = .next s) ∧
     (NMap.getD 0 k.retries q ≤ s.clock c →
     ((256 ≤ here.length ∨ 16 ≤ (here.filter fun p => p.ctx == x).length) → exec (.kittyResend c q) s =
       .next (s.modCore c fun k => { k with retries := NMap.put k.retries q (s.clock c + 5 * 1000) })) ∧
     (here.length < 256 → (here.filter fun p => p.ctx == x).length < 16 → kittyHas s pa = true →
       exec (.kittyResend c q) s = .next { s with kitty := s.kitty ++ [entered] }) ∧
     (here.length < 256 → (here.filter fun p => p.ctx == x).length < 16 → kittyHas s pa = false → ∃ t,
       exec (.kittyResend c q) s = .next t ∧ t.kitty = s.kitty ++ [entered] ∧ t.mem = s.mem ∧ t.cores = s.cores ∧
         (s.mgmt.length < 4096 → s.mgmtLost = 0 →
           t.mgmt = s.mgmt ++ [{ cause := 0x03C, ctx := x, flags := 2, core := coreName c, detail := e.addr / 4096 * 4096 }])))) ∧
   (p.msg = none → p.frz = none → p.core = c → p.q = q → c < 12 * 192 → q < 16 → parkedFor s x page = [p] →
     ((e.busy = false ∨ e.performed = true) → exec (.kittyRelease x page) s =
       .next ((unpark s [p]).notify x { cause := 0x03E, detail := page * 4096 })) ∧
     (e.busy = true → e.performed = false → e.dest = .parked pa → e.parks = [y] → entryKitty freed own pa = none →
       doubleHeld freed c q own pa = true → exec (.kittyRelease x page) s =
         .next (freed.notify x { cause := 0x03E, detail := page * 4096 })) ∧
     (e.busy = true → e.performed = false → e.dest = .parked pa → e.parks = [y] → entryKitty freed own pa = none →
       doubleHeld freed c q own pa = false → exec (.kittyRelease x page) s = .next ((reachHome freed c q own pa).notify x { cause := 0x03E, detail := page * 4096 })) ∧
     (∃ t, exec (.kittyDecline x page) s = .next t ∧ (t.core c).entry q = { e with performed := true, fault := 0x034, resp := 0 } ∧
       t.mem = s.mem ∧ ∀ r, r ∈ t.kitty ↔ r ∈ s.kitty ∧ r ≠ p)))

/-- R196, R200, R201: management writes a range entry of a context, or refuses it with XLT.8; writes a row-remap descriptor, or
refuses it with XLT.11; and drops the translations of a range of pages, so that an access not yet at its home is translated
anew. -/
def Obligations.TableEvents : Prop := ∀ (s : State) (x i c q first last : Nat) (d0 d1 d2 d3 : Word) (k : Ctx),
  let e := (s.core c).entry q
  let clash := ∃ j f0 f1 f2 f3, (j, [f0, f1, f2, f3]) ∈ k.ranges ∧ j ≠ i ∧ bitAt f0 63 = true ∧ fld d0 47 12 ≤ fld f1 47 12 ∧
    fld f0 47 12 ≤ fld d1 47 12
  let reserved := fld d0 60 56 ≠ 0 ∨ fld d0 51 48 ≠ 0 ∨ fld d1 63 48 ≠ 0 ∨ fld d1 2 0 ≠ 0 ∨ 8 < fld d0 55 52 ∨
    fld d0 47 0 % (4096 * 64 * 2 ^ fld d0 55 52) ≠ 0
  NMap.find s.ctxs x = some k →
  (i < 16 → fld d0 47 12 ≤ fld d1 47 12 → (bitAt d0 63 = false ∨ ¬clash) →
    ∃ t e0 e1 e2, exec (.rangeEntryWrite x i d0 d1 d2 d3) s = .next t ∧
      t = s.modCtx x (fun k => { k with ranges := NMap.put k.ranges i [e0, e1, e2, 0] }) ∧ bitAt e0 63 = bitAt d0 63 ∧
      bitAt e0 62 = bitAt d0 62 ∧ bitAt e0 61 = bitAt d0 61 ∧ bitAt e0 60 = bitAt d0 60 ∧ fld e0 47 12 = fld d0 47 12 ∧
      fld e1 47 12 = fld d1 47 12 ∧ fld e2 56 12 = fld d2 56 12) ∧
  (i < 16 → (fld d1 47 12 < fld d0 47 12 ∨ (bitAt d0 63 = true ∧ clash)) → exec (.rangeEntryWrite x i d0 d1 d2 d3) s =
    .next (s.tellMgmt { cause := 0x038, ctx := x, detail := i })) ∧
  (i < 64 → ¬reserved → exec (.remapDescriptorWrite x i d0 d1) s =
    .next (s.modCtx x fun k => { k with remaps := NMap.put k.remaps i [d0, d1] })) ∧
  (i < 64 → reserved → exec (.remapDescriptorWrite x i d0 d1) s = .next (s.tellMgmt { cause := 0x03B, ctx := x, detail := i })) ∧
  (∃ t, exec (.pageInvalidate x first last) s = .next t ∧ t.mem = s.mem ∧ t.ctxs = s.ctxs ∧ t.links = s.links ∧
    (s.ctxOf c = some x → e.busy = true → e.performed = false → e.done = false → e.mode ≠ .m → inKitty s c q = false →
      s.links.outbox = [] → (∀ h g, (h, g) ∈ s.graphs → g.image = none) → e.addr / 4096 ≤ last → first ≤ (e.addr + e.bytes - 1) / 4096 →
      (t.core c).entry q = { e with dest := .none, pa2 := 0, parks := [] }) ∧
    ((last < e.addr / 4096 ∨ (e.addr + e.bytes - 1) / 4096 < first) → (t.core c).entry q = e) ∧
    (t.core c).regs = (s.core c).regs ∧ (t.core c).pc = (s.core c).pc)

/-! ### Events of streams, barriers and time-outs of the engines -/

/-- R356, R359, R360, R363, R443: a stream command starts at the head of its queue, moves a burst at a time, releases
its source once all of it is read and becomes visible once all is written, leaving its queue; an SWAIT that has waited
a second raises STRM.12, an MXWAIT MTX.13. R372, R373, R282: an arrival whose release holds is counted at its barrier's
instance, at the package that has it, and leaves no core that is stopped; a phase with P arrivals is complete. -/
def Obligations.StreamAndBarrierEvents : Prop :=
  (∀ (s : State) (c e : Nat) (m : StrCmd) (rest : List StrCmd) (t0 : Nat) (a : Reg) (u : BitVec 2)
     (ps : List (Nat × Nat)) (s1 : State) (bs : List Byte),
   let k := s.core c
   let x := k.engine e
   let va := streamAddr m.chain m.addr m.pos
   let n := burstLen m.chain m.addr m.pos m.bytes
   let free := refusedMeanwhile s c (16 + e) = none ∧ kittyFirst s ps = none ∧ staleReplica s c ps = false ∧ farBytes s ps = 0
   let rd : Side := ⟨m.xmode, m.xwin, va, n, false⟩
   let wr : Side := ⟨m.xmode, m.xwin, va, n, true⟩
   x.queue = m :: rest →
   (m.started = false → m.kind < 2 → engineOk k = true →
     exec (.streamStart c e) s = .next (modEngine (setHead s c e { m with started := true }) c e fun x => { x with held := [], rows := [] })) ∧
   (m.started = true → engineOk k = true →
     (m.kind = 0 → m.lkind = 1 → m.pos < m.bytes → sideReach s c e m rd = .ok ps → free →
       readPieces c ps [] (sideHold s c e m rd) = (.ok bs, s1) →
       exec (.streamBurst c e) s = .next (streamMoved (s1.setTile c (m.loff + m.pos) bs) c e n m [])) ∧
     (m.kind = 1 → m.lkind = 1 → m.pos < m.bytes → s.ecc.marks = [] →
       sideReach s c e m wr = .ok ps → free → exec (.streamBurst c e) s =
         .next (streamMoved (writePieces ps (s.read (winBase c + m.loff + m.pos) n) (sideHold s c e m wr)) c e n m [])) ∧
     (∀ f, m.kind = 0 → m.lkind = 1 → m.pos < m.bytes → sideReach s c e m rd = .fault f →
       exec (.streamBurst c e) s = .next (s.haltReached k.graph { streamNote s c e m with cause := f }))) ∧
   (m.started = true → m.released = false →
     (sourceDone m = true → exec (.streamSourceReleased c e) s =
       .next (modEngine (setHead s c e { m with released := true }) c e fun x => { x with released := x.released + 1 })) ∧
     (sourceDone m = false → exec (.streamSourceReleased c e) s = .next s)) ∧
   (m.started = true → m.released = true → engineOk k = true → m.follow = false → m.kind < 2 → m.visible = false →
     (sinkDone s c m = true → ∃ t, exec (.streamVisible c e) s = .next t ∧ OnlyCore s t c ∧
       (t.core c).engine e = { x with queue := rest, visible := x.visible + 1 }) ∧
     (sinkDone s c m = false → exec (.streamVisible c e) s = .next s)) ∧
   (cpReady s c = true → k.waitSince = some t0 → t0 + 5 * 1000000000 ≤ s.clock c →
     (∀ i ∈ [Instr.swaitSrc a, .swaitVis a], instrAtPc s c = some i → exec (.swaitTimeout c) s = .next (s.trapAt c 0x0CC 0 k.pc)) ∧
     (instrAtPc s c = some (.mxwait a u) → exec (.mxwaitTimeout c) s =
       .next ((s.modCore c fun k => { k with mxWait := none }).trapAt c 0x0DD 0 k.pc)))) ∧
  (∀ (s : State) (c n p seq : Nat) (rest : List (Nat × Nat)) (g : Graph) (i : BarInst),
   let m : CoreBar := NMap.getD {} (s.core c).bars n
   let key := barKey n m.scope c
   let h := (s.core c).graph
   let had := NMap.getD 0 i.counts p
   m.onWay = (p, seq) :: rest → s.graph? h = some g → barInst g key = some i →
   ((releaseHeld s c m.scope seq true = true ∨ coreMoves (s.core c) = false ∨ (s.core c).cut = true) →
     exec (.barrierArrival c n) s = .next s) ∧
   (releaseHeld s c m.scope seq true = false → coreMoves (s.core c) = true → (s.core c).cut = false → g.coord.isSome = true →
     m.scope = .dom → ∃ t, exec (.barrierArrival c n) s = .next t ∧ (NMap.getD ({} : CoreBar) (t.core c).bars n).onWay = rest ∧
       (t.graph? h).bind (fun g => barInst g key) = some i) ∧
   (releaseHeld s c m.scope seq true = false → coreMoves (s.core c) = true → (s.core c).cut = false → (g.coord = none ∨ m.scope ≠ .dom) → ∃ t j, exec (.barrierArrival c n) s = .next t ∧
     (NMap.getD ({} : CoreBar) (t.core c).bars n).onWay = rest ∧ (t.graph? h).bind (fun g => barInst g key) = some j ∧
     j.p = i.p ∧ j.scope = i.scope ∧ i.c ≤ j.c ∧
     (p = i.c → i.p ≤ had + 1 → i.c < j.c) ∧
     (0 < i.p → p = i.c → had + 1 < i.p → j.c = i.c ∧ NMap.getD 0 j.counts p = had + 1) ∧ t.mem = s.mem))

/-! ### Events in the life of a graph -/

/-- R144, R146, R164 to R168, R370: a launch request creates a graph under the next handle of its context, or completes with
SCHED.0, SCHED.1 or SCHED.13; the Dealer refuses an image at its first failing check or queues it and gives the launch its
ticket; the scheduler admits a waiting graph whose resources are there, refuses one that can never have them, and otherwise
lets it wait, or freezes its victims. A graph not placed 100 ms after its creation is refused with DEAL.10. -/
def Obligations.LaunchAndAdmission : Prop := ∀ (s : State) (c q x f n : Nat) (k' : Ctx) (h : Word32) (g : Graph) (p : AdmitPlan),
  let k := s.core c
  let e := k.entry q
  let new := x * 2 ^ 28 + k'.nextSeq
  let img := s.read (storeBase s + g.off) (g.pages * 4096)
  let H := h.toNat
  (e.busy = true → e.op = .launch → e.performed = false → e.released = false → coreMoves k = true → k.cut = false →
    launchAway s e.data = false → releaseHeld s c .deck e.seq true = false → s.ctxOf c = some x → NMap.find s.ctxs x = some k' →
    (queueFull s x = true → exec (.launchRequest c q) s = .next (s.completeEntry c q 0x140 0)) ∧
    (queueFull s x = false → e.data % 4 < k'.maxpri → exec (.launchRequest c q) s = .next (s.completeEntry c q 0x141 0)) ∧
    (queueFull s x = false → k'.maxpri ≤ e.data % 4 →
      (directory s e.addr = none → exec (.launchRequest c q) s = .next (s.completeEntry c q 0x14D 0)) ∧
      (∀ off pages, directory s e.addr = some (off, pages) → ∃ t, exec (.launchRequest c q) s = .next t ∧
        t.graph? new = some { handle := new, imageid := e.addr, off := off, pages := pages, cls := e.data % 4, arrival := s.order
                              created := s.time, launcher := some (c, q) } ∧
        (t.core c).entry q = { e with released := true } ∧
        (NMap.find t.ctxs x).map Ctx.nextSeq = some (if k'.nextSeq + 1 = 2 ^ 28 then 1 else k'.nextSeq + 1) ∧ t.mem = s.mem))) ∧
  (s.graph? H = some g →
    (((refuse s H f).graph? H).map fun g => (g.phase, g.cause)) = some (Phase.refused, f) ∧
    (g.phase = .validating → g.created + 5 * 100000000 ≤ s.time → exec (.placementTimeout h) s = .next (refuse s H 0x09A)) ∧
    (s.time < g.created + 5 * 100000000 → exec (.placementTimeout h) s = .next s) ∧
    (g.phase = .validating → storeOn s = true → s.ecc.marks = [] →
      (imageFault s (H / 2 ^ 28) g.imageid g.pages img = some f → exec (.imageValidation h) s = .next (refuse s H f)) ∧
      (imageFault s (H / 2 ^ 28) g.imageid g.pages img = none → g.launcher = some (c, q) → e.busy = true → e.done = false →
        State.earlierDone k e.seq = true → k.cut = false → e.op = .launch → ∃ t, exec (.imageValidation h) s = .next t ∧
        ((t.graph? H).map fun g => (g.phase, g.arrival)) = some (Phase.queued, s.order) ∧
        ((t.core c).entry q).done = true ∧ ((t.core c).entry q).fault = 0 ∧
        ((t.core c).entry q).resp = s.links.pkg * 2 ^ 32 + H)) ∧
    (waiting s = [H] → candidate s (H, g) = true → g.image = none →
      (planFor s H g = .error f → g.coord = none → exec .graphAdmit s = .next (refuse s H f)) ∧
      (planFor s H g = .error f → g.coord.isSome = true → exec .graphAdmit s =
        .next ((s.notifyGraph H { cause := f, flags := 1 }).failLoad H)) ∧
      (planFor s H g = .ok none → chooseVictims s H g = [] → exec .graphAdmit s = .next s) ∧
      (planFor s H g = .ok none → chooseVictims s H g = [n] → exec .graphAdmit s = .next (s.requestFreeze n 0)) ∧
      (planFor s H g = .ok (some p) → ∃ t, exec .graphAdmit s = .next t ∧ t = takeResources s H g p ∧
        ((t.graph? H).map fun g => (g.phase, g.cores, g.grant)) = some (Phase.loading, p.cores, p.grant) ∧
        t.deck.calendar = p.slots.foldl (fun m x => NMap.put m x.1 x.2) s.deck.calendar)) ∧
    (g.phase = .running → 5 * 2000000 ≤ g.gtime - g.admitted →
      exec (.victimMinRunTime h) s = .next (schedule s) ∧ exec .graphAdmit s = .next (schedule s)) ∧
    (g.phase = .running → g.gtime - g.admitted < 5 * 2000000 → exec (.victimMinRunTime h) s = .next s))

/-- R148 to R150: a core reports its shadow state; once every core has, a graph within one package is committed, and
the wave swaps each core's copies: registers and handler stay, the rest is what the image says. A failed or missing
report aborts the load: its cores are free again and the graph waits again. R78, R79: a graph that spans packages is
committed by GO: at the package that coordinates it once every package has reported success, at another when GO comes
after its own report; it is aborted by ABORT, by a failure (DEAL.13) or by a report missing after 10 ms (LINK.8); a halt on
another package halts it here with LINK.15. -/
def Obligations.CommitEvents : Prop :=
  (∀ (s : State) (c H : Nat) (h : Word32) (g : Graph) (sh : Shadow) (cause : BitVec 9),
   let k := s.core c
   let rest := fun (l : List Nat) => g.cores.all fun x => x.2 == c || l.contains x.2
   (s.graph? k.graph = some g → g.phase = .loading → g.reported.contains c = false → reportReady s c = true →
     (cause ≠ 0 → exec (.shadowReport c cause) s = .next (reportFailure s k.graph c cause.toNat)) ∧
     ∃ t, exec (.shadowReport c 0) s = .next t ∧ (t.core c).grid.lstate = 2 ∧ (t.core c).regs = k.regs ∧ t.mem = s.mem ∧
       (t.graph? k.graph).map Graph.reported = some (c :: g.reported) ∧
       (rest g.reported = false → (t.graph? k.graph).map Graph.phase = some .loading) ∧
       (rest g.reported = true → (t.graph? k.graph).map Graph.decided = some true ∧
         (t.graph? k.graph).map Graph.phase = some (if spans g.img then .loading else .committing) ∧
         (spans g.img = true → g.coord.isSome = true → t.links.report = some (s.links.pkg, k.graph, true)))) ∧
   (s.graph? k.graph = some g → g.phase = .committing → k.shadow = some sh → g.acked.contains c = false → s.ecc.marks = [] →
     (rest g.acked = false → ∃ t, exec (.commitSwap c) s = .next t ∧ (t.graph? k.graph).map Graph.acked = some (c :: g.acked) ∧
       (t.graph? k.graph).map Graph.phase = some .committing ∧ (t.core c).regs = k.regs ∧ (t.core c).vector = k.vector ∧
       (t.core c).codewin = sh.codewin ∧ (t.core c).descs = sh.descs ∧ (t.core c).run = .betweenFirings ∧
       (t.core c).mode = sh.mode ∧ (t.core c).eclass = sh.eclass ∧ (t.core c).entries = [] ∧ (t.core c).phase = 0 ∧
       (t.core c).actor = 0 ∧ (t.core c).shadow = none ∧ ∀ d, d ≠ c → t.core d = s.core d) ∧
     (rest g.acked = true → g.image = none → g.frzSince = none → ∃ t, exec (.commitSwap c) s = .next t ∧
       (t.graph? k.graph).map Graph.phase = some .running ∧
       (t.core c).codewin = sh.codewin ∧ (t.core c).descs = sh.descs)) ∧
   (s.graph? h.toNat = some g → g.phase = .loading → g.decided = false →
     (g.loadSince + 5 * 1000000 ≤ g.gtime → exec (.statusTimeout h) s = .next (abortCounted s h.toNat { cause := 0x0A8 })) ∧
     (g.gtime < g.loadSince + 5 * 1000000 → exec (.statusTimeout h) s = .next s)) ∧
   (s.graph? H = some g → g.image = none → ((s.abortLoad H).graph? H).map (fun g => (g.phase, g.decided, g.reported)) =
       some (Phase.queued, false, []) ∧ (s.abortLoad H).mem = s.mem ∧
     ∀ d, d ∈ s.coresOf H → ((s.abortLoad H).core d).graph = 0 ∧ ((s.abortLoad H).core d).shadow = none ∧
       ((s.abortLoad H).core d).regs = (s.core d).regs)) ∧
  (∀ (s : State) (h : Word32) (pkg : Nat) (g : Graph),
   let H := h.toNat
   let all := ∀ p, p ∈ packagesOf g.img → p ∈ g.pkgOk
   s.graph? H = some g → spans g.img = true →
   (g.phase = .loading → g.coord = none → pkg ∈ packagesOf g.img →
     (∃ t, exec (.packageReport h pkg true) s = .next t ∧ t.mem = s.mem ∧ t.cores = s.cores ∧
       (t.graph? H).map Graph.phase = some .loading ∧ ∃ l, (t.graph? H).map Graph.pkgOk = some l ∧
         ∀ p, p ∈ l ↔ p = pkg ∨ p ∈ g.pkgOk) ∧
     ∃ t, exec (.packageReport h pkg false) s = .next t ∧ t.mem = s.mem ∧
       ((t.graph? H).map fun g => (g.phase, g.cause)) = some (Phase.refused, 0x09D)) ∧
   (g.phase = .loading → g.decided = true → all ∨ g.coord.isSome = true → ∃ t, exec (.xpkgGo h) s = .next t ∧ t.cores = s.cores ∧
     (t.graph? H).map Graph.phase = some .committing) ∧
   (g.phase = .loading → g.coord = none → ¬all → exec (.xpkgGo h) s = .next s) ∧
   (g.phase = .loading → g.coord = none → exec (.xpkgAbort h) s = .next (s.abortLoad H)) ∧
   (g.phase = .loading ∨ g.phase = .queued → g.coord.isSome = true → exec (.xpkgAbort h) s = .next (s.dropPeer H)) ∧
   (g.phase = .loading → g.coord = none → ¬all → g.admitted + 5 * 10000000 ≤ g.gtime →
     exec (.xpkgReportTimeout h) s = .next ((s.abortLoad H).notifyGraph H { cause := 0x118 })) ∧
   exec (.peerHalt h) s = .next (s.haltGraph H { cause := 0x11F }))

/-- R79, R169 to R172, R177, R178: a freeze stops each core where it stands, its streams at the end of their tokens; with all stopped, their deck operations sent and
the sections of the other packages there, the image is written by the package that coordinates the graph, the graph is frozen
and its cores are free; there, an image that cannot be written, or a freeze that takes too long, halts the graph with
SCHED.10; a stop releases the graph at once, or after the freeze that is in progress. Before the decision point of a load a
freeze aborts the load. -/
def Obligations.FreezeEvents : Prop := ∀ (s : State) (c : Nat) (h : Word32) (g : Graph) (since : Nat),
  let k := s.core c
  let H := h.toNat
  let img := freezeImage s H g
  let late : Notice := { cause := 0x14A, flags := 2 }
  let settled := ∀ x, x ∈ g.cores → x.2 ∈ g.frzCores ∧ deckSettled (s.core x.2) = true
  let ready := settled ∧ ∀ p, p ∈ otherPackages s g → p ∈ g.peers.sections.map Prod.fst
  (k.graph = H → s.graph? H = some g → g.phase = .freezing → g.frzCores.contains c = false → ∃ t,
    exec (.freezeWave c) s = .next t ∧ (t.core c).run = .frozen ∧ (k.run ≠ .frozen → (t.core c).frozeAs = k.run) ∧
      (t.core c).regs = k.regs ∧ (t.graph? H).map Graph.frzCores = some (if s.splitToken c then g.frzCores else c :: g.frzCores) ∧
      t.mem = s.mem ∧ ∀ d, d ≠ c → t.core d = s.core d) ∧
  (s.graph? H = some g → g.supervisor = true → exec (.freezeRequest h) s = .next s ∧ exec (.graphStop h) s = .next s) ∧
  (s.graph? H = some g → g.supervisor = false →
    (g.phase = .running → exec (.freezeRequest h) s = .next (s.modGraph H fun g =>
      { g with phase := .freezing, origin := 3, frzSince := some g.gtime, frzCores := [] })) ∧
    (g.phase = .committing → g.frzSince = none → exec (.freezeRequest h) s = .next (s.modGraph H fun g =>
      { g with frzSince := some g.gtime, origin := 3 })) ∧
    (g.phase = .loading → g.coord = none → exec (.freezeRequest h) s = .next (s.abortLoad H)) ∧
    (g.phase = .loading → g.coord.isSome = true → exec (.freezeRequest h) s = .next (s.dropPeer H)) ∧
    (g.phase = .freezing → exec (.graphStop h) s = .next (s.modGraph H fun g => { g with dropImage := true })) ∧
    (g.phase ≠ .freezing → g.phase ≠ .halted → g.phase ≠ .retired → g.phase ≠ .refused →
      ∃ t, exec (.graphStop h) s = .next t ∧ t.mem = s.mem ∧
      ((t.graph? H).map fun g => (g.phase, g.cause)) = some (Phase.retired, 0x14C) ∧
      ∀ d, d ∈ s.coresOf H → (t.core d).graph = 0 ∧ (t.core d).run = .idle)) ∧
  (s.graph? H = some g → g.phase = .freezing →
    (ready → g.coord = none → g.dropImage = false → img.length ≤ g.frzLen → Memory.wf s.mem = true → ∃ t, exec (.freezeComplete h true) s = .next t ∧
      ((t.graph? H).map fun g => (g.phase, g.held, g.image.isSome)) = some (Phase.frozen, g.origin == 2, true) ∧
      (∀ j, j < img.length → memGet t.mem (g.frzAt + j) = img.getD j 0) ∧ SameOutside s t g.frzAt img.length ∧
      ∀ d, d ∈ s.coresOf H → (t.core d).graph = 0) ∧
    (settled → g.coord.isSome = true → g.dropImage = false → img.length ≤ g.frzLen → ∃ t, exec (.freezeComplete h true) s = .next t ∧
      ((t.graph? H).map fun g => (g.phase, g.held, g.image.isSome)) = some (Phase.frozen, true, true) ∧ t.mem = s.mem ∧
      ∀ d, d ∈ s.coresOf H → (t.core d).graph = 0) ∧
    (¬settled → exec (.freezeComplete h true) s = .next s) ∧
    (ready → g.dropImage = false → exec (.freezeComplete h false) s =
      .next ((s.tellMgmt (s.graphNotice H late)).haltGraph H late)) ∧
    (ready → g.dropImage = true → ∃ t, exec (.freezeComplete h true) s = .next t ∧
      ((t.graph? H).map fun g => (g.phase, g.cause)) = some (Phase.retired, 0x14C)) ∧
    (g.coord = none → g.frzSince = some since → since + waveBound g ≤ g.gtime →
      exec (.freezeTimeout h) s = .next ((s.tellMgmt (s.graphNotice H late)).haltGraph H late)) ∧
    (g.frzSince = some since → g.gtime < since + waveBound g → exec (.freezeTimeout h) s = .next s))

/-- R105, R156 to R161, R179: a context is created from a partition descriptor that management, which runs, accepts, with its ports
and its supervisor graph in S mode, or refused with SCHED.11; halted, its running graphs freeze first, and with none left to freeze
its supervisor stops and SCHED.12 says so; resumed, it goes on; destroyed, nothing of it is left. Its oldest notice enters the notice
port of its supervisor. -/
def Obligations.ContextEvents : Prop := ∀ (s : State) (desc : List Byte) (x i : Nat) (k : Ctx) (r : Notice) (rest : List Notice),
  let new := ctxFrom desc
  let sup := new.supCard * 192 + new.supIdx
  let c := k.supCard * 192 + k.supIdx
  let n := s.core c
  let d := n.desc i
  let key := winBase c + d.slotAt d.wr.toNat
  (s.managementUp = false → exec (.contextCreate desc) s = .next s) ∧
  (s.managementUp = true → partBad s desc = true → exec (.contextCreate desc) s = .next (s.tellMgmt { cause := 0x14B })) ∧
  (s.managementUp = true → partBad s desc = false → (List.range 16).find? (fun x => (NMap.find s.ctxs x).isNone) = some x → ∃ t,
    exec (.contextCreate desc) s = .next t ∧
    NMap.find t.ctxs x = some { new with supHandle := x * 2 ^ 28 + 1, nextSeq := 2, ptroot := Config.tableRoot x } ∧
    ((t.graph? (x * 2 ^ 28 + 1)).map fun g => (g.phase, g.supervisor, g.cores)) = some (Phase.running, true, [(new.supIdx, sup)]) ∧
    (t.core sup).mode = .s ∧ (t.core sup).run = .betweenFirings ∧ (t.core sup).graph = x * 2 ^ 28 + 1 ∧
    (∀ p, p < 64 → new.inmask.testBit p = true →
      NMap.find t.host.ingress p = some { NMap.getD ({} : Ingress) s.host.ingress p with asgn := true, ctx := x }) ∧
    (∀ p, p < 64 → new.egmask.testBit p = true →
      NMap.find t.host.egress p = some { NMap.getD ({} : Egress) s.host.egress p with asgn := true, ctx := x })) ∧
  (NMap.find s.ctxs x = some k →
    (k.halted = true ∨ k.halting = true → exec (.contextHalt x) s = .next s) ∧
    (k.halted = false → k.halting = false → ∃ t, exec (.contextHalt x) s = .next t ∧ t.mem = s.mem ∧
      (∀ h g, s.graph? h = some g → h / 2 ^ 28 = x → g.supervisor = false → g.phase = .running →
        (t.graph? h).map Graph.phase = some .freezing ∧
        (NMap.find t.ctxs x).map (fun k => (k.halted, k.halting, k.notices)) = some (false, true, k.notices)) ∧
      (s.graphs.filter (fun hg => hg.1 / 2 ^ 28 == x && !hg.2.supervisor) = [] → k.notices = [] → k.suppressed = 0 →
        (NMap.find t.ctxs x).map (fun k => (k.halted, k.halting)) = some (true, false) ∧
        (NMap.find t.ctxs x).map Ctx.notices = some [{ cause := 0x14C, ctx := x, detail := 1 }])) ∧
    (∃ t, exec (.contextResume x) s = .next t ∧ NMap.find t.ctxs x = some { k with halted := false, halting := false } ∧
      (∀ y, y ≠ x → NMap.find t.ctxs y = NMap.find s.ctxs y) ∧ t.mem = s.mem ∧ t.graphs = s.graphs ∧
      ∀ e, t.core e = if e ∈ supervisorCores s x ∧ (s.core e).run = .halted then { s.core e with run := .running } else s.core e) ∧
    (NMap.wf s.ctxs = true → ∃ t, exec (.contextDestroy x) s = .next t ∧ NMap.find t.ctxs x = none ∧ t.mem = s.mem ∧
      (∀ h, h / 2 ^ 28 = x → t.graph? h = none) ∧ (∀ p y, (p, y) ∈ t.host.ingress → y.asgn = true → y.ctx ≠ x) ∧
      (∀ p y, (p, y) ∈ t.host.egress → y.asgn = true → y.ctx ≠ x) ∧ ∀ y, y ≠ x → NMap.find t.ctxs y = NMap.find s.ctxs y) ∧
    (k.notices = r :: rest → portDesc s c 0 0 = some i → n.graph = k.supHandle → coreMoves n = true → n.cut = false →
      0 < d.free → 0 < k.sent → d.tcode = 0x1D → d.tsize = 32 → d.wr.toNat + 1 < 2 ^ 64 → s.ecc.marks = [] →
      Memory.wf s.mem = true → ∃ t, exec (.noticeDelivery x) s = .next t ∧
        NMap.find t.ctxs x = some { k with notices := rest, sent := k.sent - 1, delivered := k.delivered + 1 } ∧
        ((t.core c).desc i).wr.toNat = d.wr.toNat + 1 ∧ (∀ j, j < 32 → memGet t.mem (key + j) = r.bytes.getD j 0) ∧
        SameOutside s t key 32 ∧ (t.core c).regs = n.regs ∧ ∀ e, e ≠ c → t.core e = s.core e))

/-! ### Events of halts, cuts, dumps and storage errors -/

/-- R126, R264, R266, R276, R280: a fatal fault halts its running graph: every core stops, the cause and the primary fault are
kept, the graph joins the dump queue of 64; with the queue full it has no dump and is released. A further fault of a halted
graph is added to its list. -/
def Obligations.FatalFaultHaltsGraph : Prop := ∀ (s : State) (h : Nat) (g : Graph) (n : Notice),
  let t := s.haltGraph h n
  s.graph? h = some g →
  (g.phase = .running → s.dump.queue.length < 64 →
    ((t.graph? h).map fun g => (g.phase, g.cause, g.primary.cause, g.primary.detail)) =
      some (Phase.halted, n.cause, n.cause, n.detail) ∧
    t.dump.queue = s.dump.queue ++ [h] ∧ t.mem = s.mem ∧
    (∀ c, c ∈ s.coresOf h → (t.core c).run = .graphHalted) ∧
    (h ≠ 0 → ∀ p e, (p, e) ∈ t.host.egress → e.graph ≠ h) ∧
    ∀ c, (t.core c).regs = (s.core c).regs) ∧
  (g.phase = .running → 64 ≤ s.dump.queue.length → (t.graph? h).map Graph.phase = some .halted ∧ t.dump.queue = s.dump.queue ∧
    ∀ c, c ∈ s.coresOf h → (t.core c).graph = 0) ∧
  (g.phase = .halted → g.faults.length < 64 → t.mem = s.mem ∧ t.cores = s.cores ∧ (t.graph? h).map Graph.primary = some g.primary ∧
    (t.graph? h).map (fun g => g.faults.length) = some (g.faults.length + 1))

/-- R105, R276 to R280, R282: a cut marker stops a core of the graph, its streams at the end of their tokens, the last one
completes the cut; a cut that takes too
long halts the graph with DBG.7. The dump engine takes the halted graphs in order; at the end of a dump its bytes and
the count of dumps stand, the graph's cores are free; an engine fault makes it partial; a remote store unresolved for
1 ms is recorded. R273, R275: the scrubber corrects a line, or raises ECC.12 and halts the graph that owns an
uncorrectable one; a failing HBM4 row is corrected and moved to a spare, with ECC.14. -/
def Obligations.CutDumpAndStorageEvents : Prop :=
  (∀ (s : State) (c q h since : Nat) (w : Word32) (g : Graph) (rest : List Nat)
     (o : Away),
   let k := s.core c
   let mine := s.graph? k.graph = some g
   let last := g.cores.all fun x => (c :: g.cutCores).contains x.2
   let dump := s.dump
   (mine → g.cutSince = some since → g.cutDone = false → g.cutCores.contains c = false → ∃ t, exec (.cutMarker c) s = .next t ∧
     (t.core c).cut = true ∧ (t.core c).regs = k.regs ∧ t.mem = s.mem ∧
     (s.splitToken c = false → ((t.graph? k.graph).map fun g => (g.cutCores, g.cutDone)) = some (c :: g.cutCores, last)) ∧
     (s.splitToken c = true → (t.graph? k.graph).map Graph.cutCores = some g.cutCores)) ∧
   (s.graph? w.toNat = some g → g.coord = none → g.cutSince = some since → g.cutDone = false →
     (since + waveBound g ≤ s.time → exec (.cutTimeout w) s = .next (s.haltGraph w.toNat { cause := 0x177 })) ∧
     (s.time < since + waveBound g → exec (.cutTimeout w) s = .next s)) ∧
   (s.dumperUp = false → exec .dumpStart s = .next s) ∧
   (s.dumperUp = true → dump.current = none → dump.queue = h :: rest → s.graph? h = some g → ∃ t, exec .dumpStart s = .next t ∧ t.mem = s.mem ∧
     t.cores = s.cores ∧ t.dump.current = some h ∧ t.dump.queue = rest ∧ t.dump.since = s.time ∧ t.dump.stores = pendingStores s g ∧
     ∀ p, p ∈ t.kitty → p.msg = none → p.core ∉ g.cores.map Prod.snd) ∧
   (dump.current = some h → s.graph? h = some g →
     (storesAway s g = true → exec .dumpComplete s = .next s) ∧
     (storesAway s g = false → Memory.wf s.mem = true → ∃ t, exec .dumpComplete s = .next t ∧ t.dump.current = none ∧ t.dump.queue = dump.queue ∧
       t.dump.written = dump.written + 1 ∧ (∀ d, d ∈ s.coresOf h → (t.core d).graph = 0) ∧
       SameOutside s t (Config.dumpBase + dump.next) (Config.dumpSize - dump.next)) ∧
     (∃ t, exec .dumpEngineFault s = .next t ∧ t.dump.current = none ∧ t.dump.written = dump.written + 1 ∧
       ∀ d, d ∈ s.coresOf h → (t.core d).graph = 0) ∧
     (onWay s c q = some o → k.graph = h → dump.since + 5 * 1000000 ≤ s.time → entryPending (k.entry q) = true →
       ∃ t, exec (.pendingRemoteExpiry c q) s = .next t ∧ t.dump.stores = dump.stores ++ [entryRecord s c q 1] ∧
         t.links.outbox = s.links.outbox.erase o ∧ t.mem = s.mem ∧ t.cores = s.cores))) ∧
  (∀ (s : State) (a u : Nat),
   let line := a / 64 * 64
   let row := a / 4096
   let l := State.ueLocation u
   let place := l.2.1 * 2 ^ 44 + l.2.2.1 * 2 ^ 40 + l.2.2.2.1
   (scrubbed line = true → s.ueAt line 64 = none → exec (.scrubStep a) s = .next (s.correct line 64)) ∧
   (scrubbed line = true → s.ueAt line 64 = some u → exec (.scrubStep a) s = .next
     (((s.correct line 64).tellMgmt (s.graphNotice (ownerOf s u) { cause := 0x16C, detail := place })).haltLocation
       (ownerOf s u) l.1 l.2.1 l.2.2.1 l.2.2.2.1)) ∧
   (∀ b n, (s.correct b n).mem = s.mem ∧ (s.correct b n).cores = s.cores ∧
     ∀ m, m ∈ (s.correct b n).ecc.marks ↔ m ∈ s.ecc.marks ∧ (m.2 = true ∨ touchesWord b n m.1 = false)) ∧
   (s.managementUp = false → exec (.hbmRowSpare a) s = .next s) ∧
   (s.managementUp = true → a < 2 ^ 39 → ∃ t, exec (.hbmRowSpare a) s = .next t ∧ t.mem = s.mem ∧ t.cores = s.cores ∧ row ∈ t.ecc.spared ∧
     ∀ r, r ∈ s.ecc.spared → r ∈ t.ecc.spared))

/-! ### Events of the deck -/

/-- R41, R44, R46, R47, R49 to R51, R53, R59, R105: a granted slot of the frame carries its stream's tokens, or stays idle; a layer's credit
slot carries its pointers, at most 256; a frame lasts 409.6 ns and the next begins with slot 0; the hub takes a calendar entry or a
window range, or refuses it with DECK.13; a card with no core in use sleeps, DECK.15 otherwise, and its replica is
stale. R55, R56, R60: an operation sent in a window slot that arrives without error is queued at every layer that receives it; a layer applies its oldest operation whole: a write its bytes, an atomic its new value, whose old value goes to
the issuer; return records and notices cross in service slots; a waking card's replica is copied 4 KiB a slot and is
no longer stale once it has the whole copy and nothing queued; a card whose wake is not complete in time sleeps again, and the
graphs admitted on it wait again. -/
def Obligations.DeckEvents : Prop :=
  (∀ (s : State) (suit slot layer i x base size : Nat) (w : Word32) (g : Graph),
   let e := slotEntry s suit slot
   let key := ctxStream (fld e 26 23) (fld e 15 0)
   let st : DeckStream := NMap.getD {} s.streams key
   let sent := streamCarry key suit slot (settle s slot)
   let cslot := if slotAhead s 3 (448 + 2 * layer) then 448 + 2 * layer else 449 + 2 * layer
   let ready := passSlot (settle s cslot) 3 cslot
   (s.graph? st.graph = some g → g.phase = .running → g.cutSince = none →
     (slotFor s suit slot 1 = true → st.mem = false → streamLayer st = fld e 30 27 →
       exec (.streamDataSlot suit slot) s = .next sent) ∧
     (slotFor s suit slot 4 = true → st.mem = true → fld e 30 27 = 12 →
       exec (.memoryActorResponseSlot suit slot) s = .next sent)) ∧
   (slotFor s suit slot 1 = true → (st.mem = true ∨ streamLayer st ≠ fld e 30 27) →
     exec (.streamDataSlot suit slot) s = .next (idleSlot (settle s slot) suit slot)) ∧
   (slotFor s suit slot 4 = true → (st.mem = false ∨ streamLayer st ≠ fld e 30 27) →
     exec (.memoryActorResponseSlot suit slot) s = .next (idleSlot (settle s slot) suit slot)) ∧
   (layer < 12 → cardAsleep s layer = false → slotAhead s 3 cslot = true →
     exec (.creditSlot layer) s = .next (endSlot ((creditsOf ready layer).foldl creditRecord ready) (creditHead layer cslot)
       (creditBytes ((creditsOf ready layer).map fun x => (streamKey ready x.1 ((ready.core x.1).desc x.2.1).stream, x.2.2.rd))))) ∧
   (layer = 12 → slotAhead s 3 cslot = true → exec (.creditSlot layer) s = .next (endSlot ((hubCredits ready).foldl hubCredit ready)
     (creditHead 12 cslot) (creditBytes ((hubCredits ready).map fun x => (x.1, x.2.2))))) ∧
   (∀ l, (creditsOf s l).length ≤ 256 ∧ (hubCredits s).length ≤ 256) ∧
   (s.deck.asleepHits = [] → s.deck.wakes = [] → (∀ l, pendingAt s l = []) → ∃ t, exec .frameBoundary s = .next t ∧
     t.deck.frame = (s.deck.frame + 1) % 2 ^ 48 ∧ t.deck.slotPos = 0 ∧ t.time = s.time + 2048 ∧ t.mem = s.mem ∧ t.cores = s.cores) ∧
   (i < 2048 → slotReserved i = false → fld w 30 27 ≤ 12 → (fld w 22 20 = 1 ∨ fld w 22 20 = 4) →
     s.fusedAsleep.testBit (fld w 30 27) = false → s.dealerUp = true → exec (.calendarWrite i w) s =
       .next { s with deck := { s.deck with calendar := NMap.put s.deck.calendar i (w &&& 0xFFF0FFFF#32) } }) ∧
   (s.dealerUp = true → calendarBad s i w = true → exec (.calendarWrite i w) s = .next (s.tellMgmt { cause := 0x10D, detail := i })) ∧
   (s.dealerUp = false → exec (.calendarWrite i w) s = .next s) ∧
   (s.managementUp = false → exec (.dkwinRangeWrite x base size) s = .next s ∧ exec (.cardSleep layer) s = .next s) ∧
   (s.managementUp = true → base + size ≤ 256 → (∀ n k, (n, k) ∈ s.ctxs → n ≠ x → rangesMeet k.dkbase k.dksize base size = false) →
     exec (.dkwinRangeWrite x base size) s = .next (s.modCtx x fun k => { k with dkbase := base, dksize := size })) ∧
   (s.managementUp = true → 256 < base + size → exec (.dkwinRangeWrite x base size) s = .next (s.tellMgmt { cause := 0x10D, ctx := x })) ∧
   (layer < 12 → s.managementUp = true → cardAsleep s layer = false →
     (cardHeld s layer = true → exec (.cardSleep layer) s = .next (s.tellMgmt { cause := 0x10F, detail := layer })) ∧
     (cardHeld s layer = false → NMap.wf s.deck.pending = true → ∃ t, exec (.cardSleep layer) s = .next t ∧ isStale t layer = true ∧ pendingAt t layer = [] ∧
       t.deck.asleep.testBit layer = true ∧ t.cores = s.cores ∧ t.mem = s.mem))) ∧
  (∀ (s : State) (suit slot layer c x : Nat) (o : DeckOp) (rest : List DeckOp)
     (hub : List HubItem) (w : Wake),
   let e := slotEntry s suit slot
   let quiet := (∀ l, pendingAt s l = []) ∧ s.deck.struck = []
   let wire := fun (t : State) => (NMap.find t.deck.wire suit).map SlotSent.bytes
   let key := replicaBase layer + o.off
   let issuer := o.card * 192 + o.index
   let n := opBytes o
   let old := ofLe (s.read key n)
   let v := ofLe o.bytes
   let copy := ((s.deck.frame - w.f0 - 1) * 32 + (slot - 480)) * 4096
   (slotFor s suit slot 2 = true → quiet → deckHead s (fld e 30 27) (fld e 26 23) false = some (c, o) → o.atomic = false →
     ∃ t p, exec (.windowWriteSlot suit slot) s = .next t ∧ (t.core c).deckq = (s.core c).deckq.drop 1 ∧
       (t.core c).deckOut = (s.core c).deckOut + 1 ∧ t.mem = s.mem ∧ p.off = o.off ∧ p.bytes = o.bytes ∧ p.atomic = false ∧
       p.card = o.card ∧ p.slot = slot ∧ p.suit = suit ∧ p.fseq = s.deck.frame ∧ wire t = some o.bytes ∧
       ∀ l, l < 13 → pendingAt t l = if receives s l s.deck.frame then [p] else []) ∧
   (slotFor s suit slot 2 = true → quiet → deckHead s (fld e 30 27) (fld e 26 23) true = some (c, o) → o.atomic = true → o.aop < 2 →
     ∃ t p, exec (.deckAtomicSlot suit slot) s = .next t ∧ (t.core c).deckq = (s.core c).deckq.drop 1 ∧ t.mem = s.mem ∧
       p.off = o.off ∧ p.bytes = o.bytes ∧ p.aop = o.aop ∧ p.cmp = o.cmp ∧ p.q = o.q ∧ p.atomic = true ∧ wire t = some o.slotBytes ∧
       ∀ l, l < 13 → pendingAt t l = if receives s l s.deck.frame then [p] else []) ∧
   (layer < 13 → NMap.find s.deck.wakes layer = none → pendingAt s layer = o :: rest → s.ecc.marks = [] → Memory.wf s.mem = true →
     (s.deck.frame * 512 * 4 + s.deck.slotPos < 4 * (512 * o.fseq + o.slot + 1) → exec (.replicaApply layer) s = .next s) ∧
     (4 * (512 * o.fseq + o.slot + 1) ≤ s.deck.frame * 512 * 4 + s.deck.slotPos → o.atomic = false → ∃ t, exec (.replicaApply layer) s = .next t ∧ pendingAt t layer = rest ∧
       (∀ j, j < o.bytes.length → memGet t.mem (key + j) = o.bytes.getD j 0) ∧ SameOutside s t key o.bytes.length ∧
       (layer = o.card → (t.core issuer).deckOut = (s.core issuer).deckOut - 1) ∧ ∀ d, (t.core d).regs = (s.core d).regs) ∧
     (4 * (512 * o.fseq + o.slot + 1) ≤ s.deck.frame * 512 * 4 + s.deck.slotPos → o.atomic = true → ∃ t, exec (.replicaApply layer) s = .next t ∧ pendingAt t layer = rest ∧
       (∀ j, j < n → memGet t.mem (key + j) =
         BitVec.ofNat 8 ((if o.aop = 0 then (old + v) % 2 ^ (8 * n) else if old = o.cmp then v else old) / 256 ^ j)) ∧
       SameOutside s t key n ∧
       (layer = o.card → ((s.core issuer).entry o.q).busy = true → ((s.core issuer).entry o.q).done = false →
         ((t.core issuer).entry o.q).performed = true ∧ ((t.core issuer).entry o.q).resp = old) ∧
       (layer = 12 → o.viaHub = true → o.card < 12 →
         t.deck.hub = s.deck.hub ++ [.record o.card o.index o.q old]))) ∧
   (serviceSlot s slot = true → roundActive s = false → quiet →
     (s.deck.hub = .notice x :: hub → ∃ t, exec (.noticeSlot slot) s = .next t ∧ t.deck.hub = hub ∧ t.mem = s.mem ∧
       t.cores = s.cores ∧ (NMap.find t.ctxs x).map Ctx.sent = (NMap.find s.ctxs x).map (fun k => k.sent + 1)) ∧
     (∀ card index tag val, s.deck.hub = [.record card index tag val, .notice x] → roundAwaited s card = true → ∃ t,
       exec (.noticeSlot slot) s = .next t ∧ t.deck.hub = [.record card index tag val] ∧ t.mem = s.mem ∧ t.cores = s.cores) ∧
     (∀ card index tag val, s.deck.hub = [.record card index tag val] → roundAwaited s card = false → ((s.core (card * 192 + index)).entry tag).busy = true →
       ((s.core (card * 192 + index)).entry tag).done = false → ∃ t, exec (.returnRecordSlot slot) s = .next t ∧ t.deck.hub = [] ∧
         ((t.core (card * 192 + index)).entry tag).performed = true ∧ ((t.core (card * 192 + index)).entry tag).resp = val)) ∧
   (serviceSlot s slot = true → slot < 512 → quiet → s.deck.wakes = [(layer, w)] → layer < 12 → w.f0 < s.deck.frame →
     s.deck.frame ≤ w.f0 + 8 → Memory.wf s.mem = true → ∃ t, exec (.refreshCopySlot slot) s = .next t ∧
       (NMap.find t.deck.wakes layer) = some { w with copied := w.copied + 4096 } ∧ t.cores = s.cores ∧
       SameOutside s t (replicaBase layer + copy) 4096 ∧
       ∀ j, j < 4096 → memGet t.mem (replicaBase layer + copy + j) = memGet s.mem (replicaBase 13 + copy + j)) ∧
   (layer < 12 → NMap.wf s.deck.wakes = true → NMap.find s.deck.wakes layer = some w → w.f0 + 8 < s.deck.frame → w.copied = 0x100000 →
     pendingAt s layer = [] → NMap.wf s.deck.stale = true → ∃ t, exec (.replicaApply layer) s = .next t ∧ isStale t layer = false ∧
       NMap.find t.deck.wakes layer = none ∧ t.mem = s.mem) ∧
   (layer < 12 → cardAsleep s layer = true → s.fusedAsleep.testBit layer = false → cardHeld s layer = true → ∃ t,
     exec (.cardWake layer) s = .next t ∧ isStale t layer = true ∧ (NMap.find t.deck.wakes layer).isSome = true ∧
       t.deck.waking.testBit layer = true ∧ t.deck.asleep.testBit layer = false ∧ t.mem = s.mem ∧ t.cores = s.cores) ∧
   (layer < 12 → NMap.find s.deck.wakes layer = some w → s.deck.waking.testBit layer = true →
     (s.deck.frame ≤ w.f0 + 12 → exec (.wakeSequenceTimeout layer) s = .next s) ∧
     (w.f0 + 12 < s.deck.frame → ∃ t, exec (.wakeSequenceTimeout layer) s = .next t ∧ t.deck.asleep.testBit layer = true ∧
       t.deck.waking.testBit layer = false ∧ t.mem = s.mem ∧
       ∀ h g, s.graph? h = some g → g.coord = none → admitted g = true → (∃ q, q ∈ g.cores ∧ q.2 / 192 = layer) →
         (t.graph? h).map Graph.phase = some (if g.image.isSome || g.thawed.isSome then .frozen else .queued))))

/-! ### Events of power, of the links, of the host and of the security block -/

/-- R30, R38 to R40: below 105 °C a card's sample ends the condition, at 105 °C it freezes the lowest-priority running graph,
again each millisecond, by an arbiter that was started (R105), at 115 °C and for over-current the card is shut down; a silent sensor counts as 105 °C; a droop
halts the island's graphs; the module limit is written within its bounds; an idle core is power-gated after 1 ms, and a
wake ends or aborts the load. -/
def Obligations.PowerEvents : Prop := ∀ (s : State) (card temp half c island t0 : Nat),
  let k := s.core c
  let read := { s with power := { s.power with hot := NMap.put s.power.hot card temp } }
  let droop : Notice := { cause := 0x157, flags := 2, detail := island }
  let lost := fun (r : Result) (s : State) (cause : Nat) => ∃ t, r = .next t ∧ (∀ i, i < 192 → (t.core (card * 192 + i)).power = .powerGated) ∧
    t = (List.range 192).foldl (fun s i => s.modCore (card * 192 + i) fun k => { k with power := .powerGated })
      ((graphsOn s card).foldl (fun s h => s.haltGraph h { cause := cause, detail := card })
        (s.tellMgmt { cause := cause, detail := card }))
  (s.arbiterUp = false → exec (.sensorSample card temp) s = .next s ∧ exec (.sensorSilent card) s = .next s ∧
    exec (.thermalRepeat card) s = .next s ∧ exec (.edgeViaOvercurrent card) s = .next s ∧ exec (.supplyDroop island) s = .next s) ∧
  (card < 12 → s.arbiterUp = true →
    (temp < 105 → exec (.sensorSample card temp) s =
      .next { read with power := { read.power with lastFreeze := NMap.del s.power.lastFreeze card } }) ∧
    (105 ≤ temp → temp < 115 → NMap.find s.power.lastFreeze card = none → exec (.sensorSample card temp) s = .next (heatFreeze read card)) ∧
    (115 ≤ temp → lost (exec (.sensorSample card temp) s) read 0x155) ∧
    lost (exec (.edgeViaOvercurrent card) s) s 0x15C ∧
    (temp ≤ 105 → NMap.getD 0 s.power.hot card = temp → exec (.sensorSilent card) s =
      .next (readHeat (s.tellMgmt { cause := 0x15D, detail := card }) card 105))) ∧
  (NMap.find s.power.lastFreeze card = some t0 →
    (s.arbiterUp = true → 105 ≤ NMap.getD 0 s.power.hot card → t0 + 5 * 1000000 ≤ s.time → exec (.thermalRepeat card) s = .next (heatFreeze s card)) ∧
    (s.time < t0 + 5 * 1000000 → exec (.thermalRepeat card) s = .next s)) ∧
  (∀ h g, runningGraphs s = [(h, g)] → s.graph? h = some g →
    ((heatFreeze s card).graph? h).map (fun g => (g.phase, g.origin)) = some (Phase.freezing, 1)) ∧
  (∀ h g h' g', runningGraphs s = [(h, g), (h', g')] → h ≠ h' → s.graph? h = some g → s.graph? h' = some g' → g.cls < g'.cls →
    ((heatFreeze s card).graph? h').map (fun g => (g.phase, g.origin)) = some (Phase.freezing, 1) ∧
    (heatFreeze s card).graph? h = some g) ∧
  (island < 64 → s.arbiterUp = true → (∃ t, exec (.supplyDroop island) s = .next t ∧ t.mem = s.mem ∧
      ∀ h g, s.graph? h = some g → g.phase = .running → inIsland g island = true → (t.graph? h).map Graph.phase = some .halted) ∧
    (s.graphs = [] → exec (.supplyDroop island) s = .next (s.tellMgmt droop))) ∧
  (s.managementUp = false → exec (.moduleLimitWrite half) s = .next s) ∧
  (s.managementUp = true → half ≤ 3200 → standingGrants s + 120 ≤ half →
    exec (.moduleLimitWrite half) s = .next { s with power := { s.power with limit := half } }) ∧
  (s.managementUp = true → 3200 < half → exec (.moduleLimitWrite half) s = .next (s.tellMgmt { cause := 0x15E, detail := half })) ∧
  (s.managementUp = true → half ≤ 3200 → half < standingGrants s + 120 →
    exec (.moduleLimitWrite half) s = .next (s.tellMgmt { cause := 0x15F, detail := half })) ∧
  (k.graph = 0 → k.power ≠ .waking → k.idleSince + 5 * 1000000 ≤ s.time →
    exec (.powerGate c) s = .next (s.modCore c fun k => { k with power := .powerGated })) ∧
  (k.graph ≠ 0 → exec (.powerGate c) s = .next s) ∧
  (k.power = .waking → (∃ t, exec (.coreWakeComplete c) s = .next t ∧ t.core c = { k with power := .clockGated } ∧ t.mem = s.mem ∧
      ∀ g, s.graph? k.graph = some g → g.phase = .loading → (t.graph? k.graph).map Graph.loadSince = some g.gtime) ∧
    (k.wakeSince + 5 * 100000 ≤ s.time → exec (.wakeTimeout c) s =
      .next (((s.failLoad k.graph).modCore c fun k => { k with power := .powerGated }).notifyGraph k.graph
        { cause := 0x158, core := coreName c })))

/-- R25, R66 to R72, R75, R77, R82, R83, R105: a request of another package is performed once within its import range, with
LINK.4 outside, its recorded answer given again; a response or the time-out completes the issuing entry; a token of a channel
lands in its window or memory sink and its credit frees the producer's places; a port retrains and holds its traffic, comes
back or goes down, halting or re-queueing the graphs with an arc on it; management that runs writes the tables of the
package. -/
def Obligations.LinkEvents : Prop := ∀ (s : State) (m : RemoteMsg) (c q ch i n rdptr ord since data : Nat) (cause : BitVec 9)
    (pkg : BitVec 12) (x : Channel) (r : Reply) (o : Away) (a : MemActor) (g : Graph) (bytes : List Byte) (late : Bool),
  let k := s.core c
  let e := k.entry q
  let d := k.desc i
  let p := s.core x.core
  let pd := p.desc x.desc
  let seen := s.links.seen.find? fun r => r.pkg == m.pkg && r.core == m.core && r.seq == m.seq.toNat
  let fresh := seen = none ∧ ∀ p y, p ∈ s.kitty → p.msg = some y → y.pkg ≠ m.pkg ∨ y.core ≠ m.core ∨ y.seq ≠ m.seq
  let key := winBase c + d.slotAt d.wr.toNat
  (routeUp s m.pkg = false → exec (.remoteRequest m) s = .next s) ∧
  (routeUp s m.pkg = true → seen = some r → exec (.remoteRequest m) s = .next ((sendReply s r false).countMgmt 0x11E)) ∧
  (routeUp s m.pkg = true → fresh → importOk s m = false →
    exec (.remoteRequest m) s = .next { s with links := { s.links with answer := some ⟨m.pkg, m.core, m.seq.toNat, 0x114, 0⟩ } }) ∧
  (routeUp s m.pkg = true → fresh → importOk s m = true → m.parked = none → kittyHas s m.addr = false → s.ecc.marks = [] → 0 < m.bytes → m.addr + m.bytes ≤ 2 ^ 39 →
    Memory.wf s.mem = true →
    (m.op = .ldq → ∃ t, exec (.remoteRequest m) s = .next t ∧ t.mem = s.mem ∧
      t.links.answer = some ⟨m.pkg, m.core, m.seq.toNat, 0, ofLe (s.read m.addr m.bytes)⟩) ∧
    (m.op = .stq → ∃ t, exec (.remoteRequest m) s = .next t ∧ t.links.answer = some ⟨m.pkg, m.core, m.seq.toNat, 0, 0⟩ ∧
      (∀ j, j < m.bytes → memGet t.mem (m.addr + j) = BitVec.ofNat 8 (m.data / 256 ^ j)) ∧ SameOutside s t m.addr m.bytes)) ∧
  (onWay s c q = some o →
    ((takesNone s c = true ∨ routeUp s o.pkg = false) → exec (.remoteResponse c q cause data) s = .next s) ∧
    (takesNone s c = false → routeUp s o.pkg = true →
      (q < 16 → entryOp e = some .ldq → exec (.remoteResponse c q cause data) s = .next ((leaveOutbox s o).completeEntry c q cause.toNat
        (if cause = 0 then data % 2 ^ (8 * e.bytes) else 0))) ∧
      (16 ≤ q → ∃ t, exec (.remoteResponse c q cause data) s = .next t ∧ t.links.outbox = s.links.outbox.erase o ∧
        t.links.inbox = s.links.inbox ++ [⟨c, q, cause.toNat, data⟩] ∧ t.mem = s.mem ∧ t.cores = s.cores)) ∧
    (c < 2304 → q < 16 → o.since + 5 * 1000000 ≤ s.clock c →
      exec (.remoteTimeout c q) s = .next ((leaveOutbox s o).completeEntry c q 0x115 0)) ∧
    (c < 2304 → s.clock c < o.since + 5 * 1000000 → exec (.remoteTimeout c q) s = .next s)) ∧
  (NMap.find s.links.channels ch = some x → channelUp s x = false → exec (.vcTokenArrival ch bytes late) s = .next s ∧
    exec (.vcCredit ch rdptr) s = .next s) ∧
  (NMap.find s.links.channels ch = some x → channelUp s x = true → channelSink s x = some (n, a) → s.graph? x.graph = some g →
    g.phase = .running → g.cutSince = none → a.window.length < (arcRec g.img x.arc).cap → bytes ≠ [] →
    channelType s x = (portRec g.img (arcRec g.img x.arc).dst).tcode → ∃ t, exec (.vcTokenArrival ch bytes late) s = .next t ∧
      (NMap.find t.actors n).map MemActor.window = some (a.window ++ [bytes]) ∧ t.mem = s.mem ∧ t.cores = s.cores ∧
      (NMap.find t.links.channels ch).map (fun y => (y.received, y.late)) = some (x.received + 1, if late then x.late + 1 else x.late)) ∧
  (NMap.find s.links.channels ch = some x → channelUp s x = true → 2304 ≤ x.core → channelDescs s ch = [] → ∃ t,
    exec (.vcCredit ch rdptr) s = .next t ∧ t.mem = s.mem ∧ t.cores = s.cores ∧
    (NMap.find t.links.channels ch).map Channel.rd = some (max x.rd rdptr)) ∧
  (NMap.find s.links.channels ch = some x → channelUp s x = true → channelSink s x = none →
    (arrivalWindow s ch x = some (c, i) → coreMoves k = true → k.cut = false → bytes ≠ [] → 0 < d.free → d.wr.toNat < d.cap + k.freedRd i → channelType s x = d.tcode →
      bytes.length = d.tsize → d.wr.toNat + 1 < 2 ^ 64 → s.ecc.marks = [] → Memory.wf s.mem = true →
      ∃ t, exec (.vcTokenArrival ch bytes late) s = .next t ∧ ((t.core c).desc i).wr.toNat = d.wr.toNat + 1 ∧
        (∀ j, j < d.tsize → memGet t.mem (key + j) = bytes.getD j 0) ∧ SameOutside s t key d.tsize ∧
        (NMap.find t.links.channels ch).map (fun y => (y.received, y.late)) = some (x.received + 1, if late then x.late + 1 else x.late)) ∧
    (arrivalWindow s ch x = some (c, i) → bytes ≠ [] → d.cap + k.freedRd i ≤ d.wr.toNat → exec (.vcTokenArrival ch bytes late) s = .next s) ∧
    (x.core < 2304 → channelDescs s ch = [(x.core, x.desc)] → sendHeld s ch rdptr x = true → exec (.vcCredit ch rdptr) s = .next s) ∧
    (x.core < 2304 → channelDescs s ch = [(x.core, x.desc)] → sendHeld s ch rdptr x = false → coreMoves p = true →
      (rdptr ≤ pd.wr.toNat → ∃ t, exec (.vcCredit ch rdptr) s = .next t ∧ t.mem = s.mem ∧
        ((t.core x.core).desc x.desc).rd.toNat = max pd.rd.toNat rdptr ∧ ((t.core x.core).desc x.desc).wr = pd.wr) ∧
      (pd.wr.toNat < rdptr → exec (.vcCredit ch rdptr) s =
        .next (s.haltGraph x.graph { windowNote s x.core x.desc 0x066 rdptr with chan := ch }))) ∧
    (arrivalWindow s ch x = some (c, i) → exec (.flitUncorrectable (.arc ch ord)) s =
      .next (s.haltGraph x.graph { windowNote s c i 0x11C ord with chan := ch }))) ∧
  exec (.flitUncorrectable (.request c q)) s = .next s ∧
  (n < 24 → s.links.retrain.testBit n = false → ∃ t, exec (.portRetrain n) s = .next t ∧ t.links.retrain.testBit n = true ∧
    t.links.up.testBit n = false ∧ t.cores = s.cores ∧ t.mem = s.mem) ∧
  (n < 24 → s.links.retrain.testBit n = true → (∃ t, exec (.portRetrained n) s = .next t ∧ t.links.retrain.testBit n = false ∧
      t.links.up.testBit n = true ∧ t.cores = s.cores ∧ t.mem = s.mem) ∧
    (NMap.find s.links.retrainSince n = some since → since + 5 * 10000000 ≤ s.time →
      (∃ t, exec (.portDown n false) s = .next t ∧ t.links.retrain.testBit n = false ∧
        ∀ h g, h ∈ portGraphs s n → s.graph? h = some g → g.phase = .running → (t.graph? h).map (fun g => (g.phase, g.cause)) = some (Phase.halted, 0x11F)) ∧
      ∃ t, exec (.portDown n true) s = .next t ∧ t.links.retrain.testBit n = false ∧
        ∀ h g, h ∈ portGraphs s n → s.graph? h = some g → g.coord = none → g.phase = .running → (t.graph? h).map Graph.phase = some .queued)) ∧
  (s.managementUp = false → exec (.domainEnumeration pkg) s = .next s) ∧
  (s.managementUp = true → ∃ t, exec (.domainEnumeration pkg) s = .next t ∧ t.links.pkg = pkg.toNat ∧ t.links.pkgSet = true ∧
    t.links.routes = Config.routes pkg.toNat ∧ t.mem = s.mem ∧ t.cores = s.cores ∧ t.host.ready = true)

/-- R87, R91 to R96, R136: the ingress stream and its faults, its credit words in host memory, the records that open, feed,
switch and close a graph, which wait while the graph is frozen, the drain of a closing port, and the port's EN and RST. -/
def Obligations.IngressEvents : Prop := ∀ (s : State) (n off : Nat) (bytes : List Byte) (h : RecHead) (g : Graph) (r : PortRec) (j v0 : Nat) (ws : List Nat),
  let p := ingressOf s n
  let set := fun (q : Ingress) => (Host.Outcome.next (setIngress s n q) : Result)
  let fault := fun (cause : Nat) => (Host.Outcome.next (ingressFault s n cause) : Result)
  let whole := recHead p = some h ∧ p.en = true ∧ recordsWait s p.graph = false ∧ h.bad = false ∧ recSize h ≤ p.buffer.length
  let key := hostStream p.graph j g
  let st : DeckStream := NMap.getD {} s.streams key
  let now := fun (t : State) => (NMap.getD ({} : DeckStream) t.streams key).tokens
  (n < 64 → bytes ≠ [] →
    (p.en = false → exec (.ingressWrite n off bytes false) s = .next (hostNote s 0x12D n)) ∧
    (p.en = true → exec (.ingressWrite n off bytes true) s = .next (setIngress (hostNote s 0x129 n) n { p with cause := 0x129 })) ∧
    (p.en = true → off ≠ p.expected % 2 ^ 20 → exec (.ingressWrite n off bytes false) s =
      .next (setIngress (hostNote s 0x120 n) n { p with cause := 0x120 })) ∧
    (p.en = true → off = p.expected % 2 ^ 20 → p.consumed + 262144 < p.expected + bytes.length →
      exec (.ingressWrite n off bytes false) s = .next (setIngress (hostNote s 0x121 n) n { p with cause := 0x121 })) ∧
    (p.en = true → off = p.expected % 2 ^ 20 → p.expected + bytes.length ≤ p.consumed + 262144 → p.st ≠ 4 →
      exec (.ingressWrite n off bytes false) s = set { p with
        expected := p.expected + bytes.length, buffer := p.buffer ++ bytes }) ∧
    (p.en = true → off = p.expected % 2 ^ 20 → p.expected + bytes.length ≤ p.consumed + 262144 → p.st = 4 →
      ∃ t, exec (.ingressWrite n off bytes false) s = .next t ∧ (ingressOf t n).buffer = [] ∧ (ingressOf t n).st = 4 ∧
        (ingressOf t n).expected = p.expected + bytes.length ∧ (ingressOf t n).consumed = p.consumed + p.buffer.length + bytes.length)) ∧
  (p.wbs = v0 :: ws → Memory.wf s.host.mem = true → ∃ t, exec (.creditWriteback n) s = .next t ∧ (ingressOf t n).wbs = ws ∧
    (∀ b, b < 8 → memGet t.host.mem (p.cwb.toNat + b) = BitVec.ofNat 8 (v0 / 256 ^ b)) ∧ t.mem = s.mem) ∧
  (recHead p = some h → p.en = true → p.st < 3 → recordsWait s p.graph = true → exec (.openRecord n) s = .next s ∧
    exec (.dataRecord n) s = .next s ∧ exec (.modeRecord n) s = .next s ∧ exec (.closeRecord n) s = .next s) ∧
  (whole → h.rtype = 1 → (p.st = 2 ∨ (p.st = 1 ∧ p.graph ≠ 0)) → exec (.openRecord n) s = fault 0x123) ∧
  (whole → h.rtype = 1 → p.st = 0 → directory s h.arg = none → exec (.openRecord n) s = fault 0x127) ∧
  (whole → h.rtype = 1 → p.st = 0 → ∀ o pages, directory s h.arg = some (o, pages) → openGraph s p.ctx h.arg h.gport = none →
    queueFull s p.ctx = false → ∃ t H, exec (.openRecord n) s = .next t ∧ (ingressOf t n).st = 1 ∧ (ingressOf t n).graph = H ∧
      (ingressOf t n).gport = h.gport ∧ (ingressOf t n).consumed = p.consumed + 16 ∧
      (t.graph? H).map (fun g => (g.imageid, g.phase)) = some (h.arg, Phase.validating)) ∧
  (whole → p.st = 0 → (h.rtype = 2 → exec (.dataRecord n) s = fault 0x122) ∧ (h.rtype = 3 → exec (.closeRecord n) s = fault 0x122) ∧
    (h.rtype = 4 → exec (.modeRecord n) s = fault 0x122)) ∧
  (whole → p.st = 2 → s.graph? p.graph = some g → g.phase = .running →
    (h.rtype = 2 → sourcePort g.img h.gport = some (j, r) →
      (h.len ≠ r.tsize → exec (.dataRecord n) s = fault 0x125) ∧
      (h.len = r.tsize → h.tcode ≠ r.tcode → exec (.dataRecord n) s = fault 0x126) ∧
      (h.len = r.tsize → h.tcode = r.tcode → h.arg ≠ p.nextOrd → exec (.dataRecord n) s = fault 0x128) ∧
      (h.len = r.tsize → h.tcode = r.tcode → h.arg = p.nextOrd →
        (streamFree s key st.fed = false → exec (.dataRecord n) s = .next s) ∧
        (streamFree s key st.fed = true → ∃ t, exec (.dataRecord n) s = .next t ∧ t.mem = s.mem ∧ t.cores = s.cores ∧
          now t = st.tokens ++ [⟨0, st.fed + 1, (p.buffer.drop 16).take h.len, [], false, 0⟩] ∧
          (ingressOf t n).nextOrd = p.nextOrd + 1 ∧ (ingressOf t n).consumed = p.consumed + recSize h ∧
          (ingressOf t n).buffer = p.buffer.drop (recSize h)))) ∧
    (h.rtype = 3 → sourcePort g.img p.gport = some (j, r) → ∃ t, exec (.closeRecord n) s = .next t ∧ (ingressOf t n).st = 3 ∧
      (ingressOf t n).consumed = p.consumed + 16 ∧ t.mem = s.mem ∧ t.cores = s.cores ∧
      now t = st.tokens ++ [⟨0, st.fed, [], [], true, 0⟩]) ∧
    (h.rtype = 4 → modePort g.img = some r → h.len = r.tsize → h.tcode = r.tcode → g.modeCtl.waiting.length < 4 → g.srcDrained = false →
      ∃ t, exec (.modeRecord n) s = .next t ∧ (ingressOf t n).consumed = p.consumed + recSize h ∧
        (t.graph? p.graph).map (fun g => g.modeCtl.waiting) = some (g.modeCtl.waiting ++ [(h.arg % 2 ^ 32, 0, 0)])) ∧
    (h.rtype = 4 → modePort g.img = none → ∃ t, exec (.modeRecord n) s = .next t ∧ t.graph? p.graph = some g ∧
      (ingressOf t n).consumed = p.consumed + recSize h)) ∧
  (p.st = 3 → s.graph? p.graph = some g → g.phase = .running → sourcePort g.img p.gport = some (j, r) →
    (st.tokens.any PtrMsg.drain = true → exec (.ingressDrainAccepted n) s = .next s) ∧
    (st.tokens.any PtrMsg.drain = false → ∃ t, exec (.ingressDrainAccepted n) s = .next t ∧ (ingressOf t n).st = 0 ∧
      (ingressOf t n).graph = 0 ∧ t.mem = s.mem ∧ t.cores = s.cores ∧ (t.graph? p.graph).map Graph.srcDrained = some true)) ∧
  (n < 64 → (p.asgn = false → exec (.ingressEn n true) s = .next (hostNote s 0x12D n)) ∧
    (p.asgn = true → exec (.ingressEn n true) s = set { p with en := true } ∧ exec (.ingressEn n false) s = set { p with en := false }) ∧
    (∃ t, exec (.ingressRst n) s = .next t ∧ (ingressOf t n).st = 0 ∧ (ingressOf t n).buffer = [] ∧
      (ingressOf t n).consumed = 0 ∧ (ingressOf t n).expected = 0 ∧ (ingressOf t n).graph = 0 ∧ t.mem = s.mem ∧
      (s.graph? p.graph = some g → p.st = 2 ∨ p.st = 3 → g.phase = .running →
        (t.graph? p.graph).map (fun g => (g.phase, g.cause)) = some (Phase.halted, 0x12E))))

/-- R8, R85, R88, R89, R97 to R101: the registers, records and completion words of the egress ports, the graph store, the register
writes and reads of BAR 0 and the loss of the link. -/
def Obligations.EgressAndStoreEvents : Prop := ∀ (s : State) (n off j : Nat) (v : Word) (bytes tok : List Byte) (rest : List Item)
    (g : Graph) (r : PortRec),
  let e := egressOf s n
  let set := fun (q : Egress) => (Host.Outcome.next (setEgress s n q) : Result)
  let record := egressRecord e r.tcode (.data tok)
  let a := storeBase s + off
  let inStore := storeOn s = true ∧ off + bytes.length ≤ storeSize s
  let port := ((List.range (nPorts g.img)).map fun j => (j, portRec g.img j)).find? fun y => y.2.isOut && y.2.host == e.sink
  (n < 64 →
    (e.asgn = true → 16 ≤ e.log2 → e.log2 ≤ 30 → exec (.egressEn n true) s = set { e with en := true }) ∧
    (e.asgn = true → exec (.egressEn n false) s = set { e with en := false }) ∧
    ((e.asgn = false ∨ e.log2 < 16 ∨ 30 < e.log2) → exec (.egressEn n true) s = .next (hostNote s 0x12D n)) ∧
    (e.graph = 0 → exec (.egressRst n) s = set { e with fin := 0, rdpos := 0 }) ∧
    (e.graph ≠ 0 → exec (.egressRst n) s = .next (hostNote s 0x12D n)) ∧
    (e.rdpos ≤ v.toNat → v.toNat ≤ e.fin → exec (.rdposWrite n v) s = set { e with rdpos := v.toNat }) ∧
    ((v.toNat < e.rdpos ∨ e.fin < v.toNat) → exec (.rdposWrite n v) s = .next (hostNote s 0x12B n))) ∧
  (e.records = .data tok :: rest → s.graph? e.graph = some g → g.phase = .running → g.cutSince = none → e.en = true →
    port = some (j, r) → Memory.wf s.host.mem = true → record.length ≤ 2 ^ e.log2 →
    (2 ^ e.log2 < e.fin + record.length - e.rdpos → exec (.egressRecordWrite n) s = .next s) ∧
    (e.fin + record.length - e.rdpos ≤ 2 ^ e.log2 → ∃ t, exec (.egressRecordWrite n) s = .next t ∧
      egressOf t n = { e with records := rest, fin := e.fin + record.length, ords := e.ords + 1
                              word := (e.fin + record.length) % 2 ^ 53, wordDue := true } ∧
      (∀ b, b < record.length → memGet t.host.mem (e.rbase.toNat + (e.fin + b) % 2 ^ e.log2) = record.getD b 0) ∧ t.mem = s.mem)) ∧
  (e.wordDue = true → Memory.wf s.host.mem = true → ∃ t, exec (.completionWordWrite n) s = .next t ∧ egressOf t n = { e with wordDue := false } ∧
    (∀ b, b < 8 → memGet t.host.mem (e.cwa.toNat + b) = BitVec.ofNat 8 (e.word / 256 ^ b)) ∧ t.mem = s.mem) ∧
  (storeRefused s v = false → exec (.graphStoreEnable v) s =
      .next { s with host := { s.host with gs := v &&& 0x8000000000FF01FF#64 } } ∧
    exec (.registerWrite 8 v) s = .next { s with host := { s.host with gs := v &&& 0x8000000000FF01FF#64 } }) ∧
  (storeRefused s v = true → exec (.graphStoreEnable v) s = .next (hostNote s 0x12D 0)) ∧
  (inStore → exec (.graphStoreAccess off true bytes) s = .next (s.write a bytes) ∧
    (s.ecc.marks = [] → ∃ t, exec (.graphStoreAccess off false bytes) s = .next t ∧ t.host.readData = s.read a bytes.length ∧
      t.mem = s.mem)) ∧
  (¬inStore → exec (.graphStoreAccess off true bytes) s = .next (hostNote s 0x12C 0) ∧
    ∃ t, exec (.graphStoreAccess off false bytes) s = .next t ∧ t.host.readData = List.replicate bytes.length 0xFF ∧ t.mem = s.mem) ∧
  (n < 64 → (ingressOf s n).en = true → exec (.registerWrite (0x100008 + 0x1000 * n) v) s = .next (hostNote s 0x12D n)) ∧
  (n < 64 → (ingressOf s n).en = false → exec (.registerWrite (0x100008 + 0x1000 * n) v) s =
    .next (setIngress s n { ingressOf s n with cwb := v &&& 0xFFFFFFFFFFFFFFF8#64 })) ∧
  (n < 64 → e.en = false →
    exec (.registerWrite (0x200008 + 0x1000 * n) v) s = set { e with rbase := v &&& 0xFFFFFFFFFFFFF000#64 } ∧
    exec (.registerWrite (0x200010 + 0x1000 * n) v) s = set { e with log2 := fld v 4 0 } ∧
    exec (.registerWrite (0x200018 + 0x1000 * n) v) s = set { e with cwa := v &&& 0xFFFFFFFFFFFFFFF8#64 }) ∧
  (n < 64 → e.en = true → exec (.registerWrite (0x200008 + 0x1000 * n) v) s = .next (hostNote s 0x12D n)) ∧
  (n < 64 → registerValue s (0x100018 + 0x1000 * n) = (ingressOf s n).consumed % 2 ^ 64 ∧
    registerValue s (0x200020 + 0x1000 * n) = e.rdpos % 2 ^ 64) ∧
  (0x10 ≤ off → off < 0x100000 ∨ 0x140000 ≤ off ∧ off < 0x200000 ∨ 0x240000 ≤ off → registerValue s off = 0 ∧
    exec (.registerWrite off v) s = .next s) ∧
  (∃ t, exec .pcieLinkDown s = .next t ∧ t.mem = s.mem ∧
    ∀ h g, h ≠ 0 → s.graph? h = some g → g.phase = .running →
      ((∃ p q, (p, q) ∈ s.host.ingress ∧ q.graph = h ∧ q.st ≠ 0) ∨ ∃ p, p ∈ portRecs g.img ∧ p.host ≠ 0xFFFF) →
      (t.graph? h).map (fun g => (g.phase, g.cause)) = some (Phase.halted, 0x12F))

/-- R11, R40, R102 to R113: cold reset leaves every register at its reset value, the five slots of the boot measured and the
others zero; the oldest QUOTE is written to its buffer as 752 bytes, the oldest QUOTE.EXT extends its slot by SM3 or completes
with status 3; an SPDM request is answered on its interface at once when no request is pending, and else waits for those
before it (the ERROR types for what R109 gives none are the model's, log entry 76). -/
def Obligations.SecurityEvents : Prop := ∀ (s : State) (r : SecReq) (rest : List SecReq) (m : SpdmReq),
  let e := (s.core r.core).entry r.q
  let live := e.busy = true ∧ e.done = false ∧ (s.core r.core).cut = false ∧ State.earlierDone (s.core r.core) e.seq = true
  let key := winBase r.core + r.buf
  let slot := fld r.slot 3 0
  let old := NMap.getD (List.replicate 32 0) s.sec.ms slot
  let ends := fun (t : State) (status : Nat) => ((t.core r.core).entry r.q).done = true ∧ ((t.core r.core).entry r.q).fault = 0 ∧
    ((t.core r.core).entry r.q).resp = status ∧ t.sec.pending = rest
  let given := fun (s : State) (kind : Nat) (payload : List Byte) => ({ s with sec := { s.sec with
    spdm := NMap.del s.sec.spdm m.iface, answers := NMap.put s.sec.answers m.iface (Config.spdmEncode kind payload) } } : State)
  let free := NMap.find s.sec.spdm m.iface = none
  let answers := fun (i : Instr) (kind : Nat) (payload : List Byte) =>
    free → s.sec.pending = [] → exec i s = .next (given s kind payload)
  let waits := fun (i : Instr) (kind : Nat) => free → s.sec.pending = r :: rest → exec i s = .next { s with sec := { s.sec with
    spdm := NMap.put s.sec.spdm m.iface (kind, rest.length + 1, m) } }
  (s.sec.pending = r :: rest → r.void = true → exec .quoteCapture s = .next (if r.ext then s else popRequest s) ∧
    exec .quoteExtendApply s = .next (if r.ext then popRequest s else s)) ∧
  (s.sec.pending = r :: rest → live → served s r = true →
    (r.ext = false → Memory.wf s.mem = true → ∃ t, exec .quoteCapture s = .next t ∧ ends t 0 ∧
      (quoteBytes s 1 r.ctx r.bytes).length = 752 ∧
      (∀ j, j < 752 → memGet t.mem (key + j) = (quoteBytes s 1 r.ctx r.bytes).getD j 0) ∧ SameOutside s t key 752) ∧
    (r.ext = true → 5 ≤ slot → fld r.slot 63 4 = 0 → ∃ t, exec .quoteExtendApply s = .next t ∧ ends t 0 ∧ t.mem = s.mem ∧
      NMap.find t.sec.ms slot = some (sm3 (old ++ r.bytes)) ∧ ∀ n, n ≠ slot → NMap.find t.sec.ms n = NMap.find s.sec.ms n) ∧
    (r.ext = true → (slot < 5 ∨ fld r.slot 63 4 ≠ 0) → ∃ t, exec .quoteExtendApply s = .next t ∧ ends t 3 ∧ t.sec.ms = s.sec.ms ∧
      t.mem = s.mem)) ∧
  answers (.getVersion m) 0x04 [0x13] ∧ answers (.getCapabilities m) 0x61 [] ∧ answers (.getDigests m) 0x01 (sm3 Config.certChain) ∧
  (m.slot = 0 → answers (.getCertificate m) 0x02 ((Config.certChain.drop m.off).take m.len) ∧
    answers (.challenge m) 0x03 (sm3 Config.certChain ++ fitBytes 32 m.nonce)) ∧
  (m.slot ≠ 0 → answers (.getCertificate m) 0x7F [1] ∧ answers (.challenge m) 0x7F [1]) ∧
  ((m.sm2 = true ∨ m.sm3 = true) → answers (.negotiateAlgorithms m) 0x63 [if m.sm2 then 1 else 0, if m.sm3 then 1 else 0]) ∧
  (m.sm2 = false → m.sm3 = false → answers (.negotiateAlgorithms m) 0x7F [1]) ∧
  (1 ≤ m.index → m.index ≤ 16 →
    answers (.getMeasurements m) 0x60 (fitBytes 32 (NMap.getD (List.replicate 32 0) s.sec.ms (m.index - 1)))) ∧
  (m.index = 17 → free → s.sec.pending = [] → exec (.getMeasurements m) s =
    .next { given s 0x60 (quoteBytes s 0 0xFF m.nonce) with fresh := s.fresh + 4 }) ∧
  (m.index = 0 → answers (.getMeasurements m) 0x60 [17]) ∧
  waits (.getVersion m) 0 ∧ waits (.getCapabilities m) 1 ∧ waits (.negotiateAlgorithms m) 2 ∧ waits (.getDigests m) 3 ∧
  waits (.getCertificate m) 4 ∧ waits (.challenge m) 5 ∧ waits (.getMeasurements m) 6 ∧ waits (.spdmUnsupportedRequest m) 7 ∧
  answers (.spdmUnsupportedRequest m) 0x7F [7] ∧
  (∃ t, exec .coldReset s = .next t ∧ t.mem = [] ∧ t.cores = [] ∧ t.ctxs = [] ∧ t.graphs = [] ∧ t.links = {} ∧ t.deck = {} ∧ t.kitty = [] ∧
    t.grade = s.grade ∧ t.sec.pending = [] ∧ t.sec.spdm = [] ∧ t.sec.key = identityKey ∧ t.managementUp = allReadable ∧ (∀ n, 5 ≤ n → NMap.find t.sec.ms n = none) ∧
    (∀ i, i < 4 → NMap.find t.sec.ms i = some (sm3 (List.replicate 32 0 ++ componentDigest i))) ∧
    NMap.find t.sec.ms 4 = some (sm3 (List.replicate 32 0 ++ sm3 (fuseBlock t))))

/-! ### Fetch, decode, step -/

/-- R184, R265, R288, R291, R301, R307: with an empty agenda the CP of the moving core, and with its move at the head that
CP or element, runs exactly the instruction its bytes decode to; what cannot be fetched or decoded takes its trap; a CP that
cannot execute stays. The bytes are those of tile SRAM wherever no store waits for a FENCEI. -/
def Obligations.StepRunsDecodedInstruction : Prop := ∀ (s : State) (ms : List Move) (c j : Nat) (shadow : Bool) (i : Instr) (w : Word),
  let k := s.core s.turn
  let word := codeWord s s.turn k.pc
  let word2 := codeWord s s.turn (k.pc + 4)
  let last := decide (k.pc + 4 = k.codeBase + k.codeSize) || decide (k.pc + 4 = tileSize)
  let n := if majorOf word = 0x3F ∧ last = false then 8 else 4
  let bad := eccBad s (winBase s.turn + k.pc) n
  let fixed := s.correct (winBase s.turn + k.pc) n
  let out := k.pc < k.codeBase ∨ k.codeBase + k.codeSize < k.pc + 4 ∨ tileSize < k.pc + 4
  (cpReady s s.turn = true → k.pc % 4 = 0 → ¬ out → bad = false → decodeCp word word2 last = .ok i → stepCp s = exec i fixed) ∧
  ((∀ m, m ∈ s.ecc.marks → m.2 = false → touchesWord (winBase s.turn + k.pc) n m.1 = false) → fixed = s) ∧
  (cpReady s s.turn = true → k.pc % 4 = 0 → ¬ out → bad = false →
    ∀ sub, decodeCp word word2 last = .bad sub → stepCp s = exec (.unassignedEncoding word word2 (sub.zeroExtend 9)) fixed) ∧
  (cpReady s s.turn = true → k.pc % 4 ≠ 0 → stepCp s = exec (.instructionFetchFault 0x02D) s) ∧
  (cpReady s s.turn = true → k.pc % 4 = 0 → out → stepCp s = exec (.instructionFetchFault 0x026) s) ∧
  (cpReady s s.turn = true → k.pc % 4 = 0 → ¬ out → bad = true →
    stepCp s = exec (.instructionFetchFault 0x164) s) ∧
  (cpReady s s.turn = false → stepCp s = .next s) ∧
  (s.agenda = [] → step s = stepCp s) ∧
  (s.agenda = .cp c :: ms → step s = stepCp { s with agenda := ms, turn := c }) ∧
  (k.codeOld = [] → ∀ o, codeByte s s.turn o = memGet s.mem (winBase s.turn + o)) ∧
  (s.agenda = .elem c j shadow :: ms → (if shadow then (s.core c).grid.sh else (s.core c).grid.act).words[j]? = some w →
    decodeBlk w = some i → step s = exec i { s with agenda := ms, turn := c, focus := (j, shadow) }) ∧
  (s.agenda = .event i :: ms → isEvent i = true → step s = exec i { s with agenda := ms }) ∧
  (∀ off, s.agenda = .registerRead off :: ms → ∃ t, step s = .next t ∧ t.host.readData = leBytes 8 (registerValue s off) ∧ t.mem = s.mem) ∧
  (∀ m, s.agenda = .peer m :: ms → step s = .next (peerMove { s with agenda := ms } m)) ∧
  (∀ n, s.agenda = .mgmtHalt n :: ms → step s = .next (managerHalts { s with agenda := ms } n)) ∧
  (∀ e, s.agenda = .strike e :: ms → step s = .next (strike { s with agenda := ms } e)) ∧
  (∀ a ue, s.agenda = .softError a ue :: ms → ∃ t, step s = .next t ∧
    t.ecc.marks = (a, ue || s.ecc.marks.any fun m => errorsJoin a m.1) :: s.ecc.marks ∧ t.mem = s.mem)

/-- Words that the spec's listings write out decode to the instructions beside them (R302, R320, R339, R345, R380, R427,
R455; the listings of the engine chapters), whatever follows a one-word instruction. -/
def Obligations.DecodesSpecWords : Prop :=
  (∀ p ∈ [(0x98410000#32, Instr.ldd 2 1 0), (0x04420001, .addi 2 2 1), (0xAC410008, .std 2 1 8),
      (0xC8032054, .aadd 3 4 0 .rel .deck .double), (0xD4A00001, .waitqVis 5 0), (0xD4C00002, .popq 6 0),
      (0x44C0FFFA, .bne 6 0 0xFFFA), (0x00831803, .mul 4 3 3), (0x00E60007, .divu 7 6 0),
      (0xC0040082, .ldq 4 1 .rlx .core .word), (0xC4083903, .stq 8 7 2 .rlx .core .double), (0xE8A00701, .srd 5 0x701),
      (0xEC060702, .swr 6 0x702), (0xE4000007, .trap 7), (0x74010500, .apndSet 1 0), (0x74620508, .apndRow 3 2 0),
      (0x74020B80, .bari 2 1 0), (0x740303C0, .barw 3), (0x74000040, .ggo), (0x78011040, .mxmm 1 2 0),
      (0x78410200, .mldg 2 1), (0x78032260, .mlrun 3 4 0)],
    ∀ w2 tail, decodeCp p.1 w2 tail = .ok p.2) ∧
  decodeCp 0xFCE00001 0x12345678 false = .ok (.lix 7 0 0x12345678) ∧
  decodeBlk 0x10DC34C51A002000 = some (.fma ⟨0x0E, ⟨true, 13, 0, 2⟩, ⟨true, 20, 1, 1⟩, 0x2000⟩) ∧
  decodeBlk 0xB01C04A000000000 = some (.pin ⟨0x0E, ⟨true, 1, 0, 1⟩, ⟨false, 0, 0, 0⟩, 0⟩) ∧
  decodeBlk 0x109C08A000008000 = some (.elemMul ⟨0x0E, ⟨true, 2, 0, 1⟩, ⟨false, 0, 0, 0⟩, 0x8000⟩) ∧
  decodeBlk 0xB05C000000000081 = some (.pout ⟨0x0E, ⟨false, 0, 0, 0⟩, ⟨false, 0, 0, 0⟩, 0x81⟩) ∧
  (∀ tail w2, decodeCp 0 w2 tail = .bad 0) ∧ (∀ tail w2, decodeCp 0xFFFFFFFF w2 tail = .bad 1)

/-- R289 to R301, R307: every well-formed instruction's words decode to it again, with every operand at every value its
encoding admits. -/
def Obligations.EncodingsReadBack : Prop := ∀ i : Instr, i.wf = true → i.readsBack

/-! ### Reset and the invariant -/

/-- R11: the Reset columns. After a cold reset every trap, firing, code-region, queue, RNG, context, configuration and Herlo
register of every core reads zero (R268, R122, R184, R194, R253, R158, R151, R180, R53, R81, R58 on this grade); sr.pgrant
shows the island alone (R36) and sr.core the place (R304); every measurement slot holds 32 zero bytes, never extended (R104);
the slot calendar holds no valid entry (R45); no host port is enabled or assigned (R91, R97); the host registers are zero
(R87). -/
def Obligations.ResetState : Prop :=
  let s := State.reset
  (∀ c, c < 2304 →
    (∀ n ∈ [0x700, 0x701, 0x702, 0x703, 0x704, 0x7C0, 0x7C1, 0x7C2, 0x7C3, 0xF12, 0xF13, 0xF14, 0xF15, 0xF16, 0xF17],
      s.sysReg c n = 0) ∧
    (∀ j, j < 8 → s.sysReg c (0x7D0 + j) = 0 ∧ s.sysReg c (0x7D8 + j) = 0 ∧ s.sysReg c (0x7E0 + j) = 0) ∧
    s.sysReg c 0xF11 = BitVec.ofNat 64 ((5 * (c / 192) + c % 192 / 48) * 2 ^ 48) ∧
    s.sysReg c 0x7C4 = BitVec.ofNat 64 (c / 192 * 2 ^ 16 + c % 192 * 2 ^ 8 + c % 192 / 48 * 2 ^ 6
      + c % 192 % 48 / 8 * 2 ^ 3 + c % 192 % 8) ∧
    fld (s.sysReg c 0xF10) 63 48 = 0x4B59 ∧ fld (s.sysReg c 0xF10) 47 40 = 0x12 ∧ fld (s.sysReg c 0xF10) 39 36 = 1 ∧
    fld (s.sysReg c 0xF10) 27 16 = 0xFFF ∧ fld (s.sysReg c 0xF10) 11 0 = 0) ∧
  (∀ j, slotOf s.sec j = List.replicate 32 0 ∧ NMap.getD 0 s.sec.ext j = 0) ∧
  (∀ j, bitAt (calAt s j) 31 = false) ∧
  (∀ n, (ingressOf s n).en = false ∧ (ingressOf s n).asgn = false ∧ (ingressOf s n).st = 0 ∧ (ingressOf s n).consumed = 0 ∧
    (egressOf s n).en = false ∧ (egressOf s n).asgn = false ∧ (egressOf s n).rdpos = 0) ∧
  s.host.nfault = 0 ∧ s.host.ready = false ∧ s.host.gs = 0

/-- The memories of the machine and of the host keep their canonical form, addresses rising and no byte listed that an
unlisted address reads as, in every step: so that equal memories are equal data (the model's own invariant, log entry 1). -/
def Obligations.MemoryStaysCanonical : Prop := ∀ s t : State, MemOk s → StepsTo s t → MemOk t

/-- The invariant holds at reset. -/
def Obligations.ResetMeetsInvariant : Prop := MemOk State.reset
end

