-- ==== Sys2Proof/Laws/Dispatch.lean ====
section
/-! SUPPORT. What exec does with each instruction: the one call of its meaning, by definition. -/

namespace Sys2Proof.Machine

@[simp] theorem exec_add {d a b} (s : State) : exec (.add d a b) s = execAdd d a b s := rfl
@[simp] theorem exec_sub {d a b} (s : State) : exec (.sub d a b) s = execSub d a b s := rfl
@[simp] theorem exec_mul {d a b} (s : State) : exec (.mul d a b) s = execMul d a b s := rfl
@[simp] theorem exec_mulh {d a b} (s : State) : exec (.mulh d a b) s = execMulh d a b s := rfl
@[simp] theorem exec_mulhu {d a b} (s : State) : exec (.mulhu d a b) s = execMulhu d a b s := rfl
@[simp] theorem exec_div {d a b} (s : State) : exec (.div d a b) s = execDiv d a b s := rfl
@[simp] theorem exec_divu {d a b} (s : State) : exec (.divu d a b) s = execDivu d a b s := rfl
@[simp] theorem exec_rem {d a b} (s : State) : exec (.rem d a b) s = execRem d a b s := rfl
@[simp] theorem exec_remu {d a b} (s : State) : exec (.remu d a b) s = execRemu d a b s := rfl
@[simp] theorem exec_and {d a b} (s : State) : exec (.and d a b) s = execAnd d a b s := rfl
@[simp] theorem exec_or {d a b} (s : State) : exec (.or d a b) s = execOr d a b s := rfl
@[simp] theorem exec_xor {d a b} (s : State) : exec (.xor d a b) s = execXor d a b s := rfl
@[simp] theorem exec_andn {d a b} (s : State) : exec (.andn d a b) s = execAndn d a b s := rfl
@[simp] theorem exec_shl {d a b} (s : State) : exec (.shl d a b) s = execShl d a b s := rfl
@[simp] theorem exec_shr {d a b} (s : State) : exec (.shr d a b) s = execShr d a b s := rfl
@[simp] theorem exec_sra {d a b} (s : State) : exec (.sra d a b) s = execSra d a b s := rfl
@[simp] theorem exec_rotl {d a b} (s : State) : exec (.rotl d a b) s = execRotl d a b s := rfl
@[simp] theorem exec_min {d a b} (s : State) : exec (.min d a b) s = execMin d a b s := rfl
@[simp] theorem exec_max {d a b} (s : State) : exec (.max d a b) s = execMax d a b s := rfl
@[simp] theorem exec_minu {d a b} (s : State) : exec (.minu d a b) s = execMinu d a b s := rfl
@[simp] theorem exec_maxu {d a b} (s : State) : exec (.maxu d a b) s = execMaxu d a b s := rfl
@[simp] theorem exec_slt {d a b} (s : State) : exec (.slt d a b) s = execSlt d a b s := rfl
@[simp] theorem exec_sltu {d a b} (s : State) : exec (.sltu d a b) s = execSltu d a b s := rfl
@[simp] theorem exec_seq {d a b} (s : State) : exec (.seq d a b) s = execSeq d a b s := rfl
@[simp] theorem exec_clz {d a} (s : State) : exec (.clz d a) s = execClz d a s := rfl
@[simp] theorem exec_ctz {d a} (s : State) : exec (.ctz d a) s = execCtz d a s := rfl
@[simp] theorem exec_popc {d a} (s : State) : exec (.popc d a) s = execPopc d a s := rfl
@[simp] theorem exec_brev {d a} (s : State) : exec (.brev d a) s = execBrev d a s := rfl
@[simp] theorem exec_bext {d a b} (s : State) : exec (.bext d a b) s = execBext d a b s := rfl
@[simp] theorem exec_bins {d a b} (s : State) : exec (.bins d a b) s = execBins d a b s := rfl
@[simp] theorem exec_sext {d a b} (s : State) : exec (.sext d a b) s = execSext d a b s := rfl
@[simp] theorem exec_addi {d a im} (s : State) : exec (.addi d a im) s = execAddi d a im s := rfl
@[simp] theorem exec_andi {d a im} (s : State) : exec (.andi d a im) s = execAndi d a im s := rfl
@[simp] theorem exec_ori {d a im} (s : State) : exec (.ori d a im) s = execOri d a im s := rfl
@[simp] theorem exec_xori {d a im} (s : State) : exec (.xori d a im) s = execXori d a im s := rfl
@[simp] theorem exec_shli {d a im} (s : State) : exec (.shli d a im) s = execShli d a im s := rfl
@[simp] theorem exec_shri {d a im} (s : State) : exec (.shri d a im) s = execShri d a im s := rfl
@[simp] theorem exec_srai {d a im} (s : State) : exec (.srai d a im) s = execSrai d a im s := rfl
@[simp] theorem exec_slti {d a im} (s : State) : exec (.slti d a im) s = execSlti d a im s := rfl
@[simp] theorem exec_sltiu {d a im} (s : State) : exec (.sltiu d a im) s = execSltiu d a im s := rfl
@[simp] theorem exec_lui {d im} (s : State) : exec (.lui d im) s = execLui d im s := rfl
@[simp] theorem exec_lix {d a im} (s : State) : exec (.lix d a im) s = execLix d a im s := rfl
@[simp] theorem exec_jal {d o} (s : State) : exec (.jal d o) s = execJal d o s := rfl
@[simp] theorem exec_jalr {d a im} (s : State) : exec (.jalr d a im) s = execJalr d a im s := rfl
@[simp] theorem exec_beq {a b o} (s : State) : exec (.beq a b o) s = execBeq a b o s := rfl
@[simp] theorem exec_bne {a b o} (s : State) : exec (.bne a b o) s = execBne a b o s := rfl
@[simp] theorem exec_blt {a b o} (s : State) : exec (.blt a b o) s = execBlt a b o s := rfl
@[simp] theorem exec_bge {a b o} (s : State) : exec (.bge a b o) s = execBge a b o s := rfl
@[simp] theorem exec_bltu {a b o} (s : State) : exec (.bltu a b o) s = execBltu a b o s := rfl
@[simp] theorem exec_bgeu {a b o} (s : State) : exec (.bgeu a b o) s = execBgeu a b o s := rfl
@[simp] theorem exec_ldb {d a im} (s : State) : exec (.ldb d a im) s = execLdb d a im s := rfl
@[simp] theorem exec_ldbu {d a im} (s : State) : exec (.ldbu d a im) s = execLdbu d a im s := rfl
@[simp] theorem exec_ldh {d a im} (s : State) : exec (.ldh d a im) s = execLdh d a im s := rfl
@[simp] theorem exec_ldhu {d a im} (s : State) : exec (.ldhu d a im) s = execLdhu d a im s := rfl
@[simp] theorem exec_ldw {d a im} (s : State) : exec (.ldw d a im) s = execLdw d a im s := rfl
@[simp] theorem exec_ldwu {d a im} (s : State) : exec (.ldwu d a im) s = execLdwu d a im s := rfl
@[simp] theorem exec_ldd {d a im} (s : State) : exec (.ldd d a im) s = execLdd d a im s := rfl
@[simp] theorem exec_lda {d a sc w im} (s : State) : exec (.lda d a sc w im) s = execLda d a sc w im s := rfl
@[simp] theorem exec_stb {b a im} (s : State) : exec (.stb b a im) s = execStb b a im s := rfl
@[simp] theorem exec_sth {b a im} (s : State) : exec (.sth b a im) s = execSth b a im s := rfl
@[simp] theorem exec_stw {b a im} (s : State) : exec (.stw b a im) s = execStw b a im s := rfl
@[simp] theorem exec_std {b a im} (s : State) : exec (.std b a im) s = execStd b a im s := rfl
@[simp] theorem exec_stl {b a sc w im} (s : State) : exec (.stl b a sc w im) s = execStl b a sc w im s := rfl
@[simp] theorem exec_ldq {a q n sc w} (s : State) : exec (.ldq a q n sc w) s = execLdq a q n sc w s := rfl
@[simp] theorem exec_stq {a b q n sc w} (s : State) : exec (.stq a b q n sc w) s = execStq a b q n sc w s := rfl
@[simp] theorem exec_aadd {a b q n sc w} (s : State) : exec (.aadd a b q n sc w) s = execAadd a b q n sc w s := rfl
@[simp] theorem exec_amin {a b q n sc w} (s : State) : exec (.amin a b q n sc w) s = execAmin a b q n sc w s := rfl
@[simp] theorem exec_amax {a b q n sc w} (s : State) : exec (.amax a b q n sc w) s = execAmax a b q n sc w s := rfl
@[simp] theorem exec_aminu {a b q n sc w} (s : State) : exec (.aminu a b q n sc w) s = execAminu a b q n sc w s := rfl
@[simp] theorem exec_amaxu {a b q n sc w} (s : State) : exec (.amaxu a b q n sc w) s = execAmaxu a b q n sc w s := rfl
@[simp] theorem exec_aand {a b q n sc w} (s : State) : exec (.aand a b q n sc w) s = execAand a b q n sc w s := rfl
@[simp] theorem exec_aor {a b q n sc w} (s : State) : exec (.aor a b q n sc w) s = execAor a b q n sc w s := rfl
@[simp] theorem exec_axor {a b q n sc w} (s : State) : exec (.axor a b q n sc w) s = execAxor a b q n sc w s := rfl
@[simp] theorem exec_aswp {a b q n sc w} (s : State) : exec (.aswp a b q n sc w) s = execAswp a b q n sc w s := rfl
@[simp] theorem exec_acas {d a b q n sc w} (s : State) : exec (.acas d a b q n sc w) s = execAcas d a b q n sc w s := rfl
@[simp] theorem exec_asnap {a q n sc w} (s : State) : exec (.asnap a q n sc w) s = execAsnap a q n sc w s := rfl
@[simp] theorem exec_aaddf {a b q n sc w} (s : State) : exec (.aaddf a b q n sc w) s = execAaddf a b q n sc w s := rfl
@[simp] theorem exec_waitqSrc {d q} (s : State) : exec (.waitqSrc d q) s = execWaitqSrc d q s := rfl
@[simp] theorem exec_waitqVis {d q} (s : State) : exec (.waitqVis d q) s = execWaitqVis d q s := rfl
@[simp] theorem exec_popq {d q} (s : State) : exec (.popq d q) s = execPopq d q s := rfl
@[simp] theorem exec_nop (s : State) : exec .nop s = execNop s := rfl
@[simp] theorem exec_fenceCore (s : State) : exec .fenceCore s = execFenceCore s := rfl
@[simp] theorem exec_fenceCard (s : State) : exec .fenceCard s = execFenceCard s := rfl
@[simp] theorem exec_fenceDeck (s : State) : exec .fenceDeck s = execFenceDeck s := rfl
@[simp] theorem exec_fenceDom (s : State) : exec .fenceDom s = execFenceDom s := rfl
@[simp] theorem exec_fencei (s : State) : exec .fencei s = execFencei s := rfl
@[simp] theorem exec_eret (s : State) : exec .eret s = execEret s := rfl
@[simp] theorem exec_wfe (s : State) : exec .wfe s = execWfe s := rfl
@[simp] theorem exec_sev (s : State) : exec .sev s = execSev s := rfl
@[simp] theorem exec_halt (s : State) : exec .halt s = execHalt s := rfl
@[simp] theorem exec_brk (s : State) : exec .brk s = execBrk s := rfl
@[simp] theorem exec_trap {im} (s : State) : exec (.trap im) s = execTrap im s := rfl
@[simp] theorem exec_srd {d n} (s : State) : exec (.srd d n) s = execSrd d n s := rfl
@[simp] theorem exec_swr {a n} (s : State) : exec (.swr a n) s = execSwr a n s := rfl
@[simp] theorem exec_gload {a} (s : State) : exec (.gload a) s = execGload a s := rfl
@[simp] theorem exec_gswapDrain (s : State) : exec .gswapDrain s = execGswapDrain s := rfl
@[simp] theorem exec_gswapEos (s : State) : exec .gswapEos s = execGswapEos s := rfl
@[simp] theorem exec_ggo (s : State) : exec .ggo s = execGgo s := rfl
@[simp] theorem exec_ggoRes (s : State) : exec .ggoRes s = execGgoRes s := rfl
@[simp] theorem exec_gstop (s : State) : exec .gstop s = execGstop s := rfl
@[simp] theorem exec_gstat {d} (s : State) : exec (.gstat d) s = execGstat d s := rfl
@[simp] theorem exec_gstv {a b} (s : State) : exec (.gstv a b) s = execGstv a b s := rfl
@[simp] theorem exec_gstvAct {a b} (s : State) : exec (.gstvAct a b) s = execGstvAct a b s := rfl
@[simp] theorem exec_srds {d a e} (s : State) : exec (.srds d a e) s = execSrds d a e s := rfl
@[simp] theorem exec_swrs {d a e} (s : State) : exec (.swrs d a e) s = execSwrs d a e s := rfl
@[simp] theorem exec_scpy {d a e} (s : State) : exec (.scpy d a e) s = execScpy d a e s := rfl
@[simp] theorem exec_sagc {a b c} (s : State) : exec (.sagc a b c) s = execSagc a b c s := rfl
@[simp] theorem exec_sxlt {a e} (s : State) : exec (.sxlt a e) s = execSxlt a e s := rfl
@[simp] theorem exec_swaitSrc {a} (s : State) : exec (.swaitSrc a) s = execSwaitSrc a s := rfl
@[simp] theorem exec_swaitVis {a} (s : State) : exec (.swaitVis a) s = execSwaitVis a s := rfl
@[simp] theorem exec_rwset {a b} (s : State) : exec (.rwset a b) s = execRwset a b s := rfl
@[simp] theorem exec_rwrst {a} (s : State) : exec (.rwrst a) s = execRwrst a s := rfl
@[simp] theorem exec_rwqry {d a} (s : State) : exec (.rwqry d a) s = execRwqry d a s := rfl
@[simp] theorem exec_fdone (s : State) : exec .fdone s = execFdone s := rfl
@[simp] theorem exec_fabort {a} (s : State) : exec (.fabort a) s = execFabort a s := rfl
@[simp] theorem exec_mode {a} (s : State) : exec (.mode a) s = execMode a s := rfl
@[simp] theorem exec_mwait {d} (s : State) : exec (.mwait d) s = execMwait d s := rfl
@[simp] theorem exec_lnch {a b q} (s : State) : exec (.lnch a b q) s = execLnch a b q s := rfl
@[simp] theorem exec_lwait {d a} (s : State) : exec (.lwait d a) s = execLwait d a s := rfl
@[simp] theorem exec_bari {a b n} (s : State) : exec (.bari a b n) s = execBari a b n s := rfl
@[simp] theorem exec_bara {d n} (s : State) : exec (.bara d n) s = execBara d n s := rfl
@[simp] theorem exec_barw {a} (s : State) : exec (.barw a) s = execBarw a s := rfl
@[simp] theorem exec_bart {d a} (s : State) : exec (.bart d a) s = execBart d a s := rfl
@[simp] theorem exec_dkst {a b} (s : State) : exec (.dkst a b) s = execDkst a b s := rfl
@[simp] theorem exec_dkadd {a b w q} (s : State) : exec (.dkadd a b w q) s = execDkadd a b w q s := rfl
@[simp] theorem exec_dkcas {d a b w q} (s : State) : exec (.dkcas d a b w q) s = execDkcas d a b w q s := rfl
@[simp] theorem exec_dksync (s : State) : exec .dksync s = execDksync s := rfl
@[simp] theorem exec_rngk {a sc} (s : State) : exec (.rngk a sc) s = execRngk a sc s := rfl
@[simp] theorem exec_rngc {a b sc} (s : State) : exec (.rngc a b sc) s = execRngc a b sc s := rfl
@[simp] theorem exec_rngd {d sc} (s : State) : exec (.rngd d sc) s = execRngd d sc s := rfl
@[simp] theorem exec_rngdSt {d a sc} (s : State) : exec (.rngdSt d a sc) s = execRngdSt d a sc s := rfl
@[simp] theorem exec_apndSet {a n} (s : State) : exec (.apndSet a n) s = execApndSet a n s := rfl
@[simp] theorem exec_apndRow {d a n} (s : State) : exec (.apndRow d a n) s = execApndRow d a n s := rfl
@[simp] theorem exec_mark {n} (s : State) : exec (.mark n) s = execMark n s := rfl
@[simp] theorem exec_fold {a n} (s : State) : exec (.fold a n) s = execFold a n s := rfl
@[simp] theorem exec_stats {a} (s : State) : exec (.stats a) s = execStats a s := rfl
@[simp] theorem exec_cutmStart {a} (s : State) : exec (.cutmStart a) s = execCutmStart a s := rfl
@[simp] theorem exec_cutmRel {a} (s : State) : exec (.cutmRel a) s = execCutmRel a s := rfl
@[simp] theorem exec_tkbp {a b} (s : State) : exec (.tkbp a b) s = execTkbp a b s := rfl
@[simp] theorem exec_tkbpClr {a} (s : State) : exec (.tkbpClr a) s = execTkbpClr a s := rfl
@[simp] theorem exec_frz {a q} (s : State) : exec (.frz a q) s = execFrz a q s := rfl
@[simp] theorem exec_thaw {a q} (s : State) : exec (.thaw a q) s = execThaw a q s := rfl
@[simp] theorem exec_pwrq {d a} (s : State) : exec (.pwrq d a) s = execPwrq d a s := rfl
@[simp] theorem exec_quote {a b q} (s : State) : exec (.quote a b q) s = execQuote a b q s := rfl
@[simp] theorem exec_quoteExt {a b q} (s : State) : exec (.quoteExt a b q) s = execQuoteExt a b q s := rfl
@[simp] theorem exec_mxb {a b} (s : State) : exec (.mxb a b) s = execMxb a b s := rfl
@[simp] theorem exec_mxbPb {b} (s : State) : exec (.mxbPb b) s = execMxbPb b s := rfl
@[simp] theorem exec_mxsw (s : State) : exec .mxsw s = execMxsw s := rfl
@[simp] theorem exec_mxmm {a b n} (s : State) : exec (.mxmm a b n) s = execMxmm a b n s := rfl
@[simp] theorem exec_mxmmPa {b n} (s : State) : exec (.mxmmPa b n) s = execMxmmPa b n s := rfl
@[simp] theorem exec_mxaccClr {b n} (s : State) : exec (.mxaccClr b n) s = execMxaccClr b n s := rfl
@[simp] theorem exec_mxaccQry {d n} (s : State) : exec (.mxaccQry d n) s = execMxaccQry d n s := rfl
@[simp] theorem exec_mxaccOuts {a b n} (s : State) : exec (.mxaccOuts a b n) s = execMxaccOuts a b n s := rfl
@[simp] theorem exec_mxaccOutp {b n} (s : State) : exec (.mxaccOutp b n) s = execMxaccOutp b n s := rfl
@[simp] theorem exec_mxsort {a k im} (s : State) : exec (.mxsort a k im) s = execMxsort a k im s := rfl
@[simp] theorem exec_mxgang {a} (s : State) : exec (.mxgang a) s = execMxgang a s := rfl
@[simp] theorem exec_mxwait {d sc} (s : State) : exec (.mxwait d sc) s = execMxwait d sc s := rfl
@[simp] theorem exec_mldg {d a} (s : State) : exec (.mldg d a) s = execMldg d a s := rfl
@[simp] theorem exec_mlchk {d} (s : State) : exec (.mlchk d) s = execMlchk d s := rfl
@[simp] theorem exec_mlchkRec {d a} (s : State) : exec (.mlchkRec d a) s = execMlchkRec d a s := rfl
@[simp] theorem exec_mlfree {m} (s : State) : exec (.mlfree m) s = execMlfree m s := rfl
@[simp] theorem exec_mlrun {a b m} (s : State) : exec (.mlrun a b m) s = execMlrun a b m s := rfl
@[simp] theorem exec_mlcut {a m} (s : State) : exec (.mlcut a m) s = execMlcut a m s := rfl
@[simp] theorem exec_mxbLoad {c} (s : State) : exec (.mxbLoad c) s = execMxbLoad c s := rfl
@[simp] theorem exec_mxswExchange {c} (s : State) : exec (.mxswExchange c) s = execMxswExchange c s := rfl
@[simp] theorem exec_mxmmExecute {c} (s : State) : exec (.mxmmExecute c) s = execMxmmExecute c s := rfl
@[simp] theorem exec_mxaccExecute {c} (s : State) : exec (.mxaccExecute c) s = execMxaccExecute c s := rfl
@[simp] theorem exec_mxsortExecute {c} (s : State) : exec (.mxsortExecute c) s = execMxsortExecute c s := rfl
@[simp] theorem exec_mxgangExecute {c} (s : State) : exec (.mxgangExecute c) s = execMxgangExecute c s := rfl
@[simp] theorem exec_meldRun {c} (s : State) : exec (.meldRun c) s = execMeldRun c s := rfl
@[simp] theorem exec_mlfreeComplete {c} (s : State) : exec (.mlfreeComplete c) s = execMlfreeComplete c s := rfl
@[simp] theorem exec_mlcutExecute {c} (s : State) : exec (.mlcutExecute c) s = execMlcutExecute c s := rfl
@[simp] theorem exec_elemNop {b} (s : State) : exec (.elemNop b) s = execElemNop b s := rfl
@[simp] theorem exec_const {b} (s : State) : exec (.const b) s = execConst b s := rfl
@[simp] theorem exec_sink {b} (s : State) : exec (.sink b) s = execSink b s := rfl
@[simp] theorem exec_copy {b} (s : State) : exec (.copy b) s = execCopy b s := rfl
@[simp] theorem exec_elemAdd {b} (s : State) : exec (.elemAdd b) s = execElemAdd b s := rfl
@[simp] theorem exec_elemSub {b} (s : State) : exec (.elemSub b) s = execElemSub b s := rfl
@[simp] theorem exec_elemMul {b} (s : State) : exec (.elemMul b) s = execElemMul b s := rfl
@[simp] theorem exec_fma {b} (s : State) : exec (.fma b) s = execFma b s := rfl
@[simp] theorem exec_fms {b} (s : State) : exec (.fms b) s = execFms b s := rfl
@[simp] theorem exec_nfma {b} (s : State) : exec (.nfma b) s = execNfma b s := rfl
@[simp] theorem exec_elemMin {b} (s : State) : exec (.elemMin b) s = execElemMin b s := rfl
@[simp] theorem exec_elemMax {b} (s : State) : exec (.elemMax b) s = execElemMax b s := rfl
@[simp] theorem exec_abs {b} (s : State) : exec (.abs b) s = execAbs b s := rfl
@[simp] theorem exec_neg {b} (s : State) : exec (.neg b) s = execNeg b s := rfl
@[simp] theorem exec_elemAnd {b} (s : State) : exec (.elemAnd b) s = execElemAnd b s := rfl
@[simp] theorem exec_elemOr {b} (s : State) : exec (.elemOr b) s = execElemOr b s := rfl
@[simp] theorem exec_elemXor {b} (s : State) : exec (.elemXor b) s = execElemXor b s := rfl
@[simp] theorem exec_not {b} (s : State) : exec (.not b) s = execNot b s := rfl
@[simp] theorem exec_elemShl {b} (s : State) : exec (.elemShl b) s = execElemShl b s := rfl
@[simp] theorem exec_elemShr {b} (s : State) : exec (.elemShr b) s = execElemShr b s := rfl
@[simp] theorem exec_elemSra {b} (s : State) : exec (.elemSra b) s = execElemSra b s := rfl
@[simp] theorem exec_clamp {b} (s : State) : exec (.clamp b) s = execClamp b s := rfl
@[simp] theorem exec_cmpeq {b} (s : State) : exec (.cmpeq b) s = execCmpeq b s := rfl
@[simp] theorem exec_cmplt {b} (s : State) : exec (.cmplt b) s = execCmplt b s := rfl
@[simp] theorem exec_cmple {b} (s : State) : exec (.cmple b) s = execCmple b s := rfl
@[simp] theorem exec_sel {b} (s : State) : exec (.sel b) s = execSel b s := rfl
@[simp] theorem exec_exp2 {b} (s : State) : exec (.exp2 b) s = execExp2 b s := rfl
@[simp] theorem exec_log2 {b} (s : State) : exec (.log2 b) s = execLog2 b s := rfl
@[simp] theorem exec_rcp {b} (s : State) : exec (.rcp b) s = execRcp b s := rfl
@[simp] theorem exec_rsq {b} (s : State) : exec (.rsq b) s = execRsq b s := rfl
@[simp] theorem exec_cvt {b} (s : State) : exec (.cvt b) s = execCvt b s := rfl
@[simp] theorem exec_qblk {b} (s : State) : exec (.qblk b) s = execQblk b s := rfl
@[simp] theorem exec_dqblk {b} (s : State) : exec (.dqblk b) s = execDqblk b s := rfl
@[simp] theorem exec_tosd {b} (s : State) : exec (.tosd b) s = execTosd b s := rfl
@[simp] theorem exec_fromsd {b} (s : State) : exec (.fromsd b) s = execFromsd b s := rfl
@[simp] theorem exec_bpln {b} (s : State) : exec (.bpln b) s = execBpln b s := rfl
@[simp] theorem exec_rsum {b} (s : State) : exec (.rsum b) s = execRsum b s := rfl
@[simp] theorem exec_rmax {b} (s : State) : exec (.rmax b) s = execRmax b s := rfl
@[simp] theorem exec_rmin {b} (s : State) : exec (.rmin b) s = execRmin b s := rfl
@[simp] theorem exec_bcast {b} (s : State) : exec (.bcast b) s = execBcast b s := rfl
@[simp] theorem exec_shuf {b} (s : State) : exec (.shuf b) s = execShuf b s := rfl
@[simp] theorem exec_elemRotl {b} (s : State) : exec (.elemRotl b) s = execElemRotl b s := rfl
@[simp] theorem exec_sld {b} (s : State) : exec (.sld b) s = execSld b s := rfl
@[simp] theorem exec_swap {b} (s : State) : exec (.swap b) s = execSwap b s := rfl
@[simp] theorem exec_steer {b} (s : State) : exec (.steer b) s = execSteer b s := rfl
@[simp] theorem exec_merge {b} (s : State) : exec (.merge b) s = execMerge b s := rfl
@[simp] theorem exec_carry {b} (s : State) : exec (.carry b) s = execCarry b s := rfl
@[simp] theorem exec_invar {b} (s : State) : exec (.invar b) s = execInvar b s := rfl
@[simp] theorem exec_lgen {b} (s : State) : exec (.lgen b) s = execLgen b s := rfl
@[simp] theorem exec_agen {b} (s : State) : exec (.agen b) s = execAgen b s := rfl
@[simp] theorem exec_agch {b} (s : State) : exec (.agch b) s = execAgch b s := rfl
@[simp] theorem exec_mld {b} (s : State) : exec (.mld b) s = execMld b s := rfl
@[simp] theorem exec_mst {b} (s : State) : exec (.mst b) s = execMst b s := rfl
@[simp] theorem exec_matom {b} (s : State) : exec (.matom b) s = execMatom b s := rfl
@[simp] theorem exec_pin {b} (s : State) : exec (.pin b) s = execPin b s := rfl
@[simp] theorem exec_pout {b} (s : State) : exec (.pout b) s = execPout b s := rfl
@[simp] theorem exec_cseq {b} (s : State) : exec (.cseq b) s = execCseq b s := rfl
@[simp] theorem exec_cpipe {b} (s : State) : exec (.cpipe b) s = execCpipe b s := rfl
@[simp] theorem exec_cstrm {b} (s : State) : exec (.cstrm b) s = execCstrm b s := rfl
@[simp] theorem exec_eot {b} (s : State) : exec (.eot b) s = execEot b s := rfl
@[simp] theorem exec_eos {b} (s : State) : exec (.eos b) s = execEos b s := rfl
@[simp] theorem exec_tstm {b} (s : State) : exec (.tstm b) s = execTstm b s := rfl
@[simp] theorem exec_pqc {b} (s : State) : exec (.pqc b) s = execPqc b s := rfl
@[simp] theorem exec_smpl {b} (s : State) : exec (.smpl b) s = execSmpl b s := rfl
@[simp] theorem exec_acpt {b} (s : State) : exec (.acpt b) s = execAcpt b s := rfl
@[simp] theorem exec_rnge {b} (s : State) : exec (.rnge b) s = execRnge b s := rfl
@[simp] theorem exec_stcnt {b} (s : State) : exec (.stcnt b) s = execStcnt b s := rfl
@[simp] theorem exec_stadd {b} (s : State) : exec (.stadd b) s = execStadd b s := rfl
@[simp] theorem exec_elementMark {c k sh} (s : State) : exec (.elementMark c k sh) s = execElementMark c k sh s := rfl
@[simp] theorem exec_wavefrontSwapUnmarked {c k} (s : State) : exec (.wavefrontSwapUnmarked c k) s = execWavefrontSwapUnmarked c k s := rfl
@[simp] theorem exec_drainGatedSwap {c} (s : State) : exec (.drainGatedSwap c) s = execDrainGatedSwap c s := rfl
@[simp] theorem exec_gloadComplete {c} (s : State) : exec (.gloadComplete c) s = execGloadComplete c s := rfl
@[simp] theorem exec_firingStart {c} (s : State) : exec (.firingStart c) s = execFiringStart c s := rfl
@[simp] theorem exec_actorDrain {c} (s : State) : exec (.actorDrain c) s = execActorDrain c s := rfl
@[simp] theorem exec_wrptrWrite {c d} (s : State) : exec (.wrptrWrite c d) s = execWrptrWrite c d s := rfl
@[simp] theorem exec_rdptrMirror {c d} (s : State) : exec (.rdptrMirror c d) s = execRdptrMirror c d s := rfl
@[simp] theorem exec_memoryActorFiring {n} (s : State) : exec (.memoryActorFiring n) s = execMemoryActorFiring n s := rfl
@[simp] theorem exec_modeTokenAccept {g} (s : State) : exec (.modeTokenAccept g) s = execModeTokenAccept g s := rfl
@[simp] theorem exec_sequencerStop {c} (s : State) : exec (.sequencerStop c) s = execSequencerStop c s := rfl
@[simp] theorem exec_modeXpkgTimeout {g} (s : State) : exec (.modeXpkgTimeout g) s = execModeXpkgTimeout g s := rfl
@[simp] theorem exec_translationWalk {c q} (s : State) : exec (.translationWalk c q) s = execTranslationWalk c q s := rfl
@[simp] theorem exec_homePerform {c q} (s : State) : exec (.homePerform c q) s = execHomePerform c q s := rfl
@[simp] theorem exec_kittyResend {c q} (s : State) : exec (.kittyResend c q) s = execKittyResend c q s := rfl
@[simp] theorem exec_kittyRelease {x page} (s : State) : exec (.kittyRelease x page) s = execKittyRelease x page s := rfl
@[simp] theorem exec_kittyDecline {x page} (s : State) : exec (.kittyDecline x page) s = execKittyDecline x page s := rfl
@[simp] theorem exec_pageInvalidate {x first last} (s : State) : exec (.pageInvalidate x first last) s = execPageInvalidate x first last s := rfl
@[simp] theorem exec_rangeEntryWrite {x im d0 d1 d2 d3} (s : State) :
    exec (.rangeEntryWrite x im d0 d1 d2 d3) s = execRangeEntryWrite x im d0 d1 d2 d3 s := rfl
@[simp] theorem exec_remapDescriptorWrite {x im d0 d1} (s : State) :
    exec (.remapDescriptorWrite x im d0 d1) s = execRemapDescriptorWrite x im d0 d1 s := rfl
@[simp] theorem exec_queueEntryComplete {c q} (s : State) : exec (.queueEntryComplete c q) s = execQueueEntryComplete c q s := rfl
@[simp] theorem exec_sourceReleased {c q} (s : State) : exec (.sourceReleased c q) s = execSourceReleased c q s := rfl
@[simp] theorem exec_localAtomicTimeout {c q} (s : State) : exec (.localAtomicTimeout c q) s = execLocalAtomicTimeout c q s := rfl
@[simp] theorem exec_queueWaitTimeout {c} (s : State) : exec (.queueWaitTimeout c) s = execQueueWaitTimeout c s := rfl
@[simp] theorem exec_streamStart {c e} (s : State) : exec (.streamStart c e) s = execStreamStart c e s := rfl
@[simp] theorem exec_streamBurst {c e} (s : State) : exec (.streamBurst c e) s = execStreamBurst c e s := rfl
@[simp] theorem exec_streamSourceReleased {c e} (s : State) : exec (.streamSourceReleased c e) s = execStreamSourceReleased c e s := rfl
@[simp] theorem exec_streamVisible {c e} (s : State) : exec (.streamVisible c e) s = execStreamVisible c e s := rfl
@[simp] theorem exec_swaitTimeout {c} (s : State) : exec (.swaitTimeout c) s = execSwaitTimeout c s := rfl
@[simp] theorem exec_mxwaitTimeout {c} (s : State) : exec (.mxwaitTimeout c) s = execMxwaitTimeout c s := rfl
@[simp] theorem exec_gridWatchdog {c k} (s : State) : exec (.gridWatchdog c k) s = execGridWatchdog c k s := rfl
@[simp] theorem exec_portWaitTimeout {c k} (s : State) : exec (.portWaitTimeout c k) s = execPortWaitTimeout c k s := rfl
@[simp] theorem exec_barrierArrival {c n} (s : State) : exec (.barrierArrival c n) s = execBarrierArrival c n s := rfl
@[simp] theorem exec_launchRequest {c q} (s : State) : exec (.launchRequest c q) s = execLaunchRequest c q s := rfl
@[simp] theorem exec_imageValidation {g} (s : State) : exec (.imageValidation g) s = execImageValidation g s := rfl
@[simp] theorem exec_placementTimeout {g} (s : State) : exec (.placementTimeout g) s = execPlacementTimeout g s := rfl
@[simp] theorem exec_graphAdmit (s : State) : exec .graphAdmit s = execGraphAdmit s := rfl
@[simp] theorem exec_shadowReport {c cause} (s : State) : exec (.shadowReport c cause) s = execShadowReport c cause s := rfl
@[simp] theorem exec_statusTimeout {g} (s : State) : exec (.statusTimeout g) s = execStatusTimeout g s := rfl
@[simp] theorem exec_commitSwap {c} (s : State) : exec (.commitSwap c) s = execCommitSwap c s := rfl
@[simp] theorem exec_packageReport {g pkg ok} (s : State) : exec (.packageReport g pkg ok) s = execPackageReport g pkg ok s := rfl
@[simp] theorem exec_xpkgGo {g} (s : State) : exec (.xpkgGo g) s = execXpkgGo g s := rfl
@[simp] theorem exec_xpkgAbort {g} (s : State) : exec (.xpkgAbort g) s = execXpkgAbort g s := rfl
@[simp] theorem exec_xpkgReportTimeout {g} (s : State) : exec (.xpkgReportTimeout g) s = execXpkgReportTimeout g s := rfl
@[simp] theorem exec_peerHalt {g} (s : State) : exec (.peerHalt g) s = execPeerHalt g s := rfl
@[simp] theorem exec_freezeRequest {g} (s : State) : exec (.freezeRequest g) s = execFreezeRequest g s := rfl
@[simp] theorem exec_freezeWave {c} (s : State) : exec (.freezeWave c) s = execFreezeWave c s := rfl
@[simp] theorem exec_freezeComplete {g ok} (s : State) : exec (.freezeComplete g ok) s = execFreezeComplete g ok s := rfl
@[simp] theorem exec_freezeTimeout {g} (s : State) : exec (.freezeTimeout g) s = execFreezeTimeout g s := rfl
@[simp] theorem exec_graphStop {g} (s : State) : exec (.graphStop g) s = execGraphStop g s := rfl
@[simp] theorem exec_contextCreate {desc} (s : State) : exec (.contextCreate desc) s = execContextCreate desc s := rfl
@[simp] theorem exec_contextHalt {x} (s : State) : exec (.contextHalt x) s = execContextHalt x s := rfl
@[simp] theorem exec_contextResume {x} (s : State) : exec (.contextResume x) s = execContextResume x s := rfl
@[simp] theorem exec_noticeDelivery {x} (s : State) : exec (.noticeDelivery x) s = execNoticeDelivery x s := rfl
@[simp] theorem exec_cutMarker {c} (s : State) : exec (.cutMarker c) s = execCutMarker c s := rfl
@[simp] theorem exec_cutTimeout {g} (s : State) : exec (.cutTimeout g) s = execCutTimeout g s := rfl
@[simp] theorem exec_dumpStart (s : State) : exec .dumpStart s = execDumpStart s := rfl
@[simp] theorem exec_dumpComplete (s : State) : exec .dumpComplete s = execDumpComplete s := rfl
@[simp] theorem exec_dumpEngineFault (s : State) : exec .dumpEngineFault s = execDumpEngineFault s := rfl
@[simp] theorem exec_pendingRemoteExpiry {c q} (s : State) : exec (.pendingRemoteExpiry c q) s = execPendingRemoteExpiry c q s := rfl
@[simp] theorem exec_scrubStep {addr} (s : State) : exec (.scrubStep addr) s = execScrubStep addr s := rfl
@[simp] theorem exec_hbmRowSpare {addr} (s : State) : exec (.hbmRowSpare addr) s = execHbmRowSpare addr s := rfl
@[simp] theorem exec_streamDataSlot {suit slot} (s : State) : exec (.streamDataSlot suit slot) s = execStreamDataSlot suit slot s := rfl
@[simp] theorem exec_windowWriteSlot {suit slot} (s : State) : exec (.windowWriteSlot suit slot) s = execWindowWriteSlot suit slot s := rfl
@[simp] theorem exec_deckAtomicSlot {suit slot} (s : State) : exec (.deckAtomicSlot suit slot) s = execDeckAtomicSlot suit slot s := rfl
@[simp] theorem exec_memoryActorResponseSlot {suit slot} (s : State) :
    exec (.memoryActorResponseSlot suit slot) s = execMemoryActorResponseSlot suit slot s := rfl
@[simp] theorem exec_noticeSlot {slot} (s : State) : exec (.noticeSlot slot) s = execNoticeSlot slot s := rfl
@[simp] theorem exec_creditSlot {layer} (s : State) : exec (.creditSlot layer) s = execCreditSlot layer s := rfl
@[simp] theorem exec_refreshCopySlot {slot} (s : State) : exec (.refreshCopySlot slot) s = execRefreshCopySlot slot s := rfl
@[simp] theorem exec_returnRecordSlot {slot} (s : State) : exec (.returnRecordSlot slot) s = execReturnRecordSlot slot s := rfl
@[simp] theorem exec_frameBoundary (s : State) : exec .frameBoundary s = execFrameBoundary s := rfl
@[simp] theorem exec_replicaApply {layer} (s : State) : exec (.replicaApply layer) s = execReplicaApply layer s := rfl
@[simp] theorem exec_calendarWrite {im w} (s : State) : exec (.calendarWrite im w) s = execCalendarWrite im w s := rfl
@[simp] theorem exec_dkwinRangeWrite {x base size} (s : State) : exec (.dkwinRangeWrite x base size) s = execDkwinRangeWrite x base size s := rfl
@[simp] theorem exec_cardSleep {card} (s : State) : exec (.cardSleep card) s = execCardSleep card s := rfl
@[simp] theorem exec_cardWake {card} (s : State) : exec (.cardWake card) s = execCardWake card s := rfl
@[simp] theorem exec_wakeSequenceTimeout {card} (s : State) : exec (.wakeSequenceTimeout card) s = execWakeSequenceTimeout card s := rfl
@[simp] theorem exec_sensorSample {card temp} (s : State) : exec (.sensorSample card temp) s = execSensorSample card temp s := rfl
@[simp] theorem exec_thermalRepeat {card} (s : State) : exec (.thermalRepeat card) s = execThermalRepeat card s := rfl
@[simp] theorem exec_sensorSilent {card} (s : State) : exec (.sensorSilent card) s = execSensorSilent card s := rfl
@[simp] theorem exec_edgeViaOvercurrent {card} (s : State) : exec (.edgeViaOvercurrent card) s = execEdgeViaOvercurrent card s := rfl
@[simp] theorem exec_supplyDroop {island} (s : State) : exec (.supplyDroop island) s = execSupplyDroop island s := rfl
@[simp] theorem exec_moduleLimitWrite {halfWatts} (s : State) : exec (.moduleLimitWrite halfWatts) s = execModuleLimitWrite halfWatts s := rfl
@[simp] theorem exec_powerGate {c} (s : State) : exec (.powerGate c) s = execPowerGate c s := rfl
@[simp] theorem exec_coreWakeComplete {c} (s : State) : exec (.coreWakeComplete c) s = execCoreWakeComplete c s := rfl
@[simp] theorem exec_wakeTimeout {c} (s : State) : exec (.wakeTimeout c) s = execWakeTimeout c s := rfl
@[simp] theorem exec_remoteRequest {m} (s : State) : exec (.remoteRequest m) s = execRemoteRequest m s := rfl
@[simp] theorem exec_remoteResponse {c q cause data} (s : State) :
    exec (.remoteResponse c q cause data) s = execRemoteResponse c q cause data s := rfl
@[simp] theorem exec_remoteTimeout {c q} (s : State) : exec (.remoteTimeout c q) s = execRemoteTimeout c q s := rfl
@[simp] theorem exec_vcTokenArrival {ch bytes late} (s : State) : exec (.vcTokenArrival ch bytes late) s = execVcTokenArrival ch bytes late s := rfl
@[simp] theorem exec_vcCredit {ch rdptr} (s : State) : exec (.vcCredit ch rdptr) s = execVcCredit ch rdptr s := rfl
@[simp] theorem exec_portRetrain {n} (s : State) : exec (.portRetrain n) s = execPortRetrain n s := rfl
@[simp] theorem exec_portRetrained {n} (s : State) : exec (.portRetrained n) s = execPortRetrained n s := rfl
@[simp] theorem exec_portDown {n reroute} (s : State) : exec (.portDown n reroute) s = execPortDown n reroute s := rfl
@[simp] theorem exec_flitUncorrectable {o} (s : State) : exec (.flitUncorrectable o) s = execFlitUncorrectable o s := rfl
@[simp] theorem exec_domainEnumeration {pkg} (s : State) : exec (.domainEnumeration pkg) s = execDomainEnumeration pkg s := rfl
@[simp] theorem exec_ingressWrite {n off bytes poisoned} (s : State) :
    exec (.ingressWrite n off bytes poisoned) s = execIngressWrite n off bytes poisoned s := rfl
@[simp] theorem exec_creditWriteback {n} (s : State) : exec (.creditWriteback n) s = execCreditWriteback n s := rfl
@[simp] theorem exec_openRecord {n} (s : State) : exec (.openRecord n) s = execOpenRecord n s := rfl
@[simp] theorem exec_dataRecord {n} (s : State) : exec (.dataRecord n) s = execDataRecord n s := rfl
@[simp] theorem exec_closeRecord {n} (s : State) : exec (.closeRecord n) s = execCloseRecord n s := rfl
@[simp] theorem exec_modeRecord {n} (s : State) : exec (.modeRecord n) s = execModeRecord n s := rfl
@[simp] theorem exec_ingressDrainAccepted {n} (s : State) : exec (.ingressDrainAccepted n) s = execIngressDrainAccepted n s := rfl
@[simp] theorem exec_ingressEn {n en} (s : State) : exec (.ingressEn n en) s = execIngressEn n en s := rfl
@[simp] theorem exec_ingressRst {n} (s : State) : exec (.ingressRst n) s = execIngressRst n s := rfl
@[simp] theorem exec_egressEn {n en} (s : State) : exec (.egressEn n en) s = execEgressEn n en s := rfl
@[simp] theorem exec_egressRst {n} (s : State) : exec (.egressRst n) s = execEgressRst n s := rfl
@[simp] theorem exec_rdposWrite {n v} (s : State) : exec (.rdposWrite n v) s = execRdposWrite n v s := rfl
@[simp] theorem exec_graphStoreEnable {w} (s : State) : exec (.graphStoreEnable w) s = execGraphStoreEnable w s := rfl
@[simp] theorem exec_graphStoreAccess {off wr bytes} (s : State) :
    exec (.graphStoreAccess off wr bytes) s = execGraphStoreAccess off wr bytes s := rfl
@[simp] theorem exec_egressRecordWrite {n} (s : State) : exec (.egressRecordWrite n) s = execEgressRecordWrite n s := rfl
@[simp] theorem exec_completionWordWrite {n} (s : State) : exec (.completionWordWrite n) s = execCompletionWordWrite n s := rfl
@[simp] theorem exec_pcieLinkDown (s : State) : exec .pcieLinkDown s = execPcieLinkDown s := rfl
@[simp] theorem exec_registerWrite {off v} (s : State) : exec (.registerWrite off v) s = execRegisterWrite off v s := rfl
@[simp] theorem exec_coldReset (s : State) : exec .coldReset s = execColdReset s := rfl
@[simp] theorem exec_quoteCapture (s : State) : exec .quoteCapture s = execQuoteCapture s := rfl
@[simp] theorem exec_quoteExtendApply (s : State) : exec .quoteExtendApply s = execQuoteExtendApply s := rfl
@[simp] theorem exec_getVersion {r} (s : State) : exec (.getVersion r) s = execGetVersion r s := rfl
@[simp] theorem exec_getCapabilities {r} (s : State) : exec (.getCapabilities r) s = execGetCapabilities r s := rfl
@[simp] theorem exec_negotiateAlgorithms {r} (s : State) : exec (.negotiateAlgorithms r) s = execNegotiateAlgorithms r s := rfl
@[simp] theorem exec_getDigests {r} (s : State) : exec (.getDigests r) s = execGetDigests r s := rfl
@[simp] theorem exec_getCertificate {r} (s : State) : exec (.getCertificate r) s = execGetCertificate r s := rfl
@[simp] theorem exec_challenge {r} (s : State) : exec (.challenge r) s = execChallenge r s := rfl
@[simp] theorem exec_getMeasurements {r} (s : State) : exec (.getMeasurements r) s = execGetMeasurements r s := rfl
@[simp] theorem exec_spdmUnsupportedRequest {r} (s : State) : exec (.spdmUnsupportedRequest r) s = execSpdmUnsupportedRequest r s := rfl
@[simp] theorem exec_victimMinRunTime {g} (s : State) : exec (.victimMinRunTime g) s = execVictimMinRunTime g s := rfl
@[simp] theorem exec_contextDestroy {x} (s : State) : exec (.contextDestroy x) s = execContextDestroy x s := rfl
@[simp] theorem exec_unassignedEncoding {w w2 cause} (s : State) :
    exec (.unassignedEncoding w w2 cause) s = execUnassignedEncoding w w2 cause s := rfl
@[simp] theorem exec_instructionFetchFault {cause} (s : State) : exec (.instructionFetchFault cause) s = execInstructionFetchFault cause s := rfl

end Sys2Proof.Machine
end

