-- ==== Sys2Proof/Laws/Maps.lean ====
section
/-! SUPPORT. The finite maps of the state, the bytes of memory, and their canonical form. -/

namespace Sys2Proof.Machine

/-! ### Finite maps -/

theorem NMap.find_put_self {α : Type} (m : NMap α) (k : Nat) (x : α) : NMap.find (NMap.put m k x) k = some x := by
  induction m with
  | nil => simp [NMap.put, NMap.find]
  | cons p m ih =>
    obtain ⟨a, v⟩ := p
    simp only [NMap.put]
    split
    · simp [NMap.find]
    · split
      · simp [NMap.find]
      · rename_i h1 h2; simp [NMap.find, h1, h2, ih]

theorem NMap.find_put_ne {α : Type} (m : NMap α) {k n : Nat} (x : α) (h : n ≠ k) :
    NMap.find (NMap.put m k x) n = NMap.find m n := by
  induction m with
  | nil => simp [NMap.put, NMap.find, h]
  | cons p m ih =>
    obtain ⟨a, v⟩ := p
    simp only [NMap.put]
    split
    · rename_i h1; subst h1; simp [NMap.find, h]
    · split
      · simp only [NMap.find, h, if_false]
        split
        · split
          · omega
          · split <;> first | rfl | omega
        · rfl
      · simp [NMap.find, ih]

theorem NMap.put_put {α : Type} (m : NMap α) (k : Nat) (x y : α) : NMap.put (NMap.put m k x) k y = NMap.put m k y := by
  induction m with
  | nil => simp [NMap.put]
  | cons p m ih =>
    obtain ⟨a, v⟩ := p
    simp only [NMap.put]
    split
    · simp [NMap.put]
    · split
      · simp [NMap.put]
      · rename_i h1 h2; simp [NMap.put, h1, h2, ih]

theorem NMap.getD_eq {α : Type} (d : α) (m : NMap α) (k : Nat) : NMap.getD d m k = (NMap.find m k).getD d := by
  induction m with
  | nil => rfl
  | cons p m ih =>
    obtain ⟨a, v⟩ := p
    simp only [NMap.getD, NMap.find]
    split
    · rfl
    · split
      · rfl
      · exact ih

theorem NMap.getD_put_self {α : Type} (d : α) (m : NMap α) (k : Nat) (x : α) : NMap.getD d (NMap.put m k x) k = x := by
  simp [NMap.getD_eq, NMap.find_put_self]

theorem NMap.getD_put_ne {α : Type} (d : α) (m : NMap α) {k n : Nat} (x : α) (h : n ≠ k) :
    NMap.getD d (NMap.put m k x) n = NMap.getD d m n := by
  simp [NMap.getD_eq, NMap.find_put_ne _ _ h]

/-- Putting back what is there changes nothing. -/
theorem NMap.put_find {α : Type} (m : NMap α) (k : Nat) (x : α) (h : NMap.find m k = some x) : NMap.put m k x = m := by
  induction m with
  | nil => simp [NMap.find] at h
  | cons p m ih =>
    obtain ⟨a, v⟩ := p
    simp only [NMap.find] at h
    simp only [NMap.put]
    split
    · rename_i h1; subst h1; simp at h; simp [h]
    · split
      · simp_all
      · rename_i h1 h2; simp [h1, h2] at h; simp [ih h]

/-- Two entries of one map, in either order. -/
theorem NMap.getD_put {α : Type} (d : α) (m : NMap α) (k n : Nat) (x : α) :
    NMap.getD d (NMap.put m k x) n = if n = k then x else NMap.getD d m n := by
  split
  · rename_i h; subst h; exact NMap.getD_put_self ..
  · rename_i h; exact NMap.getD_put_ne _ _ _ h

theorem NMap.find_put {α : Type} (m : NMap α) (k n : Nat) (x : α) :
    NMap.find (NMap.put m k x) n = if n = k then some x else NMap.find m n := by
  split
  · rename_i h; subst h; exact NMap.find_put_self ..
  · rename_i h; exact NMap.find_put_ne _ _ h

/-! ### Bytes of memory -/

/-- Every address of a memory lies above a number. -/
def Memory.above (n : Nat) (m : List Host.Cell) : Prop := ∀ p ∈ m, n < p.1

theorem Memory.wf_cons {a : Nat} {b : Byte} {m : List Host.Cell} :
    Memory.wf ((a, b) :: m) = true ↔ b ≠ memDefault ∧ Memory.above a m ∧ Memory.wf m = true := by
  induction m generalizing a b with
  | nil => simp [Memory.wf, Memory.above]
  | cons p m ih =>
    obtain ⟨c, d⟩ := p
    simp only [Memory.wf, Bool.and_eq_true, bne_iff_ne, decide_eq_true_eq, Memory.above, List.mem_cons,
      forall_eq_or_imp]
    constructor
    · rintro ⟨⟨h1, h2⟩, h3⟩
      exact ⟨h1, ⟨h2, fun q hq => Nat.lt_trans h2 ((ih.1 h3).2.1 q hq)⟩, h3⟩
    · rintro ⟨h1, ⟨h2, _⟩, h3⟩
      exact ⟨⟨h1, h2⟩, h3⟩

theorem Memory.above_mono {n k : Nat} {m : List Host.Cell} (h : Memory.above n m) (hk : k ≤ n) : Memory.above k m :=
  fun p hp => Nat.lt_of_le_of_lt hk (h p hp)

theorem memGet_above {n : Nat} {m : List Host.Cell} (h : Memory.above n m) {a : Nat} (ha : a ≤ n) : memGet m a = memDefault := by
  cases m with
  | nil => rfl
  | cons p m =>
    obtain ⟨c, d⟩ := p
    have := h (c, d) (by simp)
    simp only at this
    simp only [memGet]
    split
    · omega
    · split
      · rfl
      · omega

theorem memDel_above {n a : Nat} {m : List Host.Cell} (h : Memory.above n m) : Memory.above n (memDel m a) := by
  induction m with
  | nil => exact h
  | cons p m ih =>
    obtain ⟨c, d⟩ := p
    have hc := h (c, d) (by simp)
    have hm : Memory.above n m := fun q hq => h q (by simp [hq])
    simp only [memDel]
    split
    · exact hm
    · split
      · exact h
      · intro q hq
        rcases List.mem_cons.1 hq with rfl | hq
        · exact hc
        · exact ih hm q hq

theorem memIns_above {n a : Nat} {b : Byte} {m : List Host.Cell} (h : Memory.above n m) (ha : n < a) :
    Memory.above n (memIns m a b) := by
  induction m with
  | nil => intro q hq; simp only [memIns, List.mem_cons, List.not_mem_nil, or_false] at hq; subst hq; exact ha
  | cons p m ih =>
    obtain ⟨c, d⟩ := p
    have hc := h (c, d) (by simp)
    have hm : Memory.above n m := fun q hq => h q (by simp [hq])
    simp only [memIns]
    split
    · intro q hq
      rcases List.mem_cons.1 hq with rfl | hq
      · exact ha
      · exact hm q hq
    · split
      · intro q hq
        rcases List.mem_cons.1 hq with rfl | hq
        · exact ha
        · exact h q hq
      · intro q hq
        rcases List.mem_cons.1 hq with rfl | hq
        · exact hc
        · exact ih hm q hq

theorem memDel_wf {a : Nat} {m : List Host.Cell} (h : Memory.wf m = true) : Memory.wf (memDel m a) = true := by
  induction m with
  | nil => exact h
  | cons p m ih =>
    obtain ⟨c, d⟩ := p
    have hw := Memory.wf_cons.1 h
    simp only [memDel]
    split
    · exact hw.2.2
    · split
      · exact h
      · exact Memory.wf_cons.2 ⟨hw.1, memDel_above hw.2.1, ih hw.2.2⟩

theorem memIns_wf {a : Nat} {b : Byte} {m : List Host.Cell} (h : Memory.wf m = true) (hb : b ≠ memDefault) :
    Memory.wf (memIns m a b) = true := by
  induction m with
  | nil => simp [memIns, Memory.wf, hb]
  | cons p m ih =>
    obtain ⟨c, d⟩ := p
    have hw := Memory.wf_cons.1 h
    simp only [memIns]
    split
    · rename_i hc; subst hc; exact Memory.wf_cons.2 ⟨hb, hw.2.1, hw.2.2⟩
    · split
      · rename_i h1 h2
        refine Memory.wf_cons.2 ⟨hb, ?_, h⟩
        intro q hq
        rcases List.mem_cons.1 hq with rfl | hq
        · exact h2
        · exact Nat.lt_trans h2 (hw.2.1 q hq)
      · rename_i h1 h2
        exact Memory.wf_cons.2 ⟨hw.1, memIns_above hw.2.1 (by omega), ih hw.2.2⟩

/-- Writing a byte keeps the canonical form. -/
theorem memPut_wf {a : Nat} {b : Byte} {m : List Host.Cell} (h : Memory.wf m = true) : Memory.wf (memPut m a b) = true := by
  unfold memPut
  split
  · exact memDel_wf h
  · rename_i hb; exact memIns_wf h hb

/-- Writing bytes keeps the canonical form. -/
theorem memWrite_wf {a : Nat} {bs : List Byte} {m : List Host.Cell} (h : Memory.wf m = true) :
    Memory.wf (memWrite m a bs) = true := by
  induction bs generalizing m a with
  | nil => exact h
  | cons b bs ih => exact ih (memPut_wf h)

/-- Keeping some cells keeps the canonical form. -/
theorem memFilter_wf {p : Host.Cell → Bool} {m : List Host.Cell} (h : Memory.wf m = true) : Memory.wf (m.filter p) = true := by
  induction m with
  | nil => exact h
  | cons q m ih =>
    obtain ⟨c, d⟩ := q
    have hw := Memory.wf_cons.1 h
    simp only [List.filter_cons]
    split
    · exact Memory.wf_cons.2 ⟨hw.1, fun r hr => hw.2.1 r (List.mem_filter.1 hr).1, ih hw.2.2⟩
    · exact ih hw.2.2

theorem memGet_memDel {a x : Nat} {m : List Host.Cell} (h : Memory.wf m = true) :
    memGet (memDel m a) x = if x = a then memDefault else memGet m x := by
  induction m with
  | nil => simp [memDel, memGet]
  | cons p m ih =>
    obtain ⟨c, d⟩ := p
    have hw := Memory.wf_cons.1 h
    simp only [memDel]
    split
    · rename_i hc; subst hc
      split
      · rename_i hx; subst hx; exact memGet_above hw.2.1 (Nat.le_refl _)
      · rename_i hx
        simp only [memGet, hx, if_false]
        split
        · rename_i hl; exact memGet_above hw.2.1 (by omega)
        · rfl
    · split
      · rename_i h1 h2
        split
        · rename_i hx; subst hx; simp [memGet, h1, h2]
        · rfl
      · rename_i h1 h2
        simp only [memGet, ih hw.2.2]
        split
        · rename_i hx; subst hx; simp [Ne.symm h1]
        · split
          · split <;> rfl
          · rfl

theorem memGet_memIns {a x : Nat} {b : Byte} {m : List Host.Cell} (h : Memory.wf m = true) :
    memGet (memIns m a b) x = if x = a then b else memGet m x := by
  induction m with
  | nil => simp only [memIns, memGet]; split <;> simp
  | cons p m ih =>
    obtain ⟨c, d⟩ := p
    have hw := Memory.wf_cons.1 h
    simp only [memIns]
    split
    · rename_i hc; subst hc
      simp only [memGet]
      split <;> rfl
    · split
      · rename_i h1 h2
        simp only [memGet]
        split
        · rfl
        · split
          · rename_i hx hl
            rw [if_neg (by omega), if_pos (by omega)]
          · rfl
      · rename_i h1 h2
        simp only [memGet, ih hw.2.2]
        split
        · rename_i hx; subst hx; simp [Ne.symm h1]
        · split
          · rw [if_neg (by omega)]
          · rfl

/-- Reading after writing a byte. -/
theorem memGet_memPut {a x : Nat} {b : Byte} {m : List Host.Cell} (h : Memory.wf m = true) :
    memGet (memPut m a b) x = if x = a then b else memGet m x := by
  unfold memPut
  split
  · rename_i hb; subst hb; exact memGet_memDel h
  · exact memGet_memIns h

/-- Reading after writing bytes. -/
theorem memGet_memWrite {a x : Nat} {bs : List Byte} {m : List Host.Cell} (h : Memory.wf m = true) :
    memGet (memWrite m a bs) x = if a ≤ x ∧ x < a + bs.length then bs.getD (x - a) 0 else memGet m x := by
  induction bs generalizing m a with
  | nil => simp only [memWrite, List.length_nil]; rw [if_neg (by omega)]
  | cons b bs ih =>
    simp only [memWrite, List.length_cons, ih (memPut_wf h), memGet_memPut h]
    by_cases h1 : a + 1 ≤ x ∧ x < a + 1 + bs.length
    · rw [if_pos h1, if_pos (by omega)]
      obtain ⟨k, hk⟩ : ∃ k, x - a = k + 1 := ⟨x - a - 1, by omega⟩
      rw [hk, show x - (a + 1) = k by omega]
      simp
    · rw [if_neg h1]
      by_cases h2 : x = a
      · subst h2; simp
      · rw [if_neg h2, if_neg (by omega)]

theorem memRead_eq (m : List Host.Cell) (a n : Nat) : memRead m a n = (List.range n).map fun i => memGet m (a + i) := by
  induction n generalizing a with
  | zero => rfl
  | succ n ih =>
    simp only [memRead, ih, List.range_succ_eq_map, List.map_cons, List.map_map, Nat.add_zero]
    congr 1
    apply List.map_congr_left
    intro i _
    simp only [Function.comp_apply]
    congr 1
    omega

end Sys2Proof.Machine
end

