-- ==== Sys2Proof/Laws/State.lean ====
section
/-! SUPPORT. What the updates of the state leave of each field, and what they make of the cores. -/

namespace Sys2Proof.Machine

namespace State

@[simp] theorem setCore_mem (s : State) (c : Nat) (k : Core) : (s.setCore c k).mem = s.mem := rfl
@[simp] theorem setCore_ctxs (s : State) (c : Nat) (k : Core) : (s.setCore c k).ctxs = s.ctxs := rfl
@[simp] theorem setCore_graphs (s : State) (c : Nat) (k : Core) : (s.setCore c k).graphs = s.graphs := rfl
@[simp] theorem setCore_grade (s : State) (c : Nat) (k : Core) : (s.setCore c k).grade = s.grade := rfl
@[simp] theorem setCore_time (s : State) (c : Nat) (k : Core) : (s.setCore c k).time = s.time := rfl
@[simp] theorem setCore_turn (s : State) (c : Nat) (k : Core) : (s.setCore c k).turn = s.turn := rfl
@[simp] theorem setCore_focus (s : State) (c : Nat) (k : Core) : (s.setCore c k).focus = s.focus := rfl
@[simp] theorem setCore_agenda (s : State) (c : Nat) (k : Core) : (s.setCore c k).agenda = s.agenda := rfl
@[simp] theorem setCore_actors (s : State) (c : Nat) (k : Core) : (s.setCore c k).actors = s.actors := rfl
@[simp] theorem setCore_streams (s : State) (c : Nat) (k : Core) : (s.setCore c k).streams = s.streams := rfl
@[simp] theorem setCore_deck (s : State) (c : Nat) (k : Core) : (s.setCore c k).deck = s.deck := rfl
@[simp] theorem setCore_host (s : State) (c : Nat) (k : Core) : (s.setCore c k).host = s.host := rfl
@[simp] theorem setCore_links (s : State) (c : Nat) (k : Core) : (s.setCore c k).links = s.links := rfl
@[simp] theorem setCore_power (s : State) (c : Nat) (k : Core) : (s.setCore c k).power = s.power := rfl
@[simp] theorem setCore_sec (s : State) (c : Nat) (k : Core) : (s.setCore c k).sec = s.sec := rfl
@[simp] theorem setCore_kitty (s : State) (c : Nat) (k : Core) : (s.setCore c k).kitty = s.kitty := rfl
@[simp] theorem setCore_dump (s : State) (c : Nat) (k : Core) : (s.setCore c k).dump = s.dump := rfl
@[simp] theorem setCore_ecc (s : State) (c : Nat) (k : Core) : (s.setCore c k).ecc = s.ecc := rfl
@[simp] theorem setCore_mgmt (s : State) (c : Nat) (k : Core) : (s.setCore c k).mgmt = s.mgmt := rfl
@[simp] theorem setCore_mgmtLost (s : State) (c : Nat) (k : Core) : (s.setCore c k).mgmtLost = s.mgmtLost := rfl
@[simp] theorem setCore_mgmtCounts (s : State) (c : Nat) (k : Core) : (s.setCore c k).mgmtCounts = s.mgmtCounts := rfl
@[simp] theorem setCore_dealer (s : State) (c : Nat) (k : Core) : (s.setCore c k).dealer = s.dealer := rfl
@[simp] theorem setCore_order (s : State) (c : Nat) (k : Core) : (s.setCore c k).order = s.order := rfl
@[simp] theorem setCore_fresh (s : State) (c : Nat) (k : Core) : (s.setCore c k).fresh = s.fresh := rfl

@[simp] theorem modCore_mem (s : State) (c : Nat) (f : Core → Core) : (s.modCore c f).mem = s.mem := rfl
@[simp] theorem modCore_ctxs (s : State) (c : Nat) (f : Core → Core) : (s.modCore c f).ctxs = s.ctxs := rfl
@[simp] theorem modCore_graphs (s : State) (c : Nat) (f : Core → Core) : (s.modCore c f).graphs = s.graphs := rfl
@[simp] theorem modCore_grade (s : State) (c : Nat) (f : Core → Core) : (s.modCore c f).grade = s.grade := rfl
@[simp] theorem modCore_time (s : State) (c : Nat) (f : Core → Core) : (s.modCore c f).time = s.time := rfl
@[simp] theorem modCore_turn (s : State) (c : Nat) (f : Core → Core) : (s.modCore c f).turn = s.turn := rfl
@[simp] theorem modCore_focus (s : State) (c : Nat) (f : Core → Core) : (s.modCore c f).focus = s.focus := rfl
@[simp] theorem modCore_agenda (s : State) (c : Nat) (f : Core → Core) : (s.modCore c f).agenda = s.agenda := rfl
@[simp] theorem modCore_actors (s : State) (c : Nat) (f : Core → Core) : (s.modCore c f).actors = s.actors := rfl
@[simp] theorem modCore_streams (s : State) (c : Nat) (f : Core → Core) : (s.modCore c f).streams = s.streams := rfl
@[simp] theorem modCore_deck (s : State) (c : Nat) (f : Core → Core) : (s.modCore c f).deck = s.deck := rfl
@[simp] theorem modCore_host (s : State) (c : Nat) (f : Core → Core) : (s.modCore c f).host = s.host := rfl
@[simp] theorem modCore_links (s : State) (c : Nat) (f : Core → Core) : (s.modCore c f).links = s.links := rfl
@[simp] theorem modCore_power (s : State) (c : Nat) (f : Core → Core) : (s.modCore c f).power = s.power := rfl
@[simp] theorem modCore_sec (s : State) (c : Nat) (f : Core → Core) : (s.modCore c f).sec = s.sec := rfl
@[simp] theorem modCore_kitty (s : State) (c : Nat) (f : Core → Core) : (s.modCore c f).kitty = s.kitty := rfl
@[simp] theorem modCore_dump (s : State) (c : Nat) (f : Core → Core) : (s.modCore c f).dump = s.dump := rfl
@[simp] theorem modCore_ecc (s : State) (c : Nat) (f : Core → Core) : (s.modCore c f).ecc = s.ecc := rfl
@[simp] theorem modCore_mgmt (s : State) (c : Nat) (f : Core → Core) : (s.modCore c f).mgmt = s.mgmt := rfl
@[simp] theorem modCore_mgmtLost (s : State) (c : Nat) (f : Core → Core) : (s.modCore c f).mgmtLost = s.mgmtLost := rfl
@[simp] theorem modCore_mgmtCounts (s : State) (c : Nat) (f : Core → Core) : (s.modCore c f).mgmtCounts = s.mgmtCounts := rfl
@[simp] theorem modCore_dealer (s : State) (c : Nat) (f : Core → Core) : (s.modCore c f).dealer = s.dealer := rfl
@[simp] theorem modCore_order (s : State) (c : Nat) (f : Core → Core) : (s.modCore c f).order = s.order := rfl
@[simp] theorem modCore_fresh (s : State) (c : Nat) (f : Core → Core) : (s.modCore c f).fresh = s.fresh := rfl

@[simp] theorem modCur_mem (s : State) (f : Core → Core) : (s.modCur f).mem = s.mem := rfl
@[simp] theorem modCur_ctxs (s : State) (f : Core → Core) : (s.modCur f).ctxs = s.ctxs := rfl
@[simp] theorem modCur_graphs (s : State) (f : Core → Core) : (s.modCur f).graphs = s.graphs := rfl
@[simp] theorem modCur_grade (s : State) (f : Core → Core) : (s.modCur f).grade = s.grade := rfl
@[simp] theorem modCur_time (s : State) (f : Core → Core) : (s.modCur f).time = s.time := rfl
@[simp] theorem modCur_turn (s : State) (f : Core → Core) : (s.modCur f).turn = s.turn := rfl
@[simp] theorem modCur_focus (s : State) (f : Core → Core) : (s.modCur f).focus = s.focus := rfl
@[simp] theorem modCur_agenda (s : State) (f : Core → Core) : (s.modCur f).agenda = s.agenda := rfl
@[simp] theorem modCur_actors (s : State) (f : Core → Core) : (s.modCur f).actors = s.actors := rfl
@[simp] theorem modCur_streams (s : State) (f : Core → Core) : (s.modCur f).streams = s.streams := rfl
@[simp] theorem modCur_deck (s : State) (f : Core → Core) : (s.modCur f).deck = s.deck := rfl
@[simp] theorem modCur_host (s : State) (f : Core → Core) : (s.modCur f).host = s.host := rfl
@[simp] theorem modCur_links (s : State) (f : Core → Core) : (s.modCur f).links = s.links := rfl
@[simp] theorem modCur_power (s : State) (f : Core → Core) : (s.modCur f).power = s.power := rfl
@[simp] theorem modCur_sec (s : State) (f : Core → Core) : (s.modCur f).sec = s.sec := rfl
@[simp] theorem modCur_kitty (s : State) (f : Core → Core) : (s.modCur f).kitty = s.kitty := rfl
@[simp] theorem modCur_dump (s : State) (f : Core → Core) : (s.modCur f).dump = s.dump := rfl
@[simp] theorem modCur_ecc (s : State) (f : Core → Core) : (s.modCur f).ecc = s.ecc := rfl
@[simp] theorem modCur_mgmt (s : State) (f : Core → Core) : (s.modCur f).mgmt = s.mgmt := rfl
@[simp] theorem modCur_mgmtLost (s : State) (f : Core → Core) : (s.modCur f).mgmtLost = s.mgmtLost := rfl
@[simp] theorem modCur_mgmtCounts (s : State) (f : Core → Core) : (s.modCur f).mgmtCounts = s.mgmtCounts := rfl
@[simp] theorem modCur_dealer (s : State) (f : Core → Core) : (s.modCur f).dealer = s.dealer := rfl
@[simp] theorem modCur_order (s : State) (f : Core → Core) : (s.modCur f).order = s.order := rfl
@[simp] theorem modCur_fresh (s : State) (f : Core → Core) : (s.modCur f).fresh = s.fresh := rfl

@[simp] theorem setReg_mem (s : State) (r : Reg) (v : Word) : (s.setReg r v).mem = s.mem := rfl
@[simp] theorem setReg_ctxs (s : State) (r : Reg) (v : Word) : (s.setReg r v).ctxs = s.ctxs := rfl
@[simp] theorem setReg_graphs (s : State) (r : Reg) (v : Word) : (s.setReg r v).graphs = s.graphs := rfl
@[simp] theorem setReg_grade (s : State) (r : Reg) (v : Word) : (s.setReg r v).grade = s.grade := rfl
@[simp] theorem setReg_time (s : State) (r : Reg) (v : Word) : (s.setReg r v).time = s.time := rfl
@[simp] theorem setReg_turn (s : State) (r : Reg) (v : Word) : (s.setReg r v).turn = s.turn := rfl
@[simp] theorem setReg_focus (s : State) (r : Reg) (v : Word) : (s.setReg r v).focus = s.focus := rfl
@[simp] theorem setReg_agenda (s : State) (r : Reg) (v : Word) : (s.setReg r v).agenda = s.agenda := rfl
@[simp] theorem setReg_actors (s : State) (r : Reg) (v : Word) : (s.setReg r v).actors = s.actors := rfl
@[simp] theorem setReg_streams (s : State) (r : Reg) (v : Word) : (s.setReg r v).streams = s.streams := rfl
@[simp] theorem setReg_deck (s : State) (r : Reg) (v : Word) : (s.setReg r v).deck = s.deck := rfl
@[simp] theorem setReg_host (s : State) (r : Reg) (v : Word) : (s.setReg r v).host = s.host := rfl
@[simp] theorem setReg_links (s : State) (r : Reg) (v : Word) : (s.setReg r v).links = s.links := rfl
@[simp] theorem setReg_power (s : State) (r : Reg) (v : Word) : (s.setReg r v).power = s.power := rfl
@[simp] theorem setReg_sec (s : State) (r : Reg) (v : Word) : (s.setReg r v).sec = s.sec := rfl
@[simp] theorem setReg_kitty (s : State) (r : Reg) (v : Word) : (s.setReg r v).kitty = s.kitty := rfl
@[simp] theorem setReg_dump (s : State) (r : Reg) (v : Word) : (s.setReg r v).dump = s.dump := rfl
@[simp] theorem setReg_ecc (s : State) (r : Reg) (v : Word) : (s.setReg r v).ecc = s.ecc := rfl
@[simp] theorem setReg_mgmt (s : State) (r : Reg) (v : Word) : (s.setReg r v).mgmt = s.mgmt := rfl
@[simp] theorem setReg_mgmtLost (s : State) (r : Reg) (v : Word) : (s.setReg r v).mgmtLost = s.mgmtLost := rfl
@[simp] theorem setReg_mgmtCounts (s : State) (r : Reg) (v : Word) : (s.setReg r v).mgmtCounts = s.mgmtCounts := rfl
@[simp] theorem setReg_dealer (s : State) (r : Reg) (v : Word) : (s.setReg r v).dealer = s.dealer := rfl
@[simp] theorem setReg_order (s : State) (r : Reg) (v : Word) : (s.setReg r v).order = s.order := rfl
@[simp] theorem setReg_fresh (s : State) (r : Reg) (v : Word) : (s.setReg r v).fresh = s.fresh := rfl

@[simp] theorem goto_mem (s : State) (a : Nat) : (s.goto a).mem = s.mem := rfl
@[simp] theorem goto_ctxs (s : State) (a : Nat) : (s.goto a).ctxs = s.ctxs := rfl
@[simp] theorem goto_graphs (s : State) (a : Nat) : (s.goto a).graphs = s.graphs := rfl
@[simp] theorem goto_grade (s : State) (a : Nat) : (s.goto a).grade = s.grade := rfl
@[simp] theorem goto_time (s : State) (a : Nat) : (s.goto a).time = s.time := rfl
@[simp] theorem goto_turn (s : State) (a : Nat) : (s.goto a).turn = s.turn := rfl
@[simp] theorem goto_focus (s : State) (a : Nat) : (s.goto a).focus = s.focus := rfl
@[simp] theorem goto_agenda (s : State) (a : Nat) : (s.goto a).agenda = s.agenda := rfl
@[simp] theorem goto_actors (s : State) (a : Nat) : (s.goto a).actors = s.actors := rfl
@[simp] theorem goto_streams (s : State) (a : Nat) : (s.goto a).streams = s.streams := rfl
@[simp] theorem goto_deck (s : State) (a : Nat) : (s.goto a).deck = s.deck := rfl
@[simp] theorem goto_host (s : State) (a : Nat) : (s.goto a).host = s.host := rfl
@[simp] theorem goto_links (s : State) (a : Nat) : (s.goto a).links = s.links := rfl
@[simp] theorem goto_power (s : State) (a : Nat) : (s.goto a).power = s.power := rfl
@[simp] theorem goto_sec (s : State) (a : Nat) : (s.goto a).sec = s.sec := rfl
@[simp] theorem goto_kitty (s : State) (a : Nat) : (s.goto a).kitty = s.kitty := rfl
@[simp] theorem goto_dump (s : State) (a : Nat) : (s.goto a).dump = s.dump := rfl
@[simp] theorem goto_ecc (s : State) (a : Nat) : (s.goto a).ecc = s.ecc := rfl
@[simp] theorem goto_mgmt (s : State) (a : Nat) : (s.goto a).mgmt = s.mgmt := rfl
@[simp] theorem goto_mgmtLost (s : State) (a : Nat) : (s.goto a).mgmtLost = s.mgmtLost := rfl
@[simp] theorem goto_mgmtCounts (s : State) (a : Nat) : (s.goto a).mgmtCounts = s.mgmtCounts := rfl
@[simp] theorem goto_dealer (s : State) (a : Nat) : (s.goto a).dealer = s.dealer := rfl
@[simp] theorem goto_order (s : State) (a : Nat) : (s.goto a).order = s.order := rfl
@[simp] theorem goto_fresh (s : State) (a : Nat) : (s.goto a).fresh = s.fresh := rfl

@[simp] theorem advance_mem (s : State) (n : Nat) : (s.advance n).mem = s.mem := rfl
@[simp] theorem advance_ctxs (s : State) (n : Nat) : (s.advance n).ctxs = s.ctxs := rfl
@[simp] theorem advance_graphs (s : State) (n : Nat) : (s.advance n).graphs = s.graphs := rfl
@[simp] theorem advance_grade (s : State) (n : Nat) : (s.advance n).grade = s.grade := rfl
@[simp] theorem advance_time (s : State) (n : Nat) : (s.advance n).time = s.time := rfl
@[simp] theorem advance_turn (s : State) (n : Nat) : (s.advance n).turn = s.turn := rfl
@[simp] theorem advance_focus (s : State) (n : Nat) : (s.advance n).focus = s.focus := rfl
@[simp] theorem advance_agenda (s : State) (n : Nat) : (s.advance n).agenda = s.agenda := rfl
@[simp] theorem advance_actors (s : State) (n : Nat) : (s.advance n).actors = s.actors := rfl
@[simp] theorem advance_streams (s : State) (n : Nat) : (s.advance n).streams = s.streams := rfl
@[simp] theorem advance_deck (s : State) (n : Nat) : (s.advance n).deck = s.deck := rfl
@[simp] theorem advance_host (s : State) (n : Nat) : (s.advance n).host = s.host := rfl
@[simp] theorem advance_links (s : State) (n : Nat) : (s.advance n).links = s.links := rfl
@[simp] theorem advance_power (s : State) (n : Nat) : (s.advance n).power = s.power := rfl
@[simp] theorem advance_sec (s : State) (n : Nat) : (s.advance n).sec = s.sec := rfl
@[simp] theorem advance_kitty (s : State) (n : Nat) : (s.advance n).kitty = s.kitty := rfl
@[simp] theorem advance_dump (s : State) (n : Nat) : (s.advance n).dump = s.dump := rfl
@[simp] theorem advance_ecc (s : State) (n : Nat) : (s.advance n).ecc = s.ecc := rfl
@[simp] theorem advance_mgmt (s : State) (n : Nat) : (s.advance n).mgmt = s.mgmt := rfl
@[simp] theorem advance_mgmtLost (s : State) (n : Nat) : (s.advance n).mgmtLost = s.mgmtLost := rfl
@[simp] theorem advance_mgmtCounts (s : State) (n : Nat) : (s.advance n).mgmtCounts = s.mgmtCounts := rfl
@[simp] theorem advance_dealer (s : State) (n : Nat) : (s.advance n).dealer = s.dealer := rfl
@[simp] theorem advance_order (s : State) (n : Nat) : (s.advance n).order = s.order := rfl
@[simp] theorem advance_fresh (s : State) (n : Nat) : (s.advance n).fresh = s.fresh := rfl

@[simp] theorem wait_mem (s : State) : (s.wait).mem = s.mem := rfl
@[simp] theorem wait_ctxs (s : State) : (s.wait).ctxs = s.ctxs := rfl
@[simp] theorem wait_graphs (s : State) : (s.wait).graphs = s.graphs := rfl
@[simp] theorem wait_grade (s : State) : (s.wait).grade = s.grade := rfl
@[simp] theorem wait_time (s : State) : (s.wait).time = s.time := rfl
@[simp] theorem wait_turn (s : State) : (s.wait).turn = s.turn := rfl
@[simp] theorem wait_focus (s : State) : (s.wait).focus = s.focus := rfl
@[simp] theorem wait_agenda (s : State) : (s.wait).agenda = s.agenda := rfl
@[simp] theorem wait_actors (s : State) : (s.wait).actors = s.actors := rfl
@[simp] theorem wait_streams (s : State) : (s.wait).streams = s.streams := rfl
@[simp] theorem wait_deck (s : State) : (s.wait).deck = s.deck := rfl
@[simp] theorem wait_host (s : State) : (s.wait).host = s.host := rfl
@[simp] theorem wait_links (s : State) : (s.wait).links = s.links := rfl
@[simp] theorem wait_power (s : State) : (s.wait).power = s.power := rfl
@[simp] theorem wait_sec (s : State) : (s.wait).sec = s.sec := rfl
@[simp] theorem wait_kitty (s : State) : (s.wait).kitty = s.kitty := rfl
@[simp] theorem wait_dump (s : State) : (s.wait).dump = s.dump := rfl
@[simp] theorem wait_ecc (s : State) : (s.wait).ecc = s.ecc := rfl
@[simp] theorem wait_mgmt (s : State) : (s.wait).mgmt = s.mgmt := rfl
@[simp] theorem wait_mgmtLost (s : State) : (s.wait).mgmtLost = s.mgmtLost := rfl
@[simp] theorem wait_mgmtCounts (s : State) : (s.wait).mgmtCounts = s.mgmtCounts := rfl
@[simp] theorem wait_dealer (s : State) : (s.wait).dealer = s.dealer := rfl
@[simp] theorem wait_order (s : State) : (s.wait).order = s.order := rfl
@[simp] theorem wait_fresh (s : State) : (s.wait).fresh = s.fresh := rfl

@[simp] theorem write_cores (s : State) (a : Nat) (bs : List Byte) : (s.write a bs).cores = s.cores := rfl
@[simp] theorem write_ctxs (s : State) (a : Nat) (bs : List Byte) : (s.write a bs).ctxs = s.ctxs := rfl
@[simp] theorem write_graphs (s : State) (a : Nat) (bs : List Byte) : (s.write a bs).graphs = s.graphs := rfl
@[simp] theorem write_grade (s : State) (a : Nat) (bs : List Byte) : (s.write a bs).grade = s.grade := rfl
@[simp] theorem write_time (s : State) (a : Nat) (bs : List Byte) : (s.write a bs).time = s.time := rfl
@[simp] theorem write_turn (s : State) (a : Nat) (bs : List Byte) : (s.write a bs).turn = s.turn := rfl
@[simp] theorem write_focus (s : State) (a : Nat) (bs : List Byte) : (s.write a bs).focus = s.focus := rfl
@[simp] theorem write_agenda (s : State) (a : Nat) (bs : List Byte) : (s.write a bs).agenda = s.agenda := rfl
@[simp] theorem write_actors (s : State) (a : Nat) (bs : List Byte) : (s.write a bs).actors = s.actors := rfl
@[simp] theorem write_streams (s : State) (a : Nat) (bs : List Byte) : (s.write a bs).streams = s.streams := rfl
@[simp] theorem write_deck (s : State) (a : Nat) (bs : List Byte) : (s.write a bs).deck = s.deck := rfl
@[simp] theorem write_host (s : State) (a : Nat) (bs : List Byte) : (s.write a bs).host = s.host := rfl
@[simp] theorem write_links (s : State) (a : Nat) (bs : List Byte) : (s.write a bs).links = s.links := rfl
@[simp] theorem write_power (s : State) (a : Nat) (bs : List Byte) : (s.write a bs).power = s.power := rfl
@[simp] theorem write_sec (s : State) (a : Nat) (bs : List Byte) : (s.write a bs).sec = s.sec := rfl
@[simp] theorem write_kitty (s : State) (a : Nat) (bs : List Byte) : (s.write a bs).kitty = s.kitty := rfl
@[simp] theorem write_dump (s : State) (a : Nat) (bs : List Byte) : (s.write a bs).dump = s.dump := rfl
@[simp] theorem write_mgmt (s : State) (a : Nat) (bs : List Byte) : (s.write a bs).mgmt = s.mgmt := rfl
@[simp] theorem write_mgmtLost (s : State) (a : Nat) (bs : List Byte) : (s.write a bs).mgmtLost = s.mgmtLost := rfl
@[simp] theorem write_mgmtCounts (s : State) (a : Nat) (bs : List Byte) : (s.write a bs).mgmtCounts = s.mgmtCounts := rfl
@[simp] theorem write_dealer (s : State) (a : Nat) (bs : List Byte) : (s.write a bs).dealer = s.dealer := rfl
@[simp] theorem write_order (s : State) (a : Nat) (bs : List Byte) : (s.write a bs).order = s.order := rfl
@[simp] theorem write_fresh (s : State) (a : Nat) (bs : List Byte) : (s.write a bs).fresh = s.fresh := rfl

@[simp] theorem setTile_cores (s : State) (c a : Nat) (bs : List Byte) : (s.setTile c a bs).cores = s.cores := rfl
@[simp] theorem setTile_ctxs (s : State) (c a : Nat) (bs : List Byte) : (s.setTile c a bs).ctxs = s.ctxs := rfl
@[simp] theorem setTile_graphs (s : State) (c a : Nat) (bs : List Byte) : (s.setTile c a bs).graphs = s.graphs := rfl
@[simp] theorem setTile_grade (s : State) (c a : Nat) (bs : List Byte) : (s.setTile c a bs).grade = s.grade := rfl
@[simp] theorem setTile_time (s : State) (c a : Nat) (bs : List Byte) : (s.setTile c a bs).time = s.time := rfl
@[simp] theorem setTile_turn (s : State) (c a : Nat) (bs : List Byte) : (s.setTile c a bs).turn = s.turn := rfl
@[simp] theorem setTile_focus (s : State) (c a : Nat) (bs : List Byte) : (s.setTile c a bs).focus = s.focus := rfl
@[simp] theorem setTile_agenda (s : State) (c a : Nat) (bs : List Byte) : (s.setTile c a bs).agenda = s.agenda := rfl
@[simp] theorem setTile_actors (s : State) (c a : Nat) (bs : List Byte) : (s.setTile c a bs).actors = s.actors := rfl
@[simp] theorem setTile_streams (s : State) (c a : Nat) (bs : List Byte) : (s.setTile c a bs).streams = s.streams := rfl
@[simp] theorem setTile_deck (s : State) (c a : Nat) (bs : List Byte) : (s.setTile c a bs).deck = s.deck := rfl
@[simp] theorem setTile_host (s : State) (c a : Nat) (bs : List Byte) : (s.setTile c a bs).host = s.host := rfl
@[simp] theorem setTile_links (s : State) (c a : Nat) (bs : List Byte) : (s.setTile c a bs).links = s.links := rfl
@[simp] theorem setTile_power (s : State) (c a : Nat) (bs : List Byte) : (s.setTile c a bs).power = s.power := rfl
@[simp] theorem setTile_sec (s : State) (c a : Nat) (bs : List Byte) : (s.setTile c a bs).sec = s.sec := rfl
@[simp] theorem setTile_kitty (s : State) (c a : Nat) (bs : List Byte) : (s.setTile c a bs).kitty = s.kitty := rfl
@[simp] theorem setTile_dump (s : State) (c a : Nat) (bs : List Byte) : (s.setTile c a bs).dump = s.dump := rfl
@[simp] theorem setTile_mgmt (s : State) (c a : Nat) (bs : List Byte) : (s.setTile c a bs).mgmt = s.mgmt := rfl
@[simp] theorem setTile_mgmtLost (s : State) (c a : Nat) (bs : List Byte) : (s.setTile c a bs).mgmtLost = s.mgmtLost := rfl
@[simp] theorem setTile_mgmtCounts (s : State) (c a : Nat) (bs : List Byte) : (s.setTile c a bs).mgmtCounts = s.mgmtCounts := rfl
@[simp] theorem setTile_dealer (s : State) (c a : Nat) (bs : List Byte) : (s.setTile c a bs).dealer = s.dealer := rfl
@[simp] theorem setTile_order (s : State) (c a : Nat) (bs : List Byte) : (s.setTile c a bs).order = s.order := rfl
@[simp] theorem setTile_fresh (s : State) (c a : Nat) (bs : List Byte) : (s.setTile c a bs).fresh = s.fresh := rfl

/-! ### Cores -/

@[simp] theorem core_setCore_self (s : State) (c : Nat) (k : Core) : (s.setCore c k).core c = k :=
  NMap.getD_put_self ..

theorem core_setCore (s : State) (c n : Nat) (k : Core) : (s.setCore c k).core n = if n = c then k else s.core n :=
  NMap.getD_put ..

@[simp] theorem core_setCore_ne (s : State) {c n : Nat} (k : Core) (h : n ≠ c) : (s.setCore c k).core n = s.core n :=
  NMap.getD_put_ne _ _ _ h

theorem setCore_setCore (s : State) (c : Nat) (k l : Core) : (s.setCore c k).setCore c l = s.setCore c l := by
  simp [setCore, NMap.put_put]

@[simp] theorem core_modCore_self (s : State) (c : Nat) (f : Core → Core) : (s.modCore c f).core c = f (s.core c) :=
  core_setCore_self ..

@[simp] theorem core_modCore_ne (s : State) {c n : Nat} (f : Core → Core) (h : n ≠ c) : (s.modCore c f).core n = s.core n :=
  core_setCore_ne _ _ h

theorem modCore_modCore (s : State) (c : Nat) (f g : Core → Core) : (s.modCore c f).modCore c g = s.modCore c (fun k => g (f k)) := by
  simp [modCore, setCore_setCore]

@[simp] theorem cur_modCur (s : State) (f : Core → Core) : (s.modCur f).cur = f s.cur := core_setCore_self ..

@[simp] theorem cur_setCore_turn (s : State) (k : Core) : (s.setCore s.turn k).cur = k := core_setCore_self ..

@[simp] theorem cur_modCore_turn (s : State) (f : Core → Core) : (s.modCore s.turn f).cur = f s.cur := core_setCore_self ..

@[simp] theorem cur_setReg (s : State) (r : Reg) (v : Word) : (s.setReg r v).cur = s.cur.setReg r v := core_setCore_self ..

@[simp] theorem cur_goto (s : State) (a : Nat) : (s.goto a).cur = { s.cur with pc := a, waitSince := none } :=
  core_setCore_self ..

@[simp] theorem cur_advance (s : State) (n : Nat) : (s.advance n).cur = { s.cur with pc := s.cur.pc + n, waitSince := none } :=
  core_setCore_self ..

@[simp] theorem core_write (s : State) (a : Nat) (bs : List Byte) (c : Nat) : (s.write a bs).core c = s.core c := rfl

@[simp] theorem cur_write (s : State) (a : Nat) (bs : List Byte) : (s.write a bs).cur = s.cur := rfl

@[simp] theorem core_advance_ne (s : State) (n : Nat) {c : Nat} (h : c ≠ s.turn) : (s.advance n).core c = s.core c :=
  core_setCore_ne _ _ h

@[simp] theorem core_setReg_ne (s : State) (r : Reg) (v : Word) {c : Nat} (h : c ≠ s.turn) : (s.setReg r v).core c = s.core c :=
  core_setCore_ne _ _ h

end State

/-! ### Registers -/

@[simp] theorem Core.reg_zero (k : Core) : k.reg 0 = 0 := rfl

@[simp] theorem Core.setReg_zero (k : Core) (v : Word) : k.setReg 0 v = k := rfl

theorem Core.reg_setReg (k : Core) (r q : Reg) (v : Word) :
    (k.setReg r v).reg q = if q = 0 then 0 else if q = r then v else k.reg q := by
  unfold Core.setReg Core.reg
  by_cases hq : q = 0
  · simp [hq]
  · by_cases hr : r = 0
    · subst hr; simp only [hq, if_true, if_false]
    · simp only [hq, hr, if_false, NMap.getD_put]
      by_cases h : q = r
      · subst h; simp
      · have : q.toNat ≠ r.toNat := fun h' => h (BitVec.eq_of_toNat_eq h')
        simp [h, this]

/-! ### Words written to memory -/

/-- A write of bytes keeps the canonical form. -/
theorem State.write_wf (s : State) (a : Nat) (bs : List Byte) (h : Memory.wf s.mem = true) :
    Memory.wf (s.write a bs).mem = true := memWrite_wf h

/-- A byte after a write. -/
theorem State.memGet_write (s : State) (a : Nat) (bs : List Byte) (h : Memory.wf s.mem = true) (x : Nat) :
    memGet (s.write a bs).mem x = if a ≤ x ∧ x < a + bs.length then bs.getD (x - a) 0 else memGet s.mem x :=
  memGet_memWrite h

/-! ### Instructions that finish -/

/-- An instruction that finishes changes its destination, the pc and the record of a wait, nothing else. -/
theorem finish_eq (s : State) (d : Reg) (v : Word) : finish s d v = .next ((s.setReg d v).advance 4) := rfl

/-- A command not held by an acquire runs. -/
theorem afterAcquire_clear {s : State} (h : acquireHeld s.cur = false) (f : State → Result) : afterAcquire s f = f s := by
  simp [afterAcquire, h]

end Sys2Proof.Machine
end

