-- ==== Sys2Proof/Laws/Elements.lean ====
section
/-! SUPPORT. What the shared operations of the elements do, for the statements about them: an element that is free acts by its
rule, tokens at all its slots fire it, marks at all of them pass. -/

namespace Sys2Proof.Machine

/-- A free element acts by its rule. -/
theorem elemAct_free {s f : State} {b : Blk} (h : ElemFree s f b) (g : Site → State → State) :
    elemAct b g s = leaves s b (g (siteOf s) f) := by
  obtain ⟨rfl, h1, h2, h3, h4⟩ := h
  simp only [elemAct, h1, h2, h3, h4, leaves]
  rfl

/-- The heads of slots that hold tokens. -/
theorem heads_tokens {s f : State} : ∀ {slots : List Nat} {items : List Item}, TokensAt s f slots items →
    (slots.map fun n => (n, head? f (siteOf s) n)).filterMap (fun (n, h) => h.map fun i => (n, i)) = slots.zip items
    ∧ items.length = slots.length
  | [], items, h => by cases h; simp
  | n :: ns, items, h => by
    obtain ⟨i, js, rfl, h1, h2⟩ := h
    have r := heads_tokens h2
    refine ⟨?_, by rw [List.length_cons, List.length_cons, r.2]⟩
    simp only [List.map_cons, List.filterMap_cons, h1.1, Option.map_some, List.zip_cons_cons]
    rw [r.1]

theorem tokens_at_get {s f : State} : ∀ {slots : List Nat} {items : List Item}, TokensAt s f slots items →
    ∀ p ∈ slots.zip items, TokenAt s f p.1 p.2
  | [], _, _ => by simp
  | n :: ns, items, h => by
    obtain ⟨i, js, rfl, h1, h2⟩ := h
    have r := tokens_at_get h2
    simp only [List.zip_cons_cons, List.mem_cons]
    rintro p (rfl | hp)
    · exact h1
    · exact r p hp

theorem tokens_no_break {s f : State} : ∀ {slots : List Nat} {items : List Item}, TokensAt s f slots items →
    ∀ n ∈ slots, slotBreak f (siteOf s) n = none
  | [], _, _ => by simp
  | n :: ns, items, h => by
    obtain ⟨i, js, rfl, h1, h2⟩ := h
    have r := tokens_no_break h2
    simp only [List.mem_cons]
    rintro p (rfl | hp)
    · exact h1.2.2.2
    · exact r p hp

/-- Tokens at every linked slot, and no breakpoint: the element fires. -/
theorem react_tokens {s f : State} {slots : List Nat} {items : List Item} (h : TokensAt s f slots items) (b : Blk) (st : Bool)
    (fwd : Word → Bool) (before : Site → Word → State → State × Bool) (fire : Site → List Item → State → State) :
    react b slots st fwd before fire (siteOf s) f = fire (siteOf s) items (popAll f (siteOf s) slots) := by
  have h1 := heads_tokens h
  have h2 := tokens_at_get h
  have h3 := tokens_no_break h
  have hb : (slots.zip items).find? (fun (p : Nat × Item) => itemBad p.2) = none := by
    rw [List.find?_eq_none]; intro p hp; simp [(h2 p hp).2.2.1]
  have hm : (slots.zip items).filterMap (fun (p : Nat × Item) => (asMark p.2).map fun w => (p.1, w)) = [] := by
    rw [List.filterMap_eq_nil_iff]; intro p hp; simp [(h2 p hp).2.1]
  have hs : slots.find? (fun n => (slotBreak f (siteOf s) n).isSome) = none := by
    rw [List.find?_eq_none]; intro n hn; simp [h3 n hn]
  have hp : (slots.zip items).map Prod.snd = items := by
    rw [List.map_snd_zip]; omega
  unfold react
  simp only [h1.1, hb, hm, hs, hp, List.length_zip, h1.2, Nat.min_self, Nat.lt_irrefl, if_false]

/-- A free element of R395 with tokens at all its slots. -/
theorem elemAct_tokens {s f : State} {b : Blk} {slots : List Nat} {items : List Item} (h : ElemFree s f b)
    (ht : TokensAt s f slots items) (st : Bool) (fwd : Word → Bool) (before : Site → Word → State → State × Bool)
    (fire : Site → List Item → State → State) :
    elemAct b (react b slots st fwd before fire) s = leaves s b (fire (siteOf s) items (popAll f (siteOf s) slots)) := by
  rw [elemAct_free h, react_tokens ht]

/-- The marks at all slots, the first of them w. -/
theorem react_marks {s f : State} {slots : List Nat} {w : Word} (hn : slots ≠ []) (h : ∀ n, n ∈ slots → MarkAt s f n w) (b : Blk)
    (st : Bool) (fwd : Word → Bool) (before : Site → Word → State → State × Bool) (fire : Site → List Item → State → State) :
    react b slots st fwd before fire (siteOf s) f =
      if markReady f (siteOf s) st w then
        (let r := before (siteOf s) w (popAll f (siteOf s) slots)
         if !r.2 then r.1 else markAction (if fwd w then emit r.1 (siteOf s) b [.ctl w] else r.1) (siteOf s) st w)
      else f := by
  have hp : (slots.map fun n => (n, head? f (siteOf s) n)).filterMap (fun (n, h) => h.map fun i => (n, i))
      = slots.map fun n => (n, Item.ctl w) := by
    clear hn
    induction slots with
    | nil => rfl
    | cons n ns ih =>
      have h1 := (h n (by simp)).1
      simp only [List.map_cons, List.filterMap_cons, h1, Option.map_some]
      rw [ih fun m hm => h m (by simp [hm])]
  have hw : asMark (.ctl w) = some w := by
    obtain ⟨n, ns, rfl⟩ := List.exists_cons_of_ne_nil hn; exact (h n (by simp)).2.1
  have hc : ctlBad w = false := by
    obtain ⟨n, ns, rfl⟩ := List.exists_cons_of_ne_nil hn; exact (h n (by simp)).2.2
  have hb : (slots.map fun n => (n, Item.ctl w)).find? (fun (p : Nat × Item) => itemBad p.2) = none := by
    rw [List.find?_eq_none]; simp [itemBad, hc]
  have hm : (slots.map fun n => (n, Item.ctl w)).filterMap (fun (p : Nat × Item) => (asMark p.2).map fun v => (p.1, v))
      = slots.map fun n => (n, w) := by
    simp only [List.filterMap_map, Function.comp_def, hw, Option.map_some]
    induction slots with
    | nil => rfl
    | cons n ns ih => simp
  unfold react
  simp only [hp, hb, hm]
  obtain ⟨n, ns, rfl⟩ := List.exists_cons_of_ne_nil hn
  simp
  cases markReady f (siteOf s) st w <;> simp

/-- A token at a slot judged on its own. -/
theorem withHead_token {s f : State} {n : Nat} {i : Item} (h : TokenAt s f n i) (g : Item → State → State) :
    withHead (siteOf s) n g f = g i f := by
  obtain ⟨h1, h2, h3, h4⟩ := h
  simp [withHead, h1, h2, h3, h4]

/-! ### What an element keeps when items move -/

@[simp] theorem elem_modElem_self (s : State) (x : Site) (f : Elem → Elem) : (s.modElem x f).elem x = f (s.elem x) := by
  simp [State.modElem, State.elem, NMap.getD_put_self]

@[simp] theorem elem_setLink (s : State) (x y : Site) (n : Nat) (l : List Item) : (s.setLink x n l).elem y = s.elem y := by
  unfold State.elem State.setLink
  by_cases h : y.c = x.c
  · rw [h]; simp
  · simp [h]

theorem elem_pop (s : State) (x : Site) (n : Nat) :
    ∃ o u, (pop s x n).elem x = { s.elem x with ords := o, since := u } := by
  unfold pop
  simp only
  split
  · split
    · exact ⟨_, _, by rw [elem_modElem_self, elem_setLink]⟩
    · exact ⟨_, _, by rw [elem_modElem_self, elem_setLink]⟩
  · exact ⟨_, _, elem_setLink ..⟩

theorem elem_popAll (s : State) (x : Site) (l : List Nat) :
    ∃ o u, (popAll s x l).elem x = { s.elem x with ords := o, since := u } := by
  induction l generalizing s with
  | nil => exact ⟨_, _, rfl⟩
  | cons n l ih =>
    obtain ⟨o, u, h⟩ := ih (pop s x n)
    obtain ⟨o', u', h'⟩ := elem_pop s x n
    refine ⟨o, u, ?_⟩
    rw [show popAll s x (n :: l) = popAll (pop s x n) x l from rfl, h, h']

theorem elem_emit0 (s : State) (x : Site) (b : Blk) (l : List Item) :
    ∃ o, (emit0 s x b l).elem x = { s.elem x with out0 := o } := by
  unfold emit0
  split
  · exact ⟨_, elem_modElem_self ..⟩
  · exact ⟨_, rfl⟩

theorem elem_emit1 (s : State) (x : Site) (b : Blk) (l : List Item) :
    ∃ o, (emit1 s x b l).elem x = { s.elem x with out1 := o } := by
  unfold emit1
  split
  · exact ⟨_, elem_modElem_self ..⟩
  · exact ⟨_, rfl⟩

theorem elem_emit (s : State) (x : Site) (b : Blk) (l : List Item) :
    ∃ o o', (emit s x b l).elem x = { s.elem x with out0 := o, out1 := o' } := by
  obtain ⟨o, h⟩ := elem_emit0 s x b l
  obtain ⟨o', h'⟩ := elem_emit1 (emit0 s x b l) x b l
  exact ⟨o, o', by rw [show emit s x b l = emit1 (emit0 s x b l) x b l from rfl, h', h]⟩

@[simp] theorem pop_phase (s : State) (x : Site) (n : Nat) : ((pop s x n).elem x).phase = (s.elem x).phase := by
  obtain ⟨_, _, h⟩ := elem_pop s x n; rw [h]
@[simp] theorem popAll_phase (s : State) (x : Site) (l : List Nat) : ((popAll s x l).elem x).phase = (s.elem x).phase := by
  obtain ⟨_, _, h⟩ := elem_popAll s x l; rw [h]
@[simp] theorem emit0_phase (s : State) (x : Site) (b : Blk) (l : List Item) : ((emit0 s x b l).elem x).phase = (s.elem x).phase := by
  obtain ⟨_, h⟩ := elem_emit0 s x b l; rw [h]
@[simp] theorem emit1_phase (s : State) (x : Site) (b : Blk) (l : List Item) : ((emit1 s x b l).elem x).phase = (s.elem x).phase := by
  obtain ⟨_, h⟩ := elem_emit1 s x b l; rw [h]
@[simp] theorem emit_phase (s : State) (x : Site) (b : Blk) (l : List Item) : ((emit s x b l).elem x).phase = (s.elem x).phase := by
  obtain ⟨_, _, h⟩ := elem_emit s x b l; rw [h]
@[simp] theorem pop_cnt (s : State) (x : Site) (n : Nat) : ((pop s x n).elem x).cnt = (s.elem x).cnt := by
  obtain ⟨_, _, h⟩ := elem_pop s x n; rw [h]
@[simp] theorem popAll_cnt (s : State) (x : Site) (l : List Nat) : ((popAll s x l).elem x).cnt = (s.elem x).cnt := by
  obtain ⟨_, _, h⟩ := elem_popAll s x l; rw [h]
@[simp] theorem emit0_cnt (s : State) (x : Site) (b : Blk) (l : List Item) : ((emit0 s x b l).elem x).cnt = (s.elem x).cnt := by
  obtain ⟨_, h⟩ := elem_emit0 s x b l; rw [h]
@[simp] theorem emit1_cnt (s : State) (x : Site) (b : Blk) (l : List Item) : ((emit1 s x b l).elem x).cnt = (s.elem x).cnt := by
  obtain ⟨_, h⟩ := elem_emit1 s x b l; rw [h]
@[simp] theorem emit_cnt (s : State) (x : Site) (b : Blk) (l : List Item) : ((emit s x b l).elem x).cnt = (s.elem x).cnt := by
  obtain ⟨_, _, h⟩ := elem_emit s x b l; rw [h]
@[simp] theorem pop_iter (s : State) (x : Site) (n : Nat) : ((pop s x n).elem x).iter = (s.elem x).iter := by
  obtain ⟨_, _, h⟩ := elem_pop s x n; rw [h]
@[simp] theorem popAll_iter (s : State) (x : Site) (l : List Nat) : ((popAll s x l).elem x).iter = (s.elem x).iter := by
  obtain ⟨_, _, h⟩ := elem_popAll s x l; rw [h]
@[simp] theorem emit0_iter (s : State) (x : Site) (b : Blk) (l : List Item) : ((emit0 s x b l).elem x).iter = (s.elem x).iter := by
  obtain ⟨_, h⟩ := elem_emit0 s x b l; rw [h]
@[simp] theorem emit1_iter (s : State) (x : Site) (b : Blk) (l : List Item) : ((emit1 s x b l).elem x).iter = (s.elem x).iter := by
  obtain ⟨_, h⟩ := elem_emit1 s x b l; rw [h]
@[simp] theorem emit_iter (s : State) (x : Site) (b : Blk) (l : List Item) : ((emit s x b l).elem x).iter = (s.elem x).iter := by
  obtain ⟨_, _, h⟩ := elem_emit s x b l; rw [h]
@[simp] theorem pop_held (s : State) (x : Site) (n : Nat) : ((pop s x n).elem x).held = (s.elem x).held := by
  obtain ⟨_, _, h⟩ := elem_pop s x n; rw [h]
@[simp] theorem popAll_held (s : State) (x : Site) (l : List Nat) : ((popAll s x l).elem x).held = (s.elem x).held := by
  obtain ⟨_, _, h⟩ := elem_popAll s x l; rw [h]
@[simp] theorem emit0_held (s : State) (x : Site) (b : Blk) (l : List Item) : ((emit0 s x b l).elem x).held = (s.elem x).held := by
  obtain ⟨_, h⟩ := elem_emit0 s x b l; rw [h]
@[simp] theorem emit1_held (s : State) (x : Site) (b : Blk) (l : List Item) : ((emit1 s x b l).elem x).held = (s.elem x).held := by
  obtain ⟨_, h⟩ := elem_emit1 s x b l; rw [h]
@[simp] theorem emit_held (s : State) (x : Site) (b : Blk) (l : List Item) : ((emit s x b l).elem x).held = (s.elem x).held := by
  obtain ⟨_, _, h⟩ := elem_emit s x b l; rw [h]
@[simp] theorem pop_items (s : State) (x : Site) (n : Nat) : ((pop s x n).elem x).items = (s.elem x).items := by
  obtain ⟨_, _, h⟩ := elem_pop s x n; rw [h]
@[simp] theorem popAll_items (s : State) (x : Site) (l : List Nat) : ((popAll s x l).elem x).items = (s.elem x).items := by
  obtain ⟨_, _, h⟩ := elem_popAll s x l; rw [h]
@[simp] theorem emit0_items (s : State) (x : Site) (b : Blk) (l : List Item) : ((emit0 s x b l).elem x).items = (s.elem x).items := by
  obtain ⟨_, h⟩ := elem_emit0 s x b l; rw [h]
@[simp] theorem emit1_items (s : State) (x : Site) (b : Blk) (l : List Item) : ((emit1 s x b l).elem x).items = (s.elem x).items := by
  obtain ⟨_, h⟩ := elem_emit1 s x b l; rw [h]
@[simp] theorem emit_items (s : State) (x : Site) (b : Blk) (l : List Item) : ((emit s x b l).elem x).items = (s.elem x).items := by
  obtain ⟨_, _, h⟩ := elem_emit s x b l; rw [h]
@[simp] theorem pop_bounds (s : State) (x : Site) (n : Nat) : ((pop s x n).elem x).bounds = (s.elem x).bounds := by
  obtain ⟨_, _, h⟩ := elem_pop s x n; rw [h]
@[simp] theorem popAll_bounds (s : State) (x : Site) (l : List Nat) : ((popAll s x l).elem x).bounds = (s.elem x).bounds := by
  obtain ⟨_, _, h⟩ := elem_popAll s x l; rw [h]
@[simp] theorem emit0_bounds (s : State) (x : Site) (b : Blk) (l : List Item) : ((emit0 s x b l).elem x).bounds = (s.elem x).bounds := by
  obtain ⟨_, h⟩ := elem_emit0 s x b l; rw [h]
@[simp] theorem emit1_bounds (s : State) (x : Site) (b : Blk) (l : List Item) : ((emit1 s x b l).elem x).bounds = (s.elem x).bounds := by
  obtain ⟨_, h⟩ := elem_emit1 s x b l; rw [h]
@[simp] theorem emit_bounds (s : State) (x : Site) (b : Blk) (l : List Item) : ((emit s x b l).elem x).bounds = (s.elem x).bounds := by
  obtain ⟨_, _, h⟩ := elem_emit s x b l; rw [h]
@[simp] theorem pop_index (s : State) (x : Site) (n : Nat) : ((pop s x n).elem x).index = (s.elem x).index := by
  obtain ⟨_, _, h⟩ := elem_pop s x n; rw [h]
@[simp] theorem popAll_index (s : State) (x : Site) (l : List Nat) : ((popAll s x l).elem x).index = (s.elem x).index := by
  obtain ⟨_, _, h⟩ := elem_popAll s x l; rw [h]
@[simp] theorem emit0_index (s : State) (x : Site) (b : Blk) (l : List Item) : ((emit0 s x b l).elem x).index = (s.elem x).index := by
  obtain ⟨_, h⟩ := elem_emit0 s x b l; rw [h]
@[simp] theorem emit1_index (s : State) (x : Site) (b : Blk) (l : List Item) : ((emit1 s x b l).elem x).index = (s.elem x).index := by
  obtain ⟨_, h⟩ := elem_emit1 s x b l; rw [h]
@[simp] theorem emit_index (s : State) (x : Site) (b : Blk) (l : List Item) : ((emit s x b l).elem x).index = (s.elem x).index := by
  obtain ⟨_, _, h⟩ := elem_emit s x b l; rw [h]
@[simp] theorem pop_kids (s : State) (x : Site) (n : Nat) : ((pop s x n).elem x).kids = (s.elem x).kids := by
  obtain ⟨_, _, h⟩ := elem_pop s x n; rw [h]
@[simp] theorem popAll_kids (s : State) (x : Site) (l : List Nat) : ((popAll s x l).elem x).kids = (s.elem x).kids := by
  obtain ⟨_, _, h⟩ := elem_popAll s x l; rw [h]
@[simp] theorem emit0_kids (s : State) (x : Site) (b : Blk) (l : List Item) : ((emit0 s x b l).elem x).kids = (s.elem x).kids := by
  obtain ⟨_, h⟩ := elem_emit0 s x b l; rw [h]
@[simp] theorem emit1_kids (s : State) (x : Site) (b : Blk) (l : List Item) : ((emit1 s x b l).elem x).kids = (s.elem x).kids := by
  obtain ⟨_, h⟩ := elem_emit1 s x b l; rw [h]
@[simp] theorem emit_kids (s : State) (x : Site) (b : Blk) (l : List Item) : ((emit s x b l).elem x).kids = (s.elem x).kids := by
  obtain ⟨_, _, h⟩ := elem_emit s x b l; rw [h]
@[simp] theorem pop_counts (s : State) (x : Site) (n : Nat) : ((pop s x n).elem x).counts = (s.elem x).counts := by
  obtain ⟨_, _, h⟩ := elem_pop s x n; rw [h]
@[simp] theorem popAll_counts (s : State) (x : Site) (l : List Nat) : ((popAll s x l).elem x).counts = (s.elem x).counts := by
  obtain ⟨_, _, h⟩ := elem_popAll s x l; rw [h]
@[simp] theorem emit0_counts (s : State) (x : Site) (b : Blk) (l : List Item) : ((emit0 s x b l).elem x).counts = (s.elem x).counts := by
  obtain ⟨_, h⟩ := elem_emit0 s x b l; rw [h]
@[simp] theorem emit1_counts (s : State) (x : Site) (b : Blk) (l : List Item) : ((emit1 s x b l).elem x).counts = (s.elem x).counts := by
  obtain ⟨_, h⟩ := elem_emit1 s x b l; rw [h]
@[simp] theorem emit_counts (s : State) (x : Site) (b : Blk) (l : List Item) : ((emit s x b l).elem x).counts = (s.elem x).counts := by
  obtain ⟨_, _, h⟩ := elem_emit s x b l; rw [h]
@[simp] theorem pop_statq (s : State) (x : Site) (n : Nat) : ((pop s x n).elem x).statq = (s.elem x).statq := by
  obtain ⟨_, _, h⟩ := elem_pop s x n; rw [h]
@[simp] theorem popAll_statq (s : State) (x : Site) (l : List Nat) : ((popAll s x l).elem x).statq = (s.elem x).statq := by
  obtain ⟨_, _, h⟩ := elem_popAll s x l; rw [h]
@[simp] theorem emit0_statq (s : State) (x : Site) (b : Blk) (l : List Item) : ((emit0 s x b l).elem x).statq = (s.elem x).statq := by
  obtain ⟨_, h⟩ := elem_emit0 s x b l; rw [h]
@[simp] theorem emit1_statq (s : State) (x : Site) (b : Blk) (l : List Item) : ((emit1 s x b l).elem x).statq = (s.elem x).statq := by
  obtain ⟨_, h⟩ := elem_emit1 s x b l; rw [h]
@[simp] theorem emit_statq (s : State) (x : Site) (b : Blk) (l : List Item) : ((emit s x b l).elem x).statq = (s.elem x).statq := by
  obtain ⟨_, _, h⟩ := elem_emit s x b l; rw [h]
@[simp] theorem pop_goQ (s : State) (x : Site) (n : Nat) : ((pop s x n).elem x).goQ = (s.elem x).goQ := by
  obtain ⟨_, _, h⟩ := elem_pop s x n; rw [h]
@[simp] theorem popAll_goQ (s : State) (x : Site) (l : List Nat) : ((popAll s x l).elem x).goQ = (s.elem x).goQ := by
  obtain ⟨_, _, h⟩ := elem_popAll s x l; rw [h]
@[simp] theorem emit0_goQ (s : State) (x : Site) (b : Blk) (l : List Item) : ((emit0 s x b l).elem x).goQ = (s.elem x).goQ := by
  obtain ⟨_, h⟩ := elem_emit0 s x b l; rw [h]
@[simp] theorem emit1_goQ (s : State) (x : Site) (b : Blk) (l : List Item) : ((emit1 s x b l).elem x).goQ = (s.elem x).goQ := by
  obtain ⟨_, h⟩ := elem_emit1 s x b l; rw [h]
@[simp] theorem emit_goQ (s : State) (x : Site) (b : Blk) (l : List Item) : ((emit s x b l).elem x).goQ = (s.elem x).goQ := by
  obtain ⟨_, _, h⟩ := elem_emit s x b l; rw [h]
@[simp] theorem pop_drained (s : State) (x : Site) (n : Nat) : ((pop s x n).elem x).drained = (s.elem x).drained := by
  obtain ⟨_, _, h⟩ := elem_pop s x n; rw [h]
@[simp] theorem popAll_drained (s : State) (x : Site) (l : List Nat) : ((popAll s x l).elem x).drained = (s.elem x).drained := by
  obtain ⟨_, _, h⟩ := elem_popAll s x l; rw [h]
@[simp] theorem emit0_drained (s : State) (x : Site) (b : Blk) (l : List Item) : ((emit0 s x b l).elem x).drained = (s.elem x).drained := by
  obtain ⟨_, h⟩ := elem_emit0 s x b l; rw [h]
@[simp] theorem emit1_drained (s : State) (x : Site) (b : Blk) (l : List Item) : ((emit1 s x b l).elem x).drained = (s.elem x).drained := by
  obtain ⟨_, h⟩ := elem_emit1 s x b l; rw [h]
@[simp] theorem emit_drained (s : State) (x : Site) (b : Blk) (l : List Item) : ((emit s x b l).elem x).drained = (s.elem x).drained := by
  obtain ⟨_, _, h⟩ := elem_emit s x b l; rw [h]
@[simp] theorem pop_swapped (s : State) (x : Site) (n : Nat) : ((pop s x n).elem x).swapped = (s.elem x).swapped := by
  obtain ⟨_, _, h⟩ := elem_pop s x n; rw [h]
@[simp] theorem popAll_swapped (s : State) (x : Site) (l : List Nat) : ((popAll s x l).elem x).swapped = (s.elem x).swapped := by
  obtain ⟨_, _, h⟩ := elem_popAll s x l; rw [h]
@[simp] theorem emit0_swapped (s : State) (x : Site) (b : Blk) (l : List Item) : ((emit0 s x b l).elem x).swapped = (s.elem x).swapped := by
  obtain ⟨_, h⟩ := elem_emit0 s x b l; rw [h]
@[simp] theorem emit1_swapped (s : State) (x : Site) (b : Blk) (l : List Item) : ((emit1 s x b l).elem x).swapped = (s.elem x).swapped := by
  obtain ⟨_, h⟩ := elem_emit1 s x b l; rw [h]
@[simp] theorem emit_swapped (s : State) (x : Site) (b : Blk) (l : List Item) : ((emit s x b l).elem x).swapped = (s.elem x).swapped := by
  obtain ⟨_, _, h⟩ := elem_emit s x b l; rw [h]

/-- What a lane instruction makes of its tokens, its draws done. -/
theorem laneFire_ok {b : Blk} {op out : Nat} {types : List Nat} {r : Bool} {g : Nat → List Nat → Nat × List Nat}
    {items : List Item} {s f1 f2 : State} {us : List Nat}
    (h : (if r then srWords f1 s.turn b 16 else .ok ([], f1)) = .ok (us, f2)) :
    laneFire b op types r out g (siteOf s) items f1 = laneResult s f1 f2 us b op out types items g := by
  have hc : (siteOf s).c = s.turn := rfl
  unfold laneFire laneResult
  simp only [hc, h]

/-- A lane instruction with tokens at its linked slots. -/
theorem laneOp_tokens {s f f2 : State} {b : Blk} {items : List Item} {us : List Nat} {op out : Nat} {types : List Nat} {r : Bool}
    {g : Nat → List Nat → Nat × List Nat} (hf : ElemFree s f b) (hk : TokensAt s f (slotsOf op (bMod b)) items)
    (h : (if r then srWords (popAll f (siteOf s) (slotsOf op (bMod b))) s.turn b 16
      else .ok ([], popAll f (siteOf s) (slotsOf op (bMod b)))) = .ok (us, f2)) :
    laneOp b op types r out g s =
      leaves s b (laneResult s (popAll f (siteOf s) (slotsOf op (bMod b))) f2 us b op out types items g) := by
  unfold laneOp reactAll
  rw [show b.modf.toNat = bMod b from rfl, elemAct_tokens hf hk, laneFire_ok h]

/-- An arithmetic element with tokens at its linked slots: its result, or the fault of its draws. -/
theorem arith_tokens {s f f2 : State} {b : Blk} {items : List Item} {us : List Nat} (hf : ElemFree s f b) (op n : Nat)
    (g : Nat → List Val → Val) (hk : TokensAt s f (slotsOf op (bMod b)) items) :
    (srWords (popAll f (siteOf s) (slotsOf op (bMod b))) s.turn b 16 = .ok (us, f2) →
      arith b op n g s = leaves s b (laneResult s (popAll f (siteOf s) (slotsOf op (bMod b))) f2 us b op (eType b)
        (List.replicate n (eType b)) items
        fun u xs => encodeElem (eType b) (bRm b) u (g (bRm b) (xs.map (valOf (eType b)))))) ∧
    (∀ c, srWords (popAll f (siteOf s) (slotsOf op (bMod b))) s.turn b 16 = .error c → arith b op n g s =
      leaves s b (tokenHalt (drawsMade (popAll f (siteOf s) (slotsOf op (bMod b))) s.turn (bSrs b) 16) (siteOf s)
        ((slotsOf op (bMod b)).headD 0) c)) := by
  refine ⟨fun h => laneOp_tokens hf hk (by simpa using h), fun c h => ?_⟩
  have hc : (siteOf s).c = s.turn := rfl
  unfold arith laneOp reactAll
  rw [show b.modf.toNat = bMod b from rfl, elemAct_tokens hf hk]
  unfold laneFire
  simp only [hc, h, if_true]

end Sys2Proof.Machine
end

