-- ==== Sys2Proof/Laws/Encoding.lean ====
section
/-! SUPPORT. The fields that the decoder reads back from each layout of the encoder (R289, R292, R294, R307, R347), and the
two patterns of R301 that no encoded word is. -/

namespace Sys2Proof

/-- A field read as a number is the number of the field read as bits. -/
theorem bitsOf_toNat {n : Nat} (x : BitVec n) (hi lo : Nat) :
    bitsOf x.toNat hi lo = (x.extractLsb' lo (hi + 1 - lo)).toNat := by
  simp [bitsOf, BitVec.extractLsb'_toNat]

@[simp] theorem Ann.ofBits_toBits (n : Ann) : Ann.ofBits n.toBits = n := by cases n <;> rfl
@[simp] theorem Scope.ofBits_toBits (s : Scope) : Scope.ofBits s.toBits = s := by cases s <;> rfl
@[simp] theorem Width.ofBits_toBits (w : Width) : Width.ofBits w.toBits = w := by cases w <;> rfl
@[simp] theorem AWidth.ofBit_toBit (w : AWidth) : AWidth.ofBit w.toBit = w := by cases w <;> rfl

@[simp] theorem majorOf_wordR (m : BitVec 6) (d a b : Reg) (f : BitVec 11) : majorOf (wordR m d a b f) = m :=
  (BitVec.extractLsb'_append_eq_of_le (v := 21) (w := 11) (by decide)).trans
    ((BitVec.extractLsb'_append_eq_of_le (v := 16) (w := 5) (by decide)).trans
    ((BitVec.extractLsb'_append_eq_of_le (v := 11) (w := 5) (by decide)).trans
    ((BitVec.extractLsb'_append_eq_of_le (v := 6) (w := 5) (by decide)).trans
    (BitVec.extractLsb'_eq_self))))
@[simp] theorem f25_wordR (m : BitVec 6) (d a b : Reg) (f : BitVec 11) : f25 (wordR m d a b f) = d :=
  (BitVec.extractLsb'_append_eq_of_le (v := 21) (w := 11) (by decide)).trans
    ((BitVec.extractLsb'_append_eq_of_le (v := 16) (w := 5) (by decide)).trans
    ((BitVec.extractLsb'_append_eq_of_le (v := 11) (w := 5) (by decide)).trans
    (BitVec.extractLsb'_append_eq_right (w := 6) (w' := 5))))
@[simp] theorem f20_wordR (m : BitVec 6) (d a b : Reg) (f : BitVec 11) : f20 (wordR m d a b f) = a :=
  (BitVec.extractLsb'_append_eq_of_le (v := 21) (w := 11) (by decide)).trans
    ((BitVec.extractLsb'_append_eq_of_le (v := 16) (w := 5) (by decide)).trans
    (BitVec.extractLsb'_append_eq_right (w := 11) (w' := 5)))
@[simp] theorem f15_wordR (m : BitVec 6) (d a b : Reg) (f : BitVec 11) : f15 (wordR m d a b f) = b :=
  (BitVec.extractLsb'_append_eq_of_le (v := 21) (w := 11) (by decide)).trans
    (BitVec.extractLsb'_append_eq_right (w := 16) (w' := 5))
@[simp] theorem fnOf_wordR (m : BitVec 6) (d a b : Reg) (f : BitVec 11) : fnOf (wordR m d a b f) = f :=
  BitVec.extractLsb'_append_eq_right (w := 21) (w' := 11)
theorem low_wordR (m : BitVec 6) (d a b : Reg) (f : BitVec 11) (k l : Nat) (h : k + l ≤ 11) :
    (wordR m d a b f).extractLsb' k l = f.extractLsb' k l :=
  BitVec.extractLsb'_append_eq_of_add_le (v := 21) (w := 11) h
@[simp] theorem majorOf_wordI (m : BitVec 6) (x y : Reg) (i : BitVec 16) : majorOf (wordI m x y i) = m :=
  (BitVec.extractLsb'_append_eq_of_le (v := 16) (w := 16) (by decide)).trans
    ((BitVec.extractLsb'_append_eq_of_le (v := 11) (w := 5) (by decide)).trans
    ((BitVec.extractLsb'_append_eq_of_le (v := 6) (w := 5) (by decide)).trans
    (BitVec.extractLsb'_eq_self)))
@[simp] theorem f25_wordI (m : BitVec 6) (x y : Reg) (i : BitVec 16) : f25 (wordI m x y i) = x :=
  (BitVec.extractLsb'_append_eq_of_le (v := 16) (w := 16) (by decide)).trans
    ((BitVec.extractLsb'_append_eq_of_le (v := 11) (w := 5) (by decide)).trans
    (BitVec.extractLsb'_append_eq_right (w := 6) (w' := 5)))
@[simp] theorem f20_wordI (m : BitVec 6) (x y : Reg) (i : BitVec 16) : f20 (wordI m x y i) = y :=
  (BitVec.extractLsb'_append_eq_of_le (v := 16) (w := 16) (by decide)).trans
    (BitVec.extractLsb'_append_eq_right (w := 11) (w' := 5))
@[simp] theorem immOf_wordI (m : BitVec 6) (x y : Reg) (i : BitVec 16) : immOf (wordI m x y i) = i :=
  BitVec.extractLsb'_append_eq_right (w := 16) (w' := 16)
theorem low_wordI (m : BitVec 6) (x y : Reg) (i : BitVec 16) (k l : Nat) (h : k + l ≤ 16) :
    (wordI m x y i).extractLsb' k l = i.extractLsb' k l :=
  BitVec.extractLsb'_append_eq_of_add_le (v := 16) (w := 16) h
@[simp] theorem majorOf_wordE (m : BitVec 6) (d a b : Reg) (e : BitVec 6) (n : BitVec 5) : majorOf (wordE m d a b e n) = m :=
  (BitVec.extractLsb'_append_eq_of_le (v := 27) (w := 5) (by decide)).trans
    ((BitVec.extractLsb'_append_eq_of_le (v := 21) (w := 6) (by decide)).trans
    ((BitVec.extractLsb'_append_eq_of_le (v := 16) (w := 5) (by decide)).trans
    ((BitVec.extractLsb'_append_eq_of_le (v := 11) (w := 5) (by decide)).trans
    ((BitVec.extractLsb'_append_eq_of_le (v := 6) (w := 5) (by decide)).trans
    (BitVec.extractLsb'_eq_self)))))
@[simp] theorem f25_wordE (m : BitVec 6) (d a b : Reg) (e : BitVec 6) (n : BitVec 5) : f25 (wordE m d a b e n) = d :=
  (BitVec.extractLsb'_append_eq_of_le (v := 27) (w := 5) (by decide)).trans
    ((BitVec.extractLsb'_append_eq_of_le (v := 21) (w := 6) (by decide)).trans
    ((BitVec.extractLsb'_append_eq_of_le (v := 16) (w := 5) (by decide)).trans
    ((BitVec.extractLsb'_append_eq_of_le (v := 11) (w := 5) (by decide)).trans
    (BitVec.extractLsb'_append_eq_right (w := 6) (w' := 5)))))
@[simp] theorem f20_wordE (m : BitVec 6) (d a b : Reg) (e : BitVec 6) (n : BitVec 5) : f20 (wordE m d a b e n) = a :=
  (BitVec.extractLsb'_append_eq_of_le (v := 27) (w := 5) (by decide)).trans
    ((BitVec.extractLsb'_append_eq_of_le (v := 21) (w := 6) (by decide)).trans
    ((BitVec.extractLsb'_append_eq_of_le (v := 16) (w := 5) (by decide)).trans
    (BitVec.extractLsb'_append_eq_right (w := 11) (w' := 5))))
@[simp] theorem f15_wordE (m : BitVec 6) (d a b : Reg) (e : BitVec 6) (n : BitVec 5) : f15 (wordE m d a b e n) = b :=
  (BitVec.extractLsb'_append_eq_of_le (v := 27) (w := 5) (by decide)).trans
    ((BitVec.extractLsb'_append_eq_of_le (v := 21) (w := 6) (by decide)).trans
    (BitVec.extractLsb'_append_eq_right (w := 16) (w' := 5)))
@[simp] theorem engOf_wordE (m : BitVec 6) (d a b : Reg) (e : BitVec 6) (n : BitVec 5) : engOf (wordE m d a b e n) = e :=
  (BitVec.extractLsb'_append_eq_of_le (v := 27) (w := 5) (by decide)).trans
    (BitVec.extractLsb'_append_eq_right (w := 21) (w' := 6))
@[simp] theorem modOf_wordE (m : BitVec 6) (d a b : Reg) (e : BitVec 6) (n : BitVec 5) : modOf (wordE m d a b e n) = n :=
  BitVec.extractLsb'_append_eq_right (w := 27) (w' := 5)
theorem low_wordE (m : BitVec 6) (d a b : Reg) (e : BitVec 6) (n : BitVec 5) (k l : Nat) (h : k + l ≤ 5) :
    (wordE m d a b e n).extractLsb' k l = n.extractLsb' k l :=
  BitVec.extractLsb'_append_eq_of_add_le (v := 27) (w := 5) h
@[simp] theorem majorOf_wordQ (m : BitVec 6) (d a b : Reg) (q : QNum) (n : Ann) (s : Scope) (w : BitVec 3) : majorOf (wordQ m d a b q n s w) = m :=
  (BitVec.extractLsb'_append_eq_of_le (v := 29) (w := 3) (by decide)).trans
    ((BitVec.extractLsb'_append_eq_of_le (v := 27) (w := 2) (by decide)).trans
    ((BitVec.extractLsb'_append_eq_of_le (v := 25) (w := 2) (by decide)).trans
    ((BitVec.extractLsb'_append_eq_of_le (v := 21) (w := 4) (by decide)).trans
    ((BitVec.extractLsb'_append_eq_of_le (v := 16) (w := 5) (by decide)).trans
    ((BitVec.extractLsb'_append_eq_of_le (v := 11) (w := 5) (by decide)).trans
    ((BitVec.extractLsb'_append_eq_of_le (v := 6) (w := 5) (by decide)).trans
    (BitVec.extractLsb'_eq_self)))))))
@[simp] theorem f25_wordQ (m : BitVec 6) (d a b : Reg) (q : QNum) (n : Ann) (s : Scope) (w : BitVec 3) : f25 (wordQ m d a b q n s w) = d :=
  (BitVec.extractLsb'_append_eq_of_le (v := 29) (w := 3) (by decide)).trans
    ((BitVec.extractLsb'_append_eq_of_le (v := 27) (w := 2) (by decide)).trans
    ((BitVec.extractLsb'_append_eq_of_le (v := 25) (w := 2) (by decide)).trans
    ((BitVec.extractLsb'_append_eq_of_le (v := 21) (w := 4) (by decide)).trans
    ((BitVec.extractLsb'_append_eq_of_le (v := 16) (w := 5) (by decide)).trans
    ((BitVec.extractLsb'_append_eq_of_le (v := 11) (w := 5) (by decide)).trans
    (BitVec.extractLsb'_append_eq_right (w := 6) (w' := 5)))))))
@[simp] theorem f20_wordQ (m : BitVec 6) (d a b : Reg) (q : QNum) (n : Ann) (s : Scope) (w : BitVec 3) : f20 (wordQ m d a b q n s w) = a :=
  (BitVec.extractLsb'_append_eq_of_le (v := 29) (w := 3) (by decide)).trans
    ((BitVec.extractLsb'_append_eq_of_le (v := 27) (w := 2) (by decide)).trans
    ((BitVec.extractLsb'_append_eq_of_le (v := 25) (w := 2) (by decide)).trans
    ((BitVec.extractLsb'_append_eq_of_le (v := 21) (w := 4) (by decide)).trans
    ((BitVec.extractLsb'_append_eq_of_le (v := 16) (w := 5) (by decide)).trans
    (BitVec.extractLsb'_append_eq_right (w := 11) (w' := 5))))))
@[simp] theorem f15_wordQ (m : BitVec 6) (d a b : Reg) (q : QNum) (n : Ann) (s : Scope) (w : BitVec 3) : f15 (wordQ m d a b q n s w) = b :=
  (BitVec.extractLsb'_append_eq_of_le (v := 29) (w := 3) (by decide)).trans
    ((BitVec.extractLsb'_append_eq_of_le (v := 27) (w := 2) (by decide)).trans
    ((BitVec.extractLsb'_append_eq_of_le (v := 25) (w := 2) (by decide)).trans
    ((BitVec.extractLsb'_append_eq_of_le (v := 21) (w := 4) (by decide)).trans
    (BitVec.extractLsb'_append_eq_right (w := 16) (w' := 5)))))
@[simp] theorem qnOf_wordQ (m : BitVec 6) (d a b : Reg) (q : QNum) (n : Ann) (s : Scope) (w : BitVec 3) : qnOf (wordQ m d a b q n s w) = q :=
  (BitVec.extractLsb'_append_eq_of_le (v := 29) (w := 3) (by decide)).trans
    ((BitVec.extractLsb'_append_eq_of_le (v := 27) (w := 2) (by decide)).trans
    ((BitVec.extractLsb'_append_eq_of_le (v := 25) (w := 2) (by decide)).trans
    (BitVec.extractLsb'_append_eq_right (w := 21) (w' := 4))))
@[simp] theorem annOf_wordQ (m : BitVec 6) (d a b : Reg) (q : QNum) (n : Ann) (s : Scope) (w : BitVec 3) : annOf (wordQ m d a b q n s w) = n :=
  (congrArg Ann.ofBits ((BitVec.extractLsb'_append_eq_of_le (v := 29) (w := 3) (by decide)).trans
    ((BitVec.extractLsb'_append_eq_of_le (v := 27) (w := 2) (by decide)).trans
    (BitVec.extractLsb'_append_eq_right (w := 25) (w' := 2))))).trans
    (Ann.ofBits_toBits n)
@[simp] theorem scopeOf_wordQ (m : BitVec 6) (d a b : Reg) (q : QNum) (n : Ann) (s : Scope) (w : BitVec 3) : scopeOf (wordQ m d a b q n s w) = s :=
  (congrArg Scope.ofBits ((BitVec.extractLsb'_append_eq_of_le (v := 29) (w := 3) (by decide)).trans
    (BitVec.extractLsb'_append_eq_right (w := 27) (w' := 2)))).trans
    (Scope.ofBits_toBits s)
theorem low_wordQ (m : BitVec 6) (d a b : Reg) (q : QNum) (n : Ann) (s : Scope) (w : BitVec 3) (k l : Nat) (h : k + l ≤ 3) :
    (wordQ m d a b q n s w).extractLsb' k l = w.extractLsb' k l :=
  BitVec.extractLsb'_append_eq_of_add_le (v := 29) (w := 3) h
@[simp] theorem majorOf_wordS (m : BitVec 6) (x a : Reg) (s : Scope) (w : Width) (i : BitVec 12) : majorOf (wordS m x a s w i) = m :=
  (BitVec.extractLsb'_append_eq_of_le (v := 20) (w := 12) (by decide)).trans
    ((BitVec.extractLsb'_append_eq_of_le (v := 18) (w := 2) (by decide)).trans
    ((BitVec.extractLsb'_append_eq_of_le (v := 16) (w := 2) (by decide)).trans
    ((BitVec.extractLsb'_append_eq_of_le (v := 11) (w := 5) (by decide)).trans
    ((BitVec.extractLsb'_append_eq_of_le (v := 6) (w := 5) (by decide)).trans
    (BitVec.extractLsb'_eq_self)))))
@[simp] theorem f25_wordS (m : BitVec 6) (x a : Reg) (s : Scope) (w : Width) (i : BitVec 12) : f25 (wordS m x a s w i) = x :=
  (BitVec.extractLsb'_append_eq_of_le (v := 20) (w := 12) (by decide)).trans
    ((BitVec.extractLsb'_append_eq_of_le (v := 18) (w := 2) (by decide)).trans
    ((BitVec.extractLsb'_append_eq_of_le (v := 16) (w := 2) (by decide)).trans
    ((BitVec.extractLsb'_append_eq_of_le (v := 11) (w := 5) (by decide)).trans
    (BitVec.extractLsb'_append_eq_right (w := 6) (w' := 5)))))
@[simp] theorem f20_wordS (m : BitVec 6) (x a : Reg) (s : Scope) (w : Width) (i : BitVec 12) : f20 (wordS m x a s w i) = a :=
  (BitVec.extractLsb'_append_eq_of_le (v := 20) (w := 12) (by decide)).trans
    ((BitVec.extractLsb'_append_eq_of_le (v := 18) (w := 2) (by decide)).trans
    ((BitVec.extractLsb'_append_eq_of_le (v := 16) (w := 2) (by decide)).trans
    (BitVec.extractLsb'_append_eq_right (w := 11) (w' := 5))))
@[simp] theorem scope_wordS (m : BitVec 6) (x a : Reg) (s : Scope) (w : Width) (i : BitVec 12) : (wordS m x a s w i).extractLsb' 14 2 = s.toBits :=
  (BitVec.extractLsb'_append_eq_of_le (v := 20) (w := 12) (by decide)).trans
    ((BitVec.extractLsb'_append_eq_of_le (v := 18) (w := 2) (by decide)).trans
    (BitVec.extractLsb'_append_eq_right (w := 16) (w' := 2)))
@[simp] theorem width_wordS (m : BitVec 6) (x a : Reg) (s : Scope) (w : Width) (i : BitVec 12) : (wordS m x a s w i).extractLsb' 12 2 = w.toBits :=
  (BitVec.extractLsb'_append_eq_of_le (v := 20) (w := 12) (by decide)).trans
    (BitVec.extractLsb'_append_eq_right (w := 18) (w' := 2))
@[simp] theorem off_wordS (m : BitVec 6) (x a : Reg) (s : Scope) (w : Width) (i : BitVec 12) : (wordS m x a s w i).extractLsb' 0 12 = i :=
  BitVec.extractLsb'_append_eq_right (w := 20) (w' := 12)
@[simp] theorem majorOf_jump (m : BitVec 6) (d : Reg) (i : BitVec 21) : majorOf (m ++ d ++ i : Word32) = m :=
  (BitVec.extractLsb'_append_eq_of_le (v := 11) (w := 21) (by decide)).trans
    ((BitVec.extractLsb'_append_eq_of_le (v := 6) (w := 5) (by decide)).trans
    (BitVec.extractLsb'_eq_self))
@[simp] theorem f25_jump (m : BitVec 6) (d : Reg) (i : BitVec 21) : f25 (m ++ d ++ i : Word32) = d :=
  (BitVec.extractLsb'_append_eq_of_le (v := 11) (w := 21) (by decide)).trans
    (BitVec.extractLsb'_append_eq_right (w := 6) (w' := 5))
@[simp] theorem off_jump (m : BitVec 6) (d : Reg) (i : BitVec 21) : (m ++ d ++ i : Word32).extractLsb' 0 21 = i :=
  BitVec.extractLsb'_append_eq_right (w := 11) (w' := 21)

theorem ne_zero_of_major {w : Word32} (h : majorOf w ≠ 0) : w ≠ 0 := fun e => h (by rw [e]; rfl)
theorem ne_ones_of_major {w : Word32} (h : majorOf w ≠ 63) : w ≠ BitVec.allOnes 32 := fun e => h (by rw [e]; rfl)
theorem ne_zero_of_fn {w : Word32} (h : fnOf w ≠ 0) : w ≠ 0 := fun e => h (by rw [e]; rfl)
theorem ne_ones_of_imm {w : Word32} (h : immOf w ≠ 0xFFFF) : w ≠ BitVec.allOnes 32 := fun e => h (by rw [e]; rfl)

/-- A word whose major opcode is neither 0 nor 63 is none of the two patterns of R301. -/
theorem not_pattern {w : Word32} (h : majorOf w ≠ 0 ∧ majorOf w ≠ 63) : w ≠ 0 ∧ w ≠ BitVec.allOnes 32 :=
  ⟨ne_zero_of_major h.1, ne_ones_of_major h.2⟩

/-! Block words (R307). -/

theorem modf_wordBlk (op : BitVec 10) (b : Blk) : (wordBlk op b).extractLsb' 0 25 = b.modf :=
  BitVec.extractLsb'_append_eq_right (w := 39) (w' := 25)
theorem tcode_wordBlk (op : BitVec 10) (b : Blk) : (wordBlk op b).extractLsb' 49 5 = b.tcode :=
  (BitVec.extractLsb'_append_eq_of_le (v := 39) (w := 25) (by decide)).trans
    ((BitVec.extractLsb'_append_eq_of_le (v := 27) (w := 12) (by decide)).trans
    ((BitVec.extractLsb'_append_eq_of_le (v := 15) (w := 12) (by decide)).trans
    (BitVec.extractLsb'_append_eq_right (w := 10) (w' := 5))))
theorem opcode_wordBlk (op : BitVec 10) (b : Blk) : (wordBlk op b).extractLsb' 54 10 = op :=
  (BitVec.extractLsb'_append_eq_of_le (v := 39) (w := 25) (by decide)).trans
    ((BitVec.extractLsb'_append_eq_of_le (v := 27) (w := 12) (by decide)).trans
    ((BitVec.extractLsb'_append_eq_of_le (v := 15) (w := 12) (by decide)).trans
    ((BitVec.extractLsb'_append_eq_of_le (v := 10) (w := 5) (by decide)).trans
    (BitVec.extractLsb'_eq_self))))
theorem t0_idx_wordBlk (op : BitVec 10) (b : Blk) : (wordBlk op b).extractLsb' 42 7 = b.t0.idx :=
  (BitVec.extractLsb'_append_eq_of_le (v := 39) (w := 25) (by decide)).trans
    ((BitVec.extractLsb'_append_eq_of_le (v := 27) (w := 12) (by decide)).trans
    ((BitVec.extractLsb'_append_eq_of_add_le (v := 15) (w := 12) (by decide)).trans
    ((BitVec.extractLsb'_append_eq_of_le (v := 10) (w := 2) (by decide)).trans
    ((BitVec.extractLsb'_append_eq_of_le (v := 9) (w := 1) (by decide)).trans
    ((BitVec.extractLsb'_append_eq_of_le (v := 7) (w := 2) (by decide)).trans
    (BitVec.extractLsb'_eq_self))))))
theorem t0_slot_wordBlk (op : BitVec 10) (b : Blk) : (wordBlk op b).extractLsb' 40 2 = b.t0.slot :=
  (BitVec.extractLsb'_append_eq_of_le (v := 39) (w := 25) (by decide)).trans
    ((BitVec.extractLsb'_append_eq_of_le (v := 27) (w := 12) (by decide)).trans
    ((BitVec.extractLsb'_append_eq_of_add_le (v := 15) (w := 12) (by decide)).trans
    ((BitVec.extractLsb'_append_eq_of_le (v := 10) (w := 2) (by decide)).trans
    ((BitVec.extractLsb'_append_eq_of_le (v := 9) (w := 1) (by decide)).trans
    (BitVec.extractLsb'_append_eq_right (w := 7) (w' := 2))))))
theorem t0_v_wordBlk (op : BitVec 10) (b : Blk) : (wordBlk op b).extractLsb' 39 1 = BitVec.ofBool b.t0.v :=
  (BitVec.extractLsb'_append_eq_of_le (v := 39) (w := 25) (by decide)).trans
    ((BitVec.extractLsb'_append_eq_of_le (v := 27) (w := 12) (by decide)).trans
    ((BitVec.extractLsb'_append_eq_of_add_le (v := 15) (w := 12) (by decide)).trans
    ((BitVec.extractLsb'_append_eq_of_le (v := 10) (w := 2) (by decide)).trans
    (BitVec.extractLsb'_append_eq_right (w := 9) (w' := 1)))))
theorem t0_buf_wordBlk (op : BitVec 10) (b : Blk) : (wordBlk op b).extractLsb' 37 2 = b.t0.buf :=
  (BitVec.extractLsb'_append_eq_of_le (v := 39) (w := 25) (by decide)).trans
    ((BitVec.extractLsb'_append_eq_of_le (v := 27) (w := 12) (by decide)).trans
    ((BitVec.extractLsb'_append_eq_of_add_le (v := 15) (w := 12) (by decide)).trans
    (BitVec.extractLsb'_append_eq_right (w := 10) (w' := 2))))
theorem t1_idx_wordBlk (op : BitVec 10) (b : Blk) : (wordBlk op b).extractLsb' 30 7 = b.t1.idx :=
  (BitVec.extractLsb'_append_eq_of_le (v := 39) (w := 25) (by decide)).trans
    ((BitVec.extractLsb'_append_eq_of_add_le (v := 27) (w := 12) (by decide)).trans
    ((BitVec.extractLsb'_append_eq_of_le (v := 10) (w := 2) (by decide)).trans
    ((BitVec.extractLsb'_append_eq_of_le (v := 9) (w := 1) (by decide)).trans
    ((BitVec.extractLsb'_append_eq_of_le (v := 7) (w := 2) (by decide)).trans
    (BitVec.extractLsb'_eq_self)))))
theorem t1_slot_wordBlk (op : BitVec 10) (b : Blk) : (wordBlk op b).extractLsb' 28 2 = b.t1.slot :=
  (BitVec.extractLsb'_append_eq_of_le (v := 39) (w := 25) (by decide)).trans
    ((BitVec.extractLsb'_append_eq_of_add_le (v := 27) (w := 12) (by decide)).trans
    ((BitVec.extractLsb'_append_eq_of_le (v := 10) (w := 2) (by decide)).trans
    ((BitVec.extractLsb'_append_eq_of_le (v := 9) (w := 1) (by decide)).trans
    (BitVec.extractLsb'_append_eq_right (w := 7) (w' := 2)))))
theorem t1_v_wordBlk (op : BitVec 10) (b : Blk) : (wordBlk op b).extractLsb' 27 1 = BitVec.ofBool b.t1.v :=
  (BitVec.extractLsb'_append_eq_of_le (v := 39) (w := 25) (by decide)).trans
    ((BitVec.extractLsb'_append_eq_of_add_le (v := 27) (w := 12) (by decide)).trans
    ((BitVec.extractLsb'_append_eq_of_le (v := 10) (w := 2) (by decide)).trans
    (BitVec.extractLsb'_append_eq_right (w := 9) (w' := 1))))
theorem t1_buf_wordBlk (op : BitVec 10) (b : Blk) : (wordBlk op b).extractLsb' 25 2 = b.t1.buf :=
  (BitVec.extractLsb'_append_eq_of_le (v := 39) (w := 25) (by decide)).trans
    ((BitVec.extractLsb'_append_eq_of_add_le (v := 27) (w := 12) (by decide)).trans
    (BitVec.extractLsb'_append_eq_right (w := 10) (w' := 2)))

/-- A block word gives back the fields it was made of. -/
@[simp] theorem ofWord_wordBlk (op : BitVec 10) (b : Blk) : Blk.ofWord (wordBlk op b) = b := by
  simp only [Blk.ofWord, Target.ofBits, modf_wordBlk, tcode_wordBlk, t0_idx_wordBlk, t0_slot_wordBlk, t0_v_wordBlk,
    t0_buf_wordBlk, t1_idx_wordBlk, t1_slot_wordBlk, t1_v_wordBlk, t1_buf_wordBlk]
  obtain ⟨tc, ⟨v0, i0, s0, u0⟩, ⟨v1, i1, s1, u1⟩, md⟩ := b
  cases v0 <;> cases v1 <;> rfl

/-- The two halves of a double make it up again. -/
theorem halves_append (w : Word) : (w.extractLsb' 32 32 ++ w.extractLsb' 0 32 : Word) = w := by
  apply BitVec.eq_of_getLsbD_eq
  intro i hi
  rw [BitVec.getLsbD_append]
  by_cases h : i < 32
  · simp [h]
  · simp [h, show i - 32 < 32 by omega, show 32 + (i - 32) = i by omega]

/-- The decoder reads a well-formed block word by its opcode alone. -/
theorem decodeBlk_wordBlk (op : BitVec 10) (b : Blk) (h : b.wf = true) : decodeBlk (wordBlk op b) = elemOf op.toNat b := by
  simp only [decodeBlk, ofWord_wordBlk, h, if_true, bitsOf_toNat]
  rw [opcode_wordBlk]

/-! What the decoder asks of the mod field of an engine command (R348), of W (R292, R294) and of the sources (R296). -/

@[simp] theorem mod_low1 : ∀ n : BitVec 1, (1 < ((0#4 ++ n : BitVec 5).toNat)) = False := by decide
@[simp] theorem mod_low2 : ∀ n : BitVec 2, (3 < ((0#3 ++ n : BitVec 5).toNat)) = False := by decide
@[simp] theorem mod_low2_seven : ∀ n : BitVec 2, (7 < ((0#3 ++ n : BitVec 5).toNat)) = False := by decide
@[simp] theorem mod_low2_lt : ∀ n : BitVec 2, (((0#3 ++ n : BitVec 5).toNat) < 4) = True := by decide
@[simp] theorem mod_low2_ge : ∀ n : BitVec 2, (4 ≤ ((0#3 ++ n : BitVec 5).toNat)) = False := by decide
@[simp] theorem mod_low2_zero : ∀ n : BitVec 2, (((0#3 ++ n : BitVec 5).toNat) = 0) = (n = 0) := by decide
@[simp] theorem mod_one2_seven : ∀ n : BitVec 2, (7 < ((1#3 ++ n : BitVec 5).toNat)) = False := by decide
@[simp] theorem mod_one2_lt : ∀ n : BitVec 2, (((1#3 ++ n : BitVec 5).toNat) < 4) = False := by decide
@[simp] theorem mod_low3 : ∀ n : BitVec 3, (7 < ((0#2 ++ n : BitVec 5).toNat)) = False := by decide
@[simp] theorem mod_low3_fifteen : ∀ n : BitVec 3, (15 < ((0#2 ++ n : BitVec 5).toNat)) = False := by decide
@[simp] theorem mod_low3_lt : ∀ n : BitVec 3, (((0#2 ++ n : BitVec 5).toNat) < 8) = True := by decide
@[simp] theorem mod_one3_fifteen : ∀ n : BitVec 3, (15 < ((1#2 ++ n : BitVec 5).toNat)) = False := by decide
@[simp] theorem mod_one3_lt : ∀ n : BitVec 3, (((1#2 ++ n : BitVec 5).toNat) < 8) = False := by decide
@[simp] theorem mod_low4 : ∀ n : BitVec 4, (15 < ((0#1 ++ n : BitVec 5).toNat)) = False := by decide
@[simp] theorem mod_low4_lt : ∀ n : BitVec 4, (((0#1 ++ n : BitVec 5).toNat) < 16) = True := by decide
@[simp] theorem mod_one4_lt : ∀ n : BitVec 4, (((1#1 ++ n : BitVec 5).toNat) < 16) = False := by decide
@[simp] theorem mod_group0 : ∀ n : BitVec 2, ((0#3 ++ n : BitVec 5).toNat) / 4 = 0 := by decide
@[simp] theorem mod_group1 : ∀ n : BitVec 2, ((1#3 ++ n : BitVec 5).toNat) / 4 = 1 := by decide
@[simp] theorem mod_group2 : ∀ n : BitVec 2, ((2#3 ++ n : BitVec 5).toNat) / 4 = 2 := by decide
@[simp] theorem mod_group3 : ∀ n : BitVec 2, ((3#3 ++ n : BitVec 5).toNat) / 4 = 3 := by decide
@[simp] theorem mod_sort : ∀ k i : BitVec 1, (3 < ((0#3 ++ k ++ i : BitVec 5).toNat)) = False := by decide
@[simp] theorem sort_keys : ∀ k i : BitVec 1, (0#3 ++ k ++ i : BitVec 5).extractLsb' 1 1 = k := by decide
@[simp] theorem sort_items : ∀ k i : BitVec 1, (0#3 ++ k ++ i : BitVec 5).extractLsb' 0 1 = i := by decide
@[simp] theorem deck_width : ∀ (w : BitVec 1) (q : BitVec 4), (w ++ q : BitVec 5).extractLsb' 4 1 = w := by decide
@[simp] theorem deck_tag : ∀ (w : BitVec 1) (q : BitVec 4), (w ++ q : BitVec 5).extractLsb' 0 4 = q := by decide
@[simp] theorem queued_width : ∀ w : BitVec 2, (0#1 ++ w : BitVec 3).extractLsb' 0 2 = w := by decide
@[simp] theorem queued_narrow : ∀ w : BitVec 2, (0#1 ++ w : BitVec 3).extractLsb' 2 1 = 0 := by decide
@[simp] theorem atomic_width : ∀ (w : BitVec 1) (n : BitVec 2), (w ++ n : BitVec 3).extractLsb' 2 1 = w := by decide
@[simp] theorem atomic_group : ∀ (w : BitVec 1) (n : BitVec 2), (w ++ n : BitVec 3).extractLsb' 0 2 = n := by decide
@[simp] theorem wait_kind : ∀ (q : BitVec 4) (n : BitVec 7), (q ++ n : BitVec 11).extractLsb' 0 2 = n.extractLsb' 0 2 := by
  intro q n; exact BitVec.extractLsb'_append_eq_of_add_le (v := 4) (w := 7) (by decide)
@[simp] theorem wait_zero : ∀ (q : BitVec 4) (n : BitVec 7), (q ++ n : BitVec 11).extractLsb' 2 5 = n.extractLsb' 2 5 := by
  intro q n; exact BitVec.extractLsb'_append_eq_of_add_le (v := 4) (w := 7) (by decide)
@[simp] theorem low_mod1 : ∀ n : BitVec 1, (0#4 ++ n : BitVec 5).extractLsb' 0 1 = n := by decide
@[simp] theorem low_mod2 : ∀ (c : BitVec 3) (n : BitVec 2), (c ++ n : BitVec 5).extractLsb' 0 2 = n := by decide
@[simp] theorem low_mod3 : ∀ (c : BitVec 2) (n : BitVec 3), (c ++ n : BitVec 5).extractLsb' 0 3 = n := by decide
@[simp] theorem low_mod4 : ∀ (c : BitVec 1) (n : BitVec 4), (c ++ n : BitVec 5).extractLsb' 0 4 = n := by decide
@[simp] theorem sysreg_low (n : BitVec 12) : (0#4 ++ n : BitVec 16).extractLsb' 0 12 = n :=
  BitVec.extractLsb'_append_eq_right (w := 4) (w' := 12)
@[simp] theorem sysreg_high (n : BitVec 12) : (0#4 ++ n : BitVec 16).extractLsb' 12 4 = 0 :=
  (BitVec.extractLsb'_append_eq_of_le (v := 4) (w := 12) (by decide)).trans BitVec.extractLsb'_eq_self
@[simp] theorem qnOf_wait (m : BitVec 6) (d a b : Reg) (q : BitVec 4) (n : BitVec 7) : qnOf (wordR m d a b (q ++ n)) = q :=
  (BitVec.extractLsb'_append_eq_of_add_le (v := 21) (w := 11) (by decide)).trans
    ((BitVec.extractLsb'_append_eq_of_le (v := 4) (w := 7) (by decide)).trans BitVec.extractLsb'_eq_self)

end Sys2Proof
end

