-- ==== Sys2Proof/Laws/PerInstr.lean ====
section
/-! SUPPORT. Decoding the encoding of each instruction gives it back, one lemma a constructor (R288 to R310). -/

set_option Elab.async false

namespace Sys2Proof

/-- What the family states of an instruction: well formed, it reads back from its own words. -/
def Laws.RoundTrip.Statement (i : Instr) : Prop := i.wf = true → i.readsBack

/-- A one-word instruction reads back when its word decodes to it. -/
theorem Instr.readsBack_of_word {i : Instr} {w : Word32} (he : encode i = [w])
    (h : ∀ w2 tail, decodeCp w w2 tail = .ok i) : i.readsBack := by
  refine ⟨fun x hx => ?_, fun lo hi hx => ?_⟩
  · rw [he] at hx; cases hx; exact h
  · rw [he] at hx; cases hx

/-- An instruction without words reads back. -/
theorem Instr.readsBack_of_none {i : Instr} (he : encode i = []) : i.readsBack :=
  ⟨fun x hx => absurd (he.symm.trans hx) (by simp), fun lo hi hx => absurd (he.symm.trans hx) (by simp)⟩

/-- A block instruction reads back when its opcode names it. -/
theorem Instr.readsBack_of_blk {i : Instr} {op : BitVec 10} {b : Blk} (he : encode i = blkWords (wordBlk op b))
    (hl : i.isLix = false) (hw : b.wf = true) (ho : elemOf op.toNat b = some i) : i.readsBack := by
  refine ⟨fun x hx => ?_, fun lo hi hx => ?_⟩
  · rw [he] at hx; cases hx
  · rw [he] at hx; cases hx
    rw [if_neg (by simp [hl]), halves_append, decodeBlk_wordBlk op b hw, ho]

/-- An instruction of major opcode 0 reads back when its fn names it. -/
theorem Instr.readsBack_of_alu {i : Instr} {d a b : Reg} {f : BitVec 11} (he : encode i = [wordR 0 d a b f]) (hf : f ≠ 0)
    (h : decodeAlu (wordR 0 d a b f) = .ok i) : i.readsBack :=
  readsBack_of_word he fun w2 tail => by
    rw [decodeCp, if_neg (ne_zero_of_fn (by simpa using hf)), if_neg (ne_ones_of_major (by simp))]
    simpa using h

/-- An instruction of another major opcode but 63 reads back when its arm of the decoder names it. -/
theorem Instr.readsBack_of_major {i : Instr} {w : Word32} (he : encode i = [w]) (hm : majorOf w ≠ 0 ∧ majorOf w ≠ 63)
    (h : w ≠ 0 → w ≠ BitVec.allOnes 32 → ∀ w2 tail, decodeCp w w2 tail = .ok i) : i.readsBack :=
  readsBack_of_word he (h (not_pattern hm).1 (not_pattern hm).2)

theorem Laws.RoundTrip.add (d : Reg) (a : Reg) (b : Reg) : Laws.RoundTrip.Statement (.add d a b) :=
  fun _ => Instr.readsBack_of_alu rfl (by decide) (by simp [decodeAlu])
theorem Laws.RoundTrip.sub (d : Reg) (a : Reg) (b : Reg) : Laws.RoundTrip.Statement (.sub d a b) :=
  fun _ => Instr.readsBack_of_alu rfl (by decide) (by simp [decodeAlu])
theorem Laws.RoundTrip.mul (d : Reg) (a : Reg) (b : Reg) : Laws.RoundTrip.Statement (.mul d a b) :=
  fun _ => Instr.readsBack_of_alu rfl (by decide) (by simp [decodeAlu])
theorem Laws.RoundTrip.mulh (d : Reg) (a : Reg) (b : Reg) : Laws.RoundTrip.Statement (.mulh d a b) :=
  fun _ => Instr.readsBack_of_alu rfl (by decide) (by simp [decodeAlu])
theorem Laws.RoundTrip.mulhu (d : Reg) (a : Reg) (b : Reg) : Laws.RoundTrip.Statement (.mulhu d a b) :=
  fun _ => Instr.readsBack_of_alu rfl (by decide) (by simp [decodeAlu])
theorem Laws.RoundTrip.div (d : Reg) (a : Reg) (b : Reg) : Laws.RoundTrip.Statement (.div d a b) :=
  fun _ => Instr.readsBack_of_alu rfl (by decide) (by simp [decodeAlu])
theorem Laws.RoundTrip.divu (d : Reg) (a : Reg) (b : Reg) : Laws.RoundTrip.Statement (.divu d a b) :=
  fun _ => Instr.readsBack_of_alu rfl (by decide) (by simp [decodeAlu])
theorem Laws.RoundTrip.rem (d : Reg) (a : Reg) (b : Reg) : Laws.RoundTrip.Statement (.rem d a b) :=
  fun _ => Instr.readsBack_of_alu rfl (by decide) (by simp [decodeAlu])
theorem Laws.RoundTrip.remu (d : Reg) (a : Reg) (b : Reg) : Laws.RoundTrip.Statement (.remu d a b) :=
  fun _ => Instr.readsBack_of_alu rfl (by decide) (by simp [decodeAlu])
theorem Laws.RoundTrip.and (d : Reg) (a : Reg) (b : Reg) : Laws.RoundTrip.Statement (.and d a b) :=
  fun _ => Instr.readsBack_of_alu rfl (by decide) (by simp [decodeAlu])
theorem Laws.RoundTrip.or (d : Reg) (a : Reg) (b : Reg) : Laws.RoundTrip.Statement (.or d a b) :=
  fun _ => Instr.readsBack_of_alu rfl (by decide) (by simp [decodeAlu])
theorem Laws.RoundTrip.xor (d : Reg) (a : Reg) (b : Reg) : Laws.RoundTrip.Statement (.xor d a b) :=
  fun _ => Instr.readsBack_of_alu rfl (by decide) (by simp [decodeAlu])
theorem Laws.RoundTrip.andn (d : Reg) (a : Reg) (b : Reg) : Laws.RoundTrip.Statement (.andn d a b) :=
  fun _ => Instr.readsBack_of_alu rfl (by decide) (by simp [decodeAlu])
theorem Laws.RoundTrip.shl (d : Reg) (a : Reg) (b : Reg) : Laws.RoundTrip.Statement (.shl d a b) :=
  fun _ => Instr.readsBack_of_alu rfl (by decide) (by simp [decodeAlu])
theorem Laws.RoundTrip.shr (d : Reg) (a : Reg) (b : Reg) : Laws.RoundTrip.Statement (.shr d a b) :=
  fun _ => Instr.readsBack_of_alu rfl (by decide) (by simp [decodeAlu])
theorem Laws.RoundTrip.sra (d : Reg) (a : Reg) (b : Reg) : Laws.RoundTrip.Statement (.sra d a b) :=
  fun _ => Instr.readsBack_of_alu rfl (by decide) (by simp [decodeAlu])
theorem Laws.RoundTrip.rotl (d : Reg) (a : Reg) (b : Reg) : Laws.RoundTrip.Statement (.rotl d a b) :=
  fun _ => Instr.readsBack_of_alu rfl (by decide) (by simp [decodeAlu])
theorem Laws.RoundTrip.min (d : Reg) (a : Reg) (b : Reg) : Laws.RoundTrip.Statement (.min d a b) :=
  fun _ => Instr.readsBack_of_alu rfl (by decide) (by simp [decodeAlu])
theorem Laws.RoundTrip.max (d : Reg) (a : Reg) (b : Reg) : Laws.RoundTrip.Statement (.max d a b) :=
  fun _ => Instr.readsBack_of_alu rfl (by decide) (by simp [decodeAlu])
theorem Laws.RoundTrip.minu (d : Reg) (a : Reg) (b : Reg) : Laws.RoundTrip.Statement (.minu d a b) :=
  fun _ => Instr.readsBack_of_alu rfl (by decide) (by simp [decodeAlu])
theorem Laws.RoundTrip.maxu (d : Reg) (a : Reg) (b : Reg) : Laws.RoundTrip.Statement (.maxu d a b) :=
  fun _ => Instr.readsBack_of_alu rfl (by decide) (by simp [decodeAlu])
theorem Laws.RoundTrip.slt (d : Reg) (a : Reg) (b : Reg) : Laws.RoundTrip.Statement (.slt d a b) :=
  fun _ => Instr.readsBack_of_alu rfl (by decide) (by simp [decodeAlu])
theorem Laws.RoundTrip.sltu (d : Reg) (a : Reg) (b : Reg) : Laws.RoundTrip.Statement (.sltu d a b) :=
  fun _ => Instr.readsBack_of_alu rfl (by decide) (by simp [decodeAlu])
theorem Laws.RoundTrip.seq (d : Reg) (a : Reg) (b : Reg) : Laws.RoundTrip.Statement (.seq d a b) :=
  fun _ => Instr.readsBack_of_alu rfl (by decide) (by simp [decodeAlu])
theorem Laws.RoundTrip.clz (d : Reg) (a : Reg) : Laws.RoundTrip.Statement (.clz d a) :=
  fun _ => Instr.readsBack_of_alu rfl (by decide) (by simp [decodeAlu, checked])
theorem Laws.RoundTrip.ctz (d : Reg) (a : Reg) : Laws.RoundTrip.Statement (.ctz d a) :=
  fun _ => Instr.readsBack_of_alu rfl (by decide) (by simp [decodeAlu, checked])
theorem Laws.RoundTrip.popc (d : Reg) (a : Reg) : Laws.RoundTrip.Statement (.popc d a) :=
  fun _ => Instr.readsBack_of_alu rfl (by decide) (by simp [decodeAlu, checked])
theorem Laws.RoundTrip.brev (d : Reg) (a : Reg) : Laws.RoundTrip.Statement (.brev d a) :=
  fun _ => Instr.readsBack_of_alu rfl (by decide) (by simp [decodeAlu, checked])
theorem Laws.RoundTrip.bext (d : Reg) (a : Reg) (b : Reg) : Laws.RoundTrip.Statement (.bext d a b) :=
  fun _ => Instr.readsBack_of_alu rfl (by decide) (by simp [decodeAlu])
theorem Laws.RoundTrip.bins (d : Reg) (a : Reg) (b : Reg) : Laws.RoundTrip.Statement (.bins d a b) :=
  fun _ => Instr.readsBack_of_alu rfl (by decide) (by simp [decodeAlu])
theorem Laws.RoundTrip.sext (d : Reg) (a : Reg) (b : Reg) : Laws.RoundTrip.Statement (.sext d a b) :=
  fun _ => Instr.readsBack_of_alu rfl (by decide) (by simp [decodeAlu])
theorem Laws.RoundTrip.addi (d : Reg) (a : Reg) (i : BitVec 16) : Laws.RoundTrip.Statement (.addi d a i) :=
  fun _ => Instr.readsBack_of_major rfl (by simp) fun h0 h1 _ _ => by
    rw [decodeCp, if_neg h0, if_neg h1, majorOf_wordI]
    refine Eq.trans (b := Decoded.ok _) rfl ?_
    simp
theorem Laws.RoundTrip.andi (d : Reg) (a : Reg) (i : BitVec 16) : Laws.RoundTrip.Statement (.andi d a i) :=
  fun _ => Instr.readsBack_of_major rfl (by simp) fun h0 h1 _ _ => by
    rw [decodeCp, if_neg h0, if_neg h1, majorOf_wordI]
    refine Eq.trans (b := Decoded.ok _) rfl ?_
    simp
theorem Laws.RoundTrip.ori (d : Reg) (a : Reg) (i : BitVec 16) : Laws.RoundTrip.Statement (.ori d a i) :=
  fun _ => Instr.readsBack_of_major rfl (by simp) fun h0 h1 _ _ => by
    rw [decodeCp, if_neg h0, if_neg h1, majorOf_wordI]
    refine Eq.trans (b := Decoded.ok _) rfl ?_
    simp
theorem Laws.RoundTrip.xori (d : Reg) (a : Reg) (i : BitVec 16) : Laws.RoundTrip.Statement (.xori d a i) :=
  fun _ => Instr.readsBack_of_major rfl (by simp) fun h0 h1 _ _ => by
    rw [decodeCp, if_neg h0, if_neg h1, majorOf_wordI]
    refine Eq.trans (b := Decoded.ok _) rfl ?_
    simp
theorem Laws.RoundTrip.shli (d : Reg) (a : Reg) (i : BitVec 16) : Laws.RoundTrip.Statement (.shli d a i) :=
  fun h => Instr.readsBack_of_major rfl (by simp) fun h0 h1 _ _ => by
    replace h : ¬ 63 < i.toNat := by have := of_decide_eq_true h; omega
    rw [decodeCp, if_neg h0, if_neg h1, majorOf_wordI]
    refine Eq.trans (b := checked _ _) rfl ?_
    simp [checked, h]
theorem Laws.RoundTrip.shri (d : Reg) (a : Reg) (i : BitVec 16) : Laws.RoundTrip.Statement (.shri d a i) :=
  fun h => Instr.readsBack_of_major rfl (by simp) fun h0 h1 _ _ => by
    replace h : ¬ 63 < i.toNat := by have := of_decide_eq_true h; omega
    rw [decodeCp, if_neg h0, if_neg h1, majorOf_wordI]
    refine Eq.trans (b := checked _ _) rfl ?_
    simp [checked, h]
theorem Laws.RoundTrip.srai (d : Reg) (a : Reg) (i : BitVec 16) : Laws.RoundTrip.Statement (.srai d a i) :=
  fun h => Instr.readsBack_of_major rfl (by simp) fun h0 h1 _ _ => by
    replace h : ¬ 63 < i.toNat := by have := of_decide_eq_true h; omega
    rw [decodeCp, if_neg h0, if_neg h1, majorOf_wordI]
    refine Eq.trans (b := checked _ _) rfl ?_
    simp [checked, h]
theorem Laws.RoundTrip.slti (d : Reg) (a : Reg) (i : BitVec 16) : Laws.RoundTrip.Statement (.slti d a i) :=
  fun _ => Instr.readsBack_of_major rfl (by simp) fun h0 h1 _ _ => by
    rw [decodeCp, if_neg h0, if_neg h1, majorOf_wordI]
    refine Eq.trans (b := Decoded.ok _) rfl ?_
    simp
theorem Laws.RoundTrip.sltiu (d : Reg) (a : Reg) (i : BitVec 16) : Laws.RoundTrip.Statement (.sltiu d a i) :=
  fun _ => Instr.readsBack_of_major rfl (by simp) fun h0 h1 _ _ => by
    rw [decodeCp, if_neg h0, if_neg h1, majorOf_wordI]
    refine Eq.trans (b := Decoded.ok _) rfl ?_
    simp
theorem Laws.RoundTrip.lui (d : Reg) (i : BitVec 16) : Laws.RoundTrip.Statement (.lui d i) :=
  fun _ => Instr.readsBack_of_major rfl (by simp) fun h0 h1 _ _ => by
    rw [decodeCp, if_neg h0, if_neg h1, majorOf_wordI]
    refine Eq.trans (b := checked _ _) rfl ?_
    simp [checked]
theorem Laws.RoundTrip.lix (d : Reg) (a : Reg) (i : BitVec 32) : Laws.RoundTrip.Statement (.lix d a i) :=
  fun _ => by
    refine And.intro (fun x hx => ?_) (fun lo hi hx => ?_) <;> cases hx
    rw [if_pos (show (Instr.lix d a i).isLix = true from rfl), decodeCp, if_neg (ne_zero_of_major (by simp)), if_neg (ne_ones_of_imm (by simp))]
    simp
theorem Laws.RoundTrip.jal (d : Reg) (o : BitVec 21) : Laws.RoundTrip.Statement (.jal d o) :=
  fun _ => Instr.readsBack_of_major rfl (by simp) fun h0 h1 _ _ => by
    rw [decodeCp, if_neg h0, if_neg h1, majorOf_jump]
    refine Eq.trans (b := Decoded.ok _) rfl ?_
    simp
theorem Laws.RoundTrip.jalr (d : Reg) (a : Reg) (i : BitVec 16) : Laws.RoundTrip.Statement (.jalr d a i) :=
  fun _ => Instr.readsBack_of_major rfl (by simp) fun h0 h1 _ _ => by
    rw [decodeCp, if_neg h0, if_neg h1, majorOf_wordI]
    refine Eq.trans (b := Decoded.ok _) rfl ?_
    simp
theorem Laws.RoundTrip.beq (a : Reg) (b : Reg) (o : BitVec 16) : Laws.RoundTrip.Statement (.beq a b o) :=
  fun _ => Instr.readsBack_of_major rfl (by simp) fun h0 h1 _ _ => by
    rw [decodeCp, if_neg h0, if_neg h1, majorOf_wordI]
    refine Eq.trans (b := Decoded.ok _) rfl ?_
    simp
theorem Laws.RoundTrip.bne (a : Reg) (b : Reg) (o : BitVec 16) : Laws.RoundTrip.Statement (.bne a b o) :=
  fun _ => Instr.readsBack_of_major rfl (by simp) fun h0 h1 _ _ => by
    rw [decodeCp, if_neg h0, if_neg h1, majorOf_wordI]
    refine Eq.trans (b := Decoded.ok _) rfl ?_
    simp
theorem Laws.RoundTrip.blt (a : Reg) (b : Reg) (o : BitVec 16) : Laws.RoundTrip.Statement (.blt a b o) :=
  fun _ => Instr.readsBack_of_major rfl (by simp) fun h0 h1 _ _ => by
    rw [decodeCp, if_neg h0, if_neg h1, majorOf_wordI]
    refine Eq.trans (b := Decoded.ok _) rfl ?_
    simp
theorem Laws.RoundTrip.bge (a : Reg) (b : Reg) (o : BitVec 16) : Laws.RoundTrip.Statement (.bge a b o) :=
  fun _ => Instr.readsBack_of_major rfl (by simp) fun h0 h1 _ _ => by
    rw [decodeCp, if_neg h0, if_neg h1, majorOf_wordI]
    refine Eq.trans (b := Decoded.ok _) rfl ?_
    simp
theorem Laws.RoundTrip.bltu (a : Reg) (b : Reg) (o : BitVec 16) : Laws.RoundTrip.Statement (.bltu a b o) :=
  fun _ => Instr.readsBack_of_major rfl (by simp) fun h0 h1 _ _ => by
    rw [decodeCp, if_neg h0, if_neg h1, majorOf_wordI]
    refine Eq.trans (b := Decoded.ok _) rfl ?_
    simp
theorem Laws.RoundTrip.bgeu (a : Reg) (b : Reg) (o : BitVec 16) : Laws.RoundTrip.Statement (.bgeu a b o) :=
  fun _ => Instr.readsBack_of_major rfl (by simp) fun h0 h1 _ _ => by
    rw [decodeCp, if_neg h0, if_neg h1, majorOf_wordI]
    refine Eq.trans (b := Decoded.ok _) rfl ?_
    simp
theorem Laws.RoundTrip.ldb (d : Reg) (a : Reg) (i : BitVec 16) : Laws.RoundTrip.Statement (.ldb d a i) :=
  fun _ => Instr.readsBack_of_major rfl (by simp) fun h0 h1 _ _ => by
    rw [decodeCp, if_neg h0, if_neg h1, majorOf_wordI]
    refine Eq.trans (b := Decoded.ok _) rfl ?_
    simp
theorem Laws.RoundTrip.ldbu (d : Reg) (a : Reg) (i : BitVec 16) : Laws.RoundTrip.Statement (.ldbu d a i) :=
  fun _ => Instr.readsBack_of_major rfl (by simp) fun h0 h1 _ _ => by
    rw [decodeCp, if_neg h0, if_neg h1, majorOf_wordI]
    refine Eq.trans (b := Decoded.ok _) rfl ?_
    simp
theorem Laws.RoundTrip.ldh (d : Reg) (a : Reg) (i : BitVec 16) : Laws.RoundTrip.Statement (.ldh d a i) :=
  fun _ => Instr.readsBack_of_major rfl (by simp) fun h0 h1 _ _ => by
    rw [decodeCp, if_neg h0, if_neg h1, majorOf_wordI]
    refine Eq.trans (b := Decoded.ok _) rfl ?_
    simp
theorem Laws.RoundTrip.ldhu (d : Reg) (a : Reg) (i : BitVec 16) : Laws.RoundTrip.Statement (.ldhu d a i) :=
  fun _ => Instr.readsBack_of_major rfl (by simp) fun h0 h1 _ _ => by
    rw [decodeCp, if_neg h0, if_neg h1, majorOf_wordI]
    refine Eq.trans (b := Decoded.ok _) rfl ?_
    simp
theorem Laws.RoundTrip.ldw (d : Reg) (a : Reg) (i : BitVec 16) : Laws.RoundTrip.Statement (.ldw d a i) :=
  fun _ => Instr.readsBack_of_major rfl (by simp) fun h0 h1 _ _ => by
    rw [decodeCp, if_neg h0, if_neg h1, majorOf_wordI]
    refine Eq.trans (b := Decoded.ok _) rfl ?_
    simp
theorem Laws.RoundTrip.ldwu (d : Reg) (a : Reg) (i : BitVec 16) : Laws.RoundTrip.Statement (.ldwu d a i) :=
  fun _ => Instr.readsBack_of_major rfl (by simp) fun h0 h1 _ _ => by
    rw [decodeCp, if_neg h0, if_neg h1, majorOf_wordI]
    refine Eq.trans (b := Decoded.ok _) rfl ?_
    simp
theorem Laws.RoundTrip.ldd (d : Reg) (a : Reg) (i : BitVec 16) : Laws.RoundTrip.Statement (.ldd d a i) :=
  fun _ => Instr.readsBack_of_major rfl (by simp) fun h0 h1 _ _ => by
    rw [decodeCp, if_neg h0, if_neg h1, majorOf_wordI]
    refine Eq.trans (b := Decoded.ok _) rfl ?_
    simp
theorem Laws.RoundTrip.lda (d : Reg) (a : Reg) (s : Scope) (w : Width) (i : BitVec 12) : Laws.RoundTrip.Statement (.lda d a s w i) :=
  fun _ => Instr.readsBack_of_major rfl (by simp) fun h0 h1 _ _ => by
    rw [decodeCp, if_neg h0, if_neg h1, majorOf_wordS]
    refine Eq.trans (b := Decoded.ok _) rfl ?_
    simp
theorem Laws.RoundTrip.stb (b : Reg) (a : Reg) (i : BitVec 16) : Laws.RoundTrip.Statement (.stb b a i) :=
  fun _ => Instr.readsBack_of_major rfl (by simp) fun h0 h1 _ _ => by
    rw [decodeCp, if_neg h0, if_neg h1, majorOf_wordI]
    refine Eq.trans (b := Decoded.ok _) rfl ?_
    simp
theorem Laws.RoundTrip.sth (b : Reg) (a : Reg) (i : BitVec 16) : Laws.RoundTrip.Statement (.sth b a i) :=
  fun _ => Instr.readsBack_of_major rfl (by simp) fun h0 h1 _ _ => by
    rw [decodeCp, if_neg h0, if_neg h1, majorOf_wordI]
    refine Eq.trans (b := Decoded.ok _) rfl ?_
    simp
theorem Laws.RoundTrip.stw (b : Reg) (a : Reg) (i : BitVec 16) : Laws.RoundTrip.Statement (.stw b a i) :=
  fun _ => Instr.readsBack_of_major rfl (by simp) fun h0 h1 _ _ => by
    rw [decodeCp, if_neg h0, if_neg h1, majorOf_wordI]
    refine Eq.trans (b := Decoded.ok _) rfl ?_
    simp
theorem Laws.RoundTrip.std (b : Reg) (a : Reg) (i : BitVec 16) : Laws.RoundTrip.Statement (.std b a i) :=
  fun _ => Instr.readsBack_of_major rfl (by simp) fun h0 h1 _ _ => by
    rw [decodeCp, if_neg h0, if_neg h1, majorOf_wordI]
    refine Eq.trans (b := Decoded.ok _) rfl ?_
    simp
theorem Laws.RoundTrip.stl (b : Reg) (a : Reg) (s : Scope) (w : Width) (i : BitVec 12) : Laws.RoundTrip.Statement (.stl b a s w i) :=
  fun _ => Instr.readsBack_of_major rfl (by simp) fun h0 h1 _ _ => by
    rw [decodeCp, if_neg h0, if_neg h1, majorOf_wordS]
    refine Eq.trans (b := Decoded.ok _) rfl ?_
    simp
theorem Laws.RoundTrip.ldq (a : Reg) (q : QNum) (n : Ann) (s : Scope) (w : Width) : Laws.RoundTrip.Statement (.ldq a q n s w) :=
  fun h => Instr.readsBack_of_major rfl (by simp) fun h0 h1 _ _ => by
    replace h : (decide (n = .rlx ∨ n = .acq) && annScopeOk n s) = true := h
    simp at h
    rw [decodeCp, if_neg h0, if_neg h1, majorOf_wordQ]
    refine Eq.trans (b := decodeQueued _ true) rfl ?_
    simp [checked, decodeQueued, bitsOf_toNat, low_wordQ, h]
    rcases h.1 with rfl | rfl <;> simp
theorem Laws.RoundTrip.stq (a : Reg) (b : Reg) (q : QNum) (n : Ann) (s : Scope) (w : Width) : Laws.RoundTrip.Statement (.stq a b q n s w) :=
  fun h => Instr.readsBack_of_major rfl (by simp) fun h0 h1 _ _ => by
    replace h : (decide (n = .rlx ∨ n = .rel) && annScopeOk n s) = true := h
    simp at h
    rw [decodeCp, if_neg h0, if_neg h1, majorOf_wordQ]
    refine Eq.trans (b := decodeQueued _ false) rfl ?_
    simp [checked, decodeQueued, bitsOf_toNat, low_wordQ, h]
    rcases h.1 with rfl | rfl <;> simp
theorem Laws.RoundTrip.aadd (a : Reg) (b : Reg) (q : QNum) (n : Ann) (s : Scope) (w : AWidth) : Laws.RoundTrip.Statement (.aadd a b q n s w) :=
  fun h => Instr.readsBack_of_major rfl (by simp) fun h0 h1 _ _ => by
    replace h : annScopeOk n s = true := h
    rw [decodeCp, if_neg h0, if_neg h1, majorOf_wordQ]
    refine Eq.trans (b := decodeAtomic _ 0) rfl ?_
    simp [checked, decodeAtomic, bitsOf_toNat, low_wordQ, h]
theorem Laws.RoundTrip.amin (a : Reg) (b : Reg) (q : QNum) (n : Ann) (s : Scope) (w : AWidth) : Laws.RoundTrip.Statement (.amin a b q n s w) :=
  fun h => Instr.readsBack_of_major rfl (by simp) fun h0 h1 _ _ => by
    replace h : annScopeOk n s = true := h
    rw [decodeCp, if_neg h0, if_neg h1, majorOf_wordQ]
    refine Eq.trans (b := decodeAtomic _ 0) rfl ?_
    simp [checked, decodeAtomic, bitsOf_toNat, low_wordQ, h]
theorem Laws.RoundTrip.amax (a : Reg) (b : Reg) (q : QNum) (n : Ann) (s : Scope) (w : AWidth) : Laws.RoundTrip.Statement (.amax a b q n s w) :=
  fun h => Instr.readsBack_of_major rfl (by simp) fun h0 h1 _ _ => by
    replace h : annScopeOk n s = true := h
    rw [decodeCp, if_neg h0, if_neg h1, majorOf_wordQ]
    refine Eq.trans (b := decodeAtomic _ 0) rfl ?_
    simp [checked, decodeAtomic, bitsOf_toNat, low_wordQ, h]
theorem Laws.RoundTrip.aminu (a : Reg) (b : Reg) (q : QNum) (n : Ann) (s : Scope) (w : AWidth) : Laws.RoundTrip.Statement (.aminu a b q n s w) :=
  fun h => Instr.readsBack_of_major rfl (by simp) fun h0 h1 _ _ => by
    replace h : annScopeOk n s = true := h
    rw [decodeCp, if_neg h0, if_neg h1, majorOf_wordQ]
    refine Eq.trans (b := decodeAtomic _ 0) rfl ?_
    simp [checked, decodeAtomic, bitsOf_toNat, low_wordQ, h]
theorem Laws.RoundTrip.amaxu (a : Reg) (b : Reg) (q : QNum) (n : Ann) (s : Scope) (w : AWidth) : Laws.RoundTrip.Statement (.amaxu a b q n s w) :=
  fun h => Instr.readsBack_of_major rfl (by simp) fun h0 h1 _ _ => by
    replace h : annScopeOk n s = true := h
    rw [decodeCp, if_neg h0, if_neg h1, majorOf_wordQ]
    refine Eq.trans (b := decodeAtomic _ 1) rfl ?_
    simp [checked, decodeAtomic, bitsOf_toNat, low_wordQ, h]
theorem Laws.RoundTrip.aand (a : Reg) (b : Reg) (q : QNum) (n : Ann) (s : Scope) (w : AWidth) : Laws.RoundTrip.Statement (.aand a b q n s w) :=
  fun h => Instr.readsBack_of_major rfl (by simp) fun h0 h1 _ _ => by
    replace h : annScopeOk n s = true := h
    rw [decodeCp, if_neg h0, if_neg h1, majorOf_wordQ]
    refine Eq.trans (b := decodeAtomic _ 1) rfl ?_
    simp [checked, decodeAtomic, bitsOf_toNat, low_wordQ, h]
theorem Laws.RoundTrip.aor (a : Reg) (b : Reg) (q : QNum) (n : Ann) (s : Scope) (w : AWidth) : Laws.RoundTrip.Statement (.aor a b q n s w) :=
  fun h => Instr.readsBack_of_major rfl (by simp) fun h0 h1 _ _ => by
    replace h : annScopeOk n s = true := h
    rw [decodeCp, if_neg h0, if_neg h1, majorOf_wordQ]
    refine Eq.trans (b := decodeAtomic _ 1) rfl ?_
    simp [checked, decodeAtomic, bitsOf_toNat, low_wordQ, h]
theorem Laws.RoundTrip.axor (a : Reg) (b : Reg) (q : QNum) (n : Ann) (s : Scope) (w : AWidth) : Laws.RoundTrip.Statement (.axor a b q n s w) :=
  fun h => Instr.readsBack_of_major rfl (by simp) fun h0 h1 _ _ => by
    replace h : annScopeOk n s = true := h
    rw [decodeCp, if_neg h0, if_neg h1, majorOf_wordQ]
    refine Eq.trans (b := decodeAtomic _ 1) rfl ?_
    simp [checked, decodeAtomic, bitsOf_toNat, low_wordQ, h]
theorem Laws.RoundTrip.aswp (a : Reg) (b : Reg) (q : QNum) (n : Ann) (s : Scope) (w : AWidth) : Laws.RoundTrip.Statement (.aswp a b q n s w) :=
  fun h => Instr.readsBack_of_major rfl (by simp) fun h0 h1 _ _ => by
    replace h : annScopeOk n s = true := h
    rw [decodeCp, if_neg h0, if_neg h1, majorOf_wordQ]
    refine Eq.trans (b := decodeAtomic _ 2) rfl ?_
    simp [checked, decodeAtomic, bitsOf_toNat, low_wordQ, h]
theorem Laws.RoundTrip.acas (d : Reg) (a : Reg) (b : Reg) (q : QNum) (n : Ann) (s : Scope) (w : AWidth) : Laws.RoundTrip.Statement (.acas d a b q n s w) :=
  fun h => Instr.readsBack_of_major rfl (by simp) fun h0 h1 _ _ => by
    replace h : annScopeOk n s = true := h
    rw [decodeCp, if_neg h0, if_neg h1, majorOf_wordQ]
    refine Eq.trans (b := decodeAtomic _ 2) rfl ?_
    simp [checked, decodeAtomic, bitsOf_toNat, low_wordQ, h]
theorem Laws.RoundTrip.asnap (a : Reg) (q : QNum) (n : Ann) (s : Scope) (w : AWidth) : Laws.RoundTrip.Statement (.asnap a q n s w) :=
  fun h => Instr.readsBack_of_major rfl (by simp) fun h0 h1 _ _ => by
    replace h : annScopeOk n s = true := h
    rw [decodeCp, if_neg h0, if_neg h1, majorOf_wordQ]
    refine Eq.trans (b := decodeAtomic _ 2) rfl ?_
    simp [checked, decodeAtomic, bitsOf_toNat, low_wordQ, h]
theorem Laws.RoundTrip.aaddf (a : Reg) (b : Reg) (q : QNum) (n : Ann) (s : Scope) (w : AWidth) : Laws.RoundTrip.Statement (.aaddf a b q n s w) :=
  fun h => Instr.readsBack_of_major rfl (by simp) fun h0 h1 _ _ => by
    replace h : annScopeOk n s = true := h
    rw [decodeCp, if_neg h0, if_neg h1, majorOf_wordQ]
    refine Eq.trans (b := decodeAtomic _ 2) rfl ?_
    simp [checked, decodeAtomic, bitsOf_toNat, low_wordQ, h]
theorem Laws.RoundTrip.waitqSrc (d : Reg) (q : QNum) : Laws.RoundTrip.Statement (.waitqSrc d q) :=
  fun _ => Instr.readsBack_of_major rfl (by simp) fun h0 h1 _ _ => by
    rw [decodeCp, if_neg h0, if_neg h1, majorOf_wordR]
    refine Eq.trans (b := decodeWait _) rfl ?_
    simp [checked, decodeWait, bitsOf_toNat, low_wordR]
theorem Laws.RoundTrip.waitqVis (d : Reg) (q : QNum) : Laws.RoundTrip.Statement (.waitqVis d q) :=
  fun _ => Instr.readsBack_of_major rfl (by simp) fun h0 h1 _ _ => by
    rw [decodeCp, if_neg h0, if_neg h1, majorOf_wordR]
    refine Eq.trans (b := decodeWait _) rfl ?_
    simp [checked, decodeWait, bitsOf_toNat, low_wordR]
theorem Laws.RoundTrip.popq (d : Reg) (q : QNum) : Laws.RoundTrip.Statement (.popq d q) :=
  fun _ => Instr.readsBack_of_major rfl (by simp) fun h0 h1 _ _ => by
    rw [decodeCp, if_neg h0, if_neg h1, majorOf_wordR]
    refine Eq.trans (b := decodeWait _) rfl ?_
    simp [checked, decodeWait, bitsOf_toNat, low_wordR]
theorem Laws.RoundTrip.nop : Laws.RoundTrip.Statement (.nop) :=
  fun _ => Instr.readsBack_of_major rfl (by simp) fun h0 h1 _ _ => by
    rw [decodeCp, if_neg h0, if_neg h1, majorOf_wordR]
    refine Eq.trans (b := decodeSystem _) rfl ?_
    rw [decodeSystem, fnOf_wordR]
    refine Eq.trans (b := checked _ _) rfl ?_
    simp [checked]
theorem Laws.RoundTrip.fenceCore : Laws.RoundTrip.Statement (.fenceCore) :=
  fun _ => Instr.readsBack_of_major rfl (by simp) fun h0 h1 _ _ => by
    rw [decodeCp, if_neg h0, if_neg h1, majorOf_wordR]
    refine Eq.trans (b := decodeSystem _) rfl ?_
    rw [decodeSystem, fnOf_wordR]
    refine Eq.trans (b := checked _ _) rfl ?_
    simp [checked]
theorem Laws.RoundTrip.fenceCard : Laws.RoundTrip.Statement (.fenceCard) :=
  fun _ => Instr.readsBack_of_major rfl (by simp) fun h0 h1 _ _ => by
    rw [decodeCp, if_neg h0, if_neg h1, majorOf_wordR]
    refine Eq.trans (b := decodeSystem _) rfl ?_
    rw [decodeSystem, fnOf_wordR]
    refine Eq.trans (b := checked _ _) rfl ?_
    simp [checked]
theorem Laws.RoundTrip.fenceDeck : Laws.RoundTrip.Statement (.fenceDeck) :=
  fun _ => Instr.readsBack_of_major rfl (by simp) fun h0 h1 _ _ => by
    rw [decodeCp, if_neg h0, if_neg h1, majorOf_wordR]
    refine Eq.trans (b := decodeSystem _) rfl ?_
    rw [decodeSystem, fnOf_wordR]
    refine Eq.trans (b := checked _ _) rfl ?_
    simp [checked]
theorem Laws.RoundTrip.fenceDom : Laws.RoundTrip.Statement (.fenceDom) :=
  fun _ => Instr.readsBack_of_major rfl (by simp) fun h0 h1 _ _ => by
    rw [decodeCp, if_neg h0, if_neg h1, majorOf_wordR]
    refine Eq.trans (b := decodeSystem _) rfl ?_
    rw [decodeSystem, fnOf_wordR]
    refine Eq.trans (b := checked _ _) rfl ?_
    simp [checked]
theorem Laws.RoundTrip.fencei : Laws.RoundTrip.Statement (.fencei) :=
  fun _ => Instr.readsBack_of_major rfl (by simp) fun h0 h1 _ _ => by
    rw [decodeCp, if_neg h0, if_neg h1, majorOf_wordR]
    refine Eq.trans (b := decodeSystem _) rfl ?_
    rw [decodeSystem, fnOf_wordR]
    refine Eq.trans (b := checked _ _) rfl ?_
    simp [checked]
theorem Laws.RoundTrip.eret : Laws.RoundTrip.Statement (.eret) :=
  fun _ => Instr.readsBack_of_major rfl (by simp) fun h0 h1 _ _ => by
    rw [decodeCp, if_neg h0, if_neg h1, majorOf_wordR]
    refine Eq.trans (b := decodeSystem _) rfl ?_
    rw [decodeSystem, fnOf_wordR]
    refine Eq.trans (b := checked _ _) rfl ?_
    simp [checked]
theorem Laws.RoundTrip.wfe : Laws.RoundTrip.Statement (.wfe) :=
  fun _ => Instr.readsBack_of_major rfl (by simp) fun h0 h1 _ _ => by
    rw [decodeCp, if_neg h0, if_neg h1, majorOf_wordR]
    refine Eq.trans (b := decodeSystem _) rfl ?_
    rw [decodeSystem, fnOf_wordR]
    refine Eq.trans (b := checked _ _) rfl ?_
    simp [checked]
theorem Laws.RoundTrip.sev : Laws.RoundTrip.Statement (.sev) :=
  fun _ => Instr.readsBack_of_major rfl (by simp) fun h0 h1 _ _ => by
    rw [decodeCp, if_neg h0, if_neg h1, majorOf_wordR]
    refine Eq.trans (b := decodeSystem _) rfl ?_
    rw [decodeSystem, fnOf_wordR]
    refine Eq.trans (b := checked _ _) rfl ?_
    simp [checked]
theorem Laws.RoundTrip.halt : Laws.RoundTrip.Statement (.halt) :=
  fun _ => Instr.readsBack_of_major rfl (by simp) fun h0 h1 _ _ => by
    rw [decodeCp, if_neg h0, if_neg h1, majorOf_wordR]
    refine Eq.trans (b := decodeSystem _) rfl ?_
    rw [decodeSystem, fnOf_wordR]
    refine Eq.trans (b := checked _ _) rfl ?_
    simp [checked]
theorem Laws.RoundTrip.brk : Laws.RoundTrip.Statement (.brk) :=
  fun _ => Instr.readsBack_of_major rfl (by simp) fun h0 h1 _ _ => by
    rw [decodeCp, if_neg h0, if_neg h1, majorOf_wordR]
    refine Eq.trans (b := decodeSystem _) rfl ?_
    rw [decodeSystem, fnOf_wordR]
    refine Eq.trans (b := checked _ _) rfl ?_
    simp [checked]
theorem Laws.RoundTrip.trap (i : BitVec 16) : Laws.RoundTrip.Statement (.trap i) :=
  fun _ => Instr.readsBack_of_major rfl (by simp) fun h0 h1 _ _ => by
    rw [decodeCp, if_neg h0, if_neg h1, majorOf_wordI]
    refine Eq.trans (b := checked _ _) rfl ?_
    simp [checked]
theorem Laws.RoundTrip.srd (d : Reg) (n : BitVec 12) : Laws.RoundTrip.Statement (.srd d n) :=
  fun h => Instr.readsBack_of_major rfl (by simp) fun h0 h1 _ _ => by
    replace h : sysRegAssigned n = true := h
    rw [decodeCp, if_neg h0, if_neg h1, majorOf_wordI]
    refine Eq.trans (b := checked _ _) rfl ?_
    simp [checked, bitsOf_toNat, low_wordI, h]
theorem Laws.RoundTrip.swr (a : Reg) (n : BitVec 12) : Laws.RoundTrip.Statement (.swr a n) :=
  fun h => Instr.readsBack_of_major rfl (by simp) fun h0 h1 _ _ => by
    replace h : sysRegAssigned n = true := h
    rw [decodeCp, if_neg h0, if_neg h1, majorOf_wordI]
    refine Eq.trans (b := checked _ _) rfl ?_
    simp [checked, bitsOf_toNat, low_wordI, h]
theorem Laws.RoundTrip.gload (a : Reg) : Laws.RoundTrip.Statement (.gload a) :=
  fun _ => Instr.readsBack_of_major rfl (by simp) fun h0 h1 _ _ => by
    rw [decodeCp, if_neg h0, if_neg h1, majorOf_wordE]
    refine Eq.trans (b := decodeEngine _) rfl ?_
    rw [decodeEngine, engOf_wordE]
    refine Eq.trans (b := checked _ _) rfl ?_
    simp [checked]
theorem Laws.RoundTrip.gswapDrain : Laws.RoundTrip.Statement (.gswapDrain) :=
  fun _ => Instr.readsBack_of_major rfl (by simp) fun h0 h1 _ _ => by
    rw [decodeCp, if_neg h0, if_neg h1, majorOf_wordE]
    refine Eq.trans (b := decodeEngine _) rfl ?_
    rw [decodeEngine, engOf_wordE]
    refine Eq.trans (b := checked _ _) rfl ?_
    simp [checked]
theorem Laws.RoundTrip.gswapEos : Laws.RoundTrip.Statement (.gswapEos) :=
  fun _ => Instr.readsBack_of_major rfl (by simp) fun h0 h1 _ _ => by
    rw [decodeCp, if_neg h0, if_neg h1, majorOf_wordE]
    refine Eq.trans (b := decodeEngine _) rfl ?_
    rw [decodeEngine, engOf_wordE]
    refine Eq.trans (b := checked _ _) rfl ?_
    simp [checked]
theorem Laws.RoundTrip.ggo : Laws.RoundTrip.Statement (.ggo) :=
  fun _ => Instr.readsBack_of_major rfl (by simp) fun h0 h1 _ _ => by
    rw [decodeCp, if_neg h0, if_neg h1, majorOf_wordE]
    refine Eq.trans (b := decodeEngine _) rfl ?_
    rw [decodeEngine, engOf_wordE]
    refine Eq.trans (b := checked _ _) rfl ?_
    simp [checked]
theorem Laws.RoundTrip.ggoRes : Laws.RoundTrip.Statement (.ggoRes) :=
  fun _ => Instr.readsBack_of_major rfl (by simp) fun h0 h1 _ _ => by
    rw [decodeCp, if_neg h0, if_neg h1, majorOf_wordE]
    refine Eq.trans (b := decodeEngine _) rfl ?_
    rw [decodeEngine, engOf_wordE]
    refine Eq.trans (b := checked _ _) rfl ?_
    simp [checked]
theorem Laws.RoundTrip.gstop : Laws.RoundTrip.Statement (.gstop) :=
  fun _ => Instr.readsBack_of_major rfl (by simp) fun h0 h1 _ _ => by
    rw [decodeCp, if_neg h0, if_neg h1, majorOf_wordE]
    refine Eq.trans (b := decodeEngine _) rfl ?_
    rw [decodeEngine, engOf_wordE]
    refine Eq.trans (b := checked _ _) rfl ?_
    simp [checked]
theorem Laws.RoundTrip.gstat (d : Reg) : Laws.RoundTrip.Statement (.gstat d) :=
  fun _ => Instr.readsBack_of_major rfl (by simp) fun h0 h1 _ _ => by
    rw [decodeCp, if_neg h0, if_neg h1, majorOf_wordE]
    refine Eq.trans (b := decodeEngine _) rfl ?_
    rw [decodeEngine, engOf_wordE]
    refine Eq.trans (b := checked _ _) rfl ?_
    simp [checked]
theorem Laws.RoundTrip.gstv (a : Reg) (b : Reg) : Laws.RoundTrip.Statement (.gstv a b) :=
  fun _ => Instr.readsBack_of_major rfl (by simp) fun h0 h1 _ _ => by
    rw [decodeCp, if_neg h0, if_neg h1, majorOf_wordE]
    refine Eq.trans (b := decodeEngine _) rfl ?_
    rw [decodeEngine, engOf_wordE]
    refine Eq.trans (b := checked _ _) rfl ?_
    simp [checked]
theorem Laws.RoundTrip.gstvAct (a : Reg) (b : Reg) : Laws.RoundTrip.Statement (.gstvAct a b) :=
  fun _ => Instr.readsBack_of_major rfl (by simp) fun h0 h1 _ _ => by
    rw [decodeCp, if_neg h0, if_neg h1, majorOf_wordE]
    refine Eq.trans (b := decodeEngine _) rfl ?_
    rw [decodeEngine, engOf_wordE]
    refine Eq.trans (b := checked _ _) rfl ?_
    simp [checked]
theorem Laws.RoundTrip.srds (d : Reg) (a : Reg) (e : BitVec 1) : Laws.RoundTrip.Statement (.srds d a e) :=
  fun _ => Instr.readsBack_of_major rfl (by simp) fun h0 h1 _ _ => by
    rw [decodeCp, if_neg h0, if_neg h1, majorOf_wordE]
    refine Eq.trans (b := decodeEngine _) rfl ?_
    rw [decodeEngine, engOf_wordE]
    refine Eq.trans (b := checked _ _) rfl ?_
    simp [checked, low_wordE]
theorem Laws.RoundTrip.swrs (d : Reg) (a : Reg) (e : BitVec 1) : Laws.RoundTrip.Statement (.swrs d a e) :=
  fun _ => Instr.readsBack_of_major rfl (by simp) fun h0 h1 _ _ => by
    rw [decodeCp, if_neg h0, if_neg h1, majorOf_wordE]
    refine Eq.trans (b := decodeEngine _) rfl ?_
    rw [decodeEngine, engOf_wordE]
    refine Eq.trans (b := checked _ _) rfl ?_
    simp [checked, low_wordE]
theorem Laws.RoundTrip.scpy (d : Reg) (a : Reg) (e : BitVec 1) : Laws.RoundTrip.Statement (.scpy d a e) :=
  fun _ => Instr.readsBack_of_major rfl (by simp) fun h0 h1 _ _ => by
    rw [decodeCp, if_neg h0, if_neg h1, majorOf_wordE]
    refine Eq.trans (b := decodeEngine _) rfl ?_
    rw [decodeEngine, engOf_wordE]
    refine Eq.trans (b := checked _ _) rfl ?_
    simp [checked, low_wordE]
theorem Laws.RoundTrip.sagc (a : Reg) (b : Reg) (c : BitVec 3) : Laws.RoundTrip.Statement (.sagc a b c) :=
  fun _ => Instr.readsBack_of_major rfl (by simp) fun h0 h1 _ _ => by
    rw [decodeCp, if_neg h0, if_neg h1, majorOf_wordE]
    refine Eq.trans (b := decodeEngine _) rfl ?_
    rw [decodeEngine, engOf_wordE]
    refine Eq.trans (b := checked _ _) rfl ?_
    simp [checked, low_wordE]
theorem Laws.RoundTrip.sxlt (a : Reg) (e : BitVec 2) : Laws.RoundTrip.Statement (.sxlt a e) :=
  fun _ => Instr.readsBack_of_major rfl (by simp) fun h0 h1 _ _ => by
    rw [decodeCp, if_neg h0, if_neg h1, majorOf_wordE]
    refine Eq.trans (b := decodeEngine _) rfl ?_
    rw [decodeEngine, engOf_wordE]
    refine Eq.trans (b := checked _ _) rfl ?_
    simp [checked, low_wordE]
theorem Laws.RoundTrip.swaitSrc (a : Reg) : Laws.RoundTrip.Statement (.swaitSrc a) :=
  fun _ => Instr.readsBack_of_major rfl (by simp) fun h0 h1 _ _ => by
    rw [decodeCp, if_neg h0, if_neg h1, majorOf_wordE]
    refine Eq.trans (b := decodeEngine _) rfl ?_
    rw [decodeEngine, engOf_wordE]
    refine Eq.trans (b := checked _ _) rfl ?_
    simp [checked]
theorem Laws.RoundTrip.swaitVis (a : Reg) : Laws.RoundTrip.Statement (.swaitVis a) :=
  fun _ => Instr.readsBack_of_major rfl (by simp) fun h0 h1 _ _ => by
    rw [decodeCp, if_neg h0, if_neg h1, majorOf_wordE]
    refine Eq.trans (b := decodeEngine _) rfl ?_
    rw [decodeEngine, engOf_wordE]
    refine Eq.trans (b := checked _ _) rfl ?_
    simp [checked]
theorem Laws.RoundTrip.rwset (a : Reg) (b : Reg) : Laws.RoundTrip.Statement (.rwset a b) :=
  fun _ => Instr.readsBack_of_major rfl (by simp) fun h0 h1 _ _ => by
    rw [decodeCp, if_neg h0, if_neg h1, majorOf_wordE]
    refine Eq.trans (b := decodeEngine _) rfl ?_
    rw [decodeEngine, engOf_wordE]
    refine Eq.trans (b := checked _ _) rfl ?_
    simp [checked]
theorem Laws.RoundTrip.rwrst (a : Reg) : Laws.RoundTrip.Statement (.rwrst a) :=
  fun _ => Instr.readsBack_of_major rfl (by simp) fun h0 h1 _ _ => by
    rw [decodeCp, if_neg h0, if_neg h1, majorOf_wordE]
    refine Eq.trans (b := decodeEngine _) rfl ?_
    rw [decodeEngine, engOf_wordE]
    refine Eq.trans (b := checked _ _) rfl ?_
    simp [checked]
theorem Laws.RoundTrip.rwqry (d : Reg) (a : Reg) : Laws.RoundTrip.Statement (.rwqry d a) :=
  fun _ => Instr.readsBack_of_major rfl (by simp) fun h0 h1 _ _ => by
    rw [decodeCp, if_neg h0, if_neg h1, majorOf_wordE]
    refine Eq.trans (b := decodeEngine _) rfl ?_
    rw [decodeEngine, engOf_wordE]
    refine Eq.trans (b := checked _ _) rfl ?_
    simp [checked]
theorem Laws.RoundTrip.fdone : Laws.RoundTrip.Statement (.fdone) :=
  fun _ => Instr.readsBack_of_major rfl (by simp) fun h0 h1 _ _ => by
    rw [decodeCp, if_neg h0, if_neg h1, majorOf_wordE]
    refine Eq.trans (b := decodeEngine _) rfl ?_
    rw [decodeEngine, engOf_wordE]
    refine Eq.trans (b := checked _ _) rfl ?_
    simp [checked]
theorem Laws.RoundTrip.fabort (a : Reg) : Laws.RoundTrip.Statement (.fabort a) :=
  fun _ => Instr.readsBack_of_major rfl (by simp) fun h0 h1 _ _ => by
    rw [decodeCp, if_neg h0, if_neg h1, majorOf_wordE]
    refine Eq.trans (b := decodeEngine _) rfl ?_
    rw [decodeEngine, engOf_wordE]
    refine Eq.trans (b := checked _ _) rfl ?_
    simp [checked]
theorem Laws.RoundTrip.mode (a : Reg) : Laws.RoundTrip.Statement (.mode a) :=
  fun _ => Instr.readsBack_of_major rfl (by simp) fun h0 h1 _ _ => by
    rw [decodeCp, if_neg h0, if_neg h1, majorOf_wordE]
    refine Eq.trans (b := decodeEngine _) rfl ?_
    rw [decodeEngine, engOf_wordE]
    refine Eq.trans (b := checked _ _) rfl ?_
    simp [checked]
theorem Laws.RoundTrip.mwait (d : Reg) : Laws.RoundTrip.Statement (.mwait d) :=
  fun _ => Instr.readsBack_of_major rfl (by simp) fun h0 h1 _ _ => by
    rw [decodeCp, if_neg h0, if_neg h1, majorOf_wordE]
    refine Eq.trans (b := decodeEngine _) rfl ?_
    rw [decodeEngine, engOf_wordE]
    refine Eq.trans (b := checked _ _) rfl ?_
    simp [checked]
theorem Laws.RoundTrip.lnch (a : Reg) (b : Reg) (q : QNum) : Laws.RoundTrip.Statement (.lnch a b q) :=
  fun _ => Instr.readsBack_of_major rfl (by simp) fun h0 h1 _ _ => by
    rw [decodeCp, if_neg h0, if_neg h1, majorOf_wordE]
    refine Eq.trans (b := decodeEngine _) rfl ?_
    rw [decodeEngine, engOf_wordE]
    refine Eq.trans (b := checked _ _) rfl ?_
    simp [checked, low_wordE]
theorem Laws.RoundTrip.lwait (d : Reg) (a : Reg) : Laws.RoundTrip.Statement (.lwait d a) :=
  fun _ => Instr.readsBack_of_major rfl (by simp) fun h0 h1 _ _ => by
    rw [decodeCp, if_neg h0, if_neg h1, majorOf_wordE]
    refine Eq.trans (b := decodeEngine _) rfl ?_
    rw [decodeEngine, engOf_wordE]
    refine Eq.trans (b := checked _ _) rfl ?_
    simp [checked]
theorem Laws.RoundTrip.bari (a : Reg) (b : Reg) (n : BitVec 3) : Laws.RoundTrip.Statement (.bari a b n) :=
  fun _ => Instr.readsBack_of_major rfl (by simp) fun h0 h1 _ _ => by
    rw [decodeCp, if_neg h0, if_neg h1, majorOf_wordE]
    refine Eq.trans (b := decodeEngine _) rfl ?_
    rw [decodeEngine, engOf_wordE]
    refine Eq.trans (b := checked _ _) rfl ?_
    simp [checked, low_wordE]
theorem Laws.RoundTrip.bara (d : Reg) (n : BitVec 3) : Laws.RoundTrip.Statement (.bara d n) :=
  fun _ => Instr.readsBack_of_major rfl (by simp) fun h0 h1 _ _ => by
    rw [decodeCp, if_neg h0, if_neg h1, majorOf_wordE]
    refine Eq.trans (b := decodeEngine _) rfl ?_
    rw [decodeEngine, engOf_wordE]
    refine Eq.trans (b := checked _ _) rfl ?_
    simp [checked, low_wordE]
theorem Laws.RoundTrip.barw (a : Reg) : Laws.RoundTrip.Statement (.barw a) :=
  fun _ => Instr.readsBack_of_major rfl (by simp) fun h0 h1 _ _ => by
    rw [decodeCp, if_neg h0, if_neg h1, majorOf_wordE]
    refine Eq.trans (b := decodeEngine _) rfl ?_
    rw [decodeEngine, engOf_wordE]
    refine Eq.trans (b := checked _ _) rfl ?_
    simp [checked]
theorem Laws.RoundTrip.bart (d : Reg) (a : Reg) : Laws.RoundTrip.Statement (.bart d a) :=
  fun _ => Instr.readsBack_of_major rfl (by simp) fun h0 h1 _ _ => by
    rw [decodeCp, if_neg h0, if_neg h1, majorOf_wordE]
    refine Eq.trans (b := decodeEngine _) rfl ?_
    rw [decodeEngine, engOf_wordE]
    refine Eq.trans (b := checked _ _) rfl ?_
    simp [checked]
theorem Laws.RoundTrip.dkst (a : Reg) (b : Reg) : Laws.RoundTrip.Statement (.dkst a b) :=
  fun _ => Instr.readsBack_of_major rfl (by simp) fun h0 h1 _ _ => by
    rw [decodeCp, if_neg h0, if_neg h1, majorOf_wordE]
    refine Eq.trans (b := decodeEngine _) rfl ?_
    rw [decodeEngine, engOf_wordE]
    refine Eq.trans (b := checked _ _) rfl ?_
    simp [checked]
theorem Laws.RoundTrip.dkadd (a : Reg) (b : Reg) (w : AWidth) (q : QNum) : Laws.RoundTrip.Statement (.dkadd a b w q) :=
  fun _ => Instr.readsBack_of_major rfl (by simp) fun h0 h1 _ _ => by
    rw [decodeCp, if_neg h0, if_neg h1, majorOf_wordE]
    refine Eq.trans (b := decodeEngine _) rfl ?_
    rw [decodeEngine, engOf_wordE]
    refine Eq.trans (b := checked _ _) rfl ?_
    simp [checked, low_wordE]
theorem Laws.RoundTrip.dkcas (d : Reg) (a : Reg) (b : Reg) (w : AWidth) (q : QNum) : Laws.RoundTrip.Statement (.dkcas d a b w q) :=
  fun _ => Instr.readsBack_of_major rfl (by simp) fun h0 h1 _ _ => by
    rw [decodeCp, if_neg h0, if_neg h1, majorOf_wordE]
    refine Eq.trans (b := decodeEngine _) rfl ?_
    rw [decodeEngine, engOf_wordE]
    refine Eq.trans (b := Decoded.ok _) rfl ?_
    simp [low_wordE]
theorem Laws.RoundTrip.dksync : Laws.RoundTrip.Statement (.dksync) :=
  fun _ => Instr.readsBack_of_major rfl (by simp) fun h0 h1 _ _ => by
    rw [decodeCp, if_neg h0, if_neg h1, majorOf_wordE]
    refine Eq.trans (b := decodeEngine _) rfl ?_
    rw [decodeEngine, engOf_wordE]
    refine Eq.trans (b := checked _ _) rfl ?_
    simp [checked]
theorem Laws.RoundTrip.rngk (a : Reg) (s : BitVec 3) : Laws.RoundTrip.Statement (.rngk a s) :=
  fun _ => Instr.readsBack_of_major rfl (by simp) fun h0 h1 _ _ => by
    rw [decodeCp, if_neg h0, if_neg h1, majorOf_wordE]
    refine Eq.trans (b := decodeEngine _) rfl ?_
    rw [decodeEngine, engOf_wordE]
    refine Eq.trans (b := checked _ _) rfl ?_
    simp [checked, low_wordE]
theorem Laws.RoundTrip.rngc (a : Reg) (b : Reg) (s : BitVec 3) : Laws.RoundTrip.Statement (.rngc a b s) :=
  fun _ => Instr.readsBack_of_major rfl (by simp) fun h0 h1 _ _ => by
    rw [decodeCp, if_neg h0, if_neg h1, majorOf_wordE]
    refine Eq.trans (b := decodeEngine _) rfl ?_
    rw [decodeEngine, engOf_wordE]
    refine Eq.trans (b := checked _ _) rfl ?_
    simp [checked, low_wordE]
theorem Laws.RoundTrip.rngd (d : Reg) (s : BitVec 3) : Laws.RoundTrip.Statement (.rngd d s) :=
  fun _ => Instr.readsBack_of_major rfl (by simp) fun h0 h1 _ _ => by
    rw [decodeCp, if_neg h0, if_neg h1, majorOf_wordE]
    refine Eq.trans (b := decodeEngine _) rfl ?_
    rw [decodeEngine, engOf_wordE]
    refine Eq.trans (b := checked _ _) rfl ?_
    simp [checked, low_wordE]
theorem Laws.RoundTrip.rngdSt (d : Reg) (a : Reg) (s : BitVec 3) : Laws.RoundTrip.Statement (.rngdSt d a s) :=
  fun _ => Instr.readsBack_of_major rfl (by simp) fun h0 h1 _ _ => by
    rw [decodeCp, if_neg h0, if_neg h1, majorOf_wordE]
    refine Eq.trans (b := decodeEngine _) rfl ?_
    rw [decodeEngine, engOf_wordE]
    refine Eq.trans (b := checked _ _) rfl ?_
    simp [checked, low_wordE]
theorem Laws.RoundTrip.apndSet (a : Reg) (n : BitVec 3) : Laws.RoundTrip.Statement (.apndSet a n) :=
  fun _ => Instr.readsBack_of_major rfl (by simp) fun h0 h1 _ _ => by
    rw [decodeCp, if_neg h0, if_neg h1, majorOf_wordE]
    refine Eq.trans (b := decodeEngine _) rfl ?_
    rw [decodeEngine, engOf_wordE]
    refine Eq.trans (b := checked _ _) rfl ?_
    simp [checked, low_wordE]
theorem Laws.RoundTrip.apndRow (d : Reg) (a : Reg) (n : BitVec 3) : Laws.RoundTrip.Statement (.apndRow d a n) :=
  fun _ => Instr.readsBack_of_major rfl (by simp) fun h0 h1 _ _ => by
    rw [decodeCp, if_neg h0, if_neg h1, majorOf_wordE]
    refine Eq.trans (b := decodeEngine _) rfl ?_
    rw [decodeEngine, engOf_wordE]
    refine Eq.trans (b := checked _ _) rfl ?_
    simp [checked, low_wordE]
theorem Laws.RoundTrip.mark (n : BitVec 3) : Laws.RoundTrip.Statement (.mark n) :=
  fun _ => Instr.readsBack_of_major rfl (by simp) fun h0 h1 _ _ => by
    rw [decodeCp, if_neg h0, if_neg h1, majorOf_wordE]
    refine Eq.trans (b := decodeEngine _) rfl ?_
    rw [decodeEngine, engOf_wordE]
    refine Eq.trans (b := checked _ _) rfl ?_
    simp [checked, low_wordE]
theorem Laws.RoundTrip.fold (a : Reg) (n : BitVec 3) : Laws.RoundTrip.Statement (.fold a n) :=
  fun _ => Instr.readsBack_of_major rfl (by simp) fun h0 h1 _ _ => by
    rw [decodeCp, if_neg h0, if_neg h1, majorOf_wordE]
    refine Eq.trans (b := decodeEngine _) rfl ?_
    rw [decodeEngine, engOf_wordE]
    refine Eq.trans (b := checked _ _) rfl ?_
    simp [checked, low_wordE]
theorem Laws.RoundTrip.stats (a : Reg) : Laws.RoundTrip.Statement (.stats a) :=
  fun _ => Instr.readsBack_of_major rfl (by simp) fun h0 h1 _ _ => by
    rw [decodeCp, if_neg h0, if_neg h1, majorOf_wordE]
    refine Eq.trans (b := decodeEngine _) rfl ?_
    rw [decodeEngine, engOf_wordE]
    refine Eq.trans (b := checked _ _) rfl ?_
    simp [checked]
theorem Laws.RoundTrip.cutmStart (a : Reg) : Laws.RoundTrip.Statement (.cutmStart a) :=
  fun _ => Instr.readsBack_of_major rfl (by simp) fun h0 h1 _ _ => by
    rw [decodeCp, if_neg h0, if_neg h1, majorOf_wordE]
    refine Eq.trans (b := decodeEngine _) rfl ?_
    rw [decodeEngine, engOf_wordE]
    refine Eq.trans (b := checked _ _) rfl ?_
    simp [checked]
theorem Laws.RoundTrip.cutmRel (a : Reg) : Laws.RoundTrip.Statement (.cutmRel a) :=
  fun _ => Instr.readsBack_of_major rfl (by simp) fun h0 h1 _ _ => by
    rw [decodeCp, if_neg h0, if_neg h1, majorOf_wordE]
    refine Eq.trans (b := decodeEngine _) rfl ?_
    rw [decodeEngine, engOf_wordE]
    refine Eq.trans (b := checked _ _) rfl ?_
    simp [checked]
theorem Laws.RoundTrip.tkbp (a : Reg) (b : Reg) : Laws.RoundTrip.Statement (.tkbp a b) :=
  fun _ => Instr.readsBack_of_major rfl (by simp) fun h0 h1 _ _ => by
    rw [decodeCp, if_neg h0, if_neg h1, majorOf_wordE]
    refine Eq.trans (b := decodeEngine _) rfl ?_
    rw [decodeEngine, engOf_wordE]
    refine Eq.trans (b := checked _ _) rfl ?_
    simp [checked]
theorem Laws.RoundTrip.tkbpClr (a : Reg) : Laws.RoundTrip.Statement (.tkbpClr a) :=
  fun _ => Instr.readsBack_of_major rfl (by simp) fun h0 h1 _ _ => by
    rw [decodeCp, if_neg h0, if_neg h1, majorOf_wordE]
    refine Eq.trans (b := decodeEngine _) rfl ?_
    rw [decodeEngine, engOf_wordE]
    refine Eq.trans (b := checked _ _) rfl ?_
    simp [checked]
theorem Laws.RoundTrip.frz (a : Reg) (q : QNum) : Laws.RoundTrip.Statement (.frz a q) :=
  fun _ => Instr.readsBack_of_major rfl (by simp) fun h0 h1 _ _ => by
    rw [decodeCp, if_neg h0, if_neg h1, majorOf_wordE]
    refine Eq.trans (b := decodeEngine _) rfl ?_
    rw [decodeEngine, engOf_wordE]
    refine Eq.trans (b := checked _ _) rfl ?_
    simp [checked, low_wordE]
theorem Laws.RoundTrip.thaw (a : Reg) (q : QNum) : Laws.RoundTrip.Statement (.thaw a q) :=
  fun _ => Instr.readsBack_of_major rfl (by simp) fun h0 h1 _ _ => by
    rw [decodeCp, if_neg h0, if_neg h1, majorOf_wordE]
    refine Eq.trans (b := decodeEngine _) rfl ?_
    rw [decodeEngine, engOf_wordE]
    refine Eq.trans (b := checked _ _) rfl ?_
    simp [checked, low_wordE]
theorem Laws.RoundTrip.pwrq (d : Reg) (a : Reg) : Laws.RoundTrip.Statement (.pwrq d a) :=
  fun _ => Instr.readsBack_of_major rfl (by simp) fun h0 h1 _ _ => by
    rw [decodeCp, if_neg h0, if_neg h1, majorOf_wordE]
    refine Eq.trans (b := decodeEngine _) rfl ?_
    rw [decodeEngine, engOf_wordE]
    refine Eq.trans (b := checked _ _) rfl ?_
    simp [checked]
theorem Laws.RoundTrip.quote (a : Reg) (b : Reg) (q : QNum) : Laws.RoundTrip.Statement (.quote a b q) :=
  fun _ => Instr.readsBack_of_major rfl (by simp) fun h0 h1 _ _ => by
    rw [decodeCp, if_neg h0, if_neg h1, majorOf_wordE]
    refine Eq.trans (b := decodeEngine _) rfl ?_
    rw [decodeEngine, engOf_wordE]
    refine Eq.trans (b := checked _ _) rfl ?_
    simp [checked, low_wordE]
theorem Laws.RoundTrip.quoteExt (a : Reg) (b : Reg) (q : QNum) : Laws.RoundTrip.Statement (.quoteExt a b q) :=
  fun _ => Instr.readsBack_of_major rfl (by simp) fun h0 h1 _ _ => by
    rw [decodeCp, if_neg h0, if_neg h1, majorOf_wordE]
    refine Eq.trans (b := decodeEngine _) rfl ?_
    rw [decodeEngine, engOf_wordE]
    refine Eq.trans (b := checked _ _) rfl ?_
    simp [checked, low_wordE]
theorem Laws.RoundTrip.mxb (a : Reg) (b : Reg) : Laws.RoundTrip.Statement (.mxb a b) :=
  fun _ => Instr.readsBack_of_major rfl (by simp) fun h0 h1 _ _ => by
    rw [decodeCp, if_neg h0, if_neg h1, majorOf_wordE]
    refine Eq.trans (b := decodeMatrix _) rfl ?_
    rw [decodeMatrix, engOf_wordE]
    refine Eq.trans (b := checked _ _) rfl ?_
    simp [checked]
theorem Laws.RoundTrip.mxbPb (b : Reg) : Laws.RoundTrip.Statement (.mxbPb b) :=
  fun _ => Instr.readsBack_of_major rfl (by simp) fun h0 h1 _ _ => by
    rw [decodeCp, if_neg h0, if_neg h1, majorOf_wordE]
    refine Eq.trans (b := decodeMatrix _) rfl ?_
    rw [decodeMatrix, engOf_wordE]
    refine Eq.trans (b := checked _ _) rfl ?_
    simp [checked]
theorem Laws.RoundTrip.mxsw : Laws.RoundTrip.Statement (.mxsw) :=
  fun _ => Instr.readsBack_of_major rfl (by simp) fun h0 h1 _ _ => by
    rw [decodeCp, if_neg h0, if_neg h1, majorOf_wordE]
    refine Eq.trans (b := decodeMatrix _) rfl ?_
    rw [decodeMatrix, engOf_wordE]
    refine Eq.trans (b := checked _ _) rfl ?_
    simp [checked]
theorem Laws.RoundTrip.mxmm (a : Reg) (b : Reg) (n : BitVec 2) : Laws.RoundTrip.Statement (.mxmm a b n) :=
  fun _ => Instr.readsBack_of_major rfl (by simp) fun h0 h1 _ _ => by
    rw [decodeCp, if_neg h0, if_neg h1, majorOf_wordE]
    refine Eq.trans (b := decodeMatrix _) rfl ?_
    rw [decodeMatrix, engOf_wordE]
    refine Eq.trans (b := checked _ _) rfl ?_
    simp [checked, low_wordE]
theorem Laws.RoundTrip.mxmmPa (b : Reg) (n : BitVec 2) : Laws.RoundTrip.Statement (.mxmmPa b n) :=
  fun _ => Instr.readsBack_of_major rfl (by simp) fun h0 h1 _ _ => by
    rw [decodeCp, if_neg h0, if_neg h1, majorOf_wordE]
    refine Eq.trans (b := decodeMatrix _) rfl ?_
    rw [decodeMatrix, engOf_wordE]
    refine Eq.trans (b := checked _ _) rfl ?_
    simp [checked, low_wordE]
theorem Laws.RoundTrip.mxaccClr (b : Reg) (n : BitVec 2) : Laws.RoundTrip.Statement (.mxaccClr b n) :=
  fun _ => Instr.readsBack_of_major rfl (by simp) fun h0 h1 _ _ => by
    rw [decodeCp, if_neg h0, if_neg h1, majorOf_wordE]
    refine Eq.trans (b := decodeMatrix _) rfl ?_
    rw [decodeMatrix, engOf_wordE]
    refine Eq.trans (b := match _ with | 0 => _ | 1 => _ | 2 => _ | 3 => _ | _ => _) rfl ?_
    simp [checked, low_wordE]
theorem Laws.RoundTrip.mxaccQry (d : Reg) (n : BitVec 2) : Laws.RoundTrip.Statement (.mxaccQry d n) :=
  fun _ => Instr.readsBack_of_major rfl (by simp) fun h0 h1 _ _ => by
    rw [decodeCp, if_neg h0, if_neg h1, majorOf_wordE]
    refine Eq.trans (b := decodeMatrix _) rfl ?_
    rw [decodeMatrix, engOf_wordE]
    refine Eq.trans (b := match _ with | 0 => _ | 1 => _ | 2 => _ | 3 => _ | _ => _) rfl ?_
    simp [checked, low_wordE]
theorem Laws.RoundTrip.mxaccOuts (a : Reg) (b : Reg) (n : BitVec 2) : Laws.RoundTrip.Statement (.mxaccOuts a b n) :=
  fun _ => Instr.readsBack_of_major rfl (by simp) fun h0 h1 _ _ => by
    rw [decodeCp, if_neg h0, if_neg h1, majorOf_wordE]
    refine Eq.trans (b := decodeMatrix _) rfl ?_
    rw [decodeMatrix, engOf_wordE]
    refine Eq.trans (b := match _ with | 0 => _ | 1 => _ | 2 => _ | 3 => _ | _ => _) rfl ?_
    simp [checked, low_wordE]
theorem Laws.RoundTrip.mxaccOutp (b : Reg) (n : BitVec 2) : Laws.RoundTrip.Statement (.mxaccOutp b n) :=
  fun _ => Instr.readsBack_of_major rfl (by simp) fun h0 h1 _ _ => by
    rw [decodeCp, if_neg h0, if_neg h1, majorOf_wordE]
    refine Eq.trans (b := decodeMatrix _) rfl ?_
    rw [decodeMatrix, engOf_wordE]
    refine Eq.trans (b := match _ with | 0 => _ | 1 => _ | 2 => _ | 3 => _ | _ => _) rfl ?_
    simp [checked, low_wordE]
theorem Laws.RoundTrip.mxsort (a : Reg) (k : BitVec 1) (i : BitVec 1) : Laws.RoundTrip.Statement (.mxsort a k i) :=
  fun _ => Instr.readsBack_of_major rfl (by simp) fun h0 h1 _ _ => by
    rw [decodeCp, if_neg h0, if_neg h1, majorOf_wordE]
    refine Eq.trans (b := decodeMatrix _) rfl ?_
    rw [decodeMatrix, engOf_wordE]
    refine Eq.trans (b := checked _ _) rfl ?_
    simp [checked, low_wordE]
theorem Laws.RoundTrip.mxgang (a : Reg) : Laws.RoundTrip.Statement (.mxgang a) :=
  fun _ => Instr.readsBack_of_major rfl (by simp) fun h0 h1 _ _ => by
    rw [decodeCp, if_neg h0, if_neg h1, majorOf_wordE]
    refine Eq.trans (b := decodeMatrix _) rfl ?_
    rw [decodeMatrix, engOf_wordE]
    refine Eq.trans (b := checked _ _) rfl ?_
    simp [checked]
theorem Laws.RoundTrip.mxwait (d : Reg) (s : BitVec 2) : Laws.RoundTrip.Statement (.mxwait d s) :=
  fun h => Instr.readsBack_of_major rfl (by simp) fun h0 h1 _ _ => by
    replace h : decide (s ≠ 0) = true := h
    simp at h
    rw [decodeCp, if_neg h0, if_neg h1, majorOf_wordE]
    refine Eq.trans (b := decodeMatrix _) rfl ?_
    rw [decodeMatrix, engOf_wordE]
    refine Eq.trans (b := checked _ _) rfl ?_
    simp [checked, low_wordE, h]
theorem Laws.RoundTrip.mldg (d : Reg) (a : Reg) : Laws.RoundTrip.Statement (.mldg d a) :=
  fun _ => Instr.readsBack_of_major rfl (by simp) fun h0 h1 _ _ => by
    rw [decodeCp, if_neg h0, if_neg h1, majorOf_wordE]
    refine Eq.trans (b := decodeMatrix _) rfl ?_
    rw [decodeMatrix, engOf_wordE]
    refine Eq.trans (b := checked _ _) rfl ?_
    simp [checked]
theorem Laws.RoundTrip.mlchk (d : Reg) : Laws.RoundTrip.Statement (.mlchk d) :=
  fun _ => Instr.readsBack_of_major rfl (by simp) fun h0 h1 _ _ => by
    rw [decodeCp, if_neg h0, if_neg h1, majorOf_wordE]
    refine Eq.trans (b := decodeMatrix _) rfl ?_
    rw [decodeMatrix, engOf_wordE]
    refine Eq.trans (b := checked _ _) rfl ?_
    simp [checked]
theorem Laws.RoundTrip.mlchkRec (d : Reg) (a : Reg) : Laws.RoundTrip.Statement (.mlchkRec d a) :=
  fun _ => Instr.readsBack_of_major rfl (by simp) fun h0 h1 _ _ => by
    rw [decodeCp, if_neg h0, if_neg h1, majorOf_wordE]
    refine Eq.trans (b := decodeMatrix _) rfl ?_
    rw [decodeMatrix, engOf_wordE]
    refine Eq.trans (b := checked _ _) rfl ?_
    simp [checked]
theorem Laws.RoundTrip.mlfree (m : BitVec 4) : Laws.RoundTrip.Statement (.mlfree m) :=
  fun _ => Instr.readsBack_of_major rfl (by simp) fun h0 h1 _ _ => by
    rw [decodeCp, if_neg h0, if_neg h1, majorOf_wordE]
    refine Eq.trans (b := decodeMatrix _) rfl ?_
    rw [decodeMatrix, engOf_wordE]
    refine Eq.trans (b := checked _ _) rfl ?_
    simp [checked, low_wordE]
theorem Laws.RoundTrip.mlrun (a : Reg) (b : Reg) (m : BitVec 4) : Laws.RoundTrip.Statement (.mlrun a b m) :=
  fun _ => Instr.readsBack_of_major rfl (by simp) fun h0 h1 _ _ => by
    rw [decodeCp, if_neg h0, if_neg h1, majorOf_wordE]
    refine Eq.trans (b := decodeMatrix _) rfl ?_
    rw [decodeMatrix, engOf_wordE]
    refine Eq.trans (b := checked _ _) rfl ?_
    simp [checked, low_wordE]
theorem Laws.RoundTrip.mlcut (a : Reg) (m : BitVec 4) : Laws.RoundTrip.Statement (.mlcut a m) :=
  fun _ => Instr.readsBack_of_major rfl (by simp) fun h0 h1 _ _ => by
    rw [decodeCp, if_neg h0, if_neg h1, majorOf_wordE]
    refine Eq.trans (b := decodeMatrix _) rfl ?_
    rw [decodeMatrix, engOf_wordE]
    refine Eq.trans (b := checked _ _) rfl ?_
    simp [checked, low_wordE]
theorem Laws.RoundTrip.mxbLoad (c : Nat) : Laws.RoundTrip.Statement (.mxbLoad c) :=
  fun _ => Instr.readsBack_of_none rfl
theorem Laws.RoundTrip.mxswExchange (c : Nat) : Laws.RoundTrip.Statement (.mxswExchange c) :=
  fun _ => Instr.readsBack_of_none rfl
theorem Laws.RoundTrip.mxmmExecute (c : Nat) : Laws.RoundTrip.Statement (.mxmmExecute c) :=
  fun _ => Instr.readsBack_of_none rfl
theorem Laws.RoundTrip.mxaccExecute (c : Nat) : Laws.RoundTrip.Statement (.mxaccExecute c) :=
  fun _ => Instr.readsBack_of_none rfl
theorem Laws.RoundTrip.mxsortExecute (c : Nat) : Laws.RoundTrip.Statement (.mxsortExecute c) :=
  fun _ => Instr.readsBack_of_none rfl
theorem Laws.RoundTrip.mxgangExecute (c : Nat) : Laws.RoundTrip.Statement (.mxgangExecute c) :=
  fun _ => Instr.readsBack_of_none rfl
theorem Laws.RoundTrip.meldRun (c : Nat) : Laws.RoundTrip.Statement (.meldRun c) :=
  fun _ => Instr.readsBack_of_none rfl
theorem Laws.RoundTrip.mlfreeComplete (c : Nat) : Laws.RoundTrip.Statement (.mlfreeComplete c) :=
  fun _ => Instr.readsBack_of_none rfl
theorem Laws.RoundTrip.mlcutExecute (c : Nat) : Laws.RoundTrip.Statement (.mlcutExecute c) :=
  fun _ => Instr.readsBack_of_none rfl
theorem Laws.RoundTrip.elemNop (b : Blk) : Laws.RoundTrip.Statement (.elemNop b) :=
  fun h => Instr.readsBack_of_blk rfl rfl h rfl
theorem Laws.RoundTrip.const (b : Blk) : Laws.RoundTrip.Statement (.const b) :=
  fun h => Instr.readsBack_of_blk rfl rfl h rfl
theorem Laws.RoundTrip.sink (b : Blk) : Laws.RoundTrip.Statement (.sink b) :=
  fun h => Instr.readsBack_of_blk rfl rfl h rfl
theorem Laws.RoundTrip.copy (b : Blk) : Laws.RoundTrip.Statement (.copy b) :=
  fun h => Instr.readsBack_of_blk rfl rfl h rfl
theorem Laws.RoundTrip.elemAdd (b : Blk) : Laws.RoundTrip.Statement (.elemAdd b) :=
  fun h => Instr.readsBack_of_blk rfl rfl h rfl
theorem Laws.RoundTrip.elemSub (b : Blk) : Laws.RoundTrip.Statement (.elemSub b) :=
  fun h => Instr.readsBack_of_blk rfl rfl h rfl
theorem Laws.RoundTrip.elemMul (b : Blk) : Laws.RoundTrip.Statement (.elemMul b) :=
  fun h => Instr.readsBack_of_blk rfl rfl h rfl
theorem Laws.RoundTrip.fma (b : Blk) : Laws.RoundTrip.Statement (.fma b) :=
  fun h => Instr.readsBack_of_blk rfl rfl h rfl
theorem Laws.RoundTrip.fms (b : Blk) : Laws.RoundTrip.Statement (.fms b) :=
  fun h => Instr.readsBack_of_blk rfl rfl h rfl
theorem Laws.RoundTrip.nfma (b : Blk) : Laws.RoundTrip.Statement (.nfma b) :=
  fun h => Instr.readsBack_of_blk rfl rfl h rfl
theorem Laws.RoundTrip.elemMin (b : Blk) : Laws.RoundTrip.Statement (.elemMin b) :=
  fun h => Instr.readsBack_of_blk rfl rfl h rfl
theorem Laws.RoundTrip.elemMax (b : Blk) : Laws.RoundTrip.Statement (.elemMax b) :=
  fun h => Instr.readsBack_of_blk rfl rfl h rfl
theorem Laws.RoundTrip.abs (b : Blk) : Laws.RoundTrip.Statement (.abs b) :=
  fun h => Instr.readsBack_of_blk rfl rfl h rfl
theorem Laws.RoundTrip.neg (b : Blk) : Laws.RoundTrip.Statement (.neg b) :=
  fun h => Instr.readsBack_of_blk rfl rfl h rfl
theorem Laws.RoundTrip.elemAnd (b : Blk) : Laws.RoundTrip.Statement (.elemAnd b) :=
  fun h => Instr.readsBack_of_blk rfl rfl h rfl
theorem Laws.RoundTrip.elemOr (b : Blk) : Laws.RoundTrip.Statement (.elemOr b) :=
  fun h => Instr.readsBack_of_blk rfl rfl h rfl
theorem Laws.RoundTrip.elemXor (b : Blk) : Laws.RoundTrip.Statement (.elemXor b) :=
  fun h => Instr.readsBack_of_blk rfl rfl h rfl
theorem Laws.RoundTrip.not (b : Blk) : Laws.RoundTrip.Statement (.not b) :=
  fun h => Instr.readsBack_of_blk rfl rfl h rfl
theorem Laws.RoundTrip.elemShl (b : Blk) : Laws.RoundTrip.Statement (.elemShl b) :=
  fun h => Instr.readsBack_of_blk rfl rfl h rfl
theorem Laws.RoundTrip.elemShr (b : Blk) : Laws.RoundTrip.Statement (.elemShr b) :=
  fun h => Instr.readsBack_of_blk rfl rfl h rfl
theorem Laws.RoundTrip.elemSra (b : Blk) : Laws.RoundTrip.Statement (.elemSra b) :=
  fun h => Instr.readsBack_of_blk rfl rfl h rfl
theorem Laws.RoundTrip.clamp (b : Blk) : Laws.RoundTrip.Statement (.clamp b) :=
  fun h => Instr.readsBack_of_blk rfl rfl h rfl
theorem Laws.RoundTrip.cmpeq (b : Blk) : Laws.RoundTrip.Statement (.cmpeq b) :=
  fun h => Instr.readsBack_of_blk rfl rfl h rfl
theorem Laws.RoundTrip.cmplt (b : Blk) : Laws.RoundTrip.Statement (.cmplt b) :=
  fun h => Instr.readsBack_of_blk rfl rfl h rfl
theorem Laws.RoundTrip.cmple (b : Blk) : Laws.RoundTrip.Statement (.cmple b) :=
  fun h => Instr.readsBack_of_blk rfl rfl h rfl
theorem Laws.RoundTrip.sel (b : Blk) : Laws.RoundTrip.Statement (.sel b) :=
  fun h => Instr.readsBack_of_blk rfl rfl h rfl
theorem Laws.RoundTrip.exp2 (b : Blk) : Laws.RoundTrip.Statement (.exp2 b) :=
  fun h => Instr.readsBack_of_blk rfl rfl h rfl
theorem Laws.RoundTrip.log2 (b : Blk) : Laws.RoundTrip.Statement (.log2 b) :=
  fun h => Instr.readsBack_of_blk rfl rfl h rfl
theorem Laws.RoundTrip.rcp (b : Blk) : Laws.RoundTrip.Statement (.rcp b) :=
  fun h => Instr.readsBack_of_blk rfl rfl h rfl
theorem Laws.RoundTrip.rsq (b : Blk) : Laws.RoundTrip.Statement (.rsq b) :=
  fun h => Instr.readsBack_of_blk rfl rfl h rfl
theorem Laws.RoundTrip.cvt (b : Blk) : Laws.RoundTrip.Statement (.cvt b) :=
  fun h => Instr.readsBack_of_blk rfl rfl h rfl
theorem Laws.RoundTrip.qblk (b : Blk) : Laws.RoundTrip.Statement (.qblk b) :=
  fun h => Instr.readsBack_of_blk rfl rfl h rfl
theorem Laws.RoundTrip.dqblk (b : Blk) : Laws.RoundTrip.Statement (.dqblk b) :=
  fun h => Instr.readsBack_of_blk rfl rfl h rfl
theorem Laws.RoundTrip.tosd (b : Blk) : Laws.RoundTrip.Statement (.tosd b) :=
  fun h => Instr.readsBack_of_blk rfl rfl h rfl
theorem Laws.RoundTrip.fromsd (b : Blk) : Laws.RoundTrip.Statement (.fromsd b) :=
  fun h => Instr.readsBack_of_blk rfl rfl h rfl
theorem Laws.RoundTrip.bpln (b : Blk) : Laws.RoundTrip.Statement (.bpln b) :=
  fun h => Instr.readsBack_of_blk rfl rfl h rfl
theorem Laws.RoundTrip.rsum (b : Blk) : Laws.RoundTrip.Statement (.rsum b) :=
  fun h => Instr.readsBack_of_blk rfl rfl h rfl
theorem Laws.RoundTrip.rmax (b : Blk) : Laws.RoundTrip.Statement (.rmax b) :=
  fun h => Instr.readsBack_of_blk rfl rfl h rfl
theorem Laws.RoundTrip.rmin (b : Blk) : Laws.RoundTrip.Statement (.rmin b) :=
  fun h => Instr.readsBack_of_blk rfl rfl h rfl
theorem Laws.RoundTrip.bcast (b : Blk) : Laws.RoundTrip.Statement (.bcast b) :=
  fun h => Instr.readsBack_of_blk rfl rfl h rfl
theorem Laws.RoundTrip.shuf (b : Blk) : Laws.RoundTrip.Statement (.shuf b) :=
  fun h => Instr.readsBack_of_blk rfl rfl h rfl
theorem Laws.RoundTrip.elemRotl (b : Blk) : Laws.RoundTrip.Statement (.elemRotl b) :=
  fun h => Instr.readsBack_of_blk rfl rfl h rfl
theorem Laws.RoundTrip.sld (b : Blk) : Laws.RoundTrip.Statement (.sld b) :=
  fun h => Instr.readsBack_of_blk rfl rfl h rfl
theorem Laws.RoundTrip.swap (b : Blk) : Laws.RoundTrip.Statement (.swap b) :=
  fun h => Instr.readsBack_of_blk rfl rfl h rfl
theorem Laws.RoundTrip.steer (b : Blk) : Laws.RoundTrip.Statement (.steer b) :=
  fun h => Instr.readsBack_of_blk rfl rfl h rfl
theorem Laws.RoundTrip.merge (b : Blk) : Laws.RoundTrip.Statement (.merge b) :=
  fun h => Instr.readsBack_of_blk rfl rfl h rfl
theorem Laws.RoundTrip.carry (b : Blk) : Laws.RoundTrip.Statement (.carry b) :=
  fun h => Instr.readsBack_of_blk rfl rfl h rfl
theorem Laws.RoundTrip.invar (b : Blk) : Laws.RoundTrip.Statement (.invar b) :=
  fun h => Instr.readsBack_of_blk rfl rfl h rfl
theorem Laws.RoundTrip.lgen (b : Blk) : Laws.RoundTrip.Statement (.lgen b) :=
  fun h => Instr.readsBack_of_blk rfl rfl h rfl
theorem Laws.RoundTrip.agen (b : Blk) : Laws.RoundTrip.Statement (.agen b) :=
  fun h => Instr.readsBack_of_blk rfl rfl h rfl
theorem Laws.RoundTrip.agch (b : Blk) : Laws.RoundTrip.Statement (.agch b) :=
  fun h => Instr.readsBack_of_blk rfl rfl h rfl
theorem Laws.RoundTrip.mld (b : Blk) : Laws.RoundTrip.Statement (.mld b) :=
  fun h => Instr.readsBack_of_blk rfl rfl h rfl
theorem Laws.RoundTrip.mst (b : Blk) : Laws.RoundTrip.Statement (.mst b) :=
  fun h => Instr.readsBack_of_blk rfl rfl h rfl
theorem Laws.RoundTrip.matom (b : Blk) : Laws.RoundTrip.Statement (.matom b) :=
  fun h => Instr.readsBack_of_blk rfl rfl h rfl
theorem Laws.RoundTrip.pin (b : Blk) : Laws.RoundTrip.Statement (.pin b) :=
  fun h => Instr.readsBack_of_blk rfl rfl h rfl
theorem Laws.RoundTrip.pout (b : Blk) : Laws.RoundTrip.Statement (.pout b) :=
  fun h => Instr.readsBack_of_blk rfl rfl h rfl
theorem Laws.RoundTrip.cseq (b : Blk) : Laws.RoundTrip.Statement (.cseq b) :=
  fun h => Instr.readsBack_of_blk rfl rfl h rfl
theorem Laws.RoundTrip.cpipe (b : Blk) : Laws.RoundTrip.Statement (.cpipe b) :=
  fun h => Instr.readsBack_of_blk rfl rfl h rfl
theorem Laws.RoundTrip.cstrm (b : Blk) : Laws.RoundTrip.Statement (.cstrm b) :=
  fun h => Instr.readsBack_of_blk rfl rfl h rfl
theorem Laws.RoundTrip.eot (b : Blk) : Laws.RoundTrip.Statement (.eot b) :=
  fun h => Instr.readsBack_of_blk rfl rfl h rfl
theorem Laws.RoundTrip.eos (b : Blk) : Laws.RoundTrip.Statement (.eos b) :=
  fun h => Instr.readsBack_of_blk rfl rfl h rfl
theorem Laws.RoundTrip.tstm (b : Blk) : Laws.RoundTrip.Statement (.tstm b) :=
  fun h => Instr.readsBack_of_blk rfl rfl h rfl
theorem Laws.RoundTrip.pqc (b : Blk) : Laws.RoundTrip.Statement (.pqc b) :=
  fun h => Instr.readsBack_of_blk rfl rfl h rfl
theorem Laws.RoundTrip.smpl (b : Blk) : Laws.RoundTrip.Statement (.smpl b) :=
  fun h => Instr.readsBack_of_blk rfl rfl h rfl
theorem Laws.RoundTrip.acpt (b : Blk) : Laws.RoundTrip.Statement (.acpt b) :=
  fun h => Instr.readsBack_of_blk rfl rfl h rfl
theorem Laws.RoundTrip.rnge (b : Blk) : Laws.RoundTrip.Statement (.rnge b) :=
  fun h => Instr.readsBack_of_blk rfl rfl h rfl
theorem Laws.RoundTrip.stcnt (b : Blk) : Laws.RoundTrip.Statement (.stcnt b) :=
  fun h => Instr.readsBack_of_blk rfl rfl h rfl
theorem Laws.RoundTrip.stadd (b : Blk) : Laws.RoundTrip.Statement (.stadd b) :=
  fun h => Instr.readsBack_of_blk rfl rfl h rfl
theorem Laws.RoundTrip.elementMark (c : Nat) (k : Nat) (sh : Bool) : Laws.RoundTrip.Statement (.elementMark c k sh) :=
  fun _ => Instr.readsBack_of_none rfl
theorem Laws.RoundTrip.wavefrontSwapUnmarked (c : Nat) (k : Nat) : Laws.RoundTrip.Statement (.wavefrontSwapUnmarked c k) :=
  fun _ => Instr.readsBack_of_none rfl
theorem Laws.RoundTrip.drainGatedSwap (c : Nat) : Laws.RoundTrip.Statement (.drainGatedSwap c) :=
  fun _ => Instr.readsBack_of_none rfl
theorem Laws.RoundTrip.gloadComplete (c : Nat) : Laws.RoundTrip.Statement (.gloadComplete c) :=
  fun _ => Instr.readsBack_of_none rfl
theorem Laws.RoundTrip.firingStart (c : Nat) : Laws.RoundTrip.Statement (.firingStart c) :=
  fun _ => Instr.readsBack_of_none rfl
theorem Laws.RoundTrip.actorDrain (c : Nat) : Laws.RoundTrip.Statement (.actorDrain c) :=
  fun _ => Instr.readsBack_of_none rfl
theorem Laws.RoundTrip.wrptrWrite (c : Nat) (d : Nat) : Laws.RoundTrip.Statement (.wrptrWrite c d) :=
  fun _ => Instr.readsBack_of_none rfl
theorem Laws.RoundTrip.rdptrMirror (c : Nat) (d : Nat) : Laws.RoundTrip.Statement (.rdptrMirror c d) :=
  fun _ => Instr.readsBack_of_none rfl
theorem Laws.RoundTrip.memoryActorFiring (n : Nat) : Laws.RoundTrip.Statement (.memoryActorFiring n) :=
  fun _ => Instr.readsBack_of_none rfl
theorem Laws.RoundTrip.modeTokenAccept (g : Word32) : Laws.RoundTrip.Statement (.modeTokenAccept g) :=
  fun _ => Instr.readsBack_of_none rfl
theorem Laws.RoundTrip.sequencerStop (c : Nat) : Laws.RoundTrip.Statement (.sequencerStop c) :=
  fun _ => Instr.readsBack_of_none rfl
theorem Laws.RoundTrip.modeXpkgTimeout (g : Word32) : Laws.RoundTrip.Statement (.modeXpkgTimeout g) :=
  fun _ => Instr.readsBack_of_none rfl
theorem Laws.RoundTrip.translationWalk (c : Nat) (q : Nat) : Laws.RoundTrip.Statement (.translationWalk c q) :=
  fun _ => Instr.readsBack_of_none rfl
theorem Laws.RoundTrip.homePerform (c : Nat) (q : Nat) : Laws.RoundTrip.Statement (.homePerform c q) :=
  fun _ => Instr.readsBack_of_none rfl
theorem Laws.RoundTrip.kittyResend (c : Nat) (q : Nat) : Laws.RoundTrip.Statement (.kittyResend c q) :=
  fun _ => Instr.readsBack_of_none rfl
theorem Laws.RoundTrip.kittyRelease (x : Nat) (page : Nat) : Laws.RoundTrip.Statement (.kittyRelease x page) :=
  fun _ => Instr.readsBack_of_none rfl
theorem Laws.RoundTrip.kittyDecline (x : Nat) (page : Nat) : Laws.RoundTrip.Statement (.kittyDecline x page) :=
  fun _ => Instr.readsBack_of_none rfl
theorem Laws.RoundTrip.pageInvalidate (x : Nat) (first : Nat) (last : Nat) : Laws.RoundTrip.Statement (.pageInvalidate x first last) :=
  fun _ => Instr.readsBack_of_none rfl
theorem Laws.RoundTrip.rangeEntryWrite (x : Nat) (i : Nat) (d0 : Word) (d1 : Word) (d2 : Word) (d3 : Word) : Laws.RoundTrip.Statement (.rangeEntryWrite x i d0 d1 d2 d3) :=
  fun _ => Instr.readsBack_of_none rfl
theorem Laws.RoundTrip.remapDescriptorWrite (x : Nat) (i : Nat) (d0 : Word) (d1 : Word) : Laws.RoundTrip.Statement (.remapDescriptorWrite x i d0 d1) :=
  fun _ => Instr.readsBack_of_none rfl
theorem Laws.RoundTrip.queueEntryComplete (c : Nat) (q : Nat) : Laws.RoundTrip.Statement (.queueEntryComplete c q) :=
  fun _ => Instr.readsBack_of_none rfl
theorem Laws.RoundTrip.sourceReleased (c : Nat) (q : Nat) : Laws.RoundTrip.Statement (.sourceReleased c q) :=
  fun _ => Instr.readsBack_of_none rfl
theorem Laws.RoundTrip.localAtomicTimeout (c : Nat) (q : Nat) : Laws.RoundTrip.Statement (.localAtomicTimeout c q) :=
  fun _ => Instr.readsBack_of_none rfl
theorem Laws.RoundTrip.queueWaitTimeout (c : Nat) : Laws.RoundTrip.Statement (.queueWaitTimeout c) :=
  fun _ => Instr.readsBack_of_none rfl
theorem Laws.RoundTrip.streamStart (c : Nat) (e : Nat) : Laws.RoundTrip.Statement (.streamStart c e) :=
  fun _ => Instr.readsBack_of_none rfl
theorem Laws.RoundTrip.streamBurst (c : Nat) (e : Nat) : Laws.RoundTrip.Statement (.streamBurst c e) :=
  fun _ => Instr.readsBack_of_none rfl
theorem Laws.RoundTrip.streamSourceReleased (c : Nat) (e : Nat) : Laws.RoundTrip.Statement (.streamSourceReleased c e) :=
  fun _ => Instr.readsBack_of_none rfl
theorem Laws.RoundTrip.streamVisible (c : Nat) (e : Nat) : Laws.RoundTrip.Statement (.streamVisible c e) :=
  fun _ => Instr.readsBack_of_none rfl
theorem Laws.RoundTrip.swaitTimeout (c : Nat) : Laws.RoundTrip.Statement (.swaitTimeout c) :=
  fun _ => Instr.readsBack_of_none rfl
theorem Laws.RoundTrip.mxwaitTimeout (c : Nat) : Laws.RoundTrip.Statement (.mxwaitTimeout c) :=
  fun _ => Instr.readsBack_of_none rfl
theorem Laws.RoundTrip.gridWatchdog (c : Nat) (k : Nat) : Laws.RoundTrip.Statement (.gridWatchdog c k) :=
  fun _ => Instr.readsBack_of_none rfl
theorem Laws.RoundTrip.portWaitTimeout (c : Nat) (k : Nat) : Laws.RoundTrip.Statement (.portWaitTimeout c k) :=
  fun _ => Instr.readsBack_of_none rfl
theorem Laws.RoundTrip.barrierArrival (c : Nat) (n : Nat) : Laws.RoundTrip.Statement (.barrierArrival c n) :=
  fun _ => Instr.readsBack_of_none rfl
theorem Laws.RoundTrip.launchRequest (c : Nat) (q : Nat) : Laws.RoundTrip.Statement (.launchRequest c q) :=
  fun _ => Instr.readsBack_of_none rfl
theorem Laws.RoundTrip.imageValidation (g : Word32) : Laws.RoundTrip.Statement (.imageValidation g) :=
  fun _ => Instr.readsBack_of_none rfl
theorem Laws.RoundTrip.placementTimeout (g : Word32) : Laws.RoundTrip.Statement (.placementTimeout g) :=
  fun _ => Instr.readsBack_of_none rfl
theorem Laws.RoundTrip.graphAdmit : Laws.RoundTrip.Statement (.graphAdmit) :=
  fun _ => Instr.readsBack_of_none rfl
theorem Laws.RoundTrip.shadowReport (c : Nat) (cause : BitVec 9) : Laws.RoundTrip.Statement (.shadowReport c cause) :=
  fun _ => Instr.readsBack_of_none rfl
theorem Laws.RoundTrip.statusTimeout (g : Word32) : Laws.RoundTrip.Statement (.statusTimeout g) :=
  fun _ => Instr.readsBack_of_none rfl
theorem Laws.RoundTrip.commitSwap (c : Nat) : Laws.RoundTrip.Statement (.commitSwap c) :=
  fun _ => Instr.readsBack_of_none rfl
theorem Laws.RoundTrip.packageReport (g : Word32) (pkg : Nat) (ok : Bool) : Laws.RoundTrip.Statement (.packageReport g pkg ok) :=
  fun _ => Instr.readsBack_of_none rfl
theorem Laws.RoundTrip.xpkgGo (g : Word32) : Laws.RoundTrip.Statement (.xpkgGo g) :=
  fun _ => Instr.readsBack_of_none rfl
theorem Laws.RoundTrip.xpkgAbort (g : Word32) : Laws.RoundTrip.Statement (.xpkgAbort g) :=
  fun _ => Instr.readsBack_of_none rfl
theorem Laws.RoundTrip.xpkgReportTimeout (g : Word32) : Laws.RoundTrip.Statement (.xpkgReportTimeout g) :=
  fun _ => Instr.readsBack_of_none rfl
theorem Laws.RoundTrip.peerHalt (g : Word32) : Laws.RoundTrip.Statement (.peerHalt g) :=
  fun _ => Instr.readsBack_of_none rfl
theorem Laws.RoundTrip.freezeRequest (g : Word32) : Laws.RoundTrip.Statement (.freezeRequest g) :=
  fun _ => Instr.readsBack_of_none rfl
theorem Laws.RoundTrip.freezeWave (c : Nat) : Laws.RoundTrip.Statement (.freezeWave c) :=
  fun _ => Instr.readsBack_of_none rfl
theorem Laws.RoundTrip.freezeComplete (g : Word32) (ok : Bool) : Laws.RoundTrip.Statement (.freezeComplete g ok) :=
  fun _ => Instr.readsBack_of_none rfl
theorem Laws.RoundTrip.freezeTimeout (g : Word32) : Laws.RoundTrip.Statement (.freezeTimeout g) :=
  fun _ => Instr.readsBack_of_none rfl
theorem Laws.RoundTrip.graphStop (g : Word32) : Laws.RoundTrip.Statement (.graphStop g) :=
  fun _ => Instr.readsBack_of_none rfl
theorem Laws.RoundTrip.contextCreate (desc : List Byte) : Laws.RoundTrip.Statement (.contextCreate desc) :=
  fun _ => Instr.readsBack_of_none rfl
theorem Laws.RoundTrip.contextHalt (x : Nat) : Laws.RoundTrip.Statement (.contextHalt x) :=
  fun _ => Instr.readsBack_of_none rfl
theorem Laws.RoundTrip.contextResume (x : Nat) : Laws.RoundTrip.Statement (.contextResume x) :=
  fun _ => Instr.readsBack_of_none rfl
theorem Laws.RoundTrip.noticeDelivery (x : Nat) : Laws.RoundTrip.Statement (.noticeDelivery x) :=
  fun _ => Instr.readsBack_of_none rfl
theorem Laws.RoundTrip.cutMarker (c : Nat) : Laws.RoundTrip.Statement (.cutMarker c) :=
  fun _ => Instr.readsBack_of_none rfl
theorem Laws.RoundTrip.cutTimeout (g : Word32) : Laws.RoundTrip.Statement (.cutTimeout g) :=
  fun _ => Instr.readsBack_of_none rfl
theorem Laws.RoundTrip.dumpStart : Laws.RoundTrip.Statement (.dumpStart) :=
  fun _ => Instr.readsBack_of_none rfl
theorem Laws.RoundTrip.dumpComplete : Laws.RoundTrip.Statement (.dumpComplete) :=
  fun _ => Instr.readsBack_of_none rfl
theorem Laws.RoundTrip.dumpEngineFault : Laws.RoundTrip.Statement (.dumpEngineFault) :=
  fun _ => Instr.readsBack_of_none rfl
theorem Laws.RoundTrip.pendingRemoteExpiry (c : Nat) (q : Nat) : Laws.RoundTrip.Statement (.pendingRemoteExpiry c q) :=
  fun _ => Instr.readsBack_of_none rfl
theorem Laws.RoundTrip.scrubStep (addr : Nat) : Laws.RoundTrip.Statement (.scrubStep addr) :=
  fun _ => Instr.readsBack_of_none rfl
theorem Laws.RoundTrip.hbmRowSpare (addr : Nat) : Laws.RoundTrip.Statement (.hbmRowSpare addr) :=
  fun _ => Instr.readsBack_of_none rfl
theorem Laws.RoundTrip.streamDataSlot (suit : Nat) (slot : Nat) : Laws.RoundTrip.Statement (.streamDataSlot suit slot) :=
  fun _ => Instr.readsBack_of_none rfl
theorem Laws.RoundTrip.windowWriteSlot (suit : Nat) (slot : Nat) : Laws.RoundTrip.Statement (.windowWriteSlot suit slot) :=
  fun _ => Instr.readsBack_of_none rfl
theorem Laws.RoundTrip.deckAtomicSlot (suit : Nat) (slot : Nat) : Laws.RoundTrip.Statement (.deckAtomicSlot suit slot) :=
  fun _ => Instr.readsBack_of_none rfl
theorem Laws.RoundTrip.memoryActorResponseSlot (suit : Nat) (slot : Nat) : Laws.RoundTrip.Statement (.memoryActorResponseSlot suit slot) :=
  fun _ => Instr.readsBack_of_none rfl
theorem Laws.RoundTrip.noticeSlot (slot : Nat) : Laws.RoundTrip.Statement (.noticeSlot slot) :=
  fun _ => Instr.readsBack_of_none rfl
theorem Laws.RoundTrip.creditSlot (layer : Nat) : Laws.RoundTrip.Statement (.creditSlot layer) :=
  fun _ => Instr.readsBack_of_none rfl
theorem Laws.RoundTrip.refreshCopySlot (slot : Nat) : Laws.RoundTrip.Statement (.refreshCopySlot slot) :=
  fun _ => Instr.readsBack_of_none rfl
theorem Laws.RoundTrip.returnRecordSlot (slot : Nat) : Laws.RoundTrip.Statement (.returnRecordSlot slot) :=
  fun _ => Instr.readsBack_of_none rfl
theorem Laws.RoundTrip.frameBoundary : Laws.RoundTrip.Statement (.frameBoundary) :=
  fun _ => Instr.readsBack_of_none rfl
theorem Laws.RoundTrip.replicaApply (layer : Nat) : Laws.RoundTrip.Statement (.replicaApply layer) :=
  fun _ => Instr.readsBack_of_none rfl
theorem Laws.RoundTrip.calendarWrite (i : Nat) (w : BitVec 32) : Laws.RoundTrip.Statement (.calendarWrite i w) :=
  fun _ => Instr.readsBack_of_none rfl
theorem Laws.RoundTrip.dkwinRangeWrite (x : Nat) (base : Nat) (size : Nat) : Laws.RoundTrip.Statement (.dkwinRangeWrite x base size) :=
  fun _ => Instr.readsBack_of_none rfl
theorem Laws.RoundTrip.cardSleep (card : Nat) : Laws.RoundTrip.Statement (.cardSleep card) :=
  fun _ => Instr.readsBack_of_none rfl
theorem Laws.RoundTrip.cardWake (card : Nat) : Laws.RoundTrip.Statement (.cardWake card) :=
  fun _ => Instr.readsBack_of_none rfl
theorem Laws.RoundTrip.wakeSequenceTimeout (card : Nat) : Laws.RoundTrip.Statement (.wakeSequenceTimeout card) :=
  fun _ => Instr.readsBack_of_none rfl
theorem Laws.RoundTrip.sensorSample (card : Nat) (temp : Nat) : Laws.RoundTrip.Statement (.sensorSample card temp) :=
  fun _ => Instr.readsBack_of_none rfl
theorem Laws.RoundTrip.thermalRepeat (card : Nat) : Laws.RoundTrip.Statement (.thermalRepeat card) :=
  fun _ => Instr.readsBack_of_none rfl
theorem Laws.RoundTrip.sensorSilent (card : Nat) : Laws.RoundTrip.Statement (.sensorSilent card) :=
  fun _ => Instr.readsBack_of_none rfl
theorem Laws.RoundTrip.edgeViaOvercurrent (card : Nat) : Laws.RoundTrip.Statement (.edgeViaOvercurrent card) :=
  fun _ => Instr.readsBack_of_none rfl
theorem Laws.RoundTrip.supplyDroop (island : Nat) : Laws.RoundTrip.Statement (.supplyDroop island) :=
  fun _ => Instr.readsBack_of_none rfl
theorem Laws.RoundTrip.moduleLimitWrite (halfWatts : Nat) : Laws.RoundTrip.Statement (.moduleLimitWrite halfWatts) :=
  fun _ => Instr.readsBack_of_none rfl
theorem Laws.RoundTrip.powerGate (c : Nat) : Laws.RoundTrip.Statement (.powerGate c) :=
  fun _ => Instr.readsBack_of_none rfl
theorem Laws.RoundTrip.coreWakeComplete (c : Nat) : Laws.RoundTrip.Statement (.coreWakeComplete c) :=
  fun _ => Instr.readsBack_of_none rfl
theorem Laws.RoundTrip.wakeTimeout (c : Nat) : Laws.RoundTrip.Statement (.wakeTimeout c) :=
  fun _ => Instr.readsBack_of_none rfl
theorem Laws.RoundTrip.remoteRequest (m : RemoteMsg) : Laws.RoundTrip.Statement (.remoteRequest m) :=
  fun _ => Instr.readsBack_of_none rfl
theorem Laws.RoundTrip.remoteResponse (c : Nat) (q : Nat) (cause : BitVec 9) (data : Nat) : Laws.RoundTrip.Statement (.remoteResponse c q cause data) :=
  fun _ => Instr.readsBack_of_none rfl
theorem Laws.RoundTrip.remoteTimeout (c : Nat) (q : Nat) : Laws.RoundTrip.Statement (.remoteTimeout c q) :=
  fun _ => Instr.readsBack_of_none rfl
theorem Laws.RoundTrip.vcTokenArrival (ch : Nat) (bytes : List Byte) (late : Bool) : Laws.RoundTrip.Statement (.vcTokenArrival ch bytes late) :=
  fun _ => Instr.readsBack_of_none rfl
theorem Laws.RoundTrip.vcCredit (ch : Nat) (rdptr : Nat) : Laws.RoundTrip.Statement (.vcCredit ch rdptr) :=
  fun _ => Instr.readsBack_of_none rfl
theorem Laws.RoundTrip.portRetrain (n : Nat) : Laws.RoundTrip.Statement (.portRetrain n) :=
  fun _ => Instr.readsBack_of_none rfl
theorem Laws.RoundTrip.portRetrained (n : Nat) : Laws.RoundTrip.Statement (.portRetrained n) :=
  fun _ => Instr.readsBack_of_none rfl
theorem Laws.RoundTrip.portDown (n : Nat) (reroute : Bool) : Laws.RoundTrip.Statement (.portDown n reroute) :=
  fun _ => Instr.readsBack_of_none rfl
theorem Laws.RoundTrip.flitUncorrectable (o : FlitOwner) : Laws.RoundTrip.Statement (.flitUncorrectable o) :=
  fun _ => Instr.readsBack_of_none rfl
theorem Laws.RoundTrip.domainEnumeration (pkg : BitVec 12) : Laws.RoundTrip.Statement (.domainEnumeration pkg) :=
  fun _ => Instr.readsBack_of_none rfl
theorem Laws.RoundTrip.ingressWrite (n : Nat) (off : Nat) (bytes : List Byte) (poisoned : Bool) : Laws.RoundTrip.Statement (.ingressWrite n off bytes poisoned) :=
  fun _ => Instr.readsBack_of_none rfl
theorem Laws.RoundTrip.creditWriteback (n : Nat) : Laws.RoundTrip.Statement (.creditWriteback n) :=
  fun _ => Instr.readsBack_of_none rfl
theorem Laws.RoundTrip.openRecord (n : Nat) : Laws.RoundTrip.Statement (.openRecord n) :=
  fun _ => Instr.readsBack_of_none rfl
theorem Laws.RoundTrip.dataRecord (n : Nat) : Laws.RoundTrip.Statement (.dataRecord n) :=
  fun _ => Instr.readsBack_of_none rfl
theorem Laws.RoundTrip.closeRecord (n : Nat) : Laws.RoundTrip.Statement (.closeRecord n) :=
  fun _ => Instr.readsBack_of_none rfl
theorem Laws.RoundTrip.modeRecord (n : Nat) : Laws.RoundTrip.Statement (.modeRecord n) :=
  fun _ => Instr.readsBack_of_none rfl
theorem Laws.RoundTrip.ingressDrainAccepted (n : Nat) : Laws.RoundTrip.Statement (.ingressDrainAccepted n) :=
  fun _ => Instr.readsBack_of_none rfl
theorem Laws.RoundTrip.ingressEn (n : Nat) (en : Bool) : Laws.RoundTrip.Statement (.ingressEn n en) :=
  fun _ => Instr.readsBack_of_none rfl
theorem Laws.RoundTrip.ingressRst (n : Nat) : Laws.RoundTrip.Statement (.ingressRst n) :=
  fun _ => Instr.readsBack_of_none rfl
theorem Laws.RoundTrip.egressEn (n : Nat) (en : Bool) : Laws.RoundTrip.Statement (.egressEn n en) :=
  fun _ => Instr.readsBack_of_none rfl
theorem Laws.RoundTrip.egressRst (n : Nat) : Laws.RoundTrip.Statement (.egressRst n) :=
  fun _ => Instr.readsBack_of_none rfl
theorem Laws.RoundTrip.rdposWrite (n : Nat) (v : Word) : Laws.RoundTrip.Statement (.rdposWrite n v) :=
  fun _ => Instr.readsBack_of_none rfl
theorem Laws.RoundTrip.graphStoreEnable (w : Word) : Laws.RoundTrip.Statement (.graphStoreEnable w) :=
  fun _ => Instr.readsBack_of_none rfl
theorem Laws.RoundTrip.graphStoreAccess (off : Nat) (wr : Bool) (bytes : List Byte) : Laws.RoundTrip.Statement (.graphStoreAccess off wr bytes) :=
  fun _ => Instr.readsBack_of_none rfl
theorem Laws.RoundTrip.egressRecordWrite (n : Nat) : Laws.RoundTrip.Statement (.egressRecordWrite n) :=
  fun _ => Instr.readsBack_of_none rfl
theorem Laws.RoundTrip.completionWordWrite (n : Nat) : Laws.RoundTrip.Statement (.completionWordWrite n) :=
  fun _ => Instr.readsBack_of_none rfl
theorem Laws.RoundTrip.pcieLinkDown : Laws.RoundTrip.Statement (.pcieLinkDown) :=
  fun _ => Instr.readsBack_of_none rfl
theorem Laws.RoundTrip.registerWrite (off : Nat) (v : Word) : Laws.RoundTrip.Statement (.registerWrite off v) :=
  fun _ => Instr.readsBack_of_none rfl
theorem Laws.RoundTrip.coldReset : Laws.RoundTrip.Statement (.coldReset) :=
  fun _ => Instr.readsBack_of_none rfl
theorem Laws.RoundTrip.quoteCapture : Laws.RoundTrip.Statement (.quoteCapture) :=
  fun _ => Instr.readsBack_of_none rfl
theorem Laws.RoundTrip.quoteExtendApply : Laws.RoundTrip.Statement (.quoteExtendApply) :=
  fun _ => Instr.readsBack_of_none rfl
theorem Laws.RoundTrip.getVersion (r : SpdmReq) : Laws.RoundTrip.Statement (.getVersion r) :=
  fun _ => Instr.readsBack_of_none rfl
theorem Laws.RoundTrip.getCapabilities (r : SpdmReq) : Laws.RoundTrip.Statement (.getCapabilities r) :=
  fun _ => Instr.readsBack_of_none rfl
theorem Laws.RoundTrip.negotiateAlgorithms (r : SpdmReq) : Laws.RoundTrip.Statement (.negotiateAlgorithms r) :=
  fun _ => Instr.readsBack_of_none rfl
theorem Laws.RoundTrip.getDigests (r : SpdmReq) : Laws.RoundTrip.Statement (.getDigests r) :=
  fun _ => Instr.readsBack_of_none rfl
theorem Laws.RoundTrip.getCertificate (r : SpdmReq) : Laws.RoundTrip.Statement (.getCertificate r) :=
  fun _ => Instr.readsBack_of_none rfl
theorem Laws.RoundTrip.challenge (r : SpdmReq) : Laws.RoundTrip.Statement (.challenge r) :=
  fun _ => Instr.readsBack_of_none rfl
theorem Laws.RoundTrip.getMeasurements (r : SpdmReq) : Laws.RoundTrip.Statement (.getMeasurements r) :=
  fun _ => Instr.readsBack_of_none rfl
theorem Laws.RoundTrip.spdmUnsupportedRequest (r : SpdmReq) : Laws.RoundTrip.Statement (.spdmUnsupportedRequest r) :=
  fun _ => Instr.readsBack_of_none rfl
theorem Laws.RoundTrip.victimMinRunTime (g : Word32) : Laws.RoundTrip.Statement (.victimMinRunTime g) :=
  fun _ => Instr.readsBack_of_none rfl
theorem Laws.RoundTrip.contextDestroy (x : Nat) : Laws.RoundTrip.Statement (.contextDestroy x) :=
  fun _ => Instr.readsBack_of_none rfl
theorem Laws.RoundTrip.unassignedEncoding (w : BitVec 32) (w2 : BitVec 32) (cause : BitVec 9) : Laws.RoundTrip.Statement (.unassignedEncoding w w2 cause) :=
  fun _ => Instr.readsBack_of_none rfl
theorem Laws.RoundTrip.instructionFetchFault (cause : BitVec 9) : Laws.RoundTrip.Statement (.instructionFetchFault cause) :=
  fun _ => Instr.readsBack_of_none rfl

end Sys2Proof
end

