-- ==== Sys2Proof/Tests/Slice0.lean ====
section
/-! SUPPORT. Tests: ill-formed terms that the check refuses, words of the spec's listings and what they decode to, single
steps against the spec's worked examples, and for every statement with hypotheses a state that meets them, clause by
clause. Expected values are the spec's. -/

set_option Elab.async false

namespace Sys2Proof.Tests

open Sys2Proof.Machine

/-! ### Well-formedness -/

def badBlk : Blk := ⟨0x0E, ⟨false, 1, 0, 0⟩, ⟨false, 0, 0, 0⟩, 0⟩
def badBlk1 : Blk := ⟨0x0E, ⟨false, 0, 0, 0⟩, ⟨false, 0, 2, 0⟩, 0⟩

theorem test_wf_refuses_operands : ∀ i ∈ [Instr.shli 1 1 64, .shri 1 1 64, .srai 1 1 0xFFFF, .ldq 1 0 .rel .core .word,
    .ldq 1 0 .rlx .card .word, .stq 1 2 0 .acq .core .word, .stq 1 2 0 .rlx .dom .word, .aadd 1 2 0 .rlx .deck .word,
    .acas 1 2 3 0 .rlx .card .double, .asnap 1 0 .rlx .dom .word, .srd 1 0x705, .srd 1 0xF18, .swr 1 0x7C5, .swr 1 0x7E8,
    .mxwait 1 0], i.wf = false := by decide

theorem test_wf_refuses_blocks : ∀ i ∈ [Instr.elemAdd badBlk, .elemAdd badBlk1, .pin badBlk, .cseq badBlk1, .stadd badBlk,
    .mld badBlk1], i.wf = false := by decide

theorem test_wf_refuses_events : ∀ i ∈ [Instr.mxbLoad 2304, .elementMark 0 128 false, .elementMark 2304 0 true, .wrptrWrite 0 64,
    .translationWalk 0 20, .homePerform 0 32, .kittyRelease 16 0, .rangeEntryWrite 0 16 0 0 0 0, .remapDescriptorWrite 0 64 0 0,
    .queueEntryComplete 0 16, .streamStart 0 4, .barrierArrival 0 8, .contextCreate [], .contextHalt 16, .streamDataSlot 4 0,
    .streamDataSlot 0 512, .noticeSlot 512, .creditSlot 13, .replicaApply 13, .calendarWrite 2048 0, .cardSleep 12,
    .supplyDroop 64, .portRetrain 24, .ingressEn 64 true, .egressEn 64 true, .unassignedEncoding 0 0 16,
    .instructionFetchFault 0x020], i.wf = false := by decide

/-! ### Words of the spec's listings (R302, R339 to R345, R380, R427, R455 and the engine chapters) -/

theorem test_decode_scalar : ∀ p ∈ [(0x90410000#32, Instr.ldw 2 1 0), (0x00621001, .add 3 2 2), (0x00831803, .mul 4 3 3),
    (0x04A00007, .addi 5 0 7), (0x00C42801, .add 6 4 5), (0x00E60007, .divu 7 6 0), (0x40E0FFFA, .beq 7 0 0xFFFA),
    (0x98410000, .ldd 2 1 0), (0xAC410008, .std 2 1 8), (0x44C0FFFA, .bne 6 0 0xFFFA), (0x0C208000, .ori 1 0 0x8000),
    (0x0821000F, .andi 1 1 0xF), (0xAC202000, .std 1 0 0x2000)], decodeCp p.1 0 false = .ok p.2 := by decide +kernel

theorem test_decode_lix : decodeCp 0xFC840001 0x04020002 false = .ok (.lix 4 4 0x04020002) ∧
    decodeCp 0xFCE00001 0x12345678 true = .bad 4 := by decide +kernel

theorem test_decode_queued : ∀ p ∈ [(0xC0040082#32, Instr.ldq 4 1 .rlx .core .word), (0xC4083903, .stq 8 7 2 .rlx .core .double),
    (0xC0080183, .ldq 8 3 .rlx .core .double), (0xD4A00081, .waitqVis 5 1), (0xD5200182, .popq 9 3), (0xD5400102, .popq 10 2),
    (0xC8032054, .aadd 3 4 0 .rel .deck .double)], decodeCp p.1 0 false = .ok p.2 := by decide +kernel

theorem test_decode_system : ∀ p ∈ [(0xE8A00701#32, Instr.srd 5 0x701), (0xEC060702, .swr 6 0x702), (0xE82007C1, .srd 1 0x7C1),
    (0xE0000001, .nop), (0xE0000010, .fenceCore), (0xE0000013, .fenceDom), (0xE0000014, .fencei), (0xE0000020, .eret),
    (0xE0000021, .wfe), (0xE0000022, .sev), (0xE0000023, .halt), (0xE0000024, .brk), (0xE4000007, .trap 7)],
    decodeCp p.1 0 false = .ok p.2 := by decide +kernel

theorem test_decode_engine : ∀ p ∈ [(0x74010500#32, Instr.apndSet 1 0), (0x74620508, .apndRow 3 2 0), (0x74040540, .fold 4 0),
    (0x74000520, .mark 0), (0x74020B80, .bari 2 1 0), (0x746003A0, .bara 3 0), (0x740303C0, .barw 3), (0x74020000, .gload 2),
    (0x74000020, .gswapDrain), (0x74000040, .ggo), (0x74000280, .fdone), (0x74053743, .quote 5 6 3), (0x74053753, .quoteExt 5 6 3)],
    decodeCp p.1 0 false = .ok p.2 := by decide +kernel

theorem test_decode_matrix_meld : ∀ p ∈ [(0x78002860#32, Instr.mxaccClr 5 0), (0x78032000, .mxb 3 4), (0x78000020, .mxsw),
    (0x78011040, .mxmm 1 2 0), (0x78061040, .mxmm 6 2 0), (0x78E000C1, .mxwait 7 1), (0x78084868, .mxaccOuts 8 9 0),
    (0x78410200, .mldg 2 1), (0x78032260, .mlrun 3 4 0), (0x78A000C2, .mxwait 5 2)], decodeCp p.1 0 false = .ok p.2 := by decide +kernel

theorem test_decode_block : decodeBlk 0x10DC34C51A002000 = some (.fma ⟨0x0E, ⟨true, 13, 0, 2⟩, ⟨true, 20, 1, 1⟩, 0x2000⟩) ∧
    decodeBlk 0xB01C04A000000000 = some (.pin ⟨0x0E, ⟨true, 1, 0, 1⟩, ⟨false, 0, 0, 0⟩, 0⟩) ∧
    decodeBlk 0x109C08A000008000 = some (.elemMul ⟨0x0E, ⟨true, 2, 0, 1⟩, ⟨false, 0, 0, 0⟩, 0x8000⟩) ∧
    decodeBlk 0x101C0CA000008000 = some (.elemAdd ⟨0x0E, ⟨true, 3, 0, 1⟩, ⟨false, 0, 0, 0⟩, 0x8000⟩) ∧
    decodeBlk 0xB05C000000000081 = some (.pout ⟨0x0E, ⟨false, 0, 0, 0⟩, ⟨false, 0, 0, 0⟩, 0x81⟩) := by decide +kernel

theorem test_decode_refuses : decodeCp 0 7 false = .bad 0 ∧ decodeCp 0xFFFFFFFF 7 false = .bad 1 := by decide +kernel

/-! ### Small states -/

/-- Reset with two general registers of core 0 set. -/
def at2 (x y : Word) : State := (State.reset.setReg 1 x).setReg 2 y
/-- The same in another mode: sr.status is 1 in S mode, 3 in M mode. -/
def at2m (m x y : Word) : State := (at2 x y).modCur fun k => { k with status := m }
/-- Reset with core 0 changed. -/
def with0 (f : Core → Core) : State := State.reset.modCur f

/-- General register g3 of core 0 of a result. -/
def g3 : Host.Outcome State Fault Refusal → Option Word
  | .next t => some (t.reg 3)
  | _ => none
/-- The pc of core 0 of a result. -/
def pcOf : Host.Outcome State Fault Refusal → Option Nat
  | .next t => some t.cur.pc
  | _ => none

/-! ### Single steps against the spec's rules -/

theorem test_add_wraps : g3 (exec (.add 3 1 2) (at2 0xFFFFFFFFFFFFFFFF 2)) = some 1 := by decide +kernel
theorem test_mulh_signed : g3 (exec (.mulh 3 1 2) (at2 0xFFFFFFFFFFFFFFFF 2)) = some 0xFFFFFFFFFFFFFFFF ∧
    g3 (exec (.mulhu 3 1 2) (at2 0xFFFFFFFFFFFFFFFF 2)) = some 1 := by decide +kernel
theorem test_div_corners : g3 (exec (.div 3 1 2) (at2 5 0)) = some 0xFFFFFFFFFFFFFFFF ∧
    g3 (exec (.div 3 1 2) (at2 0x8000000000000000 0xFFFFFFFFFFFFFFFF)) = some 0x8000000000000000 ∧
    g3 (exec (.rem 3 1 2) (at2 0xFFFFFFFFFFFFFFF9 2)) = some 0xFFFFFFFFFFFFFFFF := by decide +kernel
theorem test_shift_ignores_high_bits : g3 (exec (.shl 3 1 2) (at2 1 65)) = some 2 := by decide +kernel
theorem test_bins_keeps_the_rest :
    g3 (exec (.bins 3 1 2) ((at2 0xF 0x304).setReg 3 0xFF00)) = some 0xFFF0 := by decide +kernel
theorem test_bext_above_63 : g3 (exec (.bext 3 1 2) (at2 0xF000000000000000 0x3F3C)) = some 0xF := by decide +kernel
theorem test_sltiu_zero_extends : g3 (exec (.sltiu 3 1 0xFFFF) (at2 0xFFFE 0)) = some 1 ∧
    g3 (exec (.slti 3 1 0xFFFF) (at2 0xFFFE 0)) = some 0 := by decide +kernel
theorem test_lui_sign_extends : g3 (exec (.lui 3 0x8000) (at2 0 0)) = some 0xFFFFFFFF80000000 := by decide +kernel
theorem test_lix_shifts_in : g3 (exec (.lix 3 1 0x9ABCDEF0) (at2 0x12345678 0)) = some 0x123456789ABCDEF0 ∧
    pcOf (exec (.lix 3 1 0x9ABCDEF0) (at2 0x12345678 0)) = some 8 := by decide +kernel
theorem test_jalr_same_register : g3 (exec (.jalr 3 3 4) ((at2 0 0).setReg 3 0x100)) = some 4 ∧
    pcOf (exec (.jalr 3 3 4) ((at2 0 0).setReg 3 0x100)) = some 0x104 := by decide +kernel
theorem test_g0_is_discarded : (match exec (.addi 0 0 5) State.reset with | .next t => t.reg 0 | _ => 1) = 0 := by decide +kernel
theorem test_store_load : g3 (match exec (.std 1 2 0xFFF8) (at2 0x1122334455667788 0x108) with
    | .next t => exec (.ldh 3 2 0xFFFA) t | r => r) = some 0x5566 := by decide +kernel
theorem test_step_runs_the_word_placed :
    g3 (step ((at2 5 7).withFetchWord 32 0x00611001)) = some 12 := by decide +kernel
theorem test_step_runs_the_block_placed :
    (match step (State.reset.withFetchWord 64 0xB05C000000000081) with | .next t => t.focus | _ => (9, true)) = (0, false) := by
  decide +kernel
theorem test_trap_enters_class_1 : (match exec (.trap 7) (at2m 1 0 0) with
    | .next t => (t.cur.pc, t.cur.epc, t.cur.cause, t.cur.tval, t.cur.status) | _ => (0, 0, 0, 0, 0)) =
    (0x10, 4, 0x8000000000000018, 7, 0x85) := by decide +kernel


/-! ### Witnesses: states that meet the hypotheses of the statements -/

/-- Bytes put over zeros. -/
def patched (n : Nat) (ps : List (Nat × List Byte)) : List Byte :=
  ps.foldl (fun bs p => bs.take p.1 ++ p.2 ++ bs.drop (p.1 + p.2.length)) (List.replicate n 0)

/-- An image of one actor (logical core 0, actor 0, one phase) with three port records: an unbound input port 1 and output
port 16, and the mode output port 33; sections actor, port, arc and rate records. -/
def img1 : List Byte := patched 0x200 [(0x14, [4, 0, 1]), (0x18, [1, 0]), (0x100, leBytes 16 (1 + 2 ^ 32 + 0x140 * 2 ^ 64)),
  (0x110, leBytes 16 (2 + 3 * 2 ^ 32 + 0x150 * 2 ^ 64)), (0x120, leBytes 16 (3 + 0x180 * 2 ^ 64)),
  (0x130, leBytes 16 (4 + 0x180 * 2 ^ 64)), (0x144, [1, 4]), (0x150, [1, 0x0E, 4, 0, 0, 0, 0xFF, 0xFF, 0xFF, 0xFF]),
  (0x160, [16, 0x0E, 4, 0, 0, 0, 0xFF, 0xFF, 0xFF, 0xFF]), (0x170, [33, 0x0E, 4, 0, 0, 0, 0xFF, 0xFF, 0xFF, 0xFF])]

/-- Context 0 owns every quadrant. -/
def ctx0 : Ctx where
  qmask := 2 ^ 48 - 1
  inmask := 1
  egmask := 1
  supCard := 0
  supIdx := 191
  maxpri := 1
  defpri := 1
  slots := 8
  pshare := 0
  hbase := 0
  hsize := 1
  vcq := 0
  dkbase := 0
  dksize := 1
  frzbase := 0
  frzsize := 0
  supHandle := 1

/-- A running graph of context 0 on core 0. -/
def gr : Graph := { handle := 2, imageid := 7, phase := .running, img := img1, cores := [(0, 0)] }

/-- Core 0 holds that graph and is in a firing; the registers g1 and g2 hold x and y. -/
def live (m x y : Word) : State :=
  { (at2 x y).modCur fun k => { k with status := m, graph := 2, eclass := 5, run := .running, phase := 0x8000000000000000#64 } with
    ctxs := [(0, ctx0)], graphs := [(2, gr)] }

/-- That state with core 0 changed. -/
def liveWith (m x y : Word) (f : Core → Core) : State := (live m x y).modCur f

theorem wit_DivisionResults : ((at2 7 0).reg 2 = 0) ∧
    (((at2 0x8000000000000000 0xFFFFFFFFFFFFFFFF).reg 1).toInt = -(2 ^ 63) ∧
      ((at2 0x8000000000000000 0xFFFFFFFFFFFFFFFF).reg 2).toInt = -1) ∧
    ((at2 7 1).reg 2 ≠ 0 ∧ ¬(((at2 7 1).reg 1).toInt = -(2 ^ 63) ∧ ((at2 7 1).reg 2).toInt = -1)) := by decide +kernel

theorem wit_ImmediateResults : (63#16).toNat < 64 ∧ (0#16).toNat < 64 := by decide

theorem wit_BranchAndJumpTargets : ((at2 8 0).reg 1 + (4#16).signExtend 64).toNat % 4 = 0 ∧
    ((at2 8 0).reg 1 + (3#16).signExtend 64).toNat % 4 ≠ 0 := by decide +kernel

theorem wit_ComputingInstructionFrame : computedReg (.add 3 1 2) = some 3 ∧
    (∀ e a o, Instr.add 3 1 2 = .jalr e a o → ((at2 1 2).reg a + o.signExtend 64).toNat % 4 = 0) ∧
    ∃ t, exec (.add 3 1 2) (at2 1 2) = .next t := ⟨rfl, nofun, _, rfl⟩

theorem wit_DirectLoadResults : Clear (at2 0x1FFFF8 0) ∧ DirectAt (at2 0x1FFFFF 0) 0x1FFFFF 1 (winBase 0 + 0x1FFFFF) ∧
    DirectAt (at2 0x1FFFFE 0) 0x1FFFFE 2 (winBase 0 + 0x1FFFFE) ∧ DirectAt (at2 0x1FFFFC 0) 0x1FFFFC 4 (winBase 0 + 0x1FFFFC) ∧
    DirectAt (at2 0x1FFFF8 0) 0x1FFFF8 8 (winBase 0 + 0x1FFFF8) ∧
    DirectAt (live 1 0x1F0000000FF8 0) 0x1F0000000FF8 8 (replicaBase 0 + 0xFF8) ∧ 0x1F0000000FF8 % 8 = 0 :=
  ⟨by decide +kernel, .inl (by decide +kernel), .inl (by decide +kernel), .inl (by decide +kernel), .inl (by decide +kernel),
    .inr ⟨0xFF8, by decide +kernel⟩, by decide⟩

theorem wit_DirectStoreEffects : acquireHeld (at2 0x1FFFF8 0).cur = false ∧ Memory.wf (at2 0x1FFFF8 0).mem = true ∧
    (0x1FFFF8 + 8 ≤ tileSize ∧ ¬((at2m 1 0 0).cur.mode = .u ∧ (at2m 1 0 0).cur.inCode 0x1FFFF8 8 = true)) ∧
    releaseHeld (at2 0 0) 0 .dom (at2 0 0).cur.issueSeq true = false ∧
    faultedWithin (at2 0 0) 0 .dom (at2 0 0).cur.issueSeq = none := by decide +kernel

theorem wit_DirectAccessTraps : acquireHeld (at2 0 0).cur = false ∧
    (¬0x200000 < tileSize ∧ ¬(0x1F0000000000 ≤ 0x200000 ∧ 0x200000 < 0x1F0000100000)) ∧
    (0x1FFFFD < tileSize ∧ tileSize < 0x1FFFFD + 4) ∧ (0x1F0000000000 ≤ 0x1F00000FFFFD ∧ 0x1F00000FFFFD < 0x1F0000100000 ∧
      0x1F0000100000 < 0x1F00000FFFFD + 4) ∧ 0x1F00000FFFFC + 4 ≤ 0x1F0000100000 ∧
    ((with0 fun k => { k with codewin := 0x100000000 }).cur.mode = .u ∧
      (with0 fun k => { k with codewin := 0x100000000 }).cur.inCode 0xFFC 4 = true) := by decide +kernel

theorem wit_PreciseTrapEntry : (at2m 1 0 0).ecc.marks = [] ∧ (at2m 1 0 0).cur.mode ≠ .u ∧ bitAt (at2m 1 0 0).cur.status 7 = false ∧
    0x1FF < 2 ^ 9 ∧ (at2m 1 0 0).cur.pc % 4 = 0 ∧ (at2m 1 0 0).cur.pc < 2 ^ 64 := by decide +kernel

theorem wit_UserTrapHaltsGraph : (live 0 0 0).ecc.marks = [] ∧ (live 0 0 0).cur.mode = .u ∧
    (live 0 0 0).graph? (live 0 0 0).cur.graph = some gr ∧ gr.phase = .running ∧ (live 0 0 0).dump.queue.length < 64 := by
  decide +kernel

theorem wit_SoftwareTrapEntry : (at2m 3 0 0).ecc.marks = [] ∧ (at2m 3 0 0).cur.mode ≠ .u ∧ bitAt (at2m 3 0 0).cur.status 7 = false ∧
    (at2m 3 0 0).cur.pc % 4 = 0 ∧ (at2m 3 0 0).cur.pc + 4 < 2 ^ 64 := by decide +kernel

theorem wit_FrontEndTraps : majorOf 0x7C000000#32 ≠ 0x3F ∧ majorOf 0xFC000002#32 = 0x3F ∧ (5#9 ≠ 1 ∧ 5#9 ≠ 4) ∧ (0x026#9 ≠ 0x164) ∧
    (at2m 3 0 0).cur.mode ≠ .u ∧ (at2 0 0).cur.mode = .u := by
  decide +kernel

def eretAt (status epc : Word) : State := with0 fun k => { k with status := status, epc := epc, codewin := 0x100000000 }

theorem wit_EretReturns : (eretAt 0x80 0).cur.mode = .u ∧ ((eretAt 1 0).cur.mode ≠ .u ∧ bitAt (eretAt 1 0).cur.status 7 = false) ∧
    ((eretAt 0x81 0x1000).cur.mode ≠ .u ∧ bitAt (eretAt 0x81 0x1000).cur.status 7 = true ∧
      ¬(0x1000 < (eretAt 0x81 0x1000).cur.codeBase + (eretAt 0x81 0x1000).cur.codeSize)) ∧
    ((eretAt 0x81 0xFFC).cur.mode ≠ .u ∧ bitAt (eretAt 0x81 0xFFC).cur.status 7 = true ∧ (eretAt 0x81 0xFFC).cur.codeBase ≤ 0xFFC ∧
      0xFFC < (eretAt 0x81 0xFFC).cur.codeBase + (eretAt 0x81 0xFFC).cur.codeSize) := by decide +kernel

theorem wit_PrivilegedCommands : (at2m 0 0 0).cur.mode = .u ∧ (at2m 1 0 0).cur.mode ≠ .m := by decide +kernel

/-- Core 0 of the live graph with queue entry 0 as given. -/
def entry0 (e : QEntry) : State := liveWith 1 0 0 fun k => { k.setEntry 0 e with issueSeq := 1 }

theorem wit_FencesAndNop : releaseHeld (at2 0 0) 0 .core (at2 0 0).cur.issueSeq true = false ∧
    releaseHeld (entry0 { busy := true, storeType := true, op := .access .stq, dest := .phys 0, bytes := 8 }) 0 .dom 1 true = true := by
  decide +kernel

theorem wit_EventFlag : ((with0 fun k => { k with event := true }).cur.event = true ∧
      (with0 fun k => { k with event := true }).cur.wfe = false) ∧
    (State.reset.cur.event = false ∧ State.reset.cur.wfe = false) ∧
    ((with0 fun k => { k with wfe := true }).cur.wfe = true ∧ (with0 fun k => { k with wfe := true }).cur.woken = false) ∧
    (with0 fun k => { k with wfe := true, woken := true }).cur.woken = true := by decide +kernel

theorem wit_HaltStopsCp : ((entry0 { busy := true }).cur.mode ≠ .u ∧
      fld ((entry0 { busy := true }).sysReg 0 0x7C3) 15 0 ≠ 0) ∧
    ((at2m 1 0 0).cur.mode ≠ .u ∧ fld ((at2m 1 0 0).sysReg 0 0x7C3) 15 0 = 0 ∧ (at2m 1 0 0).graph? (at2m 1 0 0).cur.graph = none ∧
      (at2m 1 0 0).mgmt.length < 4096 ∧ (at2m 1 0 0).mgmtLost = 0) := by decide +kernel

theorem wit_SystemRegisterAccess : srReadable 0x700 .s = true ∧ srReadable 0x700 .u = false ∧ srWritableAtAll 0x7C4 = false ∧
    (srWritableAtAll 0x7C2 = true ∧ srWritable 0x7C2 .s = false) ∧ (at2m 1 0 0).cur.mode ≠ .u ∧
    (fld (0x8#64) 3 2 = 2) ∧ Mode.rank (modeOfCode (fld (0x4#64) 3 2)) ≤ Mode.rank Mode.s ∧
    (fld (0xC#64) 3 2 ≠ 2 ∧ Mode.rank Mode.s < Mode.rank (modeOfCode (fld (0xC#64) 3 2))) := by decide +kernel

/-- Context 0 with one range entry: every access, pages 0 to 0xFFF, to HBM4 from 0. -/
def ctxM : Ctx := { ctx0 with ranges := [(0, [0xF000000000000000, 0xFFF000, 0, 0])] }
/-- A state whose context 0 has that entry. -/
def mapped (s : State) : State := { s with ctxs := [(0, ctxM)] }
/-- Context 0 with one range entry: every access, pages 0 to 0xFFF, to package 1. -/
def mappedFar (s : State) : State := { s with
  ctxs := [(0, { ctx0 with ranges := [(0, [0xF000000000000000, 0xFFF000, 2 ^ 45, 0])] })]
  links := { pkgSet := true, routes := [1], inbox := [⟨0, 64, 0, 5⟩] } }

theorem wit_QueuedAccess : (acquireHeld (live 0 0xFFFFFFFFFFF8 0).cur = false ∧ (live 0 0xFFFFFFFFFFF8 0).cur.mode ≠ .m ∧
      ((live 0 0xFFFFFFFFFFF8 0).cur.entry 15).busy = false ∧ ((live 0 0xFFFFFFFFFFF8 0).reg 1).toNat < 2 ^ 48 ∧
      ((live 0 0xFFFFFFFFFFF8 0).reg 1).toNat % widthBytes .double = 0 ∧ ((live 0 0xFFFFFFFFFFF8 0).reg 1).toNat % awidthBytes .double = 0) ∧
    ((match issueSpan (mapped (live 0 8 0)) ⟨.ldq, 8, 8, 0, 0, 0, .rlx, .core⟩ with
        | some t => !(t.away (mapped (live 0 8 0)) 8 8) && linkFault (mapped (live 0 8 0)) 8 8 t == none
        | none => false) = true ∧
      (match issueSpan (mappedFar (live 0 8 0)) ⟨.ldq, 8, 8, 0, 0, 0, .rlx, .core⟩ with
        | some t => t.away (mappedFar (live 0 8 0)) 8 8 && linkFault (mappedFar (live 0 8 0)) 8 8 t == none &&
            linkFault { mappedFar (live 0 8 0) with links := {} } 8 8 t == some 0x113
        | none => false) = true) ∧
    ((entry0 { busy := true }).cur.entry 0).busy = true ∧ (2 ^ 48 ≤ ((live 0 0x1000000000000 0).reg 1).toNat) ∧
    ((live 3 0x200000000000000 0).cur.mode = .m ∧ 2 ^ 57 ≤ ((live 3 0x200000000000000 0).reg 1).toNat) ∧
    ((live 0 4 0).reg 1).toNat % awidthBytes .double ≠ 0 := by decide +kernel

theorem wit_QueueWaitsAndPops : ((live 0 0 0).cur.entry 0).busy = false ∧
    (((entry0 { busy := true }).cur.entry 0).busy = true ∧ ((entry0 { busy := true }).cur.entry 0).storeType = false ∧
      ((entry0 { busy := true }).cur.entry 0).done = false) ∧
    (((entry0 { busy := true, done := true }).cur.entry 0).done = true ∧ ((entry0 { busy := true, done := true }).cur.entry 0).fault = 0) ∧
    (((entry0 { busy := true, storeType := true, released := true }).cur.entry 0).released = true) ∧
    (((entry0 { busy := true, done := true, fault := 0x20, storeType := true }).cur.entry 0).fault ≠ 0 ∧
      ((entry0 { busy := true, done := true, fault := 0x20, storeType := true }).cur.entry 0).ack = false) ∧
    ((entry0 { busy := true, done := true, fault := 0x20, ack := true }).cur.entry 0).ack = true := by decide +kernel

/-- The opaque block library and defect map are the only part of GLOAD's and GSTV's hypotheses no state can show. -/
theorem wit_GridCommands : Clear (live 0 3 0) ∧ ((live 0 3 0).reg 1).toNat < 2 ^ 16 ∧ loadPending (live 0 3 0).cur.grid = false ∧
    (live 0 3 0).cur.grid.armed = false ∧ (live 0 3 0).cur.grid.queue.length < 4 ∧
    (liveWith 0 3 0 fun k => { k with grid := { k.grid with sh := { k.grid.sh with valid := true } } }).cur.grid.sh.valid = true ∧
    (liveWith 0 3 0 fun k => { k with grid := { k.grid with lstate := 1, loading := 3 } }).cur.grid.queue.length < 4 ∧
    loadPending (liveWith 0 3 0 fun k => { k with grid := { k.grid with lstate := 1, loading := 3 } }).cur.grid = true ∧
    (live 0 3 0).cur.infire = true ∧ ¬((at2 0 0).cur.mode ≠ .u ∨ (at2 0 0).cur.infire = true) ∧
    4 ≤ (liveWith 0 3 0 fun k => { k with grid := { k.grid with queue := [.go, .go, .go, .go] } }).cur.grid.queue.length ∧
    (OperandOk ((live 0 0x1FFF00 127).reg 1).toNat 256 64 ∧ fld ((live 0 0x1FFF00 127).reg 2) 63 7 = 0 ∧
      gridBusy (live 0 0x1FFF00 127).cur.grid = false) := by decide +kernel


/-- Core 0 with bytes in its tile SRAM. -/
def tiled (s : State) (off : Nat) (bs : List Byte) : State := s.setTile 0 off bs

/-- The doubles of a stream descriptor of 256 bytes of type 0x0E between queued address a and tile SRAM offset l. -/
def sdesc (a l : Nat) : List Word := [BitVec.ofNat 64 a, BitVec.ofNat 64 (2 ^ 62 + 0x0E * 2 ^ 48 + l), 256 * 2 ^ 32, 0, 0, 0, 0, 0]
/-- Those of a copy from a to d. -/
def cdesc (a d : Nat) : List Word := [BitVec.ofNat 64 a, 0, 256 * 2 ^ 32, 0, 0, 0, 0, 0].set 6 (BitVec.ofNat 64 d)

theorem wit_StreamCommandIssue : Clear (live 0 0x1FFFC0 0) ∧ OperandOk ((live 0 0x1FFFC0 0).reg 1).toNat 64 64 ∧
    (∀ f ∈ streamFaults (live 0 0 0) (newStream (live 0 0 0) 0 1 (sdesc 0xFFFFFFFFFF00 0x1FFF00)), f = none) ∧
    (∀ f ∈ streamFaults (live 0 0 0) (newStream (live 0 0 0) 1 0 (sdesc 0 0)), f = none) ∧
    (∀ f ∈ streamFaults (live 0 0 0) (newStream (live 0 0 0) 2 0 (cdesc 0 0x1000)), f = none) ∧
    ((live 0 0 0).cur.engine 3).queue.length < 8 := by decide +kernel

theorem wit_StreamSettingsAndWaits : (OperandOk 0x1FFFD0 48 16 ∧ fld (0xF#64) 63 4 = 0 ∧ chainBad [256, 0, 0, 0, 0, 0] 15 = false ∧
      chainBusy (live 0 0 0).cur 7 (chainOf [256, 0, 0, 0, 0, 0] 15) = false ∧ fld (256#64) 63 35 = 0) ∧
    (fld (0x3F01#64) 63 14 = 0 ∧ fld (0x3F01#64) 7 2 = 0 ∧ fld (0x3F01#64) 1 0 < 2) ∧
    ((live 3 0 0).cur.mode = .m ∧ fld (2#64) 1 0 = 2) ∧
    (let s := liveWith 0 0 0 fun k => k.setEngine 0 { issued := 2, released := 1, visible := 1 }
     fld (1#64) 63 42 = 0 ∧ fld (1#64) 39 33 = 0 ∧ fld (1#64) 41 40 ≠ 3 ∧ fld (1#64) 31 0 < (s.cur.engine (ticketEngine 1)).issued ∧
      streamReached (s.cur.engine 0) 0 false = true ∧ streamReached (s.cur.engine 0) 0 true = true) := by decide +kernel

/-- The live state with the port table of core 0 reading unbound for port p of actor 0. -/
def unbound (m x y p : Nat) : State := setPortIndex (live m x y) 0 0 p 0xFF

/-- The image of a window descriptor of input port 1 at base 0x8000, 4 places of 4 bytes, type 0x0E. -/
def wdesc : List Byte := leBytes 8 (2 ^ 63 + 0x0E * 2 ^ 48 + 4 * 2 ^ 32 + 0x8000) ++ leBytes 8 4 ++ List.replicate 48 0

theorem wit_RingWindowCommands :
    (let s := unbound 1 0x0101 0x1FFFC0 1
     Clear s ∧ s.cur.mode ≠ .u ∧ fld (s.reg 1) 63 16 = 0 ∧ OperandOk (s.reg 2).toNat 64 64 ∧ fld (s.reg 1) 7 0 < 64 ∧
      (s.cur.desc 1).valid = false ∧ portUnbound s 0 0 1 = true ∧ descUnlike s 0 0 1 (descOfImage wdesc) = false ∧
      windowFault s.cur 1 (descOfImage wdesc) = none) ∧
    (let s := liveWith 1 63 0 fun k => { k with descs := [(63, { d0 := 0x8000000000000000, att := true })] }
     fld (s.reg 1) 63 8 = 0 ∧ (s.cur.desc 63).valid = true ∧ (s.cur.desc 63).att = true) ∧
    (fld (64#64) 63 8 = 0 ∧ 64 ≤ fld (64#64) 7 0) := by decide +kernel

theorem wit_FiringEnds : (Clear (at2 0 0) ∧ (at2 0 0).cur.infire = false) ∧
    ((live 0 0 0).cur.infire = true ∧ (live 0 0 0).cur.grid.held = false ∧ gangSkew (live 0 0 0) 0 = false ∧
      firingSettled (live 0 0 0).cur = true ∧ gangPending (live 0 0 0) 0 = false ∧ shortPort (live 0 0 0) 0 0 = none ∧
      shortPort (live 0 0 0) 0 16 = none) ∧
    firingSettled (liveWith 0 0 0 fun k => { k with grid := { k.grid with goes := 1 } }).cur = false ∧
    ((live 0 0 0).graph? (live 0 0 0).cur.graph = some gr ∧ gr.phase = .running ∧ (live 0 0 0).dump.queue.length < 64) := by
  decide +kernel

theorem wit_ModeCommands : (Clear (live 0 0xFFFFFFFF 0) ∧ fld ((live 0 0xFFFFFFFF 0).reg 1) 63 32 = 0 ∧
      (portRecOf (live 0 0 0) 0 (live 0 0 0).cur.actorNo 33).isSome = true ∧ (live 0 0 0).cur.infire = true ∧
      (live 0 0 0).cur.modeSent = false ∧ (live 0 0 0).graph? (live 0 0 0).cur.graph = some gr ∧ gr.modeCtl.waiting.length < 4 ∧
      gr.srcDrained = false) ∧
    4 ≤ ({ waiting := List.replicate 4 (0, 0, 0) } : ModeCtl).waiting.length ∧ (liveWith 0 0 0 fun k => { k with modeSent := true }).cur.modeSent = true ∧
    (live 0 0 0).cur.modeTok = none ∧ (liveWith 0 0 0 fun k => { k with modeTok := some 1 }).cur.modeRes = none ∧
    (liveWith 0 0 0 fun k => { k with modeTok := some 1, modeRes := some 9 }).cur.modeRes = some 9 := by decide +kernel

theorem wit_LaunchesAndBarriers : (acquireHeld (live 0 9 0).cur = false ∧ fld ((live 0 9 3).reg 2) 63 28 = 0 ∧
      fld ((live 0 9 3).reg 2) 15 3 = 0 ∧ ((live 0 9 3).cur.entry 0).busy = false ∧ bitAt ((live 0 9 3).reg 2) 2 = false) ∧
    (let s := { live 0 2 0 with graphs := [(2, { gr with phase := .retired })] }
     fld (s.reg 1) 63 44 = 0 ∧ s.ctxOf 0 = some (fld (s.reg 1) 31 28) ∧ fld (s.reg 1) 43 32 = s.links.pkg ∧
      (launchOutcome s 0 2).isSome = true) ∧ launchOutcome (live 0 2 0) 0 2 = none ∧
    (fld (1#64) 63 2 = 0 ∧ fld (1#64) 1 0 ≠ 0 ∧ 192 ≤ barLimit (Machine.scopeOf (fld (1#64) 1 0)) ∧
      (barKeys 7 0).findSome? (barInst gr) = none) ∧
    (NMap.getD ({} : CoreBar) (live 0 0 0).cur.bars 0).inited = false ∧
    (let s := liveWith 0 (2 * 2 ^ 48) 0 fun k => { k with bars := [(0, { inited := true, p := 2, arrivals := 16 })] }
     (NMap.getD ({} : CoreBar) s.cur.bars 0).inited = true ∧ ¬(16 < barPhases s 0 0 + 16) ∧ fld (s.reg 1) 55 48 = s.cur.graph % 256 ∧
      phaseDone s (s.reg 1) = false) ∧
    (let s := { liveWith 0 (2 * 2 ^ 48) 0 fun k => { k with bars := [(0, { inited := true, p := 2 })] } with
        graphs := [(2, { gr with barriers := [(barKey 0 .card 0, { scope := .card, p := 2, c := 1 })] })] }
     0 < barPhases s 0 0 + 16 ∧ phaseDone s (s.reg 1) = true) := by decide +kernel

/-- The live state with a window slot of card 0 granted to context 0. -/
def slotted (m x y : Word) : State := { live m x y with deck := { calendar := [(0, 0x80200000)] } }

theorem wit_DeckCommands :
    (let s := slotted 0 0xFF8 (8 * 2 ^ 32 + 0x1FFFF8)
     Clear s ∧ fld (s.reg 2) 63 45 = 0 ∧ fld (s.reg 2) 31 21 = 0 ∧ 0 < fld (s.reg 2) 44 32 ∧ deckRangeOk s 0 s.cur.mode 0xFF8 8 = true ∧
      hasWindowSlot s 0 = true ∧ fld (s.reg 2) 20 0 + 8 ≤ tileSize ∧ s.cur.deckq.length < 16 ∧ (s.cur.entry 15).busy = false ∧
      0xFF8 % 8 = 0 ∧ s.cur.deckq = [] ∧ s.cur.deckOut = 0) ∧
    (deckRangeOk (slotted 0 0 0) 0 .u 0xFF4 8 = true ∧ 0xFF4 % 8 ≠ 0) ∧
    (liveWith 0 0 0 fun k => { k with deckq := [{ atomic := false, card := 0, index := 0, ctx := 0, off := 0, bytes := [1] }] }).cur.deckq ≠ [] ∧
    (liveWith 0 0 0 fun k => { k with deckOut := 1 }).cur.deckOut ≠ 0 ∧
    (let s := (slotted 0 0xFF8 (8 * 2 ^ 32 + 0x1FFFF8)).modCur fun k => { k with deckq := List.replicate 16 { atomic := false, card := 0, index := 0, ctx := 0, off := 0, bytes := [1] } }
     Clear s ∧ 16 ≤ s.cur.deckq.length ∧ deckRangeOk s 0 s.cur.mode 0xFF8 8 = true ∧ hasWindowSlot s 0 = true) := by
  decide +kernel

theorem wit_RngCommands : acquireHeld (live 1 0x1FFFF0 0).cur = false ∧ rngBound (live 1 0 0).cur 7 = false ∧
    ((live 1 0 0).cur.rng 7).ctr ≠ BitVec.allOnes 128 ∧ OperandOk ((live 1 0x1FFFF0 0).reg 1).toNat 16 16 ∧ (live 1 0 0).cur.mode ≠ .u ∧
    (let s := liveWith 0 0 0 fun k => { k with grid := { k.grid with act := { valid := true, words := [wordBlk 0x383 ⟨0x1D, ⟨false, 0, 0, 0⟩, ⟨false, 0, 0, 0⟩, 0⟩] } } }
     rngBound s.cur 0 = true) ∧
    ((liveWith 0 0 0 fun k => { k with rngs := [(7, { ctr := BitVec.allOnes 128 })] }).cur.rng 7).ctr = BitVec.allOnes 128 := by
  decide +kernel

theorem wit_AppendCommands : Clear (live 0 0x1FFFE0 0) ∧ OperandOk ((live 0 0x1FFFE0 0).reg 1).toNat 32 16 ∧
    regionBad [0x200000000, 0x200100000, 0x10000000100, 1] = false ∧ (region (live 0 0 0) 0).set = false ∧
    (let s := liveWith 0 2 0 fun k => { k with appends := [(0, { set := true, base := 16, capRows := 9, rowBytes := 256, len := 5, tlen := 7, mpos := 5 })] }
     (region s 0).set = true ∧ (region s 0).tlen ≠ (region s 0).capRows ∧ OperandOk 0x1FFF00 256 16 ∧
      ((region s 0).queue.filter fun w => !w.isLen).length < 4 ∧ (s.reg 1).toNat ≤ (region s 0).tlen - (region s 0).mpos) ∧
    (let s := liveWith 0 3 0 fun k => { k with appends := [(0, { set := true, tlen := 7, mpos := 5 })] }
     (region s 0).tlen - (region s 0).mpos < (s.reg 1).toNat) := by decide +kernel

/-- The live state with one COPY on element site 3 of core 0, linked at slot 0, and n breakpoints armed there. -/
def broken (m x y : Word) (n : Nat) : State := liveWith m x y fun k => { k with
  grid := { k.grid with act := { valid := true, words := [wordBlk 4 ⟨0x0E, ⟨true, 0, 0, 0⟩, ⟨false, 0, 0, 0⟩, 0⟩], place := [3] } }
  breaks := List.replicate n { elem := true, sub := 0, link := 3, ordinal := 0 } }

theorem wit_CutAndBreakpointCommands :
    (acquireHeld (live 1 0 0).cur = false ∧ (live 1 0 0).reg 1 = 0 ∧ (live 1 0 0).graph? (live 1 0 0).cur.graph = some gr ∧
      (live 1 0 0).ctxOf 0 = some ((live 1 0 0).cur.graph / 2 ^ 28) ∧ gr.supervisor = false ∧ gr.phase = .running) ∧
    (let s := { live 1 2 0 with graphs := [(2, { gr with cutSince := some 0 })] }
     s.cur.mode ≠ .u ∧ (s.reg 1).toNat < 2 ^ 32 ∧ s.graph? (s.reg 1).toNat = some { gr with cutSince := some 0 } ∧
      s.ctxOf 0 = some ((s.reg 1).toNat / 2 ^ 28)) ∧
    (let s := broken 1 0x8003 0 3
     linkReserved (s.reg 1) (s.reg 2) = false ∧ linkCoreBad s (s.reg 1) = false ∧
      linkActive s (linkCore (s.reg 1)) (breakOf (s.reg 1) (s.reg 2)) = true ∧ (s.core (linkCore (s.reg 1))).breaks.length < 4 ∧
      fld (s.reg 1) 63 28 = 0) ∧
    4 ≤ ((broken 1 0x8003 0 4).core (linkCore ((broken 1 0x8003 0 4).reg 1))).breaks.length := by decide +kernel

theorem wit_StatsWritesRecords : OperandOk ((live 1 0x1FE800 0).reg 1).toNat 6144 16 ∧
    ¬((live 1 0x1FE800 0).cur.mode = .u ∧ (live 1 0x1FE800 0).cur.inCode 0x1FE800 6144 = true) ∧
    Memory.wf (live 1 0x1FE800 0).mem = true := by decide +kernel

theorem wit_FreezeGrantAndQuote : (Clear (live 1 2 0) ∧ ((live 1 2 0).cur.entry 15).busy = false ∧ (live 1 2 0).cur.mode ≠ .u ∧
      ((live 1 2 0).reg 1).toNat < 2 ^ 32 ∧ freezeDenied (live 1 2 0) 2 = false ∧ (live 1 2 0).graph? 2 = some gr ∧ gr.phase = .running) ∧
    (let s := { live 1 2 0 with graphs := [(2, { gr with phase := .frozen, held := true })] }
     freezeDenied s 2 = false ∧ s.graph? 2 = some { gr with phase := .frozen, held := true } ∧ State.earlierDone s.cur s.cur.issueSeq = true) ∧
    (islandDenied (live 1 0 0) 59 = false ∧ islandDenied (live 1 0 0) 63 = false) ∧
    (OperandOk 0x1FFFE0 32 32 ∧ OperandOk (0x200000 - 752) 752 16 ∧ (live 3 0 0).cur.mode = .m) := by decide +kernel

/-- The MXB word y: 4 k-groups, type 0x02, column stride 32. -/
theorem wit_MatrixCommandIssue :
    (acquireHeld (live 1 0 0).cur = false ∧ MatrixFree (live 1 0 0).cur ∧
      bWordReserved 0x0000002000000203 false = false ∧ bWordBad 0x0000002000000203 false = false ∧
      OperandOk 0x1000 (64 * fld (0x0000002000000203#64) 52 32) 16 ∧
      mulReserved 0x00000002000E0703 = false ∧ aTypeBad 0x00000002000E0703 = false) ∧
    (let k := (liveWith 1 0 0 fun k => { k with matrix := { k.matrix with loading := { valid := true, kg := 4 }, active := { valid := true, kg := 16 }, banks := [(0, { mode := 2 })] } }).cur
     (mxView k).loading.1 = true ∧ (mxView k).active.1 = true ∧ mulModeBad (mxView k) 0 0x00000002000E0703 = false ∧
      mulOff 0x00000002000E0703 + wordKg 0x00000002000E0703 ≤ (mxView k).active.2.1 ∧ OperandOk 0x1000 (aBytes 0x00000002000E0703) 16) ∧
    (fld (0#64) 63 32 = 0 ∧ fld (0#64) 15 2 = 0 ∧ fld (0#64) 1 0 ≠ 3) ∧
    (outReserved 0x0E = false ∧ outBad 0x0E 0 false = false ∧ (live 1 0 0).cur.inCode 0x1000 (32 * vecBytes 0x0E) = false ∧
      (live 1 0 0).cur.inWindow 0x1000 (32 * vecBytes 0x0E) = false ∧ OperandOk 0x1000 (32 * vecBytes 0x0E) 16) ∧
    (mxIdle (live 1 0 0) 0 3 = true ∧ (live 1 0 0).ecc.marks = []) := by decide +kernel

theorem wit_MatrixCommandChecks : ((at2 0 0).cur.eclass ≠ 4 ∧ (at2 0 0).cur.eclass ≠ 5) ∧
    ((live 1 0 0).cur.eclass = 5 ∧ (mxView (live 1 0 0).cur).gang = false ∧ (mxView (live 1 0 0).cur).loading.1 = false ∧
      (mxView (live 1 0 0).cur).active.1 = false) ∧
    (bWordReserved 0x0000002000000403 false = false ∧ bWordBad 0x0000002000000403 false = true) := by decide +kernel


/-- A computation with a result. -/
def isOk {a : Type} : Except Nat a → Bool
  | .ok _ => true
  | .error _ => false
theorem ok_of {a : Type} {x : Except Nat a} (h : isOk x = true) : ∃ v, x = .ok v := by cases x with
  | ok v => exact ⟨v, rfl⟩
  | error _ => cases h

theorem wit_MatrixExecution :
    (let s := liveWith 0 0 0 fun k => { k with matrix := { k.matrix with queue := [⟨.mxsw, 0, 0, [], 0, false⟩] } }
     engineOk (s.core 0) = true ∧ s.ecc.marks = [] ∧ (s.core 0).matrix.queue = ⟨.mxsw, 0, 0, [], 0, false⟩ :: [] ∧ Memory.wf s.mem = true) ∧
    (∃ cols, allValues ((List.range 64).map fun j => packedValues 0x01 (8 * wordKg 0x2000000100)
      (((List.replicate 2048 (0 : Byte)).drop (j * 32)).take (columnBytes 0x01 (8 * wordKg 0x2000000100)))) = .ok cols) ∧
    bitAt (0x0E#64) 13 = false ∧ sortGen (List.replicate 8 0x0000000200000000) = true :=
  ⟨by decide +kernel, ok_of (by decide +kernel), by decide, by decide⟩

/-- The record of the smallest meld graph: one input node and one tap, digit count 8, at tile SRAM 0x1000. -/
def meldRecord : List Byte := leBytes 2 2 ++ leBytes 2 1 ++ leBytes 2 1 ++ leBytes 1 8 ++ List.replicate 9 0 ++
  leBytes 8 0x2000000000240000 ++ leBytes 8 0x8000000000280000

/-- Which meld nodes are fused off is open: that the core has nodes enough is the one hypothesis no state can show. -/
theorem wit_MeldCommandIssue :
    (let s := tiled (live 0 0x1000 0) 0x1000 meldRecord
     acquireHeld s.cur = false ∧ recordFault s 0 0x1000 = none ∧ s.cur.eclass = 5 ∧ s.ecc.marks = []) ∧
    (let s := live 0 0 0
     NMap.find s.cur.meld.graphs 0 = none ∧ recordFault s 0 0x2000 = none ∧ meldFault s.cur 0 (recordAt s 0 0x2000) = some 0x0ED) ∧
    (let k := (liveWith 0 0x1000 0 fun k => { k with meld := { k.meld with graphs := [(15, ⟨1, 1, 8, [0], 0, false⟩)] } }).cur
     NMap.find k.meld.graphs 15 = some ⟨1, 1, 8, [0], 0, false⟩ ∧ k.meld.queue.length < 8 ∧ fld (63#64) 63 6 = 0 ∧
      runReserved 0x0006000004020001 = false ∧ runBad 0x0006000004020001 = false ∧ bitAt (0x0006000004020001#64) 33 = false ∧
      bitAt (0x0006000004020001#64) 32 = false ∧ OperandOk (fld (0x0006000004020001#64) 56 36) 16 16 ∧
      k.inCode (fld (0x0006000004020001#64) 56 36) 16 = false ∧ k.inWindow (fld (0x0006000004020001#64) 56 36) 16 = false) := by
  decide +kernel

theorem wit_MeldExecution :
    (let s := liveWith 0 0 0 fun k => { k with meld := { k.meld with queue := [.run 0 0 0 0 0], graphs := [(0, ⟨1, 1, 8, [0], 0, false⟩)] } }
     engineOk (s.core 0) = true ∧ s.ecc.marks = [] ∧ (s.core 0).meld.queue = .run 0 0 0 0 0 :: [] ∧
      NMap.find (s.core 0).meld.graphs 0 = some ⟨1, 1, 8, [0], 0, false⟩ ∧ bitAt (0#64) 33 = false) ∧
    (∃ e ins, vectorDigits 0x01 [[5]] 1 = .ok (e, ins)) ∧ (∃ f, vectorDigits 0x1B [List.replicate 64 0xFF] 1 = .error f) :=
  ⟨by decide +kernel, ⟨_, _, rfl⟩, ⟨_, rfl⟩⟩

/-! Elements: an element without targets, so that nothing waits at its outputs. -/

/-- A block instruction without targets. -/
def blk (t : BitVec 5) (m : BitVec 25) : Blk := ⟨t, ⟨false, 0, 0, 0⟩, ⟨false, 0, 0, 0⟩, m⟩
/-- Core 0 with one element of an opcode, items at its slots, and what it keeps. -/
def el (op : BitVec 10) (b : Blk) (ls : NMap (List Item)) (e : Elem) : State := liveWith 0 0 0 fun k => { k with
  grid := { k.grid with act := { valid := true, words := [wordBlk op b], place := [0] }, links := ls, elems := [(0, e)] } }
/-- A token of 64 bytes. -/
def t1 : Item := .data (List.replicate 64 1)
/-- A token of 64 words. -/
def t4 : Item := .data (List.replicate 256 1)
/-- An end-of-tile mark. -/
def eot : Item := .ctl (mkCtl 2 0 0)

theorem one_token {op : BitVec 10} {b : Blk} {ls : NMap (List Item)} {e : Elem} {n : Nat} {i : Item}
    (h : TokenAt (el op b ls e) (el op b ls e) n i) : TokensAt (el op b ls e) (el op b ls e) [n] [i] := ⟨i, [], rfl, h, rfl⟩

theorem wit_ElementArithmetic :
    (let b := blk 0x0E 0
     let s := el 0x040 b [(0, [t4]), (1, [t4])] {}
     ElemFree s s b ∧ eType b ≠ 0x1C ∧ slotsOf 0x040 (bMod b) = [0, 1] ∧ TokensAt s s [0, 1] [t4, t4] ∧
      ∃ us f2, srWords (popAll s (siteOf s) [0, 1]) 0 b 16 = .ok (us, f2)) ∧
    (let b := blk 0x0E 0x1000000
     let s := (el 0x040 b [(0, [t4]), (1, [t4])] {}).modCur fun k => { k with rngs := [(0, { ctr := BitVec.allOnes 128 })] }
     ElemFree s s b ∧ TokensAt s s [0, 1] [t4, t4] ∧ ∃ c, srWords (popAll s (siteOf s) [0, 1]) 0 b 16 = .error c) ∧
    (let b := blk 0x1C 0
     let w := List.replicate 1024 (0 : Byte) ++ List.replicate 64 0
     let s := el 0x040 b [(0, [.data w]), (1, [.data w])] {}
     ElemFree s s b ∧ selOf (bMod b) 0 = 0 ∧ selOf (bMod b) 1 = 0 ∧ TokensAt s s [0, 1] [.data w, .data w] ∧
      ∃ e, tailExp 0x1C w = some e) :=
  ⟨⟨⟨rfl, by decide +kernel, rfl, rfl, rfl⟩, by decide, by decide, ⟨_, _, rfl, ⟨rfl, rfl, rfl, rfl⟩, _, _, rfl, ⟨rfl, rfl, rfl, rfl⟩, rfl⟩,
      _, _, rfl⟩,
    ⟨⟨rfl, by decide +kernel, rfl, rfl, rfl⟩, ⟨_, _, rfl, ⟨rfl, rfl, rfl, rfl⟩, _, _, rfl, ⟨rfl, rfl, rfl, rfl⟩, rfl⟩, _, rfl⟩,
    ⟨⟨rfl, by decide +kernel, rfl, rfl, rfl⟩, by decide, by decide, ⟨_, _, rfl, ⟨rfl, rfl, rfl, rfl⟩, _, _, rfl, ⟨rfl, rfl, rfl, rfl⟩, rfl⟩,
      Option.isSome_iff_exists.mp (by decide +kernel)⟩⟩

theorem wit_ElementLogic :
    (let b := blk 0x04 0
     let s := el 0x0C3 b [(0, [t4]), (1, [t4]), (2, [t1])] {}
     ElemFree s s b ∧ slotsOf 0x0C3 (bMod b) = [0, 1, 2] ∧ TokensAt s s [0, 1, 2] [t4, t4, t1]) :=
  ⟨⟨rfl, by decide +kernel, rfl, rfl, rfl⟩, by decide, _, _, rfl, ⟨rfl, rfl, rfl, rfl⟩, _, _, rfl, ⟨rfl, rfl, rfl, rfl⟩, _, _, rfl,
    ⟨rfl, rfl, rfl, rfl⟩, rfl⟩

theorem wit_ElementConversions :
    (let b := blk 0x0E 0x01
     let s := el 0x140 b [(0, [t1])] {}
     ElemFree s s b ∧ TokensAt s s [0] [t1] ∧ (∃ vs, decodeToken (srcType b) (itemBytes t1) = .ok vs) ∧
      (nanScaled (srcType b) (itemBytes t1) && lacksNan (eType b) && !(bStat b)) = false ∧
      (∃ us f2, srWords (popAll s (siteOf s) [0]) 0 b 16 = .ok (us, f2))) ∧
    (∃ ns, planeNumbers 0x01 4 (itemBytes t1) = .ok ns) ∧
    (∃ vs, decodeToken 0x15 (List.replicate 66 0xFF) = .ok vs) ∧
    (nanScaled 0x15 (List.replicate 66 0xFF) && lacksNan 0x04 && !(bStat (blk 0x04 0x15))) = true :=
  ⟨⟨⟨rfl, by decide +kernel, rfl, rfl, rfl⟩, one_token ⟨rfl, rfl, rfl, rfl⟩, ok_of (by decide +kernel), by decide +kernel, _, _, rfl⟩,
    ok_of (by decide +kernel), ok_of (by decide +kernel),
    by decide +kernel⟩


theorem wit_ElementReductions :
    (let b := blk 0x0C 0x40000
     let s := el 0x180 b [(0, [t4])] {}
     ElemFree s s b ∧ TokensAt s s [0] [t4] ∧ accOn b = true ∧ ((popAll s (siteOf s) [0]).elem (siteOf s)).held = [] ∧
      eType b ≠ 0x1C ∧ ∃ us f2, srWords (popAll s (siteOf s) [0]) 0 b 16 = .ok (us, f2)) ∧
    (let b := blk 0x0C 0x40000
     let s := el 0x180 b [(0, [eot])] { held := [1] }
     ElemFree s s b ∧ accOn b = true ∧ (s.elem (siteOf s)).held ≠ [] ∧ MarkAt s s 0 (mkCtl 2 0 0) ∧ ctlKind (mkCtl 2 0 0) = 2 ∧
      markReady s (siteOf s) (bStat b) (mkCtl 2 0 0) = true) ∧
    (let s := el 0x184 (blk 0x04 0) [(0, [t4]), (1, [t1])] {}
     ElemFree s s (blk 0x04 0) ∧ isBlock 0x04 = false ∧ TokensAt s s [0, 1] [t4, t1]) :=
  ⟨⟨⟨rfl, by decide +kernel, rfl, rfl, rfl⟩, one_token ⟨rfl, rfl, rfl, rfl⟩, by decide, rfl, by decide, _, _, rfl⟩,
    ⟨⟨rfl, by decide +kernel, rfl, rfl, rfl⟩, by decide, by decide +kernel, ⟨rfl, by decide +kernel, by decide +kernel⟩, by decide +kernel,
      by decide +kernel⟩,
    ⟨rfl, by decide +kernel, rfl, rfl, rfl⟩, by decide, _, _, rfl, ⟨rfl, rfl, rfl, rfl⟩, _, _, rfl, ⟨rfl, rfl, rfl, rfl⟩, rfl⟩

theorem wit_ElementMarks :
    (let b := blk 0x0E 0
     let s := el 0x040 b [(0, [eot]), (1, [eot])] {}
     ElemFree s s b ∧ slotsOf 0x040 (bMod b) = [0, 1] ∧ MarkAt s s 0 (mkCtl 2 0 0) ∧ MarkAt s s 1 (mkCtl 2 0 0) ∧
      markReady s (siteOf s) (bStat b) (mkCtl 2 0 0) = true) ∧
    (let b := blk 0x0E 0
     let s := (el 0x040 b [(0, [markItem 3]), (1, [markItem 3])] {}).modCur fun k => { k with grid := { k.grid with armed := true } }
     MarkAt s s 0 (mkCtl 3 0 0) ∧ markReady s (siteOf s) false (mkCtl 3 0 0) = false) ∧
    (let s := el 0x040 (blk 0x0E 0) [(0, [eot]), (1, [t4])] {}
     MarkAt s s 0 (mkCtl 2 0 0) ∧ TokenAt s s 1 t4) ∧
    (let s := el 0x040 (blk 0x0E 0) [(0, [eodItem 0]), (1, [eodItem 1])] {}
     MarkAt s s 0 (mkCtl 6 0 0) ∧ MarkAt s s 1 (mkCtl 6 1 0) ∧ ctlLevel (mkCtl 6 1 0) ≠ ctlLevel (mkCtl 6 0 0)) :=
  ⟨⟨⟨rfl, by decide +kernel, rfl, rfl, rfl⟩, by decide, ⟨rfl, by decide +kernel, by decide +kernel⟩,
      ⟨rfl, by decide +kernel, by decide +kernel⟩, by decide +kernel⟩,
    ⟨⟨rfl, by decide +kernel, by decide +kernel⟩, by decide +kernel⟩,
    ⟨⟨rfl, by decide +kernel, by decide +kernel⟩, rfl, rfl, rfl, rfl⟩,
    ⟨rfl, by decide +kernel, by decide +kernel⟩, ⟨rfl, by decide +kernel, by decide +kernel⟩, by decide⟩

theorem wit_ElementFlow :
    (let b := blk 0x04 0x001
     let s := el 0x340 b [(0, [t4])] {}
     ElemFree s s b ∧ TokensAt s s [0] [t4] ∧ 0 < bitsOf (bMod b) 11 0 ∧ (s.elem (siteOf s)).cnt + 1 = bitsOf (bMod b) 11 0) ∧
    bitsOf (bMod (blk 0x04 0xFFF)) 11 0 = 4095 ∧
    (let s := el 0x342 (blk 0x04 0) [(0, [eot])] { phase := 1, held := [1] }
     (s.elem (siteOf s)).phase = 1 ∧ head? s (siteOf s) 0 = some eot ∧ itemBad eot = false ∧ asMark eot ≠ none) ∧
    (let s := el 0x002 (blk 0x04 0) [(3, [goToken 0])] {}
     ElemFree s s (blk 0x04 0) ∧ TokensAt s s [3] [.ctl (mkCtl 0 0 0)] ∧ (blk 0x04 0).t1.slot ≠ 3) ∧
    (let s := el 0x1C1 (blk 0x04 0) [(0, [t4])] {}
     head? s (siteOf s) 3 = none ∧ TokensAt s s [0] [t4]) ∧
    (let s := el 0x200 (blk 0x04 0) [(0, [t4]), (1, [t1]), (2, [t1])] {}
     TokensAt s s [0, 1] [t4, t1] ∧ TokensAt s s [2] [t1] ∧ lane0 t1 = true) ∧
    (let s := el 0x202 (blk 0x04 0) [(1, [t4]), (2, [.data (List.replicate 64 0)])] { phase := 1, cnt := 2 ^ 32 - 2 }
     lane0 (.data (List.replicate 64 0)) = false ∧ (s.elem (siteOf s)).phase = 1 ∧ (s.elem (siteOf s)).cnt + 1 < 2 ^ 32 ∧
      TokensAt s s [1] [t4]) ∧
    (let s := el 0x202 (blk 0x04 0) [(2, [.data (List.replicate 64 0)])] { phase := 1 }
     head? s (siteOf s) 1 = none) ∧
    (let s := el 0x202 (blk 0x04 0) [(0, [t4])] {}
     (s.elem (siteOf s)).phase = 0 ∧ TokensAt s s [0] [t4] ∧ head? s (siteOf s) 1 = none ∧ head? s (siteOf s) 2 = none) :=
  ⟨⟨⟨rfl, by decide +kernel, rfl, rfl, rfl⟩, one_token ⟨rfl, rfl, rfl, rfl⟩, by decide, by decide +kernel⟩, by decide,
    ⟨rfl, rfl, rfl, by decide +kernel⟩,
    ⟨⟨rfl, by decide +kernel, rfl, rfl, rfl⟩, one_token ⟨rfl, by decide +kernel, by decide +kernel, rfl⟩, by decide⟩,
    ⟨rfl, one_token ⟨rfl, rfl, rfl, rfl⟩⟩,
    ⟨⟨_, _, rfl, ⟨rfl, rfl, rfl, rfl⟩, _, _, rfl, ⟨rfl, rfl, rfl, rfl⟩, rfl⟩, one_token ⟨rfl, rfl, rfl, rfl⟩, by decide +kernel⟩,
    ⟨by decide +kernel, rfl, by decide +kernel, one_token ⟨rfl, rfl, rfl, rfl⟩⟩, rfl, rfl, one_token ⟨rfl, rfl, rfl, rfl⟩, rfl, rfl⟩

theorem wit_ElementLoops :
    (let b := blk 0x04 0
     let s := (el 0x240 b [(3, [goToken 7])] {}).write (statKey 0 0 false) ((List.range 64).map fun l => if l % 4 = 3 then (1 : Byte) else 0)
     ElemFree s s b ∧ (s.elem (siteOf s)).phase = 0 ∧ TokensAt s s [3] [.ctl (mkCtl 0 0 7)] ∧ ctlKind (mkCtl 0 0 7) = 0 ∧
      (bMod b).testBit 24 = false ∧
      (∀ k ∈ (((statLanes s 0 (physAt s (siteOf s))).drop 0).take (ndimOf b)).map (sgn 32), 0 < k ∧ k ≤ 2 ^ 24) ∧
      (∀ k ∈ (((statLanes s 0 (physAt s (siteOf s))).drop 12).take (ndimOf b)).map (sgn 32), 0 < k ∧ k ≤ 2 ^ 24)) ∧
    (bMod (blk 0x04 0x1000000)).testBit 24 = true ∧
    (let s := el 0x240 (blk 0x04 0) [] { phase := 1, bounds := [2, 2], index := [0, 0] }
     (s.elem (siteOf s)).phase = 1 ∧ atLast (s.elem (siteOf s)).bounds (s.elem (siteOf s)).index = 0) ∧
    atLast [2, 2] [1, 0] = 1 ∧ atLast [2, 2] [1, 1] = 2 := by
  refine ⟨⟨⟨rfl, by decide +kernel, rfl, rfl, rfl⟩, rfl, one_token ⟨rfl, by decide +kernel, by decide +kernel, rfl⟩, by decide +kernel, by decide,
    by decide +kernel, by decide +kernel⟩, by decide, ⟨rfl, by decide +kernel⟩, by decide, by decide⟩

theorem wit_ControllerElements :
    (let b := blk 0x1F 3
     let s := el 0x300 b [] { goQ := 1 }
     s = flush s (siteOf s) b ∧ elemOk s (siteOf s) = true ∧ (s.elem (siteOf s)).items = [] ∧ (s.elem (siteOf s)).phase = 0 ∧
      0 < (s.elem (siteOf s)).goQ ∧ bitsOf (bMod b) 13 0 ≠ 0) ∧
    mayStart 0 [⟨1, none, []⟩, ⟨2, none, []⟩] { cnt := 1, kids := [(1, 1), (0, 0)] } 1 = true ∧
    mayStart 1 [⟨1, none, []⟩, ⟨2, none, []⟩] { cnt := 1, kids := [(1, 0), (0, 0)] } 1 = true :=
  ⟨⟨rfl, by decide +kernel, rfl, rfl, by decide +kernel, by decide⟩, by decide +kernel, by decide +kernel⟩

/-- An address token. -/
def at0 (a : Nat) : Item := addressToken a
/-- A range is reached in this package by request q, no refusal, no kitty and no stale replica in its way, and read without error. -/
def pieced (s : State) (r : Reach) (c q : Nat) : Bool :=
  match r with
  | .ok ps => (refusedMeanwhile s c q).isNone && decide (kittyFirst s ps = none) && !(staleReplica s c ps) && decide (farBytes s ps = 0) && isOk (readPieces c ps [] s).1
  | _ => false
/-- The range of a memory element. -/
def reached (s : State) (b : Blk) (va n : Nat) (ld st : Bool) : Bool :=
  pieced s (elemReach s (siteOf s) b va n ld st) 0 (elemQ (siteOf s))
/-- A range is reached in another package. -/
def reachedFar (s : State) (b : Blk) (va n : Nat) (ld st : Bool) : Bool :=
  match elemReach s (siteOf s) b va n ld st with
  | .ok ps => (refusedMeanwhile s 0 (elemQ (siteOf s))).isNone && decide (kittyFirst s ps = none) && !(staleReplica s 0 ps) && decide (farBytes s ps ≠ 0) &&
      isOk (readPieces 0 ps (leBytes (farBytes s ps) 5) s).1
  | _ => false

theorem wit_MemoryElements :
    (let b := blk 0x0C 0
     let s := mapped (el 0x280 b [(0, [at0 0xFFFF00])] {})
     ElemFree s s b ∧ TokensAt s s [0] [at0 0xFFFF00] ∧ reached s b 0xFFFF00 256 true false = true) ∧
    (let b := blk 0x0C 0
     let s := mapped (el 0x281 b [(0, [at0 0]), (1, [t4])] {})
     TokensAt s s [0, 1] [at0 0, t4] ∧ reached s b 0 256 false true = true) ∧
    (let b := blk 0x0C 0
     let s := mappedFar (el 0x281 b [(0, [at0 0]), (1, [t4])] {})
     ElemFree s s b ∧ TokensAt s s [0, 1] [at0 0, t4] ∧ TokensAt s s [0] [at0 0] ∧ reachedFar s b 0 256 false true = true ∧
      reachedFar s b 0 256 true false = true ∧
      s.links.inbox.find? (fun o => o.core == s.turn && o.q == elemQ (siteOf s)) = some ⟨0, elemQ ⟨0, 0, false⟩, 0, 5⟩) ∧
    (let b := blk 0x04 0
     let s := mapped (el 0x282 b [(0, [at0 0x1000]), (1, [t4])] {})
     (bMod b).testBit 12 = false ∧ TokensAt s s [0, 1] [at0 0x1000, t4] ∧ 0x1000 % 4 = 0 ∧
      matomOp (eType b) (bitsOf (bMod b) 11 8) = some .aadd ∧
      (match matomAll s (siteOf s) b ((List.range 64).map fun l => (l, (0x1000 + 4 * l) % 2 ^ 64)) with
        | .ok ps => pieced s (.ok ps) 0 (elemQ (siteOf s)) && isOk (matomRun s.turn .aadd (tokenFields 0x04 (itemBytes t4))
            (((List.range 64).zip ps).map fun p => (p.1, p.2.1)) [] s).1
        | _ => false) = true) ∧
    (∃ c, elemReach (live 0 0 0) ⟨0, 0, false⟩ (blk 0x0C 0) 0 256 true false = .fault c) :=
  ⟨⟨⟨rfl, by decide +kernel, rfl, rfl, rfl⟩, one_token ⟨rfl, rfl, rfl, rfl⟩, by decide +kernel⟩,
    ⟨⟨_, _, rfl, ⟨rfl, rfl, rfl, rfl⟩, _, _, rfl, ⟨rfl, rfl, rfl, rfl⟩, rfl⟩, by decide +kernel⟩,
    ⟨⟨rfl, by decide +kernel, rfl, rfl, rfl⟩, ⟨_, _, rfl, ⟨rfl, rfl, rfl, rfl⟩, _, _, rfl, ⟨rfl, rfl, rfl, rfl⟩, rfl⟩,
      one_token ⟨rfl, rfl, rfl, rfl⟩, by decide +kernel⟩,
    ⟨by decide, ⟨_, _, rfl, ⟨rfl, rfl, rfl, rfl⟩, _, _, rfl, ⟨rfl, rfl, rfl, rfl⟩, rfl⟩, by decide, by decide, by decide +kernel⟩, 0x030,
    by decide +kernel⟩

/-- The element of the live graph with window descriptor 2 serving a port of actor 0. -/
def ported (op : BitVec 10) (b : Blk) (ls : NMap (List Item)) (e : Elem) (p : Nat) (d : WinDesc) : State :=
  setPortIndex ((el op b ls e).modCur fun k => { k with descs := [(2, d)] }) 0 0 p 2

theorem wit_PortElements :
    (let b := blk 0x0E (0x3F * 8)
     let s := (el 0x2C0 b [] {}).setChan 0 0 [t4]
     ElemFree s s b ∧ s.ecc.marks = [] ∧ (s.elem (siteOf s)).items = [] ∧ (s.core 0).grid.draining = false ∧ pinChan b = some 0 ∧
      s.chan 0 0 = [t4] ∧ itemBad t4 = false ∧ asMark t4 = none) ∧
    (let b := blk 0x0E (1 * 8)
     let s := ported 0x2C0 b [] {} 1 { d0 := 0x8000000400008000, d1 := 4, wr := 4 }
     pinChan b = none ∧ ownsPort s 0 (aportOf b) = true ∧ planeGone (s.core 0).grid false = true ∧ (s.core 0).infire = true ∧
      portDesc s 0 (s.core 0).actorNo 1 = some 2 ∧ 0 < ((s.core 0).desc 2).occ ∧ portBreak (s.core 0) 0 1 = none) ∧
    (let b := blk 0x0E (16 * 8)
     let s := ported 0x2C1 b [(0, [t4])] {} 16 { d0 := 0xC000000400008000, d1 := 4 }
     TokensAt s s [0] [t4] ∧ poutChan b = none ∧ portDesc s 0 (s.core 0).actorNo 16 = some 2 ∧
      ((s.core 0).desc 2).tsize ≤ ((s.elem (siteOf s)).held ++ itemBytes t4).length ∧ portBreak (s.core 0) 0 16 = none) ∧
    poutChan (blk 0x0E (0x3F * 8)) = some 8 :=
  ⟨⟨⟨rfl, by decide +kernel, rfl, rfl, rfl⟩, rfl, rfl, rfl, by decide, rfl, rfl, rfl⟩, by decide +kernel,
    ⟨one_token ⟨rfl, rfl, rfl, rfl⟩, by decide, by decide +kernel, by decide +kernel, rfl⟩, by decide⟩

theorem wit_SelectionElements :
    (let b := blk 0x0C 0x40
     let s := el 0x380 b [(0, [t4])] {}
     ElemFree s s b ∧ TokensAt s s [0] [t4] ∧ (bMod b).testBit 6 = true ∧
      (s.elem (siteOf s)).cnt + (tokenFields (eType b) (itemBytes t4)).length ≤ 2 ^ 24 ∧
      (tokenFields (eType b) (itemBytes t4)).length = 64 ∧ smplRes b = false ∧ (s.elem (siteOf s)).items.length + 64 ≤ 2 ^ 20 ∧
      (tokenFields 0x1D (itemBytes t4)).getD 2 0 ≠ 0 ∧ (tokenFields 0x1D (itemBytes t4)).getD 6 0 ≠ 0 ∧
      isOk (drawOnce (popAll s (siteOf s) [0]) 0 (bSrs b)) = true ∧ isOk (drawMany (popAll s (siteOf s) [0]) 0 (bSrs b) 16) = true) ∧
    (let b := blk 0x0C 0x40
     let s := el 0x380 b [(0, [eot])] {}
     slotsOf 0x380 (bMod b) = [0] ∧ MarkAt s s 0 (mkCtl 2 0 0) ∧ markReady s (siteOf s) (bStat b) (mkCtl 2 0 0) = true) ∧
    (let b := blk 0x0C 0
     let s := (el 0x381 b [(0, [eot])] { items := [(0, 0)] }).write (statKey 0 0 false) [0, 0, 0x80, 0x3F]
     slotsOf 0x381 (bMod b) = [0] ∧ MarkAt s s 0 (mkCtl 2 0 0) ∧ (smplClose b (siteOf s) (popAll s (siteOf s) [0])).2 = true) ∧
    (let s := liveWith 0 0 0 fun k => { k with grid := { k.grid with
        act := { valid := true, words := [wordBlk 0x040 (blk 0x0E 0x1000), wordBlk 0x3C0 (blk 0x1D 0)], place := [0, 1] }
        elems := [(0, { statq := [(0, [[1]])] })] } }
     statSources (planeOf (s.core 0).grid false) = [0] ∧
      (statSources (planeOf (s.core 0).grid false)).filterMap (fun n => (NMap.getD [] (s.elem (siteOf s)).statq n).head?) = [[1]]) :=
  ⟨⟨⟨rfl, by decide +kernel, rfl, rfl, rfl⟩, one_token ⟨rfl, rfl, rfl, rfl⟩, by decide +kernel⟩,
    ⟨by decide, ⟨rfl, by decide +kernel, by decide +kernel⟩, by decide +kernel⟩,
    ⟨by decide, ⟨rfl, by decide +kernel, by decide +kernel⟩, by decide +kernel⟩, by decide +kernel⟩


/-! Events. -/

/-- The live state with core 0's grid changed. -/
def gridded (f : Grid → Grid) : State := liveWith 0 0 0 fun k => { k with grid := f k.grid }
/-- An element that needs no input. -/
def wGen : Word := wordBlk 0x301 (blk 0x1F 3)
/-- A mark element and a COPY. -/
def wMark : Word := wordBlk 0x004 (blk 0x0E 0)
/-- An element of two inputs. -/
def wAdd : Word := wordBlk 0x040 (blk 0x0E 0)

/-- The block library is open: that it holds the block loaded is the one hypothesis of GLOAD_COMPLETE no state can show. -/
theorem wit_GridEvents :
    (let s := el 0x004 (blk 0x0E 0) [(0, [eot])] {}
     (planeOf (s.core 0).grid false).words[0]? = some (wordBlk 0x004 (blk 0x0E 0)) ∧ wOp (wordBlk 0x004 (blk 0x0E 0)) = 0x004 ∧
      head? s ⟨0, 0, false⟩ 0 = some (.ctl (mkCtl 2 0 0)) ∧ asMark (.ctl (mkCtl 2 0 0)) = some (mkCtl 2 0 0) ∧
      ElemFree { s with turn := 0, focus := (0, false) } s (Blk.ofWord (wordBlk 0x004 (blk 0x0E 0))) ∧
      MarkAt { s with turn := 0, focus := (0, false) } s 0 (mkCtl 2 0 0) ∧ markReady s ⟨0, 0, false⟩ false (mkCtl 2 0 0) = true) ∧
    (let s := gridded fun g => { g with armed := true, sh := { valid := true }, act := { valid := true, words := [wGen] } }
     let g := (s.core 0).grid
     g.armed = true ∧ g.sh.valid = true ∧ 0 < g.act.words.length ∧ unmarked (g.act.words.getD 0 0) = true ∧
      (∀ j, j < g.act.words.length → unmarked (g.act.words.getD j 0) = false → (s.elem ⟨0, j, false⟩).gone = true) ∧
      idleAt g false 0 = true ∧ coreMoves (s.core 0) = true ∧ (s.core 0).cut = false) ∧
    (let s := gridded fun g => { g with draining := true }
     (s.core 0).grid.draining = true ∧ coreMoves (s.core 0) = true ∧ (s.core 0).cut = false ∧ strayLink s 0 = none ∧ gridDrained s 0 = true) ∧
    (let s := gridded fun g => { g with draining := true, act := { valid := true, words := [wMark] }, links := [(0, [t4])] }
     strayLink s 0 = none ∧ gridDrained s 0 = false) ∧
    (let s := gridded fun g => { g with draining := true, act := { valid := true, words := [wMark] }, links := [(0, [t4])], elems := [(0, { passed := [0] })] }
     strayLink s 0 = some (0, 0)) ∧
    coreMoves ((liveWith 0 0 0 fun k => { k with run := .frozen }).core 0) = false ∧
    (let s := gridded fun g => { g with lstate := 1, loading := 3 }
     (s.core 0).grid.lstate = 1 ∧ coreMoves (s.core 0) = true ∧ (s.core 0).cut = false ∧ s.ecc.marks = [] ∧ (s.core 0).grid.queue = []) ∧
    (let s := gridded fun g => { g with act := { valid := true, words := [wMark] }, links := [(0, [t4])], elems := [(0, { since := some 0 })] }
     let s := { s with graphs := [(2, { gr with gtime := 5 * 1000000000 })] }
     waitedSecond s ⟨0, 0, false⟩ = true ∧ partialSet s ⟨0, 0, false⟩ = false) ∧
    (let s := gridded fun g => { g with act := { valid := true, words := [wAdd] }, links := [(0, [t4])], elems := [(0, { since := some 0 })] }
     let s := { s with graphs := [(2, { gr with gtime := 5 * 1000000000 })] }
     let x : Site := ⟨0, 0, false⟩
     wOp (wordAt s x) ≠ 0x2C0 ∧ wOp (wordAt s x) ≠ 0x2C1 ∧ waitedSecond s x = true ∧ partialSet s x = true ∧
      (linkedSlots (wordAt s x)).find? (fun n => (head? s x n).isSome) = some 0) ∧
    (let s := gridded fun g => { g with act := { valid := true, words := [wordBlk 0x2C0 (blk 0x0E 8)] }, elems := [(0, { since := some 0 })] }
     let s := { s with graphs := [(2, { gr with gtime := 5 * 1000000000 })] }
     portWaited s ⟨0, 0, false⟩ = true ∧ wOp (wordAt s ⟨0, 0, false⟩) = 0x2C0 ∧
      portWaited { s with graphs := [(2, gr)] } ⟨0, 0, false⟩ = false) := by
  refine ⟨⟨rfl, by decide, rfl, by decide +kernel, ⟨rfl, by decide +kernel, rfl, rfl, rfl⟩, ⟨rfl, by decide +kernel, by decide +kernel⟩,
    by decide +kernel⟩, by decide +kernel⟩

theorem wit_GloadFails (s : State) (h : s.ecc.marks = [(libraryPlace s 0 (s.core 0).grid.loading, true)]) :
    s.ueAt (libraryPlace s 0 (s.core 0).grid.loading) 4096 = some (libraryPlace s 0 (s.core 0).grid.loading) := by
  have : touchesWord (libraryPlace s 0 (s.core 0).grid.loading) 4096 (libraryPlace s 0 (s.core 0).grid.loading) = true := by
    unfold touchesWord protectedWord; split <;> simp <;> omega
  simp [State.ueAt, h, minOf, this]


/-- The live state between firings with a sequencer region of one entry (actor 0, phase 0, routine 0x100), rate n at input
port 1, its window descriptor 0 as given. -/
def seqAt (n : Nat) (d : WinDesc) : State :=
  let b := winBase 0 + 0x700000
  (((((liveWith 0 0 0 fun k => { k with run := .betweenFirings, phase := 0, descs := [(0, d)] }).write b (leBytes 8 0x8000000000000000)).write
    (b + 0x100) (leBytes 8 0x100 ++ leBytes 8 1 ++ List.replicate 48 0xFF)).write (b + 0x111) [0]).write
    (b + 0x1000) (leBytes 4 0x80000000)).write (b + 0x2000 + 2) (leBytes 2 n)

/-- With a rate at an output port instead, whose descriptor 0 has the room given. -/
def fullAt (n : Nat) (d : WinDesc) : State :=
  setPortIndex (((seqAt 0 {}).modCur fun k => { k with descs := [(0, d)] }).write (winBase 0 + 0x702020) (leBytes 2 n)) 0 0 16 0

theorem wit_FiringEvents :
    (let s := seqAt 1 { d0 := 0x8000000400008000, d1 := 4, wr := 1 }
     sequencing s 0 = true ∧ headEntry s 0 = some ((0, 0), 0x80000000) ∧ s.ecc.marks = [] ∧ mayBegin (s.core 0) 0 = true ∧
      (∀ q, q < 16 → rateOf s 0 0 (s.core 0).rset 0 q ≤ tokensAt s 0 0 q) ∧
      (∀ q, 16 ≤ q → q < 32 → rateOf s 0 0 (s.core 0).rset 0 q ≠ 0 → spaceFor s 0 0 q (rateOf s 0 0 (s.core 0).rset 0 q) = true)) ∧
    (let s := seqAt 2 { d0 := 0x8000000400008000, d1 := 4, wr := 1 }
     headEntry s 0 = some ((0, 0), 0x80000000) ∧ tokensAt s 0 0 1 < rateOf s 0 0 (s.core 0).rset 0 1) ∧
    (let s := fullAt 1 { d0 := 0xC000000400008000, d1 := 4, wr := 4 }
     sequencing s 0 = true ∧ headEntry s 0 = some ((0, 0), 0x80000000) ∧ s.ecc.marks = [] ∧ rateOf s 0 0 (s.core 0).rset 0 16 ≠ 0 ∧
      spaceFor s 0 0 16 (rateOf s 0 0 (s.core 0).rset 0 16) = false) ∧
    (let s := seqAt 2 { d0 := 0x8000000400008000, d1 := 4, wr := 1, d4 := 0x8000000000000000 }
     sequencing s 0 = true ∧ headEntry s 0 = some ((0, 0), 0x80000000) ∧ 0 ∉ (s.core 0).drainedActors ∧
      (∀ q, q < 16 → rateOf s 0 0 (s.core 0).rset 0 q ≠ 0 → drainAt s 0 0 q = true) ∧
      tokensAt s 0 0 1 < rateOf s 0 0 (s.core 0).rset 0 1 ∧ drainHeld s 0 0 = false ∧ s.graph? (s.core 0).graph = some gr ∧
      actorIndex s 0 0 = some 0 ∧ (sinkList s gr.img).contains 0 = false) := by decide +kernel

/-- An image that spans packages: img1 with its flag. -/
def imgX : List Byte := (patched 0x200 [(7, [2])]).zipWith (· ||| ·) img1
/-- Which package its one logical package is, is open. -/
def pkgX : Nat := Config.packageOf imgX 0
theorem packagesOf_imgX : packagesOf imgX = [pkgX] := by
  simp [packagesOf, pkgX, show actorRecs imgX = [actorRec imgX 0] by decide +kernel, show (actorRec imgX 0).lpkg = 0 by decide +kernel, List.eraseDups_cons]
/-- A state of a package other than that one. -/
def apart (s : State) : State := { s with links := { s.links with pkg := pkgX + 1 } }
theorem otherPackages_apart (s : State) (g : Graph) (h : g.img = imgX) : otherPackages (apart s) g = [pkgX] := by
  simp [otherPackages, h, packagesOf_imgX, apart, show spans imgX = true by decide +kernel]

/-- The live graph with a mode switch at a step; core 0 between firings with the sequencer's mode state. -/
def switching (step tok : Nat) (q : SeqMode) (ds : NMap WinDesc) (g : Graph := gr) : State :=
  { (liveWith 0 0 0 fun k => { k with run := .betweenFirings, phase := 0, seqMode := q, descs := ds }) with
    graphs := [(2, { g with modeCtl := { step := step, waiting := [(tok, 1, 0)] } })] }

theorem wit_ModeEvents :
    (let s := switching 0 1 {} []
     ∃ g, s.graph? (2#32).toNat = some g ∧ g.phase = .running ∧ g.modeCtl.waiting = (1, 1, 0) :: [] ∧ g.cutSince = none ∧ g.modeCtl.step = 0 ∧
      g.coord = none ∧ releaseHeld s (1 - 1) .deck 0 false = false ∧ nSets g.img ≤ 1 % 8 ∧ 8 % 8 < nSets g.img ∧ otherPackages s g = []) ∧
    (let s := apart (switching 0 8 {} [] { gr with img := imgX })
     ∃ g, s.graph? (2#32).toNat = some g ∧ g.phase = .running ∧ g.modeCtl.waiting = (8, 1, 0) :: [] ∧ g.cutSince = none ∧ g.modeCtl.step = 0 ∧
      g.coord = none ∧ 8 % 8 < nSets g.img ∧ otherPackages s g ≠ []) ∧
    (let s := switching 4 0 { holding := true, target := some 0 } []
     let s1 := s.modCore 0 fun k => { k with seqMode := { k.seqMode with stopped := true } }
     ∃ g, s.graph? (2#32).toNat = some g ∧ (s.core 0).graph = (2#32).toNat ∧ (s.core 0).seqMode.target = some 0 ∧ periodDone s 0 0 = true ∧
      quiescent s1 2 g = true ∧ windowsAnte s1 2 = true ∧ g.coord = none ∧ otherPackages s g = []) ∧
    (let s := apart (switching 4 0 { holding := true, target := some 0 } [] { gr with img := imgX })
     let s1 := s.modCore 0 fun k => { k with seqMode := { k.seqMode with stopped := true } }
     ∃ g, s.graph? (2#32).toNat = some g ∧ periodDone s 0 0 = true ∧ quiescent s1 2 g = true ∧ windowsAnte s1 2 = true ∧
      pkgX ∈ otherPackages s g ∧ g.peers.stopped = []) ∧
    (let s := switching 4 0 { holding := true, target := some 0 } [(0, { d0 := 0x8000000400008000, d1 := 4, wr := 1 })]
     windowsAnte (s.modCore 0 fun k => { k with seqMode := { k.seqMode with stopped := true } }) 2 = false) ∧
    (let s := (switching 4 0 { holding := true, target := some 0 } []).modCore 0 fun k =>
      { k with outMsgs := [{ desc := 0, wrptr := 1, bytes := [], marks := [], drain := true }] }
     ∃ g, s.graph? 2 = some g ∧ periodDone s 0 0 = true ∧
      quiescent (s.modCore 0 fun k => { k with seqMode := { k.seqMode with stopped := true } }) 2 g = false) ∧
    (∀ t, let g := { gr with img := imgX, gtime := t, modeCtl := { step := 4 }, peers := { stopped := [(pkgX + 1, 1)] } }
     spans g.img = true ∧ g.coord = none ∧
      (packagesOf g.img).filter (fun p => !(g.peers.stopped.any fun x => x.1 == p)) = [pkgX] ∧
      (t = 50000001 → nanos 10000000 ≤ g.gtime ∧ ∀ x, x ∈ g.peers.stopped → x.2 + nanos 10000000 ≤ g.gtime) ∧
      (t = 50000000 → ∃ x, x ∈ g.peers.stopped ∧ g.gtime < x.2 + nanos 10000000)) := by
  refine ⟨⟨_, rfl, by decide +kernel⟩, ⟨_, rfl, by decide +kernel, rfl, by decide +kernel, by decide +kernel, by decide +kernel, by decide +kernel, ?_⟩, ⟨_, rfl, by decide +kernel⟩,
    ⟨_, rfl, by decide +kernel, by decide +kernel, by decide +kernel, ?_, by decide +kernel⟩, by decide +kernel, ⟨_, rfl, by decide +kernel⟩, fun t => ?_⟩
  · rw [otherPackages_apart _ _ rfl]; simp
  · rw [otherPackages_apart _ _ rfl]; simp
  · refine ⟨show spans imgX = true by decide +kernel, rfl, ?_, ?_, ?_⟩
    · show (packagesOf imgX).filter _ = _
      rw [packagesOf_imgX]; simp
    · rintro rfl; simp [nanos]
    · rintro rfl; simp [nanos]

/-- Core 0's output descriptor 0 and core 1's input descriptor 3, joined: 4 places of 4 words at 0x8000. -/
def joined (m : PtrMsg) (wr : Word) : State :=
  ((live 0 0 0).modCore 0 fun k => { k with outMsgs := [m], descs := [(0, { d0 := 0xC00E000400008000, d1 := 0x000010C000000010 })] }).modCore 1
    fun k => { k with graph := 2, run := .running, power := .running, descs := [(3, { d0 := 0x800E000400008000, d1 := 16, wr := wr })]
                      mirrors := [⟨3, 2, 0, 0⟩] }

/-- A request of core 7 of package 3. -/
def req (op : QOp) : RemoteMsg := { pkg := 3, ctx := 1, core := 7, seq := 9, addr := 0x7FFFFFFFF8, op := op, bytes := 8, data := 5, cmp := 0 }
/-- The live state, whose links let that range through and hold a channel from core 0's descriptor 1 to its descriptor 0. -/
def linked (retr : Nat) (up : Nat := 2 ^ 23) : State := { (liveWith 0 0 0 fun k => { k with descs := [(0, { d0 := 0x800E000400008000, d1 := 0x8000000000050004 }),
    (1, { d0 := 0xC00E000400009000, d1 := 0x8000000000050004, wr := 3, rd := 1 })] }) with
  links := { imports := [⟨3, 1, 0x7FFFFFFFF8, 0x8000000000⟩], retrain := retr, retrainSince := [(23, 0)]
             channels := [(5, { graph := 2, arc := 0, vcs := [(23, 0)], core := 0, desc := 1 })], via := [(3, [23])], up := up }
  time := 50000000 }

theorem wit_PointerEvents :
    (let m : PtrMsg := { desc := 0, wrptr := 1, bytes := List.replicate 16 1, marks := [], drain := false }
     let s := joined m 0
     let k := s.core 0
     let x := k.desc 0
     let y := (s.core (peerCore 0 x)).desc x.pdesc
     coreMoves k = true ∧ peerCore 0 x = 1 ∧ coreMoves (s.core 1) = true ∧ s.ctxOf 1 = s.ctxOf 0 ∧
      k.outMsgs.find? (fun m => m.desc == 0) = some m ∧ s.ecc.marks = [] ∧ Memory.wf s.mem = true ∧
      releaseHeld s 0 (sendScope s 0 0) m.seq false = false ∧ (s.core 1).power = .running ∧ (shareAt s 0 0).size = 1 ∧ y.valid = true ∧
      y.isOut = false ∧ y.pkind = 0 ∧ peerCore 1 y = 0 ∧ y.wr.toNat ≤ m.wrptr ∧ m.wrptr ≤ y.rd.toNat + y.cap ∧ x.tcode = y.tcode ∧
      m.bytes.length = y.tsize) ∧
    (let m : PtrMsg := { desc := 0, wrptr := 5, bytes := List.replicate 16 1, marks := [], drain := false }
     let y := ((joined m 0).core 1).desc 3
     y.rd.toNat + y.cap < m.wrptr) ∧
    (let s := joined { desc := 0, wrptr := 1, bytes := [], marks := [], drain := true } 2
     let x := (s.core 1).desc 3
     coreMoves (s.core 1) = true ∧ (s.core 1).mirrors.find? (fun m => m.desc == 3) = some ⟨3, 2, 0, 0⟩ ∧ readsHeld s 1 0 = false ∧ x.pkind = 0 ∧
      peerCore 1 x = 0 ∧ ((s.core 0).desc x.pdesc).valid = true ∧ ((s.core 0).desc x.pdesc).isOut = true ∧ (shareAt s 0 x.pdesc).size = 1) ∧
    (let s := (joined { desc := 0, wrptr := 1, bytes := [], marks := [], drain := true } 2).modCore 1 fun k =>
      { k.setEntry 0 { busy := true, addr := 0, bytes := 8 } with mirrors := [⟨3, 2, 1, 0⟩] }
     (s.core 1).mirrors.find? (fun m => m.desc == 3) = some ⟨3, 2, 1, 0⟩ ∧ readsHeld s 1 1 = true) ∧
    (let s := (linked 0).modCore 0 fun k => { k with mirrors := [⟨0, 2, 0, 0⟩] }
     let x := (s.core 0).desc 0
     coreMoves (s.core 0) = true ∧ (s.core 0).mirrors.find? (fun m => m.desc == 0) = some ⟨0, 2, 0, 0⟩ ∧ readsHeld s 0 0 = false ∧ x.pkind = 2 ∧
      (shareAt s 0 0).size = 1 ∧ (NMap.find s.links.channels x.stream).map (channelUp s) = some true) := by
  decide +kernel

/-- An image of a memory actor, record 0, and a core actor on logical core 0, record 1, each with one port record, and their arc,
of 4 places; one token a firing. -/
def imgM (sink : Bool) : List Byte := patched 0x200 [(0x14, [4, 0, 1]), (0x18, [2, 0, 1, 0]), (0x100, leBytes 16 (1 + 2 * 2 ^ 32 + 0x140 * 2 ^ 64)),
  (0x110, leBytes 16 (2 + 2 * 2 ^ 32 + 0x160 * 2 ^ 64)), (0x120, leBytes 16 (3 + 2 ^ 32 + 0x180 * 2 ^ 64)),
  (0x130, leBytes 16 (4 + 2 ^ 32 + 0x190 * 2 ^ 64 + 0x40 * 2 ^ 96)), (0x140, [0, 0x10, 0, 0, 1]), (0x154, [1]),
  (0x160, [if sink then 0 else 16, 0x0E, 4, 0, 0, 0, 0, 0, 0xFF, 0xFF]), (0x170, [if sink then 16 else 0, 0x0E, 4, 0, 1, 0, 0, 0, 0xFF, 0xFF]),
  (0x180, if sink then [1, 0, 0, 0, 0, 0, 4, 0] else [0, 0, 1, 0, 0, 0, 4, 0]), (0x190, [1]), (0x1B0, [1])]

/-- A memory actor, record 0 of the live graph, on deck stream 5, which core 0's descriptor 0 hears. -/
def memAct (sink : Bool) (a : MemActor) : State :=
  mapped { (liveWith 0 0 0 fun k => { k with descs := [(0, { d0 := 0x800E000400008000, d1 := 0xC000000000050004 })] }) with
    graphs := [(2, { gr with img := imgM sink })]
    actors := [(0, { a with graph := 2, actor := 0, sink := sink, stream := 5 })]
    streams := [(ctxStream 0 5, { graph := 2, mem := true })] }

/-- A memory actor's range is reached, no kitty in its way, and read without error. -/
def memReached (s : State) (va n : Nat) (ld st : Bool) : Bool := pieced s (engineReach s 0 va n ld st) (engineCore 0) 0x1000

set_option maxRecDepth 100000 in
/-- A memory actor's descriptor stands in the image's DATA section, whose encoding is open: that it names 1,024 bytes at
0xFFF000 is a hypothesis. -/
theorem wit_MemoryActorFirings (hd : ∀ b, engineDesc (imgM b) 0 = [0xFFF000, 0, 0x40000000000, 0, 0, 0, 0, 0]) :
    (let s := memAct false { f := 3 }
     ∃ g a p, NMap.find s.actors 0 = some a ∧ s.graph? 2 = some g ∧ g.phase = .running ∧ g.cutSince = none ∧ g.modeCtl.step = 0 ∧
      enginePort g.img 0 = some p ∧ p.tsize = 4 ∧ a.f < fld ((engineDesc (imgM false) 0).getD 2 0) 63 32 / max p.tsize 1 ∧
      engineRate g a p = 1 ∧ sourceRoom s a g (min (a.f + 1) 256 - 1) = true ∧ (sourceArcs g a).2 = true ∧
      memReached s ((((engineDesc (imgM false) 0).getD 0 0).toNat + 3 * 4) % 2 ^ 64) 4 true false = true) ∧
    (let s := memAct false { f := 4 }
     ∃ g a p, NMap.find s.actors 0 = some a ∧ s.graph? 2 = some g ∧ enginePort g.img 0 = some p ∧ engineRate g a p = 1 ∧ a.cnt = 0 ∧
      sourceRoom s a g (min (a.f + 1) 256 - 1) = false) ∧
    fld ((engineDesc (imgM false) 0).getD 2 0) 63 32 / max 4 1 ≤ 256 ∧
    (let s := memAct true { f := 3, window := [List.replicate 4 7] }
     ∃ g a p, NMap.find s.actors 0 = some a ∧ s.graph? 2 = some g ∧ enginePort g.img 0 = some p ∧ engineRate g a p = 1 ∧ a.drained = false ∧
      a.drainIn = false ∧ a.window = List.replicate 4 7 :: [] ∧ 1 ≤ a.window.length ∧
      memReached s ((((engineDesc (imgM true) 0).getD 0 0).toNat + 3 * 4) % 2 ^ 64) 4 false true = true) := by
  rw [hd, hd]
  refine ⟨⟨_, _, _, rfl, rfl, by decide +kernel, by decide +kernel, by decide +kernel, rfl, ?_⟩, ⟨_, _, _, rfl, rfl, rfl, ?_⟩, by decide,
    _, _, _, rfl, rfl, rfl, ?_⟩ <;> decide +kernel

/-- Core 0's queue entry 0 as given, in a state whose context 0 maps every page read, write and user. -/
def queued (e : QEntry) : State := mapped (entry0 e)

/-- A page table of one parked page: the page at 0 is parked at 0x5000, in tables at 0x10000, 0x11000, 0x12000, 0x13000. -/
def parkedTable (s : State) : State :=
  let s := { s with ctxs := [(0, { ctx0 with ptroot := 0x10000 })] }
  (((s.write 0x10000 (leBytes 8 (2 ^ 63 + 0x11000))).write 0x11000 (leBytes 8 (2 ^ 63 + 0x12000))).write 0x12000
    (leBytes 8 (2 ^ 63 + 0x13000))).write 0x13000 (leBytes 8 (2 ^ 57 + 2 ^ 62 + 7 * 2 ^ 58 + 0x5000))

/-- The live state with a word at the CP's fetch, waiting since time 0, at graph time t. -/
def stuck (w t : Nat) : State :=
  let s := ((live 1 0 0).withFetchWord 32 w).modCore 0 fun k => { k with run := .running, waitSince := some 0 }
  { s with graphs := [(2, { gr with gtime := t })] }

theorem wit_QueueEvents :
    (let e : QEntry := { busy := true, addr := 0xFFF008, bytes := 8 }
     let s := queued e
     let x := translateSpan (s.core 0).tlb s 0 e.addr e.bytes (entryAcc e).ld (entryAcc e).st e.mode
     (s.core 0).entry 0 = e ∧ e.done = false ∧ e.performed = false ∧ e.mode ≠ .m ∧ e.dest = .none ∧ (entryOp e).isSome = true ∧
      s.ctxOf 0 = some 0 ∧ x.out = .ok 0xFFF008 ∧ linkFault s e.addr e.bytes x = none ∧ isLocal s 0xFFF008 = true) ∧
    (let e : QEntry := { busy := true, addr := 8, bytes := 8 }
     let s := mappedFar (entry0 e)
     let x := translateSpan (s.core 0).tlb s 0 e.addr e.bytes (entryAcc e).ld (entryAcc e).st e.mode
     linkFault s e.addr e.bytes x = none ∧ linkFault { s with links := {} } e.addr e.bytes x = some 0x113) ∧
    (let e : QEntry := { busy := true, addr := 8, bytes := 8 }
     let s := parkedTable (entry0 e)
     let x := translateSpan (s.core 0).tlb s 0 e.addr e.bytes (entryAcc e).ld (entryAcc e).st e.mode
     x.out = .parked 0x5008 12 ∧ linkFault s e.addr e.bytes x = none) ∧
    (let e : QEntry := { busy := true, addr := 0x1000008, bytes := 8 }
     (translateSpan [] (queued e) 0 e.addr e.bytes (entryAcc e).ld (entryAcc e).st e.mode).out = .fault 0x030) ∧
    (let e : QEntry := { busy := true, addr := 8, bytes := 8 }
     let s := parkedTable (entry0 e)
     (translateSpan [] (s.write 0x10000 (leBytes 8 (2 ^ 63 + 2 ^ 62 + 7 * 2 ^ 58))) 0 8 8 true false .u).out = .fault 0x035) ∧
    (let e : QEntry := { busy := true, op := .access .aadd, storeType := true, addr := 0x7FFFFFFFF8, bytes := 8, dest := .phys 0x7FFFFFFFF8 }
     let s := queued e
     e.busy = true ∧ e.done = false ∧ e.performed = false ∧ e.ann = .rlx ∧ (s.core 0).run ≠ .graphHalted ∧ (s.core 0).run ≠ .frozen ∧
      inKitty s 0 0 = false ∧ s.links.pkg = 0 ∧ 0x7FFFFFFFF8 + e.bytes ≤ 2 ^ 39 ∧ firstPart e = e.bytes ∧ kittyHas s 0x7FFFFFFFF8 = false ∧
      doubleHeld s 0 0 e 0x7FFFFFFFF8 = false ∧ s.ecc.marks = [] ∧ Memory.wf s.mem = true ∧ isLocal s 0x7FFFFFFFF8 = true ∧
      ((entryOp e).map qopAtomic) = some true) ∧
    (let s := { queued { busy := true, op := .access .acas, dest := .parked 8 } with graphs := [(2, { gr with gtime := 5000000 })] }
     ((s.core 0).entry 0).done = false ∧ ((entryOp ((s.core 0).entry 0)).map qopAtomic) = some true ∧ isLocal s 8 = true ∧
      ((s.core 0).entry 0).issuedAt + 5 * 1000000 ≤ s.clock 0) ∧
    (let s := queued { busy := true, performed := true, storeType := true }
     State.earlierDone (s.core 0) 0 = true ∧
      (∀ n, n ∈ (s.core 0).entries → n.2.busy = true → n.2.storeType = true → n.2.released = false → 0 ≤ n.2.seq)) ∧
    (let s := stuck 0xD4A00081 5000000000
     instrAtPc s 0 = some (.waitqVis 5 1) ∧ cpReady s 0 = true ∧ (s.core 0).waitSince = some 0 ∧ 0 + 5 * 1000000000 ≤ s.clock 0) := by
  decide +kernel

/-- A parked request. -/
def prk (x page c q pa : Nat) : Parked := { ctx := x, page := page, home := State.homeOf pa, core := c, q := q, pa := pa }
/-- Core 0's store to address 8, whose page is parked at 0x5000, in a state with a kitty, at graph time t, with a retry due at r. -/
def parkedAt (ps : List Parked) (t r : Nat) : State :=
  let s := queued { busy := true, op := .access .stq, storeType := true, addr := 8, bytes := 8, dest := .parked 0x5008, parks := [(0x5008, 12)] }
  { s.modCore 0 fun k => { k with retries := [(0, r)] } with kitty := ps, graphs := [(2, { gr with gtime := t })] }

theorem wit_KittyEvents :
    (let s := parkedAt [] 7 7
     let e := (s.core 0).entry 0
     e.busy = true ∧ e.done = false ∧ e.performed = false ∧ e.ann = .rlx ∧ (s.core 0).run ≠ .graphHalted ∧ (s.core 0).run ≠ .frozen ∧
      e.dest = .parked 0x5008 ∧ e.parks = [(0x5008, 12)] ∧ firstPart e = e.bytes ∧ inKitty s 0 0 = false ∧ isLocal s 0x5008 = true ∧
      s.ctxOf 0 = some 0 ∧ doubleHeld s 0 0 e 0x5008 = false ∧ NMap.getD 0 (s.core 0).retries 0 ≤ s.clock 0 ∧ s.kitty = [] ∧
      kittyHas s 0x5008 = false ∧ s.mgmt.length < 4096 ∧ s.mgmtLost = 0) ∧
    (let s := parkedAt [] 6 7
     s.clock 0 < NMap.getD 0 (s.core 0).retries 0) ∧
    (let s := parkedAt [prk 0 5 1 0 0x5010] 0 0
     kittyHas s 0x5008 = true ∧ inKitty s 0 0 = false) ∧
    (let s := parkedAt ((List.range 16).map fun q => prk 0 5 1 q 0x5010) 0 0
     16 ≤ ((s.kitty.filter fun p => p.home == State.homeOf (0x5008 % 2 ^ 45 / 2 ^ 12 * 2 ^ 12)).filter fun p => p.ctx == 0).length) ∧
    (let p := prk 0 0 0 0 0x5008
     let s := parkedAt [p] 0 0
     let own := { (s.core 0).entry 0 with dest := .phys 0x5008, parks := [] }
     parkedFor s 0 0 = [p] ∧ p.msg = none ∧ p.frz = none ∧ ((s.core 0).entry 0).dest = .parked 0x5008 ∧
      ((s.core 0).entry 0).parks = [(0x5008, 12)] ∧ entryKitty ((unpark s [p]).modCore 0 fun k => k.setEntry 0 own) own 0x5008 = none) ∧
    (let p := prk 0 0 0 0 0x5008
     let s := (parkedAt [p] 0 0).modCore 0 fun k => k.setEntry 0 {}
     parkedFor s 0 0 = [p] ∧ ((s.core 0).entry 0).busy = false) := by decide +kernel

theorem wit_TableEvents :
    (let k := { ctxM with ranges := (1, [0x8000000000000000 + 0x1000000, 0x1FFF000, 0, 0]) :: ctxM.ranges }
     let clash := fun (d0 d1 : Word) (i : Nat) => k.ranges.any fun r => match r.2 with
       | [f0, f1, _, _] => decide (r.1 ≠ i ∧ bitAt f0 63 = true ∧ fld d0 47 12 ≤ fld f1 47 12 ∧ fld f0 47 12 ≤ fld d1 47 12)
       | _ => false
     NMap.find ({ live 0 0 0 with ctxs := [(0, k)] } : State).ctxs 0 = some k ∧ clash 0xF000000002000000 0x2FFF000 15 = false ∧
      clash 0xF000000001FFF000 0x2FFF000 15 = true ∧ fld (0xF000000002000000#64) 47 12 ≤ fld (0x2FFF000#64) 47 12 ∧
      fld (0x2FFF000#64) 47 12 < fld (0xF000000003000000#64) 47 12) ∧
    (let d0 : Word := 0xC000000000040000
     fld d0 60 56 = 0 ∧ fld d0 51 48 = 0 ∧ fld d0 55 52 = 0 ∧ fld d0 47 0 % (4096 * 64 * 2 ^ fld d0 55 52) = 0 ∧
      fld (0x8000000000001000#64) 47 0 % (4096 * 64 * 2 ^ 0) ≠ 0) ∧
    (let s := queued { busy := true, addr := 0xFFC, bytes := 8, dest := .phys 0xFFC }
     s.ctxOf 0 = some 0 ∧ ((s.core 0).entry 0).done = false ∧ ((s.core 0).entry 0).performed = false ∧ ((s.core 0).entry 0).mode ≠ .m ∧
      inKitty s 0 0 = false ∧ s.links.outbox = [] ∧ s.graphs.all (fun x => decide (x.2.image = none)) = true ∧
      ((s.core 0).entry 0).addr / 4096 ≤ 0 ∧ 1 ≤ (((s.core 0).entry 0).addr + ((s.core 0).entry 0).bytes - 1) / 4096) := by
  decide +kernel

/-- A stream command on engine e of core 0. -/
def strAt (e : Nat) (m : StrCmd) : State := mapped (liveWith 0 0 0 fun k => k.setEngine e { queue := [m], issued := 1 })
/-- The command of the descriptor sdesc. -/
def cmdOf (kind a l : Nat) : StrCmd := { newStream (live 0 0 0) kind 0 (sdesc a l) with mode := .u }
/-- What a stream command reaches on its memory side. -/
def sideOf (s : State) (e n : Nat) (m : StrCmd) (st : Bool) : Reach :=
  sideReach s 0 e m ⟨m.xmode, m.xwin, streamAddr m.chain m.addr m.pos, n, st⟩

theorem wit_StreamEvents :
    (let s := strAt 0 (cmdOf 0 0xFFF00 0)
     ((s.core 0).engine 0).queue = [cmdOf 0 0xFFF00 0] ∧ (cmdOf 0 0xFFF00 0).started = false ∧ engineOk (s.core 0) = true) ∧
    (let m := { cmdOf 0 0xFFFF00 0 with started := true }
     let s := strAt 0 m
     m.lkind = 1 ∧ m.pos < m.bytes ∧ burstLen m.chain m.addr m.pos m.bytes = 256 ∧ pieced s (sideOf s 0 256 m false) 0 16 = true) ∧
    (let m := { cmdOf 1 0 0x1FFF00 with started := true }
     let s := strAt 2 m
     m.kind = 1 ∧ m.lkind = 1 ∧ m.pos < m.bytes ∧ s.ecc.marks = [] ∧ burstLen m.chain m.addr m.pos m.bytes = 256 ∧
      pieced s (sideOf s 2 256 m true) 0 18 = true) ∧
    (let m := { cmdOf 0 0x1000000 0 with started := true }
     sideOf (strAt 0 m) 0 256 m false = .fault 0x030) ∧
    (let m := { cmdOf 0 0 0 with started := true, pos := 256 }
     sourceDone m = true ∧ sinkDone (strAt 0 m) 0 m = true ∧ m.follow = false ∧ m.kind < 2 ∧ m.released = false ∧ m.visible = false ∧
      sourceDone { m with pos := 255 } = false ∧ sinkDone (strAt 0 m) 0 { m with pos := 255 } = false) ∧
    (∀ i ∈ [Instr.swaitSrc 1, .swaitVis 1, .mxwait 7 1],
      let s := stuck ((encode i).getD 0 0).toNat 5000000000
      instrAtPc s 0 = some i ∧ cpReady s 0 = true ∧ (s.core 0).waitSince = some 0 ∧ 0 + 5 * 1000000000 ≤ s.clock 0) := by
  decide +kernel

theorem wit_BarrierEvents :
    (let s := { liveWith 0 0 0 fun k => { k with bars := [(0, { inited := true, p := 2, arrivals := 1, onWay := [(0, 0)] })] } with
        graphs := [(2, { gr with barriers := [(barKey 0 .card 0, { scope := .card, p := 2, counts := [(0, 1)] })] })] }
     let m : CoreBar := NMap.getD {} (s.core 0).bars 0
     m.onWay = (0, 0) :: [] ∧ releaseHeld s 0 m.scope 0 true = false ∧
      (s.graph? (s.core 0).graph).bind (fun g => barInst g (barKey 0 m.scope 0)) = some { scope := .card, p := 2, counts := [(0, 1)] } ∧
      2 ≤ 1 + 1) ∧
    (let s := entry0 { busy := true, storeType := true, op := .access .stq, dest := .phys 0, bytes := 8 }
     releaseHeld s 0 .dom 1 true = true) := by decide +kernel

/-- The live state with the graph store at 0, 1 GiB, and a first directory entry: image 7, one page at 0x100000. -/
def stored (s : State) : State :=
  let s := { s with host := { s.host with gs := 2 ^ 63 + 2 ^ 16 } }
  s.write 0 (leBytes 8 7 ++ leBytes 8 (2 ^ 40 + 0x100000))

/-- Core 0's launch of an image at a priority, and graphs beside. -/
def launching (id pri : Nat) (gs : List (Nat × Graph)) : State :=
  { (entry0 { busy := true, op := .launch, addr := id, data := pri }) with graphs := (2, gr) :: gs }
/-- A graph of context 0 that waits for admission, or is where a phase says. -/
def inPhase (p : Phase) (h : Nat) : Graph := { gr with handle := h, phase := p }
/-- Every quadrant but the supervisor's own graph taken by graph 5. -/
def fullUp (gs : List (Nat × Graph)) (cs : NMap Core) : State :=
  { live 0 0 0 with cores := cs, ctxs := [(0, { ctx0 with frzsize := 1024, pshare := 3080, slots := 2000 })], graphs := gs }

/-- An image that passes every check rests on the block library and the placement, which are open; so does what an admission
takes: that one passes, and the plan, no state can show. -/
theorem wit_LaunchAndAdmission :
    (let s := launching 7 1 []
     let e := (s.core 0).entry 0
     e.busy = true ∧ e.op = .launch ∧ e.performed = false ∧ e.released = false ∧ coreMoves (s.core 0) = true ∧ (s.core 0).cut = false ∧
      launchAway s e.data = false ∧ releaseHeld s 0 .deck e.seq true = false ∧ s.ctxOf 0 = some 0 ∧ NMap.find s.ctxs 0 = some ctx0 ∧
      queueFull s 0 = false ∧ ctx0.maxpri ≤ e.data % 4 ∧ directory s 7 = none) ∧
    directory (stored (launching 7 1 [])) 7 = some (0x100000, 1) ∧
    (0 % 4 < ctx0.maxpri) ∧
    queueFull (launching 7 1 ((List.range 16).map fun i => (i + 3, inPhase .queued (i + 3)))) 0 = true ∧
    (let s := stored { live 0 0 0 with graphs := [(2, { inPhase .validating 2 with off := 0x100000, pages := 1 })], time := 500000000 }
     (s.graph? 2).map (fun g => decide (g.phase = .validating ∧ g.created + 5 * 100000000 ≤ s.time)) = some true ∧
      ({ s with time := 499999999 } : State).time < 0 + 5 * 100000000 ∧
      storeOn s = true ∧ s.ecc.marks = [] ∧ imageFault s 0 7 1 (s.read (storeBase s + 0x100000) (1 * 4096)) = some 0x0A0) ∧
    (let g := inPhase .queued 2
     let s := fullUp [(2, g)] []
     waiting s = [2] ∧ candidate s (2, g) = true ∧ g.image = none) ∧
    (let g := inPhase .queued 2
     (match planFor { live 0 0 0 with cores := [], graphs := [(2, g)] } 2 g with | .error f => f | _ => 0) = 0x147) ∧
    (let g := inPhase .queued 2
     let s := fullUp [(2, g)] ((List.range 48).map fun q => (48 * q, { graph := 5 }))
     planFor s 2 g = .ok none ∧ chooseVictims s 2 g = [] ∧ (waiting s = [2])) ∧
    (gr.phase = .running ∧ 5 * 2000000 ≤ ({ gr with gtime := 10000000 }).gtime - gr.admitted ∧ gr.gtime - gr.admitted < 5 * 2000000) := by
  decide +kernel

/-- The live state with the graph of core 0 in a phase of its commit. -/
def loadingAs (p : Phase) (g : Graph) (sh : Option Shadow) : State :=
  { (liveWith 0 0 0 fun k => { k with shadow := sh, power := .running }) with graphs := [(2, { g with phase := p })] }

theorem wit_CommitEvents :
    (let s := loadingAs .loading gr (some {})
     (s.graph? (s.core 0).graph).map Graph.phase = some .loading ∧ gr.reported.contains 0 = false ∧ reportReady s 0 = true ∧
      (gr.cores.all fun x => x.2 == 0 || gr.reported.contains x.2) = true ∧ gr.decided = false) ∧
    (let s := loadingAs .loading { gr with img := imgX, coord := some 9 } (some {})
     spans imgX = true ∧ reportReady s 0 = true ∧ (s.graph? 2).map (fun g => g.coord.isSome) = some true) ∧
    (let g := { gr with cores := [(0, 0), (1, 1)] }
     (g.cores.all fun x => x.2 == 0 || g.reported.contains x.2) = false) ∧
    (let s := loadingAs .committing gr (some {})
     (s.core 0).shadow = some {} ∧ gr.acked.contains 0 = false ∧ s.ecc.marks = [] ∧ gr.image = none ∧ gr.frzSince = none) ∧
    (({ gr with gtime := 5000000 }).loadSince + 5 * 1000000 ≤ ({ gr with gtime := 5000000 }).gtime ∧
      ({ gr with gtime := 4999999 }).gtime < gr.loadSince + 5 * 1000000) ∧
    (let s := loadingAs .loading gr (some {})
     0 ∈ s.coresOf 2) := by decide +kernel

theorem wit_CrossPackageEvents :
    spans imgX = true ∧ pkgX ∈ packagesOf imgX ∧ ¬(pkgX ∈ gr.pkgOk) ∧
    (let g := { gr with img := imgX, pkgOk := packagesOf imgX, decided := true, phase := Phase.loading, gtime := 50000000 }
     g.coord = none ∧ (∀ p, p ∈ packagesOf g.img → p ∈ g.pkgOk) ∧ g.admitted + 5 * 10000000 ≤ g.gtime) ∧
    ({ gr with coord := some 9 }).coord.isSome = true :=
  ⟨by decide +kernel, by simp [packagesOf_imgX], by decide, ⟨rfl, fun _ h => h, by decide +kernel⟩, rfl⟩

/-- A graph that freezes, its one core reached by the wave or not. -/
def freezing (cs : List Nat) (drop : Bool) (g : Graph := gr) : State :=
  { live 0 0 0 with graphs := [(2, { g with phase := .freezing, frzCores := cs, frzSince := some 0, dropImage := drop, frzLen := 2 ^ 22 })] }

/-- That the image fits its reservation rests on its sections, whose contents are open. -/
theorem wit_FreezeEvents :
    (let s := freezing [] false
     (s.core 0).graph = (2#32).toNat ∧ (s.graph? 2).map Graph.phase = some .freezing ∧ (s.graph? 2).map (fun g => g.frzCores.contains 0) = some false ∧
      (0, 0) ∈ gr.cores) ∧
    ({ gr with supervisor := true }).supervisor = true ∧ gr.supervisor = false ∧ gr.phase = .running ∧
    (gr.frzSince = none ∧ gr.coord = none ∧ ({ gr with coord := some 9 }).coord.isSome = true) ∧
    (let s := freezing [0] false
     ∃ g, s.graph? 2 = some g ∧ (∀ x, x ∈ g.cores → x.2 ∈ g.frzCores ∧ deckSettled (s.core x.2) = true) ∧ otherPackages s g = [] ∧
      g.coord = none ∧ g.dropImage = false ∧ Memory.wf s.mem = true ∧ g.frzSince = some 0 ∧
      0 + waveBound { g with gtime := 250000 } ≤ 250000 ∧ g.gtime < 0 + waveBound g) ∧
    (let s := apart (freezing [0] false { gr with img := imgX, peers := { sections := [(pkgX, [])] } })
     ∃ g, s.graph? 2 = some g ∧ ∀ p, p ∈ otherPackages s g → p ∈ g.peers.sections.map Prod.fst) ∧
    (let s := freezing [0] true
     ∃ g, s.graph? 2 = some g ∧ (∀ x, x ∈ g.cores → x.2 ∈ g.frzCores ∧ deckSettled (s.core x.2) = true) ∧ g.dropImage = true) := by
  refine ⟨by decide +kernel, rfl, rfl, rfl, by decide, ⟨_, rfl, by decide +kernel⟩, ⟨_, rfl, ?_⟩, ⟨_, rfl, by decide +kernel⟩⟩
  rw [otherPackages_apart _ _ rfl]; simp

/-- A partition descriptor: quadrant 0 of card 0, its supervisor at core 0, HBM4 of 1 GiB. -/
def part : List Byte := patched 64 [(0, [1]), (8, [1]), (0x10, [2]), (0x1B, [1]), (0x22, [1]), (0x26, [1])]

/-- The machine after reset with management running. -/
def managed : State := { State.reset with dealer := { managers := (List.range 4).map fun n => (n, .running) } }

/-- Where the library region, the dump area and the placement cache lie is open: that the descriptor's range meets none of
them is a hypothesis. -/
theorem wit_ContextCreates (h : reservedMeet managed 0 (2 ^ 30) = false) : managed.managementUp = true ∧ partBad managed part = false := by
  have e : reservedMeet managed ((ctxFrom part).hbase * 2 ^ 30) ((ctxFrom part).hsize * 2 ^ 30) = false := by
    rw [show (ctxFrom part).hbase = 0 by decide +kernel, show (ctxFrom part).hsize = 1 by decide +kernel]; exact h
  refine ⟨by decide +kernel, ?_⟩
  unfold partBad
  dsimp only
  rw [e]
  decide +kernel

theorem wit_ContextEvents :
    State.reset.managementUp = false ∧
    partBad managed [] = true ∧ (List.range 16).find? (fun x => (NMap.find managed.ctxs x).isNone) = some 0 ∧
    (NMap.find (live 0 0 0).ctxs 0 = some ctx0 ∧ ctx0.halted = false ∧ ctx0.halting = false ∧ ({ ctx0 with halted := true }).halted = true ∧
      NMap.wf (live 0 0 0).ctxs = true ∧ (live 0 0 0).graph? 2 = some gr ∧ 2 / 2 ^ 28 = 0 ∧ gr.supervisor = false ∧ gr.phase = .running) ∧
    (({ live 0 0 0 with graphs := [] } : State).graphs.filter (fun hg => hg.1 / 2 ^ 28 == 0 && !hg.2.supervisor) = [] ∧ ctx0.notices = [] ∧
      ctx0.suppressed = 0) ∧
    (let k := { ctx0 with notices := [{ cause := 0x14A }], sent := 1 }
     let s := (State.reset.modCore 191 fun n => { n with graph := 1, run := .running, descs := [(0, noticeDesc)] })
     let s : State := { s with ctxs := [(0, k)] }
     let n := s.core 191
     portDesc s 191 0 0 = some 0 ∧ n.graph = k.supHandle ∧ coreMoves n = true ∧ n.cut = false ∧ 0 < (n.desc 0).free ∧ 0 < k.sent ∧
      (n.desc 0).tcode = 0x1D ∧ (n.desc 0).tsize = 32 ∧ (n.desc 0).wr.toNat + 1 < 2 ^ 64 ∧ s.ecc.marks = [] ∧ Memory.wf s.mem = true) := by
  decide +kernel

/-- A core of the supervisor of context 0 that HALT has stopped goes on when the context resumes. -/
theorem test_resume_restarts_supervisor :
    (let s : State := { live 1 0 0 with graphs := [(1, { gr with supervisor := true, cores := [(0, 0)] })] }
     let s := s.modCore 0 fun k => { k with run := .halted }
     (match execContextResume 0 s with | .next t => (t.core 0).run | _ => .idle)) = .running := by decide +kernel

/-- ECC.1 goes to the supervisor alone (R286); RING.14 to management as well (R139). -/
theorem test_ecc_delivery :
    ((live 0 0 0).haltLocation 2 0x161 0 0 8).mgmt = (live 0 0 0).mgmt ∧
    ((live 0 0 0).haltLocation 2 0x06E 2 0 8).mgmt ≠ (live 0 0 0).mgmt := by decide +kernel

theorem wit_FatalFaultHaltsGraph : (live 0 0 0).graph? 2 = some gr ∧ gr.phase = .running ∧ (live 0 0 0).dump.queue.length < 64 ∧
    0 ∈ (live 0 0 0).coresOf 2 ∧ ((live 0 0 0).core 0).run ≠ .trapped ∧ ((live 0 0 0).core 0).run ≠ .nested ∧
    64 ≤ ({ live 0 0 0 with dump := { queue := List.replicate 64 9 } } : State).dump.queue.length ∧
    (inPhase .halted 2).phase = .halted ∧ (inPhase .halted 2).faults.length < 64 := by decide +kernel

/-- The live graph cut since time 0. -/
def cutting (t : Nat) (done : List Nat) : State := { live 0 0 0 with time := t, graphs := [(2, { gr with cutSince := some 0, cutCores := done })] }
/-- A dump of the live graph under way, with a remote store on its way. -/
def dumping (out : List Away) : State :=
  let s := entry0 { busy := true, op := .access .stq, storeType := true, dest := .phys (2 ^ 45), bytes := 8 }
  { s with dump := { current := some 2 }, links := { s.links with outbox := out }, time := 5000000
           graphs := [(2, { gr with phase := .halted })] }

theorem wit_CutAndDumpEvents :
    (let s := cutting 0 []
     ∃ g, s.graph? (s.core 0).graph = some g ∧ g.cutSince = some 0 ∧ g.cutDone = false ∧ g.cutCores.contains 0 = false) ∧
    (let s := cutting 250000 []
     ∃ g, s.graph? (2#32).toNat = some g ∧ g.coord = none ∧ g.cutSince = some 0 ∧ g.cutDone = false ∧ 0 + waveBound g ≤ s.time ∧
      ({ s with time := 0 } : State).time < 0 + waveBound g) ∧
    (let s := { live 0 0 0 with dump := { queue := [2] }, graphs := [(2, { gr with phase := .halted })] }
     s.dump.current = none ∧ s.dump.queue = 2 :: [] ∧ (s.graph? 2).isSome = true) ∧
    (let s := dumping [{ core := 0, q := 0, pkg := 1 }]
     ∃ g, s.dump.current = some 2 ∧ s.graph? 2 = some g ∧ storesAway s g = true ∧ onWay s 0 0 = some { core := 0, q := 0, pkg := 1 } ∧
      (s.core 0).graph = 2 ∧ s.dump.since + 5 * 1000000 ≤ s.time ∧ entryPending ((s.core 0).entry 0) = true) ∧
    (let s := dumping []
     ∃ g, s.graph? 2 = some g ∧ storesAway s g = false ∧ Memory.wf s.mem = true) := by
  refine ⟨⟨_, rfl, ?_⟩, ⟨_, rfl, ?_⟩, ?_, ⟨_, rfl, rfl, ?_⟩, ⟨_, rfl, ?_⟩⟩ <;> decide +kernel

theorem wit_StorageErrorEvents : scrubbed (0x7FFFFFFFFF / 64 * 64) = true ∧ (live 0 0 0).ueAt (0x7FFFFFFFFF / 64 * 64) 64 = none ∧
    ({ live 0 0 0 with ecc := { marks := [(0x7FFFFFFFFF, true)] } } : State).ueAt (0x7FFFFFFFFF / 64 * 64) 64 = some 0x7FFFFFFFFF ∧
    scrubbed (winBase 2303 + 0x1FFFC0) = true ∧ (0x7FFFFFFFFF < 2 ^ 39) := by decide +kernel

/-- The live state with a deck. -/
def decked (d : Deck) : State := { live 0 0 0 with deck := d }
/-- A deck whose slot 5 of suit 1 is granted to card 0, context 0, with a class. -/
def grantedDeck (cls sender : Nat) : Deck := { calendar := [(517, BitVec.ofNat 32 (2 ^ 31 + sender * 2 ^ 27 + cls * 2 ^ 20 + 5))] }

theorem wit_DeckSlotEvents :
    (let s := { decked (grantedDeck 1 0) with streams := [(ctxStream 0 5, { graph := 2 })] }
     let st : DeckStream := NMap.getD {} s.streams (ctxStream (fld (slotEntry s 1 5) 26 23) (fld (slotEntry s 1 5) 15 0))
     s.graph? st.graph = some gr ∧ gr.phase = .running ∧ gr.cutSince = none ∧ slotFor s 1 5 1 = true ∧ st.mem = false ∧
      streamLayer st = fld (slotEntry s 1 5) 30 27) ∧
    (let s := { decked (grantedDeck 1 12) with streams := [(ctxStream 0 5, { graph := 2, host := true })] }
     let st : DeckStream := NMap.getD {} s.streams (ctxStream (fld (slotEntry s 1 5) 26 23) (fld (slotEntry s 1 5) 15 0))
     slotFor s 1 5 1 = true ∧ st.mem = false ∧ streamLayer st = fld (slotEntry s 1 5) 30 27) ∧
    (let s := { decked (grantedDeck 4 12) with streams := [(ctxStream 0 5, { graph := 2, mem := true })] }
     let st : DeckStream := NMap.getD {} s.streams (ctxStream (fld (slotEntry s 1 5) 26 23) (fld (slotEntry s 1 5) 15 0))
     s.graph? st.graph = some gr ∧ slotFor s 1 5 4 = true ∧ fld (slotEntry s 1 5) 30 27 = 12 ∧ st.mem = true) ∧
    (cardAsleep State.reset 11 = cardAsleep State.reset 0) ∧ slotAhead State.reset 3 470 = true ∧ slotAhead State.reset 3 472 = true ∧
    (State.reset.deck.asleepHits = [] ∧ State.reset.deck.wakes = [] ∧ ∀ l, pendingAt State.reset l = []) ∧
    (slotReserved 1983 = false ∧ slotReserved 1984 = true ∧ fld (0xE010FFFF#32) 30 27 = 12 ∧ fld (0xE010FFFF#32) 22 20 = 1 ∧
      calendarBad State.reset 2048 0 = true) ∧
    (255 + 1 ≤ 256 ∧ rangesMeet 0 1 255 1 = false ∧ 256 < 256 + 1) ∧
    (cardHeld (live 0 0 0) 0 = true ∧ cardHeld (live 0 0 0) 11 = false ∧ NMap.wf (live 0 0 0).deck.pending = true) := by
  refine ⟨by decide +kernel, by decide +kernel, by decide +kernel, rfl, by decide, by decide, ⟨rfl, rfl, fun _ => rfl⟩,
    ⟨by decide, by decide, by decide, by decide, rfl⟩, by decide, by decide +kernel⟩

/-- Which cards are fused off at test is open: that card 0 is not is the hypothesis of the clauses on its sleep and its writes. -/
theorem wit_CardAwake (h : State.reset.fusedAsleep.testBit 0 = false) : cardAsleep State.reset 0 = false := by
  simp only [cardAsleep, Nat.testBit_or, h]; decide

/-- A deck operation of core 0. -/
def wop (atomic : Bool) : DeckOp := { atomic := atomic, card := 0, index := 0, ctx := 0, off := 0xFFFF8, bytes := [1, 2, 3, 4, 5, 6, 7, 8], double := true }
/-- Core 0 holds a deck operation to be sent in the slot granted to its context. -/
def sending (atomic : Bool) : State := { (liveWith 0 0 0 fun k => { k with deckq := [wop atomic] }) with deck := grantedDeck 2 0 }

theorem wit_DeckWindowEvents :
    (let s := sending false
     slotFor s 1 5 2 = true ∧ (∀ l, pendingAt s l = []) ∧ s.deck.struck = [] ∧
      deckHead s (fld (slotEntry s 1 5) 30 27) (fld (slotEntry s 1 5) 26 23) false = some (0, wop false)) ∧
    (let s := sending true
     slotFor s 1 5 2 = true ∧ s.deck.struck = [] ∧
      deckHead s (fld (slotEntry s 1 5) 30 27) (fld (slotEntry s 1 5) 26 23) true = some (0, wop true) ∧ (wop true).aop < 2) ∧
    (let s := { entry0 { busy := true, op := .deckAdd } with deck := { frame := 1, pending := [(0, [wop true]), (12, [{ wop true with viaHub := true }])] } }
     NMap.find s.deck.wakes 0 = none ∧ pendingAt s 0 = wop true :: [] ∧ pendingAt s 12 = { wop true with viaHub := true } :: [] ∧ s.ecc.marks = [] ∧
      Memory.wf s.mem = true ∧ s.deck.frame * 512 * 4 + s.deck.slotPos > (512 * (wop true).fseq + (wop true).slot) * 4 + (wop true).suit ∧
      ((s.core 0).entry 0).busy = true ∧ ((s.core 0).entry 0).done = false) ∧
    (let s := decked { hub := [.notice 0] }
     serviceSlot s 480 = true ∧ serviceSlot s 511 = true ∧ roundActive s = false ∧ s.deck.struck = [] ∧ ∀ l, pendingAt s l = []) ∧
    (let s := { entry0 { busy := true, op := .deckCas } with deck := { hub := [.record 0 0 0 9] } }
     serviceSlot s 480 = true ∧ s.deck.hub = [.record 0 0 0 9] ∧ roundActive s = false ∧ roundAwaited s 0 = false ∧
      ((s.core (0 * 192 + 0)).entry 0).busy = true ∧ ((s.core (0 * 192 + 0)).entry 0).done = false) ∧
    (let s := decked { frame := 8, wakes := [(11, { f0 := 0 })] }
     serviceSlot s 511 = true ∧ s.deck.wakes = [(11, { f0 := 0 })] ∧ 0 < s.deck.frame ∧ s.deck.frame ≤ 0 + 8 ∧ s.deck.struck = [] ∧
      ∀ l, pendingAt s l = []) ∧
    (let s := decked { frame := 9, wakes := [(11, { f0 := 0, copied := 0x100000 })] }
     NMap.wf s.deck.wakes = true ∧ NMap.find s.deck.wakes 11 = some { f0 := 0, copied := 0x100000 } ∧ 0 + 8 < s.deck.frame ∧
      pendingAt s 11 = [] ∧ NMap.wf s.deck.stale = true) ∧
    (let s := decked { frame := 13, waking := 1, wakes := [(0, { f0 := 0 }), (1, { f0 := 1 })] }
     NMap.find s.deck.wakes 0 = some { f0 := 0 } ∧ s.deck.waking.testBit 0 = true ∧ 0 + 12 < s.deck.frame ∧
      ({ decked { frame := 12 } with time := 0 } : State).deck.frame ≤ 0 + 12 ∧ s.graph? 2 = some gr ∧ admitted gr = true ∧ (0, 0) ∈ gr.cores) ∧
    (cardHeld (decked { asleep := 1 }) 0 = true ∧ ∀ f, (1 ||| f : Nat).testBit 0 = true) := by
  refine ⟨⟨by decide +kernel, fun _ => rfl, rfl, by decide +kernel⟩, by decide +kernel, by decide +kernel,
    ⟨by decide, by decide, rfl, rfl, fun _ => rfl⟩, by decide +kernel, ⟨by decide, rfl, by decide, by decide, rfl, fun _ => rfl⟩,
    by decide +kernel, by decide +kernel, by decide +kernel, fun f => by simp⟩

theorem wit_PowerEvents :
    (104 < 105 ∧ NMap.find State.reset.power.lastFreeze 11 = none ∧ NMap.getD 0 State.reset.power.hot 11 = 0) ∧
    (let s := { live 0 0 0 with power := { hot := [(0, 105)], lastFreeze := [(0, 0)] }, time := 5000000 }
     NMap.find s.power.lastFreeze 0 = some 0 ∧ 105 ≤ NMap.getD 0 s.power.hot 0 ∧ 0 + 5 * 1000000 ≤ s.time ∧
      ({ s with time := 4999999 } : State).time < 0 + 5 * 1000000) ∧
    (runningGraphs (live 0 0 0) = [(2, gr)] ∧ (live 0 0 0).graph? 2 = some gr ∧ gr.phase = .running) ∧
    (let low := { inPhase .running 3 with cls := 3 }
     let s := { live 0 0 0 with graphs := [(2, gr), (3, low)] }
     runningGraphs s = [(2, gr), (3, low)] ∧ s.graph? 2 = some gr ∧ s.graph? 3 = some low ∧ gr.cls < low.cls) ∧
    (inIsland gr 0 = true ∧ inIsland gr 4 = true ∧ State.reset.graphs = []) ∧
    (standingGrants State.reset + 120 ≤ 120 ∧ 119 < standingGrants State.reset + 120) ∧
    (let s := { State.reset with time := 5000000 }
     (s.core 2303).graph = 0 ∧ (s.core 2303).power ≠ .waking ∧ (s.core 2303).idleSince + 5 * 1000000 ≤ s.time ∧ (live 0 0 0).cur.graph ≠ 0) ∧
    (let s := { (live 0 0 0).modCore 0 fun k => { k with power := .waking } with time := 500000, graphs := [(2, inPhase .loading 2)] }
     (s.core 0).power = .waking ∧ (s.core 0).wakeSince + 5 * 100000 ≤ s.time ∧ (s.graph? 2).map Graph.phase = some .loading) := by decide +kernel

/-- A core's queue entry 0 and request 64, both on their way to package 3, at a graph time. -/
def away (t : Nat) : State := { entry0 { busy := true, bytes := 8, dest := .phys (3 * 2 ^ 45) } with
  links := { outbox := [{ core := 0, q := 0, pkg := 3 }, { core := 0, q := 64, pkg := 3 }], via := [(3, [23])], up := 2 ^ 23 }
  graphs := [(2, { gr with gtime := t })] }

theorem wit_LinkEvents :
    (routeUp (linked (2 ^ 23) 0) 3 = false ∧ routeUp (linked 0 0) 3 = false ∧ routeUp (linked 0) 3 = true) ∧
    (let s := { linked 0 with links := { seen := [⟨3, 7, 9, 0, 5⟩], via := [(3, [23])], up := 2 ^ 23 } }
     routeUp s 3 = true ∧
     s.links.seen.find? (fun r => r.pkg == (req .ldq).pkg && r.core == (req .ldq).core && r.seq == (req .ldq).seq.toNat) = some ⟨3, 7, 9, 0, 5⟩) ∧
    (let s := linked 0
     let m := req .stq
     s.links.seen = [] ∧ s.kitty = [] ∧ importOk s m = true ∧ importOk s { m with ctx := 2 } = false ∧ m.parked = none ∧
      kittyHas s m.addr = false ∧ s.ecc.marks = [] ∧ 0 < m.bytes ∧ m.addr + m.bytes ≤ 2 ^ 39 ∧ Memory.wf s.mem = true) ∧
    (let s := away 4999999
     onWay s 0 0 = some { core := 0, q := 0, pkg := 3 } ∧ onWay s 0 64 = some { core := 0, q := 64, pkg := 3 } ∧ takesNone s 0 = false ∧
      routeUp s 3 = true ∧ entryOp ((s.core 0).entry 0) = some .ldq ∧ s.clock 0 < 0 + 5 * 1000000 ∧ 0 + 5 * 1000000 ≤ (away 5000000).clock 0 ∧
      takesNone (s.modCore 0 fun k => { k with run := .frozen }) 0 = true) ∧
    (let s := linked 0 0
     (NMap.find s.links.channels 5).map (channelUp s) = some false) ∧
    (let s := { linked 0 with
        graphs := [(2, { gr with img := imgM true })], actors := [(3, { graph := 2, actor := 0, sink := true, window := [[7]] })] }
     ∃ x a, NMap.find s.links.channels 5 = some x ∧ channelUp s x = true ∧ channelSink s x = some (3, a) ∧
      a.window.length < (arcRec (imgM true) x.arc).cap ∧ channelType s x = (portRec (imgM true) (arcRec (imgM true) x.arc).dst).tcode) ∧
    (let s := { linked 0 with links := { channels := [(6, { graph := 2, core := 2304 + 63 })] } }
     ∃ x, NMap.find s.links.channels 6 = some x ∧ channelUp s x = true ∧ 2304 ≤ x.core ∧ channelDescs s 6 = []) ∧
    (let s := linked 0
     ∃ x, NMap.find s.links.channels 5 = some x ∧ x.core = 0 ∧ x.desc = 1 ∧ channelUp s x = true ∧ channelSink s x = none ∧
      arrivalWindow s 5 x = some (0, 0) ∧ coreMoves (s.core 0) = true ∧ (s.core 0).cut = false ∧
      0 < ((s.core 0).desc 0).free ∧ ((s.core 0).desc 0).tcode = 0x0E ∧ channelType s x = 0x0E ∧
      ((s.core 0).desc 0).tsize = 4 ∧ ((s.core 0).desc 0).wr.toNat + 1 < 2 ^ 64 ∧ s.ecc.marks = [] ∧ Memory.wf s.mem = true ∧
      channelDescs s 5 = [(x.core, x.desc)] ∧ sendHeld s 5 3 x = false ∧ 3 ≤ ((s.core 0).desc 1).wr.toNat ∧ ((s.core 0).desc 1).wr.toNat < 4) ∧
    (let s := (linked 0).modCore 0 fun k => k.setEntry 0 { busy := true, storeType := true, op := .access .stq, dest := .phys 0, bytes := 8 }
     let x : Channel := { graph := 2, core := 0, desc := 1, sent := [{ desc := 1, wrptr := 3, bytes := [1], marks := [], drain := false, seq := 1 }] }
     sendHeld s 5 3 x = true) ∧
    (let s := (linked 0).modCore 0 fun k => { k with descs := [(0, { d0 := 0x800E000400008000, d1 := 0x8000000000050004, wr := 4 })] }
     (NMap.find s.links.channels 5).bind (arrivalWindow s 5) = some (0, 0) ∧ ((s.core 0).desc 0).free = 0) ∧
    ((linked 0).links.retrain.testBit 23 = false ∧ (linked (2 ^ 23)).links.retrain.testBit 23 = true ∧
      NMap.find (linked (2 ^ 23)).links.retrainSince 23 = some 0 ∧ 0 + 5 * 10000000 ≤ (linked 0).time ∧ 2 ∈ portGraphs (linked 0) 23 ∧
      ((linked 0).graph? 2).map (fun g => (g.phase, g.coord)) = some (.running, none)) ∧
    (State.reset.managementUp = false ∧ managed.managementUp = true) := by
  refine ⟨by decide +kernel, by decide +kernel, by decide +kernel, by decide +kernel, by decide +kernel, ⟨_, { graph := 2, actor := 0, sink := true, window := [[7]] }, rfl, ?_⟩, ⟨_, rfl, ?_⟩,
    ⟨_, rfl, ?_⟩, ?_⟩ <;> decide +kernel

/-- img1 with its input port fed by host port number 5, its output port a host sink 6, and a mode port. -/
def imgH : List Byte := ((((img1.set 0x158 5).set 0x159 0).set 0x168 6).set 0x169 0).set 0x170 32
/-- The record of a host port: a header, and bytes. -/
def hostRec (rtype tcode gport len arg : Nat) (bs : List Byte) : List Byte :=
  leBytes 16 (rtype * 2 ^ 120 + tcode * 2 ^ 112 + gport * 2 ^ 96 + len * 2 ^ 64 + arg) ++ bs
/-- The live state, its graph of imgH on stream base 0, with ingress port 0 as given; core 0's descriptor 0 takes stream
1 + 3 records on: that of port record 0. -/
def hosted (p : Ingress) : State :=
  { (liveWith 0 0 0 fun k => { k with descs := [(0, { d0 := 0x800E000400008000, d1 := 0x4000000000010004 })] }) with
    graphs := [(2, { gr with img := imgH })], host := { ingress := [(0, p), (63, p)] } }

/-- That state with tokens of the stream of port record 0 waiting, and n taken for it in all. -/
def streamed (p : Ingress) (n : Nat) (l : List PtrMsg) : State :=
  { hosted p with streams := [(ctxStream 0 1, { graph := 2, host := true, fed := n, tokens := l })] }

set_option maxRecDepth 100000 in
theorem wit_IngressEvents :
    (let p := ingressOf (hosted { en := true, expected := 262143 }) 63
     p.en = true ∧ 0x3FFFF = p.expected % 2 ^ 20 ∧ p.consumed + 262144 < p.expected + [1, 2].length ∧ p.expected + [1].length ≤ p.consumed + 262144 ∧
      p.st ≠ 4) ∧
    (ingressOf (hosted { en := true, st := 4 }) 63).st = 4 ∧
    ((ingressOf (hosted { wbs := [16, 32] }) 0).wbs = 16 :: [32] ∧ Memory.wf (hosted {}).host.mem = true) ∧
    (let p : Ingress := { en := true, buffer := hostRec 1 0 5 0 7 [] }
     ∃ h, recHead p = some h ∧ recordsWait (hosted p) p.graph = false ∧ h.bad = false ∧ h.rtype = 1 ∧ recSize h ≤ p.buffer.length ∧ p.st = 0 ∧
      directory (hosted p) h.arg = none ∧ (directory (stored (hosted p)) h.arg).isSome = true ∧ queueFull (hosted p) 0 = false ∧
      openGraph { hosted p with graphs := [] } p.ctx h.arg h.gport = none) ∧
    (let p : Ingress := { en := true, st := 2, graph := 2, nextOrd := 9, buffer := hostRec 2 0x0E 5 4 9 (List.replicate 16 1) }
     let s := hosted p
     ∃ h g j r, recHead p = some h ∧ recordsWait s 2 = false ∧ h.bad = false ∧ h.rtype = 2 ∧ recSize h ≤ p.buffer.length ∧ s.graph? 2 = some g ∧
      g.phase = .running ∧ sourcePort g.img h.gport = some (j, r) ∧ h.len = r.tsize ∧ h.tcode = r.tcode ∧ h.arg = p.nextOrd ∧
      streamFree (streamed p 3 []) (hostStream 2 j g) 3 = true ∧ streamFree (streamed p 4 []) (hostStream 2 j g) 4 = false) ∧
    recordsWait { live 0 0 0 with graphs := [(2, inPhase .frozen 2)] } 2 = true ∧
    (let p : Ingress := { en := true, st := 2, graph := 2, buffer := hostRec 3 0 0 0 0 [] }
     ∃ h, recHead p = some h ∧ h.bad = false ∧ h.rtype = 3 ∧ recSize h ≤ p.buffer.length) ∧
    (let p : Ingress := { en := true, st := 2, graph := 2, buffer := hostRec 4 0x0E 0 4 1 (List.replicate 16 1) }
     ∃ h r, recHead p = some h ∧ h.bad = false ∧ h.rtype = 4 ∧ recSize h ≤ p.buffer.length ∧ modePort imgH = some r ∧ h.len = r.tsize ∧
      h.tcode = r.tcode ∧ gr.modeCtl.waiting.length < 4 ∧ gr.srcDrained = false ∧ modePort img1 = none) ∧
    (let p : Ingress := { en := true, st := 3, graph := 2, gport := 5 }
     ∃ g j r, (hosted p).graph? 2 = some g ∧ sourcePort g.img p.gport = some (j, r) ∧ hostStream 2 j g = ctxStream 0 1 ∧
      ([{ desc := 0, wrptr := 4, bytes := [], marks := [], drain := true }] : List PtrMsg).any PtrMsg.drain = true) ∧
    ((ingressOf (hosted { asgn := true, st := 2, graph := 2 }) 63).asgn = true ∧ (ingressOf State.reset 63).asgn = false) := by
  refine ⟨by decide +kernel, by decide +kernel, by decide +kernel, ⟨_, rfl, ?_⟩, ⟨_, _, _, _, rfl, ?_, ?_, ?_, ?_, rfl, ?_, rfl, ?_⟩,
    by decide +kernel, ⟨_, rfl, ?_⟩, ⟨_, _, rfl, ?_, ?_, ?_, rfl, ?_⟩, ⟨_, _, _, rfl, rfl, ?_⟩, ?_⟩ <;> decide +kernel

/-- The live state, its graph of imgH, with egress port 0 as given. -/
def sunk (e : Egress) : State := { live 0 0 0 with
  graphs := [(2, { gr with img := imgH })], host := { egress := [(0, e), (63, e)] } }

set_option maxRecDepth 100000 in
theorem wit_EgressAndStoreEvents :
    (let e := egressOf (sunk { asgn := true, log2 := 16, fin := 5, rdpos := 3 }) 63
     e.asgn = true ∧ 16 ≤ e.log2 ∧ e.log2 ≤ 30 ∧ e.graph = 0 ∧ e.rdpos ≤ (5#64).toNat ∧ (5#64).toNat ≤ e.fin ∧ (2#64).toNat < e.rdpos ∧ e.fin < (6#64).toNat ∧
      e.en = false) ∧
    (let e : Egress := { asgn := true, en := true, log2 := 16, graph := 2, sink := 6, records := [.data [1, 2, 3, 4]], fin := 65536, rdpos := 32 }
     let s := sunk e
     ∃ g j r, e.records = .data [1, 2, 3, 4] :: [] ∧ s.graph? e.graph = some g ∧ g.phase = .running ∧ g.cutSince = none ∧
      ((List.range (nPorts g.img)).map fun j => (j, portRec g.img j)).find? (fun y => y.2.isOut && y.2.host == e.sink) = some (j, r) ∧
      Memory.wf s.host.mem = true ∧ (egressRecord e r.tcode (.data [1, 2, 3, 4])).length ≤ 2 ^ e.log2 ∧
      e.fin + (egressRecord e r.tcode (.data [1, 2, 3, 4])).length - e.rdpos ≤ 2 ^ e.log2 ∧
      2 ^ e.log2 < e.fin + (egressRecord e r.tcode (.data [1, 2, 3, 4])).length - 31) ∧
    (egressOf (sunk { wordDue := true }) 0).wordDue = true ∧
    (storeRefused State.reset 0x80000000000101FF = false ∧ storeRefused State.reset 0x80000000000201FF = true) ∧
    (storeOn (stored (live 0 0 0)) = true ∧ 0x3FFFFFFF + [(1 : Byte)].length ≤ storeSize (stored (live 0 0 0)) ∧
      ¬(0x3FFFFFFF + [(1 : Byte), 1].length ≤ storeSize (stored (live 0 0 0)))) ∧
    ((ingressOf (hosted { asgn := true }) 63).en = false ∧ (ingressOf (hosted { en := true }) 63).en = true) ∧
    ((egressOf State.reset 63).en = false ∧ (egressOf (sunk { asgn := true, en := true }) 63).en = true) ∧
    (let q : Ingress := { asgn := true, st := 2, graph := 2 }
     (63, q) ∈ (hosted q).host.ingress ∧ q.graph = 2 ∧ q.st ≠ 0 ∧ ((hosted q).graph? 2).map Graph.phase = some .running) ∧
    (∃ p, p ∈ portRecs imgH ∧ p.host ≠ 0xFFFF) := by
  refine ⟨by decide +kernel, ⟨_, _, _, rfl, rfl, ?_, ?_, rfl, ?_⟩, by decide +kernel, by decide +kernel, by decide +kernel, by decide +kernel,
    by decide +kernel, by decide +kernel, ⟨portRec imgH 0, ?_⟩⟩ <;> decide +kernel

/-- Core 0's quote entry 0 and its request at the security block. -/
def asked (ext : Bool) (slot : Word) : State :=
  { (entry0 { busy := true, op := .quote }) with
    sec := { pending := [{ core := 0, q := 0, ext := ext, bytes := List.replicate 32 1, slot := slot, buf := 0x1FFD10, ctx := 0 }] } }

theorem wit_SecurityEvents :
    (∀ p ∈ [(false, 0#64), (true, 5), (true, 15), (true, 4), (true, 16)], ∃ r, (asked p.1 p.2).sec.pending = r :: [] ∧ r.ext = p.1 ∧ r.slot = p.2 ∧
      served (asked p.1 p.2) r = true ∧ (((asked p.1 p.2).core r.core).entry r.q).busy = true ∧
      (((asked p.1 p.2).core r.core).entry r.q).done = false ∧
      State.earlierDone ((asked p.1 p.2).core r.core) (((asked p.1 p.2).core r.core).entry r.q).seq = true) ∧
    Memory.wf (asked false 0).mem = true ∧ (5 ≤ fld (15#64) 3 0 ∧ fld (15#64) 63 4 = 0 ∧ fld (4#64) 3 0 < 5 ∧ fld (16#64) 63 4 ≠ 0) ∧
    ({ core := 0, q := 0, ext := true, bytes := [], slot := 5, buf := 0, ctx := 0, void := true } : SecReq).void = true ∧
    (State.reset.sec.pending = [] ∧ ∀ i, NMap.find State.reset.sec.spdm i = none) := by
  refine ⟨fun p hp => ?_, by decide +kernel, by decide, rfl, rfl, fun _ => rfl⟩
  simp only [List.mem_cons, List.not_mem_nil, or_false] at hp
  obtain rfl | rfl | rfl | rfl | rfl := hp <;> exact ⟨_, rfl, by decide +kernel⟩

theorem wit_StepRunsDecodedInstruction :
    (let s := live 1 0 0
     let s := s.withFetchWord 32 0x00611001
     cpReady s s.turn = true ∧ (s.core s.turn).pc % 4 = 0 ∧ ¬((s.core s.turn).pc < (s.core s.turn).codeBase ∨
        (s.core s.turn).codeBase + (s.core s.turn).codeSize < (s.core s.turn).pc + 4 ∨ tileSize < (s.core s.turn).pc + 4) ∧
      eccBad s (winBase s.turn + (s.core s.turn).pc) 4 = false ∧
      decodeCp (codeWord s s.turn 0) (codeWord s s.turn 4) false = .ok (.add 3 1 2) ∧ s.agenda = [] ∧ (s.core s.turn).codeOld = []) ∧
    (let s := (live 1 0 0).withFetchWord 32 0xFFFFFFFF
     decodeCp (codeWord s s.turn 0) (codeWord s s.turn 4) false = .bad 1) ∧
    ((liveWith 1 0 0 fun k => { k with pc := 2 }).cur.pc % 4 ≠ 0) ∧
    (let k := (liveWith 1 0 0 fun k => { k with pc := 4 }).cur
     k.codeBase + k.codeSize < k.pc + 4) ∧
    (eccBad { live 1 0 0 with ecc := { marks := [(winBase 0, true)] } } (winBase 0) 4 = true) ∧
    (cpReady State.reset 0 = false) ∧
    (let s := State.reset.withFetchWord 64 0xB05C000000000081
     ∃ c j sh ms w, s.agenda = .elem c j sh :: ms ∧ (if sh then (s.core c).grid.sh else (s.core c).grid.act).words[j]? = some w ∧
      decodeBlk w = some (.pout ⟨0x0E, ⟨false, 0, 0, 0⟩, ⟨false, 0, 0, 0⟩, 0x81⟩)) ∧
    isEvent .frameBoundary = true := by
  refine ⟨by decide +kernel, by decide +kernel, by decide +kernel, by decide +kernel, by decide +kernel, by decide +kernel,
    ⟨_, _, _, _, _, rfl, rfl, by decide +kernel⟩, by decide +kernel⟩

/-- Core 0's store entry that completed with a fault, under a release. -/
def faultedAt : State := entry0 { busy := true, done := true, fault := 0x20, storeType := true, released := true, op := .access .stq, dest := .phys 0, bytes := 8 }

theorem wit_StoreAndEncodingCauses :
    (acquireHeld faultedAt.cur = false ∧ Memory.wf faultedAt.mem = true ∧ releaseHeld faultedAt 0 .core faultedAt.cur.issueSeq true = false ∧
      faultedWithin faultedAt 0 .core faultedAt.cur.issueSeq = some 0 ∧ (faultedAt.reg 1).toNat + 8 ≤ tileSize ∧ faultedAt.cur.mode ≠ .u) ∧
    (lastWord (at2 0 0).cur = false ∧ (4#9 ≠ 5#9) ∧
      lastWord (with0 fun k => { k with pc := 0xFFC, codewin := 0x100000000 }).cur = true ∧
      (with0 fun k => { k with pc := 0xFFC, codewin := 0x100000000, status := 3 }).cur.mode ≠ .u) := by decide +kernel

theorem wit_GridQueues :
    (let k := (liveWith 0 3 0 fun k => { k with grid := { k.grid with sh := { k.grid.sh with valid := true } } }).cur
     k.grid.sh.valid = true ∧ shadowAhead k.grid = true ∧ k.grid.queue = [] ∧ k.grid.armed = false ∧ k.grid.draining = false) ∧
    (let k := (liveWith 0 3 0 fun k => { k with grid := { k.grid with lstate := 1, loading := 3 } }).cur
     loadPending k.grid = true ∧ shadowAhead k.grid = true) ∧
    (let k := (liveWith 0 3 0 fun k => { k with grid := { k.grid with lstate := 1, loading := 3, queue := [.swapDrain] } }).cur
     loadPending k.grid = true ∧ shadowAhead k.grid = false) ∧
    (let k := (liveWith 0 3 0 fun k => { k with grid := { k.grid with sh := { k.grid.sh with valid := true }, act := { k.grid.act with valid := true }, queue := [.go, .go, .go, .go] } }).cur
     shadowAhead k.grid = true ∧ 4 ≤ k.grid.queue.length) ∧
    ((at2 0 0).cur.grid.sh.valid = false ∧ loadPending (at2 0 0).cur.grid = false) := by decide +kernel

/-- Core 0 at FDONE: its input port has its count, its PIN asks for the token its window still holds, and DONE is outstanding. -/
def asking : State := (ported 0x2C0 (blk 0x0E 8) [] {} 1 { d0 := 0x8000000400008000, d1 := 4, wr := 1 }).modCur fun k =>
  { k with grid := { k.grid with goes := 1 } }

theorem wit_FiringsThatWait :
    (Clear asking ∧ asking.cur.infire = true ∧ asking.cur.grid.held = false ∧ gangSkew asking 0 = false ∧ firingSettled asking.cur = false ∧
      excessPort asking 0 = some 1) ∧
    (let s := asking.modCur fun k => { k with grid := { k.grid with queue := [.go] } }
     firingSettled s.cur = false ∧ excessPort s 0 = none) ∧
    (let s := liveWith 0 0 0 fun k => { k with matrix := { k.matrix with gang := true, queue := [⟨.mxsw, 0, 0, [], 0, false⟩] } }
     Clear s ∧ s.cur.infire = true ∧ gangSkew s 0 = false ∧ firingSettled s.cur = true ∧ gangPending s 0 = true) ∧
    (let s := live 0 (2 ^ 32 + 2) 0
     acquireHeld s.cur = false ∧ fld (s.reg 1) 63 44 = 0 ∧ s.ctxOf 0 = some (fld (s.reg 1) 31 28) ∧ fld (s.reg 1) 43 32 ≠ s.links.pkg ∧
      s.cur.awaited = none ∧ (s.modCur fun k => { k with awaited := some (1, 2, 7) }).cur.awaited = some (fld (s.reg 1) 43 32, fld (s.reg 1) 31 0, 7)) ∧
    (let s := (switching 0 8 {} []).modCore 0 fun k => { k with modeTok := some 8 }
     (s.core 0).modeTok.isSome = true ∧ (s.core 0).modeSeq = 0) := by decide +kernel

theorem wit_ThawedGraphs :
    (let s := { live 1 2 0 with graphs := [(2, { gr with phase := .frozen, held := true, origin := 2 })] }
     Clear s ∧ (s.cur.entry 15).busy = false ∧ s.cur.mode ≠ .u ∧ freezeDenied s 2 = false ∧
      s.graph? 2 = some { gr with phase := .frozen, held := true, origin := 2 } ∧ s.cur.cut = false ∧ State.earlierDone s.cur s.cur.issueSeq = true) ∧
    (let g := { gr with phase := .frozen, held := true, origin := 1 }
     freezeDenied { live 1 2 0 with graphs := [(2, g)] } 2 = false ∧ g.held = true ∧ g.origin ≠ 2) ∧
    ({ gr with phase := .frozen, origin := 2 }).held = false := by decide +kernel

/-- Core 0 of the live graph stopped by a cut. -/
def stopped : State := liveWith 0 0 0 fun k => { k with cut := true }

theorem wit_StoppedCores :
    (coreMoves (joined { desc := 0, wrptr := 1, bytes := [], marks := [], drain := true } 2 |>.core 0) = true ∧
      ((joined { desc := 0, wrptr := 1, bytes := [], marks := [], drain := true } 2).core 0).cut = false ∧ (stopped.core 0).cut = true) ∧
    (let s := queued { busy := true, addr := 8, bytes := 8, dest := .phys 8 }
     (s.core 0).cut = false ∧ (s.modCore 0 fun k => { k with cut := true }).core 0 = { s.core 0 with cut := true } ∧
      (s.core 0).run = .running ∧ (s.core 0).deckq = [] ∧ ((s.core 0).entry 0).ann = .rlx ∧ ((s.core 0).entry 0).done = false) ∧
    (coreMoves (stopped.core 0) = true ∧ coreMoves ((liveWith 0 0 0 fun k => { k with run := .frozen }).core 0) = false) ∧
    (let s := { liveWith 0 0 0 fun k => { k with bars := [(0, { inited := true, scope := .dom, p := 2, arrivals := 1, onWay := [(0, 0)] })] } with
        graphs := [(2, { gr with coord := some 9, barriers := [(barKey 0 .dom 0, { scope := .dom, p := 2 })] })] }
     releaseHeld s 0 .dom 0 true = false ∧ coreMoves (s.core 0) = true ∧ (s.core 0).cut = false ∧
      (s.graph? 2).bind (fun g => barInst g (barKey 0 .dom 0)) = some { scope := .dom, p := 2 }) ∧
    (live 0 0 0).splitToken 0 = false ∧
    (strAt 0 { cmdOf 0 0xFFF00 0 with started := true, tok := 64, pos := 32 }).splitToken 0 = true := by decide +kernel

set_option maxRecDepth 100000 in
theorem wit_SinkChannels :
    (let s := memAct true { f := 3, window := [List.replicate 4 7] }
     ∃ g a p, NMap.find s.actors 0 = some a ∧ s.graph? 2 = some g ∧ enginePort g.img 0 = some p ∧ sinkUp s g p = true) ∧
    (let s := { memAct true { f := 3, window := [List.replicate 4 7] } with graphs := [(2, { gr with img := (imgM true).set 0x14C 1 })]
                                                                            links := { channels := [(1, { graph := 2, vcs := [(23, 0)] })] } }
     ∃ g a p, NMap.find s.actors 0 = some a ∧ s.graph? 2 = some g ∧ enginePort g.img 0 = some p ∧ sinkUp s g p = false) :=
  ⟨⟨_, _, _, rfl, rfl, rfl, by decide +kernel⟩, _, _, _, rfl, rfl, rfl, by decide +kernel⟩

/-- The machine with management, the Dealer, the power arbiter and the dump engine started. -/
def started : State := { managed with dealer := { managed.dealer with parts := [1, 2, 3] } }

theorem wit_StartedParts :
    (started.managementUp = true ∧ started.dealerUp = true ∧ started.arbiterUp = true ∧ started.dumperUp = true) ∧
    (State.reset.managementUp = false ∧ State.reset.dealerUp = false ∧ State.reset.arbiterUp = false ∧ State.reset.dumperUp = false) ∧
    (let s := { started with dump := { queue := [2] }, graphs := [(2, { gr with phase := .halted })] }
     s.dumperUp = true ∧ s.dump.current = none ∧ s.dump.queue = [2] ∧ (s.graph? 2).isSome = true) ∧
    (cardHeld started 0 = false ∧ NMap.wf started.deck.pending = true ∧ started.graphs = [] ∧ calendarBad started 2048 0 = true ∧
      NMap.find started.power.lastFreeze 11 = none ∧ NMap.getD 0 started.power.hot 11 = 0 ∧ standingGrants started + 120 ≤ 120) ∧
    (let s := { started with power := { hot := [(0, 105)], lastFreeze := [(0, 0)] }, time := 5000000 }
     s.arbiterUp = true ∧ NMap.find s.power.lastFreeze 0 = some 0 ∧ 105 ≤ NMap.getD 0 s.power.hot 0 ∧ 0 + 5 * 1000000 ≤ s.time) := by
  decide +kernel

theorem wit_SlotsAndRecords :
    (let s := { decked (grantedDeck 1 0) with streams := [(ctxStream 0 5, { graph := 2, mem := true })] }
     let st : DeckStream := NMap.getD {} s.streams (ctxStream (fld (slotEntry s 1 5) 26 23) (fld (slotEntry s 1 5) 15 0))
     slotFor s 1 5 1 = true ∧ st.mem = true) ∧
    (let s := decked (grantedDeck 4 12)
     let st : DeckStream := NMap.getD {} s.streams (ctxStream (fld (slotEntry s 1 5) 26 23) (fld (slotEntry s 1 5) 15 0))
     slotFor s 1 5 4 = true ∧ st.mem = false) ∧
    (let s := { live 0 0 0 with deck := { frame := 0, slotPos := 7, pending := [(0, [{ wop false with slot := 1 }])] } }
     NMap.find s.deck.wakes 0 = none ∧ pendingAt s 0 = [{ wop false with slot := 1 }] ∧ s.deck.frame * 512 * 4 + s.deck.slotPos < 4 * (512 * 0 + 1 + 1) ∧
      4 * (512 * 0 + 1 + 1) ≤ ({ s with deck := { s.deck with slotPos := 8 } } : State).deck.slotPos) ∧
    (let s := decked { hub := [.record 0 0 0 9, .notice 0], wakes := [(0, { f0 := 0 })] }
     serviceSlot s 480 = true ∧ roundActive s = false ∧ s.deck.struck = [] ∧ s.deck.hub = [.record 0 0 0 9, .notice 0] ∧ roundAwaited s 0 = true ∧
      pendingAt s 0 = []) := by decide +kernel

/-- An admission that is refused, of a graph of this package and of one that another package coordinates. -/
theorem wit_RefusedAdmissions :
    (let g := inPhase .queued 2
     let s := { live 0 0 0 with cores := [], graphs := [(2, g)] }
     waiting s = [2] ∧ g.coord = none ∧ (match planFor s 2 g with | .error f => f | _ => 0) = 0x147) ∧
    (let g := { inPhase .queued 2 with coord := some 9 }
     let s := { live 0 0 0 with cores := [], graphs := [(2, g)] }
     waiting s = [2] ∧ g.coord.isSome = true ∧ (match planFor s 2 g with | .error f => f | _ => 0) = 0x147) := by decide +kernel

theorem wit_ArrivalsAndKitties :
    (let s := linked 0
     ((s.core 0).desc 0).wr.toNat < ((s.core 0).desc 0).cap + (s.core 0).freedRd 0) ∧
    (let s := (linked 0).modCore 0 fun k => { k with descs := [(0, { d0 := 0x800E000400008000, d1 := 0x8000000000050004, wr := 4 })] }
     ((s.core 0).desc 0).cap + (s.core 0).freedRd 0 ≤ ((s.core 0).desc 0).wr.toNat) ∧
    (joinHeld (parkedAt [] 7 7) 0 0 (((parkedAt [] 7 7).core 0).entry 0) 0x5008 (0x5008, 12) = false) ∧
    (let p := prk 0 0 0 0 0x5008
     let s := (parkedAt [p] 0 0).modCore 0 fun k => (k.setEntry 0 { k.entry 0 with seq := 1 }).setEntry 1 { busy := true, op := .access .ldq, addr := 8, bytes := 8 }
     let own := { (s.core 0).entry 0 with dest := .phys 0x5008, parks := [] }
     doubleHeld ((unpark s [p]).modCore 0 fun k => k.setEntry 0 own) 0 0 own 0x5008 = true) := by decide +kernel

theorem wit_EncodingsReadBack : (Instr.lix 31 31 0xFFFFFFFF).wf = true ∧ (Instr.elemAdd (blk 0x0E 0)).wf = true ∧
    (Instr.add 31 31 31).wf = true := by decide +kernel

theorem wit_MemoryStaysCanonical : MemOk (at2 1 2) ∧ ∃ t, StepsTo ((at2 1 2).withFetchWord 32 0x00611001) t :=
  ⟨by decide +kernel, _, rfl⟩

end Sys2Proof.Tests
end

section
/-! The machine at reset (R11): O58 and O60. -/

namespace Sys2Proof.Machine

/-- A field of a word given as a number (R4). -/
theorem fld_ofNat {n hi lo : Nat} (h : n < 2 ^ 64) : fld (BitVec.ofNat 64 n) hi lo = n / 2 ^ lo % 2 ^ (hi + 1 - lo) := by
  rw [fld, bitsOf, BitVec.toNat_ofNat, Nat.mod_eq_of_lt h, Nat.shiftRight_eq_div_pow]

/-! ### The machine at reset (R11) -/

namespace State

@[simp] theorem core_reset (c : Nat) : reset.core c = {} := rfl

/-- No queue entry is busy (R194). -/
@[simp] theorem srQstat_reset : srQstat {} = 0 := by decide

/-- No card is asleep or waking on this grade (R58). -/
@[simp] theorem srDeckst_reset : reset.srDeckst = 0 := by decide

/-- No core has a context, so no deck window (R53). -/
@[simp] theorem srDkwin_reset (c : Nat) : reset.srDkwin c = 0 := rfl

/-- No Herlo port is up or retraining (R81). -/
@[simp] theorem srHport_reset : reset.srHport = 0 := by decide

/-- No plane holds a block (R151). -/
@[simp] theorem srCfgst_reset : srCfgst {} = 0 := by decide

/-- No core has a graph or a context (R158). -/
@[simp] theorem srCtx_reset (c : Nat) : reset.srCtx c = 0 := by simp [srCtx, graph?, ctxOf, reset, NMap.find, core, NMap.getD]

/-- No core has a context time (R180). -/
@[simp] theorem srCtime_reset (c : Nat) : reset.srCtime c = 0 := rfl

/-- sr.pgrant of a reset machine names the island alone (R36). -/
theorem srPgrant_reset (c : Nat) : reset.srPgrant c = BitVec.ofNat 64 (islandOf c % 64 * 2 ^ 48) := by
  simp [srPgrant, grantWord, islandStep, islandGrant, graph?, reset, NMap.find, core, NMap.getD]

theorem islandOf_lt {c : Nat} (h : c < 2304) : islandOf c < 64 := by unfold islandOf; omega

/-- The words of a reset core that are zero (R268, R122, R184, R194, R53, R81, R58, R151, R158, R180). -/
theorem sysReg_reset_zero (c : Nat) :
    ∀ n ∈ [0x700, 0x701, 0x702, 0x703, 0x704, 0x7C0, 0x7C1, 0x7C2, 0x7C3, 0xF12, 0xF13, 0xF14, 0xF15, 0xF16, 0xF17],
      reset.sysReg c n = 0 := by
  intro n hn
  simp only [List.mem_cons, List.not_mem_nil, or_false] at hn
  rcases hn with rfl | rfl | rfl | rfl | rfl | rfl | rfl | rfl | rfl | rfl | rfl | rfl | rfl | rfl | rfl
  exacts [rfl, rfl, rfl, rfl, rfl, rfl, rfl, rfl, srQstat_reset, srDeckst_reset, srDkwin_reset c, srHport_reset,
    srCfgst_reset, srCtx_reset c, srCtime_reset c]

/-- The RNG streams of a reset core hold zero keys and counters (R253). -/
theorem sysReg_reset_rng (c : Nat) {j : Nat} (h : j < 8) :
    reset.sysReg c (0x7D0 + j) = 0 ∧ reset.sysReg c (0x7D8 + j) = 0 ∧ reset.sysReg c (0x7E0 + j) = 0 := by
  interval_cases j <;> simp [sysReg, Core.rng, NMap.getD]

/-- The fields of sr.devid on the grade of reset (R25). -/
theorem srDevid_reset_fields :
    fld reset.srDevid 63 48 = 0x4B59 ∧ fld reset.srDevid 47 40 = 0x12 ∧ fld reset.srDevid 39 36 = 1 ∧
    fld reset.srDevid 27 16 = 0xFFF ∧ fld reset.srDevid 11 0 = 0 := by
  have hs : Config.stepping % 16 < 16 := Nat.mod_lt _ (by decide)
  simp only [srDevid, show reset.grade = 1 from rfl, show reset.links.pkg = 0 from rfl, if_true]
  generalize Config.stepping % 16 = x at hs
  refine ⟨?_, ?_, ?_, ?_, ?_⟩ <;> rw [fld_ofNat (by omega)] <;> omega

end State
/-- The slot calendar holds no valid entry (R45). -/
theorem bitAt_calAt_reset (j : Nat) : bitAt (calAt State.reset j) 31 = false := by
  rw [show calAt State.reset j = 0 from rfl]; decide

/-- Settles O60: nothing is listed in the memories of the reset machine. -/
theorem resetMeetsInvariant : Obligations.ResetMeetsInvariant := ⟨rfl, rfl⟩

/-- Settles O58: every Reset column read off the state at reset. -/
theorem resetState : Obligations.ResetState := by
  refine ⟨fun c hc => ⟨State.sysReg_reset_zero c, fun _ hj => State.sysReg_reset_rng c hj, ?_, rfl, State.srDevid_reset_fields⟩,
    fun _ => ⟨rfl, rfl⟩, bitAt_calAt_reset, fun _ => ⟨rfl, rfl, rfl, rfl, rfl, rfl, rfl⟩, rfl, rfl, rfl⟩
  have hi := Nat.mod_eq_of_lt (State.islandOf_lt hc)
  exact (State.srPgrant_reset c).trans (by rw [hi]; rfl)

end Sys2Proof.Machine
end

section
/-! What the notices to management and queue entries that complete leave as it was. -/

namespace Sys2Proof.Machine

/-! ### Folds -/

/-- What no step of a fold changes, the fold does not change. -/
theorem foldl_keeps {σ α β : Type} (p : σ → β) {f : σ → α → σ} (h : ∀ s a, p (f s a) = p s) (l : List α) (s : σ) :
    p (l.foldl f s) = p s := by
  induction l generalizing s with
  | nil => rfl
  | cons a l ih => exact (ih (f s a)).trans (h s a)

namespace State

/-! ### Notices to management -/

/-- A state but for its notices to management and the arbiter's standing. -/
def sansNotes (s : State) : State := { s with power := {}, mgmt := [], mgmtLost := 0 }

/-- A notice to management changes management's queue alone (R161). -/
@[simp] theorem sansNotes_tellMgmt (s : State) (n : Notice) : (s.tellMgmt n).sansNotes = s.sansNotes := by
  unfold tellMgmt
  split
  · rfl
  · split <;> rfl

@[simp] theorem tellMgmt_mem (s : State) (n : Notice) : (s.tellMgmt n).mem = s.mem :=
  (congrArg State.mem (sansNotes_tellMgmt s n) :)
@[simp] theorem tellMgmt_graphs (s : State) (n : Notice) : (s.tellMgmt n).graphs = s.graphs :=
  (congrArg State.graphs (sansNotes_tellMgmt s n) :)
@[simp] theorem tellMgmt_dealer (s : State) (n : Notice) : (s.tellMgmt n).dealer = s.dealer :=
  (congrArg State.dealer (sansNotes_tellMgmt s n) :)

/-! ### Queue entries that complete (R192, R193) -/

@[simp] theorem completeEntry_mem (s : State) (c q f v : Nat) : (s.completeEntry c q f v).mem = s.mem := rfl

@[simp] theorem entry_wake (k : Core) (q : Nat) : k.wake.entry q = k.entry q := by
  unfold Core.wake; split <;> rfl

@[simp] theorem entry_setEntry_self (k : Core) (q : Nat) (e : QEntry) : (k.setEntry q e).entry q = e := NMap.getD_put_self ..

/-- An outstanding entry with none before it, of a core in no cut, is done once it has its response. -/
theorem entry_completeEntry {s : State} {c q : Nat} (f v : Nat) (hb : ((s.core c).entry q).busy = true)
    (hd : ((s.core c).entry q).done = false) (hc : (s.core c).cut = false)
    (he : earlierDone (s.core c) ((s.core c).entry q).seq = true) :
    ((s.completeEntry c q f v).core c).entry q =
      { (s.core c).entry q with performed := true, done := true, released := true, fault := f, resp := v } := by
  simp [completeEntry, hb, hd, hc, he]

end State

end Sys2Proof.Machine
end

section
/-! Digests, signatures and quotes: how long they are (R103, R104, R107). -/

namespace Sys2Proof

@[simp] theorem length_leBytes (n v : Nat) : (leBytes n v).length = n := by
  induction n generalizing v with
  | zero => rfl
  | succ n ih => exact congrArg (· + 1) (ih _)

@[simp] theorem length_beBytes (n v : Nat) : (beBytes n v).length = n := by simp [beBytes]

/-- A byte of a number's little-endian run. -/
theorem getD_leBytes {n b : Nat} (h : b < n) (v : Nat) : (leBytes n v).getD b 0 = BitVec.ofNat 8 (v / 256 ^ b) := by
  induction n generalizing v b with
  | zero => omega
  | succ n ih =>
    cases b with
    | zero => simp [leBytes]
    | succ b =>
      rw [leBytes, List.getD_cons_succ, ih (by omega), Nat.div_div_eq_div_mul, Nat.pow_succ, Nat.mul_comm]

namespace Machine

theorem length_sm3Round (j : Nat) (v : List (BitVec 32)) (w w' : BitVec 32) : (sm3Round j v w w').length = v.length := by
  unfold sm3Round; split <;> rfl

theorem length_sm3Block (v : List (BitVec 32)) (blk : List Byte) : (sm3Block v blk).length = v.length := by
  have h := fun (w : List (BitVec 32)) => foldl_keeps List.length
    (fun v j => length_sm3Round j v (w.getD j 0) (w.getD j 0 ^^^ w.getD (j + 4) 0)) (List.range 64) v
  simp only [sm3Block, List.length_map, List.length_zip, h, Nat.min_self]

/-- An SM3 digest is 32 bytes. -/
@[simp] theorem length_sm3 (bs : List Byte) : (sm3 bs).length = 32 := by
  have h := fun l => (foldl_keeps List.length length_sm3Block l sm3Iv).trans (show sm3Iv.length = 8 from rfl)
  simp [sm3, List.length_flatten, List.map_map, Function.comp_def, h]

@[simp] theorem length_fitBytes (n : Nat) (bs : List Byte) : (fitBytes n bs).length = n := by
  simp [fitBytes]; omega

@[simp] theorem length_be32 (x : Nat) : (be32 x).length = 32 := by simp [be32]

/-- An SM2 signature is 64 bytes. -/
@[simp] theorem length_sm2Sign (d : Nat) (msg : List Byte) (ns : List Nat) : (sm2Sign d msg ns).length = 64 := by
  simp [sm2Sign]

/-- The part of a quote that is signed is 688 bytes (R107). -/
theorem length_quoteBody (s : State) (origin ctx : Nat) (nonce : List Byte) : (quoteBody s origin ctx nonce).length = 688 := by
  simp [quoteBody, List.length_flatten, List.map_map, Function.comp_def]

/-- A quote is 752 bytes (R107). -/
theorem length_quoteBytes (s : State) (origin ctx : Nat) (nonce : List Byte) : (quoteBytes s origin ctx nonce).length = 752 := by
  simp [quoteBytes, length_quoteBody]

end Machine
end Sys2Proof
end

section
/-! The security block: measurement, requests and their answers, and O54. -/

namespace Sys2Proof.Machine

/-! ### Measurement (R104, R105) -/

theorem find_ms_extendSlot (x : Security) (n k : Nat) (d : List Byte) :
    NMap.find (extendSlot x n d).ms k = if k = n then some (sm3 (slotOf x n ++ d)) else NMap.find x.ms k := NMap.find_put ..

theorem slotOf_extendSlot_ne (x : Security) {n k : Nat} (d : List Byte) (h : k ≠ n) : slotOf (extendSlot x n d) k = slotOf x k :=
  NMap.getD_put_ne _ _ _ h

/-- A slot that nothing has extended holds 32 zero bytes (R104). -/
theorem slotOf_blank (key resets n : Nat) : slotOf { key := key, resets := resets } n = List.replicate 32 0 := rfl

/-- The boot ROM extends slot 4 by the fuse block, then slots 0 to 3 by the components (R105). -/
theorem bootMeasure_eq (s : State) (x : Security) :
    bootMeasure s x =
      extendSlot (extendSlot (extendSlot (extendSlot (extendSlot x 4 (sm3 (fuseBlock s))) 0 (componentDigest 0))
        1 (componentDigest 1)) 2 (componentDigest 2)) 3 (componentDigest 3) := rfl

theorem find_ms_bootMeasure_component (s : State) (x : Security) {i : Nat} (h : i < 4) :
    NMap.find (bootMeasure s x).ms i = some (sm3 (slotOf x i ++ componentDigest i)) := by
  interval_cases i <;> simp [bootMeasure_eq, find_ms_extendSlot, slotOf_extendSlot_ne]

theorem find_ms_bootMeasure_fuses (s : State) (x : Security) :
    NMap.find (bootMeasure s x).ms 4 = some (sm3 (slotOf x 4 ++ sm3 (fuseBlock s))) := by
  simp [bootMeasure_eq, find_ms_extendSlot]

theorem find_ms_bootMeasure_ge (s : State) (x : Security) {n : Nat} (h : 5 ≤ n) :
    NMap.find (bootMeasure s x).ms n = NMap.find x.ms n := by
  simp only [bootMeasure_eq, find_ms_extendSlot]
  repeat rw [if_neg (by omega)]

/-- The fuse block speaks of the grade and the package number, and of what is fused (R105). -/
theorem fuseBlock_congr {s t : State} (hg : t.grade = s.grade) (hl : t.links = s.links) : fuseBlock t = fuseBlock s := by
  simp only [fuseBlock, State.srDevid, hg, hl]

/-! ### Cold reset (R11, R40, R105) -/

/-- The power-on tests gate islands and tell management, no more (R40). -/
@[simp] theorem sansNotes_testRegulators (n : Nat) (s : State) : (testRegulators n s).sansNotes = s.sansNotes :=
  foldl_keeps State.sansNotes (fun s i => State.sansNotes_tellMgmt
    { s with power := { s.power with gatedIslands := s.power.gatedIslands ++ [i] } } { cause := 0x159, detail := i }) _ _

/-- The components that start change the Dealer's standing and notices to management alone (R105). -/
theorem sansNotes_startFirmware (n : Nat) (s : State) :
    (startFirmware n s).sansNotes = ({ s.sansNotes with dealer := (startFirmware n s).dealer } : State) := by
  unfold startFirmware
  simp only
  split <;> split <;> simp only [State.sansNotes_tellMgmt, State.tellMgmt_dealer] <;> rfl

/-- Management runs where every component can be read (R105). -/
theorem managementUp_startFirmware (n : Nat) (s : State) : (startFirmware n s).managementUp = allReadable := by
  unfold startFirmware State.managementUp
  simp only
  split <;> split <;> simp only [State.tellMgmt_dealer] <;> cases allReadable <;> rfl

/-- The machine as a cold reset leaves it before it measures: what the fuses and the world outside hold stays (R11). -/
def coldState (s : State) : State :=
  { State.reset with
    grade := s.grade, agenda := s.agenda, fresh := s.fresh, host := { ({} : HostIf) with mem := s.host.mem } }

/-- A cold reset: the tests of the regulators and the start of the components add notices and the Dealer's standing to the machine
as measured (R11, R40, R105). -/
theorem coldReset_eq (s : State) :
    ∃ t, exec .coldReset s = .next t ∧ t.managementUp = allReadable ∧
      t.sansNotes = { coldState s with
        dealer := t.dealer, sec := bootMeasure (coldState s) { key := identityKey, resets := s.sec.resets + 1 } } := by
  refine ⟨_, rfl, managementUp_startFirmware _ _, ?_⟩
  rw [sansNotes_startFirmware, sansNotes_testRegulators]
  rfl

/-! ### SPDM requests (R108, R109) -/

/-- A state but for its SPDM requests and answers and the nonces drawn. -/
def State.sansSpdm (s : State) : State := { s with fresh := 0, sec := { s.sec with spdm := [], answers := [] } }

theorem sansSpdm_answerMeasurements (s : State) (r : SpdmReq) : (answerMeasurements s r).sansSpdm = s.sansSpdm := by
  unfold answerMeasurements
  split_ifs <;> rfl

/-- An answer to a request changes the requests and answers of SPDM and the nonces drawn, no more (R109). -/
theorem sansSpdm_serveSpdm (s : State) (kind : Nat) (r : SpdmReq) : (serveSpdm s kind r).sansSpdm = s.sansSpdm := by
  unfold serveSpdm
  split
  case h_3 => unfold answerAlgorithms; split <;> rfl
  case h_5 => split <;> rfl
  case h_6 => split <;> rfl
  case h_7 => exact sansSpdm_answerMeasurements s r
  all_goals rfl

/-- The oldest request leaves: beside the SPDM requests and answers the others stay as they are (R108). -/
theorem sansSpdm_popRequest {s : State} {r : SecReq} {rest : List SecReq} (h : s.sec.pending = r :: rest) :
    (popRequest s).sansSpdm = ({ s with sec := { s.sec with pending := rest } } : State).sansSpdm := by
  refine (foldl_keeps State.sansSpdm (fun s (x : Nat × Nat × Nat × SpdmReq) => sansSpdm_serveSpdm s x.2.1 x.2.2.2) _ _).trans ?_
  simp [State.sansSpdm, h]

/-- A request that finds none pending on its interface or before it is served at once (R108). -/
theorem arriveSpdm_served {s : State} {r : SpdmReq} (kind : Nat) (hf : NMap.find s.sec.spdm r.iface = none)
    (hp : s.sec.pending = []) : arriveSpdm s kind r = serveSpdm s kind r := by
  simp [arriveSpdm, hf, hp]

/-- A request that finds others pending waits for them (R108). -/
theorem arriveSpdm_waits {s : State} {r : SpdmReq} {x : SecReq} {rest : List SecReq} (kind : Nat)
    (hf : NMap.find s.sec.spdm r.iface = none) (hp : s.sec.pending = x :: rest) :
    arriveSpdm s kind r = { s with sec := { s.sec with spdm := NMap.put s.sec.spdm r.iface (kind, rest.length + 1, r) } } := by
  simp [arriveSpdm, hf, hp]

/-- A measurement block of one slot is the slot (R109). -/
theorem serveSpdm_slot (s : State) {r : SpdmReq} (h1 : 1 ≤ r.index) (h16 : r.index ≤ 16) :
    serveSpdm s 6 r = answer s r spdmMeasurements (fitBytes 32 (slotOf s.sec (r.index - 1))) := by
  change answerMeasurements s r = _
  rw [answerMeasurements, if_neg (by omega), if_neg (by omega), if_pos (by omega), measurementBlock, if_neg (by omega)]

/-- NEGOTIATE_ALGORITHMS with SM2 or SM3 among the offers (R109). -/
theorem serveSpdm_algorithms (s : State) {r : SpdmReq} (h : r.sm2 = true ∨ r.sm3 = true) :
    serveSpdm s 2 r = answer s r spdmAlgorithms [if r.sm2 then 1 else 0, if r.sm3 then 1 else 0] := by
  change answerAlgorithms s r = _
  rw [answerAlgorithms, if_pos (by simpa using h)]
  cases r.sm2 <;> cases r.sm3 <;> rfl

/-- NEGOTIATE_ALGORITHMS with neither among the offers (R109, log entry 76). -/
theorem serveSpdm_no_algorithms (s : State) {r : SpdmReq} (h2 : r.sm2 = false) (h3 : r.sm3 = false) :
    serveSpdm s 2 r = spdmFails s r 1 := by
  change answerAlgorithms s r = _
  rw [answerAlgorithms, if_neg (by simp [h2, h3])]

/-- The quote as a measurement block: its nonces are drawn (R107, R109). -/
theorem serveSpdm_quote (s : State) {r : SpdmReq} (h : r.index = 17) :
    serveSpdm s 6 r = drawn (answer s r spdmMeasurements (quoteBytes s 0 0xFF r.nonce)) := by
  change answerMeasurements s r = _
  rw [answerMeasurements, if_neg (by omega), if_pos h, measurementBlock, if_pos rfl]

/-! ### The oldest request (R106, R108, R112) -/

/-- A request whose graph is gone leaves unserved (log entry 75). -/
theorem quoteCapture_void {s : State} {r : SecReq} {rest : List SecReq} (h : s.sec.pending = r :: rest) (hv : r.void = true) :
    exec .quoteCapture s = .next (if r.ext then s else popRequest s) := by
  simp [exec_quoteCapture, execQuoteCapture, h, served, hv]

theorem quoteExtendApply_void {s : State} {r : SecReq} {rest : List SecReq} (h : s.sec.pending = r :: rest) (hv : r.void = true) :
    exec .quoteExtendApply s = .next (if r.ext then popRequest s else s) := by
  cases hx : r.ext <;> simp [execQuoteExtendApply, h, served, hv, hx]

/-- The oldest QUOTE is captured (R108, R112). -/
theorem quoteCapture_quote {s : State} {r : SecReq} {rest : List SecReq} (h : s.sec.pending = r :: rest)
    (hx : r.ext = false) (hs : served s r = true) :
    exec .quoteCapture s =
      .next (((popRequest (drawn s)).setTile r.core r.buf (quoteBytes s 1 r.ctx r.bytes)).completeEntry r.core r.q 0 0) := by
  simp [execQuoteCapture, h, hx, hs]

/-- The oldest QUOTE.EXT extends its slot (R106). -/
theorem quoteExtendApply_extends {s : State} {r : SecReq} {rest : List SecReq} (h : s.sec.pending = r :: rest)
    (hx : r.ext = true) (hs : served s r = true) (h5 : 5 ≤ fld r.slot 3 0) (hz : fld r.slot 63 4 = 0) :
    exec .quoteExtendApply s =
      .next ((popRequest { s with sec := extendSlot s.sec (fld r.slot 3 0) r.bytes }).completeEntry r.core r.q 0 0) := by
  simp [execQuoteExtendApply, h, hx, hs, hz, h5]

/-- A QUOTE.EXT of a slot that it may not extend completes with status 3 (R106). -/
theorem quoteExtendApply_refused {s : State} {r : SecReq} {rest : List SecReq} (h : s.sec.pending = r :: rest)
    (hx : r.ext = true) (hs : served s r = true) (hb : fld r.slot 63 4 ≠ 0 ∨ fld r.slot 3 0 < 5) :
    exec .quoteExtendApply s = .next ((popRequest s).completeEntry r.core r.q 0 3) := by
  simp only [exec_quoteExtendApply, execQuoteExtendApply, h, hx, hs, Bool.not_true, Bool.false_eq_true, if_false, if_pos hb]

/-- An outstanding entry of a core that nothing holds up. -/
def EntryLive (k : Core) (q : Nat) : Prop :=
  (k.entry q).busy = true ∧ (k.entry q).done = false ∧ k.cut = false ∧ State.earlierDone k (k.entry q).seq = true

/-- A request has left with a status: its entry is done without a fault, and the others are still pending (R112). -/
def SecReq.Ended (r : SecReq) (rest : List SecReq) (status : Nat) (t : State) : Prop :=
  ((t.core r.core).entry r.q).done = true ∧ ((t.core r.core).entry r.q).fault = 0 ∧ ((t.core r.core).entry r.q).resp = status ∧
    t.sec.pending = rest

/-- An outstanding entry of a request that has left the block, completed with its status. -/
theorem SecReq.ended_completeEntry {s t : State} {r : SecReq} {rest : List SecReq} (status : Nat)
    (hl : EntryLive (s.core r.core) r.q) (hc : t.core r.core = s.core r.core) (hp : t.sec.pending = rest) :
    r.Ended rest status (t.completeEntry r.core r.q 0 status) := by
  rw [← hc] at hl
  obtain ⟨hb, hd, hcut, he⟩ := hl
  have hent := State.entry_completeEntry 0 status hb hd hcut he
  exact ⟨by rw [hent], by rw [hent], by rw [hent], hp⟩

section
variable {s : State} {r : SecReq} {rest : List SecReq} (h : s.sec.pending = r :: rest) (hs : served s r = true)
  (hl : EntryLive (s.core r.core) r.q)
include h hs hl

/-- The oldest QUOTE, served: its bytes stand at its buffer, its entry is done with status 0 (R107, R108, R112). -/
theorem quoteCapture_serves (hx : r.ext = false) :
    ∃ t, exec .quoteCapture s = .next t ∧ r.Ended rest 0 t ∧
      t.mem = memWrite s.mem (winBase r.core + r.buf) (quoteBytes s 1 r.ctx r.bytes) := by
  have hp := sansSpdm_popRequest (s := drawn s) h
  have hm : (popRequest (drawn s)).mem = s.mem := (congrArg State.mem hp :)
  refine ⟨_, quoteCapture_quote h hx hs, SecReq.ended_completeEntry 0 hl (congrArg (State.core · r.core) hp :)
    (congrArg (·.sec.pending) hp :), ?_⟩
  rw [← hm]; rfl

/-- The oldest QUOTE.EXT, served: its slot is extended, its entry done with status 0 (R104, R106). -/
theorem quoteExtendApply_serves (hx : r.ext = true) (h5 : 5 ≤ fld r.slot 3 0) (hz : fld r.slot 63 4 = 0) :
    ∃ t, exec .quoteExtendApply s = .next t ∧ r.Ended rest 0 t ∧ t.mem = s.mem ∧
      t.sec.ms = (extendSlot s.sec (fld r.slot 3 0) r.bytes).ms := by
  have hp := sansSpdm_popRequest (s := { s with sec := extendSlot s.sec (fld r.slot 3 0) r.bytes }) h
  exact ⟨_, quoteExtendApply_extends h hx hs h5 hz, SecReq.ended_completeEntry 0 hl (congrArg (State.core · r.core) hp :)
    (congrArg (·.sec.pending) hp :), (congrArg State.mem hp :), (congrArg (·.sec.ms) hp :)⟩

/-- The oldest QUOTE.EXT, of a slot that it may not extend: status 3, and no slot changes (R106). -/
theorem quoteExtendApply_refuses (hx : r.ext = true) (hb : fld r.slot 63 4 ≠ 0 ∨ fld r.slot 3 0 < 5) :
    ∃ t, exec .quoteExtendApply s = .next t ∧ r.Ended rest 3 t ∧ t.sec.ms = s.sec.ms ∧ t.mem = s.mem := by
  have hp := sansSpdm_popRequest h
  exact ⟨_, quoteExtendApply_refused h hx hs hb, SecReq.ended_completeEntry 3 hl (congrArg (State.core · r.core) hp :)
    (congrArg (·.sec.pending) hp :), (congrArg (·.sec.ms) hp :), (congrArg State.mem hp :)⟩

end

/-- Settles O54: each clause from the rule of its event; the cold reset from the machine it starts from. -/
theorem securityEvents : Obligations.SecurityEvents := by
  intro s r rest m e live key slot old ends given free answers waits
  have answered : ∀ {k kind : Nat} {payload : List Byte}, serveSpdm s k m = answer s m kind payload →
      free → s.sec.pending = [] → (.next (arriveSpdm s k m) : Result) = .next (given s kind payload) :=
    fun h hf hp => congrArg _ ((arriveSpdm_served _ hf hp).trans h)
  have waiting : ∀ {k : Nat}, free → s.sec.pending = r :: rest → (.next (arriveSpdm s k m) : Result) =
      .next { s with sec := { s.sec with spdm := NMap.put s.sec.spdm m.iface (k, rest.length + 1, m) } } :=
    fun hf hp => congrArg _ (arriveSpdm_waits _ hf hp)
  refine ⟨fun h hv => ⟨quoteCapture_void h hv, quoteExtendApply_void h hv⟩, fun h hl hs => ⟨fun hx hw => ?_, fun hx h5 hz => ?_,
      fun hx hb => quoteExtendApply_refuses h hs hl hx hb.symm⟩, answered rfl, answered rfl, answered rfl,
    fun h => ⟨answered (if_pos h), answered (if_pos h)⟩, fun h => ⟨answered (if_neg h), answered (if_neg h)⟩,
    fun h => answered (serveSpdm_algorithms s h), fun h2 h3 => answered (serveSpdm_no_algorithms s h2 h3),
    fun h1 h16 => answered (serveSpdm_slot s h1 h16),
    fun h hf hp => congrArg _ ((arriveSpdm_served 6 hf hp).trans (serveSpdm_quote s h)),
    fun h => answered (if_pos h),
    waiting, waiting, waiting, waiting, waiting, waiting, waiting, waiting, answered rfl, ?_⟩
  · obtain ⟨t, ht, hend, hmem⟩ := quoteCapture_serves h hs hl hx
    have hlen := length_quoteBytes s 1 r.ctx r.bytes
    refine ⟨t, ht, hend, hlen, fun j hj => ?_, fun x hx => ?_⟩
    · rw [hmem, memGet_memWrite hw, if_pos (by omega), Nat.add_sub_cancel_left]
    · rw [hmem, memGet_memWrite hw, if_neg (by omega)]
  · obtain ⟨t, ht, hend, hmem, hms⟩ := quoteExtendApply_serves h hs hl hx h5 hz
    refine ⟨t, ht, hend, hmem, ?_, fun n hn => ?_⟩
    · rw [hms, find_ms_extendSlot, if_pos rfl]; rfl
    · rw [hms, find_ms_extendSlot, if_neg hn]
  · obtain ⟨t, ht, hup, hrest⟩ := coldReset_eq s
    have hms : t.sec.ms = (bootMeasure (coldState s) { key := identityKey, resets := s.sec.resets + 1 }).ms :=
      (congrArg (·.sec.ms) hrest :)
    have hlinks : t.links = {} := (congrArg State.links hrest :)
    have hgrade : t.grade = s.grade := (congrArg State.grade hrest :)
    have hfuse : fuseBlock t = fuseBlock (coldState s) := fuseBlock_congr hgrade hlinks
    refine ⟨t, ht, (congrArg State.mem hrest :), (congrArg State.cores hrest :), (congrArg State.ctxs hrest :),
      (congrArg State.graphs hrest :), hlinks, (congrArg State.deck hrest :), (congrArg State.kitty hrest :), hgrade,
      (congrArg (·.sec.pending) hrest :),
      (congrArg (·.sec.spdm) hrest :), (congrArg (·.sec.key) hrest :), hup, fun n hn => ?_, fun i hi => ?_, ?_⟩
    · rw [hms, find_ms_bootMeasure_ge _ _ hn]; rfl
    · rw [hms, find_ms_bootMeasure_component _ _ hi, slotOf_blank]
    · rw [hms, hfuse, find_ms_bootMeasure_fuses, slotOf_blank]

end Sys2Proof.Machine
end

section
/-! What the halt of a graph changes: no memory, and of the graphs its own alone (R126, R264). -/

namespace Sys2Proof.Machine

/-- A graph that has been admitted and has not ended: a fault halts it (R264). -/
def Graph.Haltable (g : Graph) : Prop :=
  g.phase = .loading ∨ g.phase = .committing ∨ g.phase = .running ∨ g.phase = .freezing

namespace State

/-! ### What leaves memory and the graphs as they are -/

@[simp] theorem modCtx_mem (s : State) (x : Nat) (f : Ctx → Ctx) : (s.modCtx x f).mem = s.mem := by
  unfold modCtx; split <;> rfl
@[simp] theorem modCtx_graphs (s : State) (x : Nat) (f : Ctx → Ctx) : (s.modCtx x f).graphs = s.graphs := by
  unfold modCtx; split <;> rfl

@[simp] theorem countHost_mem (s : State) : s.countHost.mem = s.mem := rfl
@[simp] theorem countHost_graphs (s : State) : s.countHost.graphs = s.graphs := rfl

@[simp] theorem queueNotices_mem (s : State) (x : Nat) (ns : List Notice) : (s.queueNotices x ns).mem = s.mem := modCtx_mem ..
@[simp] theorem queueNotices_graphs (s : State) (x : Nat) (ns : List Notice) : (s.queueNotices x ns).graphs = s.graphs :=
  modCtx_graphs ..

@[simp] theorem notify_mem (s : State) (x : Nat) (n : Notice) : (s.notify x n).mem = s.mem := by
  unfold notify
  split
  · rfl
  · split_ifs <;> simp
@[simp] theorem notify_graphs (s : State) (x : Nat) (n : Notice) : (s.notify x n).graphs = s.graphs := by
  unfold notify
  split
  · rfl
  · split_ifs <;> simp

@[simp] theorem notifyGraph_mem (s : State) (h : Nat) (n : Notice) : (s.notifyGraph h n).mem = s.mem := notify_mem ..
@[simp] theorem notifyGraph_graphs (s : State) (h : Nat) (n : Notice) : (s.notifyGraph h n).graphs = s.graphs := notify_graphs ..

@[simp] theorem notifyCopied_mem (s : State) (h : Nat) (n : Notice) : (s.notifyCopied h n).mem = s.mem := by simp [notifyCopied]
@[simp] theorem notifyCopied_graphs (s : State) (h : Nat) (n : Notice) : (s.notifyCopied h n).graphs = s.graphs := by
  simp [notifyCopied]

@[simp] theorem completeEntry_graphs (s : State) (c q f v : Nat) : (s.completeEntry c q f v).graphs = s.graphs := rfl

@[simp] theorem completeAll_mem (s : State) (ws : List (Nat × Nat)) (f : Nat) : (s.completeAll ws f).mem = s.mem :=
  foldl_keeps State.mem (fun s (w : Nat × Nat) => completeEntry_mem s w.1 w.2 f 0) ws s
@[simp] theorem completeAll_graphs (s : State) (ws : List (Nat × Nat)) (f : Nat) : (s.completeAll ws f).graphs = s.graphs :=
  foldl_keeps State.graphs (fun s (w : Nat × Nat) => completeEntry_graphs s w.1 w.2 f 0) ws s

@[simp] theorem recordOutcome_mem (s : State) (h f : Nat) : (s.recordOutcome h f).mem = s.mem := modCtx_mem ..
@[simp] theorem recordOutcome_graphs (s : State) (h f : Nat) : (s.recordOutcome h f).graphs = s.graphs := modCtx_graphs ..

@[simp] theorem egressHalt_mem (s : State) (h f : Nat) : (s.egressHalt h f).mem = s.mem := rfl
@[simp] theorem egressHalt_graphs (s : State) (h f : Nat) : (s.egressHalt h f).graphs = s.graphs := rfl
@[simp] theorem unbindEgress_mem (s : State) (h : Nat) : (s.unbindEgress h).mem = s.mem := rfl
@[simp] theorem unbindEgress_graphs (s : State) (h : Nat) : (s.unbindEgress h).graphs = s.graphs := rfl

@[simp] theorem settleHalt_mem (s : State) (x : Nat) : (s.settleHalt x).mem = s.mem := by
  unfold settleHalt
  split
  · rfl
  · simp only; split <;> simp
@[simp] theorem settleHalt_graphs (s : State) (x : Nat) : (s.settleHalt x).graphs = s.graphs := by
  unfold settleHalt
  split
  · rfl
  · simp only; split <;> simp

@[simp] theorem foldl_modCore_mem {α : Type} (i : State → α → Nat) (f : State → α → Core → Core) (l : List α) (s : State) :
    (l.foldl (fun s a => s.modCore (i s a) (f s a)) s).mem = s.mem :=
  foldl_keeps State.mem (fun s a => modCore_mem s (i s a) (f s a)) l s
@[simp] theorem foldl_modCore_graphs {α : Type} (i : State → α → Nat) (f : State → α → Core → Core) (l : List α) (s : State) :
    (l.foldl (fun s a => s.modCore (i s a) (f s a)) s).graphs = s.graphs :=
  foldl_keeps State.graphs (fun s a => modCore_graphs s (i s a) (f s a)) l s

/-! ### Changes of one graph -/

/-- No byte of memory and no graph but one differs between two states. -/
def OnlyGraph (h : Nat) (s t : State) : Prop := t.mem = s.mem ∧ ∀ k, k ≠ h → t.graph? k = s.graph? k

theorem OnlyGraph.of_graphs {s t : State} (h : Nat) (hm : t.mem = s.mem) (hg : t.graphs = s.graphs) : OnlyGraph h s t :=
  ⟨hm, fun k _ => by rw [graph?, graph?, hg]⟩

theorem OnlyGraph.of_put {s t : State} {h : Nat} {g : Graph} (hm : t.mem = s.mem) (hg : t.graphs = NMap.put s.graphs h g) :
    OnlyGraph h s t :=
  ⟨hm, fun k hk => by rw [graph?, graph?, hg, NMap.find_put_ne _ _ hk]⟩

theorem OnlyGraph.trans {h : Nat} {s t u : State} (a : OnlyGraph h s t) (b : OnlyGraph h t u) : OnlyGraph h s u :=
  ⟨b.1.trans a.1, fun k hk => (b.2 k hk).trans (a.2 k hk)⟩

theorem onlyGraph_modGraph (s : State) (h : Nat) (f : Graph → Graph) : OnlyGraph h s (s.modGraph h f) := by
  unfold modGraph
  split
  · exact .of_graphs h rfl rfl
  · exact .of_put rfl rfl

/-- The phase and the cause of a graph. -/
def verdict (s : State) (h : Nat) : Option (Phase × Nat) := (s.graph? h).map fun g => (g.phase, g.cause)

theorem verdict_of_find {s : State} {h : Nat} {g : Graph} (hg : s.graph? h = some g) : s.verdict h = some (g.phase, g.cause) := by
  rw [verdict, hg]; rfl

theorem verdict_of_graphs {s t : State} {h : Nat} (hg : t.graphs = s.graphs) : t.verdict h = s.verdict h := by
  rw [verdict, verdict, graph?, graph?, hg]

theorem verdict_modGraph {s : State} {h : Nat} {f : Graph → Graph} (hf : ∀ g, (f g).phase = g.phase ∧ (f g).cause = g.cause) :
    (s.modGraph h f).verdict h = s.verdict h := by
  unfold modGraph
  split
  · rfl
  · next g hg => simp [verdict, graph?, NMap.find_put_self, hf, show NMap.find s.graphs h = some g from hg]

/-- The release of a graph's resources keeps its record but for what it held (R172). -/
theorem release_graphs {s : State} {h : Nat} {g : Graph} (hg : s.graph? h = some g) :
    (s.release h).mem = s.mem ∧ ∃ g', (s.release h).graphs = NMap.put s.graphs h g' ∧ g'.phase = g.phase ∧ g'.cause = g.cause := by
  unfold release
  simp only [hg, unbindEgress_mem, unbindEgress_graphs, foldl_modCore_mem, foldl_modCore_graphs]
  exact ⟨trivial, _, rfl, rfl, rfl⟩

theorem onlyGraph_release (s : State) (h : Nat) : OnlyGraph h s (s.release h) := by
  cases hg : s.graph? h with
  | none => exact .of_graphs h (by simp [release, hg]) (by simp [release, hg])
  | some g =>
    obtain ⟨hm, g', hp, -⟩ := release_graphs hg
    exact .of_put hm hp

theorem verdict_release (s : State) (h : Nat) : (s.release h).verdict h = s.verdict h := by
  cases hg : s.graph? h with
  | none => simp [release, hg]
  | some g =>
    obtain ⟨-, g', hp, h1, h2⟩ := release_graphs hg
    rw [verdict_of_find hg, verdict, graph?, hp, NMap.find_put_self, Option.map_some, h1, h2]

/-! ### Halts -/

/-- The notice of a fault that halts a graph (R160). -/
def haltNote (s : State) (h : Nat) (n : Notice) : Notice := { s.graphNotice h n with flags := n.flags ||| 1 }

/-- A fault that meets a running dump of its context is recorded there (R280). -/
def secondFault (s : State) (h : Nat) (note : Notice) : State :=
  match s.dump.current with
  | none => s
  | some d =>
    if d / 2 ^ 28 = h / 2 ^ 28 then
      match s.dump.secondary with
      | none => { s with dump := { s.dump with secondary := some note, flags := s.dump.flags ||| 4 } }
      | some _ => { s with dump := { s.dump with nsec := min (s.dump.nsec + 1) 0xFFFF } }
    else s

@[simp] theorem secondFault_mem (s : State) (h : Nat) (note : Notice) : (s.secondFault h note).mem = s.mem := by
  unfold secondFault; split
  · rfl
  · split
    · split <;> rfl
    · rfl
@[simp] theorem secondFault_graphs (s : State) (h : Nat) (note : Notice) : (s.secondFault h note).graphs = s.graphs := by
  unfold secondFault; split
  · rfl
  · split
    · split <;> rfl
    · rfl

/-- A graph has stopped with a fault: its waiters answered, its cores halted, its record marked (R126, R264). -/
def stopGraph (s : State) (h : Nat) (g : Graph) (n : Notice) : State :=
  let s3 := g.cores.foldl (fun s c => s.modCore c.2 fun k => { k.leaveWait with run := .graphHalted })
    ((s.secondFault h (s.haltNote h n)).completeAll g.waiters n.cause)
  { s3 with
    order := s3.order + 1
    graphs := NMap.put s3.graphs h
      { g with phase := .halted, cause := n.cause, primary := s.haltNote h n, waiters := [], frzSince := none, cutSince := none
               modeCtl := { g.modeCtl with step := 0 } } }

/-- A halted graph waits for its dump, or gives up what it holds when the queue is full (R276). -/
def queueDump (s : State) (h : Nat) : State :=
  if 64 ≤ s.dump.queue.length then (s.notifyCopied h { cause := 0x17B }).release h
  else { s with dump := { s.dump with queue := s.dump.queue ++ [h] } }

theorem onlyGraph_queueDump (s : State) (h : Nat) : OnlyGraph h s (s.queueDump h) := by
  unfold queueDump
  split
  · exact (OnlyGraph.of_graphs h (notifyCopied_mem ..) (notifyCopied_graphs ..)).trans (onlyGraph_release ..)
  · exact .of_graphs h rfl rfl

theorem verdict_queueDump (s : State) (h : Nat) : (s.queueDump h).verdict h = s.verdict h := by
  unfold queueDump
  split
  · exact (verdict_release ..).trans (verdict_of_graphs (notifyCopied_graphs ..))
  · rfl

/-- A fault that halts a graph runs through these stages (R126, R264, R276, R179). -/
theorem haltGraph_of_live {s : State} {h : Nat} {g : Graph} (n : Notice) (hg : s.graph? h = some g)
    (hp : g.Haltable) :
    s.haltGraph h n =
      ((((((s.stopGraph h g n).notify (h / 2 ^ 28) (s.haltNote h n)).recordOutcome h n.cause).egressHalt h n.cause).unbindEgress
        h).queueDump h).settleHalt (h / 2 ^ 28) := by
  unfold haltGraph
  simp only [hg]
  rcases hp with hp | hp | hp | hp <;> rw [hp] <;> rfl

/-- A further fault of a halted graph is recorded, no more (R266). -/
theorem haltGraph_of_halted {s : State} {h : Nat} {g : Graph} (n : Notice) (hg : s.graph? h = some g) (hp : g.phase = .halted) :
    s.haltGraph h n =
      (s.modGraph h fun g => { g with faults := (g.faults ++ [s.haltNote h n]).take 64 }).secondFault h (s.haltNote h n) := by
  unfold haltGraph
  simp only [hg]
  rw [hp]; rfl

theorem stopGraph_mem (s : State) (h : Nat) (g : Graph) (n : Notice) : (s.stopGraph h g n).mem = s.mem := by
  simp [stopGraph]

theorem stopGraph_graphs (s : State) (h : Nat) (g : Graph) (n : Notice) :
    ∃ g', (s.stopGraph h g n).graphs = NMap.put s.graphs h g' ∧ g'.phase = .halted ∧ g'.cause = n.cause := by
  simp only [stopGraph, foldl_modCore_graphs, completeAll_graphs, secondFault_graphs]
  exact ⟨_, rfl, rfl, rfl⟩

/-- A graph that a fault halts is halted with its cause (R126, R264). -/
theorem verdict_haltGraph_of_live {s : State} {h : Nat} {g : Graph} (n : Notice) (hg : s.graph? h = some g)
    (hp : g.Haltable) :
    (s.haltGraph h n).verdict h = some (.halted, n.cause) := by
  obtain ⟨g', hput, h1, h2⟩ := stopGraph_graphs s h g n
  rw [haltGraph_of_live n hg hp, verdict_of_graphs (settleHalt_graphs ..), verdict_queueDump,
    verdict_of_graphs (s := s.stopGraph h g n) (by simp), verdict, graph?, hput, NMap.find_put_self, Option.map_some, h1, h2]

/-- A graph that has halted stays so, with its first cause (R266). -/
theorem verdict_haltGraph_of_halted {s : State} {h : Nat} {g : Graph} (n : Notice) (hg : s.graph? h = some g) (hp : g.phase = .halted) :
    (s.haltGraph h n).verdict h = s.verdict h := by
  rw [haltGraph_of_halted n hg hp, verdict_of_graphs (secondFault_graphs ..)]
  exact verdict_modGraph fun _ => ⟨rfl, rfl⟩

theorem onlyGraph_haltGraph_of_live {s : State} {h : Nat} {g : Graph} (n : Notice) (hg : s.graph? h = some g)
    (hp : g.Haltable) : OnlyGraph h s (s.haltGraph h n) := by
  obtain ⟨g', hput, -⟩ := stopGraph_graphs s h g n
  rw [haltGraph_of_live n hg hp]
  refine OnlyGraph.trans ?_ ((onlyGraph_queueDump _ h).trans (.of_graphs h (settleHalt_mem ..) (settleHalt_graphs ..)))
  exact .of_put (by simp [stopGraph_mem]) (by simpa using hput)

/-- A halt changes no memory, and of the graphs its own alone. -/
theorem onlyGraph_haltGraph (s : State) (h : Nat) (n : Notice) : OnlyGraph h s (s.haltGraph h n) := by
  cases hg : s.graph? h with
  | none => exact .of_graphs h (by simp [haltGraph, hg]) (by simp [haltGraph, hg])
  | some g =>
    cases hp : g.phase with
    | halted =>
      rw [haltGraph_of_halted n hg hp]
      exact (onlyGraph_modGraph ..).trans (.of_graphs h (secondFault_mem ..) (secondFault_graphs ..))
    | loading | committing | running | freezing => exact onlyGraph_haltGraph_of_live n hg (by simp [Graph.Haltable, hp])
    | validating | queued | frozen | retired | refused =>
      exact .of_graphs h (by simp [haltGraph, hg, hp]) (by simp [haltGraph, hg, hp])

/-- A refusal changes no memory, and of the graphs its own alone (R144). -/
theorem onlyGraph_refuse (s : State) (h cause : Nat) : OnlyGraph h s (refuse s h cause) := by
  unfold refuse
  split
  · exact .of_graphs h rfl rfl
  · next g hg =>
    cases hl : g.launcher <;> exact .of_put (by simp [apply_ite State.mem]) (by simp [apply_ite State.graphs]; rfl)

end State

end Sys2Proof.Machine
end

section
/-! The host side: halts by a port's fault, the registers and records of the ports, the graph store, and O53. -/

namespace Sys2Proof.Machine

open State

/-! ### Halts by the host (R95, R101) -/

@[simp] theorem hostNote_mem (s : State) (cause n : Nat) : (hostNote s cause n).mem = s.mem := tellMgmt_mem ..

/-- A fault of a port changes no memory, and of the graphs that which it halts alone. -/
theorem onlyGraph_hostHalt (s : State) (h : Nat) (n : Notice) : OnlyGraph h s (hostHalt s h n) := by
  have told : OnlyGraph h s (s.countHost.notifyGraph h n) := .of_graphs h (notifyGraph_mem ..) (notifyGraph_graphs ..)
  have halts : OnlyGraph h s (s.countHost.haltGraph h n) :=
    (OnlyGraph.of_graphs h (countHost_mem s) (countHost_graphs s)).trans (onlyGraph_haltGraph ..)
  unfold hostHalt
  split
  · exact .of_graphs h rfl rfl
  · split
    case h_6 => split <;> assumption
    case h_1 | h_2 | h_3 => exact (onlyGraph_refuse ..).trans (onlyGraph_modGraph ..)
    all_goals assumption

/-- A running graph that the host halts is halted with the cause. -/
theorem verdict_hostHalt_of_running {s : State} {h : Nat} (n : Notice) {c : Nat} (hv : s.verdict h = some (.running, c)) :
    (hostHalt s h n).verdict h = some (.halted, n.cause) := by
  obtain ⟨g, hg, hp⟩ := Option.map_eq_some_iff.1 hv
  have hp : g.phase = .running := congrArg Prod.fst hp
  have he : hostHalt s h n = s.countHost.haltGraph h n := by simp only [hostHalt, hg]; rw [hp]
  rw [he]
  exact verdict_haltGraph_of_live n (s := s.countHost) hg (by simp [Graph.Haltable, hp])

/-- A halted graph keeps its first cause at a further fault (R266). -/
theorem verdict_hostHalt_of_halted {s : State} {h : Nat} (n : Notice) {c : Nat} (hv : s.verdict h = some (.halted, c)) :
    (hostHalt s h n).verdict h = some (.halted, c) := by
  obtain ⟨g, hg, hp⟩ := Option.map_eq_some_iff.1 hv
  have hp : g.phase = .halted := congrArg Prod.fst hp
  have he : hostHalt s h n = if awaitsDump s h then s.countHost.haltGraph h n else s.countHost.notifyGraph h n := by
    simp only [hostHalt, hg]; rw [hp]
  rw [he, ← hv]
  split
  · exact verdict_haltGraph_of_halted n (s := s.countHost) hg hp
  · exact verdict_of_graphs (notifyGraph_graphs ..)

theorem foldl_hostHalt_mem (n : Notice) (hs : List Nat) (s : State) : (hs.foldl (fun s h => hostHalt s h n) s).mem = s.mem :=
  foldl_keeps State.mem (fun s h => (onlyGraph_hostHalt s h n).1) hs s

/-- Of a list of graphs that the host halts, one that was halted stays so. -/
theorem verdict_foldl_hostHalt_of_halted (n : Notice) {h c : Nat} (hs : List Nat) {s : State}
    (hv : s.verdict h = some (.halted, c)) : (hs.foldl (fun s h => hostHalt s h n) s).verdict h = some (.halted, c) := by
  induction hs generalizing s with
  | nil => exact hv
  | cons k hs ih =>
    refine ih ?_
    by_cases hk : h = k
    · subst hk; exact verdict_hostHalt_of_halted n hv
    · exact (congrArg (Option.map _) ((onlyGraph_hostHalt s k n).2 h hk)).trans hv

/-- Of a list of graphs that the host halts, one that ran is halted with the cause. -/
theorem verdict_foldl_hostHalt (n : Notice) {h c : Nat} {hs : List Nat} (hm : h ∈ hs) {s : State}
    (hv : s.verdict h = some (.running, c)) : (hs.foldl (fun s h => hostHalt s h n) s).verdict h = some (.halted, n.cause) := by
  induction hs generalizing s with
  | nil => exact absurd hm (by simp)
  | cons k hs ih =>
    by_cases hk : h = k
    · subst hk; exact verdict_foldl_hostHalt_of_halted n hs (verdict_hostHalt_of_running n hv)
    · exact ih ((List.mem_cons.1 hm).resolve_left hk)
        ((congrArg (Option.map _) ((onlyGraph_hostHalt s k n).2 h hk)).trans hv)

theorem NMap.mem_of_find {α : Type} {m : NMap α} {k : Nat} {x : α} (h : NMap.find m k = some x) : (k, x) ∈ m := by
  induction m with
  | nil => simp [NMap.find] at h
  | cons p m ih =>
    obtain ⟨a, v⟩ := p
    simp only [NMap.find] at h
    split_ifs at h with h1 h2
    · rw [h1, Option.some.inj h]; exact List.mem_cons_self
    · exact List.mem_cons_of_mem _ (ih h)

/-- The link is lost: every running graph with a host port is halted with HOST.15 (R101). -/
theorem pcieLinkDown_halts (s : State) :
    ∃ t, exec .pcieLinkDown s = .next t ∧ t.mem = s.mem ∧
      ∀ h g, s.graph? h = some g → g.phase = .running → hasHostPort s (h, g) = true → t.verdict h = some (.halted, 0x12F) := by
  refine ⟨_, rfl, ?_, fun h g hg hp hport => ?_⟩
  · rw [foldl_hostHalt_mem, tellMgmt_mem]; rfl
  · refine verdict_foldl_hostHalt { cause := 0x12F, flags := 2 } ?_ (c := g.cause) ?_
    · refine List.mem_map.2 ⟨(h, g), List.mem_filter.2 ⟨NMap.mem_of_find hg, ?_⟩, rfl⟩
      simp [graphLives, hg, hp, hport]
    · rw [verdict_of_graphs (tellMgmt_graphs ..), verdict_of_graphs (countHost_graphs s), verdict_of_find hg, hp]

/-! ### Bytes of a ring (R99) -/

/-- A byte of a ring that a write does not reach reads as before. -/
theorem memGet_ringWrite_ne {base size x : Nat} {bs : List Byte} {m : List Host.Cell} {p : Nat} (hw : Memory.wf m = true)
    (hx : ∀ b, b < bs.length → x ≠ base + (p + b) % size) : memGet (ringWrite m base size p bs) x = memGet m x := by
  induction bs generalizing m p with
  | nil => rfl
  | cons v bs ih =>
    have h0 : x ≠ base + p % size := hx 0 (by simp)
    rw [ringWrite, ih (memPut_wf hw) fun b hb => ?_, memGet_memPut hw, if_neg h0]
    have := hx (b + 1) (by simpa using hb)
    rwa [Nat.add_right_comm p 1 b, Nat.add_assoc p b 1]

/-- The bytes of a write no longer than the ring stand at their stream positions. -/
theorem memGet_ringWrite {base size : Nat} {bs : List Byte} {m : List Host.Cell} {p b : Nat} (hw : Memory.wf m = true)
    (hl : bs.length ≤ size) (hb : b < bs.length) :
    memGet (ringWrite m base size p bs) (base + (p + b) % size) = bs.getD b 0 := by
  induction bs generalizing m p b with
  | nil => simp at hb
  | cons v bs ih =>
    simp only [List.length_cons] at hl hb
    cases b with
    | zero =>
      rw [ringWrite, memGet_ringWrite_ne (memPut_wf hw) fun b hb he => ?_, memGet_memPut hw, if_pos (by simp)]
      · rfl
      · have hmod : p + 0 ≡ p + (1 + b) [MOD size] := by
          rw [← Nat.add_assoc]; exact Nat.add_left_cancel he
        have := Nat.ModEq.eq_of_lt_of_lt (Nat.ModEq.add_left_cancel' p hmod) (by omega) (by omega)
        omega
    | succ b =>
      rw [ringWrite, show p + (b + 1) = p + 1 + b by omega, List.getD_cons_succ]
      exact ih (memPut_wf hw) (by omega) (by omega)

/-! ### Egress ports (R97 to R100) -/

@[simp] theorem egressOf_setEgress (s : State) (n : Nat) (e : Egress) : egressOf (setEgress s n e) n = e := NMap.getD_put_self ..

section
variable {s : State} {n : Nat} (hn : n < 64)
include hn

theorem egressEn_sets {en : Bool} (ha : (egressOf s n).asgn = true)
    (hl : en = true → 16 ≤ (egressOf s n).log2 ∧ (egressOf s n).log2 ≤ 30) :
    exec (.egressEn n en) s = .next (setEgress s n { egressOf s n with en := en }) := by
  simp only [exec_egressEn, execEgressEn, if_neg (show ¬64 ≤ n by omega), ha, if_true]
  rw [if_neg]
  cases en with
  | false => simp
  | true => have := hl rfl; simp; omega

theorem egressEn_refused (h : (egressOf s n).asgn = false ∨ (egressOf s n).log2 < 16 ∨ 30 < (egressOf s n).log2) :
    exec (.egressEn n true) s = .next (hostNote s 0x12D n) := by
  simp only [exec_egressEn, execEgressEn, if_neg (show ¬64 ≤ n by omega)]
  rw [if_pos (by simpa using h)]

theorem egressRst_sets (hg : (egressOf s n).graph = 0) :
    exec (.egressRst n) s = .next (setEgress s n { egressOf s n with fin := 0, rdpos := 0 }) := by
  simp [execEgressRst, resetEgress, hg, show ¬64 ≤ n by omega]

theorem egressRst_refused (hg : (egressOf s n).graph ≠ 0) : exec (.egressRst n) s = .next (hostNote s 0x12D n) := by
  simp [execEgressRst, resetEgress, hg, show ¬64 ≤ n by omega]

theorem rdposWrite_sets {v : Word} (h1 : (egressOf s n).rdpos ≤ v.toNat) (h2 : v.toNat ≤ (egressOf s n).fin) :
    exec (.rdposWrite n v) s = .next (setEgress s n { egressOf s n with rdpos := v.toNat }) := by
  simp only [exec_rdposWrite, execRdposWrite]
  rw [if_neg (by omega), if_neg (by omega)]

theorem rdposWrite_refused {v : Word} (h : v.toNat < (egressOf s n).rdpos ∨ (egressOf s n).fin < v.toNat) :
    exec (.rdposWrite n v) s = .next (hostNote s 0x12B n) := by
  simp only [exec_rdposWrite, execRdposWrite]
  rw [if_neg (by omega), if_pos h]

end

section
variable {s : State} {n j : Nat} {tok : List Byte} {rest : List Item} {g : Graph} {r : PortRec}
  (hrec : (egressOf s n).records = .data tok :: rest) (hg : s.graph? (egressOf s n).graph = some g)
  (hp : g.phase = .running) (hcut : g.cutSince = none) (hen : (egressOf s n).en = true)
  (hport : ((List.range (nPorts g.img)).map fun j => (j, portRec g.img j)).find?
    (fun y => y.2.isOut && y.2.host == (egressOf s n).sink) = some (j, r))
include hrec hg hport

/-- The oldest record of a host sink waits while the ring has no room for it (R99). -/
theorem egressRecordWrite_waits (hfull : 2 ^ (egressOf s n).log2 <
      (egressOf s n).fin + (egressRecord (egressOf s n) r.tcode (.data tok)).length - (egressOf s n).rdpos) :
    exec (.egressRecordWrite n) s = .next s := by
  simp only [exec_egressRecordWrite, execEgressRecordWrite, hrec, hg, hport]
  rw [if_pos (by simp [hfull])]

include hp hcut hen

/-- The oldest record of a host sink is written to the ring that has room for it (R99, R100). -/
theorem egressRecordWrite_writes (hroom : (egressOf s n).fin + (egressRecord (egressOf s n) r.tcode (.data tok)).length
      - (egressOf s n).rdpos ≤ 2 ^ (egressOf s n).log2) :
    ∃ t, exec (.egressRecordWrite n) s = .next t ∧ t.mem = s.mem ∧
      egressOf t n = { egressOf s n with
        records := rest, fin := (egressOf s n).fin + (egressRecord (egressOf s n) r.tcode (.data tok)).length
        ords := (egressOf s n).ords + 1, wordDue := true
        word := ((egressOf s n).fin + (egressRecord (egressOf s n) r.tcode (.data tok)).length) % 2 ^ 53 } ∧
      t.host.mem = ringWrite s.host.mem (egressOf s n).rbase.toNat (2 ^ (egressOf s n).log2) (egressOf s n).fin
        (egressRecord (egressOf s n) r.tcode (.data tok)) := by
  simp only [exec_egressRecordWrite, execEgressRecordWrite, hrec, hg, hport]
  rw [if_neg (by simpa [hen, hp, hcut] using hroom)]
  refine ⟨_, rfl, rfl, (egressOf_setEgress s n _).trans ?_, rfl⟩
  simp

end

/-- A completion word that is due is written at its address (R100). -/
theorem completionWordWrite_writes {s : State} {n : Nat} (hd : (egressOf s n).wordDue = true) :
    ∃ t, exec (.completionWordWrite n) s = .next t ∧ t.mem = s.mem ∧
      egressOf t n = { egressOf s n with wordDue := false } ∧
      t.host.mem = memWrite s.host.mem (egressOf s n).cwa.toNat (leBytes 8 (egressOf s n).word) := by
  simp only [exec_completionWordWrite, execCompletionWordWrite, hd]
  exact ⟨_, rfl, rfl, egressOf_setEgress .., rfl⟩

/-! ### The graph store (R88, R89) -/

theorem writeStore_sets {s : State} {v : Word} (h : storeRefused s v = false) :
    writeStore v s = { s with host := { s.host with gs := v &&& 0x8000000000FF01FF#64 } } := by
  simp [writeStore, h, storeMask]

theorem writeStore_refused {s : State} {v : Word} (h : storeRefused s v = true) : writeStore v s = hostNote s 0x12D 0 := by
  simp [writeStore, h]

/-- Without marked storage errors a read corrects nothing (R273). -/
theorem correct_mem_of_unmarked {s : State} (h : s.ecc.marks = []) (a n : Nat) : (s.correct a n).mem = s.mem := by
  simp [State.correct, h]

section
variable {s : State} {off : Nat} {bytes : List Byte}

/-- An access within the enabled store passes its test (R89). -/
theorem storeTest_within (h : storeOn s = true ∧ off + bytes.length ≤ storeSize s) :
    (!(storeOn s) || decide (storeSize s < off + bytes.length)) = false := by
  simpa [h.1] using h.2

/-- An access while the store is disabled, or beyond its end, fails its test (R89). -/
theorem storeTest_outside (h : ¬(storeOn s = true ∧ off + bytes.length ≤ storeSize s)) :
    (!(storeOn s) || decide (storeSize s < off + bytes.length)) = true := by
  cases ho : storeOn s with
  | false => rfl
  | true => simpa [ho] using h

/-- A BAR 4 write within the store reaches HBM4 (R89). -/
theorem graphStoreAccess_write (h : storeOn s = true ∧ off + bytes.length ≤ storeSize s) :
    exec (.graphStoreAccess off true bytes) s = .next (s.write (storeBase s + off) bytes) := by
  simp [execGraphStoreAccess, storeTest_within h]

/-- A BAR 4 read within the store gives its bytes where no storage error is marked (R89). -/
theorem graphStoreAccess_read (h : storeOn s = true ∧ off + bytes.length ≤ storeSize s) (hm : s.ecc.marks = []) :
    ∃ t, exec (.graphStoreAccess off false bytes) s = .next t ∧
      t.host.readData = s.read (storeBase s + off) bytes.length ∧ t.mem = s.mem := by
  have hu : s.ueAt (storeBase s + off) bytes.length = none := by simp [State.ueAt, hm, minOf]
  have hc := correct_mem_of_unmarked hm (storeBase s + off) bytes.length
  simp only [exec_graphStoreAccess, execGraphStoreAccess, storeTest_within h, hu, Bool.false_eq_true, if_false]
  exact ⟨_, rfl, by simp only [State.read, hc], hc⟩

/-- A BAR 4 access beyond the store has no effect but HOST.12, and reads bytes of 0xFF (R89, log entry 39). -/
theorem graphStoreAccess_outside (h : ¬(storeOn s = true ∧ off + bytes.length ≤ storeSize s)) (wr : Bool) :
    exec (.graphStoreAccess off wr bytes) s = .next (if wr then hostNote s 0x12C 0
      else { hostNote s 0x12C 0 with
        host := { (hostNote s 0x12C 0).host with readData := List.replicate bytes.length 0xFF } }) := by
  simp only [exec_graphStoreAccess, execGraphStoreAccess, storeTest_outside h, if_true]

end

/-! ### Registers of BAR 0 (R8, R85, R91, R97) -/

section
variable {n reg off : Nat} (hn : n < 64) (hr : reg < 0x1000)
include hn hr

theorem registerWrite_ingress (ho : off = 0x100000 + 0x1000 * n + reg) (v : Word) (s : State) :
    exec (.registerWrite off v) s = .next (writeIngress n reg v s) := by
  simp only [exec_registerWrite, execRegisterWrite]
  rw [if_neg (by omega), if_pos (by omega), show (off - 0x100000) / 0x1000 = n by omega, show off % 0x1000 = reg by omega]

theorem registerWrite_egress (ho : off = 0x200000 + 0x1000 * n + reg) (v : Word) (s : State) :
    exec (.registerWrite off v) s = .next (writeEgress n reg v s) := by
  simp only [exec_registerWrite, execRegisterWrite]
  rw [if_neg (by omega), if_neg (by omega), if_pos (by omega), show (off - 0x200000) / 0x1000 = n by omega,
    show off % 0x1000 = reg by omega]

theorem registerValue_ingress (ho : off = 0x100000 + 0x1000 * n + reg) (s : State) :
    registerValue s off = readIngress (ingressOf s n) reg := by
  unfold registerValue
  rw [if_neg (by omega), if_neg (by omega), if_pos (by omega), show (off - 0x100000) / 0x1000 = n by omega,
    show off % 0x1000 = reg by omega]

theorem registerValue_egress (ho : off = 0x200000 + 0x1000 * n + reg) (s : State) :
    registerValue s off = readEgress (egressOf s n) reg := by
  unfold registerValue
  rw [if_neg (by omega), if_neg (by omega), if_neg (by omega), if_pos (by omega), show (off - 0x200000) / 0x1000 = n by omega,
    show off % 0x1000 = reg by omega]

end

/-- An offset without a register reads as zero, and a write to it is discarded (R8, R85). -/
theorem register_absent {off : Nat} (h0 : 0x10 ≤ off)
    (h : off < 0x100000 ∨ 0x140000 ≤ off ∧ off < 0x200000 ∨ 0x240000 ≤ off) (v : Word) (s : State) :
    registerValue s off = 0 ∧ exec (.registerWrite off v) s = .next s := by
  constructor
  · unfold registerValue
    rw [if_neg (by omega), if_neg (by omega), if_neg (by omega), if_neg (by omega)]
  · simp only [exec_registerWrite, execRegisterWrite]
    rw [if_neg (by omega), if_neg (by omega), if_neg (by omega)]

/-- A locked register of an egress port is not written while the port is enabled (R97). -/
theorem writeEgress_locked {s : State} {n : Nat} (he : (egressOf s n).en = true) (v : Word) :
    writeEgress n 8 v s = hostNote s 0x12D n := by
  simp [writeEgress, he]

/-- The ring base, the ring's size and the address of the completion word are written while the port is not enabled (R97). -/
theorem writeEgress_sets {s : State} {n : Nat} (he : (egressOf s n).en = false) (v : Word) :
    writeEgress n 8 v s = setEgress s n { egressOf s n with rbase := v &&& 0xFFFFFFFFFFFFF000#64 } ∧
    writeEgress n 0x10 v s = setEgress s n { egressOf s n with log2 := fld v 4 0 } ∧
    writeEgress n 0x18 v s = setEgress s n { egressOf s n with cwa := v &&& 0xFFFFFFFFFFFFFFF8#64 } := by
  simp [writeEgress, he]

/-- The write-back address of an ingress port is written while the port is not enabled (R91). -/
theorem writeIngress_cwb (s : State) (n : Nat) (v : Word) :
    writeIngress n 8 v s = if (ingressOf s n).en then hostNote s 0x12D n
      else setIngress s n { ingressOf s n with cwb := v &&& 0xFFFFFFFFFFFFFFF8#64 } := by
  simp [writeIngress]

/-- Settles O53: each clause from the rule of its register or event; of the lost link, from the halts of the graphs in turn. -/
theorem egressAndStoreEvents : Obligations.EgressAndStoreEvents := by
  intro s n off j v bytes tok rest g r e set record a inStore port
  refine ⟨fun hn => ⟨fun ha h1 h2 => egressEn_sets hn ha fun _ => ⟨h1, h2⟩, fun ha => egressEn_sets hn ha (by simp),
      egressEn_refused hn, egressRst_sets hn, egressRst_refused hn, rdposWrite_sets hn, rdposWrite_refused hn⟩,
    fun hrec hg hp hcut hen hport hw hl => ⟨egressRecordWrite_waits hrec hg hport, fun hroom => ?_⟩,
    fun hd hw => ?_,
    fun h => ⟨congrArg _ (writeStore_sets h), congrArg _ (writeStore_sets h)⟩,
    fun h => congrArg _ (writeStore_refused h),
    fun h => ⟨graphStoreAccess_write h, graphStoreAccess_read h⟩,
    fun h => ⟨graphStoreAccess_outside h true, _, graphStoreAccess_outside h false, rfl, hostNote_mem ..⟩,
    fun hn he => (registerWrite_ingress hn (reg := 8) (by omega) (by omega) v s).trans (by rw [writeIngress_cwb, he]; rfl),
    fun hn he => (registerWrite_ingress hn (reg := 8) (by omega) (by omega) v s).trans (by rw [writeIngress_cwb, he]; rfl),
    fun hn he => ?_,
    fun hn he => (registerWrite_egress hn (reg := 8) (by omega) (by omega) v s).trans (congrArg _ (writeEgress_locked he v)),
    fun hn => ⟨registerValue_ingress hn (reg := 0x18) (by omega) (by omega) s,
      registerValue_egress hn (reg := 0x20) (by omega) (by omega) s⟩,
    fun h0 h => register_absent h0 h v s, ?_⟩
  · obtain ⟨t, ht, hmem, hent, hhost⟩ := egressRecordWrite_writes hrec hg hp hcut hen hport hroom
    exact ⟨t, ht, hent, fun b hb => by rw [hhost]; exact memGet_ringWrite hw hl hb, hmem⟩
  · obtain ⟨t, ht, hmem, hent, hhost⟩ := completionWordWrite_writes hd
    refine ⟨t, ht, hent, fun b hb => ?_, hmem⟩
    rw [hhost, memGet_memWrite hw, if_pos (by rw [length_leBytes]; exact ⟨Nat.le_add_right .., Nat.add_lt_add_left hb _⟩),
      Nat.add_sub_cancel_left, getD_leBytes hb]
  · obtain ⟨hbase, hsize, hword⟩ := writeEgress_sets he v
    exact ⟨(registerWrite_egress hn (by omega) (by omega) v s).trans (congrArg _ hbase),
      (registerWrite_egress hn (by omega) (by omega) v s).trans (congrArg _ hsize),
      (registerWrite_egress hn (by omega) (by omega) v s).trans (congrArg _ hword)⟩
  · obtain ⟨t, ht, hmem, hall⟩ := pcieLinkDown_halts s
    refine ⟨t, ht, hmem, fun h g _ hg hp hport => hall h g hg hp ?_⟩
    rw [hasHostPort, Bool.or_eq_true, List.any_eq_true, List.any_eq_true]
    rcases hport with ⟨p, q, hq, hqg, hqs⟩ | ⟨p, hpm, hph⟩
    · exact .inr ⟨(p, q), hq, by simp [hqg, hqs]⟩
    · exact .inl ⟨p, hpm, by simpa using hph⟩

end Sys2Proof.Machine
end

section
/-! What notices leave as it was, and what the halt and release of a graph leave of the ports. -/

namespace Sys2Proof.Machine

namespace State

/-! ### What notices leave as it was -/

/-- A state but for its notices, its contexts, its graphs' records and the deck bus. -/
def sansTold (s : State) : State := { s.sansNotes with ctxs := [], graphs := [], deck := {} }

@[simp] theorem sansTold_tellMgmt (s : State) (n : Notice) : (s.tellMgmt n).sansTold = s.sansTold := by
  rw [sansTold, sansNotes_tellMgmt, sansTold]

@[simp] theorem sansTold_modCtx (s : State) (x : Nat) (f : Ctx → Ctx) : (s.modCtx x f).sansTold = s.sansTold := by
  unfold modCtx; split <;> rfl

@[simp] theorem sansTold_modGraph (s : State) (h : Nat) (f : Graph → Graph) : (s.modGraph h f).sansTold = s.sansTold := by
  unfold modGraph; split <;> rfl

@[simp] theorem sansTold_queueNotices (s : State) (x : Nat) (ns : List Notice) : (s.queueNotices x ns).sansTold = s.sansTold :=
  sansTold_modCtx ..

/-- A notice to a supervisor changes its context's queue and the hub alone (R161). -/
@[simp] theorem sansTold_notify (s : State) (x : Nat) (n : Notice) : (s.notify x n).sansTold = s.sansTold := by
  unfold notify
  split
  · rfl
  · split_ifs <;> simp

@[simp] theorem sansTold_notifyGraph (s : State) (h : Nat) (n : Notice) : (s.notifyGraph h n).sansTold = s.sansTold :=
  sansTold_notify ..

@[simp] theorem tellMgmt_links (s : State) (n : Notice) : (s.tellMgmt n).links = s.links :=
  (congrArg State.links (sansTold_tellMgmt s n) :)
@[simp] theorem modCtx_links (s : State) (x : Nat) (f : Ctx → Ctx) : (s.modCtx x f).links = s.links :=
  (congrArg State.links (sansTold_modCtx s x f) :)
@[simp] theorem modGraph_links (s : State) (h : Nat) (f : Graph → Graph) : (s.modGraph h f).links = s.links :=
  (congrArg State.links (sansTold_modGraph s h f) :)
@[simp] theorem notify_links (s : State) (x : Nat) (n : Notice) : (s.notify x n).links = s.links :=
  (congrArg State.links (sansTold_notify s x n) :)
@[simp] theorem notifyGraph_links (s : State) (h : Nat) (n : Notice) : (s.notifyGraph h n).links = s.links := notify_links ..
@[simp] theorem notifyCopied_links (s : State) (h : Nat) (n : Notice) : (s.notifyCopied h n).links = s.links := by
  simp [notifyCopied]

/-! ### What the halt and release of a graph leave of the ports (R81) -/

@[simp] theorem completeAll_links (s : State) (ws : List (Nat × Nat)) (f : Nat) : (s.completeAll ws f).links = s.links :=
  foldl_keeps State.links (f := fun s (w : Nat × Nat) => s.completeEntry w.1 w.2 f 0) (fun _ _ => rfl) ws s
@[simp] theorem egressHalt_links (s : State) (h f : Nat) : (s.egressHalt h f).links = s.links := rfl
@[simp] theorem unbindEgress_links (s : State) (h : Nat) : (s.unbindEgress h).links = s.links := rfl
@[simp] theorem recordOutcome_links (s : State) (h f : Nat) : (s.recordOutcome h f).links = s.links := modCtx_links ..
@[simp] theorem settleHalt_links (s : State) (x : Nat) : (s.settleHalt x).links = s.links := by
  unfold settleHalt
  split
  · rfl
  · simp only; split <;> simp
@[simp] theorem secondFault_links (s : State) (h : Nat) (n : Notice) : (s.secondFault h n).links = s.links := by
  unfold secondFault
  split
  · rfl
  · split
    · split <;> rfl
    · rfl

theorem foldl_modCore_links {α : Type} (i : State → α → Nat) (f : State → α → Core → Core) (l : List α) (s : State) :
    (l.foldl (fun s a => s.modCore (i s a) (f s a)) s).links = s.links :=
  foldl_keeps State.links (f := fun s a => s.modCore (i s a) (f s a)) (fun _ _ => rfl) l s

@[simp] theorem stopGraph_links (s : State) (h : Nat) (g : Graph) (n : Notice) : (s.stopGraph h g n).links = s.links := by
  simp [stopGraph, foldl_modCore_links]

/-- The release of a graph takes its channels and requests from the links; which ports retrain stays. -/
@[simp] theorem release_retrain (s : State) (h : Nat) : (s.release h).links.retrain = s.links.retrain := by
  cases hg : s.graph? h <;> simp [release, hg, foldl_modCore_links]

@[simp] theorem queueDump_retrain (s : State) (h : Nat) : (s.queueDump h).links.retrain = s.links.retrain := by
  unfold queueDump; split <;> simp

@[simp] theorem haltGraph_retrain (s : State) (h : Nat) (n : Notice) : (s.haltGraph h n).links.retrain = s.links.retrain := by
  cases hg : s.graph? h with
  | none => simp [haltGraph, hg]
  | some g =>
    cases hp : g.phase with
    | halted => simp [haltGraph_of_halted n hg hp]
    | loading | committing | running | freezing => simp [haltGraph_of_live n hg (by simp [Graph.Haltable, hp] : g.Haltable)]
    | validating | queued | frozen | retired | refused => simp [haltGraph, hg, hp]

@[simp] theorem abortLoad_retrain (s : State) (h : Nat) : (s.abortLoad h).links.retrain = s.links.retrain := by simp [abortLoad]

@[simp] theorem dropPeer_retrain (s : State) (h : Nat) : (s.dropPeer h).links.retrain = s.links.retrain := by
  unfold dropPeer
  split
  · rfl
  · split <;> simp

@[simp] theorem failLoad_retrain (s : State) (h : Nat) : (s.failLoad h).links.retrain = s.links.retrain := by
  unfold failLoad
  split
  · rfl
  · split <;> simp [reportLoad]

end State

@[simp] theorem requeue_retrain (s : State) (h : Nat) : (requeue s h).links.retrain = s.links.retrain := by
  unfold requeue
  split
  · rfl
  · simp only; split <;> simp

end Sys2Proof.Machine
end

section
/-! Requests between packages (R68, R69, R71, R72). -/

namespace Sys2Proof.Machine

open State

/-! ### An access to local HBM4 (R188, R226) -/

/-- Without marked storage errors there is nothing to correct (R273). -/
theorem correct_of_unmarked {s : State} (h : s.ecc.marks = []) (a n : Nat) : s.correct a n = s := by
  simp only [State.correct, h, List.filter_nil, List.map_nil, List.foldl_nil]
  rw [← h]

/-- Without marked storage errors no read meets an uncorrectable one (R272). -/
theorem ueAt_of_unmarked {s : State} (h : s.ecc.marks = []) (a n : Nat) : s.ueAt a n = none := by simp [ueAt, h, minOf]

theorem regionOf_hbm (s : State) {pa : Nat} (h : pa < 2 ^ 39) : regionOf s pa = .hbm := if_pos h

section
variable {s : State} {pa n : Nat} (hn : 0 < n) (hpa : pa + n ≤ 2 ^ 39)
include hn hpa

/-- A relaxed access within HBM4 that is no AADDF meets no fault at its home (R193). -/
theorem homeFault_hbm (c : Nat) {op : QOp} (hop : op ≠ .aaddf) (md : Mode) (sc : Scope) :
    homeFault s c (accOf op n md .rlx sc) pa = none := by
  have hr := regionOf_hbm s (show pa < 2 ^ 39 by omega)
  have hr2 := regionOf_hbm s (show pa + n - 1 < 2 ^ 39 by omega)
  simp [homeFault, accOf, hr, hr2, hop]

theorem performAccess_load (card data cmp pa2 : Nat) : performAccess s card .ldq n data cmp pa n pa2 = (ofLe (s.read pa n), s) := by
  simp [performAccess, spanRead, localRead, regionOf_hbm s (show pa < 2 ^ 39 by omega)]

theorem performAccess_store (card data cmp pa2 : Nat) :
    performAccess s card .stq n data cmp pa n pa2 = (0, s.write pa (leBytes n data)) := by
  have hr := regionOf_hbm s (show pa < 2 ^ 39 by omega)
  simp [performAccess, spanWrite, homeStore, statTarget, localWrite, hr, List.take_of_length_le]

end

/-! ### Requests of other packages (R68, R71) -/

section
variable {s : State} {m : RemoteMsg}

/-- The recorded answer to a request, if its sequence number is among those kept (R71). -/
def seenReply (s : State) (m : RemoteMsg) : Option Reply :=
  s.links.seen.find? fun r => r.pkg == m.pkg && r.core == m.core && r.seq == m.seq.toNat

/-- No request of the kitty has the sequence number of another. -/
def NotParked (s : State) (m : RemoteMsg) : Prop :=
  ∀ p y, p ∈ s.kitty → p.msg = some y → y.pkg ≠ m.pkg ∨ y.core ≠ m.core ∨ y.seq ≠ m.seq

theorem not_any_same (h : NotParked s m) :
    ¬ (s.kitty.any fun p => match p.msg with
      | some x => x.pkg == m.pkg && x.core == m.core && x.seq == m.seq
      | none => false) = true := by
  rw [List.any_eq_true]
  rintro ⟨p, hp, hs⟩
  cases hm : p.msg with
  | none => simp [hm] at hs
  | some y =>
    have := h p y hp hm
    simp only [hm, Bool.and_eq_true, beq_iff_eq] at hs
    tauto

theorem remoteRequest_of_down (h : routeUp s m.pkg = false) : exec (.remoteRequest m) s = .next s := by
  simp [execRemoteRequest, h]

theorem remoteRequest_of_seen {r : Reply} (h : routeUp s m.pkg = true) (hr : seenReply s m = some r) :
    exec (.remoteRequest m) s = .next ((sendReply s r false).countMgmt 0x11E) := by
  rw [seenReply] at hr
  simp [execRemoteRequest, h, hr]

section
variable (h : routeUp s m.pkg = true) (hr : seenReply s m = none) (hk : NotParked s m)
include h hr hk

/-- A new request outside every import range is answered with LINK.4 (R68). -/
theorem remoteRequest_refused (hi : importOk s m = false) :
    exec (.remoteRequest m) s = .next (sendReply s (replyTo m 0x114 0) false) := by
  rw [seenReply] at hr
  simp only [exec_remoteRequest, execRemoteRequest, h, hr, hi, Bool.not_true, Bool.not_false, Bool.false_eq_true, if_false, if_true]
  exact congrArg _ (if_neg (not_any_same hk))

/-- A new request within an import range whose page is not parked is performed (R68). -/
theorem remoteRequest_performed (hi : importOk s m = true) (hp : remotePark s m = none) :
    exec (.remoteRequest m) s = .next (performRemote s m) := by
  rw [seenReply] at hr
  simp only [exec_remoteRequest, execRemoteRequest, h, hr, hi, hp, Bool.not_true, Bool.false_eq_true, if_false]
  exact congrArg _ (if_neg (not_any_same hk))

end

/-- A relaxed load or store of HBM4 without marked errors is performed, and its answer recorded (R68). -/
theorem performRemote_of_plain (hop : m.op ≠ .aaddf) (hm : s.ecc.marks = []) (hn : 0 < m.bytes) (ha : m.addr + m.bytes ≤ 2 ^ 39) :
    performRemote s m = sendReply (performAccess s 0 m.op m.bytes m.data m.cmp m.addr m.bytes 0).2
      (replyTo m 0 (performAccess s 0 m.op m.bytes m.data m.cmp m.addr m.bytes 0).1) true := by
  simp only [performRemote, homeFault_hbm hn ha 0 hop, ueAt_of_unmarked hm, correct_of_unmarked hm]

/-- Another package's load is answered with the bytes (R68). -/
theorem performRemote_load (hop : m.op = .ldq) (hm : s.ecc.marks = []) (hn : 0 < m.bytes) (ha : m.addr + m.bytes ≤ 2 ^ 39) :
    performRemote s m = sendReply s (replyTo m 0 (ofLe (s.read m.addr m.bytes))) true := by
  rw [performRemote_of_plain (by simp [hop]) hm hn ha, hop, performAccess_load hn ha]

/-- Another package's store writes its bytes (R68). -/
theorem performRemote_store (hop : m.op = .stq) (hm : s.ecc.marks = []) (hn : 0 < m.bytes) (ha : m.addr + m.bytes ≤ 2 ^ 39) :
    performRemote s m = sendReply (s.write m.addr (leBytes m.bytes m.data)) (replyTo m 0 0) true := by
  rw [performRemote_of_plain (by simp [hop]) hm hn ha, hop, performAccess_store hn ha]

/-- A request that names no parked page, and finds none before it for its page, waits for none (R203, R204). -/
theorem remotePark_none (hp : m.parked = none) (hk : kittyHas s m.addr = false) : remotePark s m = none := by
  simp [remotePark, hp, hk]

end

/-! ### Requests of this package (R69, R72) -/

section
variable {s : State} {c q : Nat} {o : Away} (ho : onWay s c q = some o)
include ho

theorem remoteResponse_held (cause : BitVec 9) (data : Nat) (h : takesNone s c = true ∨ routeUp s o.pkg = false) :
    exec (.remoteResponse c q cause data) s = .next s := by
  simp only [exec_remoteResponse, execRemoteResponse, ho]
  rw [if_pos (by simpa using h)]

theorem remoteResponse_brought (cause : BitVec 9) (data : Nat) (ht : takesNone s c = false) (hr : routeUp s o.pkg = true) :
    exec (.remoteResponse c q cause data) s = .next (bring (leaveOutbox s o) c q cause.toNat data) := by
  simp [execRemoteResponse, ho, ht, hr]

theorem remoteTimeout_early (hc : c < 2304) (h : s.clock c < o.since + 5 * 1000000) : exec (.remoteTimeout c q) s = .next s := by
  simp [execRemoteTimeout, ho, retryClock, hc, nanos]; omega

theorem remoteTimeout_due (hc : c < 2304) (h : o.since + 5 * 1000000 ≤ s.clock c) :
    exec (.remoteTimeout c q) s = .next (bring (leaveOutbox s o) c q 0x115 0) := by
  simp [execRemoteTimeout, ho, retryClock, hc, nanos, h]

end

/-- A load's response completes its entry with the bytes it asked for, or its cause (R69). -/
theorem bring_load {s : State} {c q : Nat} (hq : q < 16) (he : entryOp ((s.core c).entry q) = some .ldq) (cause data : Nat) :
    bring s c q cause data =
      s.completeEntry c q cause (if cause = 0 then data % 2 ^ (8 * ((s.core c).entry q).bytes) else 0) := by
  simp [bring, hq, he]

/-- A cause completes an entry without data (R69, R72). -/
theorem bring_cause {s : State} {c q cause : Nat} (hq : q < 16) (hc : cause ≠ 0) (data : Nat) :
    bring s c q cause data = s.completeEntry c q cause 0 := by
  simp [bring, hq, hc]

/-- The answer to a request that no queue entry waits for is kept (R69). -/
theorem bring_kept {s : State} {c q : Nat} (hq : 16 ≤ q) (cause data : Nat) :
    bring s c q cause data = { s with links := { s.links with inbox := s.links.inbox ++ [⟨c, q, cause, data⟩] } } :=
  if_neg (by omega)

end Sys2Proof.Machine
end

section
/-! Tokens and credits of the channels between packages (R75, R77, R83). -/

namespace Sys2Proof.Machine

open State

/-! ### Tokens that are counted (R75, R77) -/

/-- A channel that has received one token more, late or not. -/
def Channel.counted (x : Channel) (late : Bool) : Channel :=
  { x with received := x.received + 1, late := if late then x.late + 1 else x.late }

theorem sansTold_statNotice (s : State) (h core detail : Nat) (sat : Bool) :
    (statNotice s h core detail sat).sansTold = s.sansTold := by
  unfold statNotice; split <;> simp

/-- A late token is counted in its channel; the rest is a notice (R77). -/
theorem sansTold_noteLate (s : State) (ch : Nat) (x : Channel) (n : Notice) :
    (noteLate s ch x n).sansTold = (setChannel s ch { x with late := x.late + 1 }).sansTold := by
  unfold noteLate
  simp only
  split
  · rfl
  · split <;> simp

/-- A token is counted in its channel; the rest is a notice (R75, R77). -/
theorem sansTold_receive {s : State} {ch : Nat} {x : Channel} (hx : NMap.find s.links.channels ch = some x) (late : Bool) (n : Notice) :
    (receive s ch x late n).sansTold = (setChannel s ch (x.counted late)).sansTold := by
  cases late with
  | false => simp [receive, NMap.getD_eq, hx, Channel.counted]
  | true =>
    have hl := sansTold_noteLate s ch x n
    have hch : (noteLate s ch x n).links.channels = NMap.put s.links.channels ch { x with late := x.late + 1 } :=
      (congrArg (·.links.channels) hl :)
    have hput : ∀ y, (setChannel (noteLate s ch x n) ch y).sansTold =
        setChannel (setChannel s ch { x with late := x.late + 1 }).sansTold ch y :=
      fun y => congrArg (setChannel · ch y) hl
    simp only [receive, if_true, hch, NMap.getD_put_self, hput]
    simp [setChannel, sansTold, sansNotes, NMap.put_put, Channel.counted]

/-- A token counted in a channel shows in its two counts (R75, R77). -/
theorem find_counted {s t : State} {ch : Nat} {x : Channel} {late : Bool} (h : t.links = (setChannel s ch (x.counted late)).links) :
    (NMap.find t.links.channels ch).map (fun y => (y.received, y.late)) =
      some (x.received + 1, if late then x.late + 1 else x.late) := by
  rw [h]; exact congrArg _ (NMap.find_put_self ..)

/-! ### A token of its window's own type (R130) -/

/-- The core with a window descriptor replaced. -/
def Core.putDesc (k : Core) (i : Nat) (d : WinDesc) : Core := { k with descs := NMap.put k.descs i d }

@[simp] theorem desc_putDesc_self (k : Core) (i : Nat) (d : WinDesc) : (k.putDesc i d).desc i = d := NMap.getD_put_self ..

@[simp] theorem desc_wake (k : Core) (i : Nat) : k.wake.desc i = k.desc i := by
  unfold Core.wake; split <;> rfl

/-- A token's pointer write at the next place of its window: the slot is written and WRPTR advances. -/
def placed (s : State) (c i : Nat) (bytes : List Byte) : State :=
  (s.setTile c (((s.core c).desc i).slotAt ((s.core c).desc i).wr.toNat) bytes).modCore c fun k =>
    (k.putDesc i { (s.core c).desc i with wr := BitVec.ofNat 64 (((s.core c).desc i).wr.toNat + 1) }).wake

/-- A window with a free place has room for the next token. -/
theorem WinDesc.next_le_of_free {d : WinDesc} (h : 0 < d.free) : d.wr.toNat + 1 ≤ d.rd.toNat + d.cap := by
  unfold WinDesc.free WinDesc.occ at h
  rw [BitVec.toNat_sub] at h
  omega

theorem landToken_placed {s : State} {c i : Nat} {m : PtrMsg} (hecc : s.ecc.marks = [])
    (hw : m.wrptr = ((s.core c).desc i).wr.toNat + 1) (hf : 0 < ((s.core c).desc i).free)
    (hl : m.bytes.length = ((s.core c).desc i).tsize) (hm : m.marks = []) :
    (landToken s c i ((s.core c).desc i).tcode m).sansTold = (placed s c i m.bytes).sansTold := by
  have hroom := WinDesc.next_le_of_free hf
  simp only [landToken, ueAt_of_unmarked hecc, hw, convert, if_true, hl, ne_eq, not_true_eq_false, if_false, hm,
    Nat.add_sub_cancel]
  rw [if_neg (by omega), sansTold_statNotice]
  rfl

theorem sansTold_placed (s : State) (c i : Nat) (bytes : List Byte) : (placed s c i bytes).sansTold = placed s.sansTold c i bytes := rfl

theorem wr_placed {s : State} {c i : Nat} (bytes : List Byte) (h : ((s.core c).desc i).wr.toNat + 1 < 2 ^ 64) :
    (((placed s c i bytes).core c).desc i).wr.toNat = ((s.core c).desc i).wr.toNat + 1 := by
  simp only [placed, core_modCore_self, desc_wake, desc_putDesc_self, BitVec.toNat_ofNat]
  exact Nat.mod_eq_of_lt h

/-! ### Tokens of a channel (R75, R77, R455) -/

section
variable {s : State} {ch : Nat} {x : Channel} (hx : NMap.find s.links.channels ch = some x)
include hx

/-- While a port on the way is not up neither tokens nor credits pass (R82). -/
theorem channel_waits (hup : channelUp s x = false) (bytes : List Byte) (late : Bool) (rdptr : Nat) :
    exec (.vcTokenArrival ch bytes late) s = .next s ∧ exec (.vcCredit ch rdptr) s = .next s := by
  simp [execVcTokenArrival, execVcCredit, hx, hup]

/-- A token enters a running graph's memory sink of its own type that has room, and is counted (R75, R455). -/
theorem sansTold_sinkArrival {n : Nat} {a : MemActor} {g : Graph} {bytes : List Byte} (hg : s.graph? x.graph = some g)
    (hp : g.phase = .running) (hc : g.cutSince = none) (hroom : a.window.length < (arcRec g.img x.arc).cap) (hb : bytes ≠ [])
    (ht : channelType s x = (portRec g.img (arcRec g.img x.arc).dst).tcode) (late : Bool) :
    ∃ counts, (sinkArrival s ch x n a bytes late).sansTold =
      (setChannel (setActor s n { a with window := a.window ++ [bytes], counts := counts }) ch (x.counted late)).sansTold := by
  simp only [sinkArrival, hg, hp, hc, hroom, hb, ht, convert, if_true, if_false, Option.isNone_none, decide_true, Bool.and_self,
    Bool.not_true, Bool.false_eq_true]
  generalize hst : statNotice (setActor s n _) x.graph _ 0 _ = s1
  have h1 : s1.sansTold = (setActor s n { a with
      window := a.window ++ [bytes], counts := (tokenCounts a.counts noCount []).1 }).sansTold := by
    rw [← hst]; exact sansTold_statNotice ..
  have hl : s1.links = s.links := (congrArg State.links h1 :)
  exact ⟨_, (sansTold_receive (by rw [hl]; exact hx) ..).trans (congrArg (setChannel · ch (x.counted late)) h1)⟩

/-- An uncorrectable flit of an arc halts the consumer's graph with LINK.12 (R83). -/
theorem flitUncorrectable_arc {c i : Nat} (hs : channelSink s x = none) (hw : arrivalWindow s ch x = some (c, i)) (ord : Nat) :
    exec (.flitUncorrectable (.arc ch ord)) s =
      .next (s.haltGraph x.graph { windowNote s c i 0x11C ord with chan := ch }) := by
  simp only [exec_flitUncorrectable, execFlitUncorrectable, hx, hs, hw]

variable (hup : channelUp s x = true)
include hup

theorem vcTokenArrival_sink {n : Nat} {a : MemActor} (hs : channelSink s x = some (n, a)) (bytes : List Byte) (late : Bool) :
    exec (.vcTokenArrival ch bytes late) s = .next (sinkArrival s ch x n a bytes late) := by
  simp only [exec_vcTokenArrival, execVcTokenArrival, hx, hup, hs, Bool.not_true, Bool.false_eq_true, if_false]

section
variable {c i : Nat} (hs : channelSink s x = none) (hw : arrivalWindow s ch x = some (c, i))
include hs hw

/-- A token that its window has no place for waits on the link (R218). -/
theorem vcTokenArrival_full {bytes : List Byte} (hb : bytes ≠ [])
    (hfull : ((s.core c).desc i).cap + (s.core c).freedRd i ≤ ((s.core c).desc i).wr.toNat) (late : Bool) :
    exec (.vcTokenArrival ch bytes late) s = .next s := by
  simp [execVcTokenArrival, hx, hup, hs, hw, hb, hfull]

/-- A token of its window's type lands at the next place of it, and is counted (R75, R130). -/
theorem vcTokenArrival_lands {bytes : List Byte} (hm : coreMoves (s.core c) = true) (hcut : (s.core c).cut = false) (hb : bytes ≠ [])
    (hf : 0 < ((s.core c).desc i).free) (hroom : ((s.core c).desc i).wr.toNat < ((s.core c).desc i).cap + (s.core c).freedRd i)
    (ht : channelType s x = ((s.core c).desc i).tcode) (hl : bytes.length = ((s.core c).desc i).tsize) (hecc : s.ecc.marks = [])
    (late : Bool) :
    ∃ t, exec (.vcTokenArrival ch bytes late) s = .next t ∧
      t.sansTold = placed (setChannel s ch (x.counted late)).sansTold c i bytes := by
  have hr := sansTold_receive hx late (windowNote s c i 0x11D x.received)
  generalize hs1 : receive s ch x late _ = s1 at hr
  have hk : s1.core c = s.core c := (congrArg (State.core · c) hr :)
  have he : s1.ecc = s.ecc := (congrArg State.ecc hr :)
  refine ⟨landToken s1 c i (channelType s x)
    { desc := i, wrptr := ((s.core c).desc i).wr.toNat + 1, bytes := bytes, marks := [], drain := false }, ?_, ?_⟩
  · simp only [exec_vcTokenArrival, execVcTokenArrival, hx, hup, hs, hw, hm, hcut, hs1]
    simp [hb, hroom, landMsg]
  · rw [ht, ← hk, landToken_placed (by rw [he, hecc]) rfl (by rw [hk]; exact hf) (by rw [hk]; exact hl) rfl, sansTold_placed, hr]

end

/-! ### Credits of a channel (R75, R217) -/

/-- A channel whose consumer has read up to a pointer: the tokens before it are known consumed. -/
def Channel.credit (x : Channel) (rdptr : Nat) : Channel :=
  { x with sent := x.sent.filter fun m => m.drain || decide (rdptr < m.wrptr), rd := max x.rd rdptr }

/-- The credit of a memory actor's channel frees its places (R75). -/
theorem vcCredit_actor (hc : 2304 ≤ x.core) (hd : channelDescs s ch = []) (rdptr : Nat) :
    exec (.vcCredit ch rdptr) s = .next (setChannel s ch (x.credit rdptr)) := by
  simp [execVcCredit, hx, hup, hd, sendHeld, hc, Channel.credit]

theorem vcCredit_held {rdptr : Nat} (hh : sendHeld s ch rdptr x = true) : exec (.vcCredit ch rdptr) s = .next s := by
  simp [execVcCredit, hx, hup, hh]

section
variable {rdptr : Nat} (hc : x.core < 2304) (hd : channelDescs s ch = [(x.core, x.desc)]) (hh : sendHeld s ch rdptr x = false)
  (hm : coreMoves (s.core x.core) = true)
include hc hd hh hm

/-- A credit past WRPTR halts the graph with RING.6 (R75). -/
theorem vcCredit_past (h : ((s.core x.core).desc x.desc).wr.toNat < rdptr) : exec (.vcCredit ch rdptr) s =
    .next (s.haltGraph x.graph { windowNote s x.core x.desc 0x066 rdptr with chan := ch }) := by
  simp [execVcCredit, hx, hup, hd, hh, hm, Nat.not_le.2 hc, h]

/-- A credit frees the places of the producer's window (R75). -/
theorem vcCredit_frees (h : rdptr ≤ ((s.core x.core).desc x.desc).wr.toNat) : exec (.vcCredit ch rdptr) s =
    .next ((setChannel s ch (x.credit rdptr)).modCore x.core fun k =>
      k.putDesc x.desc { k.desc x.desc with rd := BitVec.ofNat 64 (max (k.desc x.desc).rd.toNat rdptr) }) := by
  simp [execVcCredit, hx, hup, hd, hh, hm, Nat.not_le.2 hc, Nat.not_lt.2 h, Channel.credit, Core.putDesc]

end

end

end Sys2Proof.Machine
end

section
/-! The ports between packages: their retraining, their loss and the package's enumeration (R25, R67, R81, R82). -/

namespace Sys2Proof.Machine

open State

/-! ### Sets of ports (R81) -/

theorem testBit_withBit_self (x n : Nat) (b : Bool) : (withBit x n b).testBit n = b := by
  have h1 : bitsOf x n n = x / 2 ^ n % 2 := by simp [bitsOf, Nat.shiftRight_eq_div_pow, show n + 1 - n = 1 by omega]
  have h2 : (x - x / 2 ^ n % 2 * 2 ^ n) / 2 ^ n = x / 2 ^ n - x / 2 ^ n % 2 := by
    rw [Nat.mul_comm]; exact Nat.sub_mul_div ..
  rw [withBit, setBits, h1, show n + 1 - n = 1 by omega, Nat.testBit_eq_decide_div_mod_eq,
    Nat.add_mul_div_right _ _ (Nat.two_pow_pos n), h2]
  cases b <;> simp <;> omega

/-! ### Retraining (R82) -/

section
variable {s : State} {n : Nat} (hn : n < 24)
include hn

/-- A port that retrains carries no traffic (R82). -/
theorem portRetrain_sets (h : s.links.retrain.testBit n = false) : exec (.portRetrain n) s =
    .next { s with links := { s.links with up := withBit s.links.up n false, retrain := withBit s.links.retrain n true,
                                           retrainSince := NMap.put s.links.retrainSince n s.time } } := by
  simp [execPortRetrain, hn, h]

/-- A port that has retrained carries traffic again; the rest is notices (R82). -/
theorem portRetrained_sets (h : s.links.retrain.testBit n = true) :
    ∃ t, exec (.portRetrained n) s = .next t ∧ t.sansTold =
      ({ s with links := { s.links with up := withBit s.links.up n true, retrain := withBit s.links.retrain n false,
                                        retrainSince := NMap.del s.links.retrainSince n } } : State).sansTold := by
  simp only [exec_portRetrained, execPortRetrained, hn, h, and_self, if_true]
  exact ⟨_, rfl, (sansTold_tellMgmt ..).trans
    (foldl_keeps sansTold (f := fun s x => s.notify x { cause := 0x11A, flags := 2, detail := n }) (fun _ _ => sansTold_notify ..) ..)⟩

end

/-! ### What a fold reaches -/

/-- A fold over graphs brings the state to Q at a graph of its list, if from P the step of that graph does so, the other steps keep P,
and every step keeps Q. -/
theorem foldl_reaches {f : State → Nat → State} {P Q : State → Prop} {h : Nat} (waits : ∀ s k, k ≠ h → P s → P (f s k))
    (acts : ∀ s, P s → Q (f s h)) (keeps : ∀ s k, Q s → Q (f s k)) {l : List Nat} (hm : h ∈ l) {s : State} (hp : P s) :
    Q (l.foldl f s) := by
  have stays : ∀ (l : List Nat) s, Q s → Q (l.foldl f s) := fun l => by
    induction l with
    | nil => exact fun _ hq => hq
    | cons k l ih => exact fun s hq => ih _ (keeps s k hq)
  induction l generalizing s with
  | nil => exact absurd hm (by simp)
  | cons k l ih =>
    by_cases hk : k = h
    · subst hk; exact stays l _ (acts s hp)
    · exact ih ((List.mem_cons.1 hm).resolve_left (Ne.symm hk)) (waits s k hk hp)

theorem verdict_haltGraph_ne {s : State} {h k : Nat} (hk : k ≠ h) (n : Notice) : (s.haltGraph k n).verdict h = s.verdict h :=
  congrArg (Option.map _) ((onlyGraph_haltGraph s k n).2 h (Ne.symm hk))

/-- Of a list of graphs that a fault halts, one that ran is halted with its cause. -/
theorem verdict_foldl_haltGraph (n : Notice) {h c : Nat} {l : List Nat} (hm : h ∈ l) {s : State}
    (hv : s.verdict h = some (.running, c)) : (l.foldl (fun s h => s.haltGraph h n) s).verdict h = some (.halted, n.cause) := by
  refine foldl_reaches (P := fun s => s.verdict h = some (.running, c)) (Q := fun s => s.verdict h = some (.halted, n.cause))
    (fun s k hk hv => (verdict_haltGraph_ne hk n).trans hv) (fun s hv => ?_) (fun s k hv => ?_) hm hv
  · obtain ⟨g, hg, hp⟩ := Option.map_eq_some_iff.1 hv
    exact verdict_haltGraph_of_live n hg (.inr (.inr (.inl (congrArg Prod.fst hp))))
  · by_cases hk : k = h
    · subst hk
      obtain ⟨g, hg, hp⟩ := Option.map_eq_some_iff.1 hv
      exact (verdict_haltGraph_of_halted n hg (congrArg Prod.fst hp)).trans hv
    · exact (verdict_haltGraph_ne hk n).trans hv

/-! ### Graphs that go back to the queue (R82, R149) -/

/-- A record that is found stays where another is deleted. -/
theorem NMap.find_del_ne {α : Type} {m : NMap α} {k n : Nat} {x : α} (hn : n ≠ k) (h : NMap.find m n = some x) :
    NMap.find (NMap.del m k) n = some x := by
  induction m with
  | nil => exact h
  | cons p m ih =>
    obtain ⟨a, v⟩ := p
    simp only [NMap.find] at h
    simp only [NMap.del]
    by_cases ha : n = a
    · rw [if_pos ha] at h
      rw [if_neg (by omega)]
      split <;> simp [NMap.find, ha, h]
    · rw [if_neg ha] at h
      split_ifs at h with hlt
      split_ifs <;> simp [NMap.find, ha, hlt, h, ih]

/-- What a graph that is not another's record reads as after an operation on that other one. -/
def FindsOthers (k : Nat) (s t : State) : Prop := ∀ h g, h ≠ k → s.graph? h = some g → t.graph? h = some g

theorem State.OnlyGraph.findsOthers {k : Nat} {s t : State} (h : OnlyGraph k s t) : FindsOthers k s t :=
  fun n _ hn hg => (h.2 n hn).trans hg

theorem FindsOthers.trans {k : Nat} {s t u : State} (a : FindsOthers k s t) (b : FindsOthers k t u) : FindsOthers k s u :=
  fun h g hn hg => b h g hn (a h g hn hg)

theorem findsOthers_of_graphs {s t : State} (k : Nat) (h : t.graphs = s.graphs) : FindsOthers k s t :=
  fun n g _ hg => by rw [graph?, h]; exact hg

theorem onlyGraph_abortLoad (s : State) (h : Nat) : OnlyGraph h s (s.abortLoad h) :=
  (onlyGraph_modGraph ..).trans (onlyGraph_release ..)

theorem findsOthers_dropPeer (s : State) (h : Nat) : FindsOthers h s (s.dropPeer h) := by
  unfold dropPeer
  split
  · exact findsOthers_of_graphs h rfl
  · split
    · exact ((onlyGraph_abortLoad ..).trans (onlyGraph_modGraph ..)).findsOthers
    · exact fun n g hn hg => NMap.find_del_ne hn (((onlyGraph_release s h).2 n hn).trans hg)

theorem findsOthers_failLoad (s : State) (h : Nat) : FindsOthers h s (s.failLoad h) := by
  unfold failLoad
  split
  · exact findsOthers_of_graphs h rfl
  · split
    · exact findsOthers_dropPeer (reportLoad s h false) h
    · exact (onlyGraph_abortLoad ..).findsOthers.trans (findsOthers_of_graphs h (settleHalt_graphs ..))

/-- The record of a graph that goes back to the launch queue: what it ran is gone (R82). -/
def Graph.requeued (g : Graph) : Graph :=
  { g with phase := .queued, reported := [], acked := [], decided := false, pkgOk := [], waiters := [], frzSince := none
           frzCores := [], image := none, held := false, cutSince := none, cutDone := false, cutCores := []
           modeCtl := {}, barriers := [], srcDrained := false, sinksDrained := [], peers := {}, latePeriod := 0 }

/-- What a graph's return to the queue tells: its supervisor, those who wait for it, its egress ports (R82, R100). -/
def toldRequeue (s : State) (h : Nat) (g : Graph) : State :=
  ((s.notifyGraph h { cause := 0x11F, flags := 1 }).completeAll g.waiters 0x13D).egressHalt h 0x11F

theorem toldRequeue_graphs (s : State) (h : Nat) (g : Graph) : (toldRequeue s h g).graphs = s.graphs := by simp [toldRequeue]

section
variable {s : State} {h : Nat} {g : Graph} (hg : s.graph? h = some g)
include hg

/-- A graph in its load, or of another package, fails its load here (R82, R149). -/
theorem requeue_fails (hl : g.phase = .loading ∨ g.coord.isSome = true) :
    requeue s h = (s.notifyGraph h { cause := 0x11F, flags := 1 }).failLoad h := by
  simp only [requeue, hg, if_pos hl]

/-- Another goes back to the queue (R82). -/
theorem requeue_past (hl : ¬ (g.phase = .loading ∨ g.coord.isSome = true)) :
    requeue s h = (((toldRequeue s h g).modGraph h Graph.requeued).release h).settleHalt (h / 2 ^ 28) := by
  simp only [requeue, hg, if_neg hl]
  rfl

/-- The release of a graph's resources keeps its phase and who coordinates it (R172). -/
theorem graph?_release : ∃ g', (s.release h).graph? h = some g' ∧ g'.phase = g.phase ∧ g'.coord = g.coord := by
  unfold release
  simp only [hg]
  exact ⟨_, NMap.find_put_self .., rfl, rfl⟩

theorem graph?_modGraph (f : Graph → Graph) : (s.modGraph h f).graph? h = some (f g) := by
  simp only [modGraph, hg]
  exact NMap.find_put_self ..

/-- A graph of this package that is past its load goes back to the queue (R82). -/
theorem requeue_queues (hc : g.coord = none) (hp : g.phase ≠ .loading) :
    ∃ g', (requeue s h).graph? h = some g' ∧ g'.coord = none ∧ g'.phase = .queued := by
  have htold : (toldRequeue s h g).graph? h = some g := by rw [graph?, toldRequeue_graphs]; exact hg
  obtain ⟨g', hg', hphase, hcoord⟩ := graph?_release (graph?_modGraph htold Graph.requeued)
  refine ⟨g', ?_, hcoord.trans hc, hphase⟩
  rw [requeue_past hg (by simp [hc, hp]), graph?, settleHalt_graphs]
  exact hg'

end

theorem findsOthers_requeue (s : State) (h : Nat) : FindsOthers h s (requeue s h) := by
  cases hg : s.graph? h with
  | none => exact findsOthers_of_graphs h (by simp [requeue, hg])
  | some g =>
    by_cases hl : g.phase = .loading ∨ g.coord.isSome = true
    · rw [requeue_fails hg hl]
      exact (findsOthers_of_graphs h (notifyGraph_graphs ..)).trans (findsOthers_failLoad _ h)
    · rw [requeue_past hg hl]
      have hput := (onlyGraph_modGraph (toldRequeue s h g) h Graph.requeued).trans (onlyGraph_release ..)
      exact (findsOthers_of_graphs h (toldRequeue_graphs s h g)).trans
        (hput.findsOthers.trans (findsOthers_of_graphs h (settleHalt_graphs ..)))

/-- Of a list of graphs that go back to the queue, one of this package that ran is queued (R82). -/
theorem foldl_requeue_queues {h : Nat} {l : List Nat} (hm : h ∈ l) {s : State} {g : Graph} (hg : s.graph? h = some g)
    (hc : g.coord = none) (hp : g.phase ≠ .loading) :
    ∃ g', (l.foldl requeue s).graph? h = some g' ∧ g'.coord = none ∧ g'.phase = .queued := by
  refine foldl_reaches (P := fun s => ∃ g, s.graph? h = some g ∧ g.coord = none ∧ g.phase ≠ .loading)
    (Q := fun s => ∃ g, s.graph? h = some g ∧ g.coord = none ∧ g.phase = .queued) ?_ ?_ ?_ hm ⟨g, hg, hc, hp⟩
  · rintro s k hk ⟨g, hg, hr⟩
    exact ⟨g, findsOthers_requeue s k h g (Ne.symm hk) hg, hr⟩
  · rintro s ⟨g, hg, hc, hp⟩
    exact requeue_queues hg hc hp
  · rintro s k ⟨g, hg, hc, hp⟩
    by_cases hk : k = h
    · subst hk; exact requeue_queues hg hc (by simp [hp])
    · exact ⟨g, findsOthers_requeue s k h g (Ne.symm hk) hg, hc, hp⟩

/-! ### A port that is lost (R82) -/

/-- The machine in which a port has gone down, with LINK.11 to management (R82). -/
def portLost (s : State) (n : Nat) : State :=
  ({ s with links := { s.links with
      retrain := withBit s.links.retrain n false, retrainSince := NMap.del s.links.retrainSince n } } : State).tellMgmt
    { cause := 0x11B, detail := n }

theorem portLost_graphs (s : State) (n : Nat) : (portLost s n).graphs = s.graphs := tellMgmt_graphs ..

theorem portLost_retrain (s : State) (n : Nat) : (portLost s n).links.retrain.testBit n = false := by
  simp [portLost, testBit_withBit_self]

section
variable {s : State} {n since : Nat} (hn : n < 24) (hr : s.links.retrain.testBit n = true)
  (hs : NMap.find s.links.retrainSince n = some since) (ht : since + 5 * 10000000 ≤ s.time)
include hn hr hs ht

theorem portDown_eq (around : Bool) : exec (.portDown n around) s = .next (if around
    then (portGraphs s n).foldl requeue (reroute (portLost s n) n)
    else (portGraphs s n).foldl (fun s h => s.haltGraph h { cause := 0x11F, detail := n }) (portLost s n)) := by
  simp only [exec_portDown, execPortDown, hn, hr, hs, nanos, ht, decide_true, and_self, if_true]
  rfl

/-- Without a way around it, a lost port halts the running graphs on it with LINK.15 (R82, log entry 72). -/
theorem portDown_halts : ∃ t, exec (.portDown n false) s = .next t ∧ t.links.retrain.testBit n = false ∧
    ∀ h g, h ∈ portGraphs s n → s.graph? h = some g → g.phase = .running → t.verdict h = some (.halted, 0x11F) := by
  refine ⟨_, portDown_eq hn hr hs ht false, ?_, fun h g hm hg hp => ?_⟩
  · exact (congrArg (Nat.testBit · n) (foldl_keeps (fun s : State => s.links.retrain)
      (fun s h => haltGraph_retrain s h { cause := 0x11F, detail := n }) ..)).trans (portLost_retrain ..)
  · refine verdict_foldl_haltGraph { cause := 0x11F, detail := n } hm (c := g.cause) ?_
    rw [verdict_of_graphs (portLost_graphs ..), verdict_of_find hg, hp]

/-- With a way around it, the running graphs on a lost port that this package coordinates go back to the queue (R82, log entry 47). -/
theorem portDown_requeues : ∃ t, exec (.portDown n true) s = .next t ∧ t.links.retrain.testBit n = false ∧
    ∀ h g, h ∈ portGraphs s n → s.graph? h = some g → g.coord = none → g.phase = .running →
      (t.graph? h).map Graph.phase = some .queued := by
  refine ⟨_, portDown_eq hn hr hs ht true, ?_, fun h g hm hg hc hp => ?_⟩
  · exact (congrArg (Nat.testBit · n) (foldl_keeps (fun s : State => s.links.retrain) requeue_retrain ..)).trans (portLost_retrain s n)
  · have hlost : (reroute (portLost s n) n).graph? h = some g := (congrArg (NMap.find · h) (portLost_graphs s n)).trans hg
    obtain ⟨g', hg', -, hq⟩ := foldl_requeue_queues hm hlost hc (by simp [hp])
    exact (congrArg (Option.map Graph.phase) hg').trans (congrArg some hq)

end

/-! ### Enumeration (R25, R67, R105) -/

theorem domainEnumeration_of_reset {s : State} (h : s.managementUp = false) (pkg : BitVec 12) :
    exec (.domainEnumeration pkg) s = .next s := by
  simp [execDomainEnumeration, h]

/-- Management that runs writes the tables of the package (R25, R67). -/
theorem domainEnumeration_of_up {s : State} (h : s.managementUp = true) (pkg : BitVec 12) :
    ∃ t, exec (.domainEnumeration pkg) s = .next t ∧ t.links.pkg = pkg.toNat ∧ t.links.pkgSet = true ∧
      t.links.routes = Config.routes pkg.toNat ∧ t.mem = s.mem ∧ t.cores = s.cores ∧ t.host.ready = true := by
  simp only [exec_domainEnumeration, execDomainEnumeration, h, Bool.not_true, Bool.false_eq_true, if_false]
  exact ⟨_, rfl, rfl, rfl, rfl, rfl, rfl, rfl⟩

end Sys2Proof.Machine
end

section
/-! The link events: O51. -/

namespace Sys2Proof.Machine

open State

/-- After a write its bytes stand in their places, and every other byte is as before. -/
theorem memWrite_reads {m : List Host.Cell} (hw : Memory.wf m = true) (a : Nat) (bs : List Byte) :
    (∀ j, j < bs.length → memGet (memWrite m a bs) (a + j) = bs.getD j 0) ∧
    ∀ x, x < a ∨ a + bs.length ≤ x → memGet (memWrite m a bs) x = memGet m x := by
  refine ⟨fun j hj => ?_, fun x hx => ?_⟩
  · rw [memGet_memWrite hw, if_pos (by omega), Nat.add_sub_cancel_left]
  · rw [memGet_memWrite hw, if_neg (by omega)]

/-- Settles O51: each clause from the rule of its event; of a lost port, from the graphs on it in turn. -/
theorem linkEvents : Obligations.LinkEvents := by
  intro s m c q ch i n rdptr ord since data cause pkg x r o a g bytes late k e d p pd seen fresh key
  refine ⟨remoteRequest_of_down, remoteRequest_of_seen, fun hup hnew hi => remoteRequest_refused hup hnew.1 hnew.2 hi,
    fun hup hnew hi hp hk hecc hn ha hw => ?_,
    fun ho => ⟨remoteResponse_held ho cause data, fun ht hr => ⟨fun hq he => ?_, fun hq => ?_⟩, fun hc hq hdue => ?_,
      remoteTimeout_early ho⟩,
    fun hx hup => channel_waits hx hup bytes late rdptr, fun hx hup hs hg hp hc hroom hb ht => ?_,
    fun hx hup hc hd => ⟨_, vcCredit_actor hx hup hc hd rdptr, rfl, rfl, congrArg _ (NMap.find_put_self ..)⟩,
    fun hx hup hs => ⟨fun hw hm hcut hb hf hroom ht hl hwr hecc hmem => ?_,
      fun hw hb hfull => vcTokenArrival_full hx hup hs hw hb hfull late, fun _ _ hh => vcCredit_held hx hup hh,
      fun hc hd hh hm => ⟨fun hle => ?_, vcCredit_past hx hup hc hd hh hm⟩, fun hw => flitUncorrectable_arc hx hs hw ord⟩,
    rfl, fun hn h => ⟨_, portRetrain_sets hn h, testBit_withBit_self .., testBit_withBit_self .., rfl, rfl⟩,
    fun hn h => ⟨?_, fun hs ht => ⟨portDown_halts hn h hs ht, portDown_requeues hn h hs ht⟩⟩,
    fun hm => domainEnumeration_of_reset hm pkg, fun hm => domainEnumeration_of_up hm pkg⟩
  -- A request that is performed (R68).
  · have hrun := remoteRequest_performed hup hnew.1 hnew.2 hi (remotePark_none hp hk)
    refine ⟨fun hop => ?_, fun hop => ?_⟩
    · rw [performRemote_load hop hecc hn ha] at hrun
      exact ⟨_, hrun, rfl, rfl⟩
    · rw [performRemote_store hop hecc hn ha] at hrun
      obtain ⟨hin, hout⟩ := memWrite_reads hw m.addr (leBytes m.bytes m.data)
      rw [length_leBytes] at hin hout
      exact ⟨_, hrun, rfl, fun j hj => (hin j hj).trans (getD_leBytes hj _), hout⟩
  -- Responses and the time-out (R69, R72).
  · rw [remoteResponse_brought ho cause data ht hr, bring_load (s := leaveOutbox s o) hq he]
    simp only [BitVec.toNat_eq]
    rfl
  · exact ⟨_, remoteResponse_brought ho cause data ht hr, by rw [bring_kept hq]; exact ⟨rfl, rfl, rfl, rfl⟩⟩
  · rw [remoteTimeout_due ho hc hdue, bring_cause hq (by decide)]
  -- A token of a memory sink (R75, R455).
  · obtain ⟨counts, htold⟩ := sansTold_sinkArrival hx hg hp hc hroom hb ht late
    refine ⟨_, vcTokenArrival_sink hx hup hs bytes late, ?_, (congrArg State.mem htold :), (congrArg State.cores htold :),
      find_counted (s := s) (congrArg State.links htold :)⟩
    exact (congrArg (fun t : State => (NMap.find t.actors n).map MemActor.window) htold).trans
      (congrArg (Option.map _) (NMap.find_put_self ..))
  -- A token of a window (R75, R130).
  · obtain ⟨t, hrun, htold⟩ := vcTokenArrival_lands hx hup hs hw hm hcut hb hf hroom ht hl hecc late
    have htmem : t.mem = memWrite s.mem key bytes := (congrArg State.mem htold :)
    obtain ⟨hin, hout⟩ := memWrite_reads hmem key bytes
    rw [← htmem, hl] at hin hout
    exact ⟨t, hrun, (congrArg (fun t : State => ((t.core c).desc i).wr.toNat) htold).trans
      (wr_placed (s := (setChannel s ch (x.counted late)).sansTold) bytes hwr), hin, hout,
      find_counted (s := s) (congrArg State.links htold :)⟩
  -- A credit of a window (R75).
  · refine ⟨_, vcCredit_frees hx hup hc hd hh hm hle, rfl, ?_, ?_⟩ <;> rw [core_modCore_self, desc_putDesc_self]
    · exact Nat.mod_eq_of_lt (by have := pd.rd.isLt; have := pd.wr.isLt; omega)
    · rfl
  -- A port that has retrained (R82).
  · obtain ⟨t, hrun, htold⟩ := portRetrained_sets hn h
    exact ⟨t, hrun, (congrArg (·.links.retrain.testBit n) htold).trans (testBit_withBit_self ..),
      (congrArg (·.links.up.testBit n) htold).trans (testBit_withBit_self ..), (congrArg State.cores htold :),
      (congrArg State.mem htold :)⟩

end Sys2Proof.Machine
end

section
/-! The power events: heat, a card that is shut down, droop, the module limit, and the power states of cores (R30, R38 to R40): O50. -/

namespace Sys2Proof.Machine

open State

/-! ### Frozen for heat (R38) -/

/-- The order in which heat freezes: the lowest priority first, and among equals the latest admitted (R38). -/
def freezesBefore (a b : Nat × Graph) : Bool :=
  decide (b.2.cls < a.2.cls ∨ (a.2.cls = b.2.cls ∧ b.2.admitOrder < a.2.admitOrder))

/-- A running graph that is asked to freeze starts to (R169). -/
theorem requestFreeze_running {s : State} {h : Nat} {g : Graph} (hg : s.graph? h = some g) (hp : g.phase = .running) (o : Nat) :
    s.requestFreeze h o =
      s.modGraph h fun g => { g with phase := .freezing, origin := o, frzSince := some g.gtime, frzCores := [] } := by
  simp only [requestFreeze, hg]
  rw [hp]

/-- A state in which heat has frozen for a card, from which the next millisecond counts (R38). -/
def frozeFor (s : State) (card : Nat) : State :=
  { s with power := { s.power with lastFreeze := NMap.put s.power.lastFreeze card s.time } }

section
variable {s : State} {h : Nat} {g : Graph} {l : List (Nat × Graph)}
  (ho : sortBy freezesBefore (runningGraphs s) = (h, g) :: l) (hg : s.graph? h = some g)
include ho

/-- Heat asks the first graph of the order to freeze, with the arbiter as the origin (R38, R169). -/
theorem heatFreeze_requests (card : Nat) : heatFreeze s card = (frozeFor s card).requestFreeze h 1 := by
  unfold heatFreeze frozeFor
  simp only [← freezesBefore.eq_def, ho]

include hg

theorem heatFreeze_freezes (hp : g.phase = .running) (card : Nat) :
    ((heatFreeze s card).graph? h).map (fun g => (g.phase, g.origin)) = some (Phase.freezing, 1) := by
  rw [heatFreeze_requests ho, requestFreeze_running (s := frozeFor s card) hg hp, graph?_modGraph (s := frozeFor s card) hg]
  rfl

theorem heatFreeze_others (hp : g.phase = .running) (card : Nat) {k : Nat} (hk : k ≠ h) :
    (heatFreeze s card).graph? k = s.graph? k := by
  rw [heatFreeze_requests ho, requestFreeze_running (s := frozeFor s card) hg hp]
  exact (onlyGraph_modGraph _ h _).2 k hk

end

theorem phase_of_mem_runningGraphs {s : State} {x : Nat × Graph} (hx : x ∈ runningGraphs s) : x.2.phase = .running :=
  of_decide_eq_true (Bool.and_eq_true_iff.1 (List.mem_filter.1 hx).2).1

/-- Of two graphs, that of the lower priority, a greater class, is first. -/
theorem sortBy_freezesBefore_pair {x y : Nat × Graph} (h : x.2.cls < y.2.cls) : sortBy freezesBefore [x, y] = [y, x] := by
  simp [sortBy, insertBy, freezesBefore, h]

/-! ### A card that is shut down (R38) -/

/-- Every core of a list is power-gated. -/
theorem power_foldl_gate (base : Nat) {i : Nat} {l : List Nat} (hi : i ∈ l) (s : State) :
    ((l.foldl (fun s i => s.modCore (base + i) fun k => { k with power := .powerGated }) s).core (base + i)).power =
      .powerGated := by
  refine foldl_reaches (P := fun _ => True) (Q := fun s => (s.core (base + i)).power = .powerGated)
    (fun _ _ _ h => h) (fun s _ => ?_) (fun s j h => ?_) hi trivial
  · rw [core_modCore_self]
  · by_cases hj : base + i = base + j
    · rw [hj, core_modCore_self]
    · rwa [core_modCore_ne _ _ hj]

/-- The cores of a card that is shut down are power-gated in the step of the halt (R38, log entry 37). -/
theorem power_shutCard (s : State) (card cause : Nat) {i : Nat} (hi : i < 192) :
    ((shutCard s card cause).core (card * 192 + i)).power = .powerGated := by
  unfold shutCard
  exact power_foldl_gate _ (List.mem_range.2 hi) _

/-! ### Samples (R38, R105) -/

/-- An arbiter that was not started does nothing (R105). -/
theorem arbiter_idle {s : State} (h : s.arbiterUp = false) (card temp island : Nat) :
    exec (.sensorSample card temp) s = .next s ∧ exec (.sensorSilent card) s = .next s ∧ exec (.thermalRepeat card) s = .next s ∧
      exec (.edgeViaOvercurrent card) s = .next s ∧ exec (.supplyDroop island) s = .next s := by
  refine ⟨?_, ?_, ?_, ?_, ?_⟩
  · simp [execSensorSample, h]
  · simp [execSensorSilent, h]
  · cases hf : NMap.find s.power.lastFreeze card <;> simp [execThermalRepeat, h, hf]
  · simp [execEdgeViaOvercurrent, h]
  · simp [execSupplyDroop, h]

section
variable {s : State} {card : Nat} (hc : card < 12) (h : s.arbiterUp = true)
include hc h

theorem sensorSample_reads (temp : Nat) : exec (.sensorSample card temp) s = .next (readHeat s card temp) := by
  simp [execSensorSample, h, Nat.not_le.2 hc]

theorem edgeViaOvercurrent_shuts : exec (.edgeViaOvercurrent card) s = .next (shutCard s card 0x15C) := by
  simp [execEdgeViaOvercurrent, h, Nat.not_le.2 hc]

/-- A silent sensor counts as 105 °C, or as what the card read where that is more (R38). -/
theorem sensorSilent_reads : exec (.sensorSilent card) s = .next
    (readHeat (s.tellMgmt { cause := 0x15D, detail := card }) card (max 105 (NMap.getD 0 s.power.hot card))) := by
  simp [execSensorSilent, h, Nat.not_le.2 hc]

end

/-- A state in which a card has read a temperature. -/
def heatRead (s : State) (card temp : Nat) : State := { s with power := { s.power with hot := NMap.put s.power.hot card temp } }

section
variable {s : State} {card temp : Nat}

theorem readHeat_cool (h : temp < 105) : readHeat s card temp =
    { s with power := { s.power with hot := NMap.put s.power.hot card temp, lastFreeze := NMap.del s.power.lastFreeze card } } := by
  simp [readHeat, show ¬ 115 ≤ temp by omega, Nat.not_le.2 h]

theorem readHeat_hot (h : 105 ≤ temp) (h' : temp < 115) (hf : NMap.find s.power.lastFreeze card = none) :
    readHeat s card temp = heatFreeze (heatRead s card temp) card := by
  simp [readHeat, heatRead, h, Nat.not_le.2 h', hf]

theorem readHeat_shuts (h : 115 ≤ temp) : readHeat s card temp = shutCard (heatRead s card temp) card 0x155 := by
  simp [readHeat, heatRead, h]

end

section
variable {s : State} {card t0 : Nat} (hf : NMap.find s.power.lastFreeze card = some t0)
include hf

/-- A millisecond after a freeze, heat that lasts freezes again (R38). -/
theorem thermalRepeat_due (h : s.arbiterUp = true) (hot : 105 ≤ NMap.getD 0 s.power.hot card) (ht : t0 + 5 * 1000000 ≤ s.time) :
    exec (.thermalRepeat card) s = .next (heatFreeze s card) := by
  simp only [exec_thermalRepeat, execThermalRepeat, hf, nanos, h, hot, ht, and_self, if_true]

theorem thermalRepeat_early (ht : s.time < t0 + 5 * 1000000) : exec (.thermalRepeat card) s = .next s := by
  simp only [exec_thermalRepeat, execThermalRepeat, hf, nanos, Nat.not_le.2 ht, and_false, if_false]

end

/-! ### Droop (R40) -/

/-- A droop is told to management, and halts in turn some of the graphs there are, those that run in the island among them (R40). -/
theorem supplyDroop_eq {s : State} {island : Nat} (hi : island < 64) (h : s.arbiterUp = true) : ∃ hs : List Nat,
    exec (.supplyDroop island) s = .next (hs.foldl (fun s h => s.haltGraph h { cause := 0x157, flags := 2, detail := island })
      (s.tellMgmt { cause := 0x157, flags := 2, detail := island })) ∧
    (∀ k ∈ hs, ∃ g, (k, g) ∈ s.graphs) ∧
    ∀ k g, s.graph? k = some g → g.phase = .running → inIsland g island = true → k ∈ hs := by
  simp only [exec_supplyDroop, execSupplyDroop, h, Nat.not_le.2 hi, Bool.true_eq_false, or_self, if_false]
  refine ⟨_, rfl, fun k hk => ?_, fun k g hg hp hin => ?_⟩
  · obtain ⟨⟨_, g⟩, hm, rfl⟩ := List.mem_map.1 hk
    exact ⟨g, List.mem_of_mem_filter hm⟩
  · exact List.mem_map.2 ⟨(k, g), List.mem_filter.2 ⟨NMap.mem_of_find hg, by simp [hp, hin]⟩, rfl⟩

theorem supplyDroop_halts {s : State} {island : Nat} (hi : island < 64) (h : s.arbiterUp = true) :
    ∃ t, exec (.supplyDroop island) s = .next t ∧ t.mem = s.mem ∧ ∀ k g, s.graph? k = some g → g.phase = .running →
      inIsland g island = true → (t.graph? k).map Graph.phase = some .halted := by
  obtain ⟨hs, hrun, -, hin⟩ := supplyDroop_eq hi h
  refine ⟨_, hrun, ?_, fun k g hg hp hi => ?_⟩
  · rw [foldl_keeps State.mem fun s h => (onlyGraph_haltGraph s h _).1, tellMgmt_mem]
  · have hv : (s.tellMgmt { cause := 0x157, flags := 2, detail := island }).verdict k = some (.running, g.cause) := by
      rw [verdict_of_graphs (tellMgmt_graphs ..), verdict_of_find hg, hp]
    obtain ⟨g', hg', he⟩ := Option.map_eq_some_iff.1 (verdict_foldl_haltGraph _ (hin k g hg hp hi) hv)
    obtain ⟨hhalted, -⟩ := Prod.mk.inj he
    rw [hg', Option.map_some, hhalted]

theorem supplyDroop_of_no_graphs {s : State} {island : Nat} (hi : island < 64) (h : s.arbiterUp = true) (hg : s.graphs = []) :
    exec (.supplyDroop island) s = .next (s.tellMgmt { cause := 0x157, flags := 2, detail := island }) := by
  obtain ⟨hs, hrun, hsub, -⟩ := supplyDroop_eq hi h
  have hnil : hs = [] := List.eq_nil_iff_forall_not_mem.2 fun k hk => by simpa [hg] using hsub k hk
  rw [hrun, hnil, List.foldl_nil]

/-! ### The module limit (R30, R40, R105) -/

theorem moduleLimitWrite_of_reset {s : State} (h : s.managementUp = false) (half : Nat) : exec (.moduleLimitWrite half) s = .next s := by
  simp [execModuleLimitWrite, h]

section
variable {s : State} {half : Nat} (h : s.managementUp = true)
include h

theorem moduleLimitWrite_high (hh : 3200 < half) :
    exec (.moduleLimitWrite half) s = .next (s.tellMgmt { cause := 0x15E, detail := half }) := by
  simp [execModuleLimitWrite, h, hh]

theorem moduleLimitWrite_low (hh : half ≤ 3200) (hl : half < standingGrants s + 120) :
    exec (.moduleLimitWrite half) s = .next (s.tellMgmt { cause := 0x15F, detail := half }) := by
  simp [execModuleLimitWrite, h, Nat.not_lt.2 hh, hl]

theorem moduleLimitWrite_sets (hh : half ≤ 3200) (hl : standingGrants s + 120 ≤ half) :
    exec (.moduleLimitWrite half) s = .next { s with power := { s.power with limit := half } } := by
  simp [execModuleLimitWrite, h, Nat.not_lt.2 hh, Nat.not_lt.2 hl]

end

/-! ### Power states of cores (R39) -/

section
variable {s : State} {c : Nat}

theorem powerGate_idle (hg : (s.core c).graph = 0) (hp : (s.core c).power ≠ .waking) (ht : (s.core c).idleSince + 5 * 1000000 ≤ s.time) :
    exec (.powerGate c) s = .next (s.modCore c fun k => { k with power := .powerGated }) := by
  simp only [exec_powerGate, execPowerGate, nanos, hg, ht, ne_eq, hp, not_false_eq_true, and_self, if_true]

theorem powerGate_held (hg : (s.core c).graph ≠ 0) : exec (.powerGate c) s = .next s := by
  simp only [exec_powerGate, execPowerGate, hg, false_and, if_false]

@[simp] theorem core_modGraph (s : State) (h : Nat) (f : Graph → Graph) (c : Nat) : (s.modGraph h f).core c = s.core c :=
  (congrArg (State.core · c) (sansTold_modGraph s h f) :)

/-- A core that has woken is clock-gated, and the time for the report of its load starts again (R39, log entry 37). -/
theorem coreWakeComplete_wakes (hp : (s.core c).power = .waking) : ∃ t, exec (.coreWakeComplete c) s = .next t ∧
    t.core c = { s.core c with power := .clockGated } ∧ t.mem = s.mem ∧
    ∀ g, s.graph? (s.core c).graph = some g → g.phase = .loading → (t.graph? (s.core c).graph).map Graph.loadSince = some g.gtime := by
  simp only [exec_coreWakeComplete, execCoreWakeComplete, hp, if_true]
  refine ⟨_, rfl, ?_, (onlyGraph_modGraph ..).1, fun g hg hl => ?_⟩
  · rw [core_modGraph, core_modCore_self]
  · rw [graph?_modGraph (s := s.modCore c _) hg, if_pos hl, Option.map_some]

theorem wakeTimeout_aborts (hp : (s.core c).power = .waking) (ht : (s.core c).wakeSince + 5 * 100000 ≤ s.time) :
    exec (.wakeTimeout c) s = .next (((s.failLoad (s.core c).graph).modCore c fun k => { k with power := .powerGated }).notifyGraph
      (s.core c).graph { cause := 0x158, core := coreName c }) := by
  simp only [exec_wakeTimeout, execWakeTimeout, nanos, hp, ht, and_self, if_true]

end

/-- Settles O50: each clause from the rule of its event. -/
theorem powerEvents : Obligations.PowerEvents := by
  intro s card temp half c island t0 k read droop lost
  refine ⟨fun h => arbiter_idle h card temp island, fun hc h => ⟨fun ht => ?_, fun ht ht' hf => ?_, fun ht => ?_, ?_, fun ht hr => ?_⟩,
    fun hf => ⟨thermalRepeat_due hf, thermalRepeat_early hf⟩, fun h g ho hg => ?_, fun h g h' g' ho hne hg hg' hlt => ?_,
    fun hi h => ⟨supplyDroop_halts hi h, supplyDroop_of_no_graphs hi h⟩, fun h => moduleLimitWrite_of_reset h half,
    moduleLimitWrite_sets, moduleLimitWrite_high, moduleLimitWrite_low, powerGate_idle, powerGate_held,
    fun hp => ⟨coreWakeComplete_wakes hp, wakeTimeout_aborts hp⟩⟩
  -- Samples of a card, and its shutdown (R38).
  · rw [sensorSample_reads hc h, readHeat_cool ht]
  · rw [sensorSample_reads hc h, readHeat_hot ht ht' hf]; rfl
  · rw [sensorSample_reads hc h, readHeat_shuts ht]
    exact ⟨_, rfl, fun i hi => power_shutCard _ _ _ hi, rfl⟩
  · rw [edgeViaOvercurrent_shuts hc h]
    exact ⟨_, rfl, fun i hi => power_shutCard _ _ _ hi, rfl⟩
  · rw [sensorSilent_reads hc h, hr, Nat.max_eq_left ht]
  -- Which graph the heat freezes (R38).
  · have hp := phase_of_mem_runningGraphs (ho ▸ List.mem_cons_self : (h, g) ∈ runningGraphs s)
    exact heatFreeze_freezes (l := []) (by rw [ho]; rfl) hg hp card
  · have hp := phase_of_mem_runningGraphs (ho ▸ by simp : (h', g') ∈ runningGraphs s)
    have hfirst : sortBy freezesBefore (runningGraphs s) = [(h', g'), (h, g)] := by rw [ho, sortBy_freezesBefore_pair hlt]
    exact ⟨heatFreeze_freezes hfirst hg' hp card, (heatFreeze_others hfirst hg' hp card hne).trans hg⟩

end Sys2Proof.Machine
end

section
/-! Maps with an entry gone or every entry changed, and the bytes of a range of memory copied to another. -/

namespace Sys2Proof.Machine

/-! ### Finite maps -/

theorem NMap.find_del_self {α : Type} {m : NMap α} (h : NMap.wf m = true) (k : Nat) : NMap.find (NMap.del m k) k = none := by
  induction m with
  | nil => rfl
  | cons p m ih =>
    obtain ⟨a, v⟩ := p
    simp only [NMap.del]
    split
    · next hk =>
      cases m with
      | nil => rfl
      | cons q m =>
        have hab : a < q.1 := of_decide_eq_true (Bool.and_eq_true_iff.1 h).1
        simp [NMap.find, show k ≠ q.1 by omega, show k < q.1 by omega]
    · next hk =>
      have ht : NMap.wf m = true := by
        cases m with
        | nil => rfl
        | cons q m => exact (Bool.and_eq_true_iff.1 h).2
      split <;> simp [NMap.find, *]

/-- A map whose entries change, each under its key. -/
theorem NMap.find_map {α β : Type} {f : Nat × α → Nat × β} (hf : ∀ p, (f p).1 = p.1) (m : NMap α) (k : Nat) :
    NMap.find (m.map f) k = (NMap.find m k).map fun x => (f (k, x)).2 := by
  induction m with
  | nil => rfl
  | cons p m ih =>
    obtain ⟨a, v⟩ := p
    simp only [List.map_cons, NMap.find, hf, ih]
    split
    · next h => rw [h]; rfl
    · split <;> rfl

/-- Entries put under the keys of a list that pass a test. -/
theorem NMap.getD_foldl_put {α : Type} (d : α) (p : Nat → Bool) (v : Nat → α) (ks : List Nat) (m : NMap α) (k : Nat) :
    NMap.getD d (ks.foldl (fun m l => if p l then NMap.put m l (v l) else m) m) k =
      if k ∈ ks ∧ p k = true then v k else NMap.getD d m k := by
  induction ks generalizing m with
  | nil => simp
  | cons l ks ih =>
    rw [List.foldl_cons, ih]
    by_cases hk : k = l
    · subst hk
      by_cases hp : p k = true <;> simp [hp, NMap.getD_put_self]
    · by_cases hp : p l = true <;> simp [hk, hp, NMap.getD_put_ne _ _ _ hk]

/-! ### Memory copied to another range -/

/-- Of a memory, the cells at the addresses that pass a test. -/
theorem memGet_filter (p : Nat → Bool) {m : List Host.Cell} (hm : Memory.wf m = true) (x : Nat) :
    memGet (m.filter fun c => p c.1) x = if p x then memGet m x else memDefault := by
  induction m with
  | nil => simp [memGet]
  | cons c m ih =>
    obtain ⟨a, v⟩ := c
    obtain ⟨-, habove, hwf⟩ := Memory.wf_cons.1 hm
    have hlow : x ≤ a → memGet m x = memDefault := memGet_above habove
    simp only [List.filter_cons]
    by_cases hx : x = a
    · subst hx
      by_cases hp : p x = true <;> simp [hp, memGet, ih hwf]
    · by_cases hlt : x < a
      · by_cases hp : p a = true <;> simp [hp, memGet, hx, hlt, ih hwf, hlow (Nat.le_of_lt hlt)]
      · by_cases hp : p a = true <;> simp [hp, memGet, hx, hlt, ih hwf]

/-- The cells of a list, moved from addresses at a to addresses at b. -/
def memMove (a b : Nat) (cells m : List Host.Cell) : List Host.Cell := cells.foldl (fun m c => memPut m (b + (c.1 - a)) c.2) m

theorem memGet_memMove {a b : Nat} {cells m : List Host.Cell} (hc : Memory.wf cells = true) (hlow : ∀ c ∈ cells, a ≤ c.1)
    (hm : Memory.wf m = true) (j : Nat) : memGet (memMove a b cells m) (b + j) =
      if memGet cells (a + j) = memDefault then memGet m (b + j) else memGet cells (a + j) := by
  induction cells generalizing m with
  | nil => simp [memMove, memGet]
  | cons c cells ih =>
    obtain ⟨k, v⟩ := c
    obtain ⟨hv, habove, hwf⟩ := Memory.wf_cons.1 hc
    have hk : a ≤ k := hlow (k, v) List.mem_cons_self
    rw [show memMove a b ((k, v) :: cells) m = memMove a b cells (memPut m (b + (k - a)) v) from rfl,
      ih hwf (fun c h => hlow c (List.mem_cons_of_mem _ h)) (memPut_wf hm), memGet_memPut hm]
    by_cases hj : a + j = k
    · subst hj
      simp [memGet, memGet_above habove (Nat.le_refl _), hv]
    · have hne : j ≠ k - a := by omega
      by_cases hlt : a + j < k
      · simp [memGet, hj, hlt, hne, memGet_above habove (Nat.le_of_lt hlt)]
      · simp [memGet, hj, hlt, hne]

theorem memGet_memMove_outside {a b n x : Nat} {cells m : List Host.Cell} (hc : ∀ c ∈ cells, a ≤ c.1 ∧ c.1 < a + n)
    (hm : Memory.wf m = true) (hx : x < b ∨ b + n ≤ x) : memGet (memMove a b cells m) x = memGet m x := by
  induction cells generalizing m with
  | nil => rfl
  | cons c cells ih =>
    have hk := hc c List.mem_cons_self
    rw [show memMove a b (c :: cells) m = memMove a b cells (memPut m (b + (c.1 - a)) c.2) from rfl,
      ih (fun c h => hc c (List.mem_cons_of_mem _ h)) (memPut_wf hm), memGet_memPut hm, if_neg (by omega)]

namespace State

/-- A copy changes memory and its storage errors alone. -/
theorem copy_eq (s : State) (a b n : Nat) : ∃ e, s.copy a b n =
    { s with mem := memMove a b (s.mem.filter fun m => decide (a ≤ m.1 ∧ m.1 < a + n)) (s.clear b n).mem, ecc := e } := by
  have hfold : ∀ (cells : List Host.Cell) (u : State), ∃ e,
      cells.foldl (fun s m => s.write (b + (m.1 - a)) [m.2]) u = { u with mem := memMove a b cells u.mem, ecc := e } := by
    intro cells
    induction cells with
    | nil => exact fun u => ⟨_, rfl⟩
    | cons c cells ih =>
      intro u
      obtain ⟨e, he⟩ := ih (u.write (b + (c.1 - a)) [c.2])
      exact ⟨e, he⟩
  obtain ⟨e, he⟩ := hfold (s.mem.filter fun m => decide (a ≤ m.1 ∧ m.1 < a + n)) (s.clear b n)
  exact ⟨e, he⟩

theorem copy_deck (s : State) (a b n : Nat) : (s.copy a b n).deck = s.deck := by
  obtain ⟨e, he⟩ := copy_eq s a b n
  rw [he]

theorem copy_cores (s : State) (a b n : Nat) : (s.copy a b n).cores = s.cores := by
  obtain ⟨e, he⟩ := copy_eq s a b n
  rw [he]

theorem copy_mem (s : State) (a b n : Nat) : (s.copy a b n).mem =
    memMove a b (s.mem.filter fun m => decide (a ≤ m.1 ∧ m.1 < a + n)) (s.clear b n).mem := by
  obtain ⟨e, he⟩ := copy_eq s a b n
  rw [he]

theorem clear_wf {s : State} (hm : Memory.wf s.mem = true) (b n : Nat) : Memory.wf (s.clear b n).mem = true := memFilter_wf hm

theorem memGet_clear {s : State} (hm : Memory.wf s.mem = true) (b n x : Nat) :
    memGet (s.clear b n).mem x = if b ≤ x ∧ x < b + n then memDefault else memGet s.mem x := by
  refine (memGet_filter (fun x => !(decide (b ≤ x ∧ x < b + n))) hm x).trans ?_
  by_cases h : b ≤ x ∧ x < b + n <;> simp [h]

/-- The bytes of a range stand in the other range after a copy. -/
theorem memGet_copy {s : State} (hm : Memory.wf s.mem = true) (a b : Nat) {n j : Nat} (hj : j < n) :
    memGet (s.copy a b n).mem (b + j) = memGet s.mem (a + j) := by
  have hsrc : memGet (s.mem.filter fun m => decide (a ≤ m.1 ∧ m.1 < a + n)) (a + j) = memGet s.mem (a + j) := by
    rw [memGet_filter (fun x => decide (a ≤ x ∧ x < a + n)) hm, if_pos (decide_eq_true (by omega))]
  have hdst : memGet (s.clear b n).mem (b + j) = memDefault := by rw [memGet_clear hm, if_pos (by omega)]
  rw [copy_mem, memGet_memMove (memFilter_wf hm) (by simp; omega) (clear_wf hm b n), hsrc, hdst]
  split
  · next h => exact h.symm
  · rfl

theorem sameOutside_copy {s : State} (hm : Memory.wf s.mem = true) (a b n : Nat) : SameOutside s (s.copy a b n) b n := by
  intro x hx
  rw [copy_mem, memGet_memMove_outside (n := n) (by simp) (clear_wf hm b n) hx, memGet_clear hm, if_neg (by omega)]

end State

end Sys2Proof.Machine
end

section
/-! The slots of the deck bus: what passes, what a frame's end leaves, what stream and credit slots carry, and what the hub takes
of the calendar and the window's ranges (R41, R44 to R51, R53). -/

namespace Sys2Proof.Machine

open State

/-! ### Slots that pass (R41, R44) -/

/-- A state with other slots on the wire, and at another place of the frame. -/
def onBus (s : State) (w : NMap SlotSent) (place : Nat) : State := { s with deck := { s.deck with wire := w, slotPos := place } }

/-- Idle slots show on the wire alone. -/
theorem idleTo_eq (s : State) (place : Nat) : ∃ w, idleTo s place = onBus s w s.deck.slotPos := by
  unfold idleTo
  refine List.foldlRecOn (motive := fun t => ∃ w, t = onBus s w s.deck.slotPos) _ _ ⟨s.deck.wire, rfl⟩ ?_
  rintro t ⟨w, rfl⟩ suit -
  split
  · exact ⟨w, rfl⟩
  · exact ⟨_, rfl⟩

/-- A slot that passes shows on the wire and in the place of the frame. -/
theorem passSlot_eq (s : State) (suit slot : Nat) : ∃ w, passSlot s suit slot = onBus s w (slotPlace suit slot + 1) := by
  obtain ⟨w, hw⟩ := idleTo_eq s (slotPlace suit slot)
  exact ⟨w, by rw [passSlot, hw]; rfl⟩

/-- With nothing queued at any layer nothing is overdue (R55). -/
theorem settle_of_no_pending {s : State} (h : ∀ l, pendingAt s l = []) (slot : Nat) : settle s slot = s :=
  List.foldl_fixed' (fun l => by rw [h]; exact ite_self _) _

/-- A slot that arrives without an error has no other consequence than its content (R64). -/
theorem endSlot_of_not_struck {s : State} (h : s.deck.struck = []) (hd : SlotHead) (bs : List Byte) :
    endSlot s hd bs = onWire s hd bs := by
  simp only [endSlot, slotErrors, onWire, h, List.foldl_nil]

/-! ### Stream slots (R44, R49 to R51) -/

section
variable {s : State} {suit slot cls : Nat} (hf : slotFor s suit slot cls = true)
include hf

/-- A granted slot carries the tokens of its stream, of a graph that runs and is in no cut. -/
theorem streamSlot_carries {st : DeckStream} {g : Graph}
    (hst : NMap.getD {} s.streams (ctxStream (fld (slotEntry s suit slot) 26 23) (fld (slotEntry s suit slot) 15 0)) = st)
    (hm : st.mem = (cls == 4)) (hl : streamLayer st = fld (slotEntry s suit slot) 30 27) (hg : s.graph? st.graph = some g)
    (hp : g.phase = .running) (hc : g.cutSince = none) : streamSlot cls suit slot s =
      streamCarry (ctxStream (fld (slotEntry s suit slot) 26 23) (fld (slotEntry s suit slot) 15 0)) suit slot (settle s slot) := by
  simp [streamSlot, hf, hst, hm, hl, hg, hp, hc]

/-- A granted slot whose stream is not of its class or not of its layer stays idle. -/
theorem streamSlot_idle {st : DeckStream}
    (hst : NMap.getD {} s.streams (ctxStream (fld (slotEntry s suit slot) 26 23) (fld (slotEntry s suit slot) 15 0)) = st)
    (h : st.mem = !(cls == 4) ∨ streamLayer st ≠ fld (slotEntry s suit slot) 30 27) :
    streamSlot cls suit slot s = idleSlot (settle s slot) suit slot := by
  rcases h with h | h <;> simp [streamSlot, hf, hst, h]

end

/-! ### Credit slots (R47, R50) -/

theorem length_creditsOf_le (s : State) (card : Nat) : (creditsOf s card).length ≤ 256 := List.length_take_le ..

theorem length_hubCredits_le (s : State) : (hubCredits s).length ≤ 256 := List.length_take_le ..

/-- A layer's next credit slot of the frame (R47). -/
def creditPlace (s : State) (layer : Nat) : Nat := if slotAhead s 3 (448 + 2 * layer) then 448 + 2 * layer else 449 + 2 * layer

section
variable {s : State} {layer : Nat} (ha : slotAhead s 3 (creditPlace s layer) = true)
include ha

theorem creditSlot_card (hl : layer < 12) (hw : cardAsleep s layer = false) {t : State}
    (ht : passSlot (settle s (creditPlace s layer)) 3 (creditPlace s layer) = t) : exec (.creditSlot layer) s = .next
      (endSlot ((creditsOf t layer).foldl creditRecord t) (creditHead layer (creditPlace s layer))
        (creditBytes ((creditsOf t layer).map fun x => (streamKey t x.1 ((t.core x.1).desc x.2.1).stream, x.2.2.rd)))) := by
  subst ht
  rw [exec_creditSlot, execCreditSlot, ← creditPlace.eq_def]
  simp [ha, hw, Nat.ne_of_lt hl, show ¬ 13 ≤ layer by omega]

theorem creditSlot_hub (hl : layer = 12) {t : State}
    (ht : passSlot (settle s (creditPlace s layer)) 3 (creditPlace s layer) = t) : exec (.creditSlot layer) s = .next
      (endSlot ((hubCredits t).foldl hubCredit t) (creditHead 12 (creditPlace s layer))
        (creditBytes ((hubCredits t).map fun x => (x.1, x.2.2)))) := by
  subst hl ht
  rw [exec_creditSlot, execCreditSlot, ← creditPlace.eq_def]
  simp [ha]

end

/-! ### Frames (R41) -/

theorem advanceTime_deck (s : State) (dt : Nat) : (advanceTime s dt).deck = s.deck := rfl

/-- The frame after one: its number and its first slot, and the time that has passed. -/
def nextFrame (s : State) : State :=
  advanceTime { s with deck := { s.deck with asleepHits := [], frame := (s.deck.frame + 1) % 2 ^ 48, slotPos := 0 } } 2048

/-- At the end of a frame that no refresh awaits and in which no slot named a sleeping card, the next begins. -/
theorem frameBoundary_next {s t : State} (ht : settle (idleTo s 2048) 511 = t) (hh : t.deck.asleepHits = []) (hw : t.deck.wakes = []) :
    exec .frameBoundary s = .next (nextFrame t) := by
  simp only [exec_frameBoundary, execFrameBoundary, ht, hh, hw, advanceTime_deck, nextFrame, List.foldl_nil, List.any_nil,
    List.map_nil, Bool.false_eq_true, if_false]

theorem frameBoundary_quiet {s : State} (hh : s.deck.asleepHits = []) (hw : s.deck.wakes = []) (hp : ∀ l, pendingAt s l = []) :
    ∃ t, exec .frameBoundary s = .next t ∧ t.deck.frame = (s.deck.frame + 1) % 2 ^ 48 ∧ t.deck.slotPos = 0 ∧
      t.time = s.time + 2048 ∧ t.mem = s.mem ∧ t.cores = s.cores := by
  obtain ⟨w, hidle⟩ := idleTo_eq s 2048
  have hq : settle (idleTo s 2048) 511 = onBus s w s.deck.slotPos := by
    rw [hidle, settle_of_no_pending (s := onBus s w s.deck.slotPos) hp]
  exact ⟨_, frameBoundary_next hq hh hw, rfl, rfl, rfl, rfl, rfl⟩

/-! ### The calendar and the window's ranges (R46, R53, R105) -/

section
variable {s : State} {i : Nat} {w : Word32}

/-- The hub takes an entry of a stream's class that names a slot it may grant and a layer that can send. -/
theorem calendarWrite_sets (hi : i < 2048) (hr : slotReserved i = false) (hl : fld w 30 27 ≤ 12)
    (hc : fld w 22 20 = 1 ∨ fld w 22 20 = 4) (hf : s.fusedAsleep.testBit (fld w 30 27) = false) (hd : s.dealerUp = true) :
    exec (.calendarWrite i w) s =
      .next { s with deck := { s.deck with calendar := NMap.put s.deck.calendar i (w &&& 0xFFF0FFFF#32) } } := by
  have hok : calendarBad s i w = false := by
    rcases hc with hc | hc <;> simp [calendarBad, hc, hf, hr, Nat.not_le.2 hi, Nat.not_lt.2 hl]
  simp [execCalendarWrite, hd, hok]

theorem calendarWrite_refused (hd : s.dealerUp = true) (hb : calendarBad s i w = true) :
    exec (.calendarWrite i w) s = .next (s.tellMgmt { cause := 0x10D, detail := i }) := by
  simp [execCalendarWrite, hd, hb]

theorem calendarWrite_of_reset (hd : s.dealerUp = false) : exec (.calendarWrite i w) s = .next s := by simp [execCalendarWrite, hd]

end

section
variable {s : State} {x base size : Nat}

theorem dkwinRangeWrite_of_reset (h : s.managementUp = false) : exec (.dkwinRangeWrite x base size) s = .next s := by
  simp [execDkwinRangeWrite, h]

theorem dkwinRangeWrite_sets (h : s.managementUp = true) (hle : base + size ≤ 256)
    (hfree : ∀ n k, (n, k) ∈ s.ctxs → n ≠ x → rangesMeet k.dkbase k.dksize base size = false) :
    exec (.dkwinRangeWrite x base size) s = .next (s.modCtx x fun k => { k with dkbase := base, dksize := size }) := by
  have hclash : (s.ctxs.any fun p => p.1 != x && rangesMeet p.2.dkbase p.2.dksize base size) = false :=
    List.any_eq_false.2 fun p hp hand => by
      obtain ⟨hne, hmeet⟩ := Bool.and_eq_true_iff.1 hand
      exact absurd hmeet (by simp [hfree p.1 p.2 hp (bne_iff_ne.1 hne)])
  simp only [exec_dkwinRangeWrite, execDkwinRangeWrite, h, hclash, Nat.not_lt.2 hle]
  rfl

theorem dkwinRangeWrite_refused (h : s.managementUp = true) (hlt : 256 < base + size) :
    exec (.dkwinRangeWrite x base size) s = .next (s.tellMgmt { cause := 0x10D, ctx := x }) := by
  simp [execDkwinRangeWrite, h, hlt]

end

end Sys2Proof.Machine
end

section
/-! The deck window: operations sent in its slots, queued at the layers that receive them, and applied (R49, R52, R55, R56). -/

namespace Sys2Proof.Machine

open State

/-! ### Operations that are sent (R49, R55) -/

/-- An operation as the layers queue it: with the slot that carried it. -/
def opQueued (s : State) (suit slot : Nat) (o : DeckOp) : DeckOp :=
  { o with fseq := s.deck.frame, slot := slot, suit := suit, viaHub := !(takesOp s o.card) }

theorem takesOp_of_not_struck {s : State} (h : s.deck.struck = []) (l : Nat) : takesOp s l = receives s l s.deck.frame := by
  simp [takesOp, isStruck, h, NMap.find]

/-- A core whose oldest deck operation has been sent. -/
def Core.opSent (k : Core) : Core := { k with deckq := k.deckq.drop 1, deckOut := k.deckOut + 1 }

theorem core_sendOp (s : State) (c suit slot : Nat) (o : DeckOp) : (sendOp s c suit slot o).core c = (s.core c).opSent :=
  core_modCore_self s c Core.opSent

/-- Where nothing is queued, an operation sent is what every layer that takes it has queued. -/
theorem pendingAt_sendOp {s : State} (hp : ∀ l, pendingAt s l = []) (c suit slot : Nat) (o : DeckOp) {l : Nat} (hl : l < 13) :
    pendingAt (sendOp s c suit slot o) l = if takesOp s l then [opQueued s suit slot o] else [] := by
  have hfold := NMap.getD_foldl_put [] (takesOp s) (fun l => pendingAt s l ++ [opQueued s suit slot o]) (List.range 13) s.deck.pending l
  have hold : NMap.getD [] s.deck.pending l = [] := hp l
  refine hfold.trans ?_
  simp [hl, hp, hold]

section
variable {s : State} {suit slot c : Nat} {o : DeckOp} {atomic : Bool} (hf : slotFor s suit slot 2 = true)
  (hp : ∀ l, pendingAt s l = []) (hs : s.deck.struck = [])
  (hh : deckHead s (fld (slotEntry s suit slot) 30 27) (fld (slotEntry s suit slot) 26 23) atomic = some (c, o))
  (ho : (o.atomic && decide (2 ≤ o.aop)) = false)
include hf hp hs hh ho

/-- The oldest operation of a granted window slot's context leaves in it (R49). -/
theorem windowSlot_eq : windowSlot atomic suit slot s =
    onWire (sendOp (passSlot s suit slot) c suit slot o) (o.head suit slot) o.slotBytes := by
  obtain ⟨w, hw⟩ := passSlot_eq s suit slot
  simp only [windowSlot, hf, settle_of_no_pending hp, hh, ho, Bool.not_true, Bool.false_eq_true, if_false]
  exact endSlot_of_not_struck (by rw [hw]; exact hs) _ _

theorem windowSlot_sends : (windowSlot atomic suit slot s).core c = (s.core c).opSent ∧
    (windowSlot atomic suit slot s).mem = s.mem ∧
    (NMap.find (windowSlot atomic suit slot s).deck.wire suit).map SlotSent.bytes = some o.slotBytes ∧
    ∀ l, l < 13 → pendingAt (windowSlot atomic suit slot s) l =
      if receives s l s.deck.frame then [opQueued s suit slot o] else [] := by
  obtain ⟨w, hw⟩ := passSlot_eq s suit slot
  rw [windowSlot_eq hf hp hs hh ho, hw]
  refine ⟨core_sendOp (onBus s w _) c suit slot o, rfl, congrArg (Option.map _) (NMap.find_put_self ..), fun l hl => ?_⟩
  rw [← takesOp_of_not_struck hs]
  exact pendingAt_sendOp (s := onBus s w _) hp c suit slot o hl

end

/-! ### Cores that an operation wakes (R343) -/

/-- A core that may wake is woken or stays as it is. -/
theorem core_wakeCard (s : State) (card off n c : Nat) :
    (wakeCard s card off n).core c = (s.core c).wake ∨ (wakeCard s card off n).core c = s.core c := by
  simp only [wakeCard, State.core, NMap.getD_eq]
  rw [NMap.find_map]
  · cases NMap.find s.cores c with
    | none => exact .inr rfl
    | some k => simp only [Option.map_some, Option.getD_some]; split_ifs <;> simp
  · exact fun p => (apply_ite Prod.fst ..).trans (ite_self _)

section
variable (s : State) (card off n c : Nat)

@[simp] theorem regs_wakeCard : ((wakeCard s card off n).core c).regs = (s.core c).regs := by
  rcases core_wakeCard s card off n c with h | h <;> rw [h]
  unfold Core.wake; split <;> rfl

@[simp] theorem deckOut_wakeCard : ((wakeCard s card off n).core c).deckOut = (s.core c).deckOut := by
  rcases core_wakeCard s card off n c with h | h <;> rw [h]
  unfold Core.wake; split <;> rfl

@[simp] theorem entry_wakeCard (q : Nat) : ((wakeCard s card off n).core c).entry q = (s.core c).entry q := by
  rcases core_wakeCard s card off n c with h | h <;> rw [h]
  exact entry_wake ..

end

/-! ### Operations that are applied (R55, R56) -/

/-- What an operation writes to a replica: a write its bytes, an atomic its new value. -/
def opWritten (s : State) (l : Nat) (o : DeckOp) : List Byte :=
  if o.atomic then leBytes (opBytes o) (deckNew o (ofLe (s.read (replicaBase l + o.off) (opBytes o)))) else o.bytes

theorem opWritten_write {o : DeckOp} (h : o.atomic = false) (s : State) (l : Nat) : opWritten s l o = o.bytes := by
  simp [opWritten, h]

theorem opWritten_atomic {o : DeckOp} (h : o.atomic = true) (s : State) (l : Nat) :
    opWritten s l o = leBytes (opBytes o) (deckNew o (ofLe (s.read (replicaBase l + o.off) (opBytes o)))) := by
  simp [opWritten, h]

/-- An entry with its response has it, be it its turn to complete or not. -/
theorem entry_completeEntry_performed {s : State} {c q : Nat} (f v : Nat) (hb : ((s.core c).entry q).busy = true)
    (hd : ((s.core c).entry q).done = false) : (((s.completeEntry c q f v).core c).entry q).performed = true ∧
    (((s.completeEntry c q f v).core c).entry q).resp = v := by
  simp only [completeEntry, core_modCore_self, hb, hd, Bool.not_false, Bool.and_self, if_true]
  split <;> simp

section
variable (s : State) (l : Nat) (o : DeckOp)

/-- An operation applied writes its bytes in one step. -/
theorem applyOp_mem : (applyOp s l o).mem = (s.write (replicaBase l + o.off) (opWritten s l o)).mem := by
  cases h : o.atomic with
  | false =>
    rw [opWritten_write h]
    simp only [applyOp, h, Bool.false_eq_true, if_false]
    split <;> rfl
  | true =>
    rw [opWritten_atomic h]
    simp only [applyOp, h, if_true]
    split_ifs <;> rfl

theorem applyOp_wakes : (applyOp s l o).deck.wakes = s.deck.wakes := by
  simp only [applyOp]
  split_ifs <;> rfl

/-- What a layer has queued besides stays queued: the master's old value is noted at another layer. -/
theorem pendingAt_applyOp : pendingAt (applyOp s l o) l = pendingAt s l := by
  simp only [applyOp]
  split_ifs with _ hown
  · rfl
  · rfl
  · exact NMap.getD_put_ne _ _ _ hown
  · rfl
  · rfl
  · rfl

end

section
variable {s : State} {l : Nat} {o : DeckOp}

theorem regs_applyOp_write (h : o.atomic = false) (c : Nat) : ((applyOp s l o).core c).regs = (s.core c).regs := by
  simp only [applyOp, h, Bool.false_eq_true, if_false]
  split
  · by_cases hc : c = o.card * 192 + o.index
    · subst hc; simp [opApplied]
    · simp [opApplied, hc]
  · simp

/-- A write counts as applied at its own card's replica. -/
theorem deckOut_applyOp_write (h : o.atomic = false) (hl : l = o.card) :
    ((applyOp s l o).core (o.card * 192 + o.index)).deckOut = (s.core (o.card * 192 + o.index)).deckOut - 1 := by
  simp [applyOp, h, hl, opApplied]

/-- The old value of an atomic goes to its issuer from its own card's replica. -/
theorem entry_applyOp_atomic (h : o.atomic = true) (hl : l = o.card) (hb : ((s.core (o.card * 192 + o.index)).entry o.q).busy = true)
    (hd : ((s.core (o.card * 192 + o.index)).entry o.q).done = false) :
    (((applyOp s l o).core (o.card * 192 + o.index)).entry o.q).performed = true ∧
    (((applyOp s l o).core (o.card * 192 + o.index)).entry o.q).resp = ofLe (s.read (replicaBase l + o.off) (opBytes o)) := by
  have hentry : ∀ u : State, (((opApplied u o).core (o.card * 192 + o.index)).entry o.q) = ((u.core (o.card * 192 + o.index)).entry o.q) :=
    fun u => by rw [opApplied, core_modCore_self]; rfl
  simp only [applyOp, h, hl, if_true]
  exact entry_completeEntry_performed 0 _ (by simp [hentry, hb]) (by simp [hentry, hd])

/-- Through the hub goes the old value of an atomic whose own card did not queue it. -/
theorem hub_applyOp_atomic (h : o.atomic = true) (hl : l = 12) (hv : o.viaHub = true) (hc : o.card < 12) :
    (applyOp s l o).deck.hub = s.deck.hub ++ [.record o.card o.index o.q (ofLe (s.read (replicaBase l + o.off) (opBytes o)))] := by
  simp only [applyOp, h, hl, hv, Nat.ne_of_gt hc, if_true, if_false]
  rfl

end

/-! ### A layer's oldest operation (R55, R60) -/

/-- A state with a layer's queue replaced. -/
def withPending (s : State) (l : Nat) (ops : List DeckOp) : State :=
  { s with deck := { s.deck with pending := NMap.put s.deck.pending l ops } }

/-- A layer whose replica is in no refresh has no refresh to end. -/
theorem refreshDone_of_no_wake {s : State} {l : Nat} (h : NMap.find s.deck.wakes l = none) : refreshDone s l = s := by
  simp only [refreshDone, h]

/-- Without marked storage errors a layer applies its oldest operation. -/
theorem applyHead_of_unmarked {s : State} {l : Nat} {o : DeckOp} {rest : List DeckOp} (hp : pendingAt s l = o :: rest)
    (hm : s.ecc.marks = []) : applyHead s l = applyOp (withPending s l rest) l o := by
  have hc : ∀ a n, (withPending s l rest).correct a n = withPending s l rest := correct_of_unmarked hm
  simp only [applyHead, hp, ueAt_of_unmarked hm, ite_self]
  exact congrArg (applyOp · l o) (by rw [← withPending.eq_def, hc, ite_self])

section
variable {s : State} {l : Nat} {o : DeckOp} {rest : List DeckOp} (hl : l < 13) (hw : NMap.find s.deck.wakes l = none)
  (hp : pendingAt s l = o :: rest)
include hl hw hp

/-- An operation whose slot has not ended waits (R55). -/
theorem replicaApply_waits (h : s.deck.frame * 512 * 4 + s.deck.slotPos < 4 * (512 * o.fseq + o.slot + 1)) :
    exec (.replicaApply l) s = .next s := by
  have hend : slotEnded s o = false := decide_eq_false (by simp only [slotTime]; omega)
  simp [execReplicaApply, mayApply, hw, hp, hend, Nat.not_le.2 hl]

theorem replicaApply_applies (h : 4 * (512 * o.fseq + o.slot + 1) ≤ s.deck.frame * 512 * 4 + s.deck.slotPos)
    (hm : s.ecc.marks = []) : exec (.replicaApply l) s = .next (applyOp (withPending s l rest) l o) := by
  have hend : slotEnded s o = true := decide_eq_true (by simp only [slotTime]; omega)
  have hdone : refreshDone (applyOp (withPending s l rest) l o) l = applyOp (withPending s l rest) l o :=
    refreshDone_of_no_wake (by rw [applyOp_wakes]; exact hw)
  simp [execReplicaApply, mayApply, hw, hp, hend, Nat.not_le.2 hl, applyHead_of_unmarked hp hm, hdone]

end

theorem pendingAt_applied (s : State) (l : Nat) (o : DeckOp) (rest : List DeckOp) :
    pendingAt (applyOp (withPending s l rest) l o) l = rest :=
  (pendingAt_applyOp ..).trans (NMap.getD_put_self ..)

/-- The bytes that an operation writes stand in the replica, and no other byte changes. -/
theorem applied_reads {s : State} (hm : Memory.wf s.mem = true) (l : Nat) (o : DeckOp) (rest : List DeckOp) :
    (∀ j, j < (opWritten s l o).length → memGet (applyOp (withPending s l rest) l o).mem (replicaBase l + o.off + j) =
      (opWritten s l o).getD j 0) ∧
    SameOutside s (applyOp (withPending s l rest) l o) (replicaBase l + o.off) (opWritten s l o).length := by
  have hmem : (applyOp (withPending s l rest) l o).mem = memWrite s.mem (replicaBase l + o.off) (opWritten s l o) := applyOp_mem ..
  unfold SameOutside
  rw [hmem]
  exact memWrite_reads hm _ _

end Sys2Proof.Machine
end

section
/-! The service slots: notices, return records, and the copy for the cards that wake (R44, R47, R56, R60). -/

namespace Sys2Proof.Machine

open State

theorem find_modCtx (s : State) (x : Nat) (f : Ctx → Ctx) : NMap.find (s.modCtx x f).ctxs x = (NMap.find s.ctxs x).map f := by
  unfold modCtx
  cases h : NMap.find s.ctxs x with
  | none => exact h
  | some k => exact NMap.find_put_self ..

@[simp] theorem modCtx_cores (s : State) (x : Nat) (f : Ctx → Ctx) : (s.modCtx x f).cores = s.cores :=
  (congrArg State.cores (sansTold_modCtx s x f) :)

@[simp] theorem modCtx_deck (s : State) (x : Nat) (f : Ctx → Ctx) : (s.modCtx x f).deck = s.deck := by
  unfold modCtx; split <;> rfl

/-- A notice whose slot arrives without an error has crossed the deck (R64). -/
theorem notCrossed_of_not_struck {s : State} (h : s.deck.struck = []) (x card : Nat) :
    notCrossed s x card = s.modCtx x fun k => { k with sent := k.sent + 1 } := by
  simp [notCrossed, isStruck, h, NMap.find]

theorem deliverRecord_of_not_struck {s : State} (h : s.deck.struck = []) (card index tag old : Nat) :
    deliverRecord s (.record card index tag old) = s.completeEntry (card * 192 + index) tag 0 old := by
  simp [deliverRecord, isStruck, h, NMap.find]

/-- The place of the window that a service slot's part of a copy has (R60). -/
def copyPlace (s : State) (slot : Nat) (w : Wake) : Nat := ((s.deck.frame - w.f0 - 1) * 32 + (slot - 480)) * 4096

section
variable {s : State} {slot : Nat} (hv : serviceSlot s slot = true) (hp : ∀ l, pendingAt s l = []) (hs : s.deck.struck = [])
include hv hp hs

/-! ### Notices and return records (R56, R60) -/

/-- The oldest item of the hub that may leave, a notice, crosses the deck. -/
theorem noticeSlot_crosses (hr : roundActive s = false) {x : Nat} (hx : s.deck.hub.find? (hubMay s) = some (.notice x)) :
    ∃ t, exec (.noticeSlot slot) s = .next t ∧ t.deck.hub = s.deck.hub.eraseP (hubMay s) ∧ t.mem = s.mem ∧ t.cores = s.cores ∧
      (NMap.find t.ctxs x).map Ctx.sent = (NMap.find s.ctxs x).map fun k => k.sent + 1 := by
  obtain ⟨w, hw⟩ := passSlot_eq s 3 slot
  simp only [exec_noticeSlot, execNoticeSlot, hv, hr, hx, settle_of_no_pending hp, hw, Bool.not_true, Bool.or_self,
    Bool.false_eq_true, if_false]
  rw [notCrossed_of_not_struck (by exact hs), endSlot_of_not_struck (by rw [modCtx_deck]; exact hs)]
  refine ⟨_, rfl, ?_, modCtx_mem .., modCtx_cores .., ?_⟩
  · exact congrArg Deck.hub (modCtx_deck ..)
  · refine (congrArg _ (find_modCtx ..)).trans ?_
    rw [Option.map_map]
    rfl

/-- A return record that waits for no round reaches its issuer. -/
theorem returnRecordSlot_delivers (hr : roundActive s = false) {card index tag val : Nat}
    (hh : s.deck.hub = [.record card index tag val]) (ha : roundAwaited s card = false) :
    ∃ t, exec (.returnRecordSlot slot) s = .next t ∧ t.deck.hub = [] ∧
      ∀ c, t.core c = (s.completeEntry (card * 192 + index) tag 0 val).core c := by
  obtain ⟨w, hw⟩ := passSlot_eq s 3 slot
  have hlead : (leadingRecords s s.deck.hub).take 256 = [.record card index tag val] := by
    rw [leadingRecords, hh, List.filter_cons_of_pos (by simp [hubMay, ha])]
    rfl
  simp only [exec_returnRecordSlot, execReturnRecordSlot, hv, hr, settle_of_no_pending hp, hlead, hw, Bool.not_true, Bool.or_self,
    Bool.false_eq_true, if_false, List.cons_ne_nil, List.foldl_cons, List.foldl_nil]
  rw [deliverRecord_of_not_struck (by exact hs), endSlot_of_not_struck (by exact hs)]
  exact ⟨_, rfl, by simp [onWire, completeEntry, onBus, hh], fun c => rfl⟩

/-! ### The copy of the snapshot (R60) -/

/-- A card in its round gets 4 KiB of the snapshot. -/
theorem refreshCopySlot_copies {layer : Nat} {w : Wake} (hw : s.deck.wakes = [(layer, w)]) (h0 : w.f0 < s.deck.frame)
    (h8 : s.deck.frame ≤ w.f0 + 8) (hm : Memory.wf s.mem = true) :
    ∃ t, exec (.refreshCopySlot slot) s = .next t ∧ NMap.find t.deck.wakes layer = some { w with copied := w.copied + 4096 } ∧
      t.cores = s.cores ∧ SameOutside s t (replicaBase layer + copyPlace s slot w) 4096 ∧
      ∀ j, j < 4096 → memGet t.mem (replicaBase layer + copyPlace s slot w + j) =
        memGet s.mem (replicaBase 13 + copyPlace s slot w + j) := by
  obtain ⟨v, hpass⟩ := passSlot_eq s 3 slot
  have hround : roundActive s = true := by simp [roundActive, hw, h0, h8]
  have hin : s.deck.wakes.filter (fun x => decide (x.2.f0 < s.deck.frame ∧ s.deck.frame ≤ x.2.f0 + 8)) = [(layer, w)] := by
    simp [hw, h0, h8]
  have hclean : isStruck (onBus s v (slotPlace 3 slot + 1)) layer = false := by simp [isStruck, onBus, hs, NMap.find]
  simp only [exec_refreshCopySlot, execRefreshCopySlot, hv, hround, settle_of_no_pending hp, hpass, hin, hclean, Bool.not_true,
    Bool.or_self, Bool.false_eq_true, if_false, List.foldl_cons, List.foldl_nil]
  refine ⟨_, congrArg _ (endSlot_of_not_struck ?_ ..), NMap.find_put_self .., copy_cores .., ?_, fun j hj => ?_⟩
  · rw [copy_deck]; exact hs
  · exact sameOutside_copy (s := onBus s v _) hm _ _ _
  · exact memGet_copy (s := onBus s v _) hm _ _ hj

end

end Sys2Proof.Machine
end

section
/-! Cards that sleep and wake, and the admissions that a wake too late aborts (R59, R60). -/

namespace Sys2Proof.Machine

open State

/-! ### Sleep (R59, R105) -/

section
variable {s : State} {card : Nat}

theorem cardSleep_of_reset (h : s.managementUp = false) : exec (.cardSleep card) s = .next s := by simp [execCardSleep, h]

theorem cardSleep_refused (hc : card < 12) (h : s.managementUp = true) (ha : cardAsleep s card = false) (hh : cardHeld s card = true) :
    exec (.cardSleep card) s = .next (s.tellMgmt { cause := 0x10F, detail := card }) := by
  simp [execCardSleep, Nat.not_le.2 hc, h, ha, hh]

/-- A card with no core in use sleeps: its replica is stale and nothing is queued there. -/
theorem cardSleep_sleeps (hc : card < 12) (h : s.managementUp = true) (ha : cardAsleep s card = false) (hh : cardHeld s card = false)
    (hp : NMap.wf s.deck.pending = true) : ∃ t, exec (.cardSleep card) s = .next t ∧ isStale t card = true ∧ pendingAt t card = [] ∧
      t.deck.asleep.testBit card = true ∧ t.cores = s.cores ∧ t.mem = s.mem := by
  simp only [exec_cardSleep, execCardSleep, Nat.not_le.2 hc, h, ha, hh, Bool.false_eq_true, Bool.true_eq_false, or_self, if_false]
  refine ⟨_, rfl, NMap.getD_put_self .., ?_, testBit_withBit_self _ _ true, rfl, rfl⟩
  rw [pendingAt, NMap.getD_eq, NMap.find_del_self hp, Option.getD_none]

end

/-! ### Refreshes (R60) -/

/-- A state but for the deck bus. -/
def State.sansDeck (s : State) : State := { s with deck := {} }

/-- What a card drops it drops from the deck bus alone. -/
theorem sansDeck_dropQueue (s : State) (l : Nat) : (dropQueue s l).sansDeck = s.sansDeck :=
  foldl_keeps sansDeck (fun s (o : DeckOp) => by
    unfold throughHub
    split
    · rfl
    · split <;> rfl) _ s

theorem dropQueue_mem (s : State) (l : Nat) : (dropQueue s l).mem = s.mem := (congrArg State.mem (sansDeck_dropQueue s l) :)
theorem dropQueue_cores (s : State) (l : Nat) : (dropQueue s l).cores = s.cores := (congrArg State.cores (sansDeck_dropQueue s l) :)
theorem dropQueue_graphs (s : State) (l : Nat) : (dropQueue s l).graphs = s.graphs := (congrArg State.graphs (sansDeck_dropQueue s l) :)

/-- A replica that is to be refreshed is stale, and waits for its round. -/
theorem beginRefresh_waits (s : State) (l : Nat) : isStale (beginRefresh s l) l = true ∧
    (NMap.find (beginRefresh s l).deck.wakes l).isSome = true ∧ (beginRefresh s l).mem = s.mem ∧ (beginRefresh s l).cores = s.cores := by
  have hmem := dropQueue_mem s l
  have hcores := dropQueue_cores s l
  unfold beginRefresh
  generalize dropQueue s l = u at *
  exact ⟨NMap.getD_put_self .., congrArg Option.isSome (NMap.find_put_self ..), hmem, hcores⟩

/-- A replica that has the whole copy and nothing queued is stale no longer. -/
theorem replicaApply_refreshed {s : State} {layer : Nat} {w : Wake} (hl : layer < 12) (hwf : NMap.wf s.deck.wakes = true)
    (hw : NMap.find s.deck.wakes layer = some w) (hf : w.f0 + 8 < s.deck.frame) (hc : w.copied = 0x100000)
    (hp : pendingAt s layer = []) (hst : NMap.wf s.deck.stale = true) : ∃ t, exec (.replicaApply layer) s = .next t ∧
      isStale t layer = false ∧ NMap.find t.deck.wakes layer = none ∧ t.mem = s.mem := by
  have hmay : mayApply s layer = true := by simp [mayApply, hw, hf, hc]
  simp only [exec_replicaApply, execReplicaApply, show ¬ 13 ≤ layer by omega, hmay, hp, refreshDone, hw, hf, hc, and_self, if_true,
    Bool.true_eq_false, or_self, if_false]
  refine ⟨_, rfl, ?_, NMap.find_del_self hwf _, rfl⟩
  rw [isStale, NMap.getD_eq, NMap.find_del_self hst, Option.getD_none]

/-- A card that a load needs wakes, its replica stale until its refresh is done. -/
theorem cardWake_wakes {s : State} {card : Nat} (hc : card < 12) (ha : cardAsleep s card = true)
    (hf : s.fusedAsleep.testBit card = false) (hh : cardHeld s card = true) : ∃ t, exec (.cardWake card) s = .next t ∧
      isStale t card = true ∧ (NMap.find t.deck.wakes card).isSome = true ∧ t.deck.waking.testBit card = true ∧
      t.deck.asleep.testBit card = false ∧ t.mem = s.mem ∧ t.cores = s.cores := by
  simp only [exec_cardWake, execCardWake, Nat.not_le.2 hc, ha, hf, hh, Bool.false_eq_true, Bool.true_eq_false, or_self, if_false]
  obtain ⟨hstale, hwake, hmem, hcores⟩ := beginRefresh_waits s card
  generalize beginRefresh s card = u at *
  exact ⟨_, rfl, hstale, hwake, testBit_withBit_self _ _ true, testBit_withBit_self _ _ false, hmem, hcores⟩

/-! ### Admissions that are aborted (R60, R149) -/

@[simp] theorem failLoad_mem (s : State) (h : Nat) : (s.failLoad h).mem = s.mem := by
  have hdrop : ∀ u : State, (u.dropPeer h).mem = u.mem := fun u => by
    unfold dropPeer
    split
    · rfl
    · split
      · exact (onlyGraph_modGraph ..).1.trans (onlyGraph_abortLoad ..).1
      · exact (onlyGraph_release u h).1
  unfold failLoad
  split
  · rfl
  · split
    · exact hdrop (reportLoad s h false)
    · exact (settleHalt_mem ..).trans (onlyGraph_abortLoad ..).1

theorem abortAdmission_mem (s : State) (h : Nat) : (abortAdmission s h).mem = s.mem :=
  (failLoad_mem ..).trans (onlyGraph_modGraph ..).1

theorem findsOthers_abortAdmission (s : State) (h : Nat) : FindsOthers h s (abortAdmission s h) :=
  (onlyGraph_modGraph ..).findsOthers.trans (findsOthers_failLoad _ h)

/-- A graph has an image to thaw from, or was thawed from one. -/
def Graph.hasImage (g : Graph) : Bool := g.image.isSome || g.thawed.isSome

/-- A graph with the image it was thawed from, where it has no other. -/
def Graph.unthawed (g : Graph) : Graph := { g with image := if g.image.isSome then g.image else g.thawed }

@[simp] theorem Graph.image_unthawed (g : Graph) : g.unthawed.image.isSome = g.hasImage := by
  cases h : g.image <;> simp [unthawed, hasImage, h]

@[simp] theorem Graph.hasImage_unthawed (g : Graph) : g.unthawed.hasImage = g.hasImage := by
  cases h : g.image <;> simp [unthawed, hasImage, h]

/-- A graph whose load is aborted is frozen, or queued, and keeps what it can be thawed from (R149). -/
theorem graph?_abortLoad {s : State} {h : Nat} {g : Graph} (hg : s.graph? h = some g) : ∃ g', (s.abortLoad h).graph? h = some g' ∧
    g'.coord = g.coord ∧ g'.hasImage = g.hasImage ∧ g'.phase = if g.image.isSome then .frozen else .queued := by
  unfold abortLoad release
  simp only [graph?_modGraph hg]
  exact ⟨_, NMap.find_put_self .., rfl, rfl, rfl⟩

/-- A graph that this package coordinates and that has, or has not, an image to thaw from. -/
def OwnGraph (h : Nat) (image : Bool) (s : State) : Prop := ∃ g, s.graph? h = some g ∧ g.coord = none ∧ g.hasImage = image

/-- Such a graph waits again: frozen, or queued. -/
def WaitsAgain (h : Nat) (image : Bool) (s : State) : Prop :=
  ∃ g, s.graph? h = some g ∧ g.coord = none ∧ g.hasImage = image ∧ g.phase = if image then .frozen else .queued

theorem WaitsAgain.own {h : Nat} {b : Bool} {s : State} (w : WaitsAgain h b s) : OwnGraph h b s :=
  w.imp fun _ ⟨hg, hc, hb, _⟩ => ⟨hg, hc, hb⟩

theorem abortAdmission_waits {h : Nat} {b : Bool} {s : State} (ho : OwnGraph h b s) : WaitsAgain h b (abortAdmission s h) := by
  obtain ⟨g, hg, hc, rfl⟩ := ho
  have hg1 : (s.modGraph h Graph.unthawed).graph? h = some g.unthawed := graph?_modGraph hg _
  have hfail : abortAdmission s h = ((s.modGraph h Graph.unthawed).abortLoad h).settleHalt (h / 2 ^ 28) := by
    simp only [abortAdmission, ← Graph.unthawed.eq_def, failLoad, hg1, show g.unthawed.coord = none from hc, Option.isSome_none,
      Bool.false_eq_true, if_false]
  obtain ⟨g', hg', hcoord, himage, hphase⟩ := graph?_abortLoad hg1
  refine ⟨g', ?_, hcoord.trans hc, himage.trans g.hasImage_unthawed, hphase.trans (by rw [Graph.image_unthawed])⟩
  rw [hfail, graph?, settleHalt_graphs]
  exact hg'

/-- Of a list of admissions that are aborted, a graph of this package waits again. -/
theorem foldl_abortAdmission_waits {h : Nat} {b : Bool} {hs : List Nat} (hm : h ∈ hs) {s : State} (ho : OwnGraph h b s) :
    WaitsAgain h b (hs.foldl abortAdmission s) := by
  refine foldl_reaches (P := OwnGraph h b) (Q := WaitsAgain h b) (fun s k hk ho => ?_) (fun s => abortAdmission_waits) (fun s k hw => ?_)
    hm ho
  · exact ho.imp fun g ⟨hg, hr⟩ => ⟨findsOthers_abortAdmission s k h g (Ne.symm hk) hg, hr⟩
  · by_cases hk : k = h
    · subst hk; exact abortAdmission_waits hw.own
    · exact hw.imp fun g ⟨hg, hr⟩ => ⟨findsOthers_abortAdmission s k h g (Ne.symm hk) hg, hr⟩

/-! ### A wake too late (R60) -/

/-- The graphs admitted on a card. -/
def admittedOn (s : State) (card : Nat) : List Nat :=
  (s.graphs.filter fun hg => admitted hg.2 && hg.2.cores.any fun x => x.2 / 192 == card).map Prod.fst

theorem mem_admittedOn {s : State} {card h : Nat} {g : Graph} (hg : s.graph? h = some g) (ha : admitted g = true)
    (hc : ∃ q, q ∈ g.cores ∧ q.2 / 192 = card) : h ∈ admittedOn s card := by
  obtain ⟨q, hq, hcard⟩ := hc
  have hany : (g.cores.any fun x => x.2 / 192 == card) = true := List.any_eq_true.2 ⟨q, hq, beq_iff_eq.2 hcard⟩
  exact List.mem_map.2 ⟨(h, g), List.mem_filter.2 ⟨NMap.mem_of_find hg, by rw [ha, hany]; rfl⟩, rfl⟩

/-- The state in which a card's wake has failed: DECK.10 is told, and the admissions on the card are aborted. -/
def wakeFailed (s : State) (card : Nat) : State :=
  (admittedOn (s.tellMgmt { cause := 0x10A, detail := card }) card).foldl abortAdmission (s.tellMgmt { cause := 0x10A, detail := card })

theorem wakeFailed_mem (s : State) (card : Nat) : (wakeFailed s card).mem = s.mem :=
  (foldl_keeps State.mem abortAdmission_mem ..).trans (tellMgmt_mem ..)

theorem wakeFailed_waits {s : State} {card h : Nat} {g : Graph} (hg : s.graph? h = some g) (hc : g.coord = none)
    (ha : admitted g = true) (hq : ∃ q, q ∈ g.cores ∧ q.2 / 192 = card) : WaitsAgain h g.hasImage (wakeFailed s card) := by
  have htold : (s.tellMgmt { cause := 0x10A, detail := card }).graph? h = some g := by rw [graph?, tellMgmt_graphs]; exact hg
  exact foldl_abortAdmission_waits (mem_admittedOn htold ha hq) ⟨g, htold, hc, rfl⟩

section
variable {s : State} {layer : Nat} {w : Wake} (hw : NMap.find s.deck.wakes layer = some w)
include hw

theorem wakeSequenceTimeout_early (h : s.deck.frame ≤ w.f0 + 12) : exec (.wakeSequenceTimeout layer) s = .next s := by
  simp only [exec_wakeSequenceTimeout, execWakeSequenceTimeout, hw, h, if_true]

/-- A card that has not woken in time sleeps again, and the graphs of this package admitted on it wait again. -/
theorem wakeSequenceTimeout_sleeps (hwk : s.deck.waking.testBit layer = true) (h : w.f0 + 12 < s.deck.frame) :
    ∃ t, exec (.wakeSequenceTimeout layer) s = .next t ∧ t.deck.asleep.testBit layer = true ∧
      t.deck.waking.testBit layer = false ∧ t.mem = s.mem ∧
      ∀ k g, s.graph? k = some g → g.coord = none → admitted g = true → (∃ q, q ∈ g.cores ∧ q.2 / 192 = layer) →
        (t.graph? k).map Graph.phase = some (if g.image.isSome || g.thawed.isSome then .frozen else .queued) := by
  simp only [exec_wakeSequenceTimeout, execWakeSequenceTimeout, hw, hwk, Nat.not_le.2 h, if_true, if_false, ← admittedOn.eq_def,
    ← wakeFailed.eq_def]
  generalize hu : dropQueue (wakeFailed s layer) layer = u
  have hmem : u.mem = s.mem := by rw [← hu, dropQueue_mem, wakeFailed_mem]
  have hgraphs : u.graphs = (wakeFailed s layer).graphs := by rw [← hu, dropQueue_graphs]
  refine ⟨_, rfl, testBit_withBit_self _ _ true, testBit_withBit_self _ _ false, hmem, fun k g hg hc ha hq => ?_⟩
  obtain ⟨g', hg', -, -, hphase⟩ := wakeFailed_waits hg hc ha hq
  have hfind : u.graph? k = some g' := by rw [graph?, hgraphs]; exact hg'
  exact (congrArg (Option.map Graph.phase) hfind).trans (congrArg some hphase)

end

end Sys2Proof.Machine
end

section
/-! The deck events: O49. -/

namespace Sys2Proof.Machine

open State

/-- Settles O49: each clause from the rule of its event. -/
theorem deckEvents : Obligations.DeckEvents := by
  constructor
  · intro s suit slot layer i x base size w g e key st sent cslot ready
    refine ⟨fun hg hp hc => ⟨fun hf hm hl => ?_, fun hf hm hl => ?_⟩, fun hf h => ?_, fun hf h => ?_,
      fun hl hw ha => creditSlot_card ha hl hw rfl, fun hl ha => creditSlot_hub ha hl rfl,
      fun l => ⟨length_creditsOf_le s l, length_hubCredits_le s⟩, frameBoundary_quiet, calendarWrite_sets, calendarWrite_refused,
      calendarWrite_of_reset, fun h => ⟨dkwinRangeWrite_of_reset h, cardSleep_of_reset h⟩, dkwinRangeWrite_sets,
      dkwinRangeWrite_refused, fun hl h ha => ⟨cardSleep_refused hl h ha, cardSleep_sleeps hl h ha⟩⟩
    -- Slots that carry their stream's tokens (R49, R51).
    · rw [exec_streamDataSlot, execStreamDataSlot, streamSlot_carries (st := st) hf rfl (by rw [hm]; rfl) hl hg hp hc]
    · have hsend : streamLayer st = fld e 30 27 := by rw [streamLayer, hm, hl]; rfl
      rw [exec_memoryActorResponseSlot, execMemoryActorResponseSlot,
        streamSlot_carries (st := st) hf rfl (by rw [hm]; rfl) hsend hg hp hc]
    -- Slots that stay idle (R44).
    · rw [exec_streamDataSlot, execStreamDataSlot, streamSlot_idle (st := st) hf rfl h]
    · rw [exec_memoryActorResponseSlot, execMemoryActorResponseSlot, streamSlot_idle (st := st) hf rfl h]
  · intro s suit slot layer c x o rest hub w e quiet wire key issuer n old v copy
    refine ⟨fun hf ⟨hq, hs⟩ hh ho => ?_, fun hf ⟨hq, hs⟩ hh ho ha => ?_, fun hl hw hp hm hmem => ⟨replicaApply_waits hl hw hp, fun hd ho => ?_,
        fun hd ho => ?_⟩,
      fun hv hr ⟨hq, hs⟩ => ⟨fun hh => ?_, fun card index tag val hh ha => ?_, fun card index tag val hh ha hb hd => ?_⟩,
      fun hv _ ⟨hq, hs⟩ hw _ h0 h8 hmem => refreshCopySlot_copies hv hq hs hw h0 h8 hmem,
      fun hl hwf hw hf hc hp hst => replicaApply_refreshed hl hwf hw hf hc hp hst, cardWake_wakes,
      fun _ hw hwk => ⟨wakeSequenceTimeout_early hw, wakeSequenceTimeout_sleeps hw hwk⟩⟩
    -- An operation that is sent (R49, R55).
    · obtain ⟨hc, hm, hwire, hpend⟩ := windowSlot_sends hf hq hs hh (by rw [ho]; rfl)
      have hbytes : o.slotBytes = o.bytes := by simp [DeckOp.slotBytes, ho]
      exact ⟨_, opQueued s suit slot o, rfl, congrArg Core.deckq hc, congrArg Core.deckOut hc, hm, rfl, rfl, ho, rfl, rfl, rfl, rfl,
        hwire.trans (congrArg some hbytes), hpend⟩
    · obtain ⟨hc, hm, hwire, hpend⟩ := windowSlot_sends hf hq hs hh (by simp [ha])
      exact ⟨_, opQueued s suit slot o, rfl, congrArg Core.deckq hc, hm, rfl, rfl, rfl, rfl, rfl, ho, hwire, hpend⟩
    -- A layer's oldest operation, applied whole (R55, R56).
    · obtain ⟨hin, hout⟩ := applied_reads hmem layer o rest
      rw [opWritten_write ho] at hin hout
      exact ⟨_, replicaApply_applies hl hw hp hd hm, pendingAt_applied .., hin, hout, deckOut_applyOp_write ho, regs_applyOp_write ho⟩
    · obtain ⟨hin, hout⟩ := applied_reads hmem layer o rest
      rw [opWritten_atomic ho, length_leBytes] at hin hout
      exact ⟨_, replicaApply_applies hl hw hp hd hm, pendingAt_applied .., fun j hj => (hin j hj).trans (getD_leBytes hj _), hout,
        entry_applyOp_atomic (s := withPending s layer rest) ho, hub_applyOp_atomic (s := withPending s layer rest) ho⟩
    -- What waits in the hub (R56, R60).
    · obtain ⟨t, hrun, hhub, hrest⟩ := noticeSlot_crosses hv hq hs hr (x := x) (by rw [hh]; rfl)
      exact ⟨t, hrun, hhub.trans (by rw [hh]; rfl), hrest⟩
    · have hwaits : ¬ hubMay s (.record card index tag val) = true := by simp [hubMay, ha]
      obtain ⟨t, hrun, hhub, hm, hcores, -⟩ := noticeSlot_crosses hv hq hs hr (x := x)
        (by rw [hh, List.find?_cons_of_neg hwaits]; rfl)
      exact ⟨t, hrun, hhub.trans (by rw [hh, List.eraseP_cons_of_neg hwaits]; rfl), hm, hcores⟩
    · obtain ⟨t, hrun, hhub, hcore⟩ := returnRecordSlot_delivers hv hq hs hr hh ha
      refine ⟨t, hrun, hhub, ?_⟩
      rw [hcore]
      exact entry_completeEntry_performed 0 val hb hd

end Sys2Proof.Machine
end

section
/-! What the release, the stop and the freeze of a graph leave behind (R172, R177, R178). -/

namespace Sys2Proof.Machine

open State

/-! ### Cores and records that a release leaves (R172) -/

@[simp] theorem sansTold_recordOutcome (s : State) (h f : Nat) : (s.recordOutcome h f).sansTold = s.sansTold := sansTold_modCtx ..

@[simp] theorem sansTold_settleHalt (s : State) (x : Nat) : (s.settleHalt x).sansTold = s.sansTold := by
  unfold settleHalt
  split
  · rfl
  · simp only; split <;> simp

/-- A fold that changes cores one by one brings each core of its list to what every change brings about. -/
theorem core_foldl_modCore {f : State → Core → Core} {P : Core → Prop} (hf : ∀ s k, P (f s k)) {cs : List Nat} {d : Nat}
    (hd : d ∈ cs) (s : State) : P ((cs.foldl (fun s c => s.modCore c (f s)) s).core d) := by
  refine foldl_reaches (P := fun _ => True) (Q := fun t => P (t.core d)) (fun _ _ _ _ => trivial) (fun t _ => ?_) (fun t c ht => ?_)
    hd trivial
  · rw [core_modCore_self]; exact hf ..
  · by_cases hc : d = c
    · subst hc; rw [core_modCore_self]; exact hf ..
    · rw [core_modCore_ne _ _ hc]; exact ht

theorem mem_coresOf {s : State} {h d : Nat} {g : Graph} (hg : s.graph? h = some g) : d ∈ s.coresOf h ↔ d ∈ g.cores.map Prod.snd := by
  rw [coresOf, hg]

section
variable {s : State} {h : Nat} {g : Graph} (hg : s.graph? h = some g)
include hg

/-- A core that its graph has released is idle and holds no graph (R172). -/
theorem core_release {d : Nat} (hd : d ∈ s.coresOf h) : ((s.release h).core d).graph = 0 ∧ ((s.release h).core d).run = .idle := by
  unfold release
  simp only [hg]
  exact core_foldl_modCore (P := fun k => k.graph = 0 ∧ k.run = .idle) (fun _ _ => ⟨rfl, rfl⟩) ((mem_coresOf hg).1 hd) s

/-- What a release takes from the record of its graph: the grant, the sinks, and the reservation where no image stands (R166, R172). -/
theorem graph?_release_eq : (s.release h).graph? h =
    some { g with grant := {}, sinks := [], frzLen := if g.image.isSome then g.frzLen else 0 } := by
  unfold release
  simp only [hg]
  exact NMap.find_put_self ..

/-- Changes of a graph that agree on its record are one change. -/
theorem modGraph_congr {f f' : Graph → Graph} (hf : f g = f' g) : s.modGraph h f = s.modGraph h f' := by
  simp only [modGraph, hg, hf]

end

/-! ### Stops (R178) -/

/-- A state in which a graph has stopped: no byte of memory differs from before, and its cores hold nothing (R178). -/
def Stopped (s : State) (h : Nat) (t : State) : Prop :=
  t.mem = s.mem ∧ t.verdict h = some (.retired, 0x14C) ∧ ∀ d, d ∈ s.coresOf h → (t.core d).graph = 0 ∧ (t.core d).run = .idle

/-- The stop of a graph sets out from its records and memory alone. -/
theorem Stopped.of_graphs {s u t : State} {h : Nat} (ht : Stopped u h t) (hm : u.mem = s.mem) (hg : u.graphs = s.graphs) :
    Stopped s h t := by
  obtain ⟨hmem, hv, hfree⟩ := ht
  refine ⟨hmem.trans hm, hv, fun d hd => hfree d ?_⟩
  rwa [coresOf, graph?, hg]

/-- What waits for a stopped graph at ingress ports and in kitties is gone. -/
theorem Stopped.forgets {s t : State} {h f : Nat} (ht : Stopped s h t) : Stopped s h (forgetHeld (openingFails t h f) h) := ht

/-- The launch of a graph that stops has its answer (R178, R371). -/
def launchAnswered (s : State) (g : Graph) : State :=
  match g.launcher with
  | none => s
  | some (c, q) => s.completeEntry c q 0x14C 0

theorem launchAnswered_mem (s : State) (g : Graph) : (launchAnswered s g).mem = s.mem := by
  unfold launchAnswered; split <;> rfl
theorem launchAnswered_graphs (s : State) (g : Graph) : (launchAnswered s g).graphs = s.graphs := by
  unfold launchAnswered; split <;> rfl

section
variable {s : State} {h : Nat} {g : Graph} (hg : s.graph? h = some g)
include hg

theorem stopped_stops : Stopped s h (stopped s h) := by
  have hrel := graph?_release_eq (s := s.egressHalt h 0x14C) hg
  have htold : (stopped s h).sansTold = ((s.egressHalt h 0x14C).release h).sansTold := by simp [stopped]
  refine ⟨?_, ?_, fun d hd => ?_⟩
  · exact (congrArg State.mem htold :).trans (onlyGraph_release ..).1
  · unfold stopped
    simp only
    rw [verdict_of_graphs (settleHalt_graphs ..), verdict_of_graphs (recordOutcome_graphs ..), verdict_of_graphs (notifyGraph_graphs ..),
      verdict_of_find (graph?_modGraph hrel _)]
  · rw [show (stopped s h).core d = ((s.egressHalt h 0x14C).release h).core d from (congrArg (State.core · d) htold :)]
    exact core_release (s := s.egressHalt h 0x14C) hg hd

/-- A graph that stops has its waiters, and the launch that waits, answered before (R178, R371). -/
theorem stopped_completeAll (ws : List (Nat × Nat)) (f : Nat) : Stopped s h (stopped (s.completeAll ws f) h) :=
  (stopped_stops (by rw [graph?, completeAll_graphs]; exact hg)).of_graphs (completeAll_mem ..) (completeAll_graphs ..)

/-- A graph that is being frozen stops once the freeze is complete (R177). -/
theorem stopGraph_freezing (hp : g.phase = .freezing) : Machine.stopGraph s h = s.modGraph h fun g => { g with dropImage := true } := by
  simp only [Machine.stopGraph, hg]
  rw [hp]

/-- A graph that has not ended, and is not being frozen, stops at once (R178). -/
theorem stopGraph_stops (hf : g.phase ≠ .freezing) (hh : g.phase ≠ .halted) (hr : g.phase ≠ .retired) (hn : g.phase ≠ .refused) :
    Stopped s h (Machine.stopGraph s h) := by
  have past : Machine.stopGraph s h = forgetHeld (openingFails (stopped ((launchAnswered s g).completeAll g.waiters 0x14C) h) h 0x14C) h := by
    simp only [Machine.stopGraph, hg]
    cases hp : g.phase with
    | validating | queued | loading | committing | running | frozen => rfl
    | freezing => exact absurd hp hf
    | halted => exact absurd hp hh
    | retired => exact absurd hp hr
    | refused => exact absurd hp hn
  rw [past]
  refine (Stopped.of_graphs ?_ (launchAnswered_mem s g) (launchAnswered_graphs s g)).forgets
  exact stopped_completeAll (by rw [graph?, launchAnswered_graphs]; exact hg) ..

end

/-! ### Freezes that complete, and freezes that fail (R79, R172) -/

/-- The package that coordinates a graph writes its freeze image; another writes none (R79, R172). -/
def imaged (s : State) (g : Graph) (img : List Byte) : State := if g.coord.isSome then s else s.write g.frzAt img

theorem imaged_graphs (s : State) (g : Graph) (img : List Byte) : (imaged s g img).graphs = s.graphs := by
  unfold imaged; split <;> rfl

theorem imaged_mem (s : State) (g : Graph) (img : List Byte) :
    (imaged s g img).mem = if g.coord.isSome then s.mem else memWrite s.mem g.frzAt img := by
  unfold imaged; split <;> rfl

/-- The notices of a freeze that completes: SCHED.5, and PWR.4 after one for heat (R38, R172). -/
def toldFrozen (s : State) (h : Nat) (g : Graph) : State :=
  let s1 := s.notifyGraph h { cause := 0x145 }
  if g.origin = 1 then s1.notifyGraph h { cause := 0x154 } else s1

theorem sansTold_toldFrozen (s : State) (h : Nat) (g : Graph) : (toldFrozen s h g).sansTold = s.sansTold := by
  unfold toldFrozen; split <;> simp

theorem toldFrozen_graphs (s : State) (h : Nat) (g : Graph) : (toldFrozen s h g).graphs = s.graphs := by
  unfold toldFrozen; split <;> simp

section
variable {s : State} {h : Nat} {g : Graph} (hg : s.graph? h = some g)
include hg

/-- A freeze that completes writes the image, records the graph, releases what it holds, and tells so (R172). -/
theorem freezeDone_eq : ∃ (u : State) (r : Graph), freezeDone s h g = (toldFrozen (u.release h) h g).settleHalt (h / 2 ^ 28) ∧
    u.graph? h = some r ∧ u.mem = (imaged s g (freezeImage s h g)).mem ∧ r.cores = g.cores ∧
    (r.phase, r.held, r.image.isSome) = (Phase.frozen, g.origin == 2 || g.coord.isSome, true) := by
  have hput : (keepParked (imaged (s.completeAll g.waiters 0) g (freezeImage s h g)) h g).graph? h = some g :=
    (congrArg (NMap.find · h) ((imaged_graphs ..).trans (completeAll_graphs ..))).trans hg
  refine ⟨_, _, rfl, graph?_modGraph hput _, ?_, rfl, rfl⟩
  have hmem : (imaged (s.completeAll g.waiters 0) g (freezeImage s h g)).mem = (imaged s g (freezeImage s h g)).mem := by
    rw [imaged_mem, imaged_mem, completeAll_mem]
  exact (onlyGraph_modGraph ..).1.trans hmem

/-- A graph is frozen: its image stands where it is to, its record says so, and its cores are free (R79, R172). -/
theorem freezeDone_frozen : (freezeDone s h g).mem = (imaged s g (freezeImage s h g)).mem ∧
    ((freezeDone s h g).graph? h).map (fun g => (g.phase, g.held, g.image.isSome)) =
      some (Phase.frozen, g.origin == 2 || g.coord.isSome, true) ∧
    ∀ d, d ∈ s.coresOf h → ((freezeDone s h g).core d).graph = 0 := by
  obtain ⟨u, r, he, hr, hmem, hcores, hrec⟩ := freezeDone_eq hg
  have htold : (freezeDone s h g).sansTold = (u.release h).sansTold := by rw [he, sansTold_settleHalt, sansTold_toldFrozen]
  refine ⟨?_, ?_, fun d hd => ?_⟩
  · exact ((congrArg State.mem htold :).trans (onlyGraph_release u h).1).trans hmem
  · rw [he, graph?, settleHalt_graphs, toldFrozen_graphs]
    exact (congrArg (Option.map _) (graph?_release_eq hr)).trans (congrArg some hrec)
  · rw [show (freezeDone s h g).core d = (u.release h).core d from (congrArg (State.core · d) htold :)]
    refine (core_release hr ((mem_coresOf hr).2 ?_)).1
    rw [hcores]; exact (mem_coresOf hg).1 hd

/-- A freeze that fails halts its graph with SCHED.10, of which management hears (R172). -/
theorem freezeFails_halts (hp : g.phase = .freezing) : freezeFails s h =
    (s.tellMgmt (s.graphNotice h { cause := 0x14A, flags := 2 })).haltGraph h { cause := 0x14A, flags := 2 } := by
  simp [freezeFails, haltCopied, hasHalted, hg, hp]

end

/-! ### When a freeze is complete (R79, R172) -/

/-- Every core of a graph has stopped for a freeze, its deck operations sent and answered (R172). -/
def CoresSettled (s : State) (g : Graph) : Prop := ∀ x, x ∈ g.cores → x.2 ∈ g.frzCores ∧ deckSettled (s.core x.2) = true

/-- The sections of every other package of a graph have come (R79). -/
def SectionsCome (s : State) (g : Graph) : Prop := ∀ p, p ∈ otherPackages s g → p ∈ g.peers.sections.map Prod.fst

/-- Every core has stopped and, at the package that coordinates the graph, every section has come (R79, R172). -/
def freezeReady (s : State) (g : Graph) : Bool :=
  (g.cores.all fun x => g.frzCores.contains x.2 && deckSettled (s.core x.2))
    && (g.coord.isSome || (otherPackages s g).all fun p => g.peers.sections.any fun x => x.1 == p)

theorem freezeReady_iff {s : State} {g : Graph} :
    freezeReady s g = true ↔ CoresSettled s g ∧ (g.coord.isSome = true ∨ SectionsCome s g) := by
  simp [freezeReady, CoresSettled, SectionsCome]

section
variable {s : State} {h : Word32} {g : Graph} (hg : s.graph? h.toNat = some g)
include hg

/-- A freeze that is not complete goes on. -/
theorem freezeComplete_waits (ok : Bool) (hr : ¬ CoresSettled s g) : exec (.freezeComplete h ok) s = .next s := by
  have hready : freezeReady s g = false := Bool.eq_false_iff.2 fun ht => hr (freezeReady_iff.1 ht).1
  simp only [exec_freezeComplete, execFreezeComplete, hg, ← freezeReady.eq_def, hready, or_true, if_true]

/-- What a complete freeze comes to: a stop that waited, a failure, or the image (R172, R177). -/
theorem freezeComplete_of_ready (hp : g.phase = .freezing) (ok : Bool) (hr : freezeReady s g = true) : exec (.freezeComplete h ok) s =
    .next (if g.dropImage then stopped (s.completeAll g.waiters 0x14C) h.toNat
      else if !ok || decide (g.frzLen < (freezeImage s h.toNat g).length) then freezeFails s h.toNat
      else freezeDone s h.toNat g) := by
  simp only [exec_freezeComplete, execFreezeComplete, hg, hp, ← freezeReady.eq_def, hr, ne_eq, not_true_eq_false, Bool.true_eq_false,
    or_self, if_false]

/-- A complete freeze whose image fits its reservation freezes the graph (R172). -/
theorem freezeComplete_freezes (hp : g.phase = .freezing) (hr : freezeReady s g = true) (hd : g.dropImage = false)
    (hl : (freezeImage s h.toNat g).length ≤ g.frzLen) : exec (.freezeComplete h true) s = .next (freezeDone s h.toNat g) := by
  simp [freezeComplete_of_ready hg hp true hr, hd, Nat.not_lt.2 hl]

/-- A complete freeze whose image cannot be written fails (R172). -/
theorem freezeComplete_fails (hp : g.phase = .freezing) (hr : freezeReady s g = true) (hd : g.dropImage = false) :
    exec (.freezeComplete h false) s = .next (freezeFails s h.toNat) := by
  simp [freezeComplete_of_ready hg hp false hr, hd]

/-- A complete freeze of a graph that is to stop discards the image (R177, R178). -/
theorem freezeComplete_stops (hp : g.phase = .freezing) (hr : freezeReady s g = true) (hd : g.dropImage = true) :
    ∃ t, exec (.freezeComplete h true) s = .next t ∧ Stopped s h.toNat t :=
  ⟨_, by rw [freezeComplete_of_ready hg hp true hr, if_pos hd], stopped_completeAll hg ..⟩

/-! ### Freezes that take too long (R79, R172) -/

theorem freezeTimeout_fails {since : Nat} (hp : g.phase = .freezing) (hc : g.coord = none) (hs : g.frzSince = some since)
    (ht : since + waveBound g ≤ g.gtime) : exec (.freezeTimeout h) s = .next (freezeFails s h.toNat) := by
  simp [execFreezeTimeout, hg, hp, hc, hs, ht]

theorem freezeTimeout_early {since : Nat} (hs : g.frzSince = some since) (ht : g.gtime < since + waveBound g) :
    exec (.freezeTimeout h) s = .next s := by
  simp [execFreezeTimeout, hg, hs, Nat.not_le.2 ht]

/-! ### Freezes and stops that system software asks for (R149, R159, R169, R178) -/

/-- A supervisor graph is neither frozen nor stopped (R159, R169). -/
theorem supervisor_stays (hs : g.supervisor = true) : exec (.freezeRequest h) s = .next s ∧ exec (.graphStop h) s = .next s := by
  constructor
  · simp only [exec_freezeRequest, execFreezeRequest, hg, hs, if_true]
  · simp only [exec_graphStop, execGraphStop, hg, hs, if_true]

theorem exec_freezeRequest_of_graph (hs : g.supervisor = false) : exec (.freezeRequest h) s = .next (s.requestFreeze h.toNat 3) := by
  simp only [exec_freezeRequest, execFreezeRequest, hg, hs, Bool.false_eq_true, if_false]

theorem exec_graphStop_of_graph (hs : g.supervisor = false) : exec (.graphStop h) s = .next (Machine.stopGraph s h.toNat) := by
  simp only [exec_graphStop, execGraphStop, hg, hs, Bool.false_eq_true, if_false]

end

section
variable {s : State} {h : Nat} {g : Graph} (hg : s.graph? h = some g)
include hg

/-- A freeze that is asked for in a commit is counted from the request (log entry 30). -/
theorem requestFreeze_committing (hp : g.phase = .committing) (hs : g.frzSince = none) (o : Nat) :
    s.requestFreeze h o = s.modGraph h fun g => { g with frzSince := some g.gtime, origin := o } := by
  have hreq : s.requestFreeze h o = s.modGraph h fun g =>
      { g with frzSince := some g.gtime, origin := if g.frzSince.isSome then g.origin else o } := by
    simp only [requestFreeze, hg]
    rw [hp]
  exact hreq.trans (modGraph_congr hg (by rw [hs]; rfl))

/-- Before the decision point a freeze aborts the load, or leaves it where another package coordinates (R79, R149). -/
theorem requestFreeze_loading (hp : g.phase = .loading) (o : Nat) :
    s.requestFreeze h o = if g.coord.isSome then s.dropPeer h else s.abortLoad h := by
  simp only [requestFreeze, hg]
  rw [hp]

end

end Sys2Proof.Machine
end

section
/-! The freeze wave at a core, and O45. -/

namespace Sys2Proof.Machine

open State

/-! ### Quotes that are withdrawn (R113) -/

/-- A state but for its security block and the nonces drawn. -/
def State.sansSec (s : State) : State := { s with fresh := 0, sec := {} }

/-- Requests that leave the security block change that block alone (R108). -/
theorem sansSec_requestsLeave (s : State) (gone : SecReq → Bool) (first : Bool) : (requestsLeave s gone first).sansSec = s.sansSec :=
  (foldl_keeps State.sansSec (f := fun s (x : Nat × Nat × Nat × SpdmReq) => serveSpdm s x.2.1 x.2.2.2)
    (fun s x => (congrArg State.sansSec (sansSpdm_serveSpdm s x.2.1 x.2.2.2) :)) _ _).trans rfl

/-- A core but for its queue entries and whether an event has woken it. -/
def Core.sansEntries (k : Core) : Core := { k with entries := [], woken := false }

/-- An entry that completes, and wakes its core, changes no more of it (R193, R343). -/
theorem sansEntries_completeEntry (s : State) (c q f v : Nat) :
    ((s.completeEntry c q f v).core c).sansEntries = (s.core c).sansEntries := by
  simp only [completeEntry, core_modCore_self]
  split
  · split
    · unfold Core.wake; split <;> rfl
    · rfl
  · rfl

/-- What quotes leave as it is, in the security block and as entries that complete, their withdrawal does (R113). -/
theorem withdrawQuotes_keeps {β : Type} (p : State → β) (c : Nat) (hsec : ∀ s t : State, t.sansSec = s.sansSec → p t = p s)
    (hent : ∀ s q, p (s.completeEntry c q 0 2) = p s) (s : State) : p (withdrawQuotes s c) = p s :=
  (foldl_keeps p (fun s (r : SecReq) => hent s r.q) _ _).trans (hsec _ _ (sansSec_requestsLeave ..))

section
variable (s : State) (c : Nat)

theorem withdrawQuotes_mem : (withdrawQuotes s c).mem = s.mem :=
  withdrawQuotes_keeps State.mem c (fun _ _ h => (congrArg State.mem h :)) (fun _ _ => rfl) s
theorem withdrawQuotes_graphs : (withdrawQuotes s c).graphs = s.graphs :=
  withdrawQuotes_keeps State.graphs c (fun _ _ h => (congrArg State.graphs h :)) (fun _ _ => rfl) s
theorem withdrawQuotes_kitty : (withdrawQuotes s c).kitty = s.kitty :=
  withdrawQuotes_keeps State.kitty c (fun _ _ h => (congrArg State.kitty h :)) (fun _ _ => rfl) s
theorem withdrawQuotes_links : (withdrawQuotes s c).links = s.links :=
  withdrawQuotes_keeps State.links c (fun _ _ h => (congrArg State.links h :)) (fun _ _ => rfl) s
theorem core_withdrawQuotes_ne {d : Nat} (hd : d ≠ c) : (withdrawQuotes s c).core d = s.core d :=
  withdrawQuotes_keeps (State.core · d) c (fun _ _ h => (congrArg (State.core · d) h :)) (fun _ _ => core_modCore_ne _ _ hd) s
theorem sansEntries_withdrawQuotes : ((withdrawQuotes s c).core c).sansEntries = (s.core c).sansEntries :=
  withdrawQuotes_keeps (fun s => (s.core c).sansEntries) c (fun _ _ h => (congrArg (fun s : State => (s.core c).sansEntries) h :))
    (fun s q => sansEntries_completeEntry s c q 0 2) s

end

/-! ### A core that the wave reaches (R170) -/

@[simp] theorem run_leaveWait (k : Core) : k.leaveWait.run = k.run := by unfold Core.leaveWait; split <;> rfl
@[simp] theorem regs_leaveWait (k : Core) : k.leaveWait.regs = k.regs := by unfold Core.leaveWait; split <;> rfl
@[simp] theorem engines_leaveWait (k : Core) : k.leaveWait.engines = k.engines := by unfold Core.leaveWait; split <;> rfl

/-- A core that the wave stops where it stands (R170). -/
def Core.waved (k : Core) : Core :=
  { k.leaveWait with run := .frozen, frozeAs := k.leaveWait.run, grid := leaveLoad k.leaveWait.grid }

/-- The wave stops a core, unless it stands already (R113, R170). -/
def waveStops (s : State) (c : Nat) : State := if (s.core c).run = .frozen then s else (withdrawQuotes s c).modCore c Core.waved

/-- What the wave leaves as it was: memory, the graphs, and the other cores. -/
theorem waveStops_frame (s : State) (c : Nat) : (waveStops s c).mem = s.mem ∧ (waveStops s c).graphs = s.graphs ∧
    ∀ d, d ≠ c → (waveStops s c).core d = s.core d := by
  unfold waveStops
  split
  · exact ⟨rfl, rfl, fun _ _ => rfl⟩
  · exact ⟨withdrawQuotes_mem s c, withdrawQuotes_graphs s c, fun d hd =>
      (core_modCore_ne _ _ hd).trans (core_withdrawQuotes_ne s c hd)⟩

/-- A core that the wave has stopped keeps its registers, and how it ran (R170, R174). -/
theorem waveStops_core (s : State) (c : Nat) : ((waveStops s c).core c).run = .frozen ∧
    ((s.core c).run ≠ .frozen → ((waveStops s c).core c).frozeAs = (s.core c).run) ∧ ((waveStops s c).core c).regs = (s.core c).regs := by
  unfold waveStops
  split
  · next h => exact ⟨h, fun hn => absurd h hn, rfl⟩
  · have hk := sansEntries_withdrawQuotes s c
    rw [core_modCore_self]
    exact ⟨rfl, fun _ => (run_leaveWait _).trans (congrArg Core.run hk :), (regs_leaveWait _).trans (congrArg Core.regs hk :)⟩

/-- Whether a stream stands within a token rests on the engines of its core and on the requests under way (R170). -/
theorem splitToken_congr {s t : State} {c : Nat} (he : (t.core c).engines = (s.core c).engines) (hk : t.kitty = s.kitty)
    (hl : t.links = s.links) : t.splitToken c = s.splitToken c := by
  simp only [splitToken, he, hk, hl]

theorem splitToken_waveStops (s : State) (c : Nat) : (waveStops s c).splitToken c = s.splitToken c := by
  unfold waveStops
  split
  · rfl
  · refine splitToken_congr ?_ (withdrawQuotes_kitty s c) (withdrawQuotes_links s c)
    rw [core_modCore_self]
    exact (engines_leaveWait _).trans (congrArg Core.engines (sansEntries_withdrawQuotes s c) :)

section
variable {s : State} {c : Nat} {g : Graph} (hg : s.graph? (s.core c).graph = some g)
include hg

/-- The wave stops a core of a freezing graph; a core with a stream within a token has not stopped yet (R170). -/
theorem freezeWave_reaches (hp : g.phase = .freezing) (hc : g.frzCores.contains c = false) : exec (.freezeWave c) s =
    .next (if s.splitToken c then waveStops s c
      else (waveStops s c).modGraph (s.core c).graph fun g => { g with frzCores := c :: g.frzCores }) := by
  rw [← splitToken_waveStops]
  simp only [exec_freezeWave, execFreezeWave, hg, hp, hc, ne_eq, not_true_eq_false, Bool.false_eq_true, or_self, if_false]
  rfl

theorem graph?_waveStops : (waveStops s c).graph? (s.core c).graph = some g := by
  rw [graph?, (waveStops_frame s c).2.1]; exact hg

/-- The wave at a core of a freezing graph (R170). -/
theorem freezeWave_stops (hp : g.phase = .freezing) (hc : g.frzCores.contains c = false) : ∃ t, exec (.freezeWave c) s = .next t ∧
    t.sansTold = (waveStops s c).sansTold ∧
    (t.graph? (s.core c).graph).map Graph.frzCores = some (if s.splitToken c then g.frzCores else c :: g.frzCores) := by
  refine ⟨_, freezeWave_reaches hg hp hc, ?_⟩
  split
  · exact ⟨rfl, by rw [graph?_waveStops hg]; rfl⟩
  · exact ⟨sansTold_modGraph .., by rw [graph?_modGraph (graph?_waveStops hg)]; rfl⟩

end

/-- Settles O45: each clause from the rule of its event. -/
theorem freezeEvents : Obligations.FreezeEvents := by
  intro s c h g since k H img late settled ready
  have readyHere : ready → freezeReady s g = true := fun hr => freezeReady_iff.2 ⟨hr.1, .inr hr.2⟩
  refine ⟨fun hk hg hp hc => ?_, fun hg hs => supervisor_stays hg hs, fun hg hs => ⟨fun hp => ?_, fun hp hf => ?_, fun hp hc => ?_,
      fun hp hc => ?_, fun hp => ?_, fun hf hh hr hn => ?_⟩,
    fun hg hp => ⟨fun hr hc hd hl hm => ?_, fun hr hc hd hl => ?_, fun hr => freezeComplete_waits hg true hr, fun hr hd => ?_,
      fun hr hd => ?_, fun hc hf ht => ?_, freezeTimeout_early hg⟩⟩
  -- The wave at a core (R170).
  · have hgk : s.graph? k.graph = some g := by rw [hk]; exact hg
    obtain ⟨t, hrun, htold, hfrz⟩ := freezeWave_stops hgk hp hc
    obtain ⟨hmem, -, hothers⟩ := waveStops_frame s c
    have hcore : ∀ d, t.core d = (waveStops s c).core d := fun d => (congrArg (State.core · d) htold :)
    obtain ⟨hrn, has, hregs⟩ := waveStops_core s c
    refine ⟨t, hrun, ?_, ?_, ?_, hk ▸ hfrz, (congrArg State.mem htold :).trans hmem, fun d hd => (hcore d).trans (hothers d hd)⟩
    · rw [hcore]; exact hrn
    · rw [hcore]; exact has
    · rw [hcore]; exact hregs
  -- A freeze that is asked for (R79, R149, R169).
  · rw [exec_freezeRequest_of_graph hg hs, requestFreeze_running hg hp]
  · rw [exec_freezeRequest_of_graph hg hs, requestFreeze_committing hg hp hf]
  · rw [exec_freezeRequest_of_graph hg hs, requestFreeze_loading hg hp, hc]; rfl
  · rw [exec_freezeRequest_of_graph hg hs, requestFreeze_loading hg hp, if_pos hc]
  -- A stop (R177, R178).
  · rw [exec_graphStop_of_graph hg hs, stopGraph_freezing hg hp]
  · exact ⟨_, exec_graphStop_of_graph hg hs, stopGraph_stops hg hf hh hr hn⟩
  -- A freeze that completes (R79, R172).
  · obtain ⟨hmem, hrec, hfree⟩ := freezeDone_frozen hg
    obtain ⟨hin, hout⟩ := memWrite_reads hm g.frzAt img
    rw [imaged_mem, hc, Option.isSome_none, if_neg Bool.false_ne_true] at hmem
    refine ⟨_, freezeComplete_freezes hg hp (readyHere hr) hd hl, ?_, fun j hj => ?_, fun x hx => ?_, hfree⟩
    · rw [hrec, hc, Option.isSome_none, Bool.or_false]
    · rw [hmem]; exact hin j hj
    · rw [hmem]; exact hout x hx
  · obtain ⟨hmem, hrec, hfree⟩ := freezeDone_frozen hg
    rw [imaged_mem, if_pos hc] at hmem
    refine ⟨_, freezeComplete_freezes hg hp (freezeReady_iff.2 ⟨hr, .inl hc⟩) hd hl, ?_, hmem, hfree⟩
    rw [hrec, hc, Bool.or_true]
  -- A freeze that fails, or ends in a stop (R172, R177).
  · rw [freezeComplete_fails hg hp (readyHere hr) hd, freezeFails_halts hg hp]
  · obtain ⟨t, hrun, -, hv, -⟩ := freezeComplete_stops hg hp (readyHere hr) hd
    exact ⟨t, hrun, hv⟩
  · rw [freezeTimeout_fails hg hp hc hf ht, freezeFails_halts hg hp]

end Sys2Proof.Machine
end

section
/-! The ingress ports: their byte stream, their records, their registers (R91 to R96, R136), and O52. -/

namespace Sys2Proof.Machine

open State

/-! ### The record of a port -/

@[simp] theorem ingressOf_setIngress (s : State) (n : Nat) (p : Ingress) : ingressOf (setIngress s n p) n = p := NMap.getD_put_self ..

/-- Bytes that leave a buffer are counted as consumed; beside that only the write-backs due change (R93). -/
theorem consume_eq (p : Ingress) (n : Nat) :
    ∃ due last, consume p n = { p with consumed := p.consumed + n, buffer := p.buffer.drop n, wbs := due, lastWb := last } := by
  unfold consume
  simp only
  split <;> exact ⟨_, _, rfl⟩

@[simp] theorem consume_consumed (p : Ingress) (n : Nat) : (consume p n).consumed = p.consumed + n := by
  obtain ⟨_, _, h⟩ := consume_eq p n; rw [h]
@[simp] theorem consume_buffer (p : Ingress) (n : Nat) : (consume p n).buffer = p.buffer.drop n := by
  obtain ⟨_, _, h⟩ := consume_eq p n; rw [h]
@[simp] theorem consume_expected (p : Ingress) (n : Nat) : (consume p n).expected = p.expected := by
  obtain ⟨_, _, h⟩ := consume_eq p n; rw [h]
@[simp] theorem consume_st (p : Ingress) (n : Nat) : (consume p n).st = p.st := by
  obtain ⟨_, _, h⟩ := consume_eq p n; rw [h]
@[simp] theorem consume_gport (p : Ingress) (n : Nat) : (consume p n).gport = p.gport := by
  obtain ⟨_, _, h⟩ := consume_eq p n; rw [h]

/-! ### The byte stream (R92, R93) -/

/-- The port with a write's bytes at the end of its stream (R92). -/
def Ingress.extended (p : Ingress) (bytes : List Byte) : Ingress :=
  { p with expected := p.expected + bytes.length, buffer := p.buffer ++ bytes }

section
variable {s : State} {n off : Nat} {bytes : List Byte} (hn : n < 64) (hb : bytes ≠ [])
include hn hb

/-- A write to a port that is not enabled is discarded with HOST.13 (R92). -/
theorem ingressWrite_disabled (he : (ingressOf s n).en = false) :
    exec (.ingressWrite n off bytes false) s = .next (hostNote s 0x12D n) := by
  simp [execIngressWrite, hn.not_ge, hb, he]

section
variable (he : (ingressOf s n).en = true)
include he

/-- A poisoned write is discarded with HOST.9 (R92). -/
theorem ingressWrite_poisoned : exec (.ingressWrite n off bytes true) s =
    .next (setIngress (hostNote s 0x129 n) n { ingressOf s n with cause := 0x129 }) := by
  simp [execIngressWrite, hn.not_ge, hb, he]

/-- A write at another offset than the next is discarded with HOST.0 (R92). -/
theorem ingressWrite_misplaced (ho : off ≠ (ingressOf s n).expected % 2 ^ 20) : exec (.ingressWrite n off bytes false) s =
    .next (setIngress (hostNote s 0x120 n) n { ingressOf s n with cause := 0x120 }) := by
  simp only [exec_ingressWrite, execIngressWrite, hn.not_ge, hb, he, or_self, Bool.not_true, Bool.false_eq_true, if_false, if_pos ho]

variable (ho : off = (ingressOf s n).expected % 2 ^ 20)
include ho

/-- A write beyond the port's credit is discarded with HOST.1 (R92, R93). -/
theorem ingressWrite_overrun (hc : (ingressOf s n).consumed + 262144 < (ingressOf s n).expected + bytes.length) :
    exec (.ingressWrite n off bytes false) s =
      .next (setIngress (hostNote s 0x121 n) n { ingressOf s n with cause := 0x121 }) := by
  simp [execIngressWrite, hn.not_ge, hb, he, ho, hc]

section
variable (hc : (ingressOf s n).expected + bytes.length ≤ (ingressOf s n).consumed + 262144)
include hc

/-- A write within the port's credit joins the stream (R92). -/
theorem ingressWrite_joins (h4 : (ingressOf s n).st ≠ 4) :
    exec (.ingressWrite n off bytes false) s = .next (setIngress s n ((ingressOf s n).extended bytes)) := by
  simp [execIngressWrite, hn.not_ge, hb, he, ho, hc.not_gt, h4, Ingress.extended]

/-- In the fault state a write within the port's credit is discarded, and counts as consumed (R92, R95). -/
theorem ingressWrite_discards (h4 : (ingressOf s n).st = 4) :
    exec (.ingressWrite n off bytes false) s =
      .next (setIngress s n (consume ((ingressOf s n).extended bytes) ((ingressOf s n).extended bytes).buffer.length)) := by
  simp [execIngressWrite, hn.not_ge, hb, he, ho, hc.not_gt, h4, Ingress.extended]

end
end
end

/-- The oldest credit word due is written to host memory (R93). -/
theorem creditWriteback_writes {s : State} {n v : Nat} {rest : List Nat} (h : (ingressOf s n).wbs = v :: rest) :
    ∃ t, exec (.creditWriteback n) s = .next t ∧ ingressOf t n = { ingressOf s n with wbs := rest } ∧ t.mem = s.mem ∧
      t.host.mem = memWrite s.host.mem (ingressOf s n).cwb.toNat (leBytes 8 v) := by
  simp only [exec_creditWriteback, execCreditWriteback, h]
  exact ⟨_, rfl, ingressOf_setIngress .., rfl, rfl⟩

/-! ### The stream of a source port (R49, R50, R95, R136) -/

section
variable {s : State} {key : Nat} {st : DeckStream} (hst : NMap.getD {} s.streams key = st)
include hst

/-- The next token waits in the buffer while the credits show no space for it (R50). -/
theorem deliverData_waits (hf : streamFree s key st.fed = false) (n : Nat) (p : Ingress) (h : RecHead) :
    deliverData s n p h key = s := by
  simp [deliverData, hst, hf]

/-- The next token joins its stream, and its record leaves the buffer (R49, R95). -/
theorem deliverData_sends (hf : streamFree s key st.fed = true) (n : Nat) (p : Ingress) (h : RecHead) :
    deliverData s n p h key = { setIngress s n { consume p (recSize h) with nextOrd := p.nextOrd + 1 } with
      streams := NMap.put s.streams key { st with
        tokens := st.tokens ++ [⟨0, st.fed + 1, (p.buffer.drop 16).take h.len, [], false, 0⟩], fed := st.fed + 1 } } := by
  simp only [deliverData, hst, hf, Bool.not_true, Bool.false_eq_true, if_false]
  rfl

end

section
variable {s : State} {k : Nat} {g : Graph} (hg : s.graph? k = some g)
include hg

/-- The drain token joins the stream of its source port (R95, R136). -/
theorem hostDrain_joins {gport j : Nat} {r : PortRec} {st : DeckStream} (hport : sourcePort g.img gport = some (j, r))
    (hst : NMap.getD {} s.streams (hostStream k j g) = st) :
    hostDrain s k gport = { s with
      streams := NMap.put s.streams (hostStream k j g) { st with tokens := st.tokens ++ [⟨0, st.fed, [], [], true, 0⟩] } } := by
  simp only [hostDrain, hg, hport, hst]

/-- A mode token waits at the mode port of a graph none of whose sources has drained (R134, R137). -/
theorem modeArrive_waits (hs : g.srcDrained = false) (t sender seq : Nat) :
    modeArrive s k t sender seq =
      s.modGraph k fun g => { g with modeCtl := { g.modeCtl with waiting := g.modeCtl.waiting ++ [(t, sender, seq)] } } := by
  simp [modeArrive, hg, hs]

end

/-! ### Records (R94 to R96) -/

/-- A whole, well-formed record stands at the head of an enabled port's buffer, and the port's graph holds no records back. -/
structure RecordDue (s : State) (n : Nat) (h : RecHead) : Prop where
  head : recHead (ingressOf s n) = some h
  en : (ingressOf s n).en = true
  free : recordsWait s (ingressOf s n).graph = false
  formed : h.bad = false
  whole : recSize h ≤ (ingressOf s n).buffer.length

/-- Records wait while their graph is frozen, on its way there, or on its way back (R96). -/
theorem withRecord_waits {s : State} {n : Nat} {h : RecHead} (hh : recHead (ingressOf s n) = some h)
    (hw : recordsWait s (ingressOf s n).graph = true) (want : Nat) (f : Ingress → RecHead → State) : withRecord s n want f = s := by
  simp only [withRecord, hh, hw, Bool.or_true, if_true]

/-- A record of the type that is asked for is processed at a port in one of the states that do so. -/
theorem withRecord_of_due {s : State} {n want : Nat} {h : RecHead} (hd : RecordDue s n h) (ht : h.rtype = want)
    (hst : (ingressOf s n).st < 3) (f : Ingress → RecHead → State) : withRecord s n want f = f (ingressOf s n) h := by
  obtain ⟨hh, he, hw, hb, hl⟩ := hd
  simp only [withRecord, hh]
  rw [if_neg (by simp [he, hw, hst]), if_neg (by simp [hb]), if_neg (by simp [ht, hl])]

theorem recordFits_length {h : RecHead} {r : PortRec} (hl : h.len ≠ r.tsize) : recordFits h r = some 0x125 := if_pos hl

theorem recordFits_type {h : RecHead} {r : PortRec} (hl : h.len = r.tsize) (ht : h.tcode ≠ r.tcode) : recordFits h r = some 0x126 :=
  (if_neg (not_not_intro hl)).trans (if_pos ht)

theorem recordFits_none {h : RecHead} {r : PortRec} (hl : h.len = r.tsize) (ht : h.tcode = r.tcode) : recordFits h r = none :=
  (if_neg (not_not_intro hl)).trans (if_neg (not_not_intro ht))

section
variable {s : State} {n : Nat} {h : RecHead} (hd : RecordDue s n h)
include hd

/-- An OPEN at a port that is bound, or opening with a graph, gives HOST.3 (R95). -/
theorem openRecord_taken (ht : h.rtype = 1)
    (hst : (ingressOf s n).st = 2 ∨ ((ingressOf s n).st = 1 ∧ (ingressOf s n).graph ≠ 0)) :
    exec (.openRecord n) s = .next (ingressFault s n 0x123) := by
  rw [exec_openRecord, execOpenRecord, withRecord_of_due hd ht (by omega), if_neg (by omega)]

/-! #### At an idle port (R95) -/

section
variable (h0 : (ingressOf s n).st = 0)
include h0

/-- An OPEN at an idle port opens it. -/
theorem openRecord_idle (ht : h.rtype = 1) : exec (.openRecord n) s = .next (openPort s n (ingressOf s n) h) := by
  rw [exec_openRecord, execOpenRecord, withRecord_of_due hd ht (by omega), if_pos (.inl h0)]

/-- An OPEN of an image that the directory does not list gives HOST.7. -/
theorem openRecord_unlisted (ht : h.rtype = 1) (hdir : directory s h.arg = none) :
    exec (.openRecord n) s = .next (ingressFault s n 0x127) := by
  rw [openRecord_idle hd h0 ht, openPort, hdir]

/-- An OPEN of a listed image that no admitted graph runs creates a graph, and the port is opening (R95, R164). -/
theorem openRecord_creates (ht : h.rtype = 1) {o pages : Nat} (hdir : directory s h.arg = some (o, pages))
    (hog : openGraph s (ingressOf s n).ctx h.arg h.gport = none) (hq : queueFull s (ingressOf s n).ctx = false) :
    ∃ t H, exec (.openRecord n) s = .next t ∧ (ingressOf t n).st = 1 ∧ (ingressOf t n).graph = H ∧
      (ingressOf t n).gport = h.gport ∧ (ingressOf t n).consumed = (ingressOf s n).consumed + 16 ∧
      (t.graph? H).map (fun g => (g.imageid, g.phase)) = some (h.arg, Phase.validating) := by
  rw [openRecord_idle hd h0 ht, openPort]
  simp only [hdir, hog, hq, h0, if_true, Bool.false_eq_true, if_false]
  refine ⟨_, _, rfl, ?_, congrArg Ingress.graph (ingressOf_setIngress ..), ?_, ?_, ?_⟩
  · rw [ingressOf_setIngress]; exact consume_st ..
  · rw [ingressOf_setIngress]; exact consume_gport ..
  · rw [ingressOf_setIngress]; exact consume_consumed ..
  · exact congrArg (Option.map _) (NMap.find_put_self ..)

/-- Another record at an idle port gives HOST.2. -/
theorem dataRecord_idle (ht : h.rtype = 2) : exec (.dataRecord n) s = .next (ingressFault s n 0x122) := by
  rw [exec_dataRecord, execDataRecord, withRecord_of_due hd ht (by omega), if_pos h0]

theorem closeRecord_idle (ht : h.rtype = 3) : exec (.closeRecord n) s = .next (ingressFault s n 0x122) := by
  rw [exec_closeRecord, execCloseRecord, withRecord_of_due hd ht (by omega), if_pos h0]

theorem modeRecord_idle (ht : h.rtype = 4) : exec (.modeRecord n) s = .next (ingressFault s n 0x122) := by
  rw [exec_modeRecord, execModeRecord, withRecord_of_due hd ht (by omega), if_pos h0]

end

/-! #### At a port bound to a running graph (R95, R134) -/

section
variable {g : Graph} {r : PortRec} {j : Nat} {st : DeckStream} (h2 : (ingressOf s n).st = 2)
  (hg : s.graph? (ingressOf s n).graph = some g)
include h2 hg

/-- A CLOSE record puts the port in closing, and the drain token behind the last token of its stream (R95, R136). -/
theorem closeRecord_closes (ht : h.rtype = 3) (hport : sourcePort g.img (ingressOf s n).gport = some (j, r))
    (hst : NMap.getD {} s.streams (hostStream (ingressOf s n).graph j g) = st) :
    ∃ t, exec (.closeRecord n) s = .next t ∧ (ingressOf t n).st = 3 ∧ (ingressOf t n).consumed = (ingressOf s n).consumed + 16 ∧
      t.mem = s.mem ∧ t.cores = s.cores ∧
      (NMap.getD ({} : DeckStream) t.streams (hostStream (ingressOf s n).graph j g)).tokens =
        st.tokens ++ [⟨0, st.fed, [], [], true, 0⟩] := by
  have hrun : exec (.closeRecord n) s = .next (hostDrain (setIngress s n (consume { ingressOf s n with st := 3 }.note 16))
      (ingressOf s n).graph (ingressOf s n).gport) := by
    simp [execCloseRecord, withRecord_of_due hd ht, h2]
  rw [hostDrain_joins (s := setIngress s n _) hg hport hst] at hrun
  refine ⟨_, hrun, ?_, ?_, rfl, rfl, congrArg DeckStream.tokens (NMap.getD_put_self ..)⟩
  · exact (congrArg Ingress.st (ingressOf_setIngress ..)).trans (consume_st ..)
  · exact (congrArg Ingress.consumed (ingressOf_setIngress ..)).trans (consume_consumed ..)

variable (hp : g.phase = .running)
include hp

section
variable (ht : h.rtype = 2) (hport : sourcePort g.img h.gport = some (j, r))
include ht hport

/-- A DATA record that does not fit its port gives the fault of what differs. -/
theorem dataRecord_misfits {f : Nat} (hf : recordFits h r = some f) : exec (.dataRecord n) s = .next (ingressFault s n f) := by
  simp [execDataRecord, withRecord_of_due hd ht, h2, hg, hp, hport, hf]

/-- A DATA record out of its sequence gives HOST.8. -/
theorem dataRecord_disordered (hf : recordFits h r = none) (ho : h.arg ≠ (ingressOf s n).nextOrd) :
    exec (.dataRecord n) s = .next (ingressFault s n 0x128) := by
  simp [execDataRecord, withRecord_of_due hd ht, h2, hg, hp, hport, hf, ho]

section
variable (hf : recordFits h r = none) (ho : h.arg = (ingressOf s n).nextOrd)
  (hst : NMap.getD {} s.streams (hostStream (ingressOf s n).graph j g) = st)
include hf ho hst

/-- A DATA record that fits, next in its sequence, waits for space in the stream of its port (R50). -/
theorem dataRecord_waits (hs : streamFree s (hostStream (ingressOf s n).graph j g) st.fed = false) :
    exec (.dataRecord n) s = .next s := by
  simp [execDataRecord, withRecord_of_due hd ht, h2, hg, hp, hport, hf, ho, deliverData_waits hst hs]

/-- A DATA record that fits, next in its sequence, joins the stream of its port once that has space (R49, R50). -/
theorem dataRecord_sends (hs : streamFree s (hostStream (ingressOf s n).graph j g) st.fed = true) :
    ∃ t, exec (.dataRecord n) s = .next t ∧ t.mem = s.mem ∧ t.cores = s.cores ∧
      (NMap.getD ({} : DeckStream) t.streams (hostStream (ingressOf s n).graph j g)).tokens =
        st.tokens ++ [⟨0, st.fed + 1, ((ingressOf s n).buffer.drop 16).take h.len, [], false, 0⟩] ∧
      ingressOf t n = { consume (ingressOf s n) (recSize h) with nextOrd := (ingressOf s n).nextOrd + 1 } := by
  have hrun : exec (.dataRecord n) s = .next (deliverData s n (ingressOf s n) h (hostStream (ingressOf s n).graph j g)) := by
    simp [execDataRecord, withRecord_of_due hd ht, h2, hg, hp, hport, hf, ho]
  rw [deliverData_sends hst hs] at hrun
  exact ⟨_, hrun, rfl, rfl, congrArg DeckStream.tokens (NMap.getD_put_self ..), ingressOf_setIngress ..⟩

end
end

section
variable (ht : h.rtype = 4)
include ht

/-- A MODE record that fits the mode port, whose window has room, leaves a mode token there (R134). -/
theorem modeRecord_sends (hm : modePort g.img = some r) (hf : recordFits h r = none) (hw : g.modeCtl.waiting.length < 4)
    (hs : g.srcDrained = false) :
    ∃ t, exec (.modeRecord n) s = .next t ∧ (ingressOf t n).consumed = (ingressOf s n).consumed + recSize h ∧
      (t.graph? (ingressOf s n).graph).map (fun g => g.modeCtl.waiting) =
        some (g.modeCtl.waiting ++ [(h.arg % 2 ^ 32, 0, 0)]) := by
  have hrun : exec (.modeRecord n) s = .next
      (modeArrive (setIngress s n (consume (ingressOf s n) (recSize h))) (ingressOf s n).graph (h.arg % 2 ^ 32) 0 0) := by
    simp [execModeRecord, withRecord_of_due hd ht, h2, hg, hp, hm, hf, hw.not_ge]
  rw [modeArrive_waits (s := setIngress s n _) hg hs] at hrun
  refine ⟨_, hrun, ?_, congrArg (Option.map _) (graph?_modGraph (s := setIngress s n _) hg _)⟩
  exact (congrArg (fun t => (ingressOf t n).consumed) (sansTold_modGraph (setIngress s n _) ..)).trans
    ((congrArg Ingress.consumed (ingressOf_setIngress ..)).trans (consume_consumed ..))

/-- A MODE record for a graph without a mode port is MODE.1, and is consumed. -/
theorem modeRecord_portless (hm : modePort g.img = none) : exec (.modeRecord n) s = .next
    (setIngress (s.notifyGraph (ingressOf s n).graph { cause := 0x071 }) n (consume (ingressOf s n) (recSize h))) := by
  simp [execModeRecord, withRecord_of_due hd ht, h2, hg, hp, hm]

end

end

end

/-! ### The drain of a closing port (R95, R136) -/

section
variable {s : State} {n j : Nat} {g : Graph} {r : PortRec} {st : DeckStream} (h3 : (ingressOf s n).st = 3)
  (hg : s.graph? (ingressOf s n).graph = some g) (hp : g.phase = .running)
  (hport : sourcePort g.img (ingressOf s n).gport = some (j, r))
  (hst : NMap.getD {} s.streams (hostStream (ingressOf s n).graph j g) = st)
include h3 hg hp hport hst

/-- A port is closing while the drain token is in its stream. -/
theorem ingressDrainAccepted_waits (hdr : st.tokens.any PtrMsg.drain = true) : exec (.ingressDrainAccepted n) s = .next s := by
  simp only [exec_ingressDrainAccepted, execIngressDrainAccepted, hg, hport, h3, hp, hst, hdr, ne_eq, not_true, or_self, if_true,
    if_false]

/-- The port whose drain token has been accepted is idle, and its source has drained. -/
theorem ingressDrainAccepted_idles (hdr : st.tokens.any PtrMsg.drain = false) : exec (.ingressDrainAccepted n) s = .next
    (setIngress (s.modGraph (ingressOf s n).graph fun g => { g with srcDrained := true }) n
      { ingressOf s n with st := 0, graph := 0, nextOrd := 0 }.note) := by
  simp only [exec_ingressDrainAccepted, execIngressDrainAccepted, hg, hport, h3, hp, hst, hdr, ne_eq, not_true, or_self, if_false,
    Bool.false_eq_true]

end

/-! ### EN and RST (R91, R96) -/

section
variable {s : State} {n : Nat} (hn : n < 64)
include hn

/-- A port without a context is not enabled: HOST.13 (R91). -/
theorem ingressEn_refused (ha : (ingressOf s n).asgn = false) : exec (.ingressEn n true) s = .next (hostNote s 0x12D n) := by
  simp [execIngressEn, hn.not_ge, ha]

theorem ingressEn_sets (ha : (ingressOf s n).asgn = true) (en : Bool) :
    exec (.ingressEn n en) s = .next (setIngress s n { ingressOf s n with en := en }) := by
  simp [execIngressEn, hn.not_ge, ha]

end

/-- The machine in which the graph of a port that is reset has halted with HOST.14, if it has not ended (R96). -/
def portGraphHalted (s : State) (n : Nat) : State :=
  if ((ingressOf s n).st = 1 ∨ (ingressOf s n).st = 2 ∨ (ingressOf s n).st = 3) ∧ graphLives s (ingressOf s n).graph = true
  then hostHalt s (ingressOf s n).graph { cause := 0x12E } else s

/-- A port as RST leaves it: idle, its buffer and its offsets as at first (R96). -/
structure Ingress.Cleared (p : Ingress) : Prop where
  st : p.st = 0
  buffer : p.buffer = []
  consumed : p.consumed = 0
  expected : p.expected = 0
  graph : p.graph = 0

/-- A port that is reset is cleared once its graph has halted (R96). -/
theorem ingressRst_clears {s : State} {n : Nat} (hn : n < 64) :
    ∃ q, exec (.ingressRst n) s = .next (setIngress (portGraphHalted s n) n q) ∧ q.Cleared := by
  rw [exec_ingressRst, execIngressRst, resetIngress, if_neg hn.not_ge]
  refine ⟨_, rfl, ?_⟩
  split <;> exact ⟨rfl, rfl, rfl, rfl, rfl⟩

theorem portGraphHalted_mem (s : State) (n : Nat) : (portGraphHalted s n).mem = s.mem := by
  unfold portGraphHalted
  split
  · exact (onlyGraph_hostHalt ..).1
  · rfl

/-- The running graph of a bound or closing port that is reset is halted with HOST.14 (R96). -/
theorem verdict_portGraphHalted {s : State} {n : Nat} {g : Graph} (hg : s.graph? (ingressOf s n).graph = some g)
    (hst : (ingressOf s n).st = 2 ∨ (ingressOf s n).st = 3) (hp : g.phase = .running) :
    (portGraphHalted s n).verdict (ingressOf s n).graph = some (.halted, 0x12E) := by
  have hl : graphLives s (ingressOf s n).graph = true := by simp [graphLives, hg, hp]
  rw [portGraphHalted, if_pos ⟨.inr hst, hl⟩]
  exact verdict_hostHalt_of_running { cause := 0x12E } (c := g.cause) (by rw [verdict_of_find hg, hp])

/-- Settles O52: each clause from the rule of its event; of a record, from what its type does at a port in that state. -/
theorem ingressEvents : Obligations.IngressEvents := by
  intro s n off bytes h g r j v0 ws p set fault whole key st now
  have due : whole → RecordDue s n h := fun ⟨hh, he, hw, hb, hl⟩ => ⟨hh, he, hw, hb, hl⟩
  refine ⟨fun hn hb => ⟨ingressWrite_disabled hn hb, ingressWrite_poisoned hn hb, ingressWrite_misplaced hn hb,
      ingressWrite_overrun hn hb, ingressWrite_joins hn hb, fun he ho hc h4 => ?_⟩,
    fun hw hm => ?_, fun hh _ _ hw => ?_, fun hd ht hst => openRecord_taken (due hd) ht hst,
    fun hd ht h0 => openRecord_unlisted (due hd) h0 ht, fun hd ht h0 o pages => openRecord_creates (due hd) h0 ht,
    fun hd h0 => ⟨dataRecord_idle (due hd) h0, closeRecord_idle (due hd) h0, modeRecord_idle (due hd) h0⟩,
    fun hd h2 hg hp => ⟨fun ht hport => ⟨fun hl => ?_, fun hl hc => ?_, fun hl hc => ?_, fun hl hc ho => ⟨fun hs => ?_, fun hs => ?_⟩⟩,
      fun ht hport => closeRecord_closes (due hd) h2 hg ht hport rfl,
      fun ht hm hl hc hw hs => modeRecord_sends (due hd) h2 hg hp ht hm (recordFits_none hl hc) hw hs, fun ht hm => ?_⟩,
    fun h3 hg hp hport => ⟨ingressDrainAccepted_waits h3 hg hp hport rfl, fun hdr => ?_⟩,
    fun hn => ⟨ingressEn_refused hn, fun ha => ⟨ingressEn_sets hn ha true, ingressEn_sets hn ha false⟩, ?_⟩⟩
  -- Bytes that reach a port in the fault state (R92, R95).
  · refine ⟨_, ingressWrite_discards hn hb he ho hc h4, ?_, ?_, ?_, ?_⟩ <;> rw [ingressOf_setIngress]
    · rw [consume_buffer, List.drop_length]
    · rw [consume_st]; exact h4
    · exact consume_expected ..
    · rw [consume_consumed, Ingress.extended, List.length_append, Nat.add_assoc]
  -- A credit word (R93).
  · obtain ⟨t, hrun, hent, hmem, hhost⟩ := creditWriteback_writes hw
    refine ⟨t, hrun, by rw [hent], fun b hb => ?_, hmem⟩
    rw [hhost, (memWrite_reads hm _ _).1 b (by rwa [length_leBytes]), getD_leBytes hb]
  -- Records that wait (R96).
  · exact ⟨congrArg _ (withRecord_waits hh hw ..), congrArg _ (withRecord_waits hh hw ..), congrArg _ (withRecord_waits hh hw ..),
      congrArg _ (withRecord_waits hh hw ..)⟩
  -- DATA records at a bound port (R95).
  · exact dataRecord_misfits (due hd) h2 hg hp ht hport (recordFits_length hl)
  · exact dataRecord_misfits (due hd) h2 hg hp ht hport (recordFits_type hl hc)
  · exact dataRecord_disordered (due hd) h2 hg hp ht hport (recordFits_none hl hc)
  · exact dataRecord_waits (due hd) h2 hg hp ht hport (recordFits_none hl hc) ho rfl hs
  · obtain ⟨t, hrun, hmem, hcores, htokens, hent⟩ := dataRecord_sends (due hd) h2 hg hp ht hport (recordFits_none hl hc) ho rfl hs
    refine ⟨t, hrun, hmem, hcores, htokens, ?_, ?_, ?_⟩ <;> rw [hent]
    · exact consume_consumed ..
    · exact consume_buffer ..
  -- A MODE record for a graph without a mode port (R134).
  · refine ⟨_, modeRecord_portless (due hd) h2 hg hp ht hm, ?_, ?_⟩
    · exact (congrArg (NMap.find · p.graph) (notifyGraph_graphs ..)).trans hg
    · rw [ingressOf_setIngress]; exact consume_consumed ..
  -- A drain token that has been accepted (R95, R136).
  · have hkept := sansTold_modGraph s p.graph fun g => { g with srcDrained := true }
    refine ⟨_, ingressDrainAccepted_idles h3 hg hp hport rfl hdr, ?_, ?_, (congrArg State.mem hkept :), (congrArg State.cores hkept :),
      congrArg (Option.map _) (graph?_modGraph hg _)⟩ <;> rw [ingressOf_setIngress] <;> rfl
  -- RST (R96).
  · obtain ⟨q, hrun, hq⟩ := ingressRst_clears hn
    refine ⟨_, hrun, ?_, ?_, ?_, ?_, ?_, portGraphHalted_mem s n, fun hg hst hp => verdict_portGraphHalted hg hst hp⟩ <;>
      rw [ingressOf_setIngress]
    exacts [hq.st, hq.buffer, hq.consumed, hq.expected, hq.graph]

end Sys2Proof.Machine
end

section
/-! Cuts: a marker at a core, and a cut that takes too long (R282). -/

namespace Sys2Proof.Machine

open State

/-! ### A marker at a core (R282) -/

/-- A core that a cut stops where it stands (R282). -/
def Core.cutStopped (k : Core) : Core := if k.cut then k else { k.leaveWait with cut := true }

@[simp] theorem cut_cutStopped (k : Core) : k.cutStopped.cut = true := by
  unfold Core.cutStopped
  split
  · assumption
  · rfl

@[simp] theorem regs_cutStopped (k : Core) : k.cutStopped.regs = k.regs := by
  unfold Core.cutStopped
  split
  · rfl
  · exact regs_leaveWait k

/-- A graph's record once a marker has reached a core of it, which stands still or has a stream within a token (R282). -/
def Graph.markedAt (g : Graph) (c : Nat) (split : Bool) : Graph :=
  { g with cutCores := if g.cutCores.contains c || split then g.cutCores else c :: g.cutCores }

/-- Every core of a graph that is being cut stands still (R282). -/
def Graph.allCut (g : Graph) : Bool := g.cutSince.isSome && !g.cutDone && g.cores.all fun x => g.cutCores.contains x.2

/-- The record of a graph that knows whether its cut is complete (R282). -/
def Graph.cutTallied (g : Graph) : Graph := { g with cutDone := g.cutDone || g.allCut }

/-- The machine in which a marker has stopped a core and is noted in its graph (R282). -/
def cutMarked (s : State) (c : Nat) : State :=
  (s.modCore c Core.cutStopped).modGraph (s.core c).graph fun g => g.markedAt c (s.splitToken c)

section
variable {s : State} {c : Nat} {g : Graph} (hg : s.graph? (s.core c).graph = some g)
include hg

theorem graph?_cutMarked : (cutMarked s c).graph? (s.core c).graph = some (g.markedAt c (s.splitToken c)) :=
  graph?_modGraph (s := s.modCore c Core.cutStopped) hg _

/-- The marker at a core: the last core completes the cut, with DBG.1 (R282). -/
theorem cutCore_eq : s.cutCore c = if (g.markedAt c (s.splitToken c)).allCut
    then ((cutMarked s c).modGraph (s.core c).graph fun g => { g with cutDone := true }).notifyGraph (s.core c).graph { cause := 0x171 }
    else cutMarked s c := by
  have hm := graph?_cutMarked hg
  unfold cutCore
  simp only
  change (match (cutMarked s c).graph? (s.core c).graph with | none => _ | some g => _) = _
  rw [hm]
  rfl

/-- A marker stops its core, notes it in the graph, and completes the cut or not; the rest is a notice (R282). -/
theorem cutCore_stops : (s.cutCore c).sansTold = (s.modCore c Core.cutStopped).sansTold ∧
    (s.cutCore c).graph? (s.core c).graph = some (g.markedAt c (s.splitToken c)).cutTallied := by
  rw [cutCore_eq hg]
  split
  · next h =>
    refine ⟨by simp [cutMarked], ?_⟩
    rw [graph?, notifyGraph_graphs, Graph.cutTallied, h, Bool.or_true]
    exact graph?_modGraph (graph?_cutMarked hg) _
  · next h =>
    refine ⟨sansTold_modGraph .., ?_⟩
    rw [Graph.cutTallied, Bool.eq_false_iff.2 h, Bool.or_false]
    exact graph?_cutMarked hg

theorem exec_cutMarker_of_new (hs : g.cutSince.isSome = true) (hc : g.cutCores.contains c = false) :
    exec (.cutMarker c) s = .next (s.cutCore c) := by
  simp only [exec_cutMarker, execCutMarker, hg, hs, hc, Bool.not_false, Bool.and_self, if_true]

end

/-- A core that stands still is noted, and with the last the cut is complete (R282). -/
theorem cutTallied_markedAt_still {g : Graph} {c : Nat} (hs : g.cutSince.isSome = true) (hd : g.cutDone = false)
    (hc : g.cutCores.contains c = false) : (g.markedAt c false).cutTallied =
      { g with cutCores := c :: g.cutCores, cutDone := g.cores.all fun x => (c :: g.cutCores).contains x.2 } := by
  have hm : g.markedAt c false = { g with cutCores := c :: g.cutCores } := by rw [Graph.markedAt, hc]; rfl
  rw [hm, Graph.cutTallied, Graph.allCut, hs, hd]
  rfl

/-- A core with a stream within a token is not noted yet (R282). -/
theorem markedAt_split (g : Graph) (c : Nat) : g.markedAt c true = g := by rw [Graph.markedAt, Bool.or_true]; rfl

/-! ### A cut that takes too long (R79, R282) -/

section
variable {s : State} {w : Word32} {g : Graph} {since : Nat} (hg : s.graph? w.toNat = some g) (hs : g.cutSince = some since)
include hg hs

theorem cutTimeout_halts (hc : g.coord = none) (hd : g.cutDone = false) (ht : since + waveBound g ≤ s.time) :
    exec (.cutTimeout w) s = .next (s.haltGraph w.toNat { cause := 0x177 }) := by
  simp [execCutTimeout, hg, hs, hc, hd, ht]

theorem cutTimeout_early (ht : s.time < since + waveBound g) : exec (.cutTimeout w) s = .next s := by
  simp [execCutTimeout, hg, hs, Nat.not_le.2 ht]

end

end Sys2Proof.Machine
end

section
/-! Dumps: their start, their end, and the stores that other packages leave unresolved (R276 to R280). -/

namespace Sys2Proof.Machine

open State

/-! ### The start of a dump (R105, R276, R279) -/

theorem dumpStart_down {s : State} (h : s.dumperUp = false) : exec .dumpStart s = .next s := by
  simp [execDumpStart, h]

/-- The dump engine takes the first halted graph, whose parked and local requests are withdrawn with their stores recorded (R276,
R279). -/
theorem dumpStart_takes {s : State} {h : Nat} {rest : List Nat} {g : Graph} (hup : s.dumperUp = true) (hc : s.dump.current = none)
    (hq : s.dump.queue = h :: rest) (hg : s.graph? h = some g) : exec .dumpStart s = .next { s with
      dump := { s.dump with queue := rest, current := some h, since := s.time, flags := 0, secondary := none, nsec := 0
                            stores := pendingStores s g }
      kitty := s.kitty.filter fun p => p.msg.isSome || !((g.cores.map Prod.snd
        ++ (s.actors.filter fun (_, a) => a.graph == h).map fun x => engineCore x.1).contains p.core) } := by
  simp only [exec_dumpStart, execDumpStart, hup, Bool.not_true, Bool.false_eq_true, if_false, hc, hq, hg]

/-! ### The end of a dump (R276, R280) -/

theorem foldl_modCore_dump {α : Type} (i : State → α → Nat) (f : State → α → Core → Core) (l : List α) (s : State) :
    (l.foldl (fun s a => s.modCore (i s a) (f s a)) s).dump = s.dump :=
  foldl_keeps State.dump (f := fun s a => s.modCore (i s a) (f s a)) (fun _ _ => rfl) l s

/-- The release of a graph leaves the dump engine as it is (R172). -/
@[simp] theorem release_dump (s : State) (h : Nat) : (s.release h).dump = s.dump := by
  cases hg : s.graph? h <;> simp [release, hg, unbindEgress, foldl_modCore_dump]

/-- A dump has ended: the engine is free, the dump counted, its graph's cores free, and no byte outside the area's free part
differs (R276, R280). -/
def DumpEnded (s : State) (h : Nat) (t : State) : Prop :=
  t.dump.current = none ∧ t.dump.queue = s.dump.queue ∧ t.dump.written = s.dump.written + 1 ∧
  (∀ d, d ∈ s.coresOf h → (t.core d).graph = 0) ∧
  (Memory.wf s.mem = true → SameOutside s t (Config.dumpBase + s.dump.next) (Config.dumpSize - s.dump.next))

/-- Notices do not bear on whether a dump has ended. -/
theorem DumpEnded.of_sansTold {s t u : State} {h : Nat} (ht : DumpEnded s h t) (he : u.sansTold = t.sansTold) : DumpEnded s h u := by
  have hd : u.dump = t.dump := (congrArg State.dump he :)
  have hk : ∀ d, u.core d = t.core d := fun d => (congrArg (State.core · d) he :)
  have hm : u.mem = t.mem := (congrArg State.mem he :)
  unfold DumpEnded SameOutside
  simp only [hd, hk, hm]
  exact ht

/-- The machine with a dump's bytes in the area, if they fit, and the dump counted (R276, R277). -/
def dumpWritten (s : State) (bs : List Byte) : State :=
  let s1 := if bs.length ≤ Config.dumpSize - s.dump.next then s.write (Config.dumpBase + s.dump.next) bs else s
  { s1 with dump := { queue := s.dump.queue, written := s.dump.written + 1
                      next := min (s.dump.next + roundUp bs.length 64) Config.dumpSize } }

theorem dumpWritten_graphs (s : State) (bs : List Byte) : (dumpWritten s bs).graphs = s.graphs := by
  unfold dumpWritten; simp only; split <;> rfl

theorem sameOutside_dumpWritten {s : State} (hm : Memory.wf s.mem = true) (bs : List Byte) :
    SameOutside s (dumpWritten s bs) (Config.dumpBase + s.dump.next) (Config.dumpSize - s.dump.next) := by
  intro x hx
  unfold dumpWritten
  simp only
  split
  · next hl => exact (memWrite_reads hm _ bs).2 x (by omega)
  · rfl

/-- A dump ends with its bytes written and its graph released; the rest is notices (R276, R280). -/
theorem sansTold_endDump (s : State) (h : Nat) (g : Graph) (xs : List (Nat × List Byte)) (flags : Nat) :
    ∃ bs, (endDump s h g xs flags).sansTold = ((dumpWritten s bs).release h).sansTold := by
  unfold endDump
  simp only
  split
  · exact ⟨_, by rw [sansTold_tellMgmt, sansTold_notifyGraph]; rfl⟩
  · exact ⟨_, rfl⟩

section
variable {s : State} {h : Nat} {g : Graph} (hg : s.graph? h = some g)
include hg

theorem endDump_ends (xs : List (Nat × List Byte)) (flags : Nat) : DumpEnded s h (endDump s h g xs flags) := by
  obtain ⟨bs, he⟩ := sansTold_endDump s h g xs flags
  have hg' : (dumpWritten s bs).graph? h = some g := (congrArg (NMap.find · h) (dumpWritten_graphs s bs)).trans hg
  refine DumpEnded.of_sansTold ⟨?_, ?_, ?_, fun d hd => ?_, fun hm x hx => ?_⟩ he
  · rw [release_dump]; rfl
  · rw [release_dump]; rfl
  · rw [release_dump]; rfl
  · exact (core_release hg' ((mem_coresOf hg').2 ((mem_coresOf hg).1 hd))).1
  · rw [(onlyGraph_release ..).1]; exact sameOutside_dumpWritten hm bs x hx

variable (hc : s.dump.current = some h)
include hc

/-- A dump waits for the stores that are on their way to other packages (R279). -/
theorem dumpComplete_waits (ha : storesAway s g = true) : exec .dumpComplete s = .next s := by
  simp only [exec_dumpComplete, execDumpComplete, hc, hg, ha, if_true]

theorem dumpComplete_ends (ha : storesAway s g = false) : ∃ t, exec .dumpComplete s = .next t ∧ DumpEnded s h t := by
  simp only [exec_dumpComplete, execDumpComplete, hc, hg, ha, Bool.false_eq_true, if_false]
  exact ⟨_, rfl, (endDump_ends hg _ _).of_sansTold (sansTold_notifyGraph ..)⟩

/-- A dump that a fault of the engine ends, with some of its sections (R280). -/
theorem dumpEngineFault_ends : ∃ t, exec .dumpEngineFault s = .next t ∧ DumpEnded s h t := by
  simp only [exec_dumpEngineFault, execDumpEngineFault, hc, hg]
  have hend := fun xs => endDump_ends (s := s.takeFresh.2) hg xs 1
  exact ⟨_, rfl, DumpEnded.of_sansTold (s := s) (hend _) ((sansTold_tellMgmt ..).trans (sansTold_notifyGraph ..))⟩

end

/-! ### Stores unresolved at other packages (R279) -/

/-- A store that another package has not answered for 1 ms is recorded, and awaited no longer (R279). -/
theorem pendingRemoteExpiry_records {s : State} {h c q : Nat} {o : Away} (hc : s.dump.current = some h) (ho : onWay s c q = some o)
    (hk : (s.core c).graph = h) (ht : s.dump.since + 5 * 1000000 ≤ s.time) (he : entryPending ((s.core c).entry q) = true) :
    exec (.pendingRemoteExpiry c q) s =
      .next (leaveOutbox { s with dump := { s.dump with stores := s.dump.stores ++ [entryRecord s c q 1] } } o) := by
  have hrec : awayRecords s c q = [entryRecord s c q 1] := by rw [awayRecords, if_pos he]
  simp [execPendingRemoteExpiry, hc, ho, hrec, issuedBy, hk, nanos, ht]

end Sys2Proof.Machine
end

section
/-! The scrubber and spare rows (R273, R275), and O48. -/

namespace Sys2Proof.Machine

open State

/-! ### Corrections (R272, R273) -/

/-- A state but for the counts of corrections and the notices to management. -/
def State.sansCorrections (s : State) : State :=
  { s.sansNotes with mgmtCounts := [], ecc := { s.ecc with homes := [], lines := [] } }

theorem sansCorrections_tellMgmt (s : State) (n : Notice) : (s.tellMgmt n).sansCorrections = s.sansCorrections := by
  have hecc : (s.tellMgmt n).ecc = s.ecc := (congrArg State.ecc (sansNotes_tellMgmt s n) :)
  rw [sansCorrections, sansNotes_tellMgmt, hecc, sansCorrections]

/-- One correction is counted, and of many management hears (R273). -/
theorem sansCorrections_correctOne (s : State) (x : Nat) : (s.correctOne x).sansCorrections = s.sansCorrections := by
  simp only [correctOne, apply_ite State.sansCorrections, sansCorrections_tellMgmt, ite_self]
  rfl

/-- The corrected errors are gone; the rest is counts and notices (R272, R273). -/
theorem sansCorrections_correct (s : State) (a n : Nat) : (s.correct a n).sansCorrections =
    ({ s with ecc := { s.ecc with marks := s.ecc.marks.filter fun m => !(!m.2 && touchesWord a n m.1) } } : State).sansCorrections :=
  foldl_keeps State.sansCorrections sansCorrections_correctOne _ _

theorem correct_mem (s : State) (a n : Nat) : (s.correct a n).mem = s.mem := (congrArg State.mem (sansCorrections_correct s a n) :)
theorem correct_cores (s : State) (a n : Nat) : (s.correct a n).cores = s.cores :=
  (congrArg State.cores (sansCorrections_correct s a n) :)
theorem correct_spared (s : State) (a n : Nat) : (s.correct a n).ecc.spared = s.ecc.spared :=
  (congrArg (·.ecc.spared) (sansCorrections_correct s a n) :)

/-- A correction leaves the uncorrectable errors, and those of words that it does not touch (R272). -/
theorem mem_marks_correct (s : State) (a n : Nat) (m : Nat × Bool) :
    m ∈ (s.correct a n).ecc.marks ↔ m ∈ s.ecc.marks ∧ (m.2 = true ∨ touchesWord a n m.1 = false) := by
  have hmarks : (s.correct a n).ecc.marks = s.ecc.marks.filter fun m => !(!m.2 && touchesWord a n m.1) :=
    (congrArg (·.ecc.marks) (sansCorrections_correct s a n) :)
  simp [hmarks]

/-! ### The scrubber (R275) -/

section
variable {s : State} {a : Nat} (ha : scrubbed (a / 64 * 64) = true)
include ha

theorem scrubStep_corrects (hu : s.ueAt (a / 64 * 64) 64 = none) : exec (.scrubStep a) s = .next (s.correct (a / 64 * 64) 64) := by
  simp only [exec_scrubStep, execScrubStep, ha, Bool.not_true, Bool.false_eq_true, if_false, hu]

theorem scrubStep_halts {u : Nat} (hu : s.ueAt (a / 64 * 64) 64 = some u) : exec (.scrubStep a) s =
    let l := ueLocation u
    .next (((s.correct (a / 64 * 64) 64).tellMgmt (s.graphNotice (ownerOf s u)
      { cause := 0x16C, detail := l.2.1 * 2 ^ 44 + l.2.2.1 * 2 ^ 40 + l.2.2.2.1 })).haltLocation
        (ownerOf s u) l.1 l.2.1 l.2.2.1 l.2.2.2.1) := by
  simp only [exec_scrubStep, execScrubStep, ha, Bool.not_true, Bool.false_eq_true, if_false, hu]

end

/-! ### Spare rows (R105, R273) -/

theorem hbmRowSpare_of_reset {s : State} (h : s.managementUp = false) (a : Nat) : exec (.hbmRowSpare a) s = .next s := by
  simp [execHbmRowSpare, h]

/-- The rows moved to spares, with one more that may be among them. -/
def rowSpared (rows : List Nat) (r : Nat) : List Nat := if rows.contains r then rows else rows ++ [r]

theorem mem_rowSpared (rows : List Nat) (r : Nat) : r ∈ rowSpared rows r ∧ ∀ x, x ∈ rows → x ∈ rowSpared rows r := by
  unfold rowSpared
  split
  · next h => exact ⟨List.contains_iff_mem.1 h, fun _ hx => hx⟩
  · exact ⟨by simp, fun x hx => List.mem_append_left _ hx⟩

/-- Management that runs corrects a row and moves it to a spare; the rest is counts and notices (R273). -/
theorem hbmRowSpare_moves {s : State} (hup : s.managementUp = true) {a : Nat} (ha : a < 2 ^ 39) : ∃ t,
    exec (.hbmRowSpare a) s = .next t ∧ t.mem = s.mem ∧ t.cores = s.cores ∧ t.ecc.spared = rowSpared s.ecc.spared (a / 4096) := by
  simp only [exec_hbmRowSpare, execHbmRowSpare, hup, Nat.not_le.2 ha, Bool.true_eq_false, or_self, if_false]
  have htold := fun (u : State) => sansNotes_tellMgmt u { cause := 0x16E, detail := a }
  refine ⟨_, rfl, (congrArg State.mem (htold _)).trans (correct_mem ..), (congrArg State.cores (htold _)).trans (correct_cores ..),
    (congrArg (·.ecc.spared) (htold _)).trans ?_⟩
  exact congrArg (rowSpared · (a / 4096)) (correct_spared ..)

/-- Settles O48: each clause from the rule of its event. -/
theorem cutDumpAndStorageEvents : Obligations.CutDumpAndStorageEvents := by
  refine ⟨?_, ?_⟩
  · intro s c q h since w g rest o k mine last dump
    refine ⟨fun hg hs hd hc => ?_, fun hg hc hs hd => ⟨cutTimeout_halts hg hs hc hd, cutTimeout_early hg hs⟩, dumpStart_down,
      fun hup hc hq hg => ?_, fun hc hg => ⟨dumpComplete_waits hg hc, fun ha hm => ?_, ?_, fun ho hk ht he => ?_⟩⟩
    -- A marker at a core (R282).
    · obtain ⟨htold, hrec⟩ := cutCore_stops hg
      have hcore : (s.cutCore c).core c = (s.modCore c Core.cutStopped).core c := (congrArg (State.core · c) htold :)
      have hnew : g.cutSince.isSome = true := by rw [hs]; rfl
      refine ⟨_, exec_cutMarker_of_new hg hnew hc, ?_, ?_, (congrArg State.mem htold :), fun hsp => ?_, fun hsp => ?_⟩
      · rw [hcore, core_modCore_self]; exact cut_cutStopped _
      · rw [hcore, core_modCore_self]; exact regs_cutStopped _
      · rw [hrec, hsp, cutTallied_markedAt_still hnew hd hc]; rfl
      · rw [hrec, hsp, markedAt_split]; rfl
    -- The start of a dump (R276, R279).
    · refine ⟨_, dumpStart_takes hup hc hq hg, rfl, rfl, rfl, rfl, rfl, rfl, fun p hp hmsg => ?_⟩
      have hother := (List.mem_filter.1 hp).2
      simp only [hmsg, Option.isSome_none, Bool.false_or, Bool.not_eq_true', List.contains_eq_mem, decide_eq_false_iff_not,
        List.mem_append, not_or] at hother
      exact hother.1
    -- The end of a dump (R276, R280).
    · obtain ⟨t, hrun, hcur, hqueue, hwritten, hfree, hout⟩ := dumpComplete_ends hg hc ha
      exact ⟨t, hrun, hcur, hqueue, hwritten, hfree, hout hm⟩
    · obtain ⟨t, hrun, hcur, -, hwritten, hfree, -⟩ := dumpEngineFault_ends hg hc
      exact ⟨t, hrun, hcur, hwritten, hfree⟩
    · exact ⟨_, pendingRemoteExpiry_records hc ho hk ht he, rfl, rfl, rfl, rfl⟩
  · intro s a u line row l place
    refine ⟨scrubStep_corrects, fun hs hu => scrubStep_halts hs hu,
      fun b n => ⟨correct_mem s b n, correct_cores s b n, mem_marks_correct s b n⟩, fun h => hbmRowSpare_of_reset h a, fun hup ha => ?_⟩
    obtain ⟨t, hrun, hmem, hcores, hspared⟩ := hbmRowSpare_moves hup ha
    obtain ⟨hrow, hkept⟩ := mem_rowSpared s.ecc.spared row
    rw [← hspared] at hrow hkept
    exact ⟨t, hrun, hmem, hcores, hrow, hkept⟩

end Sys2Proof.Machine
end

section
/-! The notice port of a supervisor whose conversion counts are past their bound, and O46. -/

namespace Sys2Proof.Machine

open State

/-- A context with one notice, which has crossed the deck to its supervisor at core 0 (R160, R161). -/
def oneNotice : Ctx := { ctxFrom [] with supHandle := 1, notices := [{ cause := 0x14A }], sent := 1 }

/-- The machine of that context: the notice port of its supervisor is empty, and the port's conversion has a count past 32 bits. The
bound is not among its counts, and is once the next token has joined them, though the token adds nothing (R259, R260). -/
def wideCounted : State :=
  { State.reset.modCore 0 fun k => { k with graph := 1, run := .running, descs := [(0, noticeDesc)], convs := [(0, [2 ^ 32])] } with
    ctxs := [(0, oneNotice)] }

/-- The notice port of that supervisor takes a notice (R159, R160). -/
theorem wideCounted_takes :
    let d := (wideCounted.core 0).desc 0
    portDesc wideCounted 0 0 0 = some 0 ∧ coreMoves (wideCounted.core 0) = true ∧ 0 < d.free ∧ d.tcode = 0x1D ∧ d.tsize = 32 ∧
      d.wr.toNat + 1 < 2 ^ 64 := by decide +kernel

/-- The notice is delivered, and the count that saturates raises FMT.14, which takes its place (R161, R260). -/
theorem noticeDelivery_wideCounted : ∃ t, exec (.noticeDelivery 0) wideCounted = .next t ∧
    (NMap.find t.ctxs 0).map (fun k => k.notices.map Notice.cause) = some [0x0FE] :=
  ⟨_, rfl, by decide +kernel⟩

/-- Refutes O46: a conversion count past 32 bits, which the statement does not exclude, saturates when the notice lands, and FMT.14
stands in the context's queue where the statement has no notice left. -/
theorem not_contextEvents : ¬ Obligations.ContextEvents := by
  intro hall
  obtain ⟨-, -, -, hctx⟩ := hall wideCounted [] 0 0 oneNotice { cause := 0x14A } []
  obtain ⟨-, -, -, -, hdeliver⟩ := hctx rfl
  obtain ⟨hport, hmoves, hfree, htype, hsize, hwr⟩ := wideCounted_takes
  obtain ⟨t, hrun, hfind, -⟩ := hdeliver rfl hport rfl hmoves rfl hfree Nat.one_pos htype hsize hwr rfl rfl
  obtain ⟨u, hrun', hraised⟩ := noticeDelivery_wideCounted
  obtain rfl : t = u := by injection hrun.symm.trans hrun'
  rw [hfind] at hraised
  exact absurd hraised (by decide)

end Sys2Proof.Machine
end

section
/-! What a fault that halts a graph leaves behind, and O47 (R126, R264, R266, R276, R280). -/

namespace Sys2Proof.Machine

open State

/-! ### Cores that change one by one -/

namespace State

theorem core_modCore (s : State) (c d : Nat) (f : Core → Core) : (s.modCore c f).core d = if d = c then f (s.core d) else s.core d := by
  by_cases h : d = c
  · subst h; simp
  · simp [h]

/-- What no change of a core touches, a fold of such changes leaves in every core. -/
theorem foldl_modCore_keeps {α β : Type} (p : Core → β) {i : State → α → Nat} {f : State → α → Core → Core}
    (hf : ∀ s a k, p (f s a k) = p k) (l : List α) (s : State) (d : Nat) :
    p ((l.foldl (fun s a => s.modCore (i s a) (f s a)) s).core d) = p (s.core d) :=
  foldl_keeps (fun s => p (s.core d)) (fun s a => by rw [core_modCore]; split <;> simp [hf]) l s

/-! ### The record, the cores and the dump queue of a graph that stops (R126, R264) -/

@[simp] theorem haltNote_cause (s : State) (h : Nat) (n : Notice) : (s.haltNote h n).cause = n.cause := by
  unfold haltNote graphNotice; split <;> rfl
@[simp] theorem haltNote_detail (s : State) (h : Nat) (n : Notice) : (s.haltNote h n).detail = n.detail := by
  unfold haltNote graphNotice; split <;> rfl

/-- A secondary fault changes the dump engine's record of faults alone (R280). -/
theorem secondFault_eq (s : State) (h : Nat) (n : Notice) : ∃ d, s.secondFault h n = { s with dump := d } ∧ d.queue = s.dump.queue := by
  unfold secondFault
  split
  · exact ⟨_, rfl, rfl⟩
  · split
    · split <;> exact ⟨_, rfl, rfl⟩
    · exact ⟨_, rfl, rfl⟩

theorem completeAll_dump (s : State) (ws : List (Nat × Nat)) (f : Nat) : (s.completeAll ws f).dump = s.dump :=
  foldl_modCore_dump ..

theorem stopGraph_queue (s : State) (h : Nat) (g : Graph) (n : Notice) : (s.stopGraph h g n).dump.queue = s.dump.queue := by
  obtain ⟨d, he, hq⟩ := s.secondFault_eq h (s.haltNote h n)
  simp only [stopGraph, foldl_modCore_dump, completeAll_dump, he, hq]

/-- A graph that stops keeps the primary fault, and its cores (R126, R264). -/
theorem graph?_stopGraph (s : State) (h : Nat) (g : Graph) (n : Notice) : ∃ g', (s.stopGraph h g n).graph? h = some g' ∧
    g'.phase = .halted ∧ g'.cause = n.cause ∧ g'.primary = s.haltNote h n ∧ g'.cores = g.cores :=
  ⟨_, NMap.find_put_self .., rfl, rfl, rfl, rfl⟩

theorem core_stopGraph {s : State} {h c : Nat} {g : Graph} (n : Notice) (hg : s.graph? h = some g) (hc : c ∈ s.coresOf h) :
    ((s.stopGraph h g n).core c).run = .graphHalted := by
  have hfold := core_foldl_modCore (f := fun _ k => { k.leaveWait with run := .graphHalted }) (P := fun k => k.run = .graphHalted)
    (fun _ _ => rfl) ((mem_coresOf hg).1 hc) ((s.secondFault h (s.haltNote h n)).completeAll g.waiters n.cause)
  rwa [List.foldl_map] at hfold

@[simp] theorem leaveWait_regs (k : Core) : k.leaveWait.regs = k.regs := by
  unfold Core.leaveWait; split <;> rfl

theorem completeEntry_regs (s : State) (c q f v d : Nat) : ((s.completeEntry c q f v).core d).regs = (s.core d).regs := by
  rw [completeEntry, core_modCore]
  split
  · simp only
    split
    · split
      · unfold Core.wake; split <;> rfl
      · rfl
    · rfl
  · rfl

theorem stopGraph_regs (s : State) (h : Nat) (g : Graph) (n : Notice) (c : Nat) :
    ((s.stopGraph h g n).core c).regs = (s.core c).regs := by
  obtain ⟨d, he, -⟩ := s.secondFault_eq h (s.haltNote h n)
  calc ((s.stopGraph h g n).core c).regs
      = (((s.secondFault h (s.haltNote h n)).completeAll g.waiters n.cause).core c).regs :=
        foldl_modCore_keeps (i := fun _ (x : Nat × Nat) => x.2) (f := fun _ _ k => { k.leaveWait with run := .graphHalted }) Core.regs
          (fun _ _ k => leaveWait_regs k) ..
    _ = ((s.secondFault h (s.haltNote h n)).core c).regs :=
        foldl_keeps (fun s : State => (s.core c).regs) (fun s (w : Nat × Nat) => completeEntry_regs s w.1 w.2 n.cause 0 c) ..
    _ = (s.core c).regs := by rw [he]; rfl

/-! ### The halt of a graph, and its dump (R126, R264, R276) -/

/-- What notices do not change. -/
theorem eq_of_sansTold {s t : State} (h : s.sansTold = t.sansTold) :
    s.dump = t.dump ∧ s.host = t.host ∧ ∀ c, s.core c = t.core c :=
  ⟨(congrArg State.dump h :), (congrArg State.host h :), fun c => (congrArg (State.core · c) h :)⟩

/-- A graph has stopped, its supervisor and its egress ports have been told, and its dump is to be queued. -/
def stopTold (s : State) (h : Nat) (g : Graph) (n : Notice) : State :=
  ((((s.stopGraph h g n).notify (h / 2 ^ 28) (s.haltNote h n)).recordOutcome h n.cause).egressHalt h n.cause).unbindEgress h

theorem stopTold_graphs (s : State) (h : Nat) (g : Graph) (n : Notice) : (s.stopTold h g n).graphs = (s.stopGraph h g n).graphs := by
  simp [stopTold]

/-- The notices of a halt reach no core, no byte of memory and not the dump engine. -/
theorem sansTold_stopTold (s : State) (h : Nat) (g : Graph) (n : Notice) :
    (s.stopTold h g n).sansTold = (((s.stopGraph h g n).egressHalt h n.cause).unbindEgress h).sansTold := by
  have htold : (((s.stopGraph h g n).notify (h / 2 ^ 28) (s.haltNote h n)).recordOutcome h n.cause).sansTold =
      (s.stopGraph h g n).sansTold := by simp
  exact congrArg (fun t : State => (t.egressHalt h n.cause).unbindEgress h) htold

theorem stopTold_queue (s : State) (h : Nat) (g : Graph) (n : Notice) : (s.stopTold h g n).dump.queue = s.dump.queue := by
  obtain ⟨hd, -, -⟩ := eq_of_sansTold (sansTold_stopTold s h g n)
  rw [hd]; exact stopGraph_queue ..

theorem stopTold_core (s : State) (h : Nat) (g : Graph) (n : Notice) (c : Nat) :
    (s.stopTold h g n).core c = (s.stopGraph h g n).core c := by
  obtain ⟨-, -, hk⟩ := eq_of_sansTold (sansTold_stopTold s h g n)
  exact hk c

/-- No egress port stays bound to a graph that has stopped (R98). -/
theorem unbindEgress_unbound {s : State} {h p : Nat} {e : Egress} (hh : h ≠ 0) (he : (p, e) ∈ (s.unbindEgress h).host.egress) :
    e.graph ≠ h := by
  obtain ⟨⟨q, e'⟩, -, heq⟩ := List.mem_map.1 he
  by_cases hb : e'.graph = h
  · simp only [hb, hh, ne_eq, not_false_eq_true, decide_true, Bool.and_self, if_true, Prod.mk.injEq] at heq
    rw [← heq.2]; exact hh.symm
  · simp only [hb, decide_false, Bool.false_and, Bool.false_eq_true, if_false, Prod.mk.injEq] at heq
    rwa [← heq.2]

theorem queueDump_of_room {s : State} (h : Nat) (hq : s.dump.queue.length < 64) :
    s.queueDump h = { s with dump := { s.dump with queue := s.dump.queue ++ [h] } } := if_neg (Nat.not_le.2 hq)

theorem queueDump_of_full {s : State} (h : Nat) (hq : 64 ≤ s.dump.queue.length) :
    s.queueDump h = (s.notifyCopied h { cause := 0x17B }).release h := if_pos hq

@[simp] theorem sansTold_notifyCopied (s : State) (h : Nat) (n : Notice) : (s.notifyCopied h n).sansTold = s.sansTold := by
  simp [notifyCopied]

section
variable {s : State} {h : Nat} {g : Graph} (n : Notice) (hg : s.graph? h = some g) (hp : g.Haltable)
include hg hp

theorem haltGraph_eq_queueDump : s.haltGraph h n = ((s.stopTold h g n).queueDump h).settleHalt (h / 2 ^ 28) :=
  haltGraph_of_live n hg hp

theorem sansTold_haltGraph : (s.haltGraph h n).sansTold = ((s.stopTold h g n).queueDump h).sansTold := by
  rw [haltGraph_eq_queueDump n hg hp, sansTold_settleHalt]

theorem haltGraph_graph? : (s.haltGraph h n).graph? h = ((s.stopTold h g n).queueDump h).graph? h := by
  rw [haltGraph_eq_queueDump n hg hp, graph?, settleHalt_graphs]; rfl

section
variable (hq : s.dump.queue.length < 64)
include hq

/-- Where the graph joins the dump queue, its cores and the host's side stand as they did when it stopped. -/
theorem haltGraph_of_room : (s.haltGraph h n).dump.queue = s.dump.queue ++ [h] ∧
    (s.haltGraph h n).host = (s.stopTold h g n).host ∧ ∀ c, (s.haltGraph h n).core c = (s.stopGraph h g n).core c := by
  have htold := sansTold_haltGraph n hg hp
  rw [queueDump_of_room h (by rwa [stopTold_queue])] at htold
  obtain ⟨hd, hh, hk⟩ := eq_of_sansTold htold
  refine ⟨?_, hh, fun c => (hk c).trans (stopTold_core ..)⟩
  rw [hd, ← stopTold_queue s h g n]

/-- A graph that joins the dump queue keeps its cause and its primary fault (R264). -/
theorem haltGraph_record : ((s.haltGraph h n).graph? h).map (fun g => (g.phase, g.cause, g.primary.cause, g.primary.detail)) =
    some (Phase.halted, n.cause, n.cause, n.detail) := by
  obtain ⟨g', hf, hphase, hcause, hprim, -⟩ := graph?_stopGraph s h g n
  have hf' : (s.haltGraph h n).graph? h = some g' := by
    rw [haltGraph_graph? n hg hp, queueDump_of_room h (by rwa [stopTold_queue]), ← hf, graph?, stopTold_graphs, graph?]
  rw [hf', Option.map_some, hphase, hcause, hprim, haltNote_cause, haltNote_detail]

end

/-- With the dump queue full the graph has no dump, and gives up its cores (R276). -/
theorem haltGraph_releases (hq : 64 ≤ s.dump.queue.length) : (s.haltGraph h n).dump.queue = s.dump.queue ∧
    ∀ c, c ∈ s.coresOf h → ((s.haltGraph h n).core c).graph = 0 := by
  have htold := sansTold_haltGraph n hg hp
  rw [queueDump_of_full h (by rwa [stopTold_queue])] at htold
  obtain ⟨hd, -, hk⟩ := eq_of_sansTold htold
  obtain ⟨hd', -, -⟩ := eq_of_sansTold (sansTold_notifyCopied (s.stopTold h g n) h { cause := 0x17B })
  obtain ⟨g', hf, -, -, -, hcores⟩ := graph?_stopGraph s h g n
  have hf' : ((s.stopTold h g n).notifyCopied h { cause := 0x17B }).graph? h = some g' := by
    rw [graph?, notifyCopied_graphs, stopTold_graphs]; exact hf
  refine ⟨by rw [hd, release_dump, hd', stopTold_queue], fun c hc => ?_⟩
  rw [hk]
  exact (core_release hf' ((mem_coresOf hf').2 (hcores ▸ (mem_coresOf hg).1 hc))).1

end

theorem phase_of_verdict {s : State} {h : Nat} {v : Phase × Nat} (hv : s.verdict h = some v) :
    (s.graph? h).map Graph.phase = some v.1 := by
  obtain ⟨g, hg, rfl⟩ := Option.map_eq_some_iff.1 hv
  rw [hg]; rfl

/-- A further fault of a halted graph joins its list, and changes neither its primary fault nor a core (R266). -/
theorem haltGraph_records {s : State} {h : Nat} {g : Graph} (n : Notice) (hg : s.graph? h = some g) (hp : g.phase = .halted)
    (hf : g.faults.length < 64) : (s.haltGraph h n).cores = s.cores ∧
      ∃ g', (s.haltGraph h n).graph? h = some g' ∧ g'.primary = g.primary ∧ g'.faults.length = g.faults.length + 1 := by
  rw [haltGraph_of_halted n hg hp]
  obtain ⟨d, he, -⟩ :=
    secondFault_eq (s.modGraph h fun g => { g with faults := (g.faults ++ [s.haltNote h n]).take 64 }) h (s.haltNote h n)
  rw [he]
  exact ⟨(congrArg State.cores (sansTold_modGraph s h _) :), _, graph?_modGraph hg _, rfl, by simp; omega⟩

end State

/-- Settles O47: a running graph stops, is told of, and joins the dump queue or gives up what it holds; a halted one records the fault. -/
theorem fatalFaultHaltsGraph : Obligations.FatalFaultHaltsGraph := by
  unfold Obligations.FatalFaultHaltsGraph
  intro s h g n t hg
  refine ⟨fun hp hq => ?_, fun hp hq => ?_, fun hp hf => ?_⟩
  · have hl : g.Haltable := .inr (.inr (.inl hp))
    obtain ⟨hqueue, hhost, hcore⟩ := haltGraph_of_room n hg hl hq
    refine ⟨haltGraph_record n hg hl hq, hqueue, (onlyGraph_haltGraph s h n).1, fun c hc => ?_, fun hh p e he => ?_, fun c => ?_⟩
    · rw [hcore]; exact core_stopGraph n hg hc
    · rw [hhost] at he; exact unbindEgress_unbound hh he
    · rw [hcore]; exact stopGraph_regs s h g n c
  · have hl : g.Haltable := .inr (.inr (.inl hp))
    obtain ⟨hqueue, hfree⟩ := haltGraph_releases n hg hl hq
    exact ⟨phase_of_verdict (verdict_haltGraph_of_live n hg hl), hqueue, hfree⟩
  · obtain ⟨hcores, g', hg', hprim, hlen⟩ := haltGraph_records n hg hp hf
    exact ⟨(onlyGraph_haltGraph s h n).1, hcores, by rw [hg', Option.map_some, hprim], by rw [hg', Option.map_some, hlen]⟩

end Sys2Proof.Machine
end

section
/-! Firings that start, and actors that drain (R121, R122, R136). -/

namespace Sys2Proof.Machine

open State

theorem fld_lt {n : Nat} (x : BitVec n) (hi lo : Nat) : fld x hi lo < 2 ^ (hi + 1 - lo) := Nat.mod_lt _ (Nat.two_pow_pos _)

/-! ### The entry that the sequencer serves (R120, R121, R136) -/

/-- The sequencer passes over the entries of drained actors (R136). -/
theorem seekHead_live {s : State} {c fuel : Nat} {p q : Nat × Nat} (h : seekHead s c fuel p = some q) :
    fld (firingEntry s c (segFirst s c (s.core c).rset + q.1)) 30 28 ∉ (s.core c).drainedActors := by
  induction fuel generalizing p with
  | zero => simp [seekHead] at h
  | succ fuel ih =>
    simp only [seekHead] at h
    split at h
    · exact ih h
    · next hlive =>
      obtain rfl : p = q := Option.some.inj h
      simpa using hlive

theorem headEntry_live {s : State} {c : Nat} {p : Nat × Nat} {w : Word32} (h : headEntry s c = some (p, w)) :
    fld w 30 28 ∉ (s.core c).drainedActors := by
  simp only [headEntry] at h
  split at h
  · simp at h
  · split at h
    · simp at h
    · next q hq =>
      split at h
      · obtain ⟨rfl, rfl⟩ := Prod.mk.inj (Option.some.inj h)
        exact seekHead_live hq
      · simp at h

/-! ### Firings start (R121, R122) -/

theorem canFire_iff {s : State} {c a ph : Nat} : canFire s c a ph = true ↔ ∀ k < 16,
    rateOf s c a (s.core c).rset ph k ≤ tokensAt s c a k ∧ (rateOf s c a (s.core c).rset ph (16 + k) ≠ 0 →
      spaceFor s c a (16 + k) (rateOf s c a (s.core c).rset ph (16 + k)) = true) := by
  simp [canFire, imp_iff_not_or]

theorem sequencerUe_of_unmarked {s : State} (h : s.ecc.marks = []) (c e a : Nat) : sequencerUe s c e a = none := by
  simp only [sequencerUe, ueAt_of_unmarked h]

section
variable {s : State} {c : Nat} {p : Nat × Nat} {w : Word32} (hseq : sequencing s c = true) (hhead : headEntry s c = some (p, w))
include hseq hhead

theorem firingStart_eq (hm : s.ecc.marks = []) : exec (.firingStart c) s =
    .next (if mayBegin (s.core c) p.2 && canFire s c (fld w 30 28) (fld w 27 24)
      then startFiring s c p (fld w 30 28) (fld w 27 24) else s) := by
  simp only [exec_firingStart, execFiringStart, hseq, hhead, sequencerUe_of_unmarked hm, Bool.not_true, Bool.false_eq_true, if_false]

theorem firingStart_starts (hm : s.ecc.marks = []) (hb : mayBegin (s.core c) p.2 = true)
    (hf : canFire s c (fld w 30 28) (fld w 27 24) = true) :
    exec (.firingStart c) s = .next (startFiring s c p (fld w 30 28) (fld w 27 24)) := by
  simp [firingStart_eq hseq hhead hm, hb, hf]

/-- Without the tokens or the space that its entry asks for no firing starts (R121). -/
theorem firingStart_waits (hm : s.ecc.marks = []) (hf : canFire s c (fld w 30 28) (fld w 27 24) = false) :
    exec (.firingStart c) s = .next s := by
  simp [firingStart_eq hseq hhead hm, hf]

theorem actorDrain_drains (hd : isDrained s c (fld w 30 28) (fld w 27 24) = true) (hh : drainHeld s c (fld w 30 28) = false) :
    exec (.actorDrain c) s = .next (drainActor s c (fld w 30 28)) := by
  simp only [exec_actorDrain, execActorDrain, hseq, hhead, hd, hh, Bool.not_true, Bool.false_eq_true, if_false, Bool.not_false,
    Bool.and_self, if_true]

end

/-- A start of a firing clears the counts of the actor's ports, and touches those of no other (R121, R124). -/
theorem port_startFiring (s : State) (c : Nat) (p : Nat × Nat) (a ph b q : Nat) :
    ((startFiring s c p a ph).core c).port b (q % 32) =
      if b = a then { (s.core c).port b (q % 32) with cnt := 0, hold := none } else (s.core c).port b (q % 32) := by
  have hb : (b * 32 + q % 32) / 32 = b := by omega
  rw [startFiring, core_modCore_self, Core.port, Core.port, NMap.getD_eq, NMap.getD_eq,
    NMap.find_map (by intro x; dsimp only; split <;> rfl)]
  cases NMap.find (s.core c).ports (b * 32 + q % 32) with
  | none => simp
  | some x => simp only [Option.map_some, Option.getD_some, hb]; split <;> rfl

/-- What sr.phase says once a firing has started (R122). -/
theorem phase_startFiring (s : State) (c : Nat) (p : Nat × Nat) (a : Nat) {ph : Nat} (hph : ph < 16) :
    let x := ((startFiring s c p a ph).core c).phase
    fld x 3 0 = ph ∧ bitAt x 63 = true ∧ fld x 10 8 = (s.core c).rset := by
  have hr : (s.core c).rset < 8 := fld_lt ..
  simp only [startFiring, core_modCore_self]
  rw [fld_ofNat (by omega), fld_ofNat (by omega)]
  refine ⟨by omega, ?_, by omega⟩
  rw [bitAt, BitVec.getLsbD_ofNat, Nat.testBit_eq_decide_div_mod_eq]
  simp; omega

/-- What sr.actor says once a firing has started (R122). -/
theorem actor_startFiring (s : State) (c : Nat) (p : Nat × Nat) {a : Nat} (ha : a < 8) (ph : Nat) :
    let x := ((startFiring s c p a ph).core c).actor
    fld x 2 0 = a ∧ fld x 63 16 = max (s.core c).period (p.2 + 1) % 2 ^ 48 := by
  simp only [startFiring, core_modCore_self]
  rw [fld_ofNat (by omega), fld_ofNat (by omega)]
  omega

/-! ### Actors drain (R136) -/

theorem isDrained_of {s : State} {c a ph j : Nat}
    (hd : ∀ q, q < 16 → rateOf s c a (s.core c).rset ph q ≠ 0 → drainAt s c a q = true) (hj : j < 16)
    (ht : tokensAt s c a j < rateOf s c a (s.core c).rset ph j) : isDrained s c a ph = true := by
  have hneed : j ∈ needed s c a ph := by simp [needed, hj]; omega
  have hall : ∀ q ∈ needed s c a ph, drainAt s c a q = true := fun q hq => by
    simp only [needed, List.mem_filter, List.mem_range, bne_iff_ne] at hq
    exact hd q hq.1 hq.2
  simp only [isDrained, Bool.and_eq_true, List.all_eq_true, List.any_eq_true, decide_eq_true_eq]
  exact ⟨hall, j, hneed, ht⟩

/-- A core but for its windows' descriptors and what is on its way from them. -/
def Core.sansTokens (k : Core) : Core := { k with descs := [], outMsgs := [], mirrors := [] }

/-- What the drain of an actor does not touch but for its own core: the graphs' records and the package's number. -/
def unsent (s : State) : NMap Graph × Nat := (s.graphs, s.links.pkg)

theorem unsent_sendOn (s : State) (c i : Nat) (m : PtrMsg) : unsent (sendOn s c i m) = unsent s := by
  unfold sendOn; simp only; split <;> rfl

theorem sansTokens_sendOn (s : State) (c i : Nat) (m : PtrMsg) (d : Nat) :
    ((sendOn s c i m).core d).sansTokens = (s.core d).sansTokens := by
  unfold sendOn
  simp only
  split
  · rw [core_modCore]; split <;> rfl
  · rfl
  · rfl

theorem unsent_drainOne (c : Nat) (s : State) (i : Nat) : unsent (drainOne c s i) = unsent s := unsent_sendOn ..

theorem sansTokens_drainOne (c : Nat) (s : State) (i d : Nat) : ((drainOne c s i).core d).sansTokens = (s.core d).sansTokens := by
  rw [drainOne, sansTokens_sendOn, core_modCore]; split <;> rfl

theorem unsent_sendDrain (s : State) (c a p : Nat) : unsent (sendDrain s c a p) = unsent s :=
  foldl_keeps unsent (unsent_drainOne c) ..

/-- A port that sends its drain token remembers that it has (R136). -/
theorem sansTokens_sendDrain (s : State) (c a p : Nat) : ((sendDrain s c a p).core c).sansTokens =
    ((s.core c).setPort a p { (s.core c).port a p with drained := true }).sansTokens :=
  (foldl_keeps (fun s : State => (s.core c).sansTokens) (fun s i => sansTokens_drainOne c s i c) ..).trans
    (congrArg Core.sansTokens (core_modCore_self ..))

theorem unsent_discardResidue (c a : Nat) (s : State) (p : Nat) : unsent (discardResidue c a s p) = unsent s := by
  unfold discardResidue
  split
  · rfl
  · simp only
    split
    · rfl
    · simp [unsent]

theorem sansTokens_discardResidue (c a : Nat) (s : State) (p : Nat) :
    ((discardResidue c a s p).core c).sansTokens = (s.core c).sansTokens := by
  unfold discardResidue
  split
  · rfl
  · simp only
    split
    · rfl
    · obtain ⟨-, -, hk⟩ := eq_of_sansTold (sansTold_notifyGraph ..)
      rw [hk, core_modCore_self]
      rfl

theorem drained_sendDrain {s : State} {c a q : Nat} (p : Nat) (h : q = p ∨ ((s.core c).port a q).drained = true) :
    (((sendDrain s c a p).core c).port a q).drained = true := by
  have hk := congrArg (Core.port · a q) (sansTokens_sendDrain s c a p)
  change ((sendDrain s c a p).core c).port a q = ((s.core c).setPort a p _).port a q at hk
  rw [hk, Core.setPort, Core.port, NMap.getD_put]
  split
  · rfl
  · next hne => exact h.resolve_left fun he => hne (by rw [he])

/-- An actor's residue is gone and its ports have sent their drain tokens (R136). -/
def drainSent (s : State) (c a : Nat) : State :=
  (List.range 16).foldl (fun s n => sendDrain s c a (16 + n)) ((List.range 16).foldl (discardResidue c a) s)

theorem unsent_drainSent (s : State) (c a : Nat) : unsent (drainSent s c a) = unsent s :=
  (foldl_keeps unsent (fun s n => unsent_sendDrain s c a (16 + n)) ..).trans (foldl_keeps unsent (unsent_discardResidue c a) ..)

/-- The graph of a core and its place there. -/
def Core.seat (k : Core) : Nat × Nat := (k.graph, k.lcore)

/-- A core keeps its graph and its place while an actor of it drains. -/
theorem seat_drainSent (s : State) (c a : Nat) : ((drainSent s c a).core c).seat = (s.core c).seat :=
  (foldl_keeps (fun s : State => (s.core c).seat) (fun s n => (congrArg Core.seat (sansTokens_sendDrain s c a (16 + n)) :)) ..).trans
    (foldl_keeps (fun s : State => (s.core c).seat) (fun s p => (congrArg Core.seat (sansTokens_discardResidue c a s p) :)) ..)

theorem drained_drainSent (s : State) (c a : Nat) {q : Nat} (h1 : 16 ≤ q) (h2 : q < 32) :
    (((drainSent s c a).core c).port a q).drained = true := by
  unfold drainSent
  generalize (List.range 16).foldl (discardResidue c a) s = u
  refine foldl_reaches (f := fun s n => sendDrain s c a (16 + n)) (P := fun _ => True)
    (Q := fun t => ((t.core c).port a q).drained = true) (h := q - 16) (fun _ _ _ _ => trivial)
    (fun s _ => drained_sendDrain _ (.inl (by omega))) (fun s n hd => drained_sendDrain _ (.inr hd)) (List.mem_range.2 (by omega)) trivial

theorem drainActor_eq (s : State) (c a : Nat) : drainActor s c a =
    sinkReached ((drainSent s c a).modCore c fun k => { k with drainedActors := a :: k.drainedActors }) c a := rfl

theorem sinkReached_of_notSink {s : State} {c a i : Nat} {g : Graph} (hg : s.graph? (s.core c).graph = some g)
    (hi : actorIndex s c a = some i) (hs : (sinkList s g.img).contains i = false) : sinkReached s c a = s := by
  simp only [sinkReached, hg, hi, hs, Bool.false_and, Bool.false_eq_true, if_false]

theorem sinkList_congr {s t : State} (h : t.links.pkg = s.links.pkg) (img : List Byte) : sinkList t img = sinkList s img := by
  simp only [sinkList, actorHere, h]

theorem actorIndex_congr {s t : State} {c : Nat} (hg : t.graphs = s.graphs) (hk : (t.core c).graph = (s.core c).graph)
    (hl : (t.core c).lcore = (s.core c).lcore) (a : Nat) : actorIndex t c a = actorIndex s c a := by
  simp only [actorIndex, graph?, hg, hk, hl]

/-- An actor that drains and is no sink leaves the sequencer, its ports' drain tokens sent (R136). -/
theorem drainActor_drains {s : State} {c a i : Nat} {g : Graph} (hg : s.graph? (s.core c).graph = some g)
    (hi : actorIndex s c a = some i) (hs : (sinkList s g.img).contains i = false) :
    a ∈ ((drainActor s c a).core c).drainedActors ∧
      ∀ q, 16 ≤ q → q < 32 → (((drainActor s c a).core c).port a q).drained = true := by
  obtain ⟨hgraphs, hpkg⟩ := Prod.mk.inj (unsent_drainSent s c a)
  obtain ⟨hgr, hlc⟩ := Prod.mk.inj (seat_drainSent s c a)
  have hdrained : ∀ q, 16 ≤ q → q < 32 → (((drainSent s c a).core c).port a q).drained = true := fun q => drained_drainSent s c a
  rw [drainActor_eq]
  generalize drainSent s c a = u at hgraphs hpkg hgr hlc hdrained
  rw [sinkReached_of_notSink (g := g) (i := i), core_modCore_self]
  · exact ⟨List.mem_cons_self, hdrained⟩
  · rw [core_modCore_self, hgr, ← hg, graph?, graph?, modCore_graphs, hgraphs]
  · refine (actorIndex_congr (s := s) ?_ ?_ ?_ a).trans hi
    · exact hgraphs
    · rw [core_modCore_self]; exact hgr
    · rw [core_modCore_self]; exact hlc
  · rw [← hs, sinkList_congr hpkg.symm]
    rfl

end Sys2Proof.Machine
end

section
/-! Mode switches of a graph, and O38 (R135, R137). -/

namespace Sys2Proof.Machine

open State

/-! ### The largest of a list -/

theorem foldl_max_mem (l : List Nat) (a : Nat) : l.foldl max a ∈ a :: l := by
  induction l generalizing a with
  | nil => simp
  | cons b l ih =>
    have hab : max a b = a ∨ max a b = b := by omega
    have h := ih (max a b)
    simp only [List.foldl_cons, List.mem_cons] at h ⊢
    rcases hab with he | he <;> rw [he] at h ⊢ <;> tauto

theorem foldl_max_le {l : List Nat} {a m : Nat} : l.foldl max a ≤ m ↔ a ≤ m ∧ ∀ p ∈ l, p ≤ m := by
  induction l generalizing a with
  | nil => simp
  | cons b l ih => simp [ih, and_assoc]

/-! ### Changes of one graph, and of its cores one by one -/

/-- A change of a graph that stands in the state. -/
theorem modGraph_of_find {s : State} {h : Nat} {g : Graph} (hg : s.graph? h = some g) (f : Graph → Graph) :
    s.modGraph h f = { s with graphs := NMap.put s.graphs h (f g) } := by
  simp only [modGraph, hg]

/-- A change that is made of each core of a graph, and that made again changes no more. -/
theorem core_foldl_modCore_idem {f : Core → Core} (hf : ∀ k, f (f k) = f k) (l : List (Nat × Nat)) (s : State) (d : Nat) :
    (l.foldl (fun s x => s.modCore x.2 f) s).core d = if d ∈ l.map Prod.snd then f (s.core d) else s.core d := by
  induction l generalizing s with
  | nil => simp
  | cons x l ih =>
    rw [List.foldl_cons, ih, core_modCore]
    by_cases hx : d = x.2 <;> by_cases hl : d ∈ l.map Prod.snd <;> simp [hx, hl, hf]

theorem otherPackages_congr {s t : State} {g g' : Graph} (hp : t.links.pkg = s.links.pkg) (hi : g'.img = g.img) :
    otherPackages t g' = otherPackages s g := by
  simp only [otherPackages, hp, hi]

/-! ### The sender of a mode token (R369) -/

@[simp] theorem tellSender_graphs (s : State) (who seq out : Nat) : (tellSender s who seq out).graphs = s.graphs := by
  unfold tellSender; split <;> rfl

@[simp] theorem seqMode_tellSender (s : State) (who seq out d : Nat) :
    ((tellSender s who seq out).core d).seqMode = (s.core d).seqMode := by
  unfold tellSender
  split
  · rfl
  · rw [core_modCore]
    split
    · split <;> rfl
    · rfl

/-- The core whose last MODE sent the token learns its outcome. -/
theorem modeRes_tellSender {s : State} {who seq : Nat} (hw : who ≠ 0) (ht : (s.core (who - 1)).modeTok.isSome = true)
    (hs : (s.core (who - 1)).modeSeq = seq) (out : Nat) : ((tellSender s who seq out).core (who - 1)).modeRes = some out := by
  simp [tellSender, hw, ht, hs]

/-! ### The hold (R135, step 2) -/

/-- The mode controller's record of a graph that holds for a rate set, its sequencers having begun m periods at most. -/
def Graph.heldFor (g : Graph) (m set who tok seq : Nat) : Graph :=
  { g with
    modeCtl := { g.modeCtl with step := 2, set := set, target := m, sender := who, token := tok, seq := seq }
    peers := { g.peers with begun := [], stopped := [] } }

/-- How a sequencer stands at the hold: it has reported the periods it has begun. -/
def Core.holds (k : Core) : Core := { k with seqMode := { holding := true, reported := some k.period } }

theorem holdMode_eq (s : State) (h set who tok seq : Nat) (g : Graph) : holdMode s h set who tok seq g =
    (g.cores.foldl (fun s x => s.modCore x.2 Core.holds) s).modGraph h fun g => g.heldFor (periodsBegun s h g) set who tok seq := rfl

theorem graph?_holdMode {s : State} {h : Nat} {g : Graph} (hg : s.graph? h = some g) (set who tok seq : Nat) (g' : Graph) :
    (holdMode s h set who tok seq g').graph? h = some (g.heldFor (periodsBegun s h g) set who tok seq) := by
  rw [holdMode_eq]
  exact graph?_modGraph (by rw [graph?, foldl_modCore_graphs]; exact hg) _

theorem holdMode_pkg (s : State) (h set who tok seq : Nat) (g : Graph) :
    (holdMode s h set who tok seq g).links.pkg = s.links.pkg := by
  rw [holdMode_eq, modGraph_links, foldl_modCore_links]

theorem core_holdMode (s : State) (h set who tok seq : Nat) (g : Graph) (d : Nat) : (holdMode s h set who tok seq g).core d =
    if d ∈ g.cores.map Prod.snd then (s.core d).holds else s.core d := by
  rw [holdMode_eq, core_modGraph, core_foldl_modCore_idem (f := Core.holds) fun _ => rfl]

/-! ### The target (R135, step 3) -/

/-- The mode controller's record of a graph whose sequencers have the target. -/
def Graph.targeted (g : Graph) (m : Nat) : Graph := { g with modeCtl := { g.modeCtl with step := 4, target := m } }

/-- A sequencer learns the target. -/
def Core.aims (m : Nat) (k : Core) : Core := { k with seqMode := { k.seqMode with target := some m } }

theorem targetMode_eq (s : State) (h m : Nat) (g : Graph) : targetMode s h m g =
    (g.cores.foldl (fun s x => s.modCore x.2 (Core.aims m)) s).modGraph h fun g => g.targeted m := rfl

theorem core_targetMode (s : State) (h m : Nat) (g : Graph) (d : Nat) : (targetMode s h m g).core d =
    if d ∈ g.cores.map Prod.snd then (s.core d).aims m else s.core d := by
  rw [targetMode_eq, core_modGraph, core_foldl_modCore_idem (f := Core.aims m) fun _ => rfl]

section
variable {s : State} {h : Nat} {g : Graph} (hg : s.graph? h = some g)
include hg

theorem graph?_targetMode (m : Nat) (g' : Graph) : (targetMode s h m g').graph? h = some (g.targeted m) := by
  rw [targetMode_eq]
  exact graph?_modGraph (by rw [graph?, foldl_modCore_graphs]; exact hg) _

variable (hb : g.peers.begun = [])
include hb

/-- While another package has not reported the target is not set (R135). -/
theorem settleTarget_waits (ho : otherPackages s g ≠ []) : settleTarget s h = s := by
  obtain ⟨p, l, hl⟩ := List.exists_cons_of_ne_nil ho
  simp [settleTarget, hg, hb, hl]

theorem settleTarget_settles (hs : g.modeCtl.step = 2) (ho : otherPackages s g = []) : settleTarget s h =
    tellSender (targetMode s h g.modeCtl.target g) g.modeCtl.sender g.modeCtl.seq (modeOutcome g.modeCtl.target g.modeCtl.token 0) := by
  simp [settleTarget, hg, hb, hs, ho]

end

/-! ### A mode token is taken (R135, R137) -/

/-- The mode controller has taken the oldest token of its port. -/
def Graph.took (rest : List (Nat × Nat × Nat)) (g : Graph) : Graph := { g with modeCtl := { g.modeCtl with waiting := rest } }

/-- The periods that the sequencers and memory actors of a graph on this package have begun (R135). -/
def begunList (s : State) (h : Nat) (g : Graph) : List Nat :=
  (g.cores.map fun x => (s.core x.2).period) ++ (enginesOf s h).map fun x => enginePeriods g x.2

theorem periodsBegun_took {s : State} {h : Nat} {g : Graph} (hg : s.graph? h = some g) (rest : List (Nat × Nat × Nat)) :
    periodsBegun (s.modGraph h (Graph.took rest)) h (g.took rest) = (begunList s h g).foldl max 0 := by
  rw [modGraph_of_find hg]; rfl

section
variable {s : State} {h : Word32} {g : Graph} {tok who seq : Nat} {rest : List (Nat × Nat × Nat)}
  (hg : s.graph? h.toNat = some g) (hp : g.phase = .running) (hw : g.modeCtl.waiting = (tok, who, seq) :: rest)
  (hc : g.cutSince = none) (hs : g.modeCtl.step = 0) (hl : g.coord = none)
  (hr : who ≠ 0 → releaseHeld s (who - 1) .deck seq false = false)
include hg hp hw hc hs hl hr

theorem modeTokenAccept_eq : exec (.modeTokenAccept h) s = .next (
    if nSets g.img ≤ tok % 8 then
      tellSender ((s.modGraph h.toNat (Graph.took rest)).notifyGraph h.toNat { cause := 0x070 }) who seq (modeOutcome 0 tok 0x070)
    else settleTarget (holdMode (s.modGraph h.toNat (Graph.took rest)) h.toNat (tok % 8) who tok seq g) h.toNat) := by
  have hheld : modeHeld s g (tok, who, seq) = false := by
    by_cases h0 : who = 0
    · simp [modeHeld, h0]
    · simp [modeHeld, hl, hr h0]
  simp only [exec_modeTokenAccept, execModeTokenAccept, hg, hw, hp, hc, hs, hl, hheld, ne_eq, not_true_eq_false, Option.isSome_none,
    Bool.false_eq_true, or_self, if_false]
  rfl

/-- With other packages in the graph every sequencer here holds, until they have reported (R135). -/
theorem modeTokenAccept_holds (hset : tok % 8 < nSets g.img) (ho : otherPackages s g ≠ []) : ∃ t,
    exec (.modeTokenAccept h) s = .next t ∧
      t.graph? h.toNat = some ((g.took rest).heldFor ((begunList s h.toNat g).foldl max 0) (tok % 8) who tok seq) ∧
      ∀ q, q ∈ s.coresOf h.toNat → t.core q = (s.core q).holds := by
  have hg1 : (s.modGraph h.toNat (Graph.took rest)).graph? h.toNat = some (g.took rest) := graph?_modGraph hg _
  have hhold := graph?_holdMode hg1 (tok % 8) who tok seq g
  have ho' : otherPackages (holdMode (s.modGraph h.toNat (Graph.took rest)) h.toNat (tok % 8) who tok seq g)
      ((g.took rest).heldFor (periodsBegun (s.modGraph h.toNat (Graph.took rest)) h.toNat (g.took rest)) (tok % 8) who tok seq) =
      otherPackages s g := otherPackages_congr (by rw [holdMode_pkg, modGraph_links]) rfl
  refine ⟨_, (modeTokenAccept_eq hg hp hw hc hs hl hr).trans (congrArg _ (if_neg (Nat.not_le.2 hset))), ?_, fun q hq => ?_⟩ <;>
    rw [settleTarget_waits hhold rfl (ho'.trans_ne ho)]
  · rw [hhold, periodsBegun_took hg]
  · rw [core_holdMode, if_pos ((mem_coresOf hg).1 hq), core_modGraph]

/-- A graph on this package alone has its target at once, and the sender of the token its outcome (R135, R369). -/
theorem modeTokenAccept_settles (hset : tok % 8 < nSets g.img) (ho : otherPackages s g = []) : ∃ t,
    let m := (begunList s h.toNat g).foldl max 0
    exec (.modeTokenAccept h) s = .next t ∧
      t.graph? h.toNat = some (((g.took rest).heldFor m (tok % 8) who tok seq).targeted m) ∧
      (∀ q, q ∈ s.coresOf h.toNat → (t.core q).seqMode = ((s.core q).holds.aims m).seqMode) ∧
      (who ≠ 0 → (s.core (who - 1)).modeTok.isSome = true → (s.core (who - 1)).modeSeq = seq →
        (t.core (who - 1)).modeRes = some (modeOutcome m tok 0)) := by
  have hg1 : (s.modGraph h.toNat (Graph.took rest)).graph? h.toNat = some (g.took rest) := graph?_modGraph hg _
  have hhold := graph?_holdMode hg1 (tok % 8) who tok seq g
  have hcore := core_holdMode (s.modGraph h.toNat (Graph.took rest)) h.toNat (tok % 8) who tok seq g
  have hpkg := holdMode_pkg (s.modGraph h.toNat (Graph.took rest)) h.toNat (tok % 8) who tok seq g
  rw [periodsBegun_took hg] at hhold
  refine ⟨_, (modeTokenAccept_eq hg hp hw hc hs hl hr).trans (congrArg _ (if_neg (Nat.not_le.2 hset))), ?_⟩
  generalize holdMode (s.modGraph h.toNat (Graph.took rest)) h.toNat (tok % 8) who tok seq g = u at hhold hcore hpkg
  rw [settleTarget_settles hhold rfl rfl ((otherPackages_congr (by rw [hpkg, modGraph_links]) rfl).trans ho)]
  simp only [core_modGraph] at hcore
  have htarget : ∀ d, (targetMode u h.toNat ((begunList s h.toNat g).foldl max 0)
      ((g.took rest).heldFor ((begunList s h.toNat g).foldl max 0) (tok % 8) who tok seq)).core d =
        if d ∈ g.cores.map Prod.snd then (s.core d).holds.aims ((begunList s h.toNat g).foldl max 0) else s.core d := fun d => by
    rw [core_targetMode, hcore]
    change (if d ∈ g.cores.map Prod.snd then _ else _) = _
    split <;> rfl
  refine ⟨?_, fun q hq => ?_, fun h0 ht hq => modeRes_tellSender h0 ?_ ?_ _⟩
  · rw [graph?, tellSender_graphs]
    exact graph?_targetMode hhold _ _
  · rw [seqMode_tellSender]
    exact congrArg Core.seqMode ((htarget q).trans (if_pos ((mem_coresOf hg).1 hq)))
  · exact (congrArg (fun k : Core => k.modeTok.isSome) (htarget _)).trans (by split <;> exact ht)
  · exact (congrArg Core.modeSeq (htarget _)).trans (by split <;> exact hq)

end

/-! ### The switch (R135, steps 4 to 6) -/

/-- A package's report that it has stopped joins the record of a graph, once. -/
def Graph.notedStopped (pkg : Nat) (g : Graph) : Graph :=
  { g with peers := { g.peers with
      stopped := if g.peers.stopped.any fun x => x.1 == pkg then g.peers.stopped else g.peers.stopped ++ [(pkg, g.gtime)] } }

theorem noteStopped_eq (s : State) (h pkg : Nat) : noteStopped s h pkg = s.modGraph h (Graph.notedStopped pkg) := rfl

/-- This package coordinates a graph of which every other package has stopped. -/
def OthersStopped (s : State) (g : Graph) : Prop :=
  g.coord = none ∧ ∀ p, p ∈ otherPackages s g → ∃ x, x ∈ g.peers.stopped ∧ x.1 = p

/-- This package's own report does not bear on those of the others. -/
theorem any_notedStopped {g : Graph} {pkg p : Nat} (hp : p ≠ pkg) :
    ((g.notedStopped pkg).peers.stopped.any fun x => x.1 == p) = g.peers.stopped.any fun x => x.1 == p := by
  simp only [Graph.notedStopped]
  split
  · rfl
  · simp [hp.symm]

theorem othersStopped_iff {s : State} {g : Graph} : (g.coord.isNone && (otherPackages s g).all fun p =>
    (g.notedStopped s.links.pkg).peers.stopped.any fun x => x.1 == p) = true ↔ OthersStopped s g := by
  have hother : ∀ p ∈ otherPackages s g, p ≠ s.links.pkg := fun p hp => by
    unfold otherPackages at hp
    split at hp
    · simpa using (List.mem_filter.1 hp).2
    · simp at hp
  rw [Bool.and_eq_true, Option.isNone_iff_eq_none, List.all_eq_true, OthersStopped]
  refine and_congr_right fun _ => forall_congr' fun p => forall_congr' fun hp => ?_
  rw [any_notedStopped (hother p hp)]
  simp

/-- A switch does not begin outside step 4. -/
theorem settleSwitch_idle {s : State} {h : Nat} (hs : ∀ g, s.graph? h = some g → g.modeCtl.step ≠ 4) : settleSwitch s h = s := by
  unfold settleSwitch
  split
  · rfl
  · next g hg => simp [hs g hg]

section
variable {s : State} {h : Nat} {g : Graph} (hg : s.graph? h = some g)
include hg

theorem settleSwitch_waits (hw : g.modeCtl.step ≠ 4 ∨ quiescent s h g = false) : settleSwitch s h = s := by
  simp only [settleSwitch, hg]
  rw [if_pos (.inr hw)]

variable (hp : g.phase = .running) (hs : g.modeCtl.step = 4) (hq : quiescent s h g = true)
include hp hs hq

/-- A window that does not stand at its ante halts the graph with MODE.14. -/
theorem settleSwitch_halts (hw : windowsAnte s h = false) : settleSwitch s h = s.haltCopied h { cause := 0x07E } := by
  simp [settleSwitch, hg, hp, hs, hq, hw]

variable (hw : windowsAnte s h = true)
include hw

theorem settleSwitch_notes (ho : ¬OthersStopped s g) : settleSwitch s h = noteStopped s h s.links.pkg := by
  have hnote : (noteStopped s h s.links.pkg).graph? h = some (g.notedStopped s.links.pkg) := graph?_modGraph hg _
  simp only [settleSwitch, hg, hp, hs, hq, hw, hnote, if_neg (mt othersStopped_iff.1 ho)]
  simp

theorem settleSwitch_switches (ho : OthersStopped s g) :
    settleSwitch s h = switchSet (noteStopped s h s.links.pkg) h (g.notedStopped s.links.pkg) := by
  have hnote : (noteStopped s h s.links.pkg).graph? h = some (g.notedStopped s.links.pkg) := graph?_modGraph hg _
  simp only [settleSwitch, hg, hp, hs, hq, hw, hnote, if_pos (othersStopped_iff.2 ho)]
  simp

end

/-- How a sequencer stands when the new rate set is in force. -/
def Core.switched (set : Nat) (k : Core) : Core :=
  { k with
    phase := BitVec.ofNat 64 (setBits k.phase.toNat 10 8 set), actor := BitVec.ofNat 64 (setBits k.actor.toNat 63 16 0)
    head := 0, round := 0, seqMode := {} }

theorem rset_switched (set : Nat) (k : Core) : (k.switched set).rset = set % 8 := by
  have := k.phase.isLt
  simp only [Core.rset, Core.switched, setBits, bitsOf, Nat.shiftRight_eq_div_pow]
  rw [fld_ofNat (by omega)]
  omega

theorem period_switched (set : Nat) (k : Core) : (k.switched set).period = 0 := by
  have := k.actor.isLt
  simp only [Core.period, Core.switched, setBits, bitsOf, Nat.shiftRight_eq_div_pow]
  rw [fld_ofNat (by omega)]
  omega

/-- The sequencers and memory actors of a graph begin a rate set's segment (R135, step 6). -/
def restarted (s : State) (h set : Nat) (cores : List (Nat × Nat)) : State :=
  let s1 := cores.foldl (fun s x => s.modCore x.2 (Core.switched set)) s
  { s1 with actors := s1.actors.map fun (n, a) => if a.graph = h then (n, { a with fired := 0 }) else (n, a) }

/-- The mode controller's record of a graph whose new rate set is in force. -/
def Graph.switched (set : Nat) (g : Graph) : Graph :=
  { g with
    modeCtl := { g.modeCtl with step := 0, inForce := set }, latePeriod := 0, peers := { g.peers with begun := [], stopped := [] } }

theorem switchSet_eq {g : Graph} (hc : g.coord = none) (s : State) (h : Nat) : switchSet s h g =
    ((restarted s h g.modeCtl.set g.cores).modGraph h (Graph.switched g.modeCtl.set)).notifyGraph h { cause := 0x07C } := by
  simp only [switchSet, hc]; rfl

theorem core_restarted (s : State) (h set : Nat) {cores : List (Nat × Nat)} {q : Nat} (hq : q ∈ cores.map Prod.snd) :
    ∃ k : Core, (restarted s h set cores).core q = k.switched set := by
  have hreach := core_foldl_modCore (f := fun _ => Core.switched set) (P := fun k => ∃ l : Core, k = l.switched set)
    (fun _ k => ⟨k, rfl⟩) hq s
  rwa [List.foldl_map] at hreach

/-- The new set is in force, the controller is done, and every sequencer begins the set's segment (R135, step 6). -/
theorem switchSet_switches {s : State} {h : Nat} {g g' : Graph} (hg : s.graph? h = some g) (hc : g'.coord = none) :
    (switchSet s h g').graph? h = some (g.switched g'.modeCtl.set) ∧
      ∀ q, q ∈ g'.cores.map Prod.snd → ∃ k : Core, (switchSet s h g').core q = k.switched g'.modeCtl.set := by
  rw [switchSet_eq hc]
  have hg1 : (restarted s h g'.modeCtl.set g'.cores).graph? h = some g :=
    (congrArg (NMap.find · h) (foldl_modCore_graphs ..)).trans hg
  obtain ⟨-, -, hk⟩ := eq_of_sansTold (sansTold_notifyGraph
    ((restarted s h g'.modeCtl.set g'.cores).modGraph h (Graph.switched g'.modeCtl.set)) h { cause := 0x07C })
  refine ⟨?_, fun q hq => ?_⟩
  · rw [graph?, notifyGraph_graphs]; exact graph?_modGraph hg1 _
  · rw [hk, core_modGraph]; exact core_restarted s h _ hq

/-! ### Sequencers that stop (R135, steps 4 to 6) -/

/-- A sequencer has stopped after the target. -/
def seqStopped (s : State) (c : Nat) : State := s.modCore c fun k => { k with seqMode := { k.seqMode with stopped := true } }

theorem sequencerStop_eq {s : State} {c m : Nat} {g : Graph} (hg : s.graph? (s.core c).graph = some g) (hp : g.phase = .running)
    (ht : (s.core c).seqMode.target = some m) (hd : periodDone s c m = true) :
    exec (.sequencerStop c) s = .next (settleSwitch (seqStopped s c) (s.core c).graph) := by
  simp [execSequencerStop, hg, ht, hp, hd, seqStopped]

/-! ### A package that does not stop (R137) -/

section
variable {s : State} {h : Word32} {g : Graph} (hg : s.graph? h.toNat = some g) (hp : g.phase = .running) (hsp : spans g.img = true)
  (hc : g.coord = none) (hs : g.modeCtl.step = 4)
  (hmiss : ∃ p, (packagesOf g.img).filter (fun p => !(g.peers.stopped.any fun x => x.1 == p)) = [p])
include hg hp hsp hc hs hmiss

theorem modeXpkgTimeout_eq : exec (.modeXpkgTimeout h) s = .next (
    if (g.peers.stopped.map Prod.snd).foldl max 0 + nanos 10000000 ≤ g.gtime then s.haltGraph h.toNat { cause := 0x07F }
    else s) := by
  obtain ⟨p, hmiss⟩ := hmiss
  simp [execModeXpkgTimeout, hg, hp, hsp, hc, hs, hmiss]

/-- One package not stopped 10 ms after the last of the others halts the graph with MODE.15 (R137). -/
theorem modeXpkgTimeout_halts (h0 : nanos 10000000 ≤ g.gtime) (hl : ∀ x, x ∈ g.peers.stopped → x.2 + nanos 10000000 ≤ g.gtime) :
    exec (.modeXpkgTimeout h) s = .next (s.haltGraph h.toNat { cause := 0x07F }) := by
  have hlast : (g.peers.stopped.map Prod.snd).foldl max 0 ≤ g.gtime - nanos 10000000 :=
    foldl_max_le.2 ⟨Nat.zero_le _, fun t ht => by
      obtain ⟨x, hx, rfl⟩ := List.mem_map.1 ht
      exact Nat.le_sub_of_add_le (hl x hx)⟩
  rw [modeXpkgTimeout_eq hg hp hsp hc hs hmiss, if_pos (by omega)]

theorem modeXpkgTimeout_waits (hl : ∃ x, x ∈ g.peers.stopped ∧ g.gtime < x.2 + nanos 10000000) :
    exec (.modeXpkgTimeout h) s = .next s := by
  obtain ⟨x, hx, hlate⟩ := hl
  have hlast : x.2 ≤ (g.peers.stopped.map Prod.snd).foldl max 0 := (foldl_max_le.1 (Nat.le_refl _)).2 _ (List.mem_map_of_mem hx)
  rw [modeXpkgTimeout_eq hg hp hsp hc hs hmiss, if_neg (by omega)]

end

/-- Settles O38: the head entry's firing by canFire, drains by drainSent, and a mode switch step by step of the controller. -/
theorem firingAndModeEvents : Obligations.FiringAndModeEvents := by
  unfold Obligations.FiringAndModeEvents
  refine ⟨?_, ?_⟩
  · intro s c p w j i g k a ph per hseq hhead hm
    refine ⟨fun hmay htok hspace => ?_, fun q hq hlt => ?_, fun q h1 h2 hr hno => ?_, headEntry_live hhead, fun hdr hj hlt hheld => ?_⟩
    · -- The firing starts.
      have hfire : canFire s c a ph = true := canFire_iff.2 fun n hn =>
        ⟨htok n hn, hspace (16 + n) (by omega) (by omega)⟩
      have hport := port_startFiring s c p a ph
      obtain ⟨hphase, hin, hset⟩ := phase_startFiring s c p a (ph := ph) (fld_lt ..)
      obtain ⟨hactor, hperiod⟩ := actor_startFiring s c p (a := a) (fld_lt ..) ph
      refine ⟨startFiring s c p a ph, firingStart_starts hseq hhead hm hmay hfire, ⟨_, rfl⟩, ?_, ?_, hphase, hin, hset, hactor,
        hperiod, fun q => ?_, fun b q hb => ?_, ?_, ?_⟩
      · rw [startFiring, core_modCore_self]
      · rw [startFiring, core_modCore_self]
      · rw [hport, if_pos rfl]
      · rw [hport, if_neg hb]
      · rw [startFiring, core_modCore_self]
      · rw [startFiring, core_modCore_self]
    · -- Tokens are missing.
      refine firingStart_waits hseq hhead hm (Bool.eq_false_iff.2 fun hf => ?_)
      exact absurd (canFire_iff.1 hf q hq).1 (Nat.not_le.2 hlt)
    · -- Space is missing.
      refine firingStart_waits hseq hhead hm (Bool.eq_false_iff.2 fun hf => ?_)
      obtain ⟨n, rfl⟩ := Nat.exists_eq_add_of_le h1
      exact absurd ((canFire_iff.1 hf n (by omega)).2 hr) (by rw [hno]; exact Bool.false_ne_true)
    · -- The actor drains.
      exact ⟨actorDrain_drains hseq hhead (isDrained_of hdr hj hlt) hheld, fun hg hi hs => drainActor_drains hg hi hs⟩
  · intro s c m tok who seq h g rest k begun took s1 others hg hp
    refine ⟨fun hw hc hs hl hr => ⟨fun hset => ?_, fun hset ho => ?_, fun hset ho => ?_⟩, fun hk ht hd => ?_,
      fun hsp hc hs hmiss => ?_⟩
    · -- A set that the image does not declare.
      exact (modeTokenAccept_eq hg hp hw hc hs hl hr).trans (congrArg _ (if_pos hset))
    · -- The hold, with reports to come.
      obtain ⟨t, hrun, hrec, hcores⟩ := modeTokenAccept_holds hg hp hw hc hs hl hr hset ho
      exact ⟨t, _, hrun, foldl_max_mem .., (foldl_max_le.1 (Nat.le_refl _)).2, by rw [hrec]; rfl,
        fun q hq => congrArg Core.seqMode (hcores q hq)⟩
    · -- The hold and the target.
      obtain ⟨t, hrun, hrec, hcores, hres⟩ := modeTokenAccept_settles hg hp hw hc hs hl hr hset ho
      exact ⟨t, _, hrun, foldl_max_mem .., (foldl_max_le.1 (Nat.le_refl _)).2, by rw [hrec]; rfl, hcores, hres⟩
    · -- A sequencer stops.
      have hstop : exec (.sequencerStop c) s = .next (settleSwitch s1 h.toNat) := hk ▸ sequencerStop_eq (hk ▸ hg) hp ht hd
      rw [hstop]
      refine ⟨fun hwait => ?_, fun hs hq hw ho => ?_, fun hs hq hw ho => ?_, fun hs hq hw => ?_⟩
      · rw [settleSwitch_waits (s := s1) hg hwait]
      · rw [settleSwitch_notes (s := s1) hg hp hs hq hw ho]; rfl
      · have hswitch := settleSwitch_switches (s := s1) hg hp hs hq hw ho
        have hnote : (noteStopped s1 h.toNat s1.links.pkg).graph? h.toNat = some (g.notedStopped s1.links.pkg) :=
          graph?_modGraph (s := s1) hg _
        obtain ⟨hrec, hcores⟩ := switchSet_switches (g' := g.notedStopped s1.links.pkg) hnote ho.1
        refine ⟨_, congrArg _ hswitch, by rw [hrec]; rfl, fun q hq => ?_⟩
        obtain ⟨k, hk⟩ := hcores q ((mem_coresOf hg).1 hq)
        rw [hk]
        exact ⟨rset_switched .., period_switched .., rfl, rfl⟩
      · rw [settleSwitch_halts (s := s1) hg hp hs hq hw]
    · exact ⟨modeXpkgTimeout_halts hg hp hsp hc hs hmiss, modeXpkgTimeout_waits hg hp hsp hc hs hmiss⟩

end Sys2Proof.Machine
end

section
/-! Pointers that travel between the windows of producers and consumers (R75, R130, R131, R218). -/

namespace Sys2Proof.Machine

open State

/-! ### A token that lands in a window of its own type (R130) -/

/-- A token's slot is written and WRPTR covers it. -/
def landed (s : State) (c i wrptr : Nat) (bytes : List Byte) : State :=
  (s.setTile c (((s.core c).desc i).slotAt (wrptr - 1)) bytes).modCore c fun k =>
    (k.putDesc i { (s.core c).desc i with wr := BitVec.ofNat 64 wrptr }).wake

section
variable {s : State} {c i : Nat} {m : PtrMsg} (hecc : s.ecc.marks = [])
include hecc

/-- A pointer within the window writes its token's slot; the rest is a notice of a saturated count. -/
theorem sansTold_landToken (h1 : ((s.core c).desc i).wr.toNat ≤ m.wrptr)
    (h2 : m.wrptr ≤ ((s.core c).desc i).rd.toNat + ((s.core c).desc i).cap) (hl : m.bytes.length = ((s.core c).desc i).tsize)
    (hm : m.marks = []) :
    (landToken s c i ((s.core c).desc i).tcode m).sansTold = (landed s c i m.wrptr m.bytes).sansTold := by
  simp only [landToken, ueAt_of_unmarked hecc, convert, if_true, hl, ne_eq, not_true_eq_false, if_false, hm]
  rw [if_neg (by omega), sansTold_statNotice]
  rfl

/-- A pointer beyond the window halts the graph with RING.5 (R131). -/
theorem landToken_beyond (t : Nat) (h : m.wrptr < ((s.core c).desc i).wr.toNat ∨
      ((s.core c).desc i).rd.toNat + ((s.core c).desc i).cap < m.wrptr) :
    landToken s c i t m = s.haltGraph (s.core c).graph (windowNote s c i 0x065 (m.wrptr - 1)) := by
  simp only [landToken, ueAt_of_unmarked hecc, if_pos h]

end

@[simp] theorem wake_regs (k : Core) : k.wake.regs = k.regs := by
  unfold Core.wake; split <;> rfl
@[simp] theorem wake_outMsgs (k : Core) : k.wake.outMsgs = k.outMsgs := by
  unfold Core.wake; split <;> rfl

theorem desc_putDesc_ne (k : Core) {i e : Nat} (d : WinDesc) (h : e ≠ i) : (k.putDesc i d).desc e = k.desc e :=
  NMap.getD_put_ne _ _ _ h

theorem core_landed (s : State) (c i wrptr : Nat) (bytes : List Byte) (e : Nat) : (landed s c i wrptr bytes).core e =
    if e = c then ((s.core e).putDesc i { (s.core c).desc i with wr := BitVec.ofNat 64 wrptr }).wake else s.core e :=
  core_modCore ..

/-! ### Pointer writes (R130, R131) -/

/-- A pointer write has left its core. -/
def departed (s : State) (c : Nat) (m : PtrMsg) : State := s.modCore c fun k => { k with outMsgs := k.outMsgs.erase m }

theorem desc_departed (s : State) (c : Nat) (m : PtrMsg) (e i : Nat) : ((departed s c m).core e).desc i = (s.core e).desc i := by
  rw [departed, core_modCore]; split <;> rfl
theorem regs_departed (s : State) (c : Nat) (m : PtrMsg) (e : Nat) : ((departed s c m).core e).regs = (s.core e).regs := by
  rw [departed, core_modCore]; split <;> rfl
theorem graph_departed (s : State) (c : Nat) (m : PtrMsg) (e : Nat) : ((departed s c m).core e).graph = (s.core e).graph := by
  rw [departed, core_modCore]; split <;> rfl

/-- A core that stands still, in a halt, a freeze or a cut, sends no pointer (R126, R170, R282). -/
theorem wrptrWrite_still {s : State} {c : Nat} (h : coreMoves (s.core c) = false ∨ (s.core c).cut = true) (d : Nat) :
    exec (.wrptrWrite c d) s = .next s := by
  simp only [exec_wrptrWrite, execWrptrWrite]
  split
  · rfl
  · rcases h with h | h <;> simp [h]

/-- Descriptor d of core c names window i of core c', within one context, and both cores move. -/
structure Connected (s : State) (c d c' i : Nat) : Prop where
  peer : peerCore c ((s.core c).desc d) = c'
  window : ((s.core c).desc d).pdesc = i
  moves : coreMoves (s.core c) = true
  uncut : (s.core c).cut = false
  peerMoves : coreMoves (s.core c') = true
  oneCtx : s.ctxOf c' = s.ctxOf c

/-- A token is the oldest that leaves by such a descriptor, its release is done, and an input window of the sender's own takes it. -/
structure Arriving (s : State) (c d c' i : Nat) (m : PtrMsg) : Prop extends Connected s c d c' i where
  found : (s.core c).outMsgs.find? (fun m => m.desc == d) = some m
  token : m.drain = false
  released : releaseHeld s c (sendScope s c d) m.seq false = false
  awake : (s.core c').power = .running ∨ (s.core c').power = .clockGated
  single : (shareAt s c d).size = 1
  valid : ((s.core c').desc i).valid = true
  input : ((s.core c').desc i).isOut = false
  kind : ((s.core c').desc i).pkind = 0
  back : peerCore c' ((s.core c').desc i) = c

section
variable {s : State} {c d c' i : Nat} {m : PtrMsg} (h : Arriving s c d c' i m)
include h

/-- The oldest pointer write of a descriptor, its release done, reaches the window that it names (R130, R217). -/
theorem wrptrWrite_arrives :
    exec (.wrptrWrite c d) s = .next (landToken (departed s c m) c' i ((s.core c).desc d).tcode m) := by
  have hgang : ¬1 < (shareAt s c d).size := by rw [h.single]; decide
  have harc : arcCores s c d = [c] := if_pos h.single
  have hwaking : (s.core c').power ≠ .waking := by rcases h.awake with hp | hp <;> simp [hp]
  have hgated : (s.core c').power ≠ .powerGated := by rcases h.awake with hp | hp <;> simp [hp]
  simp [execWrptrWrite, h.found, h.peer, h.window, h.released, h.moves, h.uncut, h.peerMoves, h.oneCtx, hgang, hwaking, hgated, h.valid,
    h.input, h.kind, h.back, harc, landMsg, h.token, departed]

variable (hecc : s.ecc.marks = [])
include hecc

theorem wrptrWrite_beyond (hw : m.wrptr < ((s.core c').desc i).wr.toNat ∨
    ((s.core c').desc i).rd.toNat + ((s.core c').desc i).cap < m.wrptr) :
    exec (.wrptrWrite c d) s = .next ((departed s c m).haltGraph (s.core c').graph
      (windowNote (departed s c m) c' i 0x065 (m.wrptr - 1))) := by
  rw [wrptrWrite_arrives h, landToken_beyond (s := departed s c m) hecc _ (by rwa [desc_departed]), graph_departed]

theorem wrptrWrite_lands (hmarks : m.marks = []) (h1 : ((s.core c').desc i).wr.toNat ≤ m.wrptr)
    (h2 : m.wrptr ≤ ((s.core c').desc i).rd.toNat + ((s.core c').desc i).cap)
    (ht : ((s.core c).desc d).tcode = ((s.core c').desc i).tcode) (hl : m.bytes.length = ((s.core c').desc i).tsize) :
    ∃ t, exec (.wrptrWrite c d) s = .next t ∧ t.sansTold = (landed (departed s c m) c' i m.wrptr m.bytes).sansTold := by
  refine ⟨_, wrptrWrite_arrives h, ?_⟩
  have hdesc := desc_departed s c m c' i
  rw [ht, ← hdesc]
  exact sansTold_landToken (s := departed s c m) hecc (by rwa [hdesc]) (by rwa [hdesc]) (by rwa [hdesc]) hmarks

end

section
variable {s t : State} {c c' i : Nat} {m : PtrMsg}
  (ht : t.sansTold = (landed (departed s c m) c' i m.wrptr m.bytes).sansTold)
include ht

/-- What a token that lands makes of the cores of its consumer and of its producer. -/
theorem core_of_landed (e : Nat) : t.core e = if e = c' then
    (((departed s c m).core e).putDesc i { (s.core c').desc i with wr := BitVec.ofNat 64 m.wrptr }).wake
    else (departed s c m).core e := by
  obtain ⟨-, -, hk⟩ := eq_of_sansTold ht
  rw [hk, core_landed, desc_departed]

theorem desc_of_landed (hw : m.wrptr < 2 ^ 64) : ((t.core c').desc i).wr.toNat = m.wrptr ∧
    ((t.core c').desc i).rd = ((s.core c').desc i).rd ∧ ∀ e, e ≠ i → (t.core c').desc e = (s.core c').desc e := by
  rw [core_of_landed ht, if_pos rfl]
  refine ⟨?_, ?_, fun e he => ?_⟩
  · rw [desc_wake, desc_putDesc_self]; exact Nat.mod_eq_of_lt hw
  · rw [desc_wake, desc_putDesc_self]
  · rw [desc_wake, desc_putDesc_ne _ _ he, desc_departed]

theorem regs_of_landed : (t.core c').regs = (s.core c').regs := by
  rw [core_of_landed ht, if_pos rfl, wake_regs]; exact regs_departed ..

theorem outMsgs_of_landed : (t.core c).outMsgs = (s.core c).outMsgs.erase m := by
  have hsent : ((departed s c m).core c).outMsgs = (s.core c).outMsgs.erase m := by rw [departed, core_modCore_self]
  rw [core_of_landed ht]
  split
  · rw [wake_outMsgs]; exact hsent
  · exact hsent

theorem core_of_landed_ne {e : Nat} (h1 : e ≠ c) (h2 : e ≠ c') : t.core e = s.core e := by
  rw [core_of_landed ht, if_neg h2, departed, core_modCore_ne _ _ h1]

variable (hwf : Memory.wf s.mem = true) (hl : m.bytes.length = ((s.core c').desc i).tsize)
include hwf hl

theorem memGet_of_landed (x : Nat) : memGet t.mem x =
    if winBase c' + ((s.core c').desc i).slotAt (m.wrptr - 1) ≤ x ∧
      x < winBase c' + ((s.core c').desc i).slotAt (m.wrptr - 1) + ((s.core c').desc i).tsize
    then m.bytes.getD (x - (winBase c' + ((s.core c').desc i).slotAt (m.wrptr - 1))) 0 else memGet s.mem x := by
  have hmem : t.mem = ((departed s c m).write (winBase c' + (((departed s c m).core c').desc i).slotAt (m.wrptr - 1)) m.bytes).mem :=
    (congrArg State.mem ht :)
  rw [hmem, State.memGet_write (departed s c m) _ _ hwf, desc_departed, hl]
  rfl

/-- The token's bytes stand in its slot, and no other byte changes (R129, R130). -/
theorem mem_of_landed :
    (∀ j, j < ((s.core c').desc i).tsize →
      memGet t.mem (winBase c' + ((s.core c').desc i).slotAt (m.wrptr - 1) + j) = m.bytes.getD j 0) ∧
    SameOutside s t (winBase c' + ((s.core c').desc i).slotAt (m.wrptr - 1)) ((s.core c').desc i).tsize := by
  refine ⟨fun j hj => ?_, fun x hx => ?_⟩
  · rw [memGet_of_landed ht hwf hl, if_pos (by omega), Nat.add_sub_cancel_left]
  · rw [memGet_of_landed ht hwf hl, if_neg (by omega)]

end

/-! ### Read pointers (R75, R130, R218) -/

/-- A read pointer has left its core. -/
def returned (s : State) (c : Nat) (r : Mirror) : State := s.modCore c fun k => { k with mirrors := k.mirrors.erase r }

section
variable {s : State} {c d : Nat} {r : Mirror} (hr : (s.core c).mirrors.find? (fun m => m.desc == d) = some r)
include hr

/-- A read pointer waits while its core stands still, and until the reads of what it frees are done (R218). -/
theorem rdptrMirror_waits (h : coreMoves (s.core c) = false ∨ (s.core c).cut = true ∨ readsHeld s c r.seq = true) :
    exec (.rdptrMirror c d) s = .next s := by
  simp only [exec_rdptrMirror, execRdptrMirror, hr, if_pos h]

variable (hreads : readsHeld s c r.seq = false)
include hreads

theorem rdptrMirror_credits {ch : Channel} (hmoves : coreMoves (s.core c) = true) (hcut : (s.core c).cut = false)
    (hk : ((s.core c).desc d).pkind = 2) (hsize : (shareAt s c d).size = 1)
    (hch : NMap.find s.links.channels ((s.core c).desc d).stream = some ch) (hup : channelUp s ch = true) :
    exec (.rdptrMirror c d) s = .next (sendCredit (returned s c r) ((s.core c).desc d).stream r.rd) := by
  simp [execRdptrMirror, hr, hmoves, hcut, hreads, hk, hsize, hch, hup, returned]

theorem rdptrMirror_mirrors {c' i : Nat} (h : Connected s c d c' i) (hk : ((s.core c).desc d).pkind = 0)
    (hvalid : ((s.core c').desc i).valid = true) (hout : ((s.core c').desc i).isOut = true) (hsize : (shareAt s c' i).size = 1) :
    exec (.rdptrMirror c d) s = .next ((returned s c r).modCore c' fun k =>
      k.putDesc i { (s.core c').desc i with rd := BitVec.ofNat 64 r.rd }) := by
  simp [execRdptrMirror, hr, h.moves, h.uncut, hreads, hk, h.peer, h.window, h.peerMoves, h.oneCtx, hvalid, hout, hsize, returned,
    Core.putDesc]

end

theorem core_setChannel (s : State) (ch : Nat) (x : Channel) (c : Nat) : (setChannel s ch x).core c = s.core c := rfl

theorem sendCredit_of_find {s : State} {ch : Nat} {x : Channel} (h : NMap.find s.links.channels ch = some x) (rd : Nat) :
    sendCredit s ch rd = setChannel s ch { x with credited := rd } := by
  simp only [sendCredit, h]

theorem desc_returned (s : State) (c : Nat) (r : Mirror) (e i : Nat) : ((returned s c r).core e).desc i = (s.core e).desc i := by
  rw [returned, core_modCore]; split <;> rfl

end Sys2Proof.Machine
end

section
/-! Memory actors, and O39 (R75, R115, R455). -/

namespace Sys2Proof.Machine

open State

/-! ### Reads and stores leave the graphs' records as they are -/

theorem correct_graphs (s : State) (a n : Nat) : (s.correct a n).graphs = s.graphs :=
  (congrArg State.graphs (sansCorrections_correct s a n) :)

/-- A read of memory may correct what it meets; no graph's record changes (R273). -/
theorem readPieces_graphs (c : Nat) (ps : List (Nat × Nat)) (far : List Byte) (s : State) :
    (readPieces c ps far s).2.graphs = s.graphs := by
  induction ps generalizing far s with
  | nil => rfl
  | cons p ps ih =>
    cases hloc : isLocal s p.1 with
    | false =>
      simp only [readPieces, hloc, Bool.not_false, if_true]
      have hrest := ih (if false = true then far else far.drop p.2) s
      split
      · next he => rw [he] at hrest; exact hrest
      · exact hrest
    | true =>
      cases hue : s.ueAt (keyOf s (c / 192) (p.1 % 2 ^ 45)) p.2 with
      | some u => simp only [readPieces, hloc, hue, Bool.not_true, Bool.false_eq_true, if_false]
      | none =>
        simp only [readPieces, hloc, hue, Bool.not_true, Bool.false_eq_true, if_false, if_true]
        have hrest := (ih far (s.correct (keyOf s (c / 192) (p.1 % 2 ^ 45)) p.2)).trans (correct_graphs ..)
        split
        · next he => rw [he] at hrest; exact hrest
        · exact hrest

theorem cpStore_graphs (s : State) (c off : Nat) (v : Word) : (cpStore s c off v).graphs = s.graphs := by
  simp only [cpStore, apply_ite State.graphs, modCore_graphs, ite_self]

theorem winPut_graphs (s : State) (c : Nat) (sub : Sub) (off : Nat) (b : Byte) : (winPut s c sub off b).graphs = s.graphs := by
  cases sub with
  | cpreg | tile | stat | meld => rfl
  | desc => exact modCore_graphs ..
  | acc => simp only [winPut, apply_ite State.graphs, write_graphs, ite_self]
  | seq =>
    simp only [winPut]
    generalize off - 0x700000 = o
    rw [apply_ite State.graphs, write_graphs, ite_self]

theorem winWrite_graphs (s : State) (c : Nat) (sub : Sub) (off : Nat) (bs : List Byte) : (winWrite s c sub off bs).graphs = s.graphs := by
  induction bs generalizing s off with
  | nil => rfl
  | cons b bs ih => exact (ih ..).trans (winPut_graphs ..)

theorem localWrite_graphs (s : State) (pa : Nat) (bs : List Byte) : (localWrite s pa bs).graphs = s.graphs := by
  unfold localWrite
  split
  · rfl
  · exact cpStore_graphs ..
  · exact winWrite_graphs ..
  · rfl

theorem homeStore_graphs (s : State) (pa : Nat) (bs : List Byte) : (homeStore s pa bs).graphs = s.graphs := by
  unfold homeStore
  simp only
  split
  · split <;> exact localWrite_graphs ..
  · exact localWrite_graphs ..

theorem writePieces_graphs (ps : List (Nat × Nat)) (bs : List Byte) (s : State) : (writePieces ps bs s).graphs = s.graphs := by
  induction ps generalizing bs s with
  | nil => rfl
  | cons p ps ih =>
    simp only [writePieces]
    rw [ih]
    split
    · rfl
    · exact foldl_keeps (fun q : State × List Byte => q.1.graphs) (fun q _ => homeStore_graphs q.1 ..) ..

@[simp] theorem sendCredit_graphs (s : State) (ch rd : Nat) : (sendCredit s ch rd).graphs = s.graphs := by
  unfold sendCredit; split <;> rfl

/-! ### What a memory source sends (R455) -/

/-- What sends on Herlo channels do not touch. -/
def sansChannels (s : State) : State := { s with links := { s.links with channels := [] } }

/-- The message of a memory source's token t, or its drain token, in a stream with ante tokens. -/
def sourceMsg (ante t : Nat) (bytes : List Byte) (drain : Bool) : PtrMsg :=
  { desc := 0, wrptr := ante + t + if drain then 0 else 1, bytes := bytes, marks := [], drain := drain }

/-- The deck stream of a memory source with one message more. -/
def streamSent (st : DeckStream) (n : Nat) (a : MemActor) (m : PtrMsg) : DeckStream :=
  { st with graph := a.graph, mem := true, core := n, tokens := st.tokens ++ [m] }

/-- A message joins the deck stream, where an arc is on it; the rest goes on Herlo channels. -/
theorem sansChannels_sourceSend (s : State) (n : Nat) (a : MemActor) (g : Graph) (t : Nat) (bytes : List Byte) (drain : Bool) :
    sansChannels (sourceSend s n a g t bytes drain) = sansChannels (
      if (sourceArcs g a).2 then
        { s with
          streams := NMap.put s.streams (ctxStream (a.graph / 2 ^ 28) a.stream)
            (streamSent (NMap.getD {} s.streams (ctxStream (a.graph / 2 ^ 28) a.stream)) n a (sourceMsg a.ante t bytes drain)) }
      else s) :=
  foldl_keeps sansChannels (fun s x => by dsimp only; split <;> rfl) ..

section
variable (s : State) (n : Nat) (a : MemActor) (g : Graph) (t : Nat) (bytes : List Byte) (drain : Bool)

theorem sourceSend_keeps : (sourceSend s n a g t bytes drain).graphs = s.graphs ∧
    (sourceSend s n a g t bytes drain).actors = s.actors := by
  have h := sansChannels_sourceSend s n a g t bytes drain
  have hg : (sourceSend s n a g t bytes drain).graphs = _ := (congrArg State.graphs h :)
  have ha : (sourceSend s n a g t bytes drain).actors = _ := (congrArg State.actors h :)
  rw [hg, ha]
  split <;> exact ⟨rfl, rfl⟩

theorem sourceSend_tokens (harc : (sourceArcs g a).2 = true) :
    (NMap.getD {} (sourceSend s n a g t bytes drain).streams (ctxStream (a.graph / 2 ^ 28) a.stream)).tokens =
      (NMap.getD {} s.streams (ctxStream (a.graph / 2 ^ 28) a.stream)).tokens ++ [sourceMsg a.ante t bytes drain] := by
  have h := sansChannels_sourceSend s n a g t bytes drain
  rw [if_pos harc] at h
  have hs : (sourceSend s n a g t bytes drain).streams = NMap.put s.streams (ctxStream (a.graph / 2 ^ 28) a.stream)
      (streamSent (NMap.getD {} s.streams (ctxStream (a.graph / 2 ^ 28) a.stream)) n a (sourceMsg a.ante t bytes drain)) :=
    (congrArg State.streams h :)
  rw [hs, NMap.getD_put_self]
  rfl

end

/-! ### A memory actor moves on (R455, R115) -/

/-- The range of a memory actor is reached at once: here, with nothing parked or refused before it. -/
def EngineFree (s : State) (n : Nat) (a : MemActor) (va len : Nat) (ld st : Bool) (ps : List (Nat × Nat)) : Prop :=
  engineReach s (a.graph / 2 ^ 28) va len ld st = .ok ps ∧ refusedMeanwhile s (engineCore n) 0x1000 = none ∧
    kittyFirst s ps = none ∧ staleReplica s (engineCore n) ps = false ∧ farBytes s ps = 0

theorem engineAt_free {s : State} {n va len : Nat} {a : MemActor} {st : Bool} {ps : List (Nat × Nat)}
    (hf : EngineFree s n a va len (!st) st ps) (arc : Nat) (f : List (Nat × Nat) → List Byte → State → State) :
    engineAt s n a arc va len st f = f ps [] s := by
  obtain ⟨hreach, href, hkitty, hstale, hfar⟩ := hf
  simp only [engineAt, withPieces, hreach, href, hkitty, hstale, withFar, hfar, if_true, Bool.false_eq_true, if_false]

/-- Memory actor engine n serves a graph that runs, in no cut and no mode switch, at its one port. -/
structure EngineRuns (s : State) (n : Nat) (a : MemActor) (g : Graph) (p : PortRec) : Prop where
  actor : NMap.find s.actors n = some a
  graph : s.graph? a.graph = some g
  running : g.phase = .running
  uncut : g.cutSince = none
  idle : g.modeCtl.step = 0
  port : enginePort g.img a.actor = some p

/-- The address of a memory actor's next token (R455). -/
def engineVa (n : Nat) (a : MemActor) (g : Graph) (p : PortRec) : Nat :=
  (((engineDesc g.img (n % 64)).getD 0 0).toNat + a.f * p.tsize) % 2 ^ 64

/-- The tokens that a memory actor's stream descriptor names (R455). -/
def engineTotal (n : Nat) (g : Graph) (p : PortRec) : Nat := fld ((engineDesc g.img (n % 64)).getD 2 0) 63 32 / max p.tsize 1

section
variable {s : State} {n : Nat} {a : MemActor} {g : Graph} {p : PortRec}

/-! #### Sources -/

/-- After its last token a memory source sends its drain token (R455, R136). -/
theorem sourceFire_drains (ht : engineTotal n g p ≤ a.f) (hd : a.drained = false) : sourceFire s n a g p =
    (sourceSend (setActor s n { a with drained := true }) n a g a.f [] true).modGraph a.graph
      fun g => { g with srcDrained := true } := by
  have ht' : fld ((engineDesc g.img (n % 64)).getD 2 0) 63 32 / max p.tsize 1 ≤ a.f := ht
  simp only [sourceFire, if_pos ht', hd, Bool.false_eq_true, if_false]

section
variable (ht : a.f < engineTotal n g p) (hr : engineRate g a p ≠ 0)
include ht hr

theorem sourceFire_waits (h0 : a.cnt = 0) (hroom : sourceRoom s a g (min (a.f + engineRate g a p) (engineTotal n g p) - 1) = false) :
    sourceFire s n a g p = s := by
  have ht' : ¬fld ((engineDesc g.img (n % 64)).getD 2 0) 63 32 / max p.tsize 1 ≤ a.f := Nat.not_le.2 ht
  unfold engineTotal at hroom
  simp only [sourceFire, if_neg ht', if_neg hr, h0, hroom, decide_true, Bool.not_false, Bool.and_self, if_true]

/-- With room for its whole firing a memory source reads its next token and sends it (R455, R115). -/
theorem sourceFire_sends {s1 : State} {ps : List (Nat × Nat)} {bs : List Byte}
    (hroom : a.cnt ≠ 0 ∨ sourceRoom s a g (min (a.f + engineRate g a p) (engineTotal n g p) - 1) = true)
    (hf : EngineFree s n a (engineVa n a g p) p.tsize true false ps) (hread : readPieces (engineCore n) ps [] s = (.ok bs, s1)) :
    sourceFire s n a g p = sourceSend (setActor s1 n (a.moved (engineRate g a p))) n a g a.f bs false := by
  have ht' : ¬fld ((engineDesc g.img (n % 64)).getD 2 0) 63 32 / max p.tsize 1 ≤ a.f := Nat.not_le.2 ht
  have hgo : ¬(decide (a.cnt = 0) && !sourceRoom s a g (min (a.f + engineRate g a p) (engineTotal n g p) - 1)) = true := by
    rcases hroom with h | h <;> simp [h]
  unfold engineTotal at hgo
  unfold engineVa at hf
  simp only [sourceFire, if_neg ht', if_neg hr, if_neg hgo, engineAt_free (st := false) hf, hread]

end

/-! #### Sinks -/

section
variable (hd : a.drained = false) (hr : engineRate g a p ≠ 0)
include hd hr

/-- A memory sink waits for the tokens of its whole firing (R115). -/
theorem sinkFire_short (h0 : a.cnt = 0) (hw : a.window.length < engineRate g a p) (hin : a.drainIn = false) :
    sinkFire s n a g p = s := by
  simp [sinkFire, hd, hr, h0, hw, hin]

variable {t : List Byte} {rest : List (List Byte)} (hgo : a.cnt ≠ 0 ∨ engineRate g a p ≤ a.window.length)
  (hw : a.window = t :: rest)
include hgo hw

/-- A memory sink whose channel cannot carry credit waits (R82). -/
theorem sinkFire_down (hup : sinkUp s g p = false) : sinkFire s n a g p = s := by
  have hfire : ¬(decide (a.cnt = 0) && decide (a.window.length < engineRate g a p)) = true := by
    rcases hgo with h | h <;> simp [h]
  simp only [sinkFire, hd, Bool.false_eq_true, if_false, if_neg hr, if_neg hfire]
  simp only [hw, hup, Bool.not_false, if_true]

/-- A memory sink writes the oldest token it holds, and its read pointer goes back on a Herlo channel (R455, R75). -/
theorem sinkFire_writes (hup : sinkUp s g p = true) {ps : List (Nat × Nat)}
    (hf : EngineFree s n a (engineVa n a g p) p.tsize false true ps) : sinkFire s n a g p =
      let u := writePieces ps t (setActor s n { a.moved (engineRate g a p) with window := rest })
      if arcKind g.img p.arc = 2 then sendCredit u (channelOf g p.arc) (a.f + 1) else u := by
  have hfire : ¬(decide (a.cnt = 0) && decide (a.window.length < engineRate g a p)) = true := by
    rcases hgo with h | h <;> simp [h]
  unfold engineVa at hf
  simp only [sinkFire, hd, Bool.false_eq_true, if_false, if_neg hr, if_neg hfire]
  simp only [hw, hup, Bool.not_true, Bool.false_eq_true, if_false, engineAt_free (st := true) hf]

end

/-! #### The event -/

section
variable (h : EngineRuns s n a g p)
include h

theorem memoryActorFiring_eq : exec (.memoryActorFiring n) s =
    .next (settleSwitch (if a.sink then sinkFire s n a g p else sourceFire s n a g p) a.graph) := by
  simp [execMemoryActorFiring, engineFire, actorGraph, h.actor, h.graph, h.running, h.uncut, engineMayFire, h.idle, h.port]

/-- An engine's move that leaves the mode controller at rest is the whole event. -/
theorem memoryActorFiring_moves {u : State} {g' : Graph} (hu : (if a.sink then sinkFire s n a g p else sourceFire s n a g p) = u)
    (hg' : u.graph? a.graph = some g') (hs' : g'.modeCtl = g.modeCtl) : exec (.memoryActorFiring n) s = .next u := by
  rw [memoryActorFiring_eq h, hu, settleSwitch_idle fun x hx => ?_]
  obtain rfl : g' = x := Option.some.inj (hg'.symm.trans hx)
  rw [hs', h.idle]
  decide

theorem memoryActorFiring_source {u : State} (hk : a.sink = false) (hu : sourceFire s n a g p = u) (hgr : u.graphs = s.graphs) :
    exec (.memoryActorFiring n) s = .next u :=
  memoryActorFiring_moves h (by rw [hk]; exact hu) (by rw [graph?, hgr]; exact h.graph) rfl

theorem memoryActorFiring_sink {u : State} (hk : a.sink = true) (hu : sinkFire s n a g p = u) (hgr : u.graphs = s.graphs) :
    exec (.memoryActorFiring n) s = .next u :=
  memoryActorFiring_moves h (by rw [hk]; exact hu) (by rw [graph?, hgr]; exact h.graph) rfl

/-- The end of a memory source's stream: its graph and its engine know, and the drain token is on its way (R136, R455). -/
theorem memoryActorFiring_drains (hk : a.sink = false) (ht : engineTotal n g p ≤ a.f) (hd : a.drained = false) :
    ∃ u, exec (.memoryActorFiring n) s = .next u ∧ (u.graph? a.graph).map Graph.srcDrained = some true ∧
      (NMap.find u.actors n).map MemActor.drained = some true ∧
      ((sourceArcs g a).2 = true → (NMap.getD {} u.streams (ctxStream (a.graph / 2 ^ 28) a.stream)).tokens =
        (NMap.getD {} s.streams (ctxStream (a.graph / 2 ^ 28) a.stream)).tokens ++ [sourceMsg a.ante a.f [] true]) := by
  have htokens := sourceSend_tokens (setActor s n { a with drained := true }) n a g a.f [] true
  obtain ⟨hgraphs, hactors⟩ := sourceSend_keeps (setActor s n { a with drained := true }) n a g a.f [] true
  have hfire := sourceFire_drains (s := s) ht hd
  generalize sourceSend (setActor s n { a with drained := true }) n a g a.f [] true = v at htokens hgraphs hactors hfire
  have hgv : v.graph? a.graph = some g := by rw [graph?, hgraphs]; exact h.graph
  have hmod := graph?_modGraph hgv fun g => { g with srcDrained := true }
  have hact : NMap.find v.actors n = some { a with drained := true } := by rw [hactors]; exact NMap.find_put_self ..
  refine ⟨_, memoryActorFiring_moves h (by rw [hk]; exact hfire) hmod rfl, by rw [hmod]; rfl, ?_, ?_⟩
  · rw [modGraph_of_find hgv, hact]; rfl
  · rw [modGraph_of_find hgv]; exact htokens

end

end

/-- Settles O39: pointer writes by what lands, read pointers by what leaves, and memory actors by one move of their engine. -/
theorem pointerAndActorEvents : Obligations.PointerAndActorEvents := by
  unfold Obligations.PointerAndActorEvents
  refine ⟨?_, ?_⟩
  · intro s c d m r ch k x c' k' y moves key
    refine ⟨?_, fun hr hwait => rdptrMirror_waits hr hwait, fun hstill => wrptrWrite_still hstill d, ?_, ?_⟩
    · -- A token reaches its window.
      intro ⟨hmoves, hcut, hmoves', hctx⟩ hm hdrain hmarks hecc hwf hrel hpow hsize hvalid hin hkind hback
      have harr : Arriving s c d c' x.pdesc m :=
        ⟨⟨rfl, rfl, hmoves, hcut, hmoves', hctx⟩, hm, hdrain, hrel, hpow, hsize, hvalid, hin, hkind, hback⟩
      refine ⟨fun h1 h2 ht hl hw => ?_, wrptrWrite_beyond harr hecc⟩
      obtain ⟨t, hrun, hland⟩ := wrptrWrite_lands harr hecc hmarks h1 h2 ht hl
      obtain ⟨hwr, hrd, hother⟩ := desc_of_landed hland hw
      obtain ⟨hbytes, hout⟩ := mem_of_landed hland hwf hl
      exact ⟨t, hrun, hwr, hrd, hbytes, hout, hother, outMsgs_of_landed hland, regs_of_landed hland,
        fun e h1 h2 => core_of_landed_ne hland h1 h2⟩
    · -- Credit of a Herlo channel.
      intro hmoves hcut hr hreads hk hsize hch hup
      have hfind : NMap.find (returned s c r).links.channels x.stream = some ch := hch
      refine ⟨_, rdptrMirror_credits hr hreads hmoves hcut hk hsize hch hup, ?_, ?_, ?_, fun e he => ?_⟩ <;>
        rw [sendCredit_of_find hfind]
      · exact NMap.find_put_self ..
      · rw [core_setChannel, returned, core_modCore_self]
      · rfl
      · rw [core_setChannel, returned, core_modCore_ne _ _ he]
    · -- The mirror at the producer.
      intro ⟨hmoves, hcut, hmoves', hctx⟩ hr hreads hk hvalid hout hrd hsize
      refine ⟨_, rdptrMirror_mirrors hr hreads ⟨rfl, rfl, hmoves, hcut, hmoves', hctx⟩ hk hvalid hout hsize, ?_, ?_, fun e he => ?_,
        rfl, fun e h1 h2 => ?_⟩
      · rw [core_modCore_self, desc_putDesc_self]; exact Nat.mod_eq_of_lt hrd
      · rw [core_modCore_self, desc_putDesc_self]
      · rw [core_modCore_self, desc_putDesc_ne _ _ he]; exact desc_returned ..
      · rw [core_modCore_ne _ _ h2]; exact core_modCore_ne _ _ h1
  · intro s s1 n a g p ps bs t rest desc va total key rate on tokens ha hg hp hc hs hport
    have hruns : EngineRuns s n a g p := ⟨ha, hg, hp, hc, hs, hport⟩
    refine ⟨fun hk ht hr hroom hf hread => ?_, fun hk ht hr h0 hroom => ?_, fun hk ht hd => ?_, fun hk hd hr h0 hw hin => ?_,
      fun hk hd hr hgo hw hup => ?_, fun hk hd hr hgo hw hup hf => ?_⟩
    · -- A source reads a token and sends it.
      have hgr : s1.graphs = s.graphs := by have h := readPieces_graphs (engineCore n) ps [] s; rwa [hread] at h
      exact ⟨_, memoryActorFiring_source hruns hk (sourceFire_sends ht hr hroom hf hread)
        ((sourceSend_keeps ..).1.trans hgr), rfl, fun harc => sourceSend_tokens _ n a g a.f bs false harc⟩
    · exact memoryActorFiring_source hruns hk (sourceFire_waits ht hr h0 hroom) rfl
    · exact memoryActorFiring_drains hruns hk ht hd
    · exact memoryActorFiring_sink hruns hk (sinkFire_short hd hr h0 hw hin) rfl
    · exact memoryActorFiring_sink hruns hk (sinkFire_down hd hr hgo hw hup) rfl
    · -- A sink writes its oldest token.
      refine memoryActorFiring_sink hruns hk (sinkFire_writes hd hr hgo hw hup hf) ?_
      have hwrite := writePieces_graphs ps t (setActor s n { a.moved rate with window := rest })
      simp only
      split
      · exact (sendCredit_graphs ..).trans hwrite
      · exact hwrite

end Sys2Proof.Machine
end

section
/-! Launch requests, validation and admission (R144, R146, R164 to R168, R370), and O43. -/

namespace Sys2Proof.Machine

open State

/-! ### Refusals (R144) -/

/-- A graph that is refused has its cause (R144). -/
theorem verdict_refuse {s : State} {h : Nat} {g : Graph} (hg : s.graph? h = some g) (f : Nat) :
    (refuse s h f).verdict h = some (.refused, f) := by
  unfold refuse
  simp only [hg]
  exact congrArg (Option.map _) (NMap.find_put_self ..)

/-! ### Launch requests (R164, R370) -/

section
variable {s : State} {c q x : Nat} {k' : Ctx}
  (hb : ((s.core c).entry q).busy = true) (hop : ((s.core c).entry q).op = .launch)
  (hperf : ((s.core c).entry q).performed = false) (hrel : ((s.core c).entry q).released = false)
  (hmv : coreMoves (s.core c) = true) (hcut : (s.core c).cut = false)
  (haway : launchAway s ((s.core c).entry q).data = false)
  (hheld : releaseHeld s c .deck ((s.core c).entry q).seq true = false)
  (hx : s.ctxOf c = some x) (hk : NMap.find s.ctxs x = some k')
include hb hop hperf hrel hmv hcut haway hheld hx hk

/-- A full launch queue answers SCHED.0 (R164). -/
theorem launchRequest_full (hfull : queueFull s x = true) : exec (.launchRequest c q) s = .next (s.completeEntry c q 0x140 0) := by
  simp [execLaunchRequest, hb, hop, hperf, hrel, hmv, hcut, haway, hheld, hx, hk, hfull]

/-- A class above the context's highest priority answers SCHED.1 (R164). -/
theorem launchRequest_class (hfull : queueFull s x = false) (hcls : ((s.core c).entry q).data % 4 < k'.maxpri) :
    exec (.launchRequest c q) s = .next (s.completeEntry c q 0x141 0) := by
  simp [execLaunchRequest, hb, hop, hperf, hrel, hmv, hcut, haway, hheld, hx, hk, hfull, hcls]

section
variable (hfull : queueFull s x = false) (hcls : k'.maxpri ≤ ((s.core c).entry q).data % 4)
include hfull hcls

/-- An image that the graph store does not list answers SCHED.13 (R90, R164). -/
theorem launchRequest_unlisted (hdir : directory s ((s.core c).entry q).addr = none) :
    exec (.launchRequest c q) s = .next (s.completeEntry c q 0x14D 0) := by
  simp [execLaunchRequest, hb, hop, hperf, hrel, hmv, hcut, haway, hheld, hx, hk, hfull, Nat.not_lt.2 hcls, hdir]

/-- Otherwise the request leaves its core and creates a graph (R164). -/
theorem launchRequest_creates {off pages : Nat} (hdir : directory s ((s.core c).entry q).addr = some (off, pages)) :
    exec (.launchRequest c q) s = .next
      (createGraph (s.modCore c fun k => k.setEntry q { (s.core c).entry q with released := true }) x ((s.core c).entry q).addr off
        pages (((s.core c).entry q).data % 4) (some (c, q))).2 := by
  simp [execLaunchRequest, hb, hop, hperf, hrel, hmv, hcut, haway, hheld, hx, hk, hfull, Nat.not_lt.2 hcls, hdir]

end

end

/-- The graph that is created has the next handle of its context, which counts on (R158, R164). -/
theorem createGraph_creates {s : State} {x : Nat} {k : Ctx} (hk : NMap.find s.ctxs x = some k) (id off pages cls : Nat)
    (who : Option (Nat × Nat)) :
    let t := (createGraph s x id off pages cls who).2
    let new := x * 2 ^ 28 + k.nextSeq
    t.graph? new = some { handle := new, imageid := id, off := off, pages := pages, cls := cls, arrival := s.order
                          created := s.time, launcher := who } ∧
      (NMap.find t.ctxs x).map Ctx.nextSeq = some (if k.nextSeq + 1 = 2 ^ 28 then 1 else k.nextSeq + 1) ∧
      t.mem = s.mem ∧ t.cores = s.cores := by
  simp only [createGraph, hk, Option.map_some, Option.getD_some, graph?, NMap.find_put_self, find_modCtx, modCtx_mem, modCtx_cores,
    and_self]

/-! ### Validation and placement (R144, R146) -/

section
variable {s : State} {h : Word32} {g : Graph} (hg : s.graph? h.toNat = some g)
include hg

/-- A graph whose placement takes longer than 100 ms is refused with DEAL.10 (R146). -/
theorem placementTimeout_refuses (hp : g.phase = .validating) (ht : g.created + 5 * 100000000 ≤ s.time) :
    exec (.placementTimeout h) s = .next (refuse s h.toNat 0x09A) := by
  simp only [exec_placementTimeout, execPlacementTimeout, nanos, hg, hp, ht, and_self, if_true]

theorem placementTimeout_early (ht : s.time < g.created + 5 * 100000000) : exec (.placementTimeout h) s = .next s := by
  simp only [exec_placementTimeout, execPlacementTimeout, nanos, hg, Nat.not_le.2 ht, and_false, if_false]

/-- A graph whose image has passed is at the tail of the launch queue (R144). -/
def imageQueued (s : State) (h : Nat) (img : List Byte) : State :=
  let s1 := s.modGraph h fun g => { g with
    phase := .queued, img := img.take (imgRd img 0x10 4), launcher := none, arrival := s.order }
  { s1 with order := s1.order + 1 }

theorem graph?_imageQueued (img : List Byte) : (imageQueued s h.toNat img).graph? h.toNat =
    some { g with phase := .queued, img := img.take (imgRd img 0x10 4), launcher := none, arrival := s.order } :=
  graph?_modGraph hg _

omit hg in
theorem core_imageQueued (img : List Byte) (c : Nat) : (imageQueued s h.toNat img).core c = s.core c := core_modGraph ..

section
variable {img : List Byte} (hp : g.phase = .validating) (hon : storeOn s = true) (hm : s.ecc.marks = [])
  (himg : s.read (storeBase s + g.off) (g.pages * 4096) = img)
include hp hon hm himg

/-- The first check that an image fails refuses its graph (R144). -/
theorem imageValidation_refuses {f : Nat} (hf : imageFault s (h.toNat / 2 ^ 28) g.imageid g.pages img = some f) :
    exec (.imageValidation h) s = .next (refuse s h.toNat f) := by
  have hread : ∀ a n, (!(storeOn s) || (s.ueAt a n).isSome) = false := fun a n => by simp [hon, ueAt_of_unmarked hm]
  simp only [exec_imageValidation, execImageValidation, hg, if_neg (not_not_intro hp), hread, Bool.false_eq_true, if_false, himg, hf]

/-- A graph whose image passes every check is queued, and its launch has the ticket (R144, R370). -/
theorem imageValidation_queues {c q : Nat} (hf : imageFault s (h.toNat / 2 ^ 28) g.imageid g.pages img = none)
    (hl : g.launcher = some (c, q)) :
    exec (.imageValidation h) s = .next ((imageQueued s h.toNat img).completeEntry c q 0 (launchTicket s h.toNat)) := by
  have hread : ∀ a n, (!(storeOn s) || (s.ueAt a n).isSome) = false := fun a n => by simp [hon, ueAt_of_unmarked hm]
  simp only [exec_imageValidation, execImageValidation, hg, if_neg (not_not_intro hp), hread, Bool.false_eq_true, if_false, himg, hf, hl]
  rfl

end

end

/-! ### What an admission takes (R166) -/

/-- The records of the graphs, and the deck. -/
def State.graphsAndDeck (s : State) : NMap Graph × Deck := (s.graphs, s.deck)

theorem noteUncached_graphsAndDeck (s : State) (h : Nat) : (noteUncached s h).graphsAndDeck = s.graphsAndDeck := by
  unfold noteUncached
  split
  · rfl
  · exact (congrArg graphsAndDeck (sansNotes_tellMgmt ..) :)

theorem cacheGraph_graphsAndDeck (s : State) (img : List Byte) (cores : List (Nat × Nat)) :
    (cacheGraph s img cores).graphsAndDeck = s.graphsAndDeck := by
  unfold cacheGraph
  split
  · exact foldl_keeps graphsAndDeck (f := cachePlace) (fun _ _ => rfl) _ s
  · rfl

theorem placeActor_graphsAndDeck (s : State) (x : Nat × MemActor) : (placeActor s x).graphsAndDeck = s.graphsAndDeck := by
  unfold placeActor
  simp only
  split
  · refine (foldl_keeps graphsAndDeck (fun s a => ?_) _ _).trans ?_
    · split <;> rfl
    · split <;> rfl
  · rfl

theorem writeCore_graphsAndDeck (img : List Byte) (h : Nat) (sup : Bool) (p : AdmitPlan) (s : State) (x : Nat × Nat) :
    (writeCore img h sup p s x).graphsAndDeck = s.graphsAndDeck :=
  foldl_keeps graphsAndDeck (f := fun s (r : Nat × List Byte) => s.setTile x.2 r.1 r.2) (fun _ _ => rfl) (tileRuns img x.1) s

/-- What an admission does after it has set the graph's record and the calendar keeps both (R148). -/
theorem writeShadows_graphsAndDeck (u : State) (h : Nat) (g : Graph) (p : AdmitPlan) (acts : List (Nat × MemActor)) :
    (bindEgress (p.cores.foldl (writeCore g.img h g.supervisor p)
      (acts.foldl placeActor (cacheGraph (noteUncached u h) g.img p.cores))) h p.sinks).graphsAndDeck = u.graphsAndDeck :=
  calc graphsAndDeck _ = _ := foldl_keeps graphsAndDeck (writeCore_graphsAndDeck g.img h g.supervisor p) p.cores _
    _ = _ := foldl_keeps graphsAndDeck placeActor_graphsAndDeck acts _
    _ = _ := cacheGraph_graphsAndDeck ..
    _ = _ := noteUncached_graphsAndDeck ..

/-- An admitted graph loads on the cores and with the grant of its plan, whose slots stand in the calendar (R59, R148, R166). -/
theorem takeResources_takes (s : State) (h : Nat) (g : Graph) (p : AdmitPlan) :
    ((takeResources s h g p).graph? h).map (fun g => (g.phase, g.cores, g.grant)) = some (Phase.loading, p.cores, p.grant) ∧
      (takeResources s h g p).deck.calendar = p.slots.foldl (fun m x => NMap.put m x.1 x.2) s.deck.calendar := by
  obtain ⟨u, hu, hgraph, hcal⟩ : ∃ u : State, (takeResources s h g p).graphsAndDeck = u.graphsAndDeck ∧
      (u.graph? h).map (fun g => (g.phase, g.cores, g.grant)) = some (Phase.loading, p.cores, p.grant) ∧
      u.deck.calendar = p.slots.foldl (fun m x => NMap.put m x.1 x.2) s.deck.calendar :=
    ⟨_, writeShadows_graphsAndDeck .., congrArg (Option.map _) (NMap.find_put_self ..), rfl⟩
  have hgraphs : (takeResources s h g p).graphs = u.graphs := (congrArg Prod.fst hu :)
  exact ⟨by rw [graph?, hgraphs]; exact hgraph, (congrArg (·.2.calendar) hu).trans hcal⟩

/-! ### The scheduler (R165 to R168) -/

/-- One waiting graph is considered with none ahead of it (R167). -/
theorem schedule_one {s : State} {h : Nat} (hw : waiting s = [h]) : schedule s = consider [] s h := by
  simp [schedule, hw]

section
variable {s : State} {h : Nat} {g : Graph} (hg : s.graph? h = some g) (hc : candidate s (h, g) = true) (hi : g.image = none)
include hg hc hi

/-- A graph that can never have what it needs is refused (R166). -/
theorem consider_refuses {f : Nat} (ahead : List Nat) (hf : planFor s h g = .error f) (hco : g.coord = none) :
    consider ahead s h = refuse s h f := by
  simp [consider, hg, hc, hi, hf, hco]

/-- One that another package coordinates fails its load here (R78). -/
theorem consider_fails {f : Nat} (ahead : List Nat) (hf : planFor s h g = .error f) (hco : g.coord.isSome = true) :
    consider ahead s h = (s.notifyGraph h { cause := f, flags := 1 }).failLoad h := by
  simp [consider, hg, hc, hi, hf, hco]

/-- A graph that lacks a resource has its victims frozen (R168). -/
theorem consider_lacks (ahead : List Nat) (hn : planFor s h g = .ok none) :
    consider ahead s h = (chooseVictims s h g).foldl (fun s v => s.requestFreeze v 0) s := by
  simp [consider, hg, hc, hi, hn]

/-- A graph with none ahead of it takes what its plan says (R166). -/
theorem consider_admits {p : AdmitPlan} (hp : planFor s h g = .ok (some p)) : consider [] s h = takeResources s h g p := by
  simp [consider, hg, hc, hi, hp, reservedAhead]

end

section
variable {s : State} {h : Word32} {g : Graph} (hg : s.graph? h.toNat = some g) (hp : g.phase = .running)
include hg hp

/-- A graph that has run 2 ms may be a victim: the queue is examined again (R168). -/
theorem victimMinRunTime_schedules (ht : 5 * 2000000 ≤ g.gtime - g.admitted) : exec (.victimMinRunTime h) s = .next (schedule s) := by
  simp only [exec_victimMinRunTime, execVictimMinRunTime, nanos, hg, hp, ht, and_self, if_true]

omit hp in
theorem victimMinRunTime_early (ht : g.gtime - g.admitted < 5 * 2000000) : exec (.victimMinRunTime h) s = .next s := by
  simp only [exec_victimMinRunTime, execVictimMinRunTime, nanos, hg, Nat.not_le.2 ht, and_false, if_false]

end

/-- Settles O43: the answers to a launch request, the Dealer's check, and what the scheduler does with one waiting graph. -/
theorem launchAndAdmission : Obligations.LaunchAndAdmission := by
  intro s c q x f n k' h g p
  refine ⟨fun hb hop hperf hrel hmv hcut haway hheld hx hk => ⟨?_, ?_, fun hfull hcls => ⟨?_, fun off pages hdir => ?_⟩⟩,
    fun hg => ⟨verdict_refuse hg f, placementTimeout_refuses hg, placementTimeout_early hg, fun hp hon hm => ⟨?_, ?_⟩,
      fun hw hc hi => ?_, fun hp ht => ⟨victimMinRunTime_schedules hg hp ht, rfl⟩, fun _ => victimMinRunTime_early hg⟩⟩
  -- A launch request (R164, R370).
  · exact launchRequest_full hb hop hperf hrel hmv hcut haway hheld hx hk
  · exact launchRequest_class hb hop hperf hrel hmv hcut haway hheld hx hk
  · exact launchRequest_unlisted hb hop hperf hrel hmv hcut haway hheld hx hk hfull hcls
  · refine ⟨_, launchRequest_creates hb hop hperf hrel hmv hcut haway hheld hx hk hfull hcls hdir, ?_⟩
    obtain ⟨hnew, hseq, hmem, hcores⟩ := createGraph_creates (s := s.modCore c fun k => k.setEntry q _) hk
      ((s.core c).entry q).addr off pages (((s.core c).entry q).data % 4) (some (c, q))
    refine ⟨hnew, ?_, hseq, hmem⟩
    rw [State.core, hcores, ← State.core, core_modCore_self, entry_setEntry_self]
  -- The Dealer's check of an image (R144).
  · exact imageValidation_refuses hg hp hon hm rfl
  · intro hf hl hb hd he hcut _
    refine ⟨_, imageValidation_queues hg hp hon hm rfl hf hl, ?_, ?_⟩
    · rw [graph?, completeEntry_graphs, ← graph?, graph?_imageQueued hg]
      rfl
    · rw [entry_completeEntry] <;> rw [core_imageQueued]
      · exact ⟨rfl, rfl, rfl⟩
      · exact hb
      · exact hd
      · exact hcut
      · exact he
  -- One graph that waits (R166 to R168).
  · have hadmit : exec .graphAdmit s = .next (consider [] s h.toNat) := congrArg Host.Outcome.next (schedule_one hw)
    rw [hadmit]
    refine ⟨fun hf hco => ?_, fun hf hco => ?_, fun hn hv => ?_, fun hn hv => ?_, fun hp => ?_⟩
    · rw [consider_refuses hg hc hi [] hf hco]
    · rw [consider_fails hg hc hi [] hf hco]
    · rw [consider_lacks hg hc hi [] hn, hv]; rfl
    · rw [consider_lacks hg hc hi [] hn, hv]; rfl
    · exact ⟨_, rfl, consider_admits hg hc hi hp, consider_admits hg hc hi hp ▸ takeResources_takes s h.toNat g p⟩

end Sys2Proof.Machine
end

section
/-! The commit of a load: reports, aborts, the commit wave, and GO between packages (R78, R79, R148 to R150), and O44. -/

namespace Sys2Proof.Machine

open State

/-! ### Reports of cores (R148, R149) -/

/-- A graph that spans packages has loaded on this one (R78). -/
def decidedHere (s : State) (h : Nat) : State := s.modGraph h fun g =>
  { g with decided := true, pkgOk := if g.pkgOk.contains s.links.pkg then g.pkgOk else s.links.pkg :: g.pkgOk }

section
variable {s : State} {h : Nat} {g : Graph} (hg : s.graph? h = some g)
include hg

/-- A graph waits for the reports of its cores (R148). -/
theorem reachDecision_waits (hall : (g.cores.all fun x => g.reported.contains x.2) = false) : reachDecision s h = s := by
  simp only [reachDecision, hg, hall, Bool.not_false, if_true]

section
variable (hall : (g.cores.all fun x => g.reported.contains x.2) = true)
include hall

/-- With every report in, a graph within one package is committed (R148). -/
theorem reachDecision_commits (hsp : spans g.img = false) :
    reachDecision s h = s.modGraph h fun g => { g with decided := true, phase := .committing } := by
  simp only [reachDecision, hg, hall, hsp, Bool.not_true, Bool.false_eq_true, if_false]

/-- One that spans packages has been decided here, and another package that coordinates it hears so (R78). -/
theorem reachDecision_reports (hsp : spans g.img = true) :
    reachDecision s h = if g.coord.isSome then reportLoad (decidedHere s h) h true else decidedHere s h := by
  simp only [reachDecision, hg, hall, hsp, Bool.not_true, Bool.false_eq_true, if_false, if_true]
  rfl

end

/-- The decision keeps memory and cores, and the reports of its graph. -/
theorem reachDecision_keeps : (reachDecision s h).mem = s.mem ∧ (∀ c, (reachDecision s h).core c = s.core c) ∧
    ((reachDecision s h).graph? h).map Graph.reported = some g.reported := by
  cases hall : g.cores.all fun x => g.reported.contains x.2 with
  | false => rw [reachDecision_waits hg hall]; exact ⟨rfl, fun _ => rfl, congrArg (Option.map _) hg⟩
  | true =>
    have hmod : ∀ f : Graph → Graph, (f g).reported = g.reported → (s.modGraph h f).mem = s.mem ∧
        (∀ c, (s.modGraph h f).core c = s.core c) ∧ ((s.modGraph h f).graph? h).map Graph.reported = some g.reported :=
      fun f hf => ⟨(onlyGraph_modGraph ..).1, core_modGraph s h f, by rw [graph?_modGraph hg, Option.map_some, hf]⟩
    cases hsp : spans g.img with
    | false => rw [reachDecision_commits hg hall hsp]; exact hmod _ rfl
    | true =>
      rw [reachDecision_reports hg hall hsp]
      split
      · exact hmod _ rfl
      · exact hmod _ rfl

/-- What every report in makes of a graph (R78, R148). -/
theorem reachDecision_decides (hp : g.phase = .loading) (hall : (g.cores.all fun x => g.reported.contains x.2) = true) :
    ((reachDecision s h).graph? h).map Graph.decided = some true ∧
      ((reachDecision s h).graph? h).map Graph.phase = some (if spans g.img then .loading else .committing) ∧
      (spans g.img = true → g.coord.isSome = true → (reachDecision s h).links.report = some (s.links.pkg, h, true)) := by
  cases hsp : spans g.img with
  | false =>
    rw [reachDecision_commits hg hall hsp, graph?_modGraph hg]
    exact ⟨rfl, rfl, fun hf => absurd hf (by simp)⟩
  | true =>
    have hmod : (decidedHere s h).graph? h = _ := graph?_modGraph hg _
    have hlinks : (decidedHere s h).links = s.links := modGraph_links ..
    rw [reachDecision_reports hg hall hsp]
    split
    · rw [reportLoad, hlinks]
      exact ⟨congrArg (Option.map _) hmod, (congrArg (Option.map _) hmod).trans (congrArg some hp), fun _ _ => rfl⟩
    · next hco =>
      exact ⟨congrArg (Option.map _) hmod, (congrArg (Option.map _) hmod).trans (congrArg some hp), fun _ h => absurd h hco⟩

end

/-- A core has reported its shadow state whole (R148, R151). -/
def reportState (s : State) (c : Nat) : State :=
  (s.modCore c fun k => { k with grid := { k.grid with lstate := 2 } }).modGraph (s.core c).graph fun g =>
    { g with reported := c :: g.reported }

section
variable {s : State} {c : Nat}

theorem reportState_core : (reportState s c).core c = { s.core c with grid := { (s.core c).grid with lstate := 2 } } :=
  (core_modGraph ..).trans (core_modCore_self ..)

variable {g : Graph} (hg : s.graph? (s.core c).graph = some g)
include hg

theorem graph?_reportState : (reportState s c).graph? (s.core c).graph = some { g with reported := c :: g.reported } :=
  graph?_modGraph (s := s.modCore c _) hg _

/-- The first report of a core: one with a cause fails the load, one without is counted and may bring the decision (R148, R149). -/
theorem shadowReport_reports (hp : g.phase = .loading) (hr : g.reported.contains c = false) (hready : reportReady s c = true)
    (cause : BitVec 9) : exec (.shadowReport c cause) s = .next (if cause ≠ 0
      then reportFailure s (s.core c).graph c cause.toNat else reachDecision (reportState s c) (s.core c).graph) := by
  have hfirst : ¬(g.phase ≠ .loading ∨ g.reported.contains c = true ∨ reportReady s c = false) := by rw [hp, hr, hready]; decide
  simp only [exec_shadowReport, execShadowReport, hg, if_neg hfirst]
  rfl

end

/-- Every core of a graph is one, or has reported: the reports of all are in with its own. -/
theorem all_contains_cons (cores : List (Nat × Nat)) (c : Nat) (l : List Nat) :
    (cores.all fun x => (c :: l).contains x.2) = cores.all fun x => x.2 == c || l.contains x.2 := by
  simp only [List.contains_cons]

/-! ### Aborts (R78, R149) -/

section
variable {s : State} {h : Word32} {g : Graph} (hg : s.graph? h.toNat = some g)
include hg

/-- A report that is missing after 1 ms aborts the load with LOAD.8 (R149). -/
theorem statusTimeout_aborts (hp : g.phase = .loading) (hd : g.decided = false) (ht : g.loadSince + 5 * 1000000 ≤ g.gtime) :
    exec (.statusTimeout h) s = .next (abortCounted s h.toNat { cause := 0x0A8 }) := by
  simp only [exec_statusTimeout, execStatusTimeout, nanos, hg, hp, hd, ht, and_self, if_true]

theorem statusTimeout_early (ht : g.gtime < g.loadSince + 5 * 1000000) : exec (.statusTimeout h) s = .next s := by
  simp only [exec_statusTimeout, execStatusTimeout, nanos, hg, Nat.not_le.2 ht, and_false, if_false]

end

/-- What keeps the registers of the core it changes keeps those of every core. -/
theorem regs_modCore {f : Core → Core} (hf : ∀ k, (f k).regs = k.regs) (s : State) (c d : Nat) :
    ((s.modCore c f).core d).regs = (s.core d).regs := by
  by_cases hd : d = c
  · subst hd; rw [core_modCore_self, hf]
  · rw [core_modCore_ne _ _ hd]

/-- A release keeps the general registers of every core (R172). -/
theorem regs_release (s : State) (h d : Nat) : ((s.release h).core d).regs = (s.core d).regs := by
  unfold release
  split
  · rfl
  · refine foldl_keeps (fun s => (s.core d).regs) (fun s c => regs_modCore (fun k => ?_) s c d) _ s
    rfl

/-- A core that its graph has released holds no shadow copy (R149, R172). -/
theorem shadow_release {s : State} {h d : Nat} {g : Graph} (hg : s.graph? h = some g) (hd : d ∈ s.coresOf h) :
    ((s.release h).core d).shadow = none := by
  unfold release
  simp only [hg]
  exact core_foldl_modCore (P := fun k => k.shadow = none) (fun _ _ => rfl) ((mem_coresOf hg).1 hd) s

section
variable {s : State} {h : Nat} {g : Graph} (hg : s.graph? h = some g)
include hg

/-- A graph whose load is aborted waits again, as if nothing had been reported (R149). -/
theorem abortLoad_queues (hi : g.image = none) :
    ((s.abortLoad h).graph? h).map (fun g => (g.phase, g.decided, g.reported)) = some (Phase.queued, false, []) := by
  rw [abortLoad, graph?_release_eq (graph?_modGraph hg _), hi]
  rfl

/-- The cores that a graph releases, however its record has changed meanwhile, are free and keep their general registers (R172). -/
theorem modGraph_release_frees (f : Graph → Graph) (hf : (f g).cores = g.cores) {d : Nat} (hd : d ∈ s.coresOf h) :
    (((s.modGraph h f).release h).core d).graph = 0 ∧ (((s.modGraph h f).release h).core d).shadow = none ∧
      (((s.modGraph h f).release h).core d).regs = (s.core d).regs := by
  have hmod := graph?_modGraph hg f
  have hcore : d ∈ (s.modGraph h f).coresOf h := by
    rw [mem_coresOf hmod, hf]
    exact (mem_coresOf hg).1 hd
  exact ⟨(core_release hmod hcore).1, shadow_release hmod hcore, (regs_release ..).trans (congrArg Core.regs (core_modGraph ..))⟩

end

/-! ### The commit wave (R148, R150) -/

/-- What rests neither on bytes nor on a core's meld graphs is after a swap as the commit of the core's registers leaves it (R148). -/
theorem swapCore_keeps {β : Type} (p : State → β) (c : Nat) (hmem : ∀ (s : State) m e, p { s with mem := m, ecc := e } = p s)
    (hmeld : ∀ (s : State) m, p (s.modCore c fun k => { k with meld := m }) = p s) (s : State) (sh : Shadow) :
    p (swapCore s c sh) = p (s.modCore c fun k => committedCore k sh s.time) := by
  have hload : ∀ (s : State) r, p (loadMeld s c r) = p s := fun s r =>
    (hmeld _ _).trans (foldl_keeps p (fun s (x : Nat × Word) => hmem s _ _) _ s)
  have hblock : ∀ (s : State) b, p (writeLibrary (writePlacement s c b) c b) = p s := fun s b => (hmem _ _ _).trans (hmem s _ _)
  let q := fun u : State => p (u.modCore c fun k => committedCore k sh s.time)
  have hq : ∀ (u : State) m e, q { u with mem := m, ecc := e } = q u := fun u m e =>
    hmem (u.modCore c fun k => committedCore k sh s.time) m e
  calc p (swapCore s c sh) = p (sh.melds.foldl (fun s r => loadMeld s c (meldRec r)) _) := foldl_keeps p hblock _ _
    _ = q (sh.seqBytes.foldl (fun s r => s.write (winBase c + 0x700000 + r.1) r.2) _) := foldl_keeps p (fun s r => hload s (meldRec r)) _ _
    _ = q ((s.clear (winBase c + 0x700000) 0x100000).clear (winBase c + 0x400000) 0x100000) :=
      foldl_keeps q (f := fun s (r : Nat × List Byte) => s.write (winBase c + 0x700000 + r.1) r.2) (fun u _ => hq u _ _) sh.seqBytes _
    _ = q s := (hq _ _ _).trans (hq s _ _)

section
variable (s : State) (c : Nat) (sh : Shadow)

theorem swapCore_graphs : (swapCore s c sh).graphs = s.graphs :=
  swapCore_keeps State.graphs c (fun _ _ _ => rfl) (fun _ _ => rfl) s sh

theorem swapCore_core_ne {d : Nat} (hd : d ≠ c) : (swapCore s c sh).core d = s.core d :=
  (swapCore_keeps (fun s => s.core d) c (fun _ _ _ => rfl) (fun s _ => core_modCore_ne s _ hd) s sh).trans (core_modCore_ne s _ hd)

/-- A core is as its commit leaves it, but for its meld graphs (R148). -/
theorem swapCore_core : ({ (swapCore s c sh).core c with meld := {} } : Core) = committedCore (s.core c) sh s.time := by
  refine (swapCore_keeps (fun s => ({ s.core c with meld := {} } : Core)) c (fun _ _ _ => rfl) (fun s m => ?_) s sh).trans ?_
  · simp only [core_modCore_self]
  · simp only [core_modCore_self]; rfl

end

theorem mode_committedCore (k : Core) (sh : Shadow) (t : Nat) : (committedCore k sh t).mode = sh.mode := by
  cases hm : sh.mode <;> simp only [Core.mode, committedCore, hm] <;> rfl

theorem hostDrain_frame (s : State) (h gport : Nat) : (hostDrain s h gport).graphs = s.graphs ∧
    (hostDrain s h gport).cores = s.cores := by
  unfold hostDrain
  split
  · exact ⟨rfl, rfl⟩
  · split <;> exact ⟨rfl, rfl⟩

/-- Ingress ports that are bound change no graph and no core (R95). -/
theorem bindIngress_frame (s : State) (h : Nat) (thaw : Bool) :
    (bindIngress s h thaw).graphs = s.graphs ∧ (bindIngress s h thaw).cores = s.cores := by
  unfold bindIngress
  simp only
  split
  · exact ⟨rfl, rfl⟩
  · exact ⟨foldl_keeps State.graphs (fun s p => (hostDrain_frame s h p).1) _ _,
      foldl_keeps State.cores (fun s p => (hostDrain_frame s h p).2) _ _⟩

/-- A graph without an image to thaw runs once every core has swapped, unless a freeze waits (R148, R150). -/
theorem startGraph_starts {s : State} {h : Nat} {g : Graph} (hg : s.graph? h = some g) (hi : g.image = none) (hf : g.frzSince = none) :
    ((startGraph s h).graph? h).map Graph.phase = some .running ∧ ∀ c, (startGraph s h).core c = s.core c := by
  have hrun : startGraph s h = bindIngress (s.modGraph h fun g => { g with
      phase := if g.frzSince.isSome then .freezing else .running, image := none, thawed := g.image, frzCores := [] }) h false := by
    simp only [startGraph, hg, hi, Option.isSome_none, Bool.false_eq_true, if_false]
  constructor
  · rw [hrun, graph?, (bindIngress_frame ..).1, ← graph?, graph?_modGraph hg, hf]
    rfl
  · intro c
    rw [hrun, State.core, (bindIngress_frame ..).2]
    exact core_modGraph ..

section
variable {s : State} {c : Nat} {g : Graph} {sh : Shadow} (hg : s.graph? (s.core c).graph = some g) (hp : g.phase = .committing)
  (hs : (s.core c).shadow = some sh) (ha : g.acked.contains c = false) (hm : s.ecc.marks = [])

/-- A core has swapped its copies and acknowledges (R148). -/
def swapState (s : State) (c : Nat) (sh : Shadow) : State :=
  (swapCore s c sh).modGraph (s.core c).graph fun g => { g with acked := c :: g.acked }

theorem swapState_core_ne {d : Nat} (hd : d ≠ c) : (swapState s c sh).core d = s.core d :=
  (core_modGraph ..).trans (swapCore_core_ne s c sh hd)

theorem swapState_core : ({ (swapState s c sh).core c with meld := {} } : Core) = committedCore (s.core c) sh s.time :=
  (congrArg (fun k : Core => ({ k with meld := {} } : Core)) (core_modGraph ..)).trans (swapCore_core s c sh)

include hg

theorem graph?_swapState : (swapState s c sh).graph? (s.core c).graph = some { g with acked := c :: g.acked } :=
  graph?_modGraph (by rw [graph?, swapCore_graphs]; exact hg) _

include hp hs ha hm

/-- The wave that reaches a core swaps its copies; the last one starts the graph (R148). -/
theorem commitSwap_swaps : exec (.commitSwap c) s =
    .next (if g.cores.all fun x => x.2 == c || g.acked.contains x.2 then startGraph (swapState s c sh) (s.core c).graph
      else swapState s c sh) := by
  have hreach : ¬(g.phase ≠ .committing ∨ g.acked.contains c = true) := by rw [hp, ha]; decide
  simp only [exec_commitSwap, execCommitSwap, hg, hs, if_neg hreach, stateUe, ueAt_of_unmarked hm]
  rfl

end

/-! ### Graphs that span packages (R78, R79) -/

section
variable {s : State} {h : Word32} {g : Graph} (hg : s.graph? h.toNat = some g) (hsp : spans g.img = true)
include hg hsp

section
variable {pkg : Nat} (hp : g.phase = .loading) (hc : g.coord = none) (hpkg : pkg ∈ packagesOf g.img)
include hp hc hpkg

/-- A package of the graph that reports success is counted (R78). -/
theorem packageReport_counts : exec (.packageReport h pkg true) s = .next (s.modGraph h.toNat fun g =>
    { g with pkgOk := if g.pkgOk.contains pkg then g.pkgOk else pkg :: g.pkgOk }) := by
  simp [execPackageReport, hg, hsp, hp, hc, hpkg]

/-- One that reports a failure has the graph refused with DEAL.13 (R78). -/
theorem packageReport_fails : exec (.packageReport h pkg false) s =
    .next ((refuse (s.abortLoad h.toNat) h.toNat 0x09D).modGraph h.toNat fun g => { g with image := none, frzLen := 0 }) := by
  simp [execPackageReport, hg, hsp, hp, hc, hpkg]

end

/-- Every package of a graph has reported success. -/
def Graph.AllOk (g : Graph) : Prop := ∀ p, p ∈ packagesOf g.img → p ∈ g.pkgOk

omit hg hsp in
theorem Graph.all_contains_iff : ((packagesOf g.img).all fun p => g.pkgOk.contains p) = true ↔ g.AllOk := by
  simp [Graph.AllOk]

/-- GO commits a graph that is decided here: at its coordinator once all have reported, elsewhere at once (R78). -/
theorem xpkgGo_commits (hp : g.phase = .loading) (hd : g.decided = true) (hgo : g.AllOk ∨ g.coord.isSome = true) :
    exec (.xpkgGo h) s = .next (s.modGraph h.toNat fun g => { g with phase := .committing }) := by
  have hgo : (g.coord.isSome || (packagesOf g.img).all fun p => g.pkgOk.contains p) = true := by
    rw [Bool.or_eq_true, Graph.all_contains_iff]; exact hgo.symm
  simp only [exec_xpkgGo, execXpkgGo, hg, hp, hsp, hd, hgo, decide_true, Bool.and_self, if_true]

omit hsp in
theorem xpkgGo_waits (hc : g.coord = none) (hall : ¬ g.AllOk) : exec (.xpkgGo h) s = .next s := by
  have hall := Bool.eq_false_iff.2 (mt Graph.all_contains_iff.1 hall)
  simp only [exec_xpkgGo, execXpkgGo, hg, hc, hall, Option.isSome_none, Bool.or_self, Bool.and_false, Bool.false_eq_true, if_false]

/-- ABORT has the graph wait again at its coordinator (R78, R79). -/
theorem xpkgAbort_aborts (hp : g.phase = .loading) (hc : g.coord = none) : exec (.xpkgAbort h) s = .next (s.abortLoad h.toNat) := by
  simp [execXpkgAbort, hg, hsp, hp, hc]

/-- Elsewhere ABORT has the graph leave (R78, R79). -/
theorem xpkgAbort_leaves (hp : g.phase = .loading ∨ g.phase = .queued) (hc : g.coord.isSome = true) :
    exec (.xpkgAbort h) s = .next (s.dropPeer h.toNat) := by
  simp [execXpkgAbort, hg, hsp, hp, hc]

/-- A package's report that is missing after 10 ms aborts the commit with LINK.8 (R78). -/
theorem xpkgReportTimeout_aborts (hp : g.phase = .loading) (hc : g.coord = none) (hall : ¬ g.AllOk)
    (ht : g.admitted + 5 * 10000000 ≤ g.gtime) :
    exec (.xpkgReportTimeout h) s = .next ((s.abortLoad h.toNat).notifyGraph h.toNat { cause := 0x118 }) := by
  have hall := Bool.eq_false_iff.2 (mt Graph.all_contains_iff.1 hall)
  simp only [exec_xpkgReportTimeout, execXpkgReportTimeout, nanos, hg, hp, hsp, hc, hall, ht, Option.isNone_none, and_self, if_true]

/-- A halt on another package halts the graph here with LINK.15 (R79). -/
theorem peerHalt_halts : exec (.peerHalt h) s = .next (s.haltGraph h.toNat { cause := 0x11F }) := by
  simp only [exec_peerHalt, execPeerHalt, hg, hsp, if_true]

end

/-- Settles O44: the reports of cores, the commit wave, the aborts, and what the packages of one graph tell each other. -/
theorem commitEvents : Obligations.CommitEvents := by
  refine ⟨fun s c H h g sh cause => ⟨fun hg hp hr hready => ⟨fun hcause => ?_, ?_⟩,
      fun hg hp hs ha hm => ⟨fun hrest => ?_, fun hrest hi hf => ?_⟩,
      fun hg hp hd => ⟨statusTimeout_aborts hg hp hd, statusTimeout_early hg⟩,
      fun hg hi => ⟨abortLoad_queues hg hi, (onlyGraph_abortLoad ..).1, fun d => modGraph_release_frees hg _ rfl⟩⟩,
    fun s h pkg g hg hsp => ⟨fun hp hc hpkg => ⟨⟨_, packageReport_counts hg hsp hp hc hpkg, ?_⟩, _,
        packageReport_fails hg hsp hp hc hpkg, ?_⟩,
      fun hp hd hgo => ⟨_, xpkgGo_commits hg hsp hp hd hgo, ?_⟩, fun _ => xpkgGo_waits hg, xpkgAbort_aborts hg hsp,
      xpkgAbort_leaves hg hsp, xpkgReportTimeout_aborts hg hsp, peerHalt_halts hg hsp⟩⟩
  -- A core reports its shadow state (R148).
  · rw [shadowReport_reports hg hp hr hready, if_pos hcause]
  · have hg' := graph?_reportState hg
    obtain ⟨hmem, hcore, hrep⟩ := reachDecision_keeps hg'
    refine ⟨_, by rw [shadowReport_reports hg hp hr hready, if_neg (not_not_intro rfl)], ?_, ?_, ?_, hrep,
      fun hrest => ?_, fun hrest => ?_⟩
    · exact (congrArg (·.grid.lstate) ((hcore c).trans reportState_core) :)
    · exact (congrArg Core.regs ((hcore c).trans reportState_core) :)
    · exact hmem.trans (onlyGraph_modGraph ..).1
    · rw [reachDecision_waits hg' ((all_contains_cons ..).trans hrest), hg']
      exact congrArg some hp
    · have hdec := reachDecision_decides hg' hp ((all_contains_cons ..).trans hrest)
      rwa [reportState, modGraph_links] at hdec
  -- The wave reaches a core that is not the last (R148).
  · have hcore := swapState_core (s := s) (c := c) (sh := sh)
    refine ⟨_, commitSwap_swaps hg hp hs ha hm, ?_⟩
    rw [if_neg (Bool.eq_false_iff.1 hrest), graph?_swapState hg]
    exact ⟨rfl, congrArg some hp, (congrArg Core.regs hcore :), (congrArg Core.vector hcore :), (congrArg Core.codewin hcore :),
      (congrArg Core.descs hcore :), (congrArg Core.run hcore :), ((congrArg Core.mode hcore).trans (mode_committedCore ..) :),
      (congrArg Core.eclass hcore :), (congrArg Core.entries hcore :), (congrArg Core.phase hcore :), (congrArg Core.actor hcore :),
      (congrArg Core.shadow hcore :), fun d hd => swapState_core_ne hd⟩
  -- It reaches the last core, and the graph starts (R148).
  · have hcore := swapState_core (s := s) (c := c) (sh := sh)
    obtain ⟨hphase, hcores⟩ := startGraph_starts (graph?_swapState (sh := sh) hg) hi hf
    refine ⟨_, commitSwap_swaps hg hp hs ha hm, ?_⟩
    rw [if_pos hrest, hcores]
    exact ⟨hphase, (congrArg Core.codewin hcore :), (congrArg Core.descs hcore :)⟩
  -- A package's report (R78).
  · rw [graph?_modGraph hg]
    refine ⟨(onlyGraph_modGraph ..).1, (congrArg State.cores (sansTold_modGraph ..) :), congrArg some hp, _, rfl, fun p => ?_⟩
    split
    · next hin => exact ⟨.inr, fun h => h.elim (fun he => he ▸ List.contains_iff_mem.1 hin) id⟩
    · exact List.mem_cons
  · obtain ⟨g', hg', -⟩ := graph?_abortLoad hg
    refine ⟨(onlyGraph_modGraph ..).1.trans ((onlyGraph_refuse ..).1.trans (onlyGraph_abortLoad ..).1), ?_⟩
    refine (verdict_modGraph fun g => ?_).trans (verdict_refuse hg' 0x09D)
    exact ⟨rfl, rfl⟩
  -- GO (R78).
  · rw [graph?_modGraph hg]
    exact ⟨(congrArg State.cores (sansTold_modGraph ..) :), rfl⟩

end Sys2Proof.Machine
end

section
/-! Every step keeps both memories canonical (O59; R188, R99).

Bytes change only through `memWrite`, `memFilter` and `memPut`, and each keeps a canonical list canonical (the laws of
maps). What remains is that no function of the model changes a memory otherwise: one lemma for each that answers a
  state,
in the model's order and under the name of the model's file, says that a canonical state goes to a canonical one. A
function that a model function takes as an argument is assumed to do the same. -/

namespace Sys2Proof.Machine

/-- Both memories, the machine's and the host's, are in their canonical form: `MemOk` as a constant that does not unfold
of itself, so that a goal about a step's state is never answered by computing that state. -/
def Canon (s : State) : Prop := MemOk s

theorem Canon.intro {s : State} (hm : Memory.wf s.mem = true) (hh : Memory.wf s.host.mem = true) : Canon s :=
  And.intro hm hh

theorem Canon.ite {p : Prop} [Decidable p] {a b : State} (ha : Canon a) (hb : Canon b) :
    Canon (if p then a else b) := by
  split
  · exact ha
  · exact hb

theorem Canon.foldl {α : Type} {f : State → α → State} {l : List α} {s : State} (hs : Canon s)
    (hf : ∀ t a, Canon t → Canon (f t a)) :
    Canon (l.foldl f s) :=
  List.foldlRecOn l f hs fun t ht a _ => hf t a ht

theorem Canon.congr {s t : State} (hs : Canon s) (hm : t.mem = s.mem) (hh : t.host.mem = s.host.mem) : Canon t :=
  .intro (hm ▸ hs.1) (hh ▸ hs.2)

theorem Canon.snd {α : Type} {p : α × State} {t : State} {a : α} (h : Canon p.2) (e : p = (a, t)) : Canon t := by
  rw [e] at h
  exact h

/-- The state an outcome answers, where it answers one, has canonical memories. -/
def NextOk (r : Result) : Prop := ∀ t, r = .next t → Canon t

theorem NextOk.next {t : State} (h : Canon t) : NextOk (.next t) := by
  rintro _ ⟨⟩
  exact h

theorem NextOk.ite {p : Prop} [Decidable p] {a b : Result} (ha : NextOk a) (hb : NextOk b) :
    NextOk (if p then a else b) := by
  split
  · exact ha
  · exact hb

/-- The state that a command's issue leaves, where it leaves one, has canonical memories. -/
def IssueOk : Issue → Prop
  | .wait => True
  | .fault _ => True
  | .halt t => Canon t
  | .ok t _ => Canon t

theorem IssueOk.ite {p : Prop} [Decidable p] {a b : Issue} (ha : IssueOk a) (hb : IssueOk b) :
    IssueOk (if p then a else b) := by
  split
  · exact ha
  · exact hb

theorem IssueOk.halt {r : Issue} {t : State} (h : IssueOk r) (e : r = .halt t) : Canon t := by
  rw [e] at h
  exact h

theorem IssueOk.ok {r : Issue} {t : State} {v : Word} (h : IssueOk r) (e : r = .ok t v) : Canon t := by
  rw [e] at h
  exact h

variable {s : State}

/-! ### `Machine/Ops` -/

theorem Canon.setCore {c : Nat} {k : Core} (hs : Canon s) : Canon (State.setCore s c k) := hs

theorem Canon.modCore {c : Nat} {f : Core → Core} (hs : Canon s) : Canon (State.modCore s c f) := hs.setCore

theorem Canon.modCur {f : Core → Core} (hs : Canon s) : Canon (State.modCur s f) := hs.modCore

theorem Canon.write {a : Nat} {bs : List Byte} (hs : Canon s) : Canon (s.write a bs) :=
  .intro (memWrite_wf hs.1) hs.2

theorem Canon.setTile {c off : Nat} {bs : List Byte} (hs : Canon s) : Canon (State.setTile s c off bs) := hs.write

theorem Canon.modGraph {h : Nat} {f : Graph → Graph} (hs : Canon s) : Canon (State.modGraph s h f) := by
  unfold State.modGraph
  split <;> exact hs

theorem Canon.modCtx {x : Nat} {f : Ctx → Ctx} (hs : Canon s) : Canon (State.modCtx s x f) := by
  unfold State.modCtx
  split <;> exact hs

theorem Canon.strikeByte {x : Nat} {ue : Bool} (hs : Canon s) : Canon (strikeByte s x ue) := hs

theorem Canon.tellMgmt {n : Notice} (hs : Canon s) : Canon (State.tellMgmt s n) := by
  unfold State.tellMgmt
  exact .ite hs (.ite hs hs)

theorem Canon.countMgmt {cause : Nat} (hs : Canon s) : Canon (State.countMgmt s cause) := hs

theorem Canon.countHost (hs : Canon s) : Canon (State.countHost s) := hs

theorem Canon.queueNotices {x : Nat} {ns : List Notice} (hs : Canon s) : Canon (State.queueNotices s x ns) :=
  hs.modCtx

theorem Canon.notify {x : Nat} {n : Notice} (hs : Canon s) : Canon (State.notify s x n) := by
  unfold State.notify
  split
  · exact hs
  · exact .ite hs.modCtx (.ite hs.queueNotices hs.modCtx.queueNotices)

theorem Canon.notifyGraph {h : Nat} {n : Notice} (hs : Canon s) : Canon (State.notifyGraph s h n) := hs.notify

theorem Canon.notifyCopied {h : Nat} {n : Notice} (hs : Canon s) : Canon (State.notifyCopied s h n) :=
  hs.tellMgmt.notifyGraph

theorem Canon.completeEntry {c q fault resp : Nat} (hs : Canon s) : Canon (State.completeEntry s c q fault resp) :=
  hs.modCore

theorem Canon.completeAll {ws : List (Nat × Nat)} {fault : Nat} (hs : Canon s) : Canon (State.completeAll s ws fault) :=
  .foldl hs fun _ _ ht => ht.completeEntry

theorem Canon.recordOutcome {h cause : Nat} (hs : Canon s) : Canon (State.recordOutcome s h cause) := hs.modCtx

theorem Canon.unbindEgress {h : Nat} (hs : Canon s) : Canon (State.unbindEgress s h) := hs

theorem Canon.release {h : Nat} (hs : Canon s) : Canon (State.release s h) := by
  unfold State.release
  split
  · exact hs
  · exact .unbindEgress (.foldl hs fun _ _ ht => ht.modCore)

theorem Canon.egressHalt {h cause : Nat} (hs : Canon s) : Canon (State.egressHalt s h cause) := hs

theorem Canon.settleHalt {x : Nat} (hs : Canon s) : Canon (State.settleHalt s x) := by
  unfold State.settleHalt
  split
  · exact hs
  · exact .ite hs.modCtx.notify hs

theorem Canon.abortLoad {h : Nat} (hs : Canon s) : Canon (State.abortLoad s h) := hs.modGraph.release

theorem Canon.dropPeer {h : Nat} (hs : Canon s) : Canon (State.dropPeer s h) := by
  unfold State.dropPeer
  split
  · exact hs
  · exact .ite hs.abortLoad.modGraph hs.release

theorem Canon.secondFault {h : Nat} {n : Notice} (hs : Canon s) : Canon (s.secondFault h n) := by
  unfold State.secondFault
  split
  · exact hs
  · refine .ite ?_ hs
    split <;> exact hs

theorem Canon.queueDump {h : Nat} (hs : Canon s) : Canon (s.queueDump h) := .ite hs.notifyCopied.release hs

theorem Canon.haltStops {h : Nat} {g : Graph} {n : Notice} (hs : Canon s) : Canon (State.stopGraph s h g n) :=
  hs.secondFault.completeAll.foldl fun _ _ ht => ht.modCore

/-! ### `Machine/Ops` -/

theorem Canon.haltGraph {h : Nat} {n : Notice} (hs : Canon s) : Canon (s.haltGraph h n) := by
  rcases hg : s.graph? h with _ | g
  · simpa only [State.haltGraph, hg] using hs
  by_cases hl : g.Haltable
  · rw [State.haltGraph_of_live n hg hl]
    exact hs.haltStops.notify.recordOutcome.egressHalt.unbindEgress.queueDump.settleHalt
  by_cases hp : g.phase = .halted
  · rw [State.haltGraph_of_halted n hg hp]
    exact hs.modGraph.secondFault
  · have hstay : s.haltGraph h n = s := by
      simp only [State.haltGraph, hg]
      split <;> simp_all [Graph.Haltable]
    rwa [hstay]

theorem Canon.haltCopied {h : Nat} {n : Notice} (hs : Canon s) : Canon (State.haltCopied s h n) := by
  unfold State.haltCopied
  exact .haltGraph (.ite hs hs.tellMgmt)

theorem Canon.haltReached {h : Nat} {n : Notice} (hs : Canon s) : Canon (State.haltReached s h n) := by
  unfold State.haltReached
  exact .ite hs.haltCopied hs.haltGraph

theorem Canon.haltToken {c cause port chan ord : Nat} (hs : Canon s) :
    Canon (State.haltToken s c cause port chan ord) :=
  hs.haltReached

theorem Canon.refuse {h cause : Nat} (hs : Canon s) : Canon (refuse s h cause) := by
  unfold Machine.refuse
  split
  · exact hs
  · next g hg =>
    extract_lets note s0 s1 s2 ports
    have h0 : Canon s0 := .ite hs.countHost hs
    have h2 : Canon s2 := by
      unfold s2
      split
      · exact h0.notifyGraph.recordOutcome
      · exact h0.notifyGraph.recordOutcome.completeEntry
    exact h2

theorem Canon.reportLoad {h : Nat} {ok : Bool} (hs : Canon s) : Canon (reportLoad s h ok) := hs

theorem Canon.failLoad {h : Nat} (hs : Canon s) : Canon (State.failLoad s h) := by
  unfold State.failLoad
  split
  · exact hs
  · exact .ite hs.reportLoad.dropPeer hs.abortLoad.settleHalt

theorem Canon.abortCounted {h : Nat} {note : Notice} (hs : Canon s) : Canon (abortCounted s h note) := by
  unfold Machine.abortCounted
  split
  · exact hs
  · exact .ite hs.notifyGraph.failLoad (.ite hs.failLoad.modGraph.notifyGraph hs.failLoad.modGraph.refuse.modGraph)

theorem Canon.loadError {h : Nat} {note : Notice} (hs : Canon s) : Canon (loadError s h note) :=
  hs.tellMgmt.abortCounted

theorem Canon.haltLocation {h cause unit layer place : Nat} (hs : Canon s) :
    Canon (State.haltLocation s h cause unit layer place) := by
  unfold State.haltLocation
  dsimp only
  split
  · exact .ite hs.haltGraph hs.haltCopied
  · exact .ite hs.loadError (.ite hs.haltCopied (.ite hs.haltGraph hs.haltCopied))

theorem Canon.requestFreeze {h origin : Nat} (hs : Canon s) : Canon (State.requestFreeze s h origin) := by
  unfold State.requestFreeze
  split
  · exact hs
  · split
    · exact hs.modGraph
    · exact hs.modGraph
    · exact .ite hs.dropPeer hs.abortLoad
    · exact hs

theorem Canon.haltContext {x : Nat} (hs : Canon s) : Canon (State.haltContext s x) := by
  unfold State.haltContext
  split
  · exact hs
  · exact .ite hs (.settleHalt (.modCtx (.foldl hs fun _ _ ht => .ite ht.requestFreeze ht)))

theorem Canon.cutCore {c : Nat} (hs : Canon s) : Canon (State.cutCore s c) := by
  unfold State.cutCore
  dsimp only
  split
  · exact hs.modCore.modGraph
  · exact .ite hs.modCore.modGraph.modGraph.notifyGraph hs.modCore.modGraph

theorem Canon.startCut {h c : Nat} (hs : Canon s) : Canon (State.startCut s h c) := by
  unfold State.startCut
  split
  · exact hs
  · exact .ite hs.cutCore hs.modGraph.cutCore

theorem Canon.releaseCut {h : Nat} (hs : Canon s) : Canon (State.releaseCut s h) :=
  .notifyGraph (.modGraph (.foldl hs fun _ _ ht => ht.modCore))

theorem Canon.trapAt {c cause tval epc : Nat} (hs : Canon s) : Canon (State.trapAt s c cause tval epc) := by
  unfold State.trapAt
  dsimp only
  split
  · exact hs.modCore.haltLocation
  · split
    · exact .ite hs.setCore.startCut hs.setCore.haltGraph
    · refine .ite ?_ hs.setCore
      split
      · exact hs.setCore.tellMgmt.setCore
      · exact hs.setCore.tellMgmt.haltContext
      · exact hs.setCore.tellMgmt

theorem Canon.trap {cause tval : Nat} (hs : Canon s) : Canon (State.trap s cause tval) := hs.trapAt

theorem Canon.returnFromTrap (hs : Canon s) : Canon (State.returnFromTrap s) := hs.modCur

theorem Canon.goto {a : Nat} (hs : Canon s) : Canon (State.goto s a) := hs.modCur

theorem Canon.advance {n : Nat} (hs : Canon s) : Canon (State.advance s n) := hs.goto

theorem Canon.setReg {r : Reg} {v : Word} (hs : Canon s) : Canon (State.setReg s r v) := hs.modCur

theorem Canon.wait (hs : Canon s) : Canon (State.wait s) := hs.modCur

theorem Canon.takeFresh (hs : Canon s) : Canon (State.takeFresh s).2 := hs

theorem Canon.finish {d : Reg} {v : Word} (hs : Canon s) : NextOk (finish s d v) := .next hs.setReg.advance

theorem Canon.finish0 (hs : Canon s) : NextOk (finish0 s) := .next hs.advance

/-! ### `Machine/Ecc` -/

theorem Canon.ueHalt {c x : Nat} (hs : Canon s) : Canon (State.ueHalt s c x) := hs.haltLocation

theorem Canon.correctOne {x : Nat} (hs : Canon s) : Canon (State.correctOne s x) := by
  unfold State.correctOne
  exact .ite (.tellMgmt hs) hs

theorem Canon.correct {a n : Nat} (hs : Canon s) : Canon (State.correct s a n) :=
  .foldl hs fun _ _ ht => ht.correctOne

/-! ### `Machine/Access` -/

theorem Canon.cpStore {c off : Nat} {v : Word} (hs : Canon s) : Canon (cpStore s c off v) :=
  .ite hs.modCore (.ite (.ite hs.modCore.modCore hs.modCore) hs)

theorem Canon.winPut {c : Nat} {sub : Sub} {off : Nat} {b : Byte} (hs : Canon s) : Canon (winPut s c sub off b) := by
  unfold Machine.winPut
  split
  · exact hs
  · exact hs.modCore
  · exact .ite hs hs.write
  · exact .ite hs hs.write
  · exact hs.write

theorem Canon.winWrite {c : Nat} {sub : Sub} {off : Nat} {bs : List Byte} (hs : Canon s) :
    Canon (winWrite s c sub off bs) := by
  induction bs generalizing s off with
  | nil => exact hs
  | cons b bs ih => exact ih hs.winPut

theorem Canon.localWrite {pa : Nat} {bs : List Byte} (hs : Canon s) : Canon (localWrite s pa bs) := by
  unfold Machine.localWrite
  split
  · exact hs.write
  · exact hs.cpStore
  · exact hs.winWrite
  · exact hs

/-! ### `Machine/Operands` -/

theorem Canon.afterAcquire {f : State → Result} (hs : Canon s) (hf : ∀ {t}, Canon t → NextOk (f t)) :
    NextOk (afterAcquire s f) := by
  unfold Machine.afterAcquire
  exact NextOk.ite (.next hs.wait) (hf hs)

theorem Canon.privileged {ok : Mode → Bool} {f : State → Result} (hs : Canon s) (hf : ∀ {t}, Canon t → NextOk (f t)) :
    NextOk (privileged ok s f) := by
  unfold Machine.privileged
  exact NextOk.ite (hf hs) (.next hs.trap)

theorem Canon.checks {cs : List (Option Nat)} {tval : Nat} {f : State → Result} (hs : Canon s)
    (hf : ∀ {t}, Canon t → NextOk (f t)) :
    NextOk (checks cs tval s f) := by
  unfold Machine.checks
  split
  · exact .next hs.trap
  · exact hf hs

/-! ### `Machine/Actors` -/

theorem Canon.setPortIndex {c a p i : Nat} (hs : Canon s) : Canon (setPortIndex s c a p i) := hs.write

theorem Canon.portHalt {c a p cause ord : Nat} (hs : Canon s) : Canon (portHalt s c a p cause ord) := hs.haltToken

theorem Canon.sendOn {c i : Nat} {m : PtrMsg} (hs : Canon s) : Canon (sendOn s c i m) := by
  unfold Machine.sendOn
  dsimp only
  split
  · exact hs.modCore
  · exact hs
  · exact hs

theorem Canon.sendOne {bytes : List Byte} {marks : List Word} {c a p i : Nat} (hs : Canon s) :
    Canon (sendOne bytes marks c a p s i) := by
  unfold Machine.sendOne
  split
  · exact hs
  · exact hs.modCore.sendOn

theorem Canon.drainOne {c i : Nat} (hs : Canon s) : Canon (drainOne c s i) := hs.modCore.sendOn

theorem Canon.countToken {c a p : Nat} (hs : Canon s) : Canon (countToken s c a p) := hs.modCore

theorem Canon.hitBreak {c : Nat} {b : Break} {port chan : Nat} (hs : Canon s) : Canon (hitBreak s c b port chan) :=
  hs.modCore.notifyGraph.startCut

theorem Canon.rateTrap {c cause p ord : Nat} (hs : Canon s) : Canon (rateTrap s c cause p ord) := by
  unfold Machine.rateTrap
  exact .portHalt (.ite hs.setCore hs.trapAt)

theorem Canon.monitorTrap {c cause p ord : Nat} (hs : Canon s) : Canon (monitorTrap s c cause p ord) :=
  hs.modCore.rateTrap

theorem Canon.produce {c p : Nat} {bytes : List Byte} {marks : List Word} (hs : Canon s) :
    Canon (produce s c p bytes marks) := by
  unfold Machine.produce
  exact .ite hs.portHalt (.ite hs.monitorTrap (.countToken (.foldl hs fun _ _ ht => ht.sendOne)))

theorem Canon.sendDrain {c a p : Nat} (hs : Canon s) : Canon (sendDrain s c a p) :=
  .foldl hs.modCore fun _ _ ht => ht.drainOne

theorem Canon.statNotice {h core detail : Nat} {sat : Bool} (hs : Canon s) :
    Canon (statNotice s h core detail sat) := by
  unfold Machine.statNotice
  exact .ite hs.notifyGraph hs

/-! ### `Machine/Grid` -/

theorem Canon.modElem {x : Site} {f : Elem → Elem} (hs : Canon s) : Canon (State.modElem s x f) := hs.modCore

theorem Canon.setLink {x : Site} {slot : Nat} {l : List Item} (hs : Canon s) : Canon (State.setLink s x slot l) :=
  hs.modCore

theorem Canon.setChan {c n : Nat} {l : List Item} (hs : Canon s) : Canon (State.setChan s c n l) := hs.modCore

theorem Canon.modGrid {c : Nat} {f : Grid → Grid} (hs : Canon s) : Canon (State.modGrid s c f) := hs.modCore

theorem Canon.swapStat {c e : Nat} (hs : Canon s) : Canon (swapStat s c e) := hs.write.write

theorem Canon.slotHalt {x : Site} {slot cause ord : Nat} (hs : Canon s) : Canon (slotHalt s x slot cause ord) :=
  hs.haltToken

theorem Canon.gridHalt {x : Site} {slot cause : Nat} (hs : Canon s) : Canon (gridHalt s x slot cause) := hs.slotHalt

theorem Canon.tokenHalt {x : Site} {slot cause : Nat} (hs : Canon s) : Canon (tokenHalt s x slot cause) :=
  hs.slotHalt

theorem Canon.flushTarget {x : Site} {t : Target} {second : Bool} (hs : Canon s) :
    Canon (flushTarget s x t second) := by
  unfold Machine.flushTarget
  exact .ite hs (.ite hs.modElem.modElem hs.setLink.modElem)

theorem Canon.flush {x : Site} {b : Blk} (hs : Canon s) : Canon (flush s x b) := hs.flushTarget.flushTarget

theorem Canon.emit0 {x : Site} {b : Blk} {items : List Item} (hs : Canon s) : Canon (emit0 s x b items) := by
  unfold Machine.emit0
  exact .ite hs.modElem hs

theorem Canon.emit1 {x : Site} {b : Blk} {items : List Item} (hs : Canon s) : Canon (emit1 s x b items) := by
  unfold Machine.emit1
  exact .ite hs.modElem hs

theorem Canon.emit {x : Site} {b : Blk} {items : List Item} (hs : Canon s) : Canon (emit s x b items) :=
  hs.emit0.emit1

theorem Canon.pop {x : Site} {slot : Nat} (hs : Canon s) : Canon (pop s x slot) := by
  unfold Machine.pop
  dsimp only
  split
  · exact .ite hs.setLink.modElem hs.setLink.modElem
  · exact hs.setLink

theorem Canon.popAll {x : Site} {slots : List Nat} (hs : Canon s) : Canon (popAll s x slots) :=
  .foldl hs fun _ _ ht => ht.pop

theorem Canon.waitsNow {x : Site} (hs : Canon s) : Canon (waitsNow s x) := hs.modElem

theorem Canon.noteWait {x : Site} {slots : List Nat} (hs : Canon s) : Canon (noteWait s x slots) := by
  unfold Machine.noteWait
  exact .ite hs.waitsNow hs

theorem Canon.noteFull {x : Site} (hs : Canon s) : Canon (noteFull s x) := by
  unfold Machine.noteFull
  exact .ite hs.modElem hs

theorem Canon.addStats {x : Site} {cs : List Nat} (hs : Canon s) : Canon (addStats s x cs) := hs.modElem.statNotice

theorem Canon.tileCounts {x : Site} {stat : Bool} (hs : Canon s) : Canon (tileCounts s x stat) := by
  unfold Machine.tileCounts
  refine .ite hs.modElem ?_
  split
  · exact hs.modElem
  · exact hs.modElem.modElem

theorem Canon.markAction {x : Site} {stat : Bool} {w : Word} (hs : Canon s) : Canon (markAction s x stat w) := by
  unfold Machine.markAction
  split
  · exact hs.tileCounts
  · exact .ite hs.modElem.modGrid hs
  · exact hs.modElem
  · exact .ite hs.swapStat hs
  · exact hs

theorem Canon.noBefore {z : Site} {z' : Word} (hs : Canon s) : Canon (noBefore z z' s).1 := hs

theorem Canon.react {b : Blk} {slots : List Nat} {stat : Bool} {fwd : Word → Bool}
    {before : Site → Word → State → State × Bool} {fire : Site → List Item → State → State} {x : Site}
    (hs : Canon s) (hbefore : ∀ {x y t}, Canon t → Canon (before x y t).1)
    (hfire : ∀ {x y t}, Canon t → Canon (fire x y t)) :
    Canon (react b slots stat fwd before fire x s) := by
  unfold Machine.react
  dsimp only
  split
  · exact hs.gridHalt
  · split
    · refine .ite hs.noteWait ?_
      split
      · split
        · exact hs.hitBreak
        · exact hs
      · exact hfire hs.popAll
    · exact .ite hs.gridHalt (.ite hs.noteWait (.ite hs (.ite (hbefore hs.popAll)
        (.markAction (.ite (.emit (hbefore hs.popAll)) (hbefore hs.popAll))))))

theorem Canon.withHead {x : Site} {slot : Nat} {f : Item → State → State} (hs : Canon s)
    (hf : ∀ {x t}, Canon t → Canon (f x t)) :
    Canon (withHead x slot f s) := by
  unfold Machine.withHead
  split
  · exact hs
  · refine .ite hs.gridHalt ?_
    split
    · exact hs.hitBreak
    · exact hf hs

theorem Canon.drainPassed {x : Site} {slot : Nat} (hs : Canon s) : Canon (drainPassed s x slot) := hs.modElem

theorem Canon.passMark {b : Blk} {x : Site} {slot : Nat} {w : Word} (hs : Canon s) : Canon (passMark b x slot w s) := by
  unfold Machine.passMark
  exact .ite hs (.ite hs.pop.emit.drainPassed hs.pop.emit.markAction)

theorem Canon.askMark {b : Blk} {x : Site} {kind : Nat} {i : Item} (hs : Canon s) : Canon (askMark b x kind i s) := by
  unfold Machine.askMark
  dsimp only
  split
  · exact .ite hs.pop.emit.drainPassed hs.pop.emit
  · exact hs.pop.emit

theorem Canon.drawOnce {c n : Nat} {us : List Nat} {t : State} (hs : Canon s) (e : drawOnce s c n = .ok (us, t)) :
    Canon t := by
  unfold Machine.drawOnce at e
  dsimp only at e
  split at e
  · cases e
  · cases e
    exact hs

theorem Canon.drawMany {c n m : Nat} {us : List Nat} {t : State} (hs : Canon s) (e : drawMany s c n m = .ok (us, t)) :
    Canon t := by
  induction m generalizing s us with
  | zero => cases e; exact hs
  | succ m ih =>
    unfold Machine.drawMany at e
    split at e
    · cases e
    · next hd =>
      split at e
      · cases e
      · next hm => cases e; exact ih (hs.drawOnce hd) hm

theorem Canon.drawsMade {c n m : Nat} (hs : Canon s) : Canon (drawsMade s c n m) := by
  induction m generalizing s with
  | zero => exact hs
  | succ m ih =>
    unfold Machine.drawsMade
    split
    · exact hs
    · next hd => exact ih (hs.drawOnce hd)

theorem Canon.pump {c : Nat} (hs : Canon s) : Canon (pump s c) := hs.modGrid

theorem Canon.waveDone {c : Nat} (hs : Canon s) : Canon (waveDone s c) := by
  unfold Machine.waveDone
  exact .ite hs.modGrid.pump hs

theorem Canon.elemAct {b : Blk} {f : Site → State → State} (hs : Canon s) (hf : ∀ {x t}, Canon t → Canon (f x t)) :
    NextOk (elemAct b f s) := by
  unfold Machine.elemAct
  exact NextOk.ite (.next hs) (NextOk.ite (.next hs.flush.noteFull.waveDone) (.next (.waveDone (.flush (hf hs.flush)))))

theorem Canon.reactAll {b : Blk} {op : Nat} {stat : Bool} {fire : Site → List Item → State → State} (hs : Canon s)
    (hfire : ∀ {x y t}, Canon t → Canon (fire x y t)) :
    NextOk (reactAll b op stat fire s) :=
  Canon.elemAct hs fun ht => .react ht (fun hu => hu.noBefore) hfire

theorem Canon.writeLibrary {c : Nat} {blk : List Byte} (hs : Canon s) : Canon (writeLibrary s c blk) := by
  unfold Machine.writeLibrary
  exact hs.write

theorem Canon.writePlacement {c : Nat} {blk : List Byte} (hs : Canon s) : Canon (writePlacement s c blk) :=
  hs.setTile

/-! ### `Machine/Lanes` -/

theorem Canon.srWords {c m : Nat} {b : Blk} {us : List Nat} {t : State} (hs : Canon s)
    (e : srWords s c b m = .ok (us, t)) :
    Canon t := by
  unfold Machine.srWords at e
  split at e
  · exact hs.drawMany e
  · cases e; exact hs

theorem Canon.laneFire {b : Blk} {op : Nat} {types : List Nat} {rounds : Bool} {out : Nat}
    {f : Nat → List Nat → Nat × List Nat} {x : Site} {items : List Item} (hs : Canon s) :
    Canon (laneFire b op types rounds out f x items s) := by
  unfold Machine.laneFire
  dsimp only
  split
  · exact hs.drawsMade.tokenHalt
  · next hw =>
    split at hw
    · exact (hs.srWords hw).addStats.emit
    · cases hw; exact hs.addStats.emit

theorem Canon.laneOp {b : Blk} {op : Nat} {types : List Nat} {rounds : Bool} {out : Nat}
    {f : Nat → List Nat → Nat × List Nat} (hs : Canon s) :
    NextOk (laneOp b op types rounds out f s) :=
  Canon.reactAll hs fun ht => ht.laneFire

theorem Canon.arith {b : Blk} {op n : Nat} {f : Nat → List Val → Val} (hs : Canon s) : NextOk (arith b op n f s) :=
  hs.laneOp

theorem Canon.xwFire {b : Blk} {sub : Bool} {x : Site} {items : List Item} (hs : Canon s) :
    Canon (xwFire b sub x items s) := by
  unfold Machine.xwFire
  refine .ite hs.tokenHalt ?_
  split
  · exact hs.tokenHalt
  · exact hs.tokenHalt
  · exact .ite hs.tokenHalt hs.emit

theorem Canon.logic {b : Blk} {op n : Nat} {f : List Nat → Nat × List Nat} (hs : Canon s) : NextOk (logic b op n f s) :=
  hs.laneOp

theorem Canon.compare {b : Blk} {op : Nat} {f : Val → Val → Bool} (hs : Canon s) : NextOk (compare b op f s) :=
  hs.laneOp

/-! ### `Machine/Flow` -/

theorem Canon.passFire {b : Blk} {x : Site} {items : List Item} (hs : Canon s) : Canon (passFire b x items s) :=
  hs.emit

theorem Canon.execElemNop {b : Blk} (hs : Canon s) : NextOk (execElemNop b s) :=
  Canon.reactAll hs fun ht => ht.passFire

theorem Canon.execCopy {b : Blk} (hs : Canon s) : NextOk (execCopy b s) := Canon.reactAll hs fun ht => ht.passFire

theorem Canon.execSink {b : Blk} (hs : Canon s) : NextOk (execSink b s) :=
  Canon.elemAct hs fun ht => .react ht (fun hu => hu.noBefore) fun hu => hu

theorem Canon.emitData {x : Site} {b : Blk} {items : List Item} (hs : Canon s) : Canon (emitData s x b items) := by
  unfold Machine.emitData
  exact .ite hs.emit0 hs.emit0.emit1

theorem Canon.emitDone {x : Site} {b : Blk} {i : Nat} (hs : Canon s) : Canon (emitDone s x b i) := by
  unfold Machine.emitDone
  exact .ite hs.emit1 hs

theorem Canon.execConst {b : Blk} (hs : Canon s) : NextOk (execConst b s) := by
  unfold Machine.execConst
  refine Canon.reactAll hs fun ht => ?_
  dsimp only
  split
  · exact .ite ht.emitData.emitDone ht.emitData
  · exact ht.emitData

theorem Canon.execSld {b : Blk} (hs : Canon s) : NextOk (execSld b s) :=
  Canon.elemAct hs fun ht => .react ht (fun hu => hu.noBefore) fun hu => hu.write

theorem Canon.passItem {b : Blk} {x : Site} {slot : Nat} {i : Item} (hs : Canon s) : Canon (passItem b x slot i s) := by
  unfold Machine.passItem
  split
  · exact hs.passMark
  · exact hs.pop.emit

theorem Canon.swapAct {b : Blk} {x : Site} (hs : Canon s) : Canon (swapAct b x s) := by
  unfold Machine.swapAct
  exact .ite (.withHead hs fun ht => ht.askMark) (.withHead hs fun ht => ht.passItem)

theorem Canon.execSwap {b : Blk} (hs : Canon s) : NextOk (execSwap b s) := Canon.elemAct hs fun ht => ht.swapAct

theorem Canon.execSteer {b : Blk} (hs : Canon s) : NextOk (execSteer b s) := by
  unfold Machine.execSteer
  exact Canon.reactAll hs fun ht => .ite ht.emit0 ht.emit1

theorem Canon.mergeMarks {b : Blk} {x : Site} {w : Word} (hs : Canon s) : Canon (mergeMarks b x w s) := by
  unfold Machine.mergeMarks
  dsimp only
  split
  · exact .ite (.ite hs hs.popAll.emit.markAction) hs.gridHalt
  · exact .ite hs.noteWait hs.gridHalt
  · exact .ite hs.noteWait hs.gridHalt
  · exact hs.noteWait

theorem Canon.mergeAct {b : Blk} {x : Site} (hs : Canon s) : Canon (mergeAct b x s) := by
  unfold Machine.mergeAct
  refine .ite hs.noteWait ?_
  refine .withHead hs fun ht => ?_
  split
  · exact ht.mergeMarks
  · dsimp only
    split
    · exact ht.noteWait
    · exact .withHead ht fun hu => .ite hu.gridHalt hu.popAll.emit

theorem Canon.execMerge {b : Blk} (hs : Canon s) : NextOk (execMerge b s) := Canon.elemAct hs fun ht => ht.mergeAct

theorem Canon.loopPass {b : Blk} {x : Site} {slot : Nat} {i : Item} (hs : Canon s) : Canon (loopPass b x slot i s) := by
  unfold Machine.loopPass
  exact .ite hs.tokenHalt hs.modElem.emit

theorem Canon.carryAct {b : Blk} {x : Site} (hs : Canon s) : Canon (carryAct b x s) := by
  unfold Machine.carryAct
  refine .ite hs.gridHalt ?_
  refine .ite hs.gridHalt ?_
  refine .ite ?_ (.ite hs.noteWait (.withHead hs fun ht => .ite
    (.ite ht.noteWait (.withHead ht fun hu => hu.popAll.loopPass)) ht.pop.modElem))
  refine .ite hs.gridHalt ?_
  refine .withHead hs fun ht => ?_
  split
  · exact ht.passMark
  · exact ht.pop.loopPass

theorem Canon.execCarry {b : Blk} (hs : Canon s) : NextOk (execCarry b s) := Canon.elemAct hs fun ht => ht.carryAct

theorem Canon.invarAct {b : Blk} {x : Site} (hs : Canon s) : Canon (invarAct b x s) := by
  unfold Machine.invarAct
  refine .ite hs.gridHalt ?_
  refine .ite ?_ (.withHead hs fun ht => .ite ht.pop.loopPass ht.pop.modElem)
  refine .withHead hs fun ht => ?_
  split
  · exact ht.passMark
  · exact ht.pop.modElem.loopPass

theorem Canon.execInvar {b : Blk} (hs : Canon s) : NextOk (execInvar b s) := Canon.elemAct hs fun ht => ht.invarAct

theorem Canon.tstmAct {b : Blk} {x : Site} (hs : Canon s) : Canon (tstmAct b x s) := by
  unfold Machine.tstmAct
  refine .ite (.withHead hs fun ht => ht.modElem.emit0.emit1) ?_
  refine .withHead hs fun ht => ?_
  split
  · exact ht.pop.modElem
  · exact .ite (.ite ht.pop ht.pop.emit0) ht.passMark

theorem Canon.execTstm {b : Blk} (hs : Canon s) : NextOk (execTstm b s) := Canon.elemAct hs fun ht => ht.tstmAct

theorem Canon.markEvery {b : Blk} {kind : Nat} {x : Site} (hs : Canon s) : Canon (markEvery b kind x s) := by
  unfold Machine.markEvery
  refine .ite ?_ (.ite (.withHead hs fun ht => ht.askMark) hs)
  refine .withHead hs fun ht => ?_
  split
  · exact ht.passMark
  · exact .ite ht.pop.emit (.ite ht.pop.emit.modElem ht.pop.emit.modElem.emit)

theorem Canon.execEot {b : Blk} (hs : Canon s) : NextOk (execEot b s) := Canon.elemAct hs fun ht => ht.markEvery

theorem Canon.execEos {b : Blk} (hs : Canon s) : NextOk (execEos b s) := Canon.elemAct hs fun ht => ht.markEvery

/-! ### `Machine/Ports` -/

theorem Canon.portIdle {x : Site} (hs : Canon s) : Canon (portIdle s x) := hs.modElem

theorem Canon.countIn {x : Site} {n : Nat} (hs : Canon s) : Canon (countIn s x n) := hs.modElem

theorem Canon.freshWait {x : Site} (hs : Canon s) : Canon (freshWait s x) := hs.modElem

theorem Canon.pinTake {b : Blk} {n : Nat} {x : Site} (hs : Canon s) : Canon (pinTake b n x s) := by
  unfold Machine.pinTake
  split
  · exact hs.waitsNow
  · refine .ite hs.gridHalt ?_
    split
    · exact hs.setChan.countIn.emit
    · exact .ite hs.setChan.freshWait.emit.markAction hs

theorem Canon.pinRead {b : Blk} {x : Site} {d : WinDesc} {cnt : Nat} (hs : Canon s) : Canon (pinRead b x d cnt s) := by
  unfold Machine.pinRead
  dsimp only
  split
  · exact hs.hitBreak
  · split
    · exact hs.ueHalt
    · exact hs.correct.countToken.countIn.modElem.emit

theorem Canon.pinPort {b : Blk} {x : Site} (hs : Canon s) : Canon (pinPort b x s) := by
  unfold Machine.pinPort
  refine .ite hs.portIdle ?_
  split
  · exact .ite hs.gridHalt hs.portIdle
  · exact .ite hs.pinRead (.ite hs.modElem.emit (.ite hs.waitsNow hs.portIdle))

theorem Canon.pinAct {b : Blk} {x : Site} (hs : Canon s) : Canon (pinAct b x s) := by
  unfold Machine.pinAct
  split
  · exact .ite hs hs.modElem.emit.markAction
  · refine .ite hs ?_
    split
    · exact hs.pinTake
    · exact hs.pinPort

theorem Canon.execPin {b : Blk} (hs : Canon s) : NextOk (execPin b s) := Canon.elemAct hs fun ht => ht.pinAct

theorem Canon.windowMark {c i n : Nat} {w : Word} (hs : Canon s) : Canon (windowMark s c i n w) := hs.modCore

theorem Canon.markOn {c a p : Nat} {w : Word} {i : Nat} (hs : Canon s) : Canon (markOn c a p w s i) := by
  unfold Machine.markOn
  refine .ite hs ?_
  split
  · exact .ite hs.modCore hs.windowMark
  · exact hs
  · refine .ite hs ?_
    refine .foldl hs fun _ _ ht => ?_
    split
    · exact ht
    · exact ht.windowMark

theorem Canon.poutMark {b : Blk} {x : Site} {w : Word} (hs : Canon s) : Canon (poutMark b x w s) := by
  unfold Machine.poutMark
  exact .ite hs.gridHalt (.ite hs (.markAction (.foldl hs.pop.modElem fun _ _ ht => ht.markOn)))

theorem Canon.poutToken {b : Blk} {x : Site} {i : Item} (hs : Canon s) : Canon (poutToken b x i s) := by
  unfold Machine.poutToken
  refine .ite hs.portIdle ?_
  split
  · exact hs.gridHalt
  · refine .ite hs.pop.modElem.portIdle ?_
    split
    · exact hs.hitBreak
    · exact hs.pop.modElem.produce

theorem Canon.poutEmpty {b : Blk} {x : Site} (hs : Canon s) : Canon (poutEmpty b x s) := by
  unfold Machine.poutEmpty
  exact .ite hs.waitsNow hs.portIdle

theorem Canon.poutAct {b : Blk} {x : Site} (hs : Canon s) : Canon (poutAct b x s) := by
  unfold Machine.poutAct
  refine .ite hs.poutEmpty ?_
  refine .withHead hs fun ht => ?_
  split
  · dsimp only
    split
    · exact .ite ht.pop.markAction ht
    · exact .ite ht.pop.setChan.markAction ht
    · exact ht.poutMark
  · exact .ite ht.waitsNow ht.pop.setChan.portIdle
  · exact ht.poutToken

theorem Canon.execPout {b : Blk} (hs : Canon s) : NextOk (execPout b s) := Canon.elemAct hs fun ht => ht.poutAct

/-! ### `Machine/Queue` -/

theorem Canon.takeEntry {q : Nat} {e : QEntry} (hs : Canon s) : Canon (takeEntry s q e) := hs.modCur

theorem Canon.issue {r : Request} (hs : Canon s) : NextOk (issue r s) := by
  unfold Machine.issue
  refine Canon.afterAcquire hs fun ht => ?_
  split
  · exact .next ht.trap
  · dsimp only
    split <;> exact ht.takeEntry.finish0

theorem Canon.atomicIssue {op : QOp} {a b d : Reg} {q : QNum} {n : Ann} {sc : Scope} {w : AWidth} (hs : Canon s) :
    NextOk (atomicIssue op a b d q n sc w s) :=
  hs.issue

theorem Canon.waitq {src : Bool} {d : Reg} {q : QNum} (hs : Canon s) : NextOk (waitq src d q s) := by
  unfold Machine.waitq
  exact NextOk.ite (.next hs.trap) (NextOk.ite (.next hs.trap)
    (NextOk.ite hs.modCur.finish (NextOk.ite hs.finish (.next hs.wait))))

theorem Canon.execPopq {d : Reg} {q : QNum} (hs : Canon s) : NextOk (execPopq d q s) := by
  unfold Machine.execPopq
  exact NextOk.ite (.next hs.trap) (NextOk.ite (.next hs.wait) (NextOk.ite (.next hs.trap) hs.modCur.finish))

/-! ### `Machine/Home` -/

theorem Canon.homeStore {pa : Nat} {bs : List Byte} (hs : Canon s) : Canon (homeStore s pa bs) := by
  unfold Machine.homeStore
  dsimp only
  split
  · exact .ite hs.localWrite.modCore hs.localWrite
  · exact hs.localWrite

theorem Canon.spanWrite {pa n1 pa2 : Nat} {bs : List Byte} (hs : Canon s) : Canon (spanWrite s pa n1 pa2 bs) := by
  unfold Machine.spanWrite
  exact .ite hs.homeStore hs.homeStore.homeStore

theorem Canon.performAccess {card : Nat} {op : QOp} {n data cmp pa n1 pa2 : Nat} (hs : Canon s) :
    Canon (performAccess s card op n data cmp pa n1 pa2).2 := by
  unfold Machine.performAccess
  dsimp only
  split
  · exact hs
  · exact hs.spanWrite
  · exact hs.spanWrite

theorem Canon.arrive {c q fault resp : Nat} (hs : Canon s) : Canon (arrive s c q fault resp) := hs.modCore

theorem Canon.copyMgmt {c cause detail : Nat} (hs : Canon s) : Canon (copyMgmt s c cause detail) := hs.tellMgmt

theorem Canon.setRetry {c q t : Nat} (hs : Canon s) : Canon (setRetry s c q t) := by
  unfold Machine.setRetry
  refine .ite hs.modCore ?_
  split <;> exact hs

theorem Canon.joinKitty {name va : Nat} {p : Parked} (hs : Canon s) : Canon (joinKitty s name va p) := by
  unfold Machine.joinKitty
  exact .ite hs (.tellMgmt (.notify hs))

theorem Canon.park {c q va pa sh x : Nat} {msg : Option RemoteMsg} (hs : Canon s) :
    Canon (park s c q va pa sh x msg) := by
  unfold Machine.park
  exact .ite hs (.ite (.ite hs.setRetry hs) hs.joinKitty)

theorem Canon.leave {o : Away} (hs : Canon s) : Canon (leave s o) := by
  unfold Machine.leave
  exact .ite hs hs

theorem Canon.homeAnswer {card : Nat} {e : QEntry} {pa : Nat} (hs : Canon s) :
    Canon (homeAnswer s card e pa).state := by
  unfold Machine.homeAnswer
  dsimp only
  split
  · exact hs.performAccess
  · exact hs
  · exact hs
  · exact Canon.performAccess (.ite hs.correct hs.correct.correct)

theorem Canon.entryFault {c q : Nat} {e : QEntry} {f : Nat} (hs : Canon s) : Canon (entryFault s c q e f) := by
  unfold Machine.entryFault
  exact .ite hs.arrive.copyMgmt hs.arrive

theorem Canon.reachHome {c q : Nat} {e : QEntry} {pa : Nat} (hs : Canon s) : Canon (reachHome s c q e pa) := by
  unfold Machine.reachHome
  split
  · exact hs.entryFault
  · refine .ite hs ?_
    dsimp only
    split
    · exact hs.homeAnswer.arrive
    · exact .ueHalt (.ite hs.homeAnswer.arrive.copyMgmt hs.homeAnswer.arrive)

theorem Canon.sendRemote {c q : Nat} {e : QEntry} (hs : Canon s) : Canon (sendRemote s c q e) := by
  unfold Machine.sendRemote
  split
  · exact hs.leave
  · exact hs.leave
  · exact hs

theorem Canon.parkEntry {c q : Nat} {e : QEntry} {pa : Nat} {p : Nat × Nat} (hs : Canon s) :
    Canon (parkEntry s c q e pa p) :=
  hs.park

theorem Canon.toKitty {c q : Nat} {e : QEntry} {pa : Nat} (hs : Canon s) : Canon (toKitty s c q e pa) := by
  unfold Machine.toKitty
  dsimp only
  split
  · exact hs
  · refine .ite hs.arrive ?_
    refine .ite ?_ (.ite hs hs.parkEntry)
    split
    · exact hs.arrive
    · exact .ite hs hs.sendRemote

theorem Canon.tryHome {c q : Nat} (hs : Canon s) : Canon (tryHome s c q) := by
  unfold Machine.tryHome
  refine .ite hs ?_
  dsimp only
  split
  · exact .ite hs hs.arrive
  · split
    · exact hs
    · exact hs.toKitty
    · split
      · exact .ite hs hs.parkEntry
      · refine .ite hs ?_
        refine .ite hs.reachHome ?_
        split
        · exact hs.arrive
        · exact hs.sendRemote

theorem Canon.walkCopy {c f va : Nat} (hs : Canon s) : Canon (walkCopy s c f va) := by
  unfold Machine.walkCopy
  exact .ite hs.copyMgmt hs

theorem Canon.execTranslationWalk {c q : Nat} (hs : Canon s) : NextOk (execTranslationWalk c q s) := by
  unfold Machine.execTranslationWalk
  refine NextOk.ite (.next hs) ?_
  refine .next ?_
  split
  · exact hs.arrive
  · dsimp only
    split
    · exact hs.arrive.walkCopy
    · exact hs.arrive
    · exact hs.modCore

theorem Canon.execLocalAtomicTimeout {c q : Nat} (hs : Canon s) : NextOk (execLocalAtomicTimeout c q s) := by
  unfold Machine.execLocalAtomicTimeout
  exact NextOk.ite (.next (.copyMgmt (.completeEntry hs))) (.next hs)

theorem Canon.execQueueWaitTimeout {c : Nat} (hs : Canon s) : NextOk (execQueueWaitTimeout c s) := by
  unfold Machine.execQueueWaitTimeout
  exact NextOk.ite (.next hs.trapAt) (.next hs)

theorem Canon.execPageInvalidate {x first last : Nat} (hs : Canon s) : NextOk (execPageInvalidate x first last s) := by
  unfold Machine.execPageInvalidate
  exact NextOk.ite (.next hs) (.next hs)

theorem Canon.execRangeEntryWrite {x i : Nat} {d0 d1 d2 d3 : Word} (hs : Canon s) :
    NextOk (execRangeEntryWrite x i d0 d1 d2 d3 s) := by
  unfold Machine.execRangeEntryWrite
  dsimp only
  split
  · exact .next hs
  · exact NextOk.ite (.next hs) (NextOk.ite (.next hs.tellMgmt) (.next hs.modCtx))

theorem Canon.execRemapDescriptorWrite {x i : Nat} {d0 d1 : Word} (hs : Canon s) :
    NextOk (execRemapDescriptorWrite x i d0 d1 s) := by
  unfold Machine.execRemapDescriptorWrite
  exact NextOk.ite (.next hs) (NextOk.ite (.next hs.tellMgmt) (.next hs.modCtx))

/-! ### `Machine/Burst` -/

theorem Canon.nextRequest {c : Nat} (hs : Canon s) : Canon (nextRequest s c).2 := by
  unfold Machine.nextRequest
  split
  · exact hs.modCore
  · exact hs

theorem Canon.remoteCall {c q pkg : Nat} {fail go : Nat → State → State} (hs : Canon s)
    (hfail : ∀ {x t}, Canon t → Canon (fail x t)) (hgo : ∀ {x t}, Canon t → Canon (go x t)) :
    Canon (remoteCall s c q pkg fail go) := by
  unfold Machine.remoteCall
  dsimp only
  split
  · exact .ite (hfail hs) (hgo hs)
  · exact .ite hs hs.nextRequest.leave

theorem Canon.withFar {c q : Nat} {ps : List (Nat × Nat)} {fail : Nat → State → State}
    {go : List Byte → State → State} (hs : Canon s) (hfail : ∀ {x t}, Canon t → Canon (fail x t))
    (hgo : ∀ {x t}, Canon t → Canon (go x t)) :
    Canon (withFar s c q ps fail go) := by
  unfold Machine.withFar
  exact .ite (hgo hs) (.remoteCall hs hfail fun ht => hgo ht)

theorem Canon.refusedMeanwhile {c q f : Nat} {t : State} (hs : Canon s) (e : refusedMeanwhile s c q = some (f, t)) :
    Canon t := by
  obtain ⟨o, -, ho⟩ := Option.map_eq_some_iff.1 e
  cases ho
  exact hs

theorem Canon.withPieces {c q x va : Nat} {r : Reach} {fail : Nat → State → State}
    {go : List (Nat × Nat) → List Byte → State → State} (hs : Canon s)
    (hfail : ∀ {x t}, Canon t → Canon (fail x t)) (hgo : ∀ {x y t}, Canon t → Canon (go x y t)) :
    Canon (withPieces s c q x va r fail go) := by
  unfold Machine.withPieces
  dsimp only
  split
  · exact hfail hs
  · next hr => exact hfail (hs.refusedMeanwhile hr)
  · exact .ite hs hs.park
  · split
    · exact .ite hs hs.park
    · exact .ite hs (hs.withFar hfail hgo)

theorem Canon.freeBytes {n : Nat} (hs : Canon s) : Canon (freeBytes s n).2 := by
  induction n generalizing s with
  | zero => exact hs
  | succ n ih => exact ih hs.takeFresh

theorem Canon.readPieces {c : Nat} {ps : List (Nat × Nat)} {far : List Byte} (hs : Canon s) :
    Canon (readPieces c ps far s).2 := by
  induction ps generalizing far s with
  | nil => exact hs
  | cons p ps ih =>
    unfold Machine.readPieces
    extract_lets lp key one
    have h1 : Canon one.2 := by
      unfold one
      split
      · exact hs
      · split
        · exact hs
        · exact hs.correct
    clear_value one
    rcases one with ⟨_ | bs, s1⟩
    · exact h1
    · have h2 : Canon (Machine.readPieces c ps (if isLocal s p.1 then far else far.drop p.2) s1).2 := ih h1
      dsimp only
      split
      · next h => exact .snd h2 h
      · exact h2

theorem Canon.writePieces {ps : List (Nat × Nat)} {bs : List Byte} (hs : Canon s) : Canon (writePieces ps bs s) := by
  induction ps generalizing bs s with
  | nil => exact hs
  | cons p ps ih =>
    refine ih (.ite hs ?_)
    exact List.foldlRecOn (motive := fun r : State × List Byte => Canon r.1) _ _ hs fun _ hr _ _ => hr.homeStore

/-! ### `Machine/GridCmd` -/

theorem Canon.command {cs : State → List (Option Nat)} {tval : Nat} {f : State → Result} (hs : Canon s)
    (hf : ∀ {t}, Canon t → NextOk (f t)) :
    NextOk (command cs tval s f) :=
  Canon.afterAcquire hs fun ht => ht.checks hf

theorem Canon.withOperand {x n : Nat} {f : List Byte → State → Result} (hs : Canon s)
    (hf : ∀ {x t}, Canon t → NextOk (f x t)) :
    NextOk (withOperand x n s f) := by
  unfold Machine.withOperand
  dsimp only
  split
  · exact .next hs.ueHalt
  · exact hf hs.correct

theorem Canon.gridPush {x : GCmd} (hs : Canon s) : NextOk (gridPush x s) := by
  unfold Machine.gridPush
  exact NextOk.ite (.next hs.wait) hs.modGrid.pump.finish0

theorem Canon.gswap {x : GCmd} (hs : Canon s) : NextOk (gswap x s) := Canon.command hs fun ht => ht.gridPush

theorem Canon.execGstvAct {a b : Reg} (hs : Canon s) : NextOk (execGstvAct a b s) := by
  unfold Machine.execGstvAct
  exact Canon.command hs fun ht => NextOk.ite (.next ht.wait) (Canon.withOperand ht fun hu => hu.write.finish0)

/-! ### `Machine/StreamCmd` -/

theorem Canon.streamIssue {kind : Nat} {d a : Reg} {e : BitVec 1} (hs : Canon s) :
    NextOk (streamIssue kind d a e s) := by
  unfold Machine.streamIssue
  exact Canon.command hs fun ht => Canon.withOperand ht fun hu => Canon.checks hu fun hv => NextOk.ite
    (.next hv.wait) hv.modCur.finish

theorem Canon.execSagc {a b : Reg} {c : BitVec 3} (hs : Canon s) : NextOk (execSagc a b c s) :=
  Canon.command hs fun ht => Canon.withOperand ht fun hu => Canon.checks hu fun hv => hv.modCur.finish0

theorem Canon.swait {vis : Bool} {a : Reg} (hs : Canon s) : NextOk (swait vis a s) := by
  unfold Machine.swait
  exact Canon.command hs fun ht => NextOk.ite ht.finish0 (.next ht.wait)

theorem Canon.execSwaitTimeout {c : Nat} (hs : Canon s) : NextOk (execSwaitTimeout c s) := by
  unfold Machine.execSwaitTimeout
  exact .next (.ite hs.trapAt hs)

/-! ### `Machine/Firing` -/

theorem Canon.execRwset {a b : Reg} (hs : Canon s) : NextOk (execRwset a b s) :=
  Canon.privileged hs fun ht => Canon.command ht fun hu => Canon.withOperand hu fun hv => Canon.checks hv fun hw =>
    hw.modCur.setPortIndex.finish0

theorem Canon.unbindPort {c i : Nat} (hs : Canon s) : Canon (unbindPort s c i) := by
  unfold Machine.unbindPort
  exact .foldl hs fun _ _ ht => .ite ht.setPortIndex ht

theorem Canon.execRwrst {a : Reg} (hs : Canon s) : NextOk (execRwrst a s) := by
  unfold Machine.execRwrst
  exact Canon.privileged hs fun ht => Canon.command ht fun hu => NextOk.ite hu.modCur.unbindPort.finish0 hu.finish0

theorem Canon.advanceHead {c : Nat} (hs : Canon s) : Canon (advanceHead s c) := hs.modCore

theorem Canon.gangOff {c : Nat} (hs : Canon s) : Canon (gangOff s c) := by
  unfold Machine.gangOff
  exact .ite (.foldl hs fun _ _ ht => ht.modCore) hs

theorem Canon.freeTokens {c p : Nat} (hs : Canon s) : Canon (freeTokens c s p) := by
  unfold Machine.freeTokens
  dsimp only
  split
  · exact hs
  · exact .ite hs (.ite hs.portHalt hs.modCore)

theorem Canon.endFiring {c : Nat} (hs : Canon s) : Canon (endFiring s c) := by
  unfold Machine.endFiring
  exact .modCore (.advanceHead (.foldl hs fun _ _ ht => ht.freeTokens))

theorem Canon.execHalt (hs : Canon s) : NextOk (execHalt s) := by
  unfold Machine.execHalt
  refine Canon.privileged hs fun ht => ?_
  refine NextOk.ite (.next ht.trap) ?_
  refine .next ?_
  split
  · exact .ite (.haltContext (.ite ht.advance.modCur.tellMgmt.endFiring ht.advance.modCur.tellMgmt))
      ht.advance.modCur.tellMgmt
  · exact ht.advance.modCur.tellMgmt

theorem Canon.tellSender {sender seq out : Nat} (hs : Canon s) : Canon (tellSender s sender seq out) := by
  unfold Machine.tellSender
  exact .ite hs hs.modCore

theorem Canon.modeArrive {h t sender seq : Nat} (hs : Canon s) : Canon (modeArrive s h t sender seq) := by
  unfold Machine.modeArrive
  split
  · exact hs
  · exact .ite hs.notifyGraph.tellSender hs.modGraph

theorem Canon.execMode {a : Reg} (hs : Canon s) : NextOk (execMode a s) := by
  unfold Machine.execMode
  exact Canon.command hs fun ht => NextOk.ite (.next ht.wait) ht.modCur.modeArrive.finish0

theorem Canon.execMwait {d : Reg} (hs : Canon s) : NextOk (execMwait d s) := by
  unfold Machine.execMwait
  refine Canon.command hs fun ht => ?_
  split
  · exact .next ht.wait
  · exact ht.modCur.finish

/-! ### `Machine/Memory` -/

theorem Canon.directLoad {n : Nat} {aligned : Bool} {ext : Nat → Word} {d a : Reg} {off : Word} (hs : Canon s) :
    NextOk (directLoad n aligned ext d a off s) := by
  unfold Machine.directLoad
  refine Canon.afterAcquire hs fun ht => ?_
  dsimp only
  split
  · exact .next ht.trap
  · exact .next ht.trap
  · refine NextOk.ite (.next ht.wait) ?_
    split
    · exact .next ht.ueHalt
    · exact ht.correct.finish

theorem Canon.keepCode {off n : Nat} (hs : Canon s) : Canon (keepCode s off n) := by
  unfold Machine.keepCode
  exact .ite hs.modCur hs

theorem Canon.directPut {off n : Nat} {y : Word} (hs : Canon s) : Canon (directPut s off n y) := hs.keepCode.setTile

theorem Canon.directStore {n : Nat} {b a : Reg} {off : Word} (hs : Canon s) : NextOk (directStore n b a off s) := by
  unfold Machine.directStore
  refine Canon.afterAcquire hs fun ht => ?_
  dsimp only
  split
  · exact .next ht.trap
  · exact ht.directPut.finish0

theorem Canon.execStl {b a : Reg} {sc : Scope} {w : Width} {i : BitVec 12} (hs : Canon s) :
    NextOk (execStl b a sc w i s) := by
  unfold Machine.execStl
  refine Canon.afterAcquire hs fun ht => ?_
  dsimp only
  split
  · exact .next ht.trap
  · refine NextOk.ite (.next ht.wait) ?_
    split
    · exact .next ht.trap
    · exact ht.directPut.finish0

/-! ### `Machine/Sync` -/

theorem Canon.execLwait {d a : Reg} (hs : Canon s) : NextOk (execLwait d a s) := by
  unfold Machine.execLwait
  refine Canon.command hs fun ht => ?_
  refine NextOk.ite ?_ ?_
  · split
    · exact NextOk.ite ht.modCur.finish (.next ht.modCur.wait)
    · exact .next ht.wait
  · split
    · exact .next ht.wait
    · exact ht.finish

theorem Canon.execBari {a b : Reg} {n : BitVec 3} (hs : Canon s) : NextOk (execBari a b n s) := by
  unfold Machine.execBari
  refine Canon.command hs fun ht => ?_
  dsimp only
  split
  · exact ht.modCur.finish0
  · split
    · exact ht.modCur.modGraph.finish0
    · exact .next ht.advance.haltGraph

theorem Canon.execBara {d : Reg} {n : BitVec 3} (hs : Canon s) : NextOk (execBara d n s) := by
  unfold Machine.execBara
  exact Canon.command hs fun ht => NextOk.ite (.next ht.wait) ht.modCur.finish

theorem Canon.execBarw {a : Reg} (hs : Canon s) : NextOk (execBarw a s) := by
  unfold Machine.execBarw
  exact Canon.command hs fun ht => NextOk.ite ht.finish0 (.next ht.wait)

theorem Canon.execBarrierArrival {c n : Nat} (hs : Canon s) : NextOk (execBarrierArrival c n s) := by
  unfold Machine.execBarrierArrival
  dsimp only
  split
  · exact .next hs
  · exact NextOk.ite (.next hs) (.next hs.modCore.modGraph)

theorem Canon.deckPush {o : DeckOp} (hs : Canon s) : Canon (deckPush o s) := hs.modCur

theorem Canon.execDkst {a b : Reg} (hs : Canon s) : NextOk (execDkst a b s) := by
  unfold Machine.execDkst
  exact Canon.command hs fun ht => NextOk.ite (.next ht.wait)
    (Canon.withOperand ht fun hu => hu.deckPush.modCur.finish0)

theorem Canon.deckAtomic {aop : Nat} {op : EntryOp} {cmp : Word} {a b : Reg} {w : AWidth} {q : QNum} (hs : Canon s) :
    NextOk (deckAtomic aop op cmp a b w q s) := by
  unfold Machine.deckAtomic
  exact Canon.command hs fun ht => NextOk.ite (.next ht.wait) ht.deckPush.takeEntry.finish0

theorem Canon.execDksync (hs : Canon s) : NextOk (execDksync s) := by
  unfold Machine.execDksync
  exact Canon.command hs fun ht => NextOk.ite ht.finish0 (.next ht.wait)

theorem Canon.rngDraw {n : Nat} {f : List Nat → State → Result} (hs : Canon s)
    (hf : ∀ {x t}, Canon t → NextOk (f x t)) :
    NextOk (rngDraw n s f) := by
  unfold Machine.rngDraw
  split
  · exact .next hs.trap
  · exact hf ((hs.drawOnce ‹_›))

theorem Canon.setRegion {n : BitVec 3} {r : Append} (hs : Canon s) : Canon (setRegion s n r) := hs.modCur

theorem Canon.execApndSet {a : Reg} {n : BitVec 3} (hs : Canon s) : NextOk (execApndSet a n s) :=
  Canon.command hs fun ht => Canon.withOperand ht fun hu => Canon.checks hu fun hv => hv.setRegion.finish0

theorem Canon.pushAppend {n : BitVec 3} {r : Append} {w : ApWrite} (hs : Canon s) : Canon (pushAppend s n r w) :=
  hs.setRegion.modCur

theorem Canon.execApndRow {d a : Reg} {n : BitVec 3} (hs : Canon s) : NextOk (execApndRow d a n s) := by
  unfold Machine.execApndRow
  exact Canon.command hs fun ht => NextOk.ite (.next ht.wait) (Canon.withOperand ht fun hu => hu.pushAppend.finish)

theorem Canon.commitRows {n : BitVec 3} {r : Append} {t : Nat} (hs : Canon s) : Canon (commitRows s n r t) :=
  hs.pushAppend

theorem Canon.loseRow {n : BitVec 3} {row : Nat} (hs : Canon s) : Canon (loseRow n s row) := by
  unfold Machine.loseRow
  refine .setRegion ?_
  split
  · exact hs.freeBytes.writePieces
  · exact hs.freeBytes

theorem Canon.loseRows {n : BitVec 3} {t : Nat} (hs : Canon s) : Canon (loseRows s n t) :=
  .foldl hs fun _ _ ht => ht.loseRow

theorem IssueOk.issueChecks {cs : List (Option Nat)} {f : Unit → Issue} (hf : ∀ u, IssueOk (f u)) :
    IssueOk (issueChecks cs f) := by
  unfold Machine.issueChecks
  split
  · trivial
  · exact hf ()

/-! ### `Machine/Matrix` -/

theorem Canon.runIssue {d : Reg} {f : State → Issue} (hs : Canon s) (hf : ∀ {t}, Canon t → IssueOk (f t)) :
    NextOk (runIssue d s f) := by
  refine hs.afterAcquire fun {t} ht => ?_
  have h := hf ht
  split
  · exact .next ht.wait
  · exact .next ht.trap
  · next e => exact .next (IssueOk.halt h e)
  · next e => exact (IssueOk.ok h e).finish

theorem Canon.issueRead {c off n : Nat} {f : State → Issue} (hs : Canon s) (hf : ∀ {t}, Canon t → IssueOk (f t)) :
    IssueOk (issueRead c off n s f) := by
  unfold Machine.issueRead
  split
  · exact hs.ueHalt
  · exact hf hs.correct

theorem Canon.mxPush {c : Nat} {op : MxOp} {x y : Word} {rcd : List Word} (hs : Canon s) :
    IssueOk (mxPush s c op x y rcd) := by
  unfold Machine.mxPush
  exact IssueOk.ite trivial (.modCore (.foldl hs fun _ _ ht => ht.modCore))

theorem Canon.issueMxb {port : Bool} {c : Nat} {md : Mode} {x y : Word} (hs : Canon s) :
    IssueOk (issueMxb port c md x y s) :=
  IssueOk.issueChecks (fun _ => hs.mxPush)

theorem Canon.issueMxsw {c : Nat} (hs : Canon s) : IssueOk (issueMxsw c s) :=
  IssueOk.issueChecks (fun _ => hs.mxPush)

theorem Canon.issueMxmm {bank : Nat} {port : Bool} {c : Nat} {md : Mode} {x y : Word} (hs : Canon s) :
    IssueOk (issueMxmm bank port c md x y s) :=
  IssueOk.issueChecks (fun _ => hs.mxPush)

theorem Canon.issueClr {bank c : Nat} {y : Word} (hs : Canon s) : IssueOk (issueClr bank c y s) :=
  IssueOk.issueChecks (fun _ => hs.mxPush)

theorem Canon.issueOut {bank : Nat} {port : Bool} {c : Nat} {md : Mode} {x y : Word} (hs : Canon s) :
    IssueOk (issueOut bank port c md x y s) :=
  IssueOk.issueChecks (fun _ => hs.mxPush)

theorem Canon.issueSort {keysIn out : Bool} {c : Nat} {md : Mode} {x : Word} (hs : Canon s) :
    IssueOk (issueSort keysIn out c md x s) := by
  unfold Machine.issueSort
  refine IssueOk.issueChecks (fun _ => ?_)
  refine Canon.issueRead hs fun ht => ?_
  exact IssueOk.issueChecks (fun _ => ht.mxPush)

theorem Canon.issueGang {c : Nat} {x : Word} (hs : Canon s) : IssueOk (issueGang c x s) :=
  IssueOk.issueChecks (fun _ => hs.mxPush)

theorem Canon.execMxwait {d : Reg} {m : BitVec 2} (hs : Canon s) : NextOk (execMxwait d m s) := by
  unfold Machine.execMxwait
  exact Canon.afterAcquire hs fun ht => NextOk.ite ht.modCur.finish (.next ht.modCur.wait)

theorem Canon.execMxwaitTimeout {c : Nat} (hs : Canon s) : NextOk (execMxwaitTimeout c s) := by
  unfold Machine.execMxwaitTimeout
  exact .next (.ite hs.modCore.trapAt hs)

theorem Canon.modMatrix {c : Nat} {f : Matrix → Matrix} (hs : Canon s) : Canon (modMatrix s c f) := hs.modCore

theorem Canon.mxDone {c i : Nat} (hs : Canon s) : Canon (mxDone s c i) := hs.modMatrix

theorem Canon.engineRead {c off n : Nat} {f : State → List Byte → State} (hs : Canon s)
    (hf : ∀ {t y}, Canon t → Canon (f t y)) :
    Canon (engineRead s c off n f) := by
  unfold Machine.engineRead
  split
  · exact hs.ueHalt
  · exact hf hs.correct

theorem Canon.engineHalt {c cause : Nat} (hs : Canon s) : Canon (engineHalt s c cause) := hs.haltGraph

theorem Canon.southHalt {c ap cause ord : Nat} (hs : Canon s) : Canon (southHalt s c ap cause ord) := by
  unfold Machine.southHalt
  split
  · exact hs.slotHalt
  · exact hs.engineHalt

theorem Canon.takePort {c n k : Nat} (hs : Canon s) : Canon (takePort s c n k) := hs.setChan

theorem Canon.mxCount {c : Nat} {cs : List Nat} (hs : Canon s) : Canon (mxCount s c cs) := hs.modMatrix.statNotice

theorem Canon.runMxb {c i : Nat} {port : Bool} {x y : Word} (hs : Canon s) : Canon (runMxb s c i port x y) := by
  unfold Machine.runMxb
  refine .ite ?_ ?_
  · refine .ite hs ?_
    dsimp only
    split
    · exact hs.southHalt
    · exact hs.setChan.modMatrix.mxCount.mxDone
  · refine .engineRead hs fun ht => ?_
    split
    · exact ht.engineHalt
    · exact ht.modMatrix.mxCount.mxDone

theorem Canon.execMxbLoad {c : Nat} (hs : Canon s) : NextOk (execMxbLoad c s) := by
  unfold Machine.execMxbLoad
  refine .next ?_
  refine .ite hs ?_
  split
  · exact hs
  · split
    · exact hs.runMxb
    · exact hs

theorem Canon.mxHead {c : Nat} {f : MxCmd → State} (hs : Canon s) (hf : ∀ x, Canon (f x)) :
    NextOk (mxHead s c f) := by
  unfold Machine.mxHead
  refine .next ?_
  refine .ite hs ?_
  split
  · exact hs
  · exact hf _

theorem Canon.mxCompute {c : Nat} {f : Nat → MxCmd → State} (hs : Canon s) (hf : ∀ x y, Canon (f x y)) :
    NextOk (mxCompute s c f) := by
  unfold Machine.mxCompute
  refine .next ?_
  refine .ite hs ?_
  split
  · exact hs
  · split
    · exact hs
    · exact hf _ _

theorem Canon.execMxswExchange {c : Nat} (hs : Canon s) : NextOk (execMxswExchange c s) := by
  unfold Machine.execMxswExchange
  refine Canon.mxHead hs fun _ => ?_
  split
  · exact hs.modMatrix.mxDone
  · exact hs

theorem Canon.bankRead {c bank : Nat} {f : State → State} (hs : Canon s) (hf : ∀ {t}, Canon t → Canon (f t)) :
    Canon (bankRead s c bank f) := by
  unfold Machine.bankRead
  split
  · exact hs.ueHalt
  · exact hf hs.correct

theorem Canon.bankCount {c bank : Nat} {cs : List Nat} (hs : Canon s) : Canon (bankCount s c bank cs) :=
  hs.modMatrix.statNotice

theorem Canon.multiply {c bank : Nat} {y : Word} {bs : List Byte} {t : State} (hs : Canon s)
    (e : multiply s c bank y bs = some t) :
    Canon t := by
  unfold Machine.multiply at e
  extract_lets b k ty p mode w rows cell at e
  have hcell : ∀ (ijs : List Nat) (acc : Option (State × List Nat)), (∀ r, acc = some r → Canon r.1) →
      ∀ r, ijs.foldl cell acc = some r → Canon r.1 := by
    intro ijs
    induction ijs with
    | nil => exact fun _ hacc => hacc
    | cons ij ijs ih =>
      refine fun acc hacc => ih _ fun r hr => ?_
      obtain ⟨q, hq, hr⟩ := Option.bind_eq_some_iff.1 hr
      obtain ⟨v, -, rfl⟩ := Option.map_eq_some_iff.1 hr
      exact (hacc q hq).write
  obtain ⟨r, hr, rfl⟩ := Option.map_eq_some_iff.1 e
  exact (hcell _ _ (by rintro _ ⟨⟩; exact hs) r hr).modMatrix.bankCount

theorem Canon.execMxmmExecute {c : Nat} (hs : Canon s) : NextOk (execMxmmExecute c s) := by
  unfold Machine.execMxmmExecute
  refine Canon.mxCompute hs fun _ _ => ?_
  split
  · refine .ite ?_ ?_
    · refine .ite ?_ (.ite hs.southHalt hs)
      refine .bankRead hs.takePort fun ht => ?_
      split
      · exact ((ht.multiply ‹_›)).mxDone
      · exact ht.southHalt
    · refine .engineRead hs fun ht => ?_
      refine .bankRead ht fun hu => ?_
      split
      · exact ((hu.multiply ‹_›)).mxDone
      · exact hu.engineHalt
  · exact hs

theorem Canon.clearBank {c bank mode : Nat} {e : Int} (hs : Canon s) : Canon (clearBank s c bank mode e) :=
  hs.write.modMatrix

theorem Canon.execMxaccExecute {c : Nat} (hs : Canon s) : NextOk (execMxaccExecute c s) := by
  unfold Machine.execMxaccExecute
  refine Canon.mxCompute hs fun _ _ => ?_
  dsimp only
  split
  · exact hs.clearBank.mxDone
  · exact .bankRead hs fun ht => .mxDone (.ite ht.setTile.bankCount.clearBank ht.setTile.bankCount)
  · exact .bankRead hs fun ht => .mxDone (.ite ht.setChan.bankCount.clearBank ht.setChan.bankCount)
  · exact hs

theorem Canon.deliverSort {c : Nat} {r : List Word} {out : Bool} {res : List (Nat × Int)} (hs : Canon s) :
    Canon (deliverSort s c r out res) := by
  unfold Machine.deliverSort
  exact .ite hs.setChan hs.setTile.setTile

theorem Canon.execMxsortExecute {c : Nat} (hs : Canon s) : NextOk (execMxsortExecute c s) := by
  unfold Machine.execMxsortExecute
  refine Canon.mxHead hs fun _ => ?_
  split
  · exact .ite (.ite (.ite hs.takePort.deliverSort.mxCount.modMatrix.mxDone
      (.engineRead hs.takePort fun ht => ht.deliverSort.mxCount.modMatrix.mxDone)) (.ite hs.southHalt hs))
        (.engineRead hs fun ht => .ite ht.deliverSort.mxCount.modMatrix.mxDone
          (.engineRead ht fun hu => hu.deliverSort.mxCount.modMatrix.mxDone))
  · exact hs

theorem Canon.execMxgangExecute {c : Nat} (hs : Canon s) : NextOk (execMxgangExecute c s) := by
  unfold Machine.execMxgangExecute
  refine Canon.mxHead hs fun _ => ?_
  split
  · exact hs.modMatrix.mxDone
  · exact hs

/-! ### `Machine/Meld` -/

theorem Canon.loadMeld {c : Nat} {r : MeldRec} (hs : Canon s) : Canon (loadMeld s c r) :=
  .modCore (.foldl hs fun _ _ ht => ht.write)

theorem Canon.issueMldg {c : Nat} {x : Word} (hs : Canon s) : IssueOk (issueMldg c x s) := by
  unfold Machine.issueMldg
  refine IssueOk.issueChecks (fun _ => ?_)
  refine Canon.issueRead hs fun ht => ?_
  exact IssueOk.issueChecks (fun _ => ht.loadMeld)

theorem Canon.issueMlchkRec {c : Nat} {x : Word} (hs : Canon s) : IssueOk (issueMlchkRec c x s) :=
  IssueOk.issueChecks (fun _ => Canon.issueRead hs fun ht => ht)

theorem Canon.mlPush {c : Nat} {m : MlCmd} (hs : Canon s) : IssueOk (mlPush s c m) := by
  unfold Machine.mlPush
  exact IssueOk.ite trivial hs.modCore

theorem Canon.issueMlfree {m c : Nat} (hs : Canon s) : IssueOk (issueMlfree m c s) := by
  refine IssueOk.issueChecks fun _ => ?_
  have h : IssueOk (Machine.mlPush s c (.free m)) := hs.mlPush
  split
  · next e _ => exact (IssueOk.ok h e).modCore
  · exact h

theorem Canon.issueMlcut {m c : Nat} {x : Word} (hs : Canon s) : IssueOk (issueMlcut m c x s) :=
  IssueOk.issueChecks (fun _ => hs.mlPush)

theorem Canon.issueMlrun {m c : Nat} {md : Mode} {x y : Word} (hs : Canon s) : IssueOk (issueMlrun m c md x y s) :=
  IssueOk.issueChecks (fun _ => hs.mlPush)

theorem Canon.modMeld {c : Nat} {f : Meld → Meld} (hs : Canon s) : Canon (modMeld s c f) := hs.modCore

theorem Canon.mlDone {c : Nat} (hs : Canon s) : Canon (mlDone s c) := hs.modMeld

theorem Canon.mlCount {c : Nat} {cs : List Nat} {eot : Bool} (hs : Canon s) : Canon (mlCount s c cs eot) :=
  hs.modMeld.statNotice

theorem Canon.runVector {c id : Nat} {g : MeldGraph} {x y : Word} {iseq pos : Nat} {e : Int} {ins : List (List Int)}
    {cin : List Nat} (hs : Canon s) :
    Canon (runVector s c id g x y iseq pos e ins cin) := by
  unfold Machine.runVector
  exact .ite (.mlDone (.ite hs.mlCount.setChan hs.mlCount.setTile))
    (.modMeld (.ite hs.mlCount.setChan hs.mlCount.setTile))

theorem Canon.mlHead {c : Nat} {f : MlCmd → State} (hs : Canon s) (hf : ∀ x, Canon (f x)) :
    NextOk (mlHead s c f) := by
  unfold Machine.mlHead
  refine .next ?_
  refine .ite hs ?_
  split
  · exact hs
  · exact hf _

theorem Canon.execMeldRun {c : Nat} (hs : Canon s) : NextOk (execMeldRun c s) := by
  unfold Machine.execMeldRun
  refine Canon.mlHead hs fun _ => ?_
  split
  · split
    · exact hs.mlDone
    · split
      · exact hs.ueHalt
      · refine .ite ?_ ?_
        · refine .ite ?_ (.ite hs.southHalt hs)
          dsimp only
          split
          · exact hs.takePort.southHalt
          · exact hs.takePort.runVector
        · refine .engineRead hs fun ht => ?_
          split
          · exact ht.engineHalt
          · exact ht.runVector
  · exact hs

theorem Canon.execMlfreeComplete {c : Nat} (hs : Canon s) : NextOk (execMlfreeComplete c s) := by
  unfold Machine.execMlfreeComplete
  refine Canon.mlHead hs fun _ => ?_
  split
  · exact hs.modMeld.mlDone
  · exact hs

theorem Canon.execMlcutExecute {c : Nat} (hs : Canon s) : NextOk (execMlcutExecute c s) := by
  unfold Machine.execMlcutExecute
  refine Canon.mlHead hs fun _ => ?_
  split
  · exact hs.modMeld.mlDone
  · exact hs

theorem Canon.issueWord {c : Nat} {md : Mode} {w : Word32} {x y : Word} (hs : Canon s) :
    IssueOk (issueWord s c md w x y) := by
  unfold Machine.issueWord
  split
  · exact trivial
  · split
    · exact hs.issueMxb
    · exact hs.issueMxb
    · exact hs.issueMxsw
    · exact hs.issueMxmm
    · exact hs.issueMxmm
    · exact hs.issueClr
    · exact hs
    · exact hs.issueOut
    · exact hs.issueOut
    · exact hs.issueSort
    · exact hs.issueGang
    · exact hs.issueMldg
    · exact hs
    · exact hs.issueMlchkRec
    · exact hs.issueMlfree
    · exact hs.issueMlrun
    · exact hs.issueMlcut
    · exact trivial

/-! ### `Machine/Streams` -/

theorem Canon.guardNotice {c : Nat} {n : Notice} (hs : Canon s) : Canon (guardNotice s c n) := by
  unfold Machine.guardNotice
  exact .ite hs.modCtx hs.modCore.notifyGraph.tellMgmt

theorem Canon.modEngine {c e : Nat} {f : Engine → Engine} (hs : Canon s) : Canon (modEngine s c e f) := hs.modCore

theorem Canon.setHead {c e : Nat} {m : StrCmd} (hs : Canon s) : Canon (setHead s c e m) := hs.modEngine

theorem Canon.streamHalt {c e : Nat} {m : StrCmd} {cause : Nat} (hs : Canon s) : Canon (streamHalt s c e m cause) :=
  hs.haltReached

theorem Canon.streamMoved {c e n : Nat} {m : StrCmd} {buf : List Byte} (hs : Canon s) :
    Canon (streamMoved s c e n m buf) :=
  hs.setHead.modEngine

theorem Canon.sideHold {c e : Nat} {m : StrCmd} {x : Side} (hs : Canon s) : Canon (sideHold s c e m x) :=
  hs.modEngine

theorem Canon.streamReach {c e : Nat} {m : StrCmd} {x : Side} {r : Reach}
    {f : List (Nat × Nat) → List Byte → State → State} (hs : Canon s)
    (hf : ∀ {x y t}, Canon t → Canon (f x y t)) :
    Canon (streamReach s c e m x r f) :=
  .withPieces hs (fun ht => ht.streamHalt) fun ht => hf ht.sideHold

theorem Canon.engineCounts {c e : Nat} {cs : List Nat} (hs : Canon s) : Canon (engineCounts s c e cs) :=
  hs.modEngine.statNotice

theorem Canon.readPlace {c e : Nat} {m : StrCmd} {n : Nat} {bs : List Byte} (hs : Canon s) :
    Canon (readPlace s c e m n bs) := by
  unfold Machine.readPlace
  split
  · exact hs.streamMoved
  · exact hs.setTile.streamMoved
  · refine .ite hs.streamMoved ?_
    split
    · exact hs.streamHalt
    · exact hs.setTile.engineCounts.streamMoved

theorem Canon.readBurst {c e : Nat} {m : StrCmd} {most : Nat} (hs : Canon s) : Canon (readBurst s c e m most) := by
  unfold Machine.readBurst
  refine .streamReach hs fun ht => ?_
  split
  · exact (Canon.snd ht.readPieces ‹_›).ueHalt
  · exact (Canon.snd ht.readPieces ‹_›).readPlace

theorem Canon.readDeliver {c e : Nat} {m : StrCmd} (hs : Canon s) : Canon (readDeliver s c e m) := by
  unfold Machine.readDeliver
  exact .ite hs (.ite hs.setChan.setHead (.ite hs.setChan.setHead (.ite hs.setChan.setHead hs)))

theorem Canon.readMove {c e : Nat} {m : StrCmd} (hs : Canon s) : Canon (readMove s c e m) := by
  unfold Machine.readMove
  exact .ite hs.readDeliver (.ite hs.readBurst hs)

theorem Canon.writeBurst {c e : Nat} {m : StrCmd} {xmode xwin va n : Nat} {bs rest : List Byte} (hs : Canon s) :
    Canon (writeBurst s c e m xmode xwin va n bs rest) := by
  unfold Machine.writeBurst
  exact .ite hs.streamMoved.guardNotice (.streamReach hs fun ht => ht.writePieces.streamMoved)

theorem Canon.writeMove {c e : Nat} {m : StrCmd} (hs : Canon s) : Canon (writeMove s c e m) := by
  unfold Machine.writeMove
  refine .ite hs ?_
  refine .ite ?_ ?_
  · refine .ite hs.writeBurst ?_
    split
    · exact hs
    · exact hs.setChan.setHead
  · dsimp only
    split
    · exact hs.ueHalt
    · exact hs.correct.writeBurst

theorem Canon.copyMove {c e : Nat} {m : StrCmd} (hs : Canon s) : Canon (copyMove s c e m) := by
  unfold Machine.copyMove
  refine .ite hs ?_
  refine .ite hs.writeBurst ?_
  refine .streamReach hs fun ht => ?_
  split
  · exact (Canon.snd ht.readPieces ‹_›).ueHalt
  · exact ((Canon.snd ht.readPieces ‹_›).setHead).writeBurst

theorem Canon.streamMove {c e : Nat} (hs : Canon s) : Canon (streamMove s c e) := by
  unfold Machine.streamMove
  split
  · exact hs
  · refine .ite hs ?_
    refine .ite hs.readBurst ?_
    split
    · exact hs.readMove
    · exact hs.writeMove
    · exact hs.copyMove
    · exact hs

theorem Canon.execStreamStart {c e : Nat} (hs : Canon s) : NextOk (execStreamStart c e s) := by
  unfold Machine.execStreamStart
  refine .next ?_
  split
  · exact hs
  · exact .ite hs hs.setHead.modEngine

theorem Canon.execStreamSourceReleased {c e : Nat} (hs : Canon s) : NextOk (execStreamSourceReleased c e s) := by
  unfold Machine.execStreamSourceReleased
  refine .next ?_
  split
  · exact hs
  · exact .ite hs.setHead.modEngine hs

theorem Canon.streamLeave {c e : Nat} {m : StrCmd} (hs : Canon s) : Canon (streamLeave s c e m) := by
  unfold Machine.streamLeave
  exact .ite hs.modEngine.modEngine hs.modEngine

theorem Canon.followOn {c e : Nat} {m : StrCmd} (hs : Canon s) : Canon (followOn s c e m) := by
  have h := hs.issueWord (c := c) (md := m.mode) (w := m.fword) (x := m.frs1) (y := m.frs2)
  unfold Machine.followOn
  split
  · exact hs
  · next he => exact (IssueOk.ok h he).streamLeave
  · next he => exact (IssueOk.halt h he).streamLeave
  · exact hs.streamLeave.haltGraph

theorem Canon.execStreamVisible {c e : Nat} (hs : Canon s) : NextOk (execStreamVisible c e s) := by
  unfold Machine.execStreamVisible
  refine .next ?_
  split
  · exact hs
  · exact .ite hs (.ite (.followOn (.ite hs hs.setHead.modEngine)) (.streamLeave (.ite hs hs.setHead.modEngine)))

theorem Canon.appendPerform {c n : Nat} (hs : Canon s) : Canon (appendPerform s c n) := by
  unfold Machine.appendPerform
  dsimp only
  split
  · exact hs
  · exact .ite hs (.ite hs.modCore.guardNotice (.withPieces hs (fun ht => ht.modCore.haltReached) fun ht =>
      ht.writePieces.modCore))

theorem Canon.execHomePerform {c q : Nat} (hs : Canon s) : NextOk (execHomePerform c q s) := by
  unfold Machine.execHomePerform
  exact .next (.ite hs.tryHome (.ite hs.streamMove hs.appendPerform))

theorem Canon.execKittyResend {c q : Nat} (hs : Canon s) : NextOk (execKittyResend c q s) := by
  unfold Machine.execKittyResend
  refine .next ?_
  refine .ite ?_ (.ite hs.streamMove hs.appendPerform)
  split
  · exact hs.tryHome
  · exact hs

/-! ### `Machine/Ring` -/

theorem Canon.retire {h : Nat} (hs : Canon s) : Canon (retire s h) := hs.release.modGraph.recordOutcome.settleHalt

theorem Canon.retireDrained {h : Nat} (hs : Canon s) : Canon (retireDrained s h) := by
  unfold Machine.retireDrained
  split
  · exact hs
  · exact .ite hs.retire hs

theorem Canon.reachSink {h n : Nat} (hs : Canon s) : Canon (reachSink s h n) := hs.modGraph.retireDrained

theorem Canon.abandonSwitch {h : Nat} (hs : Canon s) : Canon (abandonSwitch s h) := by
  unfold Machine.abandonSwitch
  split
  · exact hs
  · exact .ite hs (.ite (.tellSender (.notifyGraph (.modGraph (.foldl hs fun _ _ ht => ht.modCore))))
      (.notifyGraph (.modGraph (.foldl hs fun _ _ ht => ht.modCore))))

theorem Canon.landToken {c i t : Nat} {m : PtrMsg} (hs : Canon s) : Canon (landToken s c i t m) := by
  unfold Machine.landToken
  dsimp only
  split
  · exact hs.ueHalt
  · refine .ite hs.haltGraph ?_
    split
    · exact hs.haltGraph
    · exact .ite hs.haltGraph hs.setTile.modCore.statNotice

theorem Canon.sinkReached {c a : Nat} (hs : Canon s) : Canon (sinkReached s c a) := by
  unfold Machine.sinkReached
  dsimp only
  split
  · exact .ite hs.reachSink hs
  · exact hs

theorem Canon.landDrain {c i : Nat} (hs : Canon s) : Canon (landDrain s c i) := hs.modCore.abandonSwitch.sinkReached

theorem Canon.landMsg {c i t : Nat} {m : PtrMsg} (hs : Canon s) : Canon (landMsg s c i t m) := by
  unfold Machine.landMsg
  exact .ite hs.landDrain hs.landToken

theorem Canon.execWrptrWrite {c d : Nat} (hs : Canon s) : NextOk (execWrptrWrite c d s) := by
  unfold Machine.execWrptrWrite
  refine .next ?_
  dsimp only
  split
  · exact hs
  · exact .ite hs (.ite hs.modCore.guardNotice (.ite hs (.ite hs.modCore.notifyGraph
      (.ite hs.modCore.notifyGraph (.ite hs.modCore hs.modCore.landMsg)))))

theorem Canon.setChannel {ch : Nat} {x : Channel} (hs : Canon s) : Canon (setChannel s ch x) := hs

theorem Canon.sendCredit {ch rd : Nat} (hs : Canon s) : Canon (sendCredit s ch rd) := by
  unfold Machine.sendCredit
  split
  · exact hs
  · exact hs.setChannel

theorem Canon.execRdptrMirror {c d : Nat} (hs : Canon s) : NextOk (execRdptrMirror c d s) := by
  unfold Machine.execRdptrMirror
  refine .next ?_
  dsimp only
  split
  · exact hs
  · refine .ite hs ?_
    split
    · exact .ite hs.modCore.guardNotice (.ite hs (.ite (.ite hs.modCore.modCore
        (.foldl hs.modCore fun _ _ ht => .foldl ht fun _ _ hu => hu.modCore)) hs.modCore.tellMgmt))
    · exact .ite hs.modCore.sendCredit hs
    · exact hs

theorem Canon.startFiring {c : Nat} {p : Nat × Nat} {a ph : Nat} (hs : Canon s) : Canon (startFiring s c p a ph) :=
  hs.modCore

theorem Canon.execFiringStart {c : Nat} (hs : Canon s) : NextOk (execFiringStart c s) := by
  unfold Machine.execFiringStart
  refine .next ?_
  refine .ite hs ?_
  split
  · exact hs
  · dsimp only
    split
    · exact hs.ueHalt
    · exact .ite hs.startFiring hs

theorem Canon.discardResidue {c a p : Nat} (hs : Canon s) : Canon (discardResidue c a s p) := by
  unfold Machine.discardResidue
  split
  · exact hs
  · exact .ite hs hs.modCore.notifyGraph

theorem Canon.drainActor {c a : Nat} (hs : Canon s) : Canon (drainActor s c a) := by
  unfold Machine.drainActor
  extract_lets s1 s2
  have h1 : Canon s1 := .foldl hs fun _ _ ht => ht.discardResidue
  have h2 : Canon s2 := .foldl h1 fun _ _ ht => ht.sendDrain
  exact h2.modCore.sinkReached

theorem Canon.execActorDrain {c : Nat} (hs : Canon s) : NextOk (execActorDrain c s) := by
  unfold Machine.execActorDrain
  refine .next ?_
  refine .ite hs ?_
  split
  · exact hs
  · exact .ite hs.drainActor hs

theorem Canon.memHalt {n : Nat} {a : MemActor} {arc cause : Nat} (hs : Canon s) : Canon (memHalt s n a arc cause) :=
  hs.haltReached

theorem Canon.engineAt {n : Nat} {a : MemActor} {arc va len : Nat} {st : Bool}
    {f : List (Nat × Nat) → List Byte → State → State} (hs : Canon s)
    (hf : ∀ {x y t}, Canon t → Canon (f x y t)) :
    Canon (engineAt s n a arc va len st f) :=
  .withPieces hs (fun ht => ht.memHalt) hf

theorem Canon.engineUe {a : MemActor} {u : Nat} (hs : Canon s) : Canon (engineUe s a u) := hs.haltLocation

theorem Canon.setActor {n : Nat} {a : MemActor} (hs : Canon s) : Canon (setActor s n a) := hs

theorem Canon.sourceSend {n : Nat} {a : MemActor} {g : Graph} {t : Nat} {bytes : List Byte} {drain : Bool}
    (hs : Canon s) :
    Canon (sourceSend s n a g t bytes drain) := by
  unfold Machine.sourceSend
  refine .foldl (.ite hs hs) fun _ _ ht => ?_
  split
  · exact ht
  · exact ht.setChannel

theorem Canon.sourceFire {n : Nat} {a : MemActor} {g : Graph} {p : PortRec} (hs : Canon s) :
    Canon (sourceFire s n a g p) := by
  unfold Machine.sourceFire
  refine .ite (.ite hs hs.setActor.sourceSend.modGraph) ?_
  refine .ite hs.setActor ?_
  refine .ite hs ?_
  refine .engineAt hs fun ht => ?_
  split
  · exact (Canon.snd ht.readPieces ‹_›).engineUe
  · exact ((Canon.snd ht.readPieces ‹_›).setActor).sourceSend

theorem Canon.sinkFire {n : Nat} {a : MemActor} {g : Graph} {p : PortRec} (hs : Canon s) :
    Canon (sinkFire s n a g p) := by
  unfold Machine.sinkFire
  refine .ite hs ?_
  refine .ite hs.setActor ?_
  refine .ite (.ite (.reachSink (.setActor (.ite hs hs.notifyGraph))) hs) ?_
  split
  · exact hs
  · exact .ite hs (.engineAt hs fun ht => .ite ht.setActor.writePieces.sendCredit ht.setActor.writePieces)

theorem Canon.engineFire {n : Nat} (hs : Canon s) : Canon (engineFire s n) := by
  unfold Machine.engineFire
  split
  · exact hs
  · split
    · exact hs
    · refine .ite hs ?_
      split
      · exact hs
      · exact .ite hs.sinkFire hs.sourceFire

theorem Canon.holdMode {h set who tok seq : Nat} {g : Graph} (hs : Canon s) : Canon (holdMode s h set who tok seq g) :=
  .modGraph (.foldl hs fun _ _ ht => ht.modCore)

theorem Canon.targetMode {h m : Nat} {g : Graph} (hs : Canon s) : Canon (targetMode s h m g) :=
  .modGraph (.foldl hs fun _ _ ht => ht.modCore)

theorem Canon.settleTarget {h : Nat} (hs : Canon s) : Canon (settleTarget s h) := by
  unfold Machine.settleTarget
  split
  · exact hs
  · exact .ite hs.targetMode.tellSender hs

theorem Canon.execModeTokenAccept {g : Word32} (hs : Canon s) : NextOk (execModeTokenAccept g s) := by
  unfold Machine.execModeTokenAccept
  refine .next ?_
  split
  · exact hs
  · split
    · exact hs
    · exact .ite hs (.ite hs.modGraph.notifyGraph.tellSender hs.modGraph.holdMode.settleTarget)

theorem Canon.switchSet {h : Nat} {g : Graph} (hs : Canon s) : Canon (switchSet s h g) := by
  unfold Machine.switchSet
  exact .ite (.modGraph (.foldl hs fun _ _ ht => ht.modCore))
    (.notifyGraph (.modGraph (.foldl hs fun _ _ ht => ht.modCore)))

theorem Canon.noteStopped {h pkg : Nat} (hs : Canon s) : Canon (noteStopped s h pkg) := hs.modGraph

theorem Canon.settleSwitch {h : Nat} (hs : Canon s) : Canon (settleSwitch s h) := by
  unfold Machine.settleSwitch
  split
  · exact hs
  · refine .ite hs ?_
    refine .ite hs.haltCopied ?_
    dsimp only
    split
    · exact hs.noteStopped
    · exact .ite hs.noteStopped.switchSet hs.noteStopped

theorem Canon.execSequencerStop {c : Nat} (hs : Canon s) : NextOk (execSequencerStop c s) := by
  unfold Machine.execSequencerStop
  refine .next ?_
  dsimp only
  split
  · exact .ite hs hs.modCore.settleSwitch
  · exact hs

theorem Canon.execModeXpkgTimeout {g : Word32} (hs : Canon s) : NextOk (execModeXpkgTimeout g s) := by
  unfold Machine.execModeXpkgTimeout
  refine .next ?_
  split
  · exact .ite hs.haltGraph hs
  · exact hs

/-! ### `Machine/Links` -/

theorem Canon.sendReply {r : Reply} {keep : Bool} (hs : Canon s) : Canon (sendReply s r keep) := hs

theorem Canon.performRemote {m : RemoteMsg} (hs : Canon s) : Canon (performRemote s m) := by
  unfold Machine.performRemote
  dsimp only
  split
  · exact hs.sendReply
  · split
    · exact hs.correct.performAccess.sendReply
    · exact hs.performAccess.sendReply
    · exact hs.sendReply
    · exact hs.tellMgmt.sendReply

theorem Canon.execRemoteRequest {m : RemoteMsg} (hs : Canon s) : NextOk (execRemoteRequest m s) := by
  unfold Machine.execRemoteRequest
  refine .next ?_
  refine .ite hs ?_
  split
  · exact hs.sendReply.countMgmt
  · refine .ite hs.countMgmt ?_
    refine .ite hs.sendReply ?_
    split
    · exact hs.park
    · exact hs.performRemote

theorem Canon.leaveOutbox {o : Away} (hs : Canon s) : Canon (leaveOutbox s o) := hs

theorem Canon.bring {c q cause data : Nat} (hs : Canon s) : Canon (bring s c q cause data) := by
  unfold Machine.bring
  exact .ite hs.completeEntry hs

theorem Canon.execRemoteResponse {c q : Nat} {cause : BitVec 9} {data : Nat} (hs : Canon s) :
    NextOk (execRemoteResponse c q cause data s) := by
  unfold Machine.execRemoteResponse
  refine .next ?_
  split
  · exact hs
  · exact .ite hs hs.leaveOutbox.bring

theorem Canon.execRemoteTimeout {c q : Nat} (hs : Canon s) : NextOk (execRemoteTimeout c q s) := by
  unfold Machine.execRemoteTimeout
  refine .next ?_
  split
  · exact hs
  · exact .ite hs.leaveOutbox.bring hs

theorem Canon.noteLate {ch : Nat} {x : Channel} {n : Notice} (hs : Canon s) : Canon (noteLate s ch x n) := by
  unfold Machine.noteLate
  dsimp only
  split
  · exact hs.setChannel
  · exact .ite hs.setChannel hs.setChannel.modGraph.notifyGraph

theorem Canon.receive {ch : Nat} {x : Channel} {late : Bool} {n : Notice} (hs : Canon s) :
    Canon (receive s ch x late n) := by
  unfold Machine.receive
  exact .setChannel (.ite hs.noteLate hs)

theorem Canon.sinkArrival {ch : Nat} {x : Channel} {n : Nat} {a : MemActor} {bytes : List Byte} {late : Bool}
    (hs : Canon s) :
    Canon (sinkArrival s ch x n a bytes late) := by
  unfold Machine.sinkArrival
  refine .ite hs ?_
  refine .ite hs.setActor.abandonSwitch ?_
  dsimp only
  split
  · exact hs.haltGraph
  · exact hs.setActor.statNotice.receive

theorem Canon.execVcTokenArrival {ch : Nat} {bytes : List Byte} {late : Bool} (hs : Canon s) :
    NextOk (execVcTokenArrival ch bytes late s) := by
  unfold Machine.execVcTokenArrival
  refine .next ?_
  split
  · exact hs
  · refine .ite hs ?_
    split
    · exact hs.sinkArrival
    · exact hs
    · exact .ite hs (.ite (.foldl hs fun _ _ ht => ht.landDrain) hs.receive.landMsg)

theorem Canon.execVcCredit {ch rdptr : Nat} (hs : Canon s) : NextOk (execVcCredit ch rdptr s) := by
  unfold Machine.execVcCredit
  refine .next ?_
  split
  · exact hs
  · exact .ite hs (.ite hs.setChannel (.ite hs (.ite hs.haltGraph (.foldl hs.setChannel fun _ _ ht => ht.modCore))))

theorem Canon.execPortRetrain {n : Nat} (hs : Canon s) : NextOk (execPortRetrain n s) := by
  unfold Machine.execPortRetrain
  exact .next (.ite hs hs)

theorem Canon.execPortRetrained {n : Nat} (hs : Canon s) : NextOk (execPortRetrained n s) := by
  unfold Machine.execPortRetrained
  exact .next (.ite (.tellMgmt (.foldl hs fun _ _ ht => ht.notify)) hs)

theorem Canon.requeue {h : Nat} (hs : Canon s) : Canon (requeue s h) := by
  unfold Machine.requeue
  split
  · exact hs
  · exact .ite hs.notifyGraph.failLoad hs.notifyGraph.completeAll.egressHalt.modGraph.release.settleHalt

theorem Canon.reroute {n : Nat} (hs : Canon s) : Canon (reroute s n) := hs

theorem Canon.execPortDown {n : Nat} {around : Bool} (hs : Canon s) : NextOk (execPortDown n around s) := by
  unfold Machine.execPortDown
  exact .next (.ite (.ite (.foldl (.reroute (.tellMgmt hs)) fun _ _ ht => ht.requeue)
    (.foldl (.tellMgmt hs) fun _ _ ht => ht.haltGraph)) hs)

theorem Canon.execFlitUncorrectable {o : FlitOwner} (hs : Canon s) : NextOk (execFlitUncorrectable o s) := by
  unfold Machine.execFlitUncorrectable
  refine .next ?_
  split
  · exact hs
  · split
    · exact hs
    · split
      · exact hs.haltGraph
      · exact hs.haltGraph
      · exact hs

theorem Canon.execDomainEnumeration {pkg : BitVec 12} (hs : Canon s) : NextOk (execDomainEnumeration pkg s) := by
  unfold Machine.execDomainEnumeration
  exact .next (.ite hs hs)

/-! ### `Machine/Loops` -/

theorem Canon.endRun {b : Blk} {x : Site} (hs : Canon s) : Canon (endRun b x s) := hs.modElem.emitDone

theorem Canon.startRun {b : Blk} {x : Site} {slot : Nat} {cs : List Int} (hs : Canon s) :
    Canon (startRun b x slot cs s) := by
  unfold Machine.startRun
  exact .ite hs.tokenHalt (.ite hs.emitData.endRun hs.modElem)

theorem Canon.runStep {b : Blk} {x : Site} {tok : List Nat → State → Item} (hs : Canon s) :
    Canon (runStep b x tok s) := by
  unfold Machine.runStep
  exact .ite hs.emitData.endRun hs.emitData.modElem

theorem Canon.loopAct {b : Blk} {bsrc : Bool} {lane : Nat} {tok : List Nat → State → Item} {x : Site} (hs : Canon s) :
    Canon (loopAct b bsrc lane tok x s) := by
  unfold Machine.loopAct
  refine .ite hs.runStep ?_
  refine .ite (.ite hs.waitsNow (.withHead hs fun ht => .ite ht.gridHalt ht.pop.startRun)) ?_
  refine .ite hs.noteWait ?_
  refine .withHead hs fun ht => ?_
  split
  · exact ht.gridHalt
  · exact .ite (.ite ht.pop.modElem.modElem ht.pop.modElem.startRun)
      (.ite ht.gridHalt (.ite (.react ht (fun hu => hu.noBefore) fun hu => hu) ht.passMark))

theorem Canon.execLgen {b : Blk} (hs : Canon s) : NextOk (execLgen b s) := Canon.elemAct hs fun ht => ht.loopAct

theorem Canon.execAgen {b : Blk} (hs : Canon s) : NextOk (execAgen b s) := Canon.reactAll hs fun ht => ht.emit

theorem Canon.execAgch {b : Blk} (hs : Canon s) : NextOk (execAgch b s) := Canon.elemAct hs fun ht => ht.loopAct

theorem Canon.ctlToken {kids : List CtlKid} {x : Site} {t : Nat × Nat} (hs : Canon s) :
    Canon (ctlToken kids x t s).1 := by
  unfold Machine.ctlToken
  extract_lets w e n started
  clear_value started
  split
  · exact hs.gridHalt
  · split
    · exact hs.gridHalt
    · exact hs.modElem

theorem Canon.ctlTokens {kids : List CtlKid} {x : Site} {ts : List (Nat × Nat)} (hs : Canon s) :
    Canon (ctlTokens kids x ts s).1 := by
  induction ts generalizing s with
  | nil => exact hs
  | cons t ts ih =>
    unfold Machine.ctlTokens
    dsimp only
    split
    · exact ih hs.ctlToken
    · exact hs.ctlToken

theorem Canon.ctlBegin {kids : List CtlKid} {x : Site} {n : Nat} (hs : Canon s) : Canon (ctlBegin kids x n s) :=
  hs.modElem

theorem Canon.ctlStart {b : Blk} {kids : List CtlKid} {x : Site} (hs : Canon s) : Canon (ctlStart b kids x s) := by
  unfold Machine.ctlStart
  exact .ite hs (.ite hs.ctlBegin (.withHead hs fun ht => .ite ht.gridHalt (.ite ht.gridHalt ht.pop.ctlBegin)))

theorem Canon.startKid {b : Blk} {kids : List CtlKid} {x : Site} {j : Nat} (hs : Canon s) :
    Canon (startKid b kids x j s) := by
  unfold Machine.startKid
  split
  · exact hs
  · extract_lets i s1 s2 free s3
    have h2 : Canon s2 := by
      unfold s2
      split
      · exact hs.modElem.modElem
      · exact hs.modElem.emit0
      · exact hs.modElem.emit1
    have h3 : Canon s3 := .ite h2.emit0 h2
    exact .ite h3.emit1 h3

theorem Canon.startKids {b : Blk} {kind : Nat} {kids : List CtlKid} {x : Site} {js : List Nat} (hs : Canon s) :
    Canon (startKids b kind kids x js s) := by
  induction js generalizing s with
  | nil => exact hs
  | cons j js ih => exact ih (.ite hs.startKid hs)

theorem Canon.ctlFinish {b : Blk} {kids : List CtlKid} {x : Site} (hs : Canon s) : Canon (ctlFinish b kids x s) := by
  unfold Machine.ctlFinish
  refine .ite hs ?_
  refine .ite hs.modElem.modGrid ?_
  split
  · exact hs.modElem
  · exact hs.modElem.modElem

theorem Canon.ctlAct {b : Blk} {kind : Nat} (hs : Canon s) : NextOk (ctlAct b kind s) := by
  unfold Machine.ctlAct
  exact NextOk.ite (.next hs) (NextOk.ite (.next hs.flush.modElem.ctlTokens)
    (.next (.waveDone (.flush (.ctlFinish (.ite hs.flush.modElem.ctlTokens.ctlStart.startKids
      hs.flush.modElem.ctlTokens.ctlStart))))))

theorem Canon.execCseq {b : Blk} (hs : Canon s) : NextOk (execCseq b s) := hs.ctlAct

theorem Canon.execCpipe {b : Blk} (hs : Canon s) : NextOk (execCpipe b s) := hs.ctlAct

theorem Canon.execCstrm {b : Blk} (hs : Canon s) : NextOk (execCstrm b s) := hs.ctlAct

/-! ### `Machine/Admit` -/

theorem Canon.copyGraph {h cause : Nat} (hs : Canon s) : Canon (copyGraph s h cause) := hs.tellMgmt

theorem Canon.createGraph {x id off pages cls : Nat} {who : Option (Nat × Nat)} (hs : Canon s) :
    Canon (createGraph s x id off pages cls who).2 :=
  hs.modCtx

theorem Canon.execLaunchRequest {c q : Nat} (hs : Canon s) : NextOk (execLaunchRequest c q s) := by
  unfold Machine.execLaunchRequest
  refine .next ?_
  refine .ite hs ?_
  refine .ite (.ite hs.modCore.leave hs.completeEntry) ?_
  split
  · exact hs.completeEntry
  · refine .ite hs.completeEntry ?_
    refine .ite hs.completeEntry ?_
    split
    · exact hs.completeEntry
    · exact hs.modCore.createGraph

theorem Canon.execImageValidation {g : Word32} (hs : Canon s) : NextOk (execImageValidation g s) := by
  unfold Machine.execImageValidation
  refine .next ?_
  split
  · exact hs
  · refine .ite hs ?_
    refine .ite hs.refuse.copyGraph ?_
    dsimp only
    split
    · exact hs.refuse
    · split
      · exact hs.modGraph
      · exact .completeEntry hs.modGraph

theorem Canon.execPlacementTimeout {g : Word32} (hs : Canon s) : NextOk (execPlacementTimeout g s) := by
  unfold Machine.execPlacementTimeout
  refine .next ?_
  split
  · exact hs
  · exact .ite hs.refuse hs

theorem Canon.placeActor {x : Nat × MemActor} (hs : Canon s) : Canon (placeActor s x) := by
  unfold Machine.placeActor
  dsimp only
  split
  · refine .foldl (.ite hs hs) fun _ _ ht => ?_
    split
    · exact ht
    · exact ht.setChannel
  · exact hs

theorem Canon.writeCore {img : List Byte} {h : Nat} {sup : Bool} {p : AdmitPlan} {x : Nat × Nat} (hs : Canon s) :
    Canon (writeCore img h sup p s x) :=
  .modCore (.foldl hs fun _ _ ht => ht.setTile)

theorem Canon.bindEgress {h : Nat} {sinks : List (Nat × Nat)} (hs : Canon s) : Canon (bindEgress s h sinks) := hs

theorem Canon.noteUncached {h : Nat} (hs : Canon s) : Canon (noteUncached s h) := by
  unfold Machine.noteUncached
  exact .ite hs hs.tellMgmt

theorem Canon.cachePlace {x : Nat × List Byte} (hs : Canon s) : Canon (cachePlace s x) := hs

theorem Canon.cacheGraph {img : List Byte} {cores : List (Nat × Nat)} (hs : Canon s) :
    Canon (cacheGraph s img cores) := by
  unfold Machine.cacheGraph
  exact .ite (.foldl hs fun _ _ ht => ht.cachePlace) hs

theorem Canon.takeResources {h : Nat} {g : Graph} {p : AdmitPlan} (hs : Canon s) : Canon (takeResources s h g p) :=
  .bindEgress (.foldl (.foldl (.cacheGraph (.noteUncached hs)) fun _ _ ht => ht.placeActor) fun _ _ ht => ht.writeCore)

theorem Canon.loseImage {h cause : Nat} (hs : Canon s) : Canon (loseImage s h cause) :=
  hs.notifyGraph.copyGraph.modGraph.recordOutcome

theorem Canon.noPlace {h : Nat} {g : Graph} (hs : Canon s) : Canon (noPlace s h g) := by
  unfold Machine.noPlace
  exact .ite hs hs.modGraph.notifyGraph

theorem Canon.consider {ahead : List Nat} {h : Nat} (hs : Canon s) : Canon (consider ahead s h) := by
  unfold Machine.consider
  split
  · exact hs
  · refine .ite hs ?_
    split
    · exact .ite (.ite hs.noPlace hs) (.ite hs.notifyGraph.failLoad hs.refuse)
    · exact .foldl (.ite hs.noPlace hs) fun _ _ ht => ht.requestFreeze
    · refine .ite hs ?_
      split
      · exact hs.loseImage
      · exact hs.takeResources

theorem Canon.schedule (hs : Canon s) : Canon (schedule s) := .foldl hs fun _ _ ht => ht.consider

theorem Canon.execVictimMinRunTime {g : Word32} (hs : Canon s) : NextOk (execVictimMinRunTime g s) := by
  unfold Machine.execVictimMinRunTime
  refine .next ?_
  split
  · exact hs
  · exact .ite hs.schedule hs

/-! ### `Machine/Arith` -/

theorem Canon.execElemAdd {b : Blk} (hs : Canon s) : NextOk (execElemAdd b s) := by
  unfold Machine.execElemAdd
  exact NextOk.ite (Canon.reactAll hs fun ht => ht.xwFire) hs.arith

theorem Canon.execElemSub {b : Blk} (hs : Canon s) : NextOk (execElemSub b s) := by
  unfold Machine.execElemSub
  exact NextOk.ite (Canon.reactAll hs fun ht => ht.xwFire) hs.arith

theorem Canon.execElemMul {b : Blk} (hs : Canon s) : NextOk (execElemMul b s) := hs.arith

theorem Canon.execFma {b : Blk} (hs : Canon s) : NextOk (execFma b s) := hs.arith

theorem Canon.execFms {b : Blk} (hs : Canon s) : NextOk (execFms b s) := hs.arith

theorem Canon.execNfma {b : Blk} (hs : Canon s) : NextOk (execNfma b s) := hs.arith

theorem Canon.execElemMin {b : Blk} (hs : Canon s) : NextOk (execElemMin b s) := hs.arith

theorem Canon.execElemMax {b : Blk} (hs : Canon s) : NextOk (execElemMax b s) := hs.arith

theorem Canon.execAbs {b : Blk} (hs : Canon s) : NextOk (execAbs b s) := hs.arith

theorem Canon.execNeg {b : Blk} (hs : Canon s) : NextOk (execNeg b s) := hs.arith

theorem Canon.execElemAnd {b : Blk} (hs : Canon s) : NextOk (execElemAnd b s) := hs.logic

theorem Canon.execElemOr {b : Blk} (hs : Canon s) : NextOk (execElemOr b s) := hs.logic

theorem Canon.execElemXor {b : Blk} (hs : Canon s) : NextOk (execElemXor b s) := hs.logic

theorem Canon.execNot {b : Blk} (hs : Canon s) : NextOk (execNot b s) := hs.logic

theorem Canon.execElemShl {b : Blk} (hs : Canon s) : NextOk (execElemShl b s) := hs.logic

theorem Canon.execElemShr {b : Blk} (hs : Canon s) : NextOk (execElemShr b s) := hs.logic

theorem Canon.execElemSra {b : Blk} (hs : Canon s) : NextOk (execElemSra b s) := hs.logic

theorem Canon.execClamp {b : Blk} (hs : Canon s) : NextOk (execClamp b s) := hs.logic

theorem Canon.execCmpeq {b : Blk} (hs : Canon s) : NextOk (execCmpeq b s) := hs.compare

theorem Canon.execCmplt {b : Blk} (hs : Canon s) : NextOk (execCmplt b s) := hs.compare

theorem Canon.execCmple {b : Blk} (hs : Canon s) : NextOk (execCmple b s) := hs.compare

theorem Canon.execSel {b : Blk} (hs : Canon s) : NextOk (execSel b s) := hs.laneOp

theorem Canon.execExp2 {b : Blk} (hs : Canon s) : NextOk (execExp2 b s) := hs.arith

theorem Canon.execLog2 {b : Blk} (hs : Canon s) : NextOk (execLog2 b s) := hs.arith

theorem Canon.execRcp {b : Blk} (hs : Canon s) : NextOk (execRcp b s) := hs.arith

theorem Canon.execRsq {b : Blk} (hs : Canon s) : NextOk (execRsq b s) := hs.arith

/-! ### `Machine/Commit` -/

theorem Canon.reportPlace {c : Nat} (hs : Canon s) : Canon (reportPlace s c).2 := by
  unfold Machine.reportPlace
  split
  · exact hs
  · exact hs.takeFresh

theorem Canon.reportFailure {h c cause : Nat} (hs : Canon s) : Canon (reportFailure s h c cause) :=
  hs.reportPlace.loadError.modCore

theorem Canon.reachDecision {h : Nat} (hs : Canon s) : Canon (reachDecision s h) := by
  unfold Machine.reachDecision
  split
  · exact hs
  · exact .ite hs (.ite (.ite hs.modGraph.reportLoad hs.modGraph) hs.modGraph)

theorem Canon.execShadowReport {c : Nat} {cause : BitVec 9} (hs : Canon s) : NextOk (execShadowReport c cause s) := by
  unfold Machine.execShadowReport
  refine .next ?_
  split
  · exact hs
  · exact .ite hs (.ite hs.reportFailure hs.modCore.modGraph.reachDecision)

theorem Canon.execStatusTimeout {g : Word32} (hs : Canon s) : NextOk (execStatusTimeout g s) := by
  unfold Machine.execStatusTimeout
  refine .next ?_
  split
  · exact hs
  · exact .ite hs.abortCounted hs

theorem Canon.execPackageReport {g : Word32} {pkg : Nat} {ok : Bool} (hs : Canon s) :
    NextOk (execPackageReport g pkg ok s) := by
  unfold Machine.execPackageReport
  refine .next ?_
  split
  · exact hs
  · exact .ite hs (.ite hs.modGraph hs.abortLoad.refuse.modGraph)

theorem Canon.execXpkgGo {g : Word32} (hs : Canon s) : NextOk (execXpkgGo g s) := by
  unfold Machine.execXpkgGo
  refine .next ?_
  split
  · exact hs
  · exact .ite hs.modGraph hs

theorem Canon.execXpkgAbort {g : Word32} (hs : Canon s) : NextOk (execXpkgAbort g s) := by
  unfold Machine.execXpkgAbort
  refine .next ?_
  split
  · exact hs
  · exact .ite hs (.ite (.ite hs.dropPeer hs) (.ite hs.abortLoad hs))

theorem Canon.execXpkgReportTimeout {g : Word32} (hs : Canon s) : NextOk (execXpkgReportTimeout g s) := by
  unfold Machine.execXpkgReportTimeout
  refine .next ?_
  split
  · exact hs
  · exact .ite hs.abortLoad.notifyGraph hs

theorem Canon.execPeerHalt {g : Word32} (hs : Canon s) : NextOk (execPeerHalt g s) := by
  unfold Machine.execPeerHalt
  refine .next ?_
  split
  · exact hs
  · exact .ite hs.haltGraph hs

theorem Canon.clear {a n : Nat} (hs : Canon s) : Canon (s.clear a n) := .intro (memFilter_wf hs.1) hs.2

theorem Canon.swapCore {c : Nat} {sh : Shadow} (hs : Canon s) : Canon (swapCore s c sh) :=
  .foldl (.foldl (.modCore (.foldl hs.clear.clear fun _ _ ht => ht.write)) fun _ _ ht => ht.loadMeld) fun _ _ ht =>
    ht.writePlacement.writeLibrary

theorem Canon.moveStations {c : Nat} {old : List Host.Cell} {x : Nat × Nat} (hs : Canon s) :
    Canon (moveStations c old s x) := by
  unfold Machine.moveStations
  exact .ite hs.write hs

theorem Canon.moveMelds {c : Nat} {old : List Host.Cell} {k : Core} (hs : Canon s) : Canon (moveMelds c old k s) :=
  .modCore (.foldl hs fun _ _ ht => ht.write)

theorem Canon.restoreCore {m : Moved} {bytes : List (Nat × List Host.Cell)} {x : Nat × Core × Nat} (hs : Canon s) :
    Canon (restoreCore m bytes s x) :=
  .foldl (.moveMelds (.foldl (.modCore (.clear (.clear (.foldl hs.clear fun _ _ ht => ht.write)))) fun _ _ ht =>
    ht.moveStations)) fun _ _ ht => ht.writePlacement

theorem Canon.restore {h : Nat} {g : Graph} {m : Snapshot} (hs : Canon s) : Canon (restore s h g m) :=
  .foldl hs fun _ _ ht => ht.restoreCore

theorem Canon.hostDrain {h gport : Nat} (hs : Canon s) : Canon (hostDrain s h gport) := by
  unfold Machine.hostDrain
  split
  · exact hs
  · split <;> exact hs

theorem Canon.bindIngress {h : Nat} {thaw : Bool} (hs : Canon s) : Canon (bindIngress s h thaw) := by
  unfold Machine.bindIngress
  exact .ite hs (.foldl hs fun _ _ ht => ht.hostDrain)

theorem Canon.tellLost {c : Nat} (hs : Canon s) : Canon (tellLost s c) := .foldl hs fun _ _ ht => ht.copyMgmt

theorem Canon.startGraph {h : Nat} (hs : Canon s) : Canon (startGraph s h) := by
  unfold Machine.startGraph
  split
  · exact hs
  · refine .ite ?_ ?_
    · refine .notifyGraph (.bindIngress (.modGraph ?_))
      split
      · exact hs
      · exact .foldl hs.restore fun _ _ ht => ht.tellLost.pump
    · refine .bindIngress (.modGraph ?_)
      split
      · exact hs
      · exact .foldl hs.restore fun _ _ ht => ht.tellLost.pump

theorem Canon.execCommitSwap {c : Nat} (hs : Canon s) : NextOk (execCommitSwap c s) := by
  unfold Machine.execCommitSwap
  refine .next ?_
  split
  · refine .ite hs ?_
    split
    · exact hs.haltLocation
    · exact .ite hs.swapCore.modGraph.startGraph hs.swapCore.modGraph
  · exact hs

/-! ### `Machine/Control` -/

theorem Canon.execStats {a : Reg} (hs : Canon s) : NextOk (execStats a s) := by
  unfold Machine.execStats
  exact Canon.command hs fun ht => Canon.finish0 (.setTile (.keepCode (.ite (.notifyGraph ht) ht)))

theorem Canon.execFrz {a : Reg} {q : QNum} (hs : Canon s) : NextOk (execFrz a q s) := by
  unfold Machine.execFrz
  refine Canon.privileged hs fun ht => ?_
  refine Canon.command ht fun hu => ?_
  refine .next ?_
  split
  · exact hu.takeEntry.advance.requestFreeze.modGraph
  · exact hu.takeEntry.advance.requestFreeze.modGraph
  · exact hu.takeEntry.advance.requestFreeze.modGraph
  · exact hu.takeEntry.advance.requestFreeze.completeEntry

theorem Canon.execThaw {a : Reg} {q : QNum} (hs : Canon s) : NextOk (execThaw a q s) := by
  unfold Machine.execThaw
  exact Canon.privileged hs fun ht => Canon.command ht fun hu => .next
    (.ite hu.takeEntry.advance.modGraph.completeEntry hu.takeEntry.advance.completeEntry)

theorem Canon.sendQuote {r : SecReq} (hs : Canon s) : Canon (sendQuote r s) := by
  unfold Machine.sendQuote
  exact .ite hs.completeEntry hs

theorem Canon.execQuote {a b : Reg} {q : QNum} (hs : Canon s) : NextOk (execQuote a b q s) :=
  Canon.privileged hs fun ht => Canon.command ht fun hu => Canon.withOperand hu fun hv => .next
    hv.takeEntry.advance.sendQuote

theorem Canon.execQuoteExt {a b : Reg} {q : QNum} (hs : Canon s) : NextOk (execQuoteExt a b q s) :=
  Canon.privileged hs fun ht => Canon.command ht fun hu => Canon.withOperand hu fun hv => .next
    hv.takeEntry.advance.sendQuote

/-! ### `Machine/Convert` -/

theorem Canon.cvtFire {b : Blk} {u : Nat} {x : Site} {items : List Item} (hs : Canon s) :
    Canon (cvtFire b u x items s) := by
  unfold Machine.cvtFire
  dsimp only
  split
  · exact hs.tokenHalt
  · refine .ite hs.tokenHalt ?_
    split
    · exact hs.drawsMade.tokenHalt
    · exact (((hs.srWords ‹_›)).addStats).emit

theorem Canon.execCvt {b : Blk} (hs : Canon s) : NextOk (execCvt b s) := Canon.reactAll hs fun ht => ht.cvtFire

theorem Canon.execQblk {b : Blk} (hs : Canon s) : NextOk (execQblk b s) := Canon.reactAll hs fun ht => ht.cvtFire

theorem Canon.execDqblk {b : Blk} (hs : Canon s) : NextOk (execDqblk b s) := Canon.reactAll hs fun ht => ht.cvtFire

theorem Canon.execTosd {b : Blk} (hs : Canon s) : NextOk (execTosd b s) := Canon.reactAll hs fun ht => ht.cvtFire

theorem Canon.execFromsd {b : Blk} (hs : Canon s) : NextOk (execFromsd b s) :=
  Canon.reactAll hs fun ht => ht.cvtFire

theorem Canon.bplnFire {b : Blk} {x : Site} {items : List Item} (hs : Canon s) : Canon (bplnFire b x items s) := by
  unfold Machine.bplnFire
  dsimp only
  split
  · exact hs.tokenHalt
  · exact hs.addStats.emit

theorem Canon.execBpln {b : Blk} (hs : Canon s) : NextOk (execBpln b s) := Canon.reactAll hs fun ht => ht.bplnFire

/-! ### `Machine/Slots` -/

theorem Canon.onWire {h : SlotHead} {bs : List Byte} (hs : Canon s) : Canon (onWire s h bs) := hs

theorem Canon.idleTo {place : Nat} (hs : Canon s) : Canon (idleTo s place) := by
  unfold Machine.idleTo
  refine .foldl hs fun _ _ ht => ?_
  split
  · exact ht
  · exact ht.onWire

theorem Canon.passSlot {suit slot : Nat} (hs : Canon s) : Canon (passSlot s suit slot) := hs.idleTo

theorem Canon.idleSlot {suit slot : Nat} (hs : Canon s) : Canon (idleSlot s suit slot) := hs.idleTo

theorem Canon.slotErrors {lose : State → Nat → Nat → State} (hs : Canon s)
    (hlose : ∀ {t y a2}, Canon t → Canon (lose t y a2)) :
    Canon (slotErrors lose s) :=
  .foldl hs fun _ _ ht => hlose ht

/-! ### `Machine/Deck` -/

theorem Canon.wakeCard {card off n : Nat} (hs : Canon s) : Canon (wakeCard s card off n) := hs

theorem Canon.opApplied {o : DeckOp} (hs : Canon s) : Canon (opApplied s o) := hs.modCore

theorem Canon.hubReturn {o : DeckOp} {old : Nat} (hs : Canon s) : Canon (hubReturn s o old) := hs

theorem Canon.noteOld {o : DeckOp} {old : Nat} (hs : Canon s) : Canon (noteOld s o old) := hs

theorem Canon.throughHub {o : DeckOp} (hs : Canon s) : Canon (throughHub s o) := by
  unfold Machine.throughHub
  refine .ite hs ?_
  split
  · exact hs.hubReturn
  · exact hs

theorem Canon.applyOp {l : Nat} {o : DeckOp} (hs : Canon s) : Canon (applyOp s l o) := by
  unfold Machine.applyOp
  exact .ite (.ite hs.write.wakeCard.opApplied.completeEntry
    (.ite (.ite hs.write.wakeCard.hubReturn hs.write.wakeCard.noteOld) hs.write.wakeCard))
      (.ite hs.write.wakeCard.opApplied hs.write.wakeCard)

theorem Canon.masterFails {u : Nat} (hs : Canon s) : Canon (masterFails s u) :=
  .foldl hs.tellMgmt fun _ _ ht => ht.haltGraph

theorem Canon.dropQueue {l : Nat} (hs : Canon s) : Canon (dropQueue s l) := .foldl hs fun _ _ ht => ht.throughHub

theorem Canon.beginRefresh {l : Nat} (hs : Canon s) : Canon (beginRefresh s l) := hs.dropQueue

theorem Canon.applyHead {l : Nat} (hs : Canon s) : Canon (applyHead s l) := by
  unfold Machine.applyHead
  split
  · exact hs
  · dsimp only
    split
    · exact .applyOp (.ite (.correct hs) hs)
    · exact .ite (.masterFails hs) (.beginRefresh (.tellMgmt (.ite (.completeEntry (.opApplied hs)) hs)))

theorem Canon.refreshDone {l : Nat} (hs : Canon s) : Canon (refreshDone s l) := by
  unfold Machine.refreshDone
  split
  · exact hs
  · exact .ite hs hs

theorem Canon.applyOverdue {t n l : Nat} (hs : Canon s) : Canon (applyOverdue t n s l) := by
  induction n generalizing s with
  | zero => exact hs
  | succ n ih =>
    unfold Machine.applyOverdue
    split
    · exact hs
    · exact .ite (ih hs.applyHead) hs

theorem Canon.settle {slot : Nat} (hs : Canon s) : Canon (settle s slot) := by
  unfold Machine.settle
  exact .foldl hs fun _ _ ht => .ite ht ht.applyOverdue

theorem Canon.execReplicaApply {layer : Nat} (hs : Canon s) : NextOk (execReplicaApply layer s) := by
  unfold Machine.execReplicaApply
  refine .next ?_
  refine .ite hs ?_
  split
  · exact hs.refreshDone
  · exact .ite hs.applyHead.refreshDone hs

theorem Canon.replicaLost {cause layer : Nat} (hs : Canon s) : Canon (replicaLost cause s layer) := by
  unfold Machine.replicaLost
  exact .ite hs.tellMgmt hs.tellMgmt.beginRefresh

theorem Canon.noticeLost {cause layer : Nat} (hs : Canon s) : Canon (noticeLost cause s layer) := hs.tellMgmt

theorem Canon.streamLost {key graph ord mask cause layer : Nat} (hs : Canon s) :
    Canon (streamLost key graph ord mask cause s layer) := by
  unfold Machine.streamLost
  exact .ite hs.tellMgmt.haltGraph hs.tellMgmt

theorem Canon.sendOp {c suit slot : Nat} {o : DeckOp} (hs : Canon s) : Canon (sendOp s c suit slot o) := by
  unfold Machine.sendOp
  exact hs

theorem Canon.endSlot {h : SlotHead} {bs : List Byte} (hs : Canon s) : Canon (endSlot s h bs) := by
  unfold Machine.endSlot
  exact .slotErrors hs.onWire fun ht => .ite ht.noticeLost ht.replicaLost

theorem Canon.windowSlot {atomic : Bool} {suit slot : Nat} (hs : Canon s) : Canon (windowSlot atomic suit slot s) := by
  unfold Machine.windowSlot
  refine .ite hs ?_
  extract_lets w s1 s2
  have h1 : Canon s1 := hs.settle
  have h2 : Canon s2 := h1.passSlot
  split
  · exact .ite hs h1.idleSlot
  · exact Canon.endSlot (.ite h2.modCore.tellMgmt h2.sendOp)

theorem Canon.streamLand {key : Nat} {st : DeckStream} {m : PtrMsg} {w : Nat × Nat} (hs : Canon s) :
    Canon (streamLand key st m s w) := by
  unfold Machine.streamLand
  refine .ite hs ?_
  refine .ite hs ?_
  refine .ite hs.landDrain ?_
  split
  · exact hs
  · exact hs.landToken

theorem Canon.sinkTake {st : DeckStream} {m : PtrMsg} {x : Nat × MemActor} (hs : Canon s) :
    Canon (sinkTake st m s x) := by
  unfold Machine.sinkTake
  refine .ite hs ?_
  refine .ite hs.setActor.abandonSwitch ?_
  dsimp only
  split
  · exact hs.setActor.statNotice
  · exact hs.memHalt

theorem Canon.egressTake {key : Nat} {st : DeckStream} {m : PtrMsg} (hs : Canon s) : Canon (egressTake key st m s) := by
  unfold Machine.egressTake
  split
  · exact hs
  · exact .ite hs hs

theorem Canon.streamSend {key n room : Nat} (hs : Canon s) : Canon (streamSend key n room s) := by
  induction n generalizing room s with
  | zero => exact hs
  | succ n ih =>
    unfold Machine.streamSend
    dsimp only
    split
    · exact hs
    · refine .ite hs (.ite hs (ih (Canon.egressTake ?_)))
      exact Canon.foldl (Canon.foldl hs fun _ _ ht => ht.streamLand) fun _ _ ht => ht.sinkTake

theorem Canon.streamCarry {key suit slot : Nat} (hs : Canon s) : Canon (streamCarry key suit slot s) := by
  unfold Machine.streamCarry
  exact .ite hs.streamSend.idleSlot (.slotErrors hs.streamSend.passSlot.onWire fun ht => ht.streamLost)

theorem Canon.streamSlot {kclass suit slot : Nat} (hs : Canon s) : Canon (streamSlot kclass suit slot s) := by
  unfold Machine.streamSlot
  exact .ite hs (.ite hs.settle.idleSlot hs.settle.streamCarry)

theorem Canon.spreadCredit {key : Nat} (hs : Canon s) : Canon (spreadCredit s key) := by
  unfold Machine.spreadCredit
  dsimp only
  split
  · exact hs
  · exact .foldl hs fun _ _ ht => ht.modCore

theorem Canon.setAck {key r p : Nat} (hs : Canon s) : Canon (setAck s key r p) := by
  unfold Machine.setAck
  split
  · exact hs
  · exact .spreadCredit hs

theorem Canon.creditRecord {x : Nat × Nat × Mirror} (hs : Canon s) : Canon (creditRecord s x) := by
  unfold Machine.creditRecord
  dsimp only
  split
  · exact hs.modCore.tellMgmt
  · exact .ite hs.modCore hs.modCore.setAck

theorem Canon.hubCredit {x : Nat × Nat × Nat} (hs : Canon s) : Canon (hubCredit s x) := by
  unfold Machine.hubCredit
  exact .ite hs hs.setAck

theorem Canon.execCreditSlot {layer : Nat} (hs : Canon s) : NextOk (execCreditSlot layer s) := by
  unfold Machine.execCreditSlot
  exact .next (.ite hs (.ite (.endSlot (.foldl hs.settle.passSlot fun _ _ ht => ht.hubCredit))
    (.endSlot (.foldl hs.settle.passSlot fun _ _ ht => ht.creditRecord))))

theorem Canon.notCrossed {x card : Nat} (hs : Canon s) : Canon (notCrossed s x card) := hs.modCtx

theorem Canon.execNoticeSlot {slot : Nat} (hs : Canon s) : NextOk (execNoticeSlot slot s) := by
  unfold Machine.execNoticeSlot
  refine .next (.ite hs ?_)
  split
  · extract_lets rest s1 k card n
    have h1 : Canon s1 := hs.settle.passSlot
    exact .endSlot (.notCrossed (h1.congr rfl rfl))
  · exact hs

theorem Canon.deliverRecord {z : HubItem} (hs : Canon s) : Canon (deliverRecord s z) := by
  unfold Machine.deliverRecord
  split
  · exact .ite hs hs.completeEntry
  · exact hs

theorem Canon.execReturnRecordSlot {slot : Nat} (hs : Canon s) : NextOk (execReturnRecordSlot slot s) := by
  unfold Machine.execReturnRecordSlot
  refine .next (.ite hs ?_)
  extract_lets s1 rs s2 d s3
  have h2 : Canon s2 := hs.settle.passSlot
  have h3 : Canon s3 := .foldl (h2.congr rfl rfl) fun _ _ ht => ht.deliverRecord
  exact .ite hs h3.endSlot

theorem Canon.copy {a b n : Nat} (hs : Canon s) : Canon (State.copy s a b n) :=
  .foldl hs.clear fun _ _ ht => ht.write

theorem Canon.execRefreshCopySlot {slot : Nat} (hs : Canon s) : NextOk (execRefreshCopySlot slot s) := by
  unfold Machine.execRefreshCopySlot
  refine .next (.ite hs ?_)
  extract_lets s1 f round at' s2
  have h1 : Canon s1 := hs.settle.passSlot
  have h2 : Canon s2 := h1.foldl fun _ _ ht => .ite ht (ht.copy.congr rfl rfl)
  exact h2.endSlot

theorem Canon.applyQuiet {l : Nat} {o : DeckOp} (hs : Canon s) : Canon (applyQuiet s l o) := by
  unfold Machine.applyQuiet
  exact .ite hs.write hs.write

theorem Canon.takeSnapshot (hs : Canon s) : Canon (takeSnapshot s) := by
  unfold Machine.takeSnapshot
  split
  · exact hs.masterFails
  · exact .foldl hs.copy fun _ _ ht => ht.applyQuiet

theorem Canon.asleepFault {x : Nat × Nat × Nat} (hs : Canon s) : Canon (asleepFault s x) := by
  unfold Machine.asleepFault
  split
  · exact hs.haltGraph
  · exact hs

theorem Canon.advanceTime {dt : Nat} (hs : Canon s) : Canon (advanceTime s dt) := hs

theorem Canon.execFrameBoundary (hs : Canon s) : NextOk (execFrameBoundary s) := by
  unfold Machine.execFrameBoundary
  extract_lets s1 d s2 f d' s3 s4
  have h1 : Canon s1 := hs.idleTo.settle
  clear_value s1
  have h2 : Canon s2 := .foldl (h1.congr rfl rfl) fun _ _ ht => ht.asleepFault
  have h3 : Canon s3 := .advanceTime (h2.congr rfl rfl)
  have h4 : Canon s4 := .ite h3.takeSnapshot h3
  exact .next (h4.foldl fun _ _ ht => ht.refreshDone)

theorem Canon.execCalendarWrite {i : Nat} {w : BitVec 32} (hs : Canon s) : NextOk (execCalendarWrite i w s) := by
  unfold Machine.execCalendarWrite
  exact .next (.ite hs (.ite hs.tellMgmt hs))

theorem Canon.execDkwinRangeWrite {x base size : Nat} (hs : Canon s) : NextOk (execDkwinRangeWrite x base size s) := by
  unfold Machine.execDkwinRangeWrite
  exact .next (.ite hs (.ite hs.tellMgmt hs.modCtx))

theorem Canon.execCardSleep {card : Nat} (hs : Canon s) : NextOk (execCardSleep card s) := by
  unfold Machine.execCardSleep
  exact .next (.ite hs (.ite hs.tellMgmt hs))

theorem Canon.execCardWake {card : Nat} (hs : Canon s) : NextOk (execCardWake card s) := by
  unfold Machine.execCardWake
  exact .next (.ite hs hs.beginRefresh)

theorem Canon.abortAdmission {h : Nat} (hs : Canon s) : Canon (abortAdmission s h) := hs.modGraph.failLoad

theorem Canon.execWakeSequenceTimeout {card : Nat} (hs : Canon s) : NextOk (execWakeSequenceTimeout card s) := by
  unfold Machine.execWakeSequenceTimeout
  refine .next ?_
  split
  · exact hs
  · extract_lets s1 hs' s2
    have h1 : Canon s1 := hs.tellMgmt
    have h2 : Canon s2 := .dropQueue (.foldl h1 fun _ _ ht => ht.abortAdmission)
    exact .ite hs (.ite (h2.congr rfl rfl) (.beginRefresh (h1.congr rfl rfl)))

/-! ### `Machine/Trust` -/

theorem Canon.testRegulators {n : Nat} (hs : Canon s) : Canon (testRegulators n s) := by
  unfold Machine.testRegulators
  exact .foldl hs fun _ _ ht => .tellMgmt ht

theorem Canon.startFirmware {n : Nat} (hs : Canon s) : Canon (startFirmware n s) := by
  unfold Machine.startFirmware
  exact .ite (.ite hs (.tellMgmt hs)) (.tellMgmt (.ite hs (.tellMgmt hs)))

theorem Canon.drawn (hs : Canon s) : Canon (drawn s) := hs

theorem Canon.answer {r : SpdmReq} {kind : Nat} {payload : List Byte} (hs : Canon s) :
    Canon (answer s r kind payload) :=
  hs

theorem Canon.spdmFails {r : SpdmReq} {type : Nat} (hs : Canon s) : Canon (spdmFails s r type) := hs.answer

theorem Canon.answerMeasurements {r : SpdmReq} (hs : Canon s) : Canon (answerMeasurements s r) := by
  unfold Machine.answerMeasurements
  exact .ite hs.answer (.ite hs.answer.drawn (.ite hs.answer (.ite hs.answer.drawn hs.spdmFails)))

theorem Canon.answerAlgorithms {r : SpdmReq} (hs : Canon s) : Canon (answerAlgorithms s r) := by
  unfold Machine.answerAlgorithms
  exact .ite hs.answer hs.spdmFails

theorem Canon.serveSpdm {kind : Nat} {r : SpdmReq} (hs : Canon s) : Canon (serveSpdm s kind r) := by
  unfold Machine.serveSpdm
  split
  · exact hs.answer
  · exact hs.answer
  · exact hs.answerAlgorithms
  · exact hs.answer
  · exact .ite hs.answer hs.spdmFails
  · exact .ite hs.answer hs.spdmFails
  · exact hs.answerMeasurements
  · exact hs.spdmFails

theorem Canon.arriveSpdm {kind : Nat} {r : SpdmReq} (hs : Canon s) : Canon (arriveSpdm s kind r) := by
  unfold Machine.arriveSpdm
  exact .ite hs (.ite hs.serveSpdm hs)

theorem Canon.requestsLeave {gone : SecReq → Bool} {first : Bool} (hs : Canon s) : Canon (requestsLeave s gone first) :=
  .foldl hs fun _ _ ht => ht.serveSpdm

theorem Canon.popRequest (hs : Canon s) : Canon (popRequest s) := hs.requestsLeave

theorem Canon.execQuoteCapture (hs : Canon s) : NextOk (execQuoteCapture s) := by
  unfold Machine.execQuoteCapture
  refine .next ?_
  split
  · exact hs
  · exact .ite hs (.ite hs.popRequest hs.drawn.popRequest.setTile.completeEntry)

theorem Canon.execQuoteExtendApply (hs : Canon s) : NextOk (execQuoteExtendApply s) := by
  unfold Machine.execQuoteExtendApply
  refine .next ?_
  split
  · exact hs
  · exact .ite hs (.ite hs.popRequest (.ite hs.popRequest.completeEntry (.completeEntry (.popRequest hs))))

theorem Canon.withdrawQuotes {c : Nat} (hs : Canon s) : Canon (withdrawQuotes s c) :=
  .foldl hs.requestsLeave fun _ _ ht => ht.completeEntry

/-! ### `Machine/Freeze` -/

theorem Canon.execFreezeRequest {g : Word32} (hs : Canon s) : NextOk (execFreezeRequest g s) := by
  unfold Machine.execFreezeRequest
  refine .next ?_
  split
  · exact hs
  · exact .ite hs hs.requestFreeze

theorem Canon.execFreezeWave {c : Nat} (hs : Canon s) : NextOk (execFreezeWave c s) := by
  unfold Machine.execFreezeWave
  refine .next ?_
  split
  · exact hs
  · exact .ite hs (.ite (.ite hs hs.withdrawQuotes.modCore) (.modGraph (.ite hs hs.withdrawQuotes.modCore)))

theorem Canon.keepParked {h : Nat} {g : Graph} (hs : Canon s) : Canon (keepParked s h g) := hs

theorem Canon.freezeFails {h : Nat} (hs : Canon s) : Canon (freezeFails s h) := hs.haltCopied

theorem Canon.stopped {h : Nat} (hs : Canon s) : Canon (stopped s h) :=
  hs.egressHalt.release.modGraph.notifyGraph.recordOutcome.settleHalt

theorem Canon.freezeDone {h : Nat} {g : Graph} (hs : Canon s) : Canon (freezeDone s h g) := by
  unfold Machine.freezeDone
  exact .settleHalt (.ite (.notifyGraph (.notifyGraph (.release
    (.modGraph (.keepParked (.ite hs.completeAll hs.completeAll.write))))))
      (.notifyGraph (.release (.modGraph (.keepParked (.ite hs.completeAll hs.completeAll.write))))))

theorem Canon.execFreezeComplete {g : Word32} {ok : Bool} (hs : Canon s) : NextOk (execFreezeComplete g ok s) := by
  unfold Machine.execFreezeComplete
  refine .next ?_
  split
  · exact hs
  · exact .ite hs (.ite hs.completeAll.stopped (.ite hs.freezeFails hs.freezeDone))

theorem Canon.execFreezeTimeout {g : Word32} (hs : Canon s) : NextOk (execFreezeTimeout g s) := by
  unfold Machine.execFreezeTimeout
  refine .next ?_
  split
  · exact hs
  · exact .ite hs.freezeFails hs

theorem Canon.openingFails {h cause : Nat} (hs : Canon s) : Canon (openingFails s h cause) := hs

theorem Canon.forgetHeld {h : Nat} (hs : Canon s) : Canon (forgetHeld s h) := hs

theorem Canon.stopGraph {h : Nat} (hs : Canon s) : Canon (stopGraph s h) := by
  unfold Machine.stopGraph
  split
  · exact hs
  · extract_lets s1
    have h1 : Canon s1 := by
      unfold s1
      split
      · exact hs
      · exact hs.completeEntry
    split
    case h_1 => exact hs.modGraph
    case h_8 => exact hs
    all_goals exact h1.completeAll.stopped.openingFails.forgetHeld

theorem Canon.execGraphStop {g : Word32} (hs : Canon s) : NextOk (execGraphStop g s) := by
  unfold Machine.execGraphStop
  refine .next ?_
  split
  · exact hs
  · exact .ite hs hs.stopGraph

theorem Canon.startSupervisor {x : Nat} {k : Ctx} (hs : Canon s) : Canon (startSupervisor s x k) :=
  .swapCore (.setTile (.modCore hs))

theorem Canon.execContextCreate {desc : List Byte} (hs : Canon s) : NextOk (execContextCreate desc s) := by
  unfold Machine.execContextCreate
  refine .next ?_
  refine .ite hs ?_
  refine .ite hs.tellMgmt ?_
  split
  · exact hs.tellMgmt
  · exact .startSupervisor hs

theorem Canon.restartHalted {cs : List Nat} (hs : Canon s) : Canon (restartHalted s cs) := hs

theorem Canon.execContextDestroy {x : Nat} (hs : Canon s) : NextOk (execContextDestroy x s) := by
  unfold Machine.execContextDestroy
  refine .next ?_
  split
  · exact hs
  · exact .requestsLeave (.foldl hs fun _ _ ht => ht.release)

theorem Canon.execNoticeDelivery {x : Nat} (hs : Canon s) : NextOk (execNoticeDelivery x s) := by
  unfold Machine.execNoticeDelivery
  refine .next ?_
  split
  · exact hs
  · dsimp only
    split
    · exact .ite hs hs.modCtx.landMsg
    · exact hs

/-! ### `Machine/GridMem` -/

theorem Canon.elemHold {x : Site} {b : Blk} {va : Nat} {ld st : Bool} (hs : Canon s) :
    Canon (elemHold s x b va ld st) := by
  unfold Machine.elemHold
  dsimp only
  split
  · exact hs
  · refine .ite hs ?_
    split
    · exact hs
    · exact hs.modElem

theorem Canon.withReach {s0 s1 : State} {x : Site} {r : Reach} {va : Nat}
    {f : List (Nat × Nat) → List Byte → State → State} (hs : Canon s0) (hs1 : Canon s1)
    (hf : ∀ {x y t}, Canon t → Canon (f x y t)) :
    Canon (withReach s0 s1 x r va f) :=
  .withPieces hs (fun ht => ht.gridHalt) fun _ => hf hs1

theorem Canon.execMld {b : Blk} (hs : Canon s) : NextOk (execMld b s) := by
  unfold Machine.execMld
  refine Canon.elemAct hs fun ht => ?_
  refine .react ht (fun hu => hu.noBefore) fun hu => ?_
  refine .withReach ht hu fun hv => ?_
  split
  · exact (Canon.snd hv.elemHold.readPieces ‹_›).ueHalt
  · exact (Canon.snd hv.elemHold.readPieces ‹_›).emit

theorem Canon.execMst {b : Blk} (hs : Canon s) : NextOk (execMst b s) :=
  Canon.elemAct hs fun ht => .react ht (fun hu => hu.noBefore) fun hu => .withReach ht hu fun hv =>
    hv.elemHold.writePieces.emit0

theorem Canon.matomOne {c : Nat} {op : QOp} {pa v : Nat} {far : List Byte} (hs : Canon s) :
    Canon (matomOne c op pa v far s).2 := by
  unfold Machine.matomOne
  split
  · exact hs
  · dsimp only
    split
    · exact hs
    · exact hs.correct.performAccess

theorem Canon.matomRun {c : Nat} {op : QOp} {vs : List Nat} {ls : List (Nat × Nat)} {far : List Byte} (hs : Canon s) :
    Canon (matomRun c op vs ls far s).2 := by
  induction ls generalizing far s with
  | nil => exact hs
  | cons l ls ih =>
    have h1 := hs.matomOne (c := c) (op := op) (pa := l.2) (v := vs.getD l.1 0) (far := far)
    unfold Machine.matomRun
    split
    · next h => exact .snd h1 h
    · next h =>
      have h2 := ih (far := if isLocal s l.2 then far else far.drop 4) (.snd h1 h)
      split
      · next h' => exact .snd h2 h'
      · exact h2

theorem Canon.execMatom {b : Blk} (hs : Canon s) : NextOk (execMatom b s) := by
  refine Canon.elemAct hs fun {_ _} ht => .react ht (fun hu => hu.noBefore) fun {x items t} hu => ?_
  extract_lets va vs ls
  refine .ite ht.gridHalt ?_
  split
  · exact ht.gridHalt
  · refine .withReach ht hu fun {ps far t1} h1 => ?_
    extract_lets t2
    have h2 : Canon t2 := by
      unfold t2
      split
      · exact h1.elemHold
      · exact h1
    split
    · next h => exact (Canon.snd h2.matomRun h).copyMgmt.ueHalt
    · next h => exact (Canon.snd h2.matomRun h).emit

/-! ### `Machine/GridEv` -/

theorem Canon.execGloadComplete {c : Nat} (hs : Canon s) : NextOk (execGloadComplete c s) := by
  unfold Machine.execGloadComplete
  refine NextOk.ite (.next hs) ?_
  split
  · exact .next hs.correct.modGrid.writePlacement.pump
  · exact .next hs.modGrid.haltGraph

theorem Canon.execDrainGatedSwap {c : Nat} (hs : Canon s) : NextOk (execDrainGatedSwap c s) := by
  unfold Machine.execDrainGatedSwap
  refine NextOk.ite (.next hs) ?_
  split
  · exact .next hs.haltToken
  · exact .next (.ite hs.modGrid.pump hs)

theorem Canon.execWavefrontSwapUnmarked {c k : Nat} (hs : Canon s) : NextOk (execWavefrontSwapUnmarked c k s) := by
  unfold Machine.execWavefrontSwapUnmarked
  exact NextOk.ite (.next hs.modElem.modGrid.waveDone) (.next hs)

theorem Canon.execGridWatchdog {c k : Nat} (hs : Canon s) : NextOk (execGridWatchdog c k s) := by
  unfold Machine.execGridWatchdog
  exact .next (.ite hs.gridHalt hs)

theorem Canon.execPortWaitTimeout {c k : Nat} (hs : Canon s) : NextOk (execPortWaitTimeout c k s) := by
  unfold Machine.execPortWaitTimeout
  exact .next (.ite hs.gridHalt hs)

/-! ### `Machine/Reduce` -/

theorem Canon.reduceOut {b : Blk} {x : Site} {tok : List Byte} {join : List Byte → List Byte × List Nat}
    (hs : Canon s) :
    Canon (reduceOut b x tok join s) := by
  unfold Machine.reduceOut
  exact .ite hs.emit (.ite hs.modElem hs.addStats.modElem)

theorem Canon.rsumFire {b : Blk} {x : Site} {items : List Item} (hs : Canon s) : Canon (rsumFire b x items s) := by
  unfold Machine.rsumFire
  dsimp only
  split
  · exact hs.drawsMade.tokenHalt
  · exact (((hs.srWords ‹_›)).addStats).reduceOut

theorem Canon.rsumXw {b : Blk} {x : Site} {items : List Item} (hs : Canon s) : Canon (rsumXw b x items s) := by
  unfold Machine.rsumXw
  dsimp only
  split
  · exact hs.tokenHalt
  · exact .ite hs.tokenHalt (.ite hs.tokenHalt hs.reduceOut)

theorem Canon.extremeFire {b : Blk} {f : Val → Val → Val} {x : Site} {items : List Item} (hs : Canon s) :
    Canon (extremeFire b f x items s) := by
  unfold Machine.extremeFire
  extract_lets t r
  exact hs.addStats.reduceOut

theorem Canon.reduceBefore {b : Blk} {x : Site} {w : Word} (hs : Canon s) : Canon (reduceBefore b x w s).1 := by
  unfold Machine.reduceBefore
  dsimp only
  split
  · exact hs.emit.modElem
  · exact hs

theorem Canon.reduction {b : Blk} {op : Nat} {fire : Site → List Item → State → State} (hs : Canon s)
    (hfire : ∀ {x y t}, Canon t → Canon (fire x y t)) :
    NextOk (reduction b op fire s) :=
  Canon.elemAct hs fun ht => .react ht (fun hu => hu.reduceBefore) hfire

theorem Canon.execRsum {b : Blk} (hs : Canon s) : NextOk (execRsum b s) := by
  refine hs.reduction fun ht => ?_
  split
  · exact ht.rsumXw
  · exact ht.rsumFire

theorem Canon.execRmax {b : Blk} (hs : Canon s) : NextOk (execRmax b s) :=
  Canon.reduction hs fun ht => ht.extremeFire

theorem Canon.execRmin {b : Blk} (hs : Canon s) : NextOk (execRmin b s) :=
  Canon.reduction hs fun ht => ht.extremeFire

theorem Canon.moveFire {b : Blk} {f : List Item → Nat → Nat → Nat} {x : Site} {items : List Item} (hs : Canon s) :
    Canon (moveFire b f x items s) := by
  unfold Machine.moveFire
  refine .ite ?_ hs.emit
  split
  · exact hs.tokenHalt
  · exact hs.addStats.emit

theorem Canon.execBcast {b : Blk} (hs : Canon s) : NextOk (execBcast b s) := Canon.reactAll hs fun ht => ht.moveFire

theorem Canon.execShuf {b : Blk} (hs : Canon s) : NextOk (execShuf b s) := Canon.reactAll hs fun ht => ht.moveFire

theorem Canon.execElemRotl {b : Blk} (hs : Canon s) : NextOk (execElemRotl b s) :=
  Canon.reactAll hs fun ht => ht.moveFire

/-! ### `Machine/Select` -/

theorem Canon.pqFire {b : Blk} {x : Site} {items : List Item} (hs : Canon s) : Canon (pqFire b x items s) := by
  unfold Machine.pqFire
  exact .ite hs.tokenHalt hs.addStats.modElem

theorem Canon.pqEmit {b : Blk} {x : Site} (hs : Canon s) : Canon (pqEmit b x s) := hs.modElem.emit0.emit1

theorem Canon.pqBefore {b : Blk} {x : Site} {w : Word} (hs : Canon s) : Canon (pqBefore b x w s).1 := by
  unfold Machine.pqBefore
  dsimp only
  split
  · exact hs.pqEmit
  · exact hs

theorem Canon.execPqc {b : Blk} (hs : Canon s) : NextOk (execPqc b s) :=
  Canon.elemAct hs fun ht => .react ht (fun hu => hu.pqBefore) fun hu => hu.pqFire

theorem Canon.smplFire {b : Blk} {x : Site} {items : List Item} (hs : Canon s) : Canon (smplFire b x items s) := by
  unfold Machine.smplFire
  exact .ite hs.tokenHalt hs.modElem

theorem Canon.smplClose {b : Blk} {x : Site} (hs : Canon s) : Canon (smplClose b x s).1 := by
  unfold Machine.smplClose
  extract_lets e l sc td tt good wc ws
  split
  · exact hs.gridHalt
  · split
    · exact hs.gridHalt
    · split
      · exact hs.gridHalt
      · next hd => exact (hs.drawOnce hd).modElem.addStats.emit

theorem Canon.smplBefore {b : Blk} {x : Site} {w : Word} (hs : Canon s) : Canon (smplBefore b x w s).1 := by
  unfold Machine.smplBefore
  dsimp only
  split
  · exact hs.smplClose
  · exact hs

theorem Canon.execSmpl {b : Blk} (hs : Canon s) : NextOk (execSmpl b s) :=
  Canon.elemAct hs fun ht => .react ht (fun hu => hu.smplBefore) fun hu => hu.smplFire

theorem Canon.execAcpt {b : Blk} (hs : Canon s) : NextOk (execAcpt b s) := by
  refine Canon.reactAll hs fun {x items s} ht => ?_
  refine .ite ht.tokenHalt ?_
  split
  · exact ht.tokenHalt
  · next hd => exact (ht.drawOnce hd).emit

theorem Canon.execRnge {b : Blk} (hs : Canon s) : NextOk (execRnge b s) := by
  unfold Machine.execRnge
  refine Canon.reactAll hs fun ht => ?_
  split
  · exact ht.drawsMade.tokenHalt
  · exact ((ht.drawMany ‹_›)).emit

theorem Canon.stcntAct {b : Blk} {x : Site} (hs : Canon s) : Canon (stcntAct b x s) := by
  unfold Machine.stcntAct
  dsimp only
  split
  · exact hs
  · exact .ite hs hs.modElem.emit0

theorem Canon.execStcnt {b : Blk} (hs : Canon s) : NextOk (execStcnt b s) := Canon.elemAct hs fun ht => ht.stcntAct

theorem Canon.execStadd {b : Blk} (hs : Canon s) : NextOk (execStadd b s) := Canon.reactAll hs fun ht => ht.emit

/-! ### `Machine/ElementMark` -/

theorem Canon.runElem {op : Nat} {b : Blk} (hs : Canon s) : NextOk (runElem op b s) := by
  unfold Machine.runElem
  split
  · exact hs.execElemNop
  · exact hs.execConst
  · exact hs.execSink
  · exact hs.execCopy
  · exact hs.execElemAdd
  · exact hs.execElemSub
  · exact hs.execElemMul
  · exact hs.execFma
  · exact hs.execFms
  · exact hs.execNfma
  · exact hs.execElemMin
  · exact hs.execElemMax
  · exact hs.execAbs
  · exact hs.execNeg
  · exact hs.execElemAnd
  · exact hs.execElemOr
  · exact hs.execElemXor
  · exact hs.execNot
  · exact hs.execElemShl
  · exact hs.execElemShr
  · exact hs.execElemSra
  · exact hs.execClamp
  · exact hs.execCmpeq
  · exact hs.execCmplt
  · exact hs.execCmple
  · exact hs.execSel
  · exact hs.execExp2
  · exact hs.execLog2
  · exact hs.execRcp
  · exact hs.execRsq
  · exact hs.execCvt
  · exact hs.execQblk
  · exact hs.execDqblk
  · exact hs.execTosd
  · exact hs.execFromsd
  · exact hs.execBpln
  · exact hs.execRsum
  · exact hs.execRmax
  · exact hs.execRmin
  · exact hs.execBcast
  · exact hs.execShuf
  · exact hs.execElemRotl
  · exact hs.execSld
  · exact hs.execSwap
  · exact hs.execSteer
  · exact hs.execMerge
  · exact hs.execCarry
  · exact hs.execInvar
  · exact hs.execLgen
  · exact hs.execAgen
  · exact hs.execAgch
  · exact hs.execMld
  · exact hs.execMst
  · exact hs.execMatom
  · exact hs.execPin
  · exact hs.execPout
  · exact hs.execCseq
  · exact hs.execCpipe
  · exact hs.execCstrm
  · exact hs.execEot
  · exact hs.execEos
  · exact hs.execTstm
  · exact hs.execPqc
  · exact hs.execSmpl
  · exact hs.execAcpt
  · exact hs.execRnge
  · exact hs.execStcnt
  · exact hs.execStadd
  · exact .next hs

theorem Canon.actElem {c k : Nat} {sh : Bool} (hs : Canon s) : NextOk (actElem c k sh s) := by
  unfold Machine.actElem
  dsimp only
  split
  · exact .next hs
  · exact Canon.runElem hs

theorem Canon.execElementMark {c k : Nat} {sh : Bool} (hs : Canon s) : NextOk (execElementMark c k sh s) := by
  unfold Machine.execElementMark
  exact NextOk.ite hs.actElem (.next hs)

/-! ### `Machine/Kitty` -/

theorem Canon.unpark {ps : List Parked} (hs : Canon s) : Canon (unpark s ps) := hs

theorem Canon.elemMove {c key : Nat} (hs : Canon s) : Canon (elemMove s c key) := by
  have h : NextOk (Machine.actElem c (key % 128) (decide (128 ≤ key)) s) := hs.actElem
  unfold Machine.elemMove
  split
  · next t e => exact (h t e : Canon t)
  · exact hs

theorem Canon.holdAnswer {h l q fault resp : Nat} (hs : Canon s) : Canon (holdAnswer s h l q fault resp) :=
  hs.modGraph

theorem Canon.setHeld {h l q : Nat} {e : QEntry} (hs : Canon s) : Canon (setHeld s h l q e) := hs.modGraph

theorem Canon.performHeld {p : Parked} {h l : Nat} (hs : Canon s) : Canon (performHeld s p h l) := by
  unfold Machine.performHeld
  refine .ite hs.setHeld ?_
  split
  · exact hs.setHeld.joinKitty
  · dsimp only
    split
    · exact .ite hs.setHeld.holdAnswer.tellMgmt hs.setHeld.holdAnswer
    · split
      · exact hs.setHeld.homeAnswer.holdAnswer
      · exact .haltLocation (.ite hs.setHeld.homeAnswer.holdAnswer.tellMgmt hs.setHeld.homeAnswer.holdAnswer)

theorem Canon.engineAsks {c q : Nat} (hs : Canon s) : Canon (engineAsks s c q) := by
  unfold Machine.engineAsks
  exact .ite hs.streamMove (.ite hs.appendPerform hs.elemMove)

theorem Canon.inImage {h l c : Nat} {f : State → State} (hs : Canon s) (hf : ∀ {t}, Canon t → Canon (f t)) :
    Canon (inImage s h l c f) := by
  unfold Machine.inImage
  split
  · exact hs
  · extract_lets k old mine inside fill s1 ls s2 k1 k2 m2 s3
    have hfill : ∀ {t cells}, Canon t → Canon (fill t cells) := fun ht => ht.clear.foldl fun _ _ hu => hu.write
    have h1 : Canon s1 := (hfill hs).setCore
    have h2 : Canon s2 := hf (h1.congr rfl rfl)
    have h3 : Canon s3 := (hfill h2).setCore
    exact .modGraph (h3.congr rfl rfl)

theorem Canon.performEntry {p : Parked} (hs : Canon s) : Canon (performEntry s p) := by
  unfold Machine.performEntry
  refine .ite hs ?_
  dsimp only
  split
  · exact hs.modCore.toKitty
  · exact .ite hs.modCore hs.modCore.parkEntry
  · exact .ite hs.modCore hs.modCore.reachHome

theorem Canon.performParked {p : Parked} (hs : Canon s) : Canon (performParked s p) := by
  unfold Machine.performParked
  split
  · exact hs.performRemote
  · exact .ite hs.performHeld (.inImage hs fun ht => ht.engineAsks)
  · exact .ite hs.engineFire (.ite hs.performEntry hs.engineAsks)

theorem Canon.execKittyRelease {x page : Nat} (hs : Canon s) : NextOk (execKittyRelease x page s) := by
  unfold Machine.execKittyRelease
  exact .next (.ite hs (.notify (.foldl hs.unpark fun _ _ ht => ht.performParked)))

theorem Canon.endParked {f : Nat} {p : Parked} (hs : Canon s) : Canon (endParked f s p) := by
  unfold Machine.endParked
  split
  · exact hs.sendReply
  · exact .ite hs.holdAnswer hs.modGraph
  · refine .ite ?_ ?_
    · split
      · exact hs.memHalt
      · exact hs
    · refine .ite hs.arrive ?_
      refine .ite ?_ (.ite hs.haltReached hs.gridHalt)
      split
      · exact hs.streamHalt
      · exact hs

theorem Canon.declineParked {p : Parked} (hs : Canon s) : Canon (declineParked s p) := hs.endParked

/-! ### `Machine/Dumps` -/

theorem Canon.execCutMarker {c : Nat} (hs : Canon s) : NextOk (execCutMarker c s) := by
  unfold Machine.execCutMarker
  refine .next ?_
  split
  · exact hs
  · exact .ite hs.cutCore hs

theorem Canon.execCutTimeout {g : Word32} (hs : Canon s) : NextOk (execCutTimeout g s) := by
  unfold Machine.execCutTimeout
  refine .next ?_
  split
  · exact hs
  · exact .ite hs.haltGraph hs

theorem Canon.endDump {h : Nat} {g : Graph} {xs : List (Nat × List Byte)} {flags : Nat} (hs : Canon s) :
    Canon (endDump s h g xs flags) := by
  unfold Machine.endDump
  extract_lets room ys cut body bs s1 s2 s3 n
  have h1 : Canon s1 := by unfold s1; exact .ite hs.write hs
  clear_value s1
  have h3 : Canon s3 := .release (h1.congr rfl rfl)
  exact .ite h3.notifyGraph.tellMgmt h3

theorem Canon.execDumpStart (hs : Canon s) : NextOk (execDumpStart s) := by
  unfold Machine.execDumpStart
  refine .next ?_
  refine .ite hs ?_
  split
  · split <;> exact hs
  · exact hs

theorem Canon.execDumpComplete (hs : Canon s) : NextOk (execDumpComplete s) := by
  unfold Machine.execDumpComplete
  refine .next ?_
  split
  · exact hs
  · split
    · exact hs
    · exact .ite hs hs.endDump.notifyGraph

theorem Canon.execDumpEngineFault (hs : Canon s) : NextOk (execDumpEngineFault s) := by
  unfold Machine.execDumpEngineFault
  refine .next ?_
  split
  · exact hs
  · split
    · exact hs
    · exact hs.takeFresh.endDump.notifyGraph.tellMgmt

theorem Canon.execPendingRemoteExpiry {c q : Nat} (hs : Canon s) : NextOk (execPendingRemoteExpiry c q s) := by
  unfold Machine.execPendingRemoteExpiry
  refine .next ?_
  split
  · exact .ite (.leaveOutbox hs) hs
  · exact hs

theorem Canon.execScrubStep {addr : Nat} (hs : Canon s) : NextOk (execScrubStep addr s) := by
  unfold Machine.execScrubStep
  refine .next ?_
  refine .ite hs ?_
  split
  · exact hs.correct
  · exact hs.correct.tellMgmt.haltLocation

theorem Canon.execHbmRowSpare {addr : Nat} (hs : Canon s) : NextOk (execHbmRowSpare addr s) := by
  unfold Machine.execHbmRowSpare
  exact .next (.ite hs (.tellMgmt hs.correct))

/-! ### `Machine/Enc` -/

theorem Canon.execUnassignedEncoding {w w2 : Word32} {cause : BitVec 9} (hs : Canon s) :
    NextOk (execUnassignedEncoding w w2 cause s) :=
  .next hs.trap

theorem Canon.execInstructionFetchFault {cause : BitVec 9} (hs : Canon s) :
    NextOk (execInstructionFetchFault cause s) := by
  unfold Machine.execInstructionFetchFault
  exact NextOk.ite (.next hs.trap.haltLocation) (.next hs.trap)

/-! ### `Machine/FiringEnd` -/

theorem Canon.execFdone (hs : Canon s) : NextOk (execFdone s) := by
  unfold Machine.execFdone
  refine Canon.command hs fun ht => ?_
  refine NextOk.ite (.next ht.haltGraph) ?_
  refine NextOk.ite ?_ ?_
  · refine .next ?_
    split
    · exact ht.monitorTrap
    · exact ht.wait
  · refine NextOk.ite (.next ht.wait) ?_
    split
    · exact .next ht.rateTrap
    · exact .next ht.rateTrap
    · exact .next ht.gangOff.endFiring

/-! ### `Machine/HostPorts` -/

theorem Canon.hostNote {cause n : Nat} (hs : Canon s) : Canon (hostNote s cause n) := hs.countHost.tellMgmt

theorem Canon.setIngress {n : Nat} {p : Ingress} (hs : Canon s) : Canon (setIngress s n p) := hs

theorem Canon.setEgress {n : Nat} {e : Egress} (hs : Canon s) : Canon (setEgress s n e) := hs

theorem Canon.hostHalt {h : Nat} {note : Notice} (hs : Canon s) : Canon (hostHalt s h note) := by
  unfold Machine.hostHalt
  split
  · exact hs
  · split
    · exact hs.refuse.modGraph
    · exact hs.refuse.modGraph
    · exact hs.refuse.modGraph
    · exact hs.countHost.notifyGraph
    · exact hs.countHost.notifyGraph
    · exact .ite hs.countHost.haltGraph hs.countHost.notifyGraph
    · exact hs.countHost.haltGraph

theorem Canon.ingressFault {n cause : Nat} (hs : Canon s) : Canon (ingressFault s n cause) := by
  unfold Machine.ingressFault
  exact .setIngress (.ite hs.hostHalt hs.countHost.notify)

theorem Canon.execIngressWrite {n off : Nat} {bytes : List Byte} {poisoned : Bool} (hs : Canon s) :
    NextOk (execIngressWrite n off bytes poisoned s) := by
  unfold Machine.execIngressWrite
  exact .next (.ite hs (.ite hs.hostNote (.ite hs.hostNote.setIngress
    (.ite hs.hostNote.setIngress (.ite hs.hostNote.setIngress hs.setIngress)))))

theorem ringWrite_wf {m : List Host.Cell} {base size p : Nat} {bs : List Byte} (hm : Memory.wf m = true) :
    Memory.wf (ringWrite m base size p bs) = true := by
  induction bs generalizing m p with
  | nil => exact hm
  | cons b bs ih => exact ih (memPut_wf hm)

theorem Canon.execCreditWriteback {n : Nat} (hs : Canon s) : NextOk (execCreditWriteback n s) := by
  unfold Machine.execCreditWriteback
  refine .next ?_
  dsimp only
  split
  · exact hs
  · exact .intro hs.1 (memWrite_wf hs.2)

theorem Canon.withRecord {n want : Nat} {f : Ingress → RecHead → State} (hs : Canon s) (hf : ∀ x y, Canon (f x y)) :
    Canon (withRecord s n want f) := by
  unfold Machine.withRecord
  dsimp only
  split
  · exact hs
  · exact .ite hs (.ite hs.ingressFault (.ite hs (hf _ _)))

theorem Canon.openPort {n : Nat} {p : Ingress} {h : RecHead} (hs : Canon s) : Canon (openPort s n p h) := by
  unfold Machine.openPort
  split
  · exact hs.ingressFault
  · dsimp only
    split
    · exact hs.setIngress
    · exact .ite hs.setIngress hs.createGraph.setIngress

theorem Canon.execOpenRecord {n : Nat} (hs : Canon s) : NextOk (execOpenRecord n s) := by
  unfold Machine.execOpenRecord
  exact .next (.withRecord hs fun _ _ => .ite hs.openPort hs.ingressFault)

theorem Canon.deliverData {n : Nat} {p : Ingress} {h : RecHead} {key : Nat} (hs : Canon s) :
    Canon (deliverData s n p h key) := by
  unfold Machine.deliverData
  exact .ite hs hs

theorem Canon.execDataRecord {n : Nat} (hs : Canon s) : NextOk (execDataRecord n s) := by
  unfold Machine.execDataRecord
  refine .next ?_
  refine .withRecord hs fun _ _ => ?_
  refine .ite hs.ingressFault ?_
  refine .ite hs ?_
  split
  · exact hs
  · refine .ite hs ?_
    split
    · exact hs.ingressFault
    · split
      · exact hs.ingressFault
      · exact .ite hs.ingressFault hs.deliverData

theorem Canon.execModeRecord {n : Nat} (hs : Canon s) : NextOk (execModeRecord n s) := by
  unfold Machine.execModeRecord
  refine .next ?_
  refine .withRecord hs fun _ _ => ?_
  refine .ite hs.ingressFault ?_
  refine .ite hs ?_
  split
  · exact hs
  · refine .ite hs ?_
    split
    · exact hs.notifyGraph.setIngress
    · split
      · exact hs.ingressFault
      · exact .ite hs hs.setIngress.modeArrive

theorem Canon.execCloseRecord {n : Nat} (hs : Canon s) : NextOk (execCloseRecord n s) := by
  unfold Machine.execCloseRecord
  exact .next (.withRecord hs fun _ _ => .ite hs.ingressFault (.ite hs.setIngress.hostDrain hs.setIngress))

theorem Canon.execIngressDrainAccepted {n : Nat} (hs : Canon s) : NextOk (execIngressDrainAccepted n s) := by
  unfold Machine.execIngressDrainAccepted
  refine .next ?_
  split
  · exact hs
  · refine .ite hs ?_
    split
    · exact hs
    · exact .ite hs hs.modGraph.setIngress

theorem Canon.execIngressEn {n : Nat} {en : Bool} (hs : Canon s) : NextOk (execIngressEn n en s) := by
  unfold Machine.execIngressEn
  exact .next (.ite hs (.ite hs.hostNote (.ite hs.setIngress hs)))

theorem Canon.resetIngress {n : Nat} (hs : Canon s) : Canon (resetIngress n s) := by
  unfold Machine.resetIngress
  exact .ite hs (.setIngress (.ite hs.hostHalt hs))

theorem Canon.execEgressEn {n : Nat} {en : Bool} (hs : Canon s) : NextOk (execEgressEn n en s) := by
  unfold Machine.execEgressEn
  exact .next (.ite hs (.ite hs.hostNote (.ite hs.setEgress hs)))

theorem Canon.resetEgress {n : Nat} (hs : Canon s) : Canon (resetEgress n s) := by
  unfold Machine.resetEgress
  exact .ite hs (.ite hs.hostNote hs.setEgress)

theorem Canon.execRdposWrite {n : Nat} {v : Word} (hs : Canon s) : NextOk (execRdposWrite n v s) := by
  unfold Machine.execRdposWrite
  exact .next (.ite hs (.ite hs.hostNote hs.setEgress))

theorem Canon.execEgressRecordWrite {n : Nat} (hs : Canon s) : NextOk (execEgressRecordWrite n s) := by
  unfold Machine.execEgressRecordWrite
  extract_lets e
  refine .next ?_
  split
  · split
    · exact hs
    · extract_lets bs isClose fin word s1 host s2
      have h2 : Canon s2 := .intro hs.1 (ringWrite_wf hs.2)
      exact .ite hs (.ite h2.reachSink h2)
  · exact hs

theorem Canon.writeStore {w : Word} (hs : Canon s) : Canon (writeStore w s) := by
  unfold Machine.writeStore
  exact .ite hs.hostNote hs

theorem Canon.execGraphStoreAccess {off : Nat} {wr : Bool} {bytes : List Byte} (hs : Canon s) :
    NextOk (execGraphStoreAccess off wr bytes s) := by
  unfold Machine.execGraphStoreAccess
  refine .next ?_
  refine .ite (.ite hs.hostNote hs.hostNote) ?_
  refine .ite hs.write ?_
  split
  · exact hs.tellMgmt
  · exact hs.correct

theorem Canon.writeIngress {n reg : Nat} {v : Word} (hs : Canon s) : Canon (writeIngress n reg v s) := by
  unfold Machine.writeIngress
  exact .ite (.ite (.resetIngress (.ite hs.hostNote hs.setIngress)) (.ite hs.hostNote hs.setIngress))
    (.ite (.ite hs.hostNote hs.setIngress) hs)

theorem Canon.writeEgress {n reg : Nat} {v : Word} (hs : Canon s) : Canon (writeEgress n reg v s) := by
  unfold Machine.writeEgress
  exact .ite (.ite (.ite hs.resetEgress hs) (.ite (.hostNote (.ite hs.resetEgress hs))
    (.ite (.setEgress (.ite hs.resetEgress hs)) (.ite hs.resetEgress hs))))
      (.ite (.ite hs.hostNote hs.setEgress) (.ite (.ite hs.hostNote hs.setEgress)
        (.ite (.ite hs.hostNote hs.setEgress) (.ite (.ite hs (.ite hs.hostNote hs.setEgress)) hs))))

theorem Canon.execRegisterWrite {off : Nat} {v : Word} (hs : Canon s) : NextOk (execRegisterWrite off v s) := by
  unfold Machine.execRegisterWrite
  exact .next (.ite hs.writeStore (.ite hs.writeIngress (.ite hs.writeEgress hs)))

theorem Canon.readRegister {off : Nat} (hs : Canon s) : Canon (readRegister off s) := hs

/-! ### `Machine/Power` -/

theorem Canon.heatFreeze {card : Nat} (hs : Canon s) : Canon (heatFreeze s card) := by
  unfold Machine.heatFreeze
  dsimp only
  split
  · exact hs
  · exact .requestFreeze hs

theorem Canon.shutCard {card cause : Nat} (hs : Canon s) : Canon (shutCard s card cause) := by
  unfold Machine.shutCard
  exact .foldl (.foldl hs.tellMgmt fun _ _ ht => ht.haltGraph) fun _ _ ht => ht.modCore

theorem Canon.readHeat {card temp : Nat} (hs : Canon s) : Canon (readHeat s card temp) := by
  unfold Machine.readHeat
  refine .ite (.shutCard hs) ?_
  refine .ite ?_ hs
  split
  · exact .heatFreeze hs
  · exact hs

theorem Canon.execSensorSample {card temp : Nat} (hs : Canon s) : NextOk (execSensorSample card temp s) := by
  unfold Machine.execSensorSample
  exact .next (.ite hs hs.readHeat)

theorem Canon.execThermalRepeat {card : Nat} (hs : Canon s) : NextOk (execThermalRepeat card s) := by
  unfold Machine.execThermalRepeat
  refine .next ?_
  split
  · exact hs
  · exact .ite hs.heatFreeze hs

theorem Canon.execSensorSilent {card : Nat} (hs : Canon s) : NextOk (execSensorSilent card s) := by
  unfold Machine.execSensorSilent
  exact .next (.ite hs hs.tellMgmt.readHeat)

theorem Canon.execEdgeViaOvercurrent {card : Nat} (hs : Canon s) : NextOk (execEdgeViaOvercurrent card s) := by
  unfold Machine.execEdgeViaOvercurrent
  exact .next (.ite hs hs.shutCard)

theorem Canon.execSupplyDroop {island : Nat} (hs : Canon s) : NextOk (execSupplyDroop island s) := by
  unfold Machine.execSupplyDroop
  exact .next (.ite hs (.foldl hs.tellMgmt fun _ _ ht => ht.haltGraph))

theorem Canon.execModuleLimitWrite {halfWatts : Nat} (hs : Canon s) : NextOk (execModuleLimitWrite halfWatts s) := by
  unfold Machine.execModuleLimitWrite
  exact .next (.ite hs (.ite hs.tellMgmt (.ite hs.tellMgmt hs)))

theorem Canon.execPowerGate {c : Nat} (hs : Canon s) : NextOk (execPowerGate c s) := by
  unfold Machine.execPowerGate
  exact .next (.ite hs.modCore hs)

theorem Canon.execCoreWakeComplete {c : Nat} (hs : Canon s) : NextOk (execCoreWakeComplete c s) := by
  unfold Machine.execCoreWakeComplete
  exact .next (.ite hs.modCore.modGraph hs)

theorem Canon.execWakeTimeout {c : Nat} (hs : Canon s) : NextOk (execWakeTimeout c s) := by
  unfold Machine.execWakeTimeout
  exact .next (.ite hs.failLoad.modCore.notifyGraph hs)

/-! ### `Machine/Scalar` -/

theorem Canon.aluRR {f : Word → Word → Word} {d a b : Reg} (hs : Canon s) : NextOk (aluRR f d a b s) := hs.finish

theorem Canon.aluR {f : Word → Word} {d a : Reg} (hs : Canon s) : NextOk (aluR f d a s) := hs.finish

theorem Canon.aluRI {f : Word → Word → Word} {d a : Reg} {i : Word} (hs : Canon s) : NextOk (aluRI f d a i s) :=
  hs.finish

theorem Canon.branch {taken : Word → Word → Bool} {a b : Reg} {o : BitVec 16} (hs : Canon s) :
    NextOk (branch taken a b o s) := by
  unfold Machine.branch
  exact NextOk.ite (.next hs.goto) hs.finish0

theorem Canon.execJalr {d a : Reg} {i : BitVec 16} (hs : Canon s) : NextOk (execJalr d a i s) := by
  unfold Machine.execJalr
  exact NextOk.ite (.next hs.trap) (.next hs.setReg.goto)

/-! ### `Machine/System` -/

theorem Canon.fence {sc : Scope} (hs : Canon s) : NextOk (fence sc s) := by
  unfold Machine.fence
  exact NextOk.ite (.next hs.wait) hs.finish0

theorem Canon.execEret (hs : Canon s) : NextOk (execEret s) := by
  unfold Machine.execEret
  exact Canon.privileged hs fun ht => NextOk.ite (.next ht.trap) (NextOk.ite (.next ht.trap) (.next ht.returnFromTrap))

theorem Canon.execWfe (hs : Canon s) : NextOk (execWfe s) := by
  unfold Machine.execWfe
  exact NextOk.ite hs.modCur.finish0 (NextOk.ite (.next hs) (.next hs.modCur))

theorem Canon.execBrk (hs : Canon s) : NextOk (execBrk s) := by
  unfold Machine.execBrk
  exact .next (.ite hs.trapAt.notifyGraph hs.trapAt)

theorem Canon.execTrap {i : BitVec 16} (hs : Canon s) : NextOk (execTrap i s) := by
  unfold Machine.execTrap
  exact .next (.ite hs.trapAt.notifyGraph hs.trapAt)

theorem Canon.execSrd {d : Reg} {n : BitVec 12} (hs : Canon s) : NextOk (execSrd d n s) := by
  unfold Machine.execSrd
  exact NextOk.ite hs.finish (.next hs.trap)

theorem Canon.execSwr {a : Reg} {n : BitVec 12} (hs : Canon s) : NextOk (execSwr a n s) := by
  unfold Machine.execSwr
  refine NextOk.ite (.next hs.trap) ?_
  refine NextOk.ite (.next hs.trap) ?_
  split
  · exact .next hs.trap
  · exact hs.modCur.finish0

/-- Whatever instruction runs. -/
theorem Canon.exec {i : Instr} (hs : Canon s) : NextOk (exec i s) := by
  unfold Machine.exec
  cases i with
  | add | sub | mul | mulh | mulhu | div | divu | rem | remu | and | or | xor | andn | shl | shr | sra | rotl
  | min | max | minu | maxu | slt | sltu | seq | bext | sext => exact hs.aluRR
  | clz | ctz | popc | brev => exact hs.aluR
  | bins | lui => exact hs.finish
  | addi | andi | ori | xori | shli | shri | srai | slti | sltiu => exact hs.aluRI
  | lix => exact .next hs.setReg.advance
  | jal => exact .next hs.setReg.goto
  | jalr => exact Canon.execJalr hs
  | beq | bne | blt | bge | bltu | bgeu => exact hs.branch
  | ldb | ldbu | ldh | ldhu | ldw | ldwu | ldd | lda => exact hs.directLoad
  | stb | sth | stw | std => exact hs.directStore
  | stl => exact Canon.execStl hs
  | ldq | stq => exact hs.issue
  | aadd | amin | amax | aminu | amaxu | aand | aor | axor | aswp | acas | asnap | aaddf => exact hs.atomicIssue
  | waitqSrc | waitqVis => exact hs.waitq
  | popq => exact Canon.execPopq hs
  | nop => exact hs.finish0
  | fenceCore | fenceCard | fenceDeck | fenceDom => exact hs.fence
  | fencei => exact hs.modCur.finish0
  | eret => exact hs.execEret
  | wfe => exact hs.execWfe
  | sev => exact Canon.finish0 (.foldl hs fun _ _ ht => ht.modCore)
  | halt => exact hs.execHalt
  | brk => exact hs.execBrk
  | trap => exact Canon.execTrap hs
  | srd => exact Canon.execSrd hs
  | swr => exact Canon.execSwr hs
  | gload | ggo => exact Canon.command hs fun ht => ht.gridPush
  | gswapDrain | gswapEos => exact hs.gswap
  | ggoRes | gstop => exact Canon.command hs fun ht => ht.modGrid.finish0
  | gstat | rwqry | bart | pwrq => exact Canon.command hs fun ht => ht.finish
  | gstv => exact Canon.command hs fun ht => Canon.withOperand ht fun hu => hu.write.finish0
  | gstvAct => exact Canon.execGstvAct hs
  | srds | swrs | scpy => exact hs.streamIssue
  | sagc => exact Canon.execSagc hs
  | sxlt | rngk | rngc => exact Canon.command hs fun ht => ht.modCur.finish0
  | swaitSrc | swaitVis => exact hs.swait
  | rwset => exact Canon.execRwset hs
  | rwrst => exact Canon.execRwrst hs
  | fdone => exact hs.execFdone
  | fabort => exact Canon.command hs fun ht => .next ht.haltGraph
  | mode => exact Canon.execMode hs
  | mwait => exact Canon.execMwait hs
  | lnch => exact Canon.command hs fun ht => ht.takeEntry.finish0
  | lwait => exact Canon.execLwait hs
  | bari => exact Canon.execBari hs
  | bara => exact Canon.execBara hs
  | barw => exact Canon.execBarw hs
  | dkst => exact Canon.execDkst hs
  | dkadd | dkcas => exact hs.deckAtomic
  | dksync => exact hs.execDksync
  | rngd => exact Canon.command hs fun ht => Canon.rngDraw ht fun hu => hu.finish
  | rngdSt => exact Canon.command hs fun ht => Canon.rngDraw ht fun hu => hu.keepCode.setTile.finish
  | apndSet => exact Canon.execApndSet hs
  | apndRow => exact Canon.execApndRow hs
  | mark => exact Canon.command hs fun ht => ht.commitRows.finish0
  | fold => exact Canon.command hs fun ht => ht.loseRows.commitRows.finish0
  | stats => exact Canon.execStats hs
  | cutmStart => exact Canon.command hs fun ht => .next ht.advance.startCut
  | cutmRel => exact Canon.privileged hs fun ht => Canon.command ht fun hu => .next hu.advance.releaseCut
  | tkbp | tkbpClr => exact Canon.privileged hs fun ht => Canon.command ht fun hu => hu.modCore.finish0
  | frz => exact Canon.execFrz hs
  | thaw => exact Canon.execThaw hs
  | quote => exact Canon.execQuote hs
  | quoteExt => exact Canon.execQuoteExt hs
  | mxb | mxbPb => exact Canon.runIssue hs fun ht => ht.issueMxb
  | mxsw => exact Canon.runIssue hs fun ht => ht.issueMxsw
  | mxmm | mxmmPa => exact Canon.runIssue hs fun ht => ht.issueMxmm
  | mxaccClr => exact Canon.runIssue hs fun ht => ht.issueClr
  | mxaccQry | mlchk => exact Canon.runIssue hs fun ht => ht
  | mxaccOuts | mxaccOutp => exact Canon.runIssue hs fun ht => ht.issueOut
  | mxsort => exact Canon.runIssue hs fun ht => ht.issueSort
  | mxgang => exact Canon.runIssue hs fun ht => ht.issueGang
  | mxwait => exact Canon.execMxwait hs
  | mldg => exact Canon.runIssue hs fun ht => ht.issueMldg
  | mlchkRec => exact Canon.runIssue hs fun ht => ht.issueMlchkRec
  | mlfree => exact Canon.runIssue hs fun ht => ht.issueMlfree
  | mlrun => exact Canon.runIssue hs fun ht => ht.issueMlrun
  | mlcut => exact Canon.runIssue hs fun ht => ht.issueMlcut
  | mxbLoad => exact Canon.execMxbLoad hs
  | mxswExchange => exact Canon.execMxswExchange hs
  | mxmmExecute => exact Canon.execMxmmExecute hs
  | mxaccExecute => exact Canon.execMxaccExecute hs
  | mxsortExecute => exact Canon.execMxsortExecute hs
  | mxgangExecute => exact Canon.execMxgangExecute hs
  | meldRun => exact Canon.execMeldRun hs
  | mlfreeComplete => exact Canon.execMlfreeComplete hs
  | mlcutExecute => exact Canon.execMlcutExecute hs
  | elemNop => exact Canon.execElemNop hs
  | const => exact Canon.execConst hs
  | sink => exact Canon.execSink hs
  | copy => exact Canon.execCopy hs
  | elemAdd => exact Canon.execElemAdd hs
  | elemSub => exact Canon.execElemSub hs
  | elemMul => exact Canon.execElemMul hs
  | fma => exact Canon.execFma hs
  | fms => exact Canon.execFms hs
  | nfma => exact Canon.execNfma hs
  | elemMin => exact Canon.execElemMin hs
  | elemMax => exact Canon.execElemMax hs
  | abs => exact Canon.execAbs hs
  | neg => exact Canon.execNeg hs
  | elemAnd => exact Canon.execElemAnd hs
  | elemOr => exact Canon.execElemOr hs
  | elemXor => exact Canon.execElemXor hs
  | not => exact Canon.execNot hs
  | elemShl => exact Canon.execElemShl hs
  | elemShr => exact Canon.execElemShr hs
  | elemSra => exact Canon.execElemSra hs
  | clamp => exact Canon.execClamp hs
  | cmpeq => exact Canon.execCmpeq hs
  | cmplt => exact Canon.execCmplt hs
  | cmple => exact Canon.execCmple hs
  | sel => exact Canon.execSel hs
  | exp2 => exact Canon.execExp2 hs
  | log2 => exact Canon.execLog2 hs
  | rcp => exact Canon.execRcp hs
  | rsq => exact Canon.execRsq hs
  | cvt => exact Canon.execCvt hs
  | qblk => exact Canon.execQblk hs
  | dqblk => exact Canon.execDqblk hs
  | tosd => exact Canon.execTosd hs
  | fromsd => exact Canon.execFromsd hs
  | bpln => exact Canon.execBpln hs
  | rsum => exact Canon.execRsum hs
  | rmax => exact Canon.execRmax hs
  | rmin => exact Canon.execRmin hs
  | bcast => exact Canon.execBcast hs
  | shuf => exact Canon.execShuf hs
  | elemRotl => exact Canon.execElemRotl hs
  | sld => exact Canon.execSld hs
  | swap => exact Canon.execSwap hs
  | steer => exact Canon.execSteer hs
  | merge => exact Canon.execMerge hs
  | carry => exact Canon.execCarry hs
  | invar => exact Canon.execInvar hs
  | lgen => exact Canon.execLgen hs
  | agen => exact Canon.execAgen hs
  | agch => exact Canon.execAgch hs
  | mld => exact Canon.execMld hs
  | mst => exact Canon.execMst hs
  | matom => exact Canon.execMatom hs
  | pin => exact Canon.execPin hs
  | pout => exact Canon.execPout hs
  | cseq => exact Canon.execCseq hs
  | cpipe => exact Canon.execCpipe hs
  | cstrm => exact Canon.execCstrm hs
  | eot => exact Canon.execEot hs
  | eos => exact Canon.execEos hs
  | tstm => exact Canon.execTstm hs
  | pqc => exact Canon.execPqc hs
  | smpl => exact Canon.execSmpl hs
  | acpt => exact Canon.execAcpt hs
  | rnge => exact Canon.execRnge hs
  | stcnt => exact Canon.execStcnt hs
  | stadd => exact Canon.execStadd hs
  | elementMark => exact Canon.execElementMark hs
  | wavefrontSwapUnmarked => exact Canon.execWavefrontSwapUnmarked hs
  | drainGatedSwap => exact Canon.execDrainGatedSwap hs
  | gloadComplete => exact Canon.execGloadComplete hs
  | firingStart => exact Canon.execFiringStart hs
  | actorDrain => exact Canon.execActorDrain hs
  | wrptrWrite => exact Canon.execWrptrWrite hs
  | rdptrMirror => exact Canon.execRdptrMirror hs
  | memoryActorFiring => exact .next hs.engineFire.settleSwitch
  | modeTokenAccept => exact Canon.execModeTokenAccept hs
  | sequencerStop => exact Canon.execSequencerStop hs
  | modeXpkgTimeout => exact Canon.execModeXpkgTimeout hs
  | translationWalk => exact Canon.execTranslationWalk hs
  | homePerform => exact Canon.execHomePerform hs
  | kittyResend => exact Canon.execKittyResend hs
  | kittyRelease => exact Canon.execKittyRelease hs
  | kittyDecline => exact .next (.foldl hs.unpark fun _ _ ht => ht.declineParked)
  | pageInvalidate => exact Canon.execPageInvalidate hs
  | rangeEntryWrite => exact Canon.execRangeEntryWrite hs
  | remapDescriptorWrite => exact Canon.execRemapDescriptorWrite hs
  | queueEntryComplete | sourceReleased => exact .next hs.modCore
  | localAtomicTimeout => exact Canon.execLocalAtomicTimeout hs
  | queueWaitTimeout => exact Canon.execQueueWaitTimeout hs
  | streamStart => exact Canon.execStreamStart hs
  | streamBurst => exact .next hs.streamMove
  | streamSourceReleased => exact Canon.execStreamSourceReleased hs
  | streamVisible => exact Canon.execStreamVisible hs
  | swaitTimeout => exact Canon.execSwaitTimeout hs
  | mxwaitTimeout => exact Canon.execMxwaitTimeout hs
  | gridWatchdog => exact Canon.execGridWatchdog hs
  | portWaitTimeout => exact Canon.execPortWaitTimeout hs
  | barrierArrival => exact Canon.execBarrierArrival hs
  | launchRequest => exact Canon.execLaunchRequest hs
  | imageValidation => exact Canon.execImageValidation hs
  | placementTimeout => exact Canon.execPlacementTimeout hs
  | graphAdmit => exact .next hs.schedule
  | shadowReport => exact Canon.execShadowReport hs
  | statusTimeout => exact Canon.execStatusTimeout hs
  | commitSwap => exact Canon.execCommitSwap hs
  | packageReport => exact Canon.execPackageReport hs
  | xpkgGo => exact Canon.execXpkgGo hs
  | xpkgAbort => exact Canon.execXpkgAbort hs
  | xpkgReportTimeout => exact Canon.execXpkgReportTimeout hs
  | peerHalt => exact Canon.execPeerHalt hs
  | freezeRequest => exact Canon.execFreezeRequest hs
  | freezeWave => exact Canon.execFreezeWave hs
  | freezeComplete => exact Canon.execFreezeComplete hs
  | freezeTimeout => exact Canon.execFreezeTimeout hs
  | graphStop => exact Canon.execGraphStop hs
  | contextCreate => exact Canon.execContextCreate hs
  | contextHalt => exact .next hs.haltContext
  | contextResume => exact .next hs.modCtx.restartHalted
  | noticeDelivery => exact Canon.execNoticeDelivery hs
  | cutMarker => exact Canon.execCutMarker hs
  | cutTimeout => exact Canon.execCutTimeout hs
  | dumpStart => exact hs.execDumpStart
  | dumpComplete => exact hs.execDumpComplete
  | dumpEngineFault => exact hs.execDumpEngineFault
  | pendingRemoteExpiry => exact Canon.execPendingRemoteExpiry hs
  | scrubStep => exact Canon.execScrubStep hs
  | hbmRowSpare => exact Canon.execHbmRowSpare hs
  | streamDataSlot | memoryActorResponseSlot => exact .next hs.streamSlot
  | windowWriteSlot | deckAtomicSlot => exact .next hs.windowSlot
  | noticeSlot => exact Canon.execNoticeSlot hs
  | creditSlot => exact Canon.execCreditSlot hs
  | refreshCopySlot => exact Canon.execRefreshCopySlot hs
  | returnRecordSlot => exact Canon.execReturnRecordSlot hs
  | frameBoundary => exact hs.execFrameBoundary
  | replicaApply => exact Canon.execReplicaApply hs
  | calendarWrite => exact Canon.execCalendarWrite hs
  | dkwinRangeWrite => exact Canon.execDkwinRangeWrite hs
  | cardSleep => exact Canon.execCardSleep hs
  | cardWake => exact Canon.execCardWake hs
  | wakeSequenceTimeout => exact Canon.execWakeSequenceTimeout hs
  | sensorSample => exact Canon.execSensorSample hs
  | thermalRepeat => exact Canon.execThermalRepeat hs
  | sensorSilent => exact Canon.execSensorSilent hs
  | edgeViaOvercurrent => exact Canon.execEdgeViaOvercurrent hs
  | supplyDroop => exact Canon.execSupplyDroop hs
  | moduleLimitWrite => exact Canon.execModuleLimitWrite hs
  | powerGate => exact Canon.execPowerGate hs
  | coreWakeComplete => exact Canon.execCoreWakeComplete hs
  | wakeTimeout => exact Canon.execWakeTimeout hs
  | remoteRequest => exact Canon.execRemoteRequest hs
  | remoteResponse => exact Canon.execRemoteResponse hs
  | remoteTimeout => exact Canon.execRemoteTimeout hs
  | vcTokenArrival => exact Canon.execVcTokenArrival hs
  | vcCredit => exact Canon.execVcCredit hs
  | portRetrain => exact Canon.execPortRetrain hs
  | portRetrained => exact Canon.execPortRetrained hs
  | portDown => exact Canon.execPortDown hs
  | flitUncorrectable => exact Canon.execFlitUncorrectable hs
  | domainEnumeration => exact Canon.execDomainEnumeration hs
  | ingressWrite => exact Canon.execIngressWrite hs
  | creditWriteback => exact Canon.execCreditWriteback hs
  | openRecord => exact Canon.execOpenRecord hs
  | dataRecord => exact Canon.execDataRecord hs
  | closeRecord => exact Canon.execCloseRecord hs
  | modeRecord => exact Canon.execModeRecord hs
  | ingressDrainAccepted => exact Canon.execIngressDrainAccepted hs
  | ingressEn => exact Canon.execIngressEn hs
  | ingressRst => exact .next hs.resetIngress
  | egressEn => exact Canon.execEgressEn hs
  | egressRst => exact .next hs.resetEgress
  | rdposWrite => exact Canon.execRdposWrite hs
  | graphStoreEnable => exact .next hs.writeStore
  | graphStoreAccess => exact Canon.execGraphStoreAccess hs
  | egressRecordWrite => exact Canon.execEgressRecordWrite hs
  | completionWordWrite => exact .next (.ite hs (.intro hs.1 (memWrite_wf hs.2)))
  | pcieLinkDown => exact .next (.foldl hs.countHost.tellMgmt fun _ _ ht => ht.hostHalt)
  | registerWrite => exact Canon.execRegisterWrite hs
  | coldReset => exact .next (Canon.startFirmware (Canon.testRegulators (.intro rfl hs.2)))
  | quoteCapture => exact hs.execQuoteCapture
  | quoteExtendApply => exact hs.execQuoteExtendApply
  | getVersion | getCapabilities | negotiateAlgorithms | getDigests | getCertificate | challenge
  | getMeasurements | spdmUnsupportedRequest => exact .next hs.arriveSpdm
  | victimMinRunTime => exact Canon.execVictimMinRunTime hs
  | contextDestroy => exact Canon.execContextDestroy hs
  | unassignedEncoding => exact Canon.execUnassignedEncoding hs
  | instructionFetchFault => exact Canon.execInstructionFetchFault hs

/-! ### `Machine/Errors` -/

theorem Canon.strikeParity {c cause : Nat} (hs : Canon s) : Canon (strikeParity s c cause) := by
  unfold Machine.strikeParity
  dsimp only
  split
  · exact hs
  · exact hs.takeFresh.takeFresh.haltReached

theorem Canon.strikeCore {c cause : Nat} (hs : Canon s) : Canon (strikeCore s c cause) := by
  unfold Machine.strikeCore
  split
  · exact hs
  · exact .ite hs.haltLocation (.ite hs.strikeParity hs.haltLocation)

theorem Canon.schedError {h : Nat} (hs : Canon s) : Canon (schedError s h) := by
  unfold Machine.schedError
  split
  · exact hs
  · extract_lets s1 s2
    have h2 : Canon s2 := by
      unfold s2
      split
      · exact hs.tellMgmt
      · exact hs.tellMgmt.completeEntry
    split
    case h_4 => exact hs.haltCopied
    all_goals exact h2.completeAll.openingFails.forgetHeld.modGraph.recordOutcome

theorem Canon.strikeGraph {h cause : Nat} (hs : Canon s) : Canon (strikeGraph s h cause) := by
  unfold Machine.strikeGraph
  split
  · exact hs
  · exact .ite (.ite hs.tellMgmt.failLoad hs) (.ite hs.haltCopied (.ite hs.schedError (.ite hs.haltLocation hs)))

theorem Canon.strikeContext {x : Nat} (hs : Canon s) : Canon (strikeContext s x) := by
  unfold Machine.strikeContext
  split
  · exact hs
  · exact .foldl hs.tellMgmt fun _ _ ht => ht.haltGraph

theorem Canon.strikeKitty {n : Nat} (hs : Canon s) : Canon (strikeKitty s n) := by
  unfold Machine.strikeKitty
  split
  · exact hs
  · exact .endParked (.tellMgmt hs)

theorem Canon.strikeWindow {unit : Nat} (hs : Canon s) : Canon (strikeWindow s unit) :=
  .foldl hs fun _ _ ht => ht.arrive.copyMgmt

theorem Canon.loseResponse {c q : Nat} (hs : Canon s) : Canon (loseResponse s c q) := by
  unfold Machine.loseResponse
  exact .ite hs.takeFresh.arrive.copyMgmt hs

theorem Canon.loseHeld {h l q : Nat} (hs : Canon s) : Canon (loseHeld s h l q) := by
  unfold Machine.loseHeld
  exact .ite hs.takeFresh.holdAnswer hs

theorem Canon.strike {z : Strike} (hs : Canon s) : Canon (strike s z) := by
  unfold Machine.strike
  split
  · exact hs.strikeCore
  · exact hs.strikeContext
  · exact hs.strikeKitty
  · exact hs.strikeWindow
  · exact hs.loseResponse
  · exact hs.loseHeld
  · exact hs.strikeGraph
  · exact .ite (.countMgmt hs) hs
  · exact .ite hs hs
  · exact .ite hs.replicaLost hs

/-! ### `Machine/Peers` -/

theorem Canon.configure {h id cls from' : Nat} {img : List Byte} (hs : Canon s) :
    Canon (configure s h id cls from' img) := by
  unfold Machine.configure
  refine .ite hs.reportLoad ?_
  split
  · exact hs
  · refine .ite hs.reportLoad ?_
    split
    · exact hs.modGraph
    · exact hs
    · exact hs
    · exact hs
    · exact hs

theorem Canon.asPeer {h : Nat} {f : Graph → State} (hs : Canon s) (hf : ∀ x, Canon (f x)) : Canon (asPeer s h f) := by
  unfold Machine.asPeer
  split
  · exact hs
  · exact .ite (hf _) hs

theorem Canon.asCoordinator {h pkg : Nat} {f : Graph → State} (hs : Canon s) (hf : ∀ x, Canon (f x)) :
    Canon (asCoordinator s h pkg f) := by
  unfold Machine.asCoordinator
  split
  · exact hs
  · exact .ite (hf _) hs

theorem Canon.targetEarly {h m : Nat} (hs : Canon s) : Canon (targetEarly s h m) := hs.modGraph

theorem Canon.peerHold {h set : Nat} {g : Graph} (hs : Canon s) : Canon (peerHold s h set g) := by
  unfold Machine.peerHold
  refine .ite hs ?_
  split
  · exact hs.holdMode
  · exact hs.holdMode.targetMode
  · exact hs

theorem Canon.tellOutcome {c pkg h out : Nat} (hs : Canon s) : Canon (tellOutcome s c pkg h out) := by
  unfold Machine.tellOutcome
  exact .ite hs.modCore hs

theorem Canon.peerMove {z : PeerMsg} (hs : Canon s) : Canon (peerMove s z) := by
  unfold Machine.peerMove
  split
  · exact hs.configure
  · split
    · exact hs
    · exact .ite hs.requestFreeze hs
  · exact .asCoordinator hs fun _ => .ite hs.modGraph hs
  · exact .asCoordinator hs fun _ => hs.modGraph.retireDrained
  · exact .asPeer hs fun _ => .ite hs.retire hs
  · exact .asPeer hs fun _ => hs.peerHold
  · exact .asCoordinator hs fun _ => .ite hs hs.modGraph.settleTarget
  · refine .asPeer hs fun _ => ?_
    refine .ite hs ?_
    split
    · exact hs.targetEarly
    · exact hs.targetMode.settleSwitch
    · exact hs
  · exact .asCoordinator hs fun _ => .ite hs hs.noteStopped.settleSwitch
  · exact .asPeer hs fun _ => .ite hs.switchSet hs
  · split
    · exact hs
    · exact .ite hs.modeArrive hs
  · refine .asPeer hs fun _ => ?_
    split
    · exact hs
    · exact .ite hs hs.modGraph
  · exact .asPeer hs fun _ => .ite hs.tellSender hs
  · exact .asCoordinator hs fun _ => hs.modGraph
  · refine .asCoordinator hs fun _ => ?_
    split
    · exact hs.modGraph
    · exact hs.haltGraph
  · exact .asCoordinator hs fun _ => hs.modGraph
  · exact .asPeer hs fun _ => hs.modGraph
  · exact hs.tellOutcome
  · split
    · exact hs
    · exact .ite hs.abandonSwitch hs

theorem Canon.managerHalts {n : Nat} (hs : Canon s) : Canon (managerHalts s n) := by
  unfold Machine.managerHalts
  exact .ite (.tellMgmt hs) hs

/-! ### `Machine/Step` -/

theorem Canon.stepCp (hs : Canon s) : NextOk (stepCp s) := by
  unfold Machine.stepCp
  refine NextOk.ite ?_ (.next hs)
  split
  · exact hs.execInstructionFetchFault
  · dsimp only
    split
    · exact hs.correct.exec
    · exact hs.correct.execUnassignedEncoding

theorem Canon.stepElem {k : Nat} {shadow : Bool} (hs : Canon s) : NextOk (stepElem s k shadow) := by
  unfold Machine.stepElem
  dsimp only
  split
  · exact .next hs
  · split
    · exact .next hs
    · exact Canon.exec hs

theorem Canon.step (hs : Canon s) : NextOk (step s) := by
  unfold Machine.step
  split
  · exact hs.stepCp
  · exact Canon.stepCp hs
  · exact Canon.stepElem hs
  · exact NextOk.ite (Canon.exec hs) (.next hs)
  · exact .next (.readRegister hs)
  · exact .next (.strikeByte hs)
  · exact .next (.peerMove hs)
  · exact .next (.managerHalts hs)
  · exact .next (.strike hs)

/-- Settles O59: every step, whichever agent moves, keeps both memories canonical. -/
theorem memoryStaysCanonical : Obligations.MemoryStaysCanonical := fun _ _ hs h => Canon.step hs _ h

end Sys2Proof.Machine
end

section
/-! The step and the instruction it runs (O55; R184, R265, R291, R307). -/

namespace Sys2Proof.Machine

theorem touchesWord_mono {a m n x : Nat} (h : m ≤ n) (ht : touchesWord a m x = true) : touchesWord a n x = true := by
  simp only [touchesWord, decide_eq_true_eq] at ht ⊢
  omega

theorem eccBad_mono {s : State} {a m n : Nat} (h : m ≤ n) (hb : eccBad s a m = true) : eccBad s a n = true := by
  simp only [eccBad, List.any_eq_true, Bool.and_eq_true] at hb ⊢
  obtain ⟨x, hx, hu, ht⟩ := hb
  exact ⟨x, hx, hu, touchesWord_mono h ht⟩

theorem fetchBytes_ge (s : State) (c : Nat) : 4 ≤ fetchBytes s c := by
  unfold fetchBytes
  split <;> decide

/-- The pc lies outside the code region or past the end of tile SRAM (R184). -/
abbrev offCode (k : Core) : Prop := k.pc < k.codeBase ∨ k.codeBase + k.codeSize < k.pc + 4 ∨ tileSize < k.pc + 4

variable {s : State} {c : Nat}

theorem fetch_misaligned (h : (s.core c).pc % 4 ≠ 0) : fetch s c = .fault 0x02D := if_pos h

theorem fetch_offCode (h : (s.core c).pc % 4 = 0) (ho : offCode (s.core c)) : fetch s c = .fault 0x026 := by
  rw [fetch, if_neg (not_not_intro h), if_pos ho]

theorem fetch_eccBad (h : (s.core c).pc % 4 = 0) (ho : ¬offCode (s.core c))
    (hb : eccBad s (winBase c + (s.core c).pc) (fetchBytes s c) = true) : fetch s c = .fault 0x164 := by
  rw [fetch, if_neg (not_not_intro h), if_neg ho, if_pos hb, ite_self]

theorem fetch_word (h : (s.core c).pc % 4 = 0) (ho : ¬offCode (s.core c))
    (hb : eccBad s (winBase c + (s.core c).pc) (fetchBytes s c) = false) :
    fetch s c = .word (codeWord s c (s.core c).pc) (codeWord s c ((s.core c).pc + 4)) (lastWord (s.core c)) := by
  have h4 : ¬eccBad s (winBase c + (s.core c).pc) 4 = true := fun h4 =>
    Bool.false_ne_true (hb.symm.trans (eccBad_mono (fetchBytes_ge s c) h4))
  rw [fetch, if_neg (not_not_intro h), if_neg ho, if_neg h4, if_neg (Bool.eq_false_iff.1 hb)]

theorem correct_of_none_marked {a n : Nat} (h : ∀ m ∈ s.ecc.marks, m.2 = false → touchesWord a n m.1 = false) :
    s.correct a n = s := by
  have hkeep : s.ecc.marks.filter (fun m => !(!m.2 && touchesWord a n m.1)) = s.ecc.marks :=
    List.filter_eq_self.2 fun m hm => by cases hu : m.2 <;> simp [h m hm, hu]
  have hnone : s.ecc.marks.filter (fun m => !m.2 && touchesWord a n m.1) = [] :=
    List.filter_eq_nil_iff.2 fun m hm => by cases hu : m.2 <;> simp [h m hm, hu]
  simp only [State.correct, hkeep, hnone, List.map_nil, List.foldl_nil]

theorem stepCp_fault {cause : BitVec 9} (hr : cpReady s s.turn = true) (hf : fetch s s.turn = .fault cause) :
    stepCp s = exec (.instructionFetchFault cause) s := by
  rw [stepCp, if_pos hr, hf]
  rfl

theorem stepCp_ok {w w2 : Word32} {tail : Bool} {i : Instr} (hr : cpReady s s.turn = true)
    (hf : fetch s s.turn = .word w w2 tail) (hd : decodeCp w w2 tail = .ok i) :
    stepCp s = exec i (s.correct (winBase s.turn + s.cur.pc) (fetchBytes s s.turn)) := by
  simp only [stepCp, if_pos hr, hf, hd]

theorem stepCp_bad {w w2 : Word32} {tail : Bool} {sub : BitVec 4} (hr : cpReady s s.turn = true)
    (hf : fetch s s.turn = .word w w2 tail) (hd : decodeCp w w2 tail = .bad sub) :
    stepCp s = exec (.unassignedEncoding w w2 (sub.zeroExtend 9)) (s.correct (winBase s.turn + s.cur.pc) (fetchBytes s s.turn)) := by
  simp only [stepCp, if_pos hr, hf, hd]
  rfl

theorem stepElem_runs {j : Nat} {shadow : Bool} {w : Word} {i : Instr}
    (hw : (if shadow then s.cur.grid.sh else s.cur.grid.act).words[j]? = some w) (hd : decodeBlk w = some i) :
    stepElem s j shadow = exec i { s with focus := (j, shadow) } := by
  simp only [stepElem, hw, hd]

theorem codeByte_of_fenced (h : (s.core c).codeOld = []) (o : Nat) : codeByte s c o = memGet s.mem (winBase c + o) := by
  rw [codeByte, h]
  rfl

variable {ms : List Move}

theorem step_nil (h : s.agenda = []) : step s = stepCp s := by rw [step, h]

theorem step_cp (h : s.agenda = .cp c :: ms) : step s = stepCp { s with agenda := ms, turn := c } := by rw [step, h]

theorem step_elem {j : Nat} {shadow : Bool} (h : s.agenda = .elem c j shadow :: ms) :
    step s = stepElem { s with agenda := ms, turn := c } j shadow := by
  rw [step, h]

theorem step_event {i : Instr} (h : s.agenda = .event i :: ms) (hi : isEvent i = true) :
    step s = exec i { s with agenda := ms } := by
  rw [step, h]
  exact if_pos hi

theorem step_registerRead {off : Nat} (h : s.agenda = .registerRead off :: ms) :
    step s = .next (readRegister off { s with agenda := ms }) := by
  rw [step, h]

theorem step_softError {a : Nat} {ue : Bool} (h : s.agenda = .softError a ue :: ms) :
    step s = .next (strikeByte { s with agenda := ms } a ue) := by
  rw [step, h]

theorem step_peer {m : PeerMsg} (h : s.agenda = .peer m :: ms) : step s = .next (peerMove { s with agenda := ms } m) := by
  rw [step, h]

theorem step_mgmtHalt {n : Nat} (h : s.agenda = .mgmtHalt n :: ms) :
    step s = .next (managerHalts { s with agenda := ms } n) := by
  rw [step, h]

theorem step_strike {e : Strike} (h : s.agenda = .strike e :: ms) : step s = .next (strike { s with agenda := ms } e) := by
  rw [step, h]

/-- Settles O55: the fetch's checks in their order, then what `step` does with the head of the agenda. -/
theorem stepRunsDecodedInstruction : Obligations.StepRunsDecodedInstruction := by
  intro s ms c j shadow i w k word word2 last n bad fixed out
  exact ⟨fun hr h4 ho hb hd => stepCp_ok hr (fetch_word h4 ho hb) hd, correct_of_none_marked,
    fun hr h4 ho hb sub hd => stepCp_bad hr (fetch_word h4 ho hb) hd, fun hr h4 => stepCp_fault hr (fetch_misaligned h4),
    fun hr h4 ho => stepCp_fault hr (fetch_offCode h4 ho), fun hr h4 ho hb => stepCp_fault hr (fetch_eccBad h4 ho hb),
    fun hr => if_neg (Bool.eq_false_iff.1 hr), step_nil, step_cp, codeByte_of_fenced,
    fun ha hw hd => (step_elem ha).trans (stepElem_runs hw hd), step_event,
    fun off ha => ⟨_, step_registerRead ha, rfl, rfl⟩, fun m => step_peer, fun n => step_mgmtHalt, fun e => step_strike,
    fun a ue ha => ⟨_, step_softError ha, rfl, rfl⟩⟩

end Sys2Proof.Machine
end

section
/-! The tables that management writes: range entries, row-remap descriptors, and dropped translations (O41; R196, R200, R201). -/

namespace Sys2Proof.Machine

open State

/-! ### Masked words -/

theorem bitAt_and_mask {n : Nat} {w m : BitVec n} {k : Nat} (h : m.getLsbD k = true) : bitAt (w &&& m) k = bitAt w k := by
  rw [bitAt, BitVec.getLsbD_and, h, Bool.and_true, bitAt]

/-- A mask that holds every bit of a field keeps the field. -/
theorem fld_and_mask {n : Nat} {w m : BitVec n} {hi lo : Nat} (h : ∀ k < hi + 1, lo ≤ k → m.getLsbD k = true) :
    fld (w &&& m) hi lo = fld w hi lo := by
  refine Nat.eq_of_testBit_eq fun k => ?_
  simp only [fld, bitsOf, Nat.testBit_mod_two_pow, Nat.testBit_shiftRight, BitVec.toNat_and, Nat.testBit_and]
  by_cases hk : k < hi + 1 - lo
  · rw [show m.toNat.testBit (lo + k) = true from h (lo + k) (by omega) (by omega), Bool.and_true]
  · simp only [hk, decide_false, Bool.false_and]

/-! ### Range entries (R196) -/

/-- A range entry of a context, its own place apart, is valid and meets the pages lo to hi. -/
def rangeClash (k : Ctx) (i lo hi : Nat) : Prop :=
  ∃ j f0 f1 f2 f3, (j, [f0, f1, f2, f3]) ∈ k.ranges ∧ j ≠ i ∧ bitAt f0 63 = true ∧ lo ≤ fld f1 47 12 ∧ fld f0 47 12 ≤ hi

/-- What a range entry keeps of the doubles written to it: the bits that R196 defines. -/
def rangeEntry (d0 d1 d2 : Word) : List Word :=
  [d0 &&& 0xF000FFFFFFFFF000#64, d1 &&& 0xFFFFFFFFF000#64, d2 &&& 0x1FFFFFFFFFFF000#64, 0]

/-- A write of a range entry that XLT.8 refuses: its limit lies below its base, or it is valid and meets another entry. -/
def rangeRefused (k : Ctx) (i : Nat) (d0 d1 : Word) : Prop :=
  fld d1 47 12 < fld d0 47 12 ∨ (bitAt d0 63 = true ∧ rangeClash k i (fld d0 47 12) (fld d1 47 12))

variable {s : State} {x i c q first last : Nat} {d0 d1 d2 d3 : Word} {k : Ctx}

theorem rangeEntryWrite_cases (hk : NMap.find s.ctxs x = some k) (hi : i < 16) :
    (exec (.rangeEntryWrite x i d0 d1 d2 d3) s = .next (s.tellMgmt { cause := 0x038, ctx := x, detail := i }) ∧
      rangeRefused k i d0 d1) ∨
    (exec (.rangeEntryWrite x i d0 d1 d2 d3) s =
        .next (s.modCtx x fun k => { k with ranges := NMap.put k.ranges i (rangeEntry d0 d1 d2) }) ∧
      ¬rangeRefused k i d0 d1) := by
  have h63 : bitAt (d0 &&& 0xF000FFFFFFFFF000#64) 63 = bitAt d0 63 := bitAt_and_mask (by decide)
  have hlo : fld (d0 &&& 0xF000FFFFFFFFF000#64) 47 12 = fld d0 47 12 := fld_and_mask (by decide)
  have hhi : fld (d1 &&& 0xFFFFFFFFF000#64) 47 12 = fld d1 47 12 := fld_and_mask (by decide)
  simp only [exec_rangeEntryWrite, execRangeEntryWrite, hk, if_neg (Nat.not_le.2 hi), h63, hlo, hhi]
  split
  · next h =>
    refine .inl ⟨rfl, h.imp_right fun hc => ?_⟩
    obtain ⟨hv, hc⟩ := Bool.and_eq_true_iff.1 hc
    obtain ⟨⟨j, d⟩, hm, hd⟩ := List.any_eq_true.1 hc
    dsimp only at hd
    split at hd
    · next f0 f1 f2 f3 =>
      simp only [Bool.and_eq_true, decide_eq_true_eq] at hd
      obtain ⟨⟨hj, h0⟩, hov⟩ := hd
      exact ⟨hv, j, f0, f1, f2, f3, hm, hj, h0, hov⟩
    · cases hd
  · next h =>
    refine .inr ⟨rfl, fun hr => h (hr.imp_right fun ⟨hv, j, f0, f1, f2, f3, hm, hj, h0, hov⟩ => ?_)⟩
    refine Bool.and_eq_true_iff.2 ⟨hv, List.any_eq_true.2 ⟨_, hm, ?_⟩⟩
    simp only [hj, h0, hov, ne_eq, not_false_eq_true, and_self, decide_true, Bool.and_self]

/-! ### Row-remap descriptors (R201) -/

/-- A row-remap descriptor that XLT.11 refuses: a reserved bit or size, or rows that do not begin at a multiple of theirs. -/
def remapReserved (d0 d1 : Word) : Prop :=
  fld d0 60 56 ≠ 0 ∨ fld d0 51 48 ≠ 0 ∨ fld d1 63 48 ≠ 0 ∨ fld d1 2 0 ≠ 0 ∨ 8 < fld d0 55 52 ∨
    fld d0 47 0 % (4096 * 64 * 2 ^ fld d0 55 52) ≠ 0

theorem remapDescriptorWrite_cases (hi : i < 64) :
    (exec (.remapDescriptorWrite x i d0 d1) s = .next (s.tellMgmt { cause := 0x03B, ctx := x, detail := i }) ∧
      remapReserved d0 d1) ∨
    (exec (.remapDescriptorWrite x i d0 d1) s = .next (s.modCtx x fun k => { k with remaps := NMap.put k.remaps i [d0, d1] }) ∧
      ¬remapReserved d0 d1) := by
  simp only [exec_remapDescriptorWrite, execRemapDescriptorWrite, if_neg (Nat.not_le.2 hi), Bool.or_eq_true, bne_iff_ne,
    decide_eq_true_eq, or_assoc]
  split
  · next h => exact .inl ⟨rfl, h⟩
  · next h => exact .inr ⟨rfl, h⟩

/-! ### Dropped translations (R200) -/

theorem entry_dropLed (keep : Nat → Bool) (es : NMap QEntry) (q : Nat) :
    NMap.getD {} (dropLed first last keep es) q =
      if (NMap.getD {} es q).busy && !(NMap.getD {} es q).performed && !(NMap.getD {} es q).done &&
          touchesPages first last (NMap.getD {} es q) && !(keep q) then
        { NMap.getD {} es q with dest := .none, pa2 := 0, parks := [] }
      else NMap.getD {} es q := by
  rw [NMap.getD_eq, NMap.getD_eq, dropLed, NMap.find_map]
  · cases NMap.find es q with
    | none => rfl
    | some e => exact apply_ite Prod.snd ..
  · exact fun p => (apply_ite Prod.fst ..).trans (ite_self _)

/-- A core when the translations of a range of its context are dropped. -/
def invalidated (s : State) (x first last c : Nat) : Core :=
  if s.ctxOf c = some x then
    { dropHeld x first last (s.core c) with entries := dropLed first last (inKitty s c) (s.core c).entries }
  else dropHeld x first last (s.core c)

theorem pageInvalidate_reach : ∃ t, exec (.pageInvalidate x first last) s = .next t ∧ t.mem = s.mem ∧ t.ctxs = s.ctxs ∧
    t.links = s.links ∧ (t = s ∨ ∀ c, t.core c = invalidated s x first last c) ∧
    (s.links.outbox = [] → (∀ h g, (h, g) ∈ s.graphs → g.image = none) → ∀ c, t.core c = invalidated s x first last c) := by
  rw [exec_pageInvalidate, execPageInvalidate]
  extract_lets cores parkedFor image graphs
  split
  · next h =>
    refine ⟨s, rfl, rfl, rfl, rfl, .inl rfl, fun ho hg => absurd h ?_⟩
    rw [ho, Bool.or_eq_true, List.any_eq_true]
    rintro (h | ⟨⟨a, g⟩, hm, h⟩)
    · cases h
    · simp only [hg a g (List.mem_filter.1 hm).1, Bool.false_eq_true] at h
  · have hc : ∀ c, NMap.getD {} cores c = invalidated s x first last c := fun c => by
      rw [NMap.getD_eq, invalidated, State.core, NMap.getD_eq, NMap.find_map]
      · cases NMap.find s.cores c with
        | none => split <;> rfl
        | some k => exact apply_ite Prod.snd ..
      · exact fun p => (apply_ite Prod.fst ..).trans (ite_self _)
    exact ⟨_, rfl, rfl, rfl, rfl, .inr hc, fun _ _ => hc⟩

theorem entry_invalidated (c q : Nat) : (invalidated s x first last c).entry q =
    if s.ctxOf c = some x then
      if ((s.core c).entry q).busy && !((s.core c).entry q).performed && !((s.core c).entry q).done &&
          touchesPages first last ((s.core c).entry q) && !(inKitty s c q) then
        { (s.core c).entry q with dest := .none, pa2 := 0, parks := [] }
      else (s.core c).entry q
    else (s.core c).entry q := by
  unfold invalidated
  split
  · exact entry_dropLed ..
  · rfl

theorem entry_invalidated_dropped (hc : s.ctxOf c = some x) (hb : ((s.core c).entry q).busy = true)
    (hp : ((s.core c).entry q).performed = false) (hd : ((s.core c).entry q).done = false) (hk : inKitty s c q = false)
    (ht : touchesPages first last ((s.core c).entry q) = true) :
    (invalidated s x first last c).entry q = { (s.core c).entry q with dest := .none, pa2 := 0, parks := [] } := by
  rw [entry_invalidated, if_pos hc, if_pos]
  rw [hb, hp, hd, hk, ht]
  rfl

theorem entry_invalidated_kept (c : Nat) (ht : touchesPages first last ((s.core c).entry q) = false) :
    (invalidated s x first last c).entry q = (s.core c).entry q := by
  simp only [entry_invalidated, ht, Bool.and_false, Bool.false_and, Bool.false_eq_true, if_false, ite_self]

theorem invalidated_regs (c : Nat) : (invalidated s x first last c).regs = (s.core c).regs :=
  (apply_ite Core.regs ..).trans (ite_self _)

theorem invalidated_pc (c : Nat) : (invalidated s x first last c).pc = (s.core c).pc :=
  (apply_ite Core.pc ..).trans (ite_self _)

theorem touchesPages_iff {e : QEntry} : touchesPages first last e = true ↔
    e.mode ≠ .m ∧ e.addr / 4096 ≤ last ∧ first ≤ (e.addr + e.bytes - 1) / 4096 := decide_eq_true_iff

theorem touchesPages_of_outside {e : QEntry} (h : last < e.addr / 4096 ∨ (e.addr + e.bytes - 1) / 4096 < first) :
    touchesPages first last e = false :=
  Bool.eq_false_iff.2 fun ht => by
    obtain ⟨-, h1, h2⟩ := touchesPages_iff.1 ht
    omega

/-- Settles O41: the two outcomes of each write, and the cores after an invalidation. -/
theorem tableEvents : Obligations.TableEvents := by
  intro s x i c q first last d0 d1 d2 d3 k e clash reserved hk
  refine ⟨fun hi hle hok => ?_, fun hi hbad => ?_, fun hi hok => ?_, fun hi hbad => ?_, ?_⟩
  · obtain ⟨-, hlt | ⟨hv, hc⟩⟩ | ⟨he, -⟩ := rangeEntryWrite_cases (d0 := d0) (d1 := d1) (d2 := d2) (d3 := d3) hk hi
    · omega
    · exact absurd hc (hok.resolve_left (by simp [hv]))
    · refine ⟨_, _, _, _, he, rfl, ?_, ?_, ?_, ?_, ?_, ?_, ?_⟩
      iterate 4 exact bitAt_and_mask (by decide)
      iterate 3 exact fld_and_mask (by decide)
  · exact (rangeEntryWrite_cases (d0 := d0) (d1 := d1) (d2 := d2) (d3 := d3) hk hi).elim (·.1) fun h => absurd hbad h.2
  · exact (remapDescriptorWrite_cases hi).elim (fun h => absurd h.2 hok) (·.1)
  · exact (remapDescriptorWrite_cases hi).elim (·.1) fun h => absurd hbad h.2
  · obtain ⟨t, ht, hm, hx, hl, hcore, hdrop⟩ := pageInvalidate_reach (s := s) (x := x) (first := first) (last := last)
    refine ⟨t, ht, hm, hx, hl, fun hc hb hp hd hmode hk ho hg hfirst hlast => ?_, fun hout => ?_, ?_, ?_⟩
    · rw [hdrop ho hg]
      exact entry_invalidated_dropped hc hb hp hd hk (touchesPages_iff.2 ⟨hmode, hfirst, hlast⟩)
    all_goals obtain rfl | hcore := hcore
    case refine_2.inr => rw [hcore, entry_invalidated_kept c (touchesPages_of_outside hout)]
    case refine_3.inr => rw [hcore, invalidated_regs]
    case refine_4.inr => rw [hcore, invalidated_pc]
    all_goals rfl

end Sys2Proof.Machine
end

section
/-! Queue entries and the kitty: translation, the home, completion, the time-outs, and parked pages (O40; R192 to R199, R203, R204,
R228, R282, R283, R333, R336). -/

namespace Sys2Proof.Machine

open State

variable {s : State} {c q x pa sh f : Nat}

/-! ### Translation (R195 to R199) -/

/-- What a queue entry's translation answers. -/
def entrySpan (s : State) (c q x : Nat) : Span :=
  let e := (s.core c).entry q
  translateSpan (s.core c).tlb s x e.addr e.bytes (entryAcc e).ld (entryAcc e).st e.mode

theorem QEntry.led_ok {e : QEntry} {r : Span} (h : r.out = .ok pa) :
    e.led r = { e with dest := .phys pa, pa2 := r.pa2, parks := [] } := by
  rw [QEntry.led, h]

theorem QEntry.led_parked {e : QEntry} {r : Span} (h : r.out = .parked pa sh) :
    e.led r = { e with dest := .parked pa, pa2 := r.pa2, parks := r.parks } := by
  rw [QEntry.led, h]

/-- A translated entry leads to an address, or to a parked page, and its core holds the translation (R195, R200). -/
def ledTo (s : State) (c q x : Nat) (d : Dest) (ps : List (Nat × Nat)) : State :=
  let e := (s.core c).entry q
  s.modCore c fun k => { k.setEntry q { e with dest := d, pa2 := (entrySpan s c q x).pa2, parks := ps } with
    tlb := holdSpan 4 k.tlb x e.addr e.bytes (entryAcc e).ld (entryAcc e).st e.mode (entrySpan s c q x) }

section
variable (hq : q < 16) (hb : ((s.core c).entry q).busy = true) (hd : ((s.core c).entry q).done = false)
  (hp : ((s.core c).entry q).performed = false) (hm : ((s.core c).entry q).mode ≠ .m)
  (ht : ((s.core c).entry q).dest = .none) (ho : (entryOp ((s.core c).entry q)).isSome = true) (hx : s.ctxOf c = some x)
include hq hb hd hp hm ht ho hx

theorem translationWalk_outcomes :
    (linkFault s ((s.core c).entry q).addr ((s.core c).entry q).bytes (entrySpan s c q x) = none →
      ((entrySpan s c q x).out = .ok pa → exec (.translationWalk c q) s = .next (ledTo s c q x (.phys pa) [])) ∧
      ((entrySpan s c q x).out = .parked pa sh →
        exec (.translationWalk c q) s = .next (ledTo s c q x (.parked pa) (entrySpan s c q x).parks))) ∧
    (linkFault s ((s.core c).entry q).addr ((s.core c).entry q).bytes (entrySpan s c q x) = some f →
      exec (.translationWalk c q) s = .next (arrive s c q f 0)) ∧
    ((entrySpan s c q x).out = .fault f →
      exec (.translationWalk c q) s = .next (walkCopy (arrive s c q f 0) c f ((s.core c).entry q).addr)) := by
  simp only [exec_translationWalk, execTranslationWalk, Nat.not_le.2 hq, hb, hd, hp, hm, ht, hx, Option.isNone_eq_false_iff.2 ho,
    decide_false, ne_eq, not_true, Bool.not_true, Bool.or_self, Bool.false_eq_true, if_false]
  unfold ledTo entrySpan
  generalize translateSpan _ _ _ _ _ _ _ _ = r
  refine ⟨fun hl => ⟨fun hout => ?_, fun hout => ?_⟩, fun hl => ?_, fun hout => by rw [hout]⟩
  · rw [hl, hout, QEntry.led_ok hout]
    rfl
  · rw [hl, hout, QEntry.led_parked hout]
    rfl
  · cases hout : r.out with
    | fault => simp [linkFault, hout] at hl
    | ok => rw [hl]
    | parked => rw [hl]

end

/-! ### An access at its home (R191, R207, R210, R226) -/

/-- A relaxed access of a queue entry that nothing of its core holds back may reach its home: it is outstanding, waits in no kitty,
and no halt, freeze or cut holds the core (R126, R170, R282). -/
structure EntryReady (s : State) (c q : Nat) : Prop where
  busy : ((s.core c).entry q).busy = true
  pending : ((s.core c).entry q).done = false
  unperformed : ((s.core c).entry q).performed = false
  access : (entryOp ((s.core c).entry q)).isSome = true
  free : inKitty s c q = false
  relaxed : ((s.core c).entry q).ann = .rlx
  moves : queueMoves (s.core c) ((s.core c).entry q).seq = true

theorem queueMoves_of_running {k : Core} (hh : k.run ≠ .graphHalted) (hf : k.run ≠ .frozen) (hc : k.cut = false) (seq : Nat) :
    queueMoves k seq = true := by
  simp only [queueMoves, hh, hf, hc, ne_eq, not_false_eq_true, decide_true, Bool.not_false, Bool.and_self, Bool.true_or]

theorem queueMoves_of_cut {k : Core} (hc : k.cut = true) (hd : k.deckq = []) (seq : Nat) : queueMoves k seq = false := by
  simp only [queueMoves, deckBehind, hc, hd, List.any_nil, Bool.not_true, Bool.and_false, Bool.or_self]

theorem entryReleaseHeld_of_relaxed {e : QEntry} (h : e.ann = .rlx) : entryReleaseHeld s c e = false := by
  simp only [entryReleaseHeld, h, reduceCtorEq, decide_false, Bool.or_self, Bool.false_and]

/-- An entry that crosses no page has all its bytes in its first part. -/
theorem not_crosses {e : QEntry} (h : firstPart e = e.bytes) : crosses e = false := by
  rw [firstPart] at h
  cases hc : crosses e with
  | false => rfl
  | true =>
    rw [if_pos hc] at h
    simp only [crosses, Bool.and_eq_true, decide_eq_true_eq] at hc
    omega

section
variable (h : EntryReady s c q)
include h

theorem tryHome_of_parked (hd : ((s.core c).entry q).dest = .parked pa) :
    tryHome s c q = toKitty s c q ((s.core c).entry q) pa := by
  obtain ⟨hb, hp, hu, ha, hf, hr, hm⟩ := h
  simp only [tryHome, hb, hp, hu, hf, hm, hr, hd, Option.isNone_eq_false_iff.2 ha, entryReleaseHeld_of_relaxed hr, reduceCtorEq,
    decide_false, Bool.not_true, Bool.or_self, Bool.false_eq_true, if_false]

theorem tryHome_of_phys (hd : ((s.core c).entry q).dest = .phys pa) (hl : isLocal s pa = true) (hk : kittyHas s pa = false)
    (hc : crosses ((s.core c).entry q) = false) (hh : doubleHeld s c q ((s.core c).entry q) pa = false) :
    tryHome s c q = reachHome s c q ((s.core c).entry q) pa := by
  obtain ⟨hb, hp, hu, ha, hf, hr, hm⟩ := h
  simp only [tryHome, hb, hp, hu, hf, hm, hr, hd, Option.isNone_eq_false_iff.2 ha, entryReleaseHeld_of_relaxed hr, reduceCtorEq,
    decide_false, Bool.not_true, Bool.or_self, Bool.false_eq_true, if_false, entryKitty, hl, hk, hc, hh, Bool.false_and, if_true]

end

theorem tryHome_of_cut (hc : (s.core c).cut = true) (hd : (s.core c).deckq = []) : tryHome s c q = s := by
  simp only [tryHome, queueMoves_of_cut hc hd, Bool.not_false, Bool.or_true, if_true]

/-! ### Accesses to HBM4 (R333) -/

section
variable {n : Nat} (hn : 0 < n) (hpa : pa + n ≤ 2 ^ 39)
include hn hpa

theorem spanRead_hbm (card pa2 : Nat) : spanRead s card pa n pa2 n = s.read pa n := by
  simp only [spanRead, localRead, regionOf_hbm s (show pa < 2 ^ 39 by omega), if_true, List.append_nil]

theorem spanWrite_hbm (pa2 v : Nat) : spanWrite s pa n pa2 (leBytes n v) = s.write pa (leBytes n v) := by
  have hr := regionOf_hbm s (show pa < 2 ^ 39 by omega)
  have hlen : (leBytes n v).length ≤ n := (length_leBytes n v).le
  simp only [spanWrite, if_pos hlen, List.take_of_length_le hlen, homeStore, statTarget, localWrite, hr]

theorem performAccess_writes {op : QOp} (hop : op ≠ .ldq) (card data cmp pa2 : Nat) :
    performAccess s card op n data cmp pa n pa2 = (if op = .stq then 0 else ofLe (s.read pa n),
      s.write pa (leBytes n (atomicNew op (8 * n) (ofLe (s.read pa n)) data cmp))) := by
  cases op with
  | ldq => exact absurd rfl hop
  | _ =>
    simp only [performAccess, spanRead_hbm hn hpa, spanWrite_hbm hn hpa]
    rfl

end

/-- An access of a queue entry within HBM4 that crosses no page, at its home (R207, R226). -/
theorem reachHome_hbm {e : QEntry} {op : QOp} (he : e.op = .access op) (hop : op ≠ .aaddf) (hr : e.ann = .rlx)
    (hf : firstPart e = e.bytes) (hn : 0 < e.bytes) (hpa : pa + e.bytes ≤ 2 ^ 39) (hl : isLocal s pa = true)
    (hm : s.ecc.marks = []) :
    reachHome s c q e pa =
      let r := performAccess s (c / 192) op e.bytes e.data e.cmp pa e.bytes (e.pa2 % 2 ^ 45)
      arrive r.2 c q 0 r.1 := by
  have hlt : pa % 2 ^ 45 = pa := Nat.mod_eq_of_lt (by omega)
  have hop' : entryOp e = some op := by rw [entryOp, he]
  have hreg : regionOf s pa = .hbm := regionOf_hbm s (by omega)
  have hfault : spanFault s c (entryAcc e) pa e.bytes e.pa2 = none := by
    have hacc : entryAcc e = accOf op e.bytes e.mode .rlx e.scope := by rw [entryAcc, hop', hr]; rfl
    have hbytes : (accOf op e.bytes e.mode .rlx e.scope).bytes = e.bytes := rfl
    rw [spanFault, hacc, hbytes, if_neg fun h => h.1 rfl, if_neg (by rw [hl]; decide), if_pos rfl, hlt]
    exact homeFault_hbm hn hpa c hop ..
  simp only [reachHome, hf, hfault, hlt, hreg, reduceCtorEq, decide_false, Bool.false_and, Bool.false_eq_true, if_false]
  simp only [homeAnswer, hf, ueAt_of_unmarked hm, correct_of_unmarked hm, hlt, hop', keyOf, hreg, if_true, Option.getD_some]

/-- What an operation writes, and what it answers, are those of the table of R333. -/
theorem atomicNew_of_mem {op : QOp} {w old v cmp new : Nat}
    (h : (op, new) ∈ [(QOp.stq, v), (.aadd, (old + v) % 2 ^ w), (.amin, if sgn w v < sgn w old then v else old),
      (.amax, if sgn w old < sgn w v then v else old), (.aminu, min v old), (.amaxu, max v old), (.aand, old &&& v),
      (.aor, old ||| v), (.axor, old ^^^ v), (.aswp, v), (.acas, if old = cmp then v else old), (.asnap, 0)]) :
    op ≠ .ldq ∧ op ≠ .aaddf ∧ atomicNew op w old v cmp = new := by
  have hmin : (if v < old then v else old) = min v old := by rw [Nat.min_def]; split <;> split <;> omega
  have hmax : (if old < v then v else old) = max v old := by rw [Nat.max_def]; split <;> split <;> omega
  simp only [List.mem_cons, Prod.mk.injEq, List.not_mem_nil, or_false] at h
  rcases h with h | h | h | h | h | h | h | h | h | h | h | h <;> obtain ⟨rfl, rfl⟩ := h <;>
    simp [atomicNew, hmin, hmax]

/-! ### Completion and release (R192, R283) -/

theorem modCore_congr {f g : Core → Core} (h : f (s.core c) = g (s.core c)) : s.modCore c f = s.modCore c g :=
  congrArg (s.setCore c) h

theorem modCore_const {f : Core → Core} {k : Core} (h : f (s.core c) = k) : s.modCore c f = s.setCore c k :=
  congrArg (s.setCore c) h

theorem queueEntryComplete_completes (hb : ((s.core c).entry q).busy = true) (hp : ((s.core c).entry q).performed = true)
    (hd : ((s.core c).entry q).done = false) (he : earlierDone (s.core c) ((s.core c).entry q).seq = true)
    (hc : (s.core c).cut = false) : exec (.queueEntryComplete c q) s =
      .next (s.modCore c fun k => (k.setEntry q { (s.core c).entry q with done := true, released := true }).wake) := by
  refine congrArg _ (modCore_congr ?_)
  simp only [hb, hp, hd, he, hc, Bool.not_false, Bool.and_self, if_true]

theorem queueEntryComplete_cut (hc : (s.core c).cut = true) : exec (.queueEntryComplete c q) s = .next (s.setCore c (s.core c)) := by
  refine congrArg _ (modCore_const ?_)
  simp only [hc, Bool.not_true, Bool.and_false, Bool.false_and, Bool.false_eq_true, if_false]

theorem sourceReleased_releases (hb : ((s.core c).entry q).busy = true) (ht : ((s.core c).entry q).storeType = true)
    (hr : ((s.core c).entry q).released = false)
    (he : ∀ n ∈ (s.core c).entries, n.2.busy = true → n.2.storeType = true → n.2.released = false →
      ((s.core c).entry q).seq ≤ n.2.seq) :
    exec (.sourceReleased c q) s = .next (s.modCore c fun k => k.setEntry q { (s.core c).entry q with released := true }) := by
  have hno : ((s.core c).entries.any fun (_, x) =>
      x.busy && x.storeType && !x.released && decide (x.seq < ((s.core c).entry q).seq)) = false :=
    List.any_eq_false.2 fun n hn h => by
      simp only [Bool.and_eq_true, Bool.not_eq_true', decide_eq_true_eq] at h
      obtain ⟨⟨⟨h1, h2⟩, h3⟩, h4⟩ := h
      exact absurd h4 (Nat.not_lt.2 (he n hn h1 h2 h3))
  refine congrArg _ (modCore_congr ?_)
  simp only [hb, ht, hr, hno, Bool.not_false, Bool.and_self, if_true]

/-! ### Time-outs (R228, R336) -/

theorem localAtomicTimeout_ends (hb : ((s.core c).entry q).busy = true) (hd : ((s.core c).entry q).done = false)
    (ha : (entryOp ((s.core c).entry q)).map qopAtomic = some true)
    (ht : ((s.core c).entry q).dest = .phys pa ∨ ((s.core c).entry q).dest = .parked pa) (hl : isLocal s pa = true)
    (hdue : ((s.core c).entry q).issuedAt + nanos 1000000 ≤ s.clock c) :
    exec (.localAtomicTimeout c q) s = .next (copyMgmt
      ({ s with kitty := s.kitty.filter fun p => !(p.core == c && p.q == q) }.completeEntry c q 0x04E 0) c 0x04E
      ((s.core c).entry q).addr) := by
  obtain ⟨op, hop, hat⟩ := Option.map_eq_some_iff.1 ha
  rcases ht with ht | ht <;>
    simp only [exec_localAtomicTimeout, execLocalAtomicTimeout, hb, hd, hop, hat, ht, hl, hdue, Bool.not_false, decide_true,
      Bool.and_self, if_true]

theorem waited_of_due {ns t0 : Nat} {p : Instr → Bool} {i : Instr} (hr : cpReady s c = true)
    (hw : (s.core c).waitSince = some t0) (hdue : t0 + nanos ns ≤ s.clock c) (hi : instrAtPc s c = some i) (hp : p i = true) :
    waited s c ns p = true := by
  simp only [waited, hr, hw, hdue, hi, hp, decide_true, Bool.and_self]

theorem queueWaitTimeout_traps {t0 n : Nat} {i : Instr} (hr : cpReady s c = true) (hw : (s.core c).waitSince = some t0)
    (hdue : t0 + nanos 1000000000 ≤ s.clock c) (hi : instrAtPc s c = some i) (hn : waitedEntry i = some n) :
    exec (.queueWaitTimeout c) s = .next (s.trapAt c 0x01C n (s.core c).pc) := by
  have hwait := waited_of_due (p := fun i => (waitedEntry i).isSome) hr hw hdue hi (by rw [hn]; rfl)
  simp only [exec_queueWaitTimeout, execQueueWaitTimeout, hwait, if_true, hi, Option.bind_some, hn, Option.getD_some]

/-! ### Joining the kitty (R203) -/

theorem kittyHas_mod (s : State) (pa : Nat) : kittyHas s (pa % 2 ^ 45) = kittyHas s pa := by
  simp only [kittyHas, Nat.mod_mod]

/-- The home of a page of 2^sh bytes. -/
abbrev pageHome (pa sh : Nat) : Nat := State.homeOf (pa % 2 ^ 45 / 2 ^ sh * 2 ^ sh)

/-- A home's share of the kitty, or a context's share of it, is full (R203). -/
abbrev shareFull (s : State) (home x : Nat) : Prop :=
  256 ≤ (s.kitty.filter fun p => p.home == home).length ∨
    16 ≤ ((s.kitty.filter fun p => p.home == home).filter fun p => p.ctx == x).length

section
variable {va : Nat} (hc : c < 12 * 192)
include hc

theorem park_early (hw : s.clock c < NMap.getD 0 (s.core c).retries q) : park s c q va pa sh x none = s := by
  simp only [park, retryClock, retryAt, if_pos hc, hw, and_self, if_true]

variable (hw : NMap.getD 0 (s.core c).retries q ≤ s.clock c)
include hw

theorem park_full (hf : shareFull s (pageHome pa sh) x) : park s c q va pa sh x none =
    s.modCore c fun k => { k with retries := NMap.put k.retries q (s.clock c + 5 * 1000) } := by
  have hn : ¬(True ∧ s.clock c < NMap.getD 0 (s.core c).retries q) := fun h => Nat.not_lt.2 hw h.2
  simp only [park, retryClock, retryAt, if_pos hc]
  rw [if_neg hn, if_pos hf, if_pos trivial, setRetry, if_pos hc]
  rfl

theorem park_joins (hf : ¬shareFull s (pageHome pa sh) x) : park s c q va pa sh x none = joinKitty s (coreName c) va
    { ctx := x, page := va / 4096, home := pageHome pa sh, core := c, q := q, pa := pa % 2 ^ 45, sh := sh } := by
  have hn : ¬(True ∧ s.clock c < NMap.getD 0 (s.core c).retries q) := fun h => Nat.not_lt.2 hw h.2
  simp only [park, retryClock, retryAt, if_pos hc]
  rw [if_neg hn, if_neg hf]

end

theorem joinKitty_behind {name va : Nat} {p : Parked} (h : kittyHas s p.pa = true) :
    joinKitty s name va p = { s with kitty := s.kitty ++ [p] } := if_pos h

theorem modCtx_told (s : State) (x : Nat) (f : Ctx → Ctx) :
    (s.modCtx x f).mgmt = s.mgmt ∧ (s.modCtx x f).mgmtLost = s.mgmtLost := by
  unfold modCtx
  split <;> exact ⟨rfl, rfl⟩

/-- A notice to a supervisor tells management nothing. -/
theorem notify_told (s : State) (x : Nat) (n : Notice) : (s.notify x n).mgmt = s.mgmt ∧ (s.notify x n).mgmtLost = s.mgmtLost := by
  unfold notify
  split
  · exact ⟨rfl, rfl⟩
  · split
    · exact modCtx_told ..
    · split
      · exact modCtx_told ..
      · have h1 := modCtx_told s x
        have h2 := fun f => modCtx_told (s.modCtx x f) x
        exact ⟨(h2 _ _).1.trans (h1 _).1, (h2 _ _).2.trans (h1 _).2⟩

theorem tellMgmt_room {n : Notice} (h : s.mgmt.length < 4096) (hl : s.mgmtLost = 0) : (s.tellMgmt n).mgmt = s.mgmt ++ [n] := by
  rw [tellMgmt, if_neg (Nat.not_le.2 h), if_pos hl]

theorem joinKitty_first {name va : Nat} {p : Parked} (h : kittyHas s p.pa = false) :
    (joinKitty s name va p).sansTold = ({ s with kitty := s.kitty ++ [p] } : State).sansTold ∧
    (s.mgmt.length < 4096 → s.mgmtLost = 0 → (joinKitty s name va p).mgmt = s.mgmt ++
      [{ cause := 0x03C, ctx := p.ctx, flags := 2, core := name, detail := va / 4096 * 4096 }]) := by
  rw [joinKitty, if_neg (Bool.eq_false_iff.1 h)]
  refine ⟨by rw [sansTold_tellMgmt, sansTold_notify], fun hm hl => ?_⟩
  obtain ⟨hn, hnl⟩ := notify_told { s with kitty := s.kitty ++ [p] } p.ctx
    { cause := 0x03C, ctx := p.ctx, flags := 2, core := name, detail := va / 4096 * 4096 }
  rw [tellMgmt_room (by rwa [hn]) (by rwa [hnl]), hn]

/-- A parked entry that crosses no page, and that nothing before it holds, parks for its page (R203). -/
theorem kittyResend_parks (h : EntryReady s c q) (hq : q < 16) (hd : ((s.core c).entry q).dest = .parked pa)
    (hl : isLocal s pa = true) (hx : s.ctxOf c = some x) (hp : ((s.core c).entry q).parks = [(pa, sh)])
    (hf : firstPart ((s.core c).entry q) = ((s.core c).entry q).bytes)
    (hj : joinHeld s c q ((s.core c).entry q) pa (pa, sh) = false) :
    exec (.kittyResend c q) s = .next (park s c q ((s.core c).entry q).addr pa sh x none) := by
  simp only [exec_kittyResend, execKittyResend, if_pos hq, hd, tryHome_of_parked h hd]
  simp only [toKitty, hp, not_crosses hf, hl, hj, Bool.false_and, Bool.not_true, Bool.false_eq_true, if_false, parkEntry, if_true,
    hx, Option.getD_some]

/-! ### Releasing and declining a parked page (R204) -/

/-- An entry whose one parked page has been released. -/
def released (e : QEntry) (pa : Nat) : QEntry := { e with dest := .phys pa, parks := [] }

section
variable {p : Parked} {page : Nat} (hmsg : p.msg = none) (hfrz : p.frz = none) (hc : p.core < 12 * 192) (hq : p.q < 16)
  (hps : parkedFor s x page = [p])
include hmsg hfrz hc hq hps

theorem kittyRelease_performs : exec (.kittyRelease x page) s =
    .next ((performEntry (unpark s [p]) p).notify x { cause := 0x03E, detail := page * 4096 }) := by
  simp only [exec_kittyRelease, execKittyRelease, hps, List.cons_ne_nil, if_false, List.foldl_cons, List.foldl_nil]
  rw [performParked, hmsg, hfrz]
  simp only [Nat.not_le.2 hc, hq, if_false, if_true]

theorem kittyDecline_arrives : exec (.kittyDecline x page) s = .next (arrive (unpark s [p]) p.core p.q 0x034 0) := by
  simp only [exec_kittyDecline, execKittyDecline, hps, List.foldl_cons, List.foldl_nil]
  rw [declineParked, endParked, hmsg, hfrz]
  simp only [Nat.not_le.2 hc, hq, if_false, if_true]

end

theorem performEntry_ended {p : Parked}
    (h : ((s.core p.core).entry p.q).busy = false ∨ ((s.core p.core).entry p.q).performed = true) : performEntry s p = s := by
  rw [performEntry, if_pos]
  rcases h with h | h <;> simp only [h, Bool.not_false, Bool.true_or, Bool.or_true]

section
variable {p : Parked} {y : Nat × Nat} {e : QEntry} {s1 : State} (he : e = released ((s.core p.core).entry p.q) pa)
  (h1 : s1 = s.modCore p.core fun k => k.setEntry p.q e) (hb : ((s.core p.core).entry p.q).busy = true)
  (hp : ((s.core p.core).entry p.q).performed = false) (hd : ((s.core p.core).entry p.q).dest = .parked pa)
  (hy : ((s.core p.core).entry p.q).parks = [y]) (hk : entryKitty s1 e pa = none)
include he h1 hb hp hd hy hk

theorem performEntry_goes :
    performEntry s p = if doubleHeld s1 p.core p.q e pa then s1 else reachHome s1 p.core p.q e pa := by
  have hun : ((s.core p.core).entry p.q).unparked pa = e := by
    simp only [he, QEntry.unparked, hy, released]
    rfl
  have hpk : e.parks = [] := by rw [he, released]
  simp only [performEntry, hb, hp, entryAt, hd, hun, ← h1, hpk, hk, Bool.not_true, Bool.or_self, Bool.false_eq_true, if_false]

theorem performEntry_held (hh : doubleHeld s1 p.core p.q e pa = true) : performEntry s p = s1 :=
  (performEntry_goes he h1 hb hp hd hy hk).trans (if_pos hh)

theorem performEntry_reaches (hh : doubleHeld s1 p.core p.q e pa = false) :
    performEntry s p = reachHome s1 p.core p.q e pa :=
  (performEntry_goes he h1 hb hp hd hy hk).trans (if_neg (Bool.eq_false_iff.1 hh))

end

theorem mem_kitty_unpark {p r : Parked} : r ∈ (unpark s [p]).kitty ↔ r ∈ s.kitty ∧ r ≠ p := by
  simp [unpark, List.mem_filter]

/-! ### The obligation -/

theorem arrive_eq (s : State) (c q fault resp : Nat) : arrive s c q fault resp = s.modCore c fun k =>
    k.setEntry q { (s.core c).entry q with performed := true, fault := fault, resp := resp } := rfl

theorem entry_arrive (s : State) (c q fault resp : Nat) : ((arrive s c q fault resp).core c).entry q =
    { (s.core c).entry q with performed := true, fault := fault, resp := resp } := by
  rw [arrive_eq, core_modCore_self, entry_setEntry_self]

theorem walkCopy_local {va : Nat} (h : f ≠ 0x035 ∧ f ≠ 0x036 ∧ f ≠ 0x037) : walkCopy s c f va = s :=
  if_neg fun hw => by
    simp only [walkCause, decide_eq_true_eq] at hw
    omega

theorem walkCopy_told {va : Nat} (h : f = 0x035 ∨ f = 0x036 ∨ f = 0x037) : walkCopy s c f va = copyMgmt s c f va :=
  if_pos (by rcases h with rfl | rfl | rfl <;> rfl)

/-- A relaxed access of an entry to local HBM4 that nothing holds back, with no storage error marked. -/
structure AtHbm (s : State) (c q pa : Nat) : Prop extends EntryReady s c q where
  dest : ((s.core c).entry q).dest = .phys pa
  here : isLocal s pa = true
  inside : pa + ((s.core c).entry q).bytes ≤ 2 ^ 39
  nonempty : 0 < ((s.core c).entry q).bytes
  whole : firstPart ((s.core c).entry q) = ((s.core c).entry q).bytes
  unparked : kittyHas s pa = false
  unheld : doubleHeld s c q ((s.core c).entry q) pa = false
  unmarked : s.ecc.marks = []

section
variable {op : QOp} (h : AtHbm s c q pa) (hq : q < 16) (he : ((s.core c).entry q).op = .access op)
include h hq he

theorem homePerform_hbm (hop : op ≠ .aaddf) : exec (.homePerform c q) s =
    let e := (s.core c).entry q
    let r := performAccess s (c / 192) op e.bytes e.data e.cmp pa e.bytes (e.pa2 % 2 ^ 45)
    .next (arrive r.2 c q 0 r.1) := by
  rw [exec_homePerform, execHomePerform, if_pos hq,
    tryHome_of_phys h.toEntryReady h.dest h.here h.unparked (not_crosses h.whole) h.unheld,
    reachHome_hbm he hop h.relaxed h.whole h.nonempty h.inside h.here h.unmarked]

theorem homePerform_load (hop : op = .ldq) :
    exec (.homePerform c q) s = .next (arrive s c q 0 (ofLe (s.read pa ((s.core c).entry q).bytes))) := by
  subst hop
  simp only [homePerform_hbm h hq he (by decide), performAccess_load h.nonempty h.inside]

theorem homePerform_write (hld : op ≠ .ldq) (hop : op ≠ .aaddf) : exec (.homePerform c q) s =
    let e := (s.core c).entry q
    let old := ofLe (s.read pa e.bytes)
    .next (arrive (s.write pa (leBytes e.bytes (atomicNew op (8 * e.bytes) old e.data e.cmp))) c q 0
      (if op = .stq then 0 else old)) := by
  simp only [homePerform_hbm h hq he hop, performAccess_writes h.nonempty h.inside hld]

end

/-- What a write of an access leaves: its bytes in their places and the entry's answer, and all else as it was. -/
theorem arrive_write {n v resp : Nat} (hw : Memory.wf s.mem = true) (pa : Nat) :
    let t := arrive (s.write pa (leBytes n v)) c q 0 resp
    (t.core c).entry q = { (s.core c).entry q with performed := true, fault := 0, resp := resp } ∧
    (∀ j, j < n → memGet t.mem (pa + j) = BitVec.ofNat 8 (v / 256 ^ j)) ∧ SameOutside s t pa n ∧
    (t.core c).regs = (s.core c).regs ∧ (t.core c).pc = (s.core c).pc ∧ ∀ a, a ≠ c → t.core a = s.core a := by
  obtain ⟨hin, hout⟩ := memWrite_reads hw pa (leBytes n v)
  rw [length_leBytes] at hin hout
  refine ⟨entry_arrive .., fun j hj => (hin j hj).trans (getD_leBytes hj _), hout, ?_, ?_, fun a ha => core_modCore_ne _ _ ha⟩
  · rw [arrive_eq, core_modCore_self]
    rfl
  · rw [arrive_eq, core_modCore_self]
    rfl

/-- Settles O40: each clause is the rule of its event; of an access at its home, the rule of HBM4 with the table of R333. -/
theorem queueAndKittyEvents : Obligations.QueueAndKittyEvents := by
  constructor
  · intro s c q x pa sh f t0 d p k e acc put xlat led old w v news
    refine ⟨fun hq hb hd hp hm ht ho hx => ?_, fun hq hb hd hp hi ha hh hf hc ht hpkg hpa hn hfst hk hdbl hecc hw => ?_,
      queueEntryComplete_completes, queueEntryComplete_cut, fun hq _ _ _ hc hd => ?_, sourceReleased_releases,
      localAtomicTimeout_ends, fun i hi hat hr hw hdue => ?_⟩
    · obtain ⟨hlead, hlink, hfault⟩ := translationWalk_outcomes hq hb hd hp hm ht ho hx
      refine ⟨hlead, hlink, fun hout h1 h2 h3 => ?_, fun hout h => ?_⟩
      · rw [hfault hout, walkCopy_local ⟨h1, h2, h3⟩, arrive_eq]
      · rw [hfault hout, walkCopy_told h, arrive_eq]
    · have hl : isLocal s pa = true := decide_eq_true (by rw [hpkg]; omega)
      have hat : ∀ op, e.op = .access op → AtHbm s c q pa := fun op hop =>
        ⟨⟨hb, hd, hp, by rw [entryOp, hop]; rfl, hi, ha, queueMoves_of_running hh hf hc _⟩, ht, hl, hpa, hn, hfst, hk, hdbl, hecc⟩
      refine ⟨fun hop => homePerform_load (hat _ hop) hq hop rfl, fun n hnews hop => ?_⟩
      obtain ⟨hld, hadd, hnew⟩ := atomicNew_of_mem hnews
      refine ⟨_, homePerform_write (hat _ hop) hq hop hld hadd, ?_⟩
      rw [← hnew]
      exact arrive_write hw pa
    · rw [exec_homePerform, execHomePerform, if_pos hq, tryHome_of_cut hc hd]
    · have hn : waitedEntry i = some p.toNat := by
        simp only [List.mem_cons, List.not_mem_nil, or_false] at hi
        rcases hi with rfl | rfl | rfl <;> rfl
      exact queueWaitTimeout_traps hr hw hdue hat hn
  · intro s c q x page pa sh p y k e home here entered own freed
    refine ⟨fun hq hb hd hp hop hi ha hh hf hc ht hl hx hcore hpark hfst hj => ?_, fun hmsg hfrz hpc hpq hcore hq hps => ?_⟩
    · have hready : EntryReady s c q := ⟨hb, hd, hp, by rw [entryOp, hop]; rfl, hi, ha, queueMoves_of_running hh hf hc _⟩
      rw [kittyResend_parks hready hq ht hl hx hpark hfst hj]
      refine ⟨fun hw => by rw [park_early hcore hw], fun hw => ⟨fun hfull => by rw [park_full hcore hw hfull],
        fun h1 h2 hk => ?_, fun h1 h2 hk => ?_⟩⟩
      all_goals
        have hroom : ¬shareFull s (pageHome pa sh) x := fun hf => hf.elim (Nat.not_le.2 h1) (Nat.not_le.2 h2)
        rw [park_joins hcore hw hroom]
      · rw [joinKitty_behind ((kittyHas_mod s pa).trans hk)]
      · obtain ⟨hkeep, htold⟩ := joinKitty_first (name := coreName c) (va := e.addr) (p := entered) ((kittyHas_mod s pa).trans hk)
        exact ⟨_, rfl, (congrArg State.kitty hkeep :), (congrArg State.mem hkeep :), (congrArg State.cores hkeep :), htold⟩
    · subst hpc hpq
      rw [kittyRelease_performs hmsg hfrz hcore hq hps, kittyDecline_arrives hmsg hfrz hcore hq hps]
      refine ⟨fun h => by rw [performEntry_ended (s := unpark s [p]) h], fun hb hp hd hy hk hh => ?_,
        fun hb hp hd hy hk hh => ?_, _, rfl, entry_arrive .., rfl, fun r => mem_kitty_unpark⟩
      · rw [performEntry_held (s := unpark s [p]) (e := own) (s1 := freed) rfl rfl hb hp hd hy hk hh]
      · rw [performEntry_reaches (s := unpark s [p]) (e := own) (s1 := freed) rfl rfl hb hp hd hy hk hh]

end Sys2Proof.Machine
end

section
/-! Precise traps and the return from one (R269 to R271, R342): O7 and O9. -/

namespace Sys2Proof.Machine

open State

/-! ### Fields of a word (R4) -/

/-- Replacing a field of a number: what stands below and above it stays (R4). -/
theorem setBits_parts {hi lo : Nat} (h : lo ≤ hi + 1) (x v : Nat) :
    setBits x hi lo v % 2 ^ lo = x % 2 ^ lo ∧ setBits x hi lo v / 2 ^ lo % 2 ^ (hi + 1 - lo) = v % 2 ^ (hi + 1 - lo) ∧
      setBits x hi lo v / 2 ^ (hi + 1) = x / 2 ^ (hi + 1) := by
  have hpow : 2 ^ (hi + 1) = 2 ^ lo * 2 ^ (hi + 1 - lo) := by rw [← Nat.pow_add, Nat.add_sub_cancel' h]
  rw [setBits, bitsOf, Nat.shiftRight_eq_div_pow, hpow]
  have ha : 0 < 2 ^ lo := Nat.two_pow_pos _
  have hb : 0 < 2 ^ (hi + 1 - lo) := Nat.two_pow_pos _
  generalize 2 ^ lo = a at ha ⊢
  generalize 2 ^ (hi + 1 - lo) = b at hb ⊢
  have hx : x - x / a % b * a + v % b * a = a * (b * (x / a / b) + v % b) + x % a := by
    have hlow := Nat.div_add_mod x a
    have hhigh : a * (x / a) = a * (b * (x / a / b)) + x / a % b * a := by
      rw [Nat.mul_comm _ a, ← Nat.mul_add, Nat.div_add_mod]
    rw [Nat.mul_add, Nat.mul_comm a (v % b)]
    omega
  have hp := Nat.mod_lt x ha
  have hr := Nat.mod_lt v hb
  have hdiv : (a * (b * (x / a / b) + v % b) + x % a) / a = b * (x / a / b) + v % b := by
    rw [Nat.mul_add_div ha, Nat.div_eq_of_lt hp, Nat.add_zero]
  rw [hx, ← Nat.div_div_eq_div_mul, hdiv, Nat.mul_add_mod, Nat.mod_mod, Nat.mul_add_mod, Nat.mod_mod, Nat.mul_add_div hb,
    Nat.div_eq_of_lt hr, Nat.add_zero, Nat.div_div_eq_div_mul]
  exact ⟨rfl, rfl, rfl⟩

/-- A bit of a number of which a field is replaced (R4). -/
theorem testBit_setBits {hi lo : Nat} (h : lo ≤ hi + 1) (x v i : Nat) :
    (setBits x hi lo v).testBit i = if lo ≤ i ∧ i ≤ hi then v.testBit (i - lo) else x.testBit i := by
  obtain ⟨hbelow, hfield, habove⟩ := setBits_parts h x v
  by_cases hl : i < lo
  · have hb := congrArg (Nat.testBit · i) hbelow
    simp only [Nat.testBit_mod_two_pow, hl, decide_true, Bool.true_and] at hb
    rw [hb, if_neg (by omega)]
  · by_cases hh : i ≤ hi
    · have hb := congrArg (Nat.testBit · (i - lo)) hfield
      simp only [Nat.testBit_mod_two_pow, Nat.testBit_div_two_pow, show i - lo < hi + 1 - lo by omega, decide_true, Bool.true_and,
        show i - lo + lo = i by omega] at hb
      rw [hb, if_pos (by omega)]
    · have hb := congrArg (Nat.testBit · (i - (hi + 1))) habove
      simp only [Nat.testBit_div_two_pow, show i - (hi + 1) + (hi + 1) = i by omega] at hb
      rw [hb, if_neg (by omega)]

theorem testBit_fld (w : Word) (hi lo i : Nat) : (fld w hi lo).testBit i = (decide (i < hi + 1 - lo) && bitAt w (lo + i)) := by
  rw [fld, bitsOf, Nat.testBit_mod_two_pow, Nat.testBit_shiftRight]
  rfl

/-- Fields of one width are equal when their bits are. -/
theorem fld_congr {v w : Word} {hi lo hi' lo' : Nat} (hn : hi + 1 - lo = hi' + 1 - lo')
    (h : ∀ i < hi + 1 - lo, bitAt v (lo + i) = bitAt w (lo' + i)) : fld v hi lo = fld w hi' lo' := by
  refine Nat.eq_of_testBit_eq fun i => ?_
  rw [testBit_fld, testBit_fld, ← hn]
  by_cases hi : i < hi + 1 - lo
  · rw [h i hi]
  · rw [decide_eq_false hi, Bool.false_and, Bool.false_and]

/-! ### Fields of sr.status (R268) -/

/-- A bit of a status word of which a field below INTRAP, and INTRAP, are replaced (R268). -/
theorem bitAt_status {hi lo : Nat} (h : lo ≤ hi + 1) (w : Word) (v b : Nat) {i : Nat} (h64 : i < 64) :
    bitAt (BitVec.ofNat 64 (setBits (setBits w.toNat hi lo v) 7 7 b)) i =
      if i = 7 then b.testBit 0 else if lo ≤ i ∧ i ≤ hi then v.testBit (i - lo) else bitAt w i := by
  rw [bitAt, BitVec.getLsbD_ofNat, decide_eq_true h64, Bool.true_and, testBit_setBits (by decide), testBit_setBits h]
  by_cases h7 : i = 7
  · rw [if_pos (by omega), if_pos h7, h7]
  · rw [if_neg (by omega), if_neg h7]; rfl

/-- sr.status at a trap's entry (R269). -/
def statusEntered (w : Word) : Word := BitVec.ofNat 64 (setBits (setBits w.toNat 3 2 (fld w 1 0)) 7 7 1)

/-- A trap's entry has PMODE name the mode, keeps MODE, and sets INTRAP (R269). -/
theorem statusEntered_fields (w : Word) :
    fld (statusEntered w) 3 2 = fld w 1 0 ∧ fld (statusEntered w) 1 0 = fld w 1 0 ∧ bitAt (statusEntered w) 7 = true := by
  have hbit {i : Nat} := bitAt_status (i := i) (show 2 ≤ 3 + 1 by decide) w (fld w 1 0) 1
  refine ⟨fld_congr rfl fun i hi => ?_, fld_congr rfl fun i hi => ?_, hbit (by decide)⟩
  · rw [statusEntered, hbit (by omega), if_neg (by omega), if_pos (by omega), Nat.add_sub_cancel_left, testBit_fld,
      decide_eq_true hi, Bool.true_and]
  · rw [statusEntered, hbit (by omega), if_neg (by omega), if_neg (by omega)]

/-- sr.status at the return from a trap (R271). -/
def statusReturned (w : Word) : Word := BitVec.ofNat 64 (setBits (setBits w.toNat 1 0 (fld w 3 2)) 7 7 0)

/-- The return has MODE be what PMODE names, clears INTRAP, and keeps PMODE (R271). -/
theorem statusReturned_fields (w : Word) :
    fld (statusReturned w) 1 0 = fld w 3 2 ∧ bitAt (statusReturned w) 7 = false ∧ fld (statusReturned w) 3 2 = fld w 3 2 := by
  have hbit {i : Nat} := bitAt_status (i := i) (show 0 ≤ 1 + 1 by decide) w (fld w 3 2) 0
  refine ⟨fld_congr rfl fun i hi => ?_, hbit (by decide), fld_congr rfl fun i hi => ?_⟩
  · rw [statusReturned, hbit (by omega), if_neg (by omega), if_pos (by omega), Nat.zero_add, Nat.sub_zero, testBit_fld,
      decide_eq_true hi, Bool.true_and]
  · rw [statusReturned, hbit (by omega), if_neg (by omega), if_neg (by omega)]

/-! ### What a trap records, and where it leads (R269, R270) -/

theorem eccBad_of_unmarked {s : State} (h : s.ecc.marks = []) (a n : Nat) : eccBad s a n = false := by rw [eccBad, h]; rfl

namespace State

/-- The words that a trap records (R269): its values fit their registers. -/
theorem recordTrap_words (k : Core) {cause tval : Nat} (epc : Nat) (hc : cause < 2 ^ 9) (ht : tval < 2 ^ 64) :
    (recordTrap k cause tval epc).epc.toNat = epc % 2 ^ 64 / 4 * 4 ∧
      (recordTrap k cause tval epc).cause.toNat = 2 ^ 63 + cause ∧ (recordTrap k cause tval epc).tval.toNat = tval := by
  simp only [recordTrap, BitVec.toNat_ofNat]
  omega

/-- Where the handler of a trap's cause begins (R269). -/
def handlerOf (k : Core) (cause : Nat) : Nat :=
  let base := fld k.vector 20 4 * 16
  if bitAt k.vector 0 then base else base + 16 * (cause / 16)

/-- A core at the entry of its handler (R269). -/
def inHandler (k : Core) (cause tval epc : Nat) : Core :=
  { recordTrap k cause tval epc with status := statusEntered k.status, pc := handlerOf k cause }

section
variable {s : State} {c : Nat} (hm : s.ecc.marks = [])
include hm

theorem badTrapState_of_unmarked : badTrapState s c = none := by
  simp only [badTrapState, eccBad_of_unmarked hm, Bool.and_false, Bool.false_eq_true, if_false]

/-- Outside a handler, a trap in S or M mode enters the handler (R269). -/
theorem trapAt_enters (hu : (s.core c).mode ≠ .u) (hi : bitAt (s.core c).status 7 = false) (cause tval epc : Nat) :
    s.trapAt c cause tval epc = s.setCore c (inHandler (s.core c) cause tval epc) := by
  simp only [trapAt, badTrapState_of_unmarked hm, hi, Bool.false_eq_true, if_false]
  cases hmode : (s.core c).mode with
  | u => exact absurd hmode hu
  | s => rfl
  | m => rfl

/-- The CP of a core has stopped at a trap in U mode (R270). -/
def stoppedAt (s : State) (c cause tval epc : Nat) : State :=
  s.setCore c { recordTrap (s.core c) cause tval epc with run := .trapped }

/-- A trap in U mode that is not resumable stops the CP and halts the graph (R270). -/
theorem trapAt_halts (hu : (s.core c).mode = .u) {cause : Nat} (hr : resumable cause = false) (tval epc : Nat) :
    s.trapAt c cause tval epc = (s.stoppedAt c cause tval epc).haltGraph (s.core c).graph
      { cause := cause, core := coreName c, detail := trapDetail s c cause tval } := by
  simp only [trapAt, badTrapState_of_unmarked hm, hu, hr, Bool.false_eq_true, if_false]
  rfl

end

/-! ### What the halt of a graph leaves of a core (R126) -/

/-- What neither a queue entry nor a halt touches of a core, a graph that stops leaves in every core. -/
theorem stopGraph_keeps {β : Type} (p : Core → β) (hentry : ∀ k q e, p (k.setEntry q e) = p k) (hwake : ∀ k, p k.wake = p k)
    (hhalt : ∀ k : Core, p { k.leaveWait with run := .graphHalted } = p k) (s : State) (h : Nat) (g : Graph) (n : Notice) (c : Nat) :
    p ((s.stopGraph h g n).core c) = p (s.core c) := by
  have hcomplete (s : State) (w : Nat × Nat) : p ((s.completeEntry w.1 w.2 n.cause 0).core c) = p (s.core c) := by
    simp only [completeEntry, core_modCore]
    split_ifs <;> simp only [hentry, hwake]
  obtain ⟨d, he, -⟩ := s.secondFault_eq h (s.haltNote h n)
  calc p ((s.stopGraph h g n).core c)
      = p (((s.secondFault h (s.haltNote h n)).completeAll g.waiters n.cause).core c) :=
        foldl_modCore_keeps (i := fun _ (x : Nat × Nat) => x.2) (f := fun _ _ k => { k.leaveWait with run := .graphHalted }) p
          (fun _ _ k => hhalt k) ..
    _ = p ((s.secondFault h (s.haltNote h n)).core c) := foldl_keeps (fun s : State => p (s.core c)) hcomplete ..
    _ = p (s.core c) := by rw [he]; rfl

/-- The general registers of a core and the record of its last trap. -/
def trapRecord (k : Core) : NMap Word × Word × Word × Word := (k.regs, k.epc, k.cause, k.tval)

theorem trapRecord_wake (k : Core) : trapRecord k.wake = trapRecord k := by unfold Core.wake; split <;> rfl

theorem trapRecord_leaveWait (k : Core) : trapRecord k.leaveWait = trapRecord k := by unfold Core.leaveWait; split <;> rfl

theorem stopGraph_trapRecord (s : State) (h : Nat) (g : Graph) (n : Notice) (c : Nat) :
    trapRecord ((s.stopGraph h g n).core c) = trapRecord (s.core c) :=
  stopGraph_keeps trapRecord (fun _ _ _ => rfl) trapRecord_wake trapRecord_leaveWait ..

theorem foldl_modCore_turn {α : Type} (i : State → α → Nat) (f : State → α → Core → Core) (l : List α) (s : State) :
    (l.foldl (fun s a => s.modCore (i s a) (f s a)) s).turn = s.turn :=
  foldl_keeps State.turn (fun s a => modCore_turn s (i s a) (f s a)) l s

theorem stopGraph_turn (s : State) (h : Nat) (g : Graph) (n : Notice) : (s.stopGraph h g n).turn = s.turn := by
  obtain ⟨d, he, -⟩ := s.secondFault_eq h (s.haltNote h n)
  simp only [stopGraph, foldl_modCore_turn, completeAll, completeEntry, he]

/-- The core that moves still moves when its graph halts and joins the dump queue, as it stood when the graph stopped (R126, R276). -/
theorem cur_haltGraph {s : State} {h : Nat} {g : Graph} (n : Notice) (hg : s.graph? h = some g) (hp : g.Haltable)
    (hq : s.dump.queue.length < 64) : (s.haltGraph h n).cur = (s.stopGraph h g n).core s.turn := by
  have htold := sansTold_haltGraph n hg hp
  rw [queueDump_of_room h (by rwa [stopTold_queue])] at htold
  have hturn : (s.haltGraph h n).turn = s.turn :=
    calc (s.haltGraph h n).turn = (s.stopTold h g n).turn := (congrArg State.turn htold :)
      _ = (s.stopGraph h g n).turn := (congrArg State.turn (sansTold_stopTold s h g n) :)
      _ = s.turn := stopGraph_turn ..
  obtain ⟨-, -, hcore⟩ := haltGraph_of_room n hg hp hq
  rw [cur, hturn, hcore]

end State

/-- Settles O7: the entry is one change of the core; in U mode the graph halts, which keeps every core's record. -/
theorem preciseTrapEntry : Obligations.PreciseTrapEntry := by
  constructor
  · intro s cause tval k t base hm hu hi hc ht h4 hpc
    obtain ⟨hepc, hcause, htval⟩ := recordTrap_words k k.pc hc ht
    obtain ⟨hpmode, hmode, hintrap⟩ := statusEntered_fields k.status
    have hrun : t = s.setCore s.turn (inHandler k cause tval k.pc) := trapAt_enters hm hu hi ..
    have hcur : t.cur = inHandler k cause tval k.pc := by rw [hrun]; exact cur_setCore_turn ..
    rw [hcur]
    exact ⟨⟨_, hrun⟩, rfl, rfl, hepc.trans (by omega), hcause, htval, hpmode, hmode, hintrap, rfl⟩
  · intro s cause tval g k t hm hu h1 h2 h3 hc ht hg hp hq
    have hr : resumable cause = false := by simp [resumable, h1, h2, h3]
    have hl : g.Haltable := .inr (.inr (.inl hp))
    obtain ⟨n, hn, hrun⟩ : ∃ n : Notice, n.cause = cause ∧ t = (s.stoppedAt s.turn cause tval k.pc).haltGraph k.graph n :=
      ⟨_, rfl, trapAt_halts hm hu hr ..⟩
    have hg' : (s.stoppedAt s.turn cause tval k.pc).graph? k.graph = some g := hg
    have hcur : t.cur = ((s.stoppedAt s.turn cause tval k.pc).stopGraph k.graph g n).core s.turn := by
      rw [hrun]; exact cur_haltGraph n hg' hl hq
    have hrec : trapRecord t.cur = trapRecord (recordTrap k cause tval k.pc) := by
      rw [hcur, stopGraph_trapRecord, stoppedAt, core_setCore_self]; rfl
    simp only [trapRecord, Prod.mk.injEq] at hrec
    obtain ⟨hregs, hepc', hcause', htval'⟩ := hrec
    obtain ⟨hepc, hcause, htval⟩ := recordTrap_words k k.pc hc ht
    obtain ⟨g', hfind, hverdict⟩ := Option.map_eq_some_iff.1 (verdict_haltGraph_of_live n hg' hl)
    obtain ⟨hphase, hgcause⟩ := Prod.mk.inj hverdict
    obtain ⟨hqueue, -, -⟩ := haltGraph_of_room n hg' hl hq
    rw [← hrun] at hfind hqueue
    refine ⟨fun hmem => ?_, hregs, by rw [hepc', hepc], by rw [hcause', hcause], by rw [htval', htval], ?_,
      by rw [hfind, Option.map_some, hphase], by rw [hfind, Option.map_some, hgcause, hn], hqueue⟩
    · rw [hcur]; exact core_stopGraph n hg' ((mem_coresOf hg').2 hmem)
    · rw [hrun]; exact (onlyGraph_haltGraph ..).1

/-! ### Commands of S and M mode (R305, R348) -/

theorem privileged_of_not_user {s : State} (hu : s.cur.mode ≠ .u) (f : State → Result) : privileged supervisorOnly s f = f s :=
  if_pos (decide_eq_true hu)

theorem privileged_of_user {s : State} (hu : s.cur.mode = .u) (f : State → Result) :
    privileged supervisorOnly s f = .next (s.trap 0x010 0) := by
  rw [privileged, supervisorOnly, hu]; rfl

/-- Settles O9: the checks in their order, then the return as one change of the core. -/
theorem eretReturns : Obligations.EretReturns := by
  intro s k e inCode
  have hbounds : (e < k.codeBase ∨ k.codeBase + k.codeSize ≤ e) ↔ ¬inCode := by omega
  rw [exec_eret, execEret]
  refine ⟨fun hu => privileged_of_user hu _, fun hu hi => ?_, fun hu hi ho => ?_, fun hu hi ho => ?_⟩ <;>
    rw [privileged_of_not_user hu]
  · exact if_pos (congrArg (!·) hi)
  · exact (if_neg (ne_true_of_eq_false (congrArg (!·) hi))).trans (if_pos (hbounds.2 ho))
  · obtain ⟨hmode, hintrap, hpmode⟩ := statusReturned_fields k.status
    have hcur : s.returnFromTrap.cur = { k with pc := e, status := statusReturned k.status } := cur_modCur ..
    refine ⟨s.returnFromTrap, ?_, ⟨_, rfl⟩, ?_⟩
    · exact (if_neg (ne_true_of_eq_false (congrArg (!·) hi))).trans (if_neg fun h => hbounds.1 h ho)
    · rw [hcur]
      exact ⟨rfl, rfl, hmode, hintrap, hpmode⟩

end Sys2Proof.Machine
end

section
/-! Cuts, breakpoints and activity records at issue (R281, R282, R285, R381 to R383): O22. -/

namespace Sys2Proof.Machine

open State

/-! ### Commands whose checks are known (R338, R347, R348) -/

/-- A command that no acquire holds and no check refuses has its effect. -/
theorem command_passes {s : State} {cs : State → List (Option Nat)} (ha : acquireHeld s.cur = false)
    (hc : (cs s).findSome? id = none) (tval : Nat) (f : State → Result) : command cs tval s f = f s := by
  rw [command, afterAcquire_clear ha, checks, hc]

/-- A command that no acquire holds traps with the cause of the first check that refuses it. -/
theorem command_traps {s : State} {cs : State → List (Option Nat)} {cause : Nat} (ha : acquireHeld s.cur = false)
    (hc : (cs s).findSome? id = some cause) (tval : Nat) (f : State → Result) : command cs tval s f = .next (s.trap cause tval) := by
  rw [command, afterAcquire_clear ha, checks, hc]

/-- An operand in own tile SRAM and aligned passes the address checks (R347). -/
theorem operandFault_of_ok {x n align : Nat} (h : OperandOk x n align) : operandFault x n align = none := by
  obtain ⟨hn, hin, hal⟩ := h
  rw [operandFault, if_neg (by omega), if_neg (by simp [hal]), if_neg (by omega)]

/-! ### Cuts (R282, R382) -/

section
variable {s : State} {a b : Reg} {g : Graph} (ha : acquireHeld s.cur = false)
include ha

/-- A core cuts its own graph while it runs (R382). -/
theorem cutmStart_own (hx : s.reg a = 0) (hg : s.graph? s.cur.graph = some g) (hctx : s.ctxOf s.turn = some (s.cur.graph / 2 ^ 28))
    (hs : g.supervisor = false) (hp : g.phase = .running) :
    exec (.cutmStart a) s = .next ((s.advance 4).startCut s.cur.graph s.turn) := by
  rw [exec_cutmStart, execCutmStart, hx]
  refine (command_passes ha ?_ ..).trans ?_
  · simp [hg, hctx, hs, hp, failIf]
  · simp

variable (hu : s.cur.mode ≠ .u)
include hu

/-- Outside U mode the cut of a graph of the context is released (R382). -/
theorem cutmRel_releases (hx : (s.reg a).toNat < 2 ^ 32) (hg : s.graph? (s.reg a).toNat = some g)
    (hctx : s.ctxOf s.turn = some ((s.reg a).toNat / 2 ^ 28)) (hc : g.cutSince.isSome = true) :
    exec (.cutmRel a) s = .next ((s.advance 4).releaseCut (s.reg a).toNat) := by
  have hhandle : handleGraph s (s.reg a) = some g := by
    rw [handleGraph, if_pos, hg]
    rw [fld, bitsOf, Nat.shiftRight_eq_div_pow, Nat.div_eq_of_lt hx, Nat.zero_mod]
  rw [exec_cutmRel, execCutmRel, privileged_of_not_user hu]
  exact command_passes ha (by simp [hhandle, hctx, hc, failIf]) ..

/-! ### Breakpoints (R281, R383) -/

/-- With no breakpoint of a core's four left, TKBP traps with DBG.4; else it arms one (R383). -/
theorem tkbp_arms (hr : linkReserved (s.reg a) (s.reg b) = false) (hc : linkCoreBad s (s.reg a) = false)
    (hl : linkActive s (linkCore (s.reg a)) (breakOf (s.reg a) (s.reg b)) = true) : exec (.tkbp a b) s =
      .next (if 4 ≤ (s.core (linkCore (s.reg a))).breaks.length then s.trap 0x174 0
        else (s.modCore (linkCore (s.reg a)) fun k => { k with breaks := k.breaks ++ [breakOf (s.reg a) (s.reg b)] }).advance 4) := by
  rw [exec_tkbp, execTkbp, privileged_of_not_user hu]
  split
  · next hfull => exact command_traps ha (by simp [hr, hc, hl, hfull, failIf]) ..
  · next hroom => exact command_passes ha (by simp [hr, hc, hl, hroom, failIf]) ..

/-- TKBP.clr removes every breakpoint of a core (R383). -/
theorem tkbpClr_clears (hx : fld (s.reg a) 63 28 = 0) (hc : linkCoreBad s (s.reg a) = false) : exec (.tkbpClr a) s =
    .next ((s.modCore (linkCore (s.reg a)) fun k => { k with breaks := [] }).advance 4) := by
  rw [exec_tkbpClr, execTkbpClr, privileged_of_not_user hu]
  exact command_passes ha (by simp [hx, hc, failIf]) ..

end

/-! ### Records of one length, one after the other -/

theorem length_flatten_of_length {n : Nat} {l : List (List Byte)} (h : ∀ r ∈ l, r.length = n) : l.flatten.length = l.length * n := by
  rw [List.length_flatten, List.map_congr_left h, List.map_const', List.sum_replicate, smul_eq_mul]

/-- A byte of the record at a place. -/
theorem getD_flatten_of_length {n : Nat} {l : List (List Byte)} (h : ∀ r ∈ l, r.length = n) {e j : Nat} (he : e < l.length)
    (hj : j < n) : l.flatten.getD (n * e + j) 0 = (l.getD e []).getD j 0 := by
  induction l generalizing e with
  | nil => simp at he
  | cons r l ih =>
    have hr : r.length = n := h r List.mem_cons_self
    rw [List.flatten_cons]
    cases e with
    | zero => rw [Nat.mul_zero, Nat.zero_add, List.getD_append _ _ _ _ (by omega), List.getD_cons_zero]
    | succ e =>
      rw [List.getD_append_right _ _ _ _ (by rw [hr, Nat.mul_succ]; omega), hr, Nat.mul_succ,
        show n * e + n + j - n = n * e + j by omega, List.getD_cons_succ]
      exact ih (fun r hm => h r (List.mem_cons_of_mem _ hm)) (by simpa using he)

/-! ### Activity records (R285, R381) -/

/-- The counts of a core's elements when STATS samples them (R285). -/
def sampledCounts (s : State) : NMap (List Nat) :=
  ((List.range 128).filter fun e => !(Config.fusedElem s.turn e)).map fun e =>
    (e, advanceActivity (s.fresh + 9 * e) (NMap.getD [] s.cur.grid.activity e))

/-- The record of an element that STATS writes (R285). -/
def sampledRecord (s : State) (e : Nat) : List Byte :=
  match NMap.find (sampledCounts s) e with
  | some cs => activityRecord s.cur.grid.act.blockid e cs
  | none => leBytes 4 e ++ List.replicate 44 0

theorem length_sampledRecord (s : State) (e : Nat) : (sampledRecord s e).length = 48 := by
  unfold sampledRecord
  split
  · simp [activityRecord, List.length_flatten, List.map_map, Function.comp_def]
  · simp

/-- Every record begins with the number of its element (R285). -/
theorem getD_sampledRecord_zero (s : State) (e : Nat) : (sampledRecord s e).getD 0 0 = BitVec.ofNat 8 e := by
  unfold sampledRecord
  split
  · rw [activityRecord, List.append_assoc, List.getD_append _ _ _ _ (by simp), getD_leBytes (by decide)]
    refine BitVec.eq_of_toNat_eq ?_
    rw [BitVec.toNat_ofNat, BitVec.toNat_ofNat]
    omega
  · rw [List.getD_append _ _ _ _ (by simp), getD_leBytes (by decide), Nat.pow_zero, Nat.div_one]

/-- The bytes that STATS writes (R381). -/
def sampledBytes (s : State) : List Byte := ((List.range 128).map (sampledRecord s)).flatten

theorem length_of_mem_sampledRecords {s : State} : ∀ r ∈ (List.range 128).map (sampledRecord s), r.length = 48 := by
  intro r hr
  obtain ⟨e, -, rfl⟩ := List.mem_map.1 hr
  exact length_sampledRecord s e

theorem length_sampledBytes (s : State) : (sampledBytes s).length = 6144 := by
  rw [sampledBytes, length_flatten_of_length length_of_mem_sampledRecords, List.length_map, List.length_range]

theorem getD_sampledBytes (s : State) {e : Nat} (he : e < 128) : (sampledBytes s).getD (48 * e) 0 = BitVec.ofNat 8 e := by
  rw [sampledBytes, ← Nat.add_zero (48 * e), getD_flatten_of_length length_of_mem_sampledRecords (by simpa using he) (by decide),
    ← getD_sampledRecord_zero s e]
  simp [List.getD_eq_getElem?_getD, he]

/-- The machine once STATS has sampled the counters of the core that moves (R381). -/
def sampled (s : State) : State :=
  { s.modGrid s.turn fun g => { g with activity := sampledCounts s } with fresh := s.fresh + 1152 }

theorem cur_sampled (s : State) : (sampled s).cur = { s.cur with grid := { s.cur.grid with activity := sampledCounts s } } :=
  cur_modCore_turn s fun k => { k with grid := { k.grid with activity := sampledCounts s } }

/-- STATS writes its records after the sample and a notice at most (R381). -/
theorem stats_writes {s : State} {a : Reg} (ha : acquireHeld s.cur = false) (ho : OperandOk (s.reg a).toNat 6144 16)
    (hc : ¬(s.cur.mode = .u ∧ s.cur.inCode (s.reg a).toNat 6144 = true)) : ∃ u, u.sansTold = (sampled s).sansTold ∧
      exec (.stats a) s = .next (((keepCode u (s.reg a).toNat 6144).setTile s.turn (s.reg a).toNat (sampledBytes s)).advance 4) := by
  rw [exec_stats, execStats]
  refine ⟨_, ?_, command_passes ha ?_ ..⟩
  · rw [apply_ite State.sansTold, sansTold_notifyGraph, ite_self]
    rfl
  · simp only [operandFault_of_ok ho, failIf]
    simpa using hc

/-- A store of the CP into its code region changes the fetched bytes of its core alone (R184). -/
theorem keepCode_keeps (s : State) (off n : Nat) : (keepCode s off n).mem = s.mem ∧ (keepCode s off n).turn = s.turn ∧
    (keepCode s off n).fresh = s.fresh ∧ (keepCode s off n).cur.regs = s.cur.regs ∧ (keepCode s off n).cur.pc = s.cur.pc := by
  unfold keepCode
  split
  · exact ⟨rfl, rfl, rfl, by rw [cur_modCur], by rw [cur_modCur]⟩
  · exact ⟨rfl, rfl, rfl, rfl, rfl⟩

/-- Settles O22: each command from its checks; of STATS, the records from the bytes written. -/
theorem cutBreakpointAndStatsCommands : Obligations.CutBreakpointAndStatsCommands := by
  constructor
  · intro s a b g x y c ha
    refine ⟨cutmStart_own ha, cutmRel_releases ha, fun hu hr hc hl hroom => ?_, fun hu hr hc hl hfull => ?_, tkbpClr_clears ha⟩
    · rw [tkbp_arms ha hu hr hc hl, if_neg (Nat.not_le.2 hroom)]
    · rw [tkbp_arms ha hu hr hc hl, if_pos hfull]
  · intro s a x ha ho hc hw
    obtain ⟨u, htold, hrun⟩ := stats_writes ha ho hc
    obtain ⟨hmem, hturn, hfresh, hregs, hpc⟩ := keepCode_keeps u x 6144
    have hmem' : u.mem = s.mem := (congrArg State.mem htold :)
    have hcur : u.cur = (sampled s).cur := (congrArg State.cur htold :)
    have hwrite (p : Nat) := memGet_memWrite (a := winBase s.turn + x) (x := p) (bs := sampledBytes s) hw
    rw [length_sampledBytes] at hwrite
    have hbytes : (((keepCode u x 6144).setTile s.turn x (sampledBytes s)).advance 4).mem =
        memWrite s.mem (winBase s.turn + x) (sampledBytes s) := by rw [← hmem', ← hmem]; rfl
    refine ⟨_, hrun, ?_, ?_, fun p hp => ?_, ?_, fun e he => ?_⟩
    · rw [cur_advance]
      exact congrArg (· + 4) (hpc.trans (by rw [hcur, cur_sampled]))
    · rw [cur_advance]
      exact hregs.trans (by rw [hcur, cur_sampled])
    · rw [hbytes, hwrite, if_neg (by omega)]
    · exact hfresh.trans (congrArg State.fresh htold :)
    · rw [hbytes, hwrite, if_pos (by omega), Nat.add_sub_cancel_left, getD_sampledBytes s he]

end Sys2Proof.Machine
end

section
/-! The encodings read back (O57; R289 to R301, R307). -/

namespace Sys2Proof.Laws.RoundTrip

/-- The round trip of every instruction: one case a constructor, in the order of Instr. -/
theorem statement (i : Instr) : Statement i :=
  Instr.rec (motive := Statement)
    add sub mul mulh mulhu div divu rem remu and or xor andn shl shr sra rotl min max minu maxu slt sltu seq clz ctz popc
    brev bext bins sext addi andi ori xori shli shri srai slti sltiu lui lix jal jalr beq bne blt bge bltu bgeu ldb ldbu ldh
    ldhu ldw ldwu ldd lda stb sth stw std stl ldq stq aadd amin amax aminu amaxu aand aor axor aswp acas asnap aaddf
    waitqSrc waitqVis popq nop fenceCore fenceCard fenceDeck fenceDom fencei eret wfe sev halt brk trap srd swr gload
    gswapDrain gswapEos ggo ggoRes gstop gstat gstv gstvAct srds swrs scpy sagc sxlt swaitSrc swaitVis rwset rwrst rwqry
    fdone fabort mode mwait lnch lwait bari bara barw bart dkst dkadd dkcas dksync rngk rngc rngd rngdSt apndSet apndRow
    mark fold stats cutmStart cutmRel tkbp tkbpClr frz thaw pwrq quote quoteExt mxb mxbPb mxsw mxmm mxmmPa mxaccClr mxaccQry
    mxaccOuts mxaccOutp mxsort mxgang mxwait mldg mlchk mlchkRec mlfree mlrun mlcut mxbLoad mxswExchange mxmmExecute
    mxaccExecute mxsortExecute mxgangExecute meldRun mlfreeComplete mlcutExecute elemNop const sink copy elemAdd elemSub
    elemMul fma fms nfma elemMin elemMax abs neg elemAnd elemOr elemXor not elemShl elemShr elemSra clamp cmpeq cmplt cmple
    sel exp2 log2 rcp rsq cvt qblk dqblk tosd fromsd bpln rsum rmax rmin bcast shuf elemRotl sld swap steer merge carry
    invar lgen agen agch mld mst matom pin pout cseq cpipe cstrm eot eos tstm pqc smpl acpt rnge stcnt stadd elementMark
    wavefrontSwapUnmarked drainGatedSwap gloadComplete firingStart actorDrain wrptrWrite rdptrMirror memoryActorFiring
    modeTokenAccept sequencerStop modeXpkgTimeout translationWalk homePerform kittyResend kittyRelease kittyDecline
    pageInvalidate rangeEntryWrite remapDescriptorWrite queueEntryComplete sourceReleased localAtomicTimeout
    queueWaitTimeout streamStart streamBurst streamSourceReleased streamVisible swaitTimeout mxwaitTimeout gridWatchdog
    portWaitTimeout barrierArrival launchRequest imageValidation placementTimeout graphAdmit shadowReport statusTimeout
    commitSwap packageReport xpkgGo xpkgAbort xpkgReportTimeout peerHalt freezeRequest freezeWave freezeComplete
    freezeTimeout graphStop contextCreate contextHalt contextResume noticeDelivery cutMarker cutTimeout dumpStart
    dumpComplete dumpEngineFault pendingRemoteExpiry scrubStep hbmRowSpare streamDataSlot windowWriteSlot deckAtomicSlot
    memoryActorResponseSlot noticeSlot creditSlot refreshCopySlot returnRecordSlot frameBoundary replicaApply calendarWrite
    dkwinRangeWrite cardSleep cardWake wakeSequenceTimeout sensorSample thermalRepeat sensorSilent edgeViaOvercurrent
    supplyDroop moduleLimitWrite powerGate coreWakeComplete wakeTimeout remoteRequest remoteResponse remoteTimeout
    vcTokenArrival vcCredit portRetrain portRetrained portDown flitUncorrectable domainEnumeration ingressWrite
    creditWriteback openRecord dataRecord closeRecord modeRecord ingressDrainAccepted ingressEn ingressRst egressEn
    egressRst rdposWrite graphStoreEnable graphStoreAccess egressRecordWrite completionWordWrite pcieLinkDown registerWrite
    coldReset quoteCapture quoteExtendApply getVersion getCapabilities negotiateAlgorithms getDigests getCertificate
    challenge getMeasurements spdmUnsupportedRequest victimMinRunTime contextDestroy unassignedEncoding
    instructionFetchFault i

end Sys2Proof.Laws.RoundTrip

namespace Sys2Proof

/-- Settles O57, by the cases of the instruction. -/
theorem encodingsReadBack : Obligations.EncodingsReadBack := Laws.RoundTrip.statement

end Sys2Proof
end


section
/-! The scalar instructions of the CP: their values, and O1 (R322, R323). -/

namespace Sys2Proof

/-! ### Compares (R321, R322) -/

theorem ltS_eq (x y : Word) : ltS x y = decide (x.toInt < y.toInt) := rfl

theorem ltU_eq (x y : Word) : ltU x y = decide (x.toNat < y.toNat) := rfl

/-- The word a compare writes (R322). -/
theorem flagWord_eq (b : Bool) : flagWord b = if b = true then 1 else 0 := rfl

namespace Machine

/-! ### The values of the register operations (R322, R323) -/

theorem mul_eq_ofNat (x y : Word) : x * y = BitVec.ofNat 64 (x.toNat * y.toNat) := rfl

/-- The upper half of the product of two numbers of 64 bits (R322). -/
theorem extract_ofInt (z : Int) : (BitVec.ofInt 128 z).extractLsb' 64 64 = BitVec.ofInt 64 (z / 2 ^ 64) := by
  refine BitVec.eq_of_toNat_eq ?_
  rw [BitVec.extractLsb'_toNat, BitVec.toNat_ofInt, BitVec.toNat_ofInt, Nat.shiftRight_eq_div_pow]
  omega

theorem mulhVal_eq (x y : Word) :
    mulhVal x y = (x.signExtend 128 * y.signExtend 128 : BitVec 128).extractLsb' 64 64 := by
  rw [BitVec.signExtend, BitVec.signExtend, ← BitVec.ofInt_mul, extract_ofInt, mulhVal]

theorem mulhuVal_eq (x y : Word) :
    mulhuVal x y = (x.zeroExtend 128 * y.zeroExtend 128 : BitVec 128).extractLsb' 64 64 := by
  have hx := x.isLt
  have hy := y.isLt
  have hp : x.toNat * y.toNat < 2 ^ 64 * 2 ^ 64 := Nat.mul_lt_mul'' hx hy
  refine BitVec.eq_of_toNat_eq ?_
  simp only [mulhuVal, BitVec.extractLsb'_toNat, BitVec.toNat_mul, BitVec.toNat_setWidth, BitVec.toNat_ofNat,
    Nat.shiftRight_eq_div_pow, Nat.mod_eq_of_lt (Nat.lt_trans hx (by decide : 2 ^ 64 < 2 ^ 128)),
    Nat.mod_eq_of_lt (Nat.lt_trans hy (by decide : 2 ^ 64 < 2 ^ 128)),
    Nat.mod_eq_of_lt (show x.toNat * y.toNat < 2 ^ 128 from hp)]

/-- The shift amount y[5:0] (R322). -/
@[simp] theorem amount_eq (y : Word) : amount y = y.toNat % 64 := rfl

theorem minVal_eq (x y : Word) : minVal x y = if x.toInt ≤ y.toInt then x else y := by
  simp only [minVal, ltS_eq, decide_eq_true_eq, ← Int.not_le, ite_not]

theorem maxVal_eq (x y : Word) : maxVal x y = if x.toInt ≤ y.toInt then y else x := by
  simp only [maxVal, ltS_eq, decide_eq_true_eq]
  by_cases h : x.toInt < y.toInt
  · rw [if_pos h, if_pos (Int.le_of_lt h)]
  · by_cases he : x.toInt ≤ y.toInt
    · rw [if_neg h, if_pos he, BitVec.eq_of_toInt_eq (show x.toInt = y.toInt by omega)]
    · rw [if_neg h, if_neg he]

theorem minuVal_eq (x y : Word) : minuVal x y = if x.toNat ≤ y.toNat then x else y := by
  simp only [minuVal, ltU_eq, decide_eq_true_eq, ← Nat.not_le, ite_not]

theorem maxuVal_eq (x y : Word) : maxuVal x y = if x.toNat ≤ y.toNat then y else x := by
  simp only [maxuVal, ltU_eq, decide_eq_true_eq]
  by_cases h : x.toNat < y.toNat
  · rw [if_pos h, if_pos (Nat.le_of_lt h)]
  · by_cases he : x.toNat ≤ y.toNat
    · rw [if_neg h, if_pos he, BitVec.eq_of_toNat_eq (show x.toNat = y.toNat by omega)]
    · rw [if_neg h, if_neg he]

/-! ### Division (R323) -/

/-- The two operands of signed overflow (R323). -/
theorem overflow_iff (x y : Word) :
    (x = 0x8000000000000000#64 ∧ y = BitVec.allOnes 64) ↔ (x.toInt = -(2 ^ 63) ∧ y.toInt = -1) := by
  rw [← BitVec.toInt_inj, ← BitVec.toInt_inj]
  rfl

/-- Without a zero divisor and without overflow the quotient is exact, truncated towards zero (R323). -/
theorem divVal_exact {x y : Word} (hy : y ≠ 0) (ho : ¬(x.toInt = -(2 ^ 63) ∧ y.toInt = -1)) :
    (divVal x y).toInt = x.toInt.tdiv y.toInt := by
  have hne := mt (overflow_iff x y).1 ho
  have hq : (x.sdiv y).toInt = x.toInt.tdiv y.toInt := BitVec.toInt_sdiv_of_ne_or_ne x y (not_and_or.1 hne)
  rw [divVal, if_neg hy, if_neg hne, ← hq, BitVec.ofInt_toInt]

/-- The remainder of such a division takes the sign of the dividend (R323). -/
theorem remVal_exact {x y : Word} (hy : y ≠ 0) (ho : ¬(x.toInt = -(2 ^ 63) ∧ y.toInt = -1)) :
    (remVal x y).toInt = x.toInt.tmod y.toInt := by
  rw [remVal, if_neg hy, if_neg (mt (overflow_iff x y).1 ho), Int.mul_comm, ← Int.tmod_def, ← BitVec.toInt_srem, BitVec.ofInt_toInt]

/-- The quotient and the remainder of a division without overflow (R323). -/
theorem division_exact {x y : Word} (hy : y ≠ 0) (ho : ¬(x.toInt = -(2 ^ 63) ∧ y.toInt = -1)) :
    x.toInt = (divVal x y).toInt * y.toInt + (remVal x y).toInt ∧ (remVal x y).toInt.natAbs < y.toInt.natAbs ∧
      (0 ≤ x.toInt → 0 ≤ (remVal x y).toInt) ∧ (x.toInt ≤ 0 → (remVal x y).toInt ≤ 0) := by
  have hy0 : y.toInt ≠ 0 := fun h => hy (BitVec.eq_of_toInt_eq h)
  rw [divVal_exact hy ho, remVal_exact hy ho]
  refine ⟨(Int.tdiv_mul_add_tmod ..).symm, ?_, Int.tmod_nonneg _, fun hx => ?_⟩
  · rw [Int.natAbs_tmod]
    exact Nat.mod_lt _ (Int.natAbs_pos.2 hy0)
  · have hneg := Int.tmod_nonneg y.toInt (Int.neg_nonneg_of_nonpos hx)
    rw [Int.neg_tmod] at hneg
    omega

/-- Settles O1: each result is the value of its operation. -/
theorem aluResults : Obligations.AluResults := by
  constructor
  · intro s d a b x y n done
    refine ⟨rfl, rfl, rfl, congrArg done (mulhVal_eq x y), congrArg done (mulhuVal_eq x y), rfl, rfl, rfl, rfl, rfl, rfl, rfl, rfl,
      congrArg done (minVal_eq x y), congrArg done (maxVal_eq x y), congrArg done (minuVal_eq x y), congrArg done (maxuVal_eq x y),
      congrArg done ?_, congrArg done ?_, congrArg done ?_⟩ <;>
      simp only [flagWord_eq, ltS_eq, ltU_eq, decide_eq_true_eq, beq_iff_eq] <;> rfl
  · intro s d a b x y done
    refine ⟨fun hy => ?_, fun hx hm => ?_, fun hy => ?_, fun hy ho => ?_⟩
    · exact ⟨congrArg done (if_pos hy), congrArg done (if_pos hy), congrArg done (if_pos hy), congrArg done (if_pos hy)⟩
    · have hy : y ≠ 0 := by rintro h; rw [h] at hm; exact absurd hm (by decide)
      have ho := (overflow_iff x y).2 ⟨hx, hm⟩
      exact ⟨congrArg done ((if_neg hy).trans (if_pos ho)), congrArg done ((if_neg hy).trans (if_pos ho))⟩
    · refine ⟨congrArg done ((if_neg hy).trans ?_), congrArg done ((if_neg hy).trans ?_)⟩
      · rw [← BitVec.toNat_udiv, BitVec.ofNat_toNat, BitVec.setWidth_eq]
      · rw [← BitVec.toNat_umod, BitVec.ofNat_toNat, BitVec.setWidth_eq]
    · exact ⟨_, _, rfl, rfl, division_exact hy ho⟩

end Machine
end Sys2Proof
end

section
/-! Immediate and bit operations, branches and jumps, and the frame of what only computes: O2, O3, O4 (R289, R322 to R328). -/

namespace Sys2Proof.Machine

/-! ### Immediates (R325, R326) -/

/-- The shift amount of an immediate that the encoding admits (R325). -/
theorem amount_zext64 {i : BitVec 16} (h : i.toNat < 64) : amount (zext64 i) = i.toNat := by
  rw [amount_eq, zext64, BitVec.toNat_setWidth, Nat.mod_eq_of_lt (Nat.lt_of_lt_of_le h (by decide)), Nat.mod_eq_of_lt h]

theorem luiVal_eq (i : BitVec 16) : luiVal i = (BitVec.ofNat 32 (i.toNat * 65536)).signExtend 64 := by
  refine congrArg (BitVec.signExtend 64) (BitVec.eq_of_toNat_eq ?_)
  have hi := i.isLt
  have h0 : (0 : BitVec 16).toNat = 0 := rfl
  rw [BitVec.toNat_append, h0, BitVec.toNat_ofNat, Nat.or_zero, Nat.shiftLeft_eq]
  omega

theorem lixVal_eq (x : Word) (w : BitVec 32) :
    lixVal x w = BitVec.ofNat 64 (x.toNat % 2 ^ 32 * 2 ^ 32 + w.toNat) := by
  refine BitVec.eq_of_toNat_eq ?_
  have hw := w.isLt
  rw [lixVal, BitVec.toNat_append, BitVec.extractLsb'_toNat, Nat.shiftRight_zero, BitVec.toNat_ofNat,
    ← Nat.shiftLeft_add_eq_or_of_lt hw, Nat.shiftLeft_eq]
  omega

/-! ### Counts of bits (R324) -/

/-- The count of leading zeros, by its place and the zeros above it. -/
theorem clzFrom_spec (x : Word) (n : Nat) :
    clzFrom x n ≤ n ∧ (clzFrom x n < n → x.getLsbD (n - 1 - clzFrom x n) = true) ∧
      ∀ i, i < clzFrom x n → x.getLsbD (n - 1 - i) = false := by
  induction n with
  | zero => simp [clzFrom]
  | succ n ih =>
    by_cases hb : x.getLsbD n = true
    · simp [clzFrom, hb]
    · obtain ⟨hle, hone, hzero⟩ := ih
      rw [clzFrom, if_neg hb]
      refine ⟨by omega, fun h => ?_, fun i hi => ?_⟩
      · rw [show n + 1 - 1 - (1 + clzFrom x n) = n - 1 - clzFrom x n by omega]
        exact hone (by omega)
      · cases i with
        | zero => simpa using hb
        | succ i =>
          rw [show n + 1 - 1 - (i + 1) = n - 1 - i by omega]
          exact hzero i (by omega)

theorem onesBelow_eq (x : Word) (n : Nat) : onesBelow x n = (List.range n).countP fun i => x.getLsbD i := by
  induction n with
  | zero => rfl
  | succ n ih =>
    rw [onesBelow, ih, List.range_succ, List.countP_append, Nat.add_comm]
    simp

theorem getLsbD_brevVal (x : Word) {i : Nat} (h : i < 64) : (brevVal x).getLsbD i = x.getLsbD (63 - i) := by
  rw [brevVal, BitVec.getLsbD_reverse, BitVec.getMsbD]
  simp [h]

/-- The count of trailing zeros, by its place and the zeros below it. -/
theorem ctz_spec (x : Word) :
    clzFrom (brevVal x) 64 ≤ 64 ∧ (clzFrom (brevVal x) 64 < 64 → x.getLsbD (clzFrom (brevVal x) 64) = true) ∧
      ∀ i, i < clzFrom (brevVal x) 64 → x.getLsbD i = false := by
  obtain ⟨hle, hone, hzero⟩ := clzFrom_spec (brevVal x) 64
  refine ⟨hle, fun h => ?_, fun i h => ?_⟩
  · have hb := hone h
    rw [getLsbD_brevVal _ (by omega)] at hb
    rwa [show 63 - (64 - 1 - clzFrom (brevVal x) 64) = clzFrom (brevVal x) 64 by omega] at hb
  · have hb := hzero i h
    rw [getLsbD_brevVal _ (by omega)] at hb
    rwa [show 63 - (64 - 1 - i) = i by omega] at hb

/-! ### Bit fields (R324) -/

/-- A field as a quotient and a remainder (R4). -/
theorem fld_eq {n : Nat} (x : BitVec n) (hi lo : Nat) : fld x hi lo = x.toNat / 2 ^ lo % 2 ^ (hi + 1 - lo) := by
  rw [fld, bitsOf, Nat.shiftRight_eq_div_pow]

/-- The mask of a field: its len lowest bits. -/
theorem getLsbD_lenMask (y : Word) {i : Nat} (h : i < 64) : (lenMask y).getLsbD i = decide (i < y.toNat / 256 % 64 + 1) := by
  rw [lenMask, BitVec.getLsbD_ofNat, Nat.testBit_two_pow_sub_one, fld_eq]
  simp [h]

theorem getLsbD_bextVal (x y : Word) {i : Nat} (h : i < 64) :
    (bextVal x y).getLsbD i = (decide (i < y.toNat / 256 % 64 + 1) && x.getLsbD (y.toNat % 64 + i)) := by
  rw [bextVal, BitVec.getLsbD_and, BitVec.getLsbD_ushiftRight, getLsbD_lenMask y h, amount_eq, Bool.and_comm]

theorem getLsbD_binsVal (old x y : Word) {i : Nat} (h : i < 64) :
    (binsVal old x y).getLsbD i =
      if y.toNat % 64 ≤ i ∧ i < y.toNat % 64 + (y.toNat / 256 % 64 + 1) then x.getLsbD (i - y.toNat % 64)
      else old.getLsbD i := by
  simp only [binsVal, BitVec.getLsbD_or, BitVec.getLsbD_and, BitVec.getLsbD_not, BitVec.getLsbD_shiftLeft, amount_eq, h,
    getLsbD_lenMask y (show i - y.toNat % 64 < 64 by omega)]
  by_cases hp : y.toNat % 64 ≤ i
  · by_cases hl : i < y.toNat % 64 + (y.toNat / 256 % 64 + 1)
    · simp [hp, hl, Nat.not_lt.2 hp, show i - y.toNat % 64 < y.toNat / 256 % 64 + 1 by omega]
    · simp [hl, Nat.not_lt.2 hp, show ¬ i - y.toNat % 64 < y.toNat / 256 % 64 + 1 by omega]
  · simp [hp, Nat.not_le.1 hp]

theorem getLsbD_sextVal (x y : Word) {i : Nat} (h : i < 64) :
    (sextVal x y).getLsbD i = x.getLsbD (min i (y.toNat % 64)) := by
  have hb : y.toNat % 64 < 64 := Nat.mod_lt _ (by decide)
  rw [sextVal, amount_eq, BitVec.getLsbD_sshiftRight, BitVec.msb_eq_getLsbD_last, BitVec.getLsbD_shiftLeft,
    BitVec.getLsbD_shiftLeft]
  by_cases hi : 63 - y.toNat % 64 + i < 64
  · simp [hi, Nat.not_le.2 h, show min i (y.toNat % 64) = i by omega]
  · simp [hi, Nat.not_le.2 h, show min i (y.toNat % 64) = y.toNat % 64 by omega,
      show ¬ 63 < 63 - y.toNat % 64 by omega, show 63 - (63 - y.toNat % 64) = y.toNat % 64 by omega]

/-- Settles O2: each result is the value of its operation, bit by bit for the bit operations. -/
theorem immediateAndBitResults : Obligations.ImmediateAndBitResults := by
  constructor
  · intro s d a i w x done
    refine ⟨rfl, rfl, rfl, rfl, fun hi => ?_, congrArg done ?_, congrArg done ?_, ?_, ?_⟩
    · simp only [exec_shli, exec_shri, exec_srai, execShli, execShri, execSrai, aluRI, shlVal, shrVal, sraVal, amount_zext64 hi,
        finish_eq]
      exact ⟨rfl, rfl, rfl⟩
    · have hi : (sext64 i).toInt = i.toInt := BitVec.toInt_signExtend_of_le (by decide)
      simp only [flagWord_eq, ltS_eq, decide_eq_true_eq, hi]
      rfl
    · have hi : (zext64 i).toNat = i.toNat := BitVec.toNat_setWidth_of_le (by decide)
      simp only [flagWord_eq, ltU_eq, decide_eq_true_eq, hi]
      rfl
    · rw [exec_lui, execLui, luiVal_eq]
      rfl
    · rw [exec_lix, execLix, lixVal_eq]
  · intro s d a b x y old pos len done
    refine ⟨⟨_, rfl, clzFrom_spec x 64⟩, ⟨_, rfl, ctz_spec x⟩, ?_,
      ⟨_, rfl, fun i => getLsbD_brevVal x⟩, ⟨_, rfl, fun i => getLsbD_bextVal x y⟩, ⟨_, rfl, fun i => getLsbD_binsVal old x y⟩,
      ⟨_, rfl, fun i => getLsbD_sextVal x y⟩⟩
    rw [exec_popc, execPopc, aluR, popcVal, onesBelow_eq, finish_eq]

/-! ### Branches and jumps (R327, R328) -/

/-- The address of a branch, with the offset's factor before it. -/
theorem branchTarget_eq {n : Nat} (pc : Nat) (o : BitVec n) :
    branchTarget pc o = (BitVec.ofNat 64 pc + 4 * o.signExtend 64).toNat := by
  rw [branchTarget, BitVec.mul_comm]
  rfl

/-- A branch whose test decides a proposition (R327). -/
theorem branch_eq (taken : Word → Word → Bool) (a b : Reg) (o : BitVec 16) (s : State) (c : Prop) [Decidable c]
    (h : taken (s.reg a) (s.reg b) = decide c) :
    branch taken a b o s =
      .next (if c then s.goto (BitVec.ofNat 64 s.cur.pc + 4 * o.signExtend 64).toNat else s.goto (s.cur.pc + 4)) := by
  rw [branch, h, branchTarget_eq]
  by_cases hc : c
  · simp only [hc, decide_true, if_true]
  · simp only [hc, decide_false, if_false]
    rfl

/-- Settles O3: a branch by what its test decides, a jump by its target. -/
theorem branchAndJumpTargets : Obligations.BranchAndJumpTargets := by
  intro s d a b o j x y pc go
  have hbge : (!ltS x y) = decide (y.toInt ≤ x.toInt) := by rw [ltS_eq, ← decide_not, decide_eq_decide, Int.not_lt]
  have hbgeu : (!ltU x y) = decide (y.toNat ≤ x.toNat) := by rw [ltU_eq, ← decide_not, decide_eq_decide, Nat.not_lt]
  have hbne : (x != y) = decide (x ≠ y) := by rw [bne, beq_eq_decide, decide_not]
  refine ⟨branch_eq _ _ _ _ _ _ (beq_eq_decide ..), branch_eq _ _ _ _ _ _ hbne, branch_eq _ _ _ _ _ _ rfl,
    branch_eq (fun x y => !ltS x y) _ _ _ _ _ hbge, branch_eq _ _ _ _ _ _ rfl,
    branch_eq (fun x y => !ltU x y) _ _ _ _ _ hbgeu, ?_, fun h => ?_, fun h => ?_⟩
  · rw [exec_jal, execJal, branchTarget_eq]
  · exact if_neg (not_not_intro h)
  · exact if_pos h

/-! ### What computing leaves (R289) -/

/-- Two states with the same memory. -/
theorem sameMemory_of_eq {s t : State} (hm : t.mem = s.mem) (hh : t.host = s.host) : SameMemory s t :=
  ⟨fun a => by rw [hm], by rw [hh]⟩

/-- The frame that O4 states. -/
def ComputesOnly (s t : State) (d : Reg) : Prop := Computed s t d ∧ SameMemory s t ∧ t.reg 0 = 0

/-- A new pc leaves everything else of the machine. -/
theorem computesOnly_goto (s : State) (p : Nat) : ComputesOnly s (s.goto p) 0 := by
  have hk : (s.goto p).cur = { s.cur with pc := p, waitSince := none } := State.cur_goto ..
  refine ⟨⟨⟨_, rfl⟩, by rw [hk]; rfl, fun r _ => ?_⟩, sameMemory_of_eq rfl rfl, rfl⟩
  rw [State.reg, hk]
  rfl

/-- A register written leaves everything else of the machine. -/
theorem computesOnly_setReg (s : State) (d : Reg) (v : Word) : ComputesOnly s (s.setReg d v) d := by
  refine ⟨⟨⟨_, rfl⟩, ?_, fun r hr => ?_⟩, sameMemory_of_eq rfl rfl, rfl⟩
  · rw [State.cur_setReg]
    by_cases hd : d = 0
    · rw [hd, Core.setReg_zero]
    · rw [Core.setReg, if_neg hd]
      rfl
  · rw [State.reg, State.cur_setReg, Core.reg_setReg, if_neg hr]
    by_cases h0 : r = 0
    · rw [if_pos h0, h0]; rfl
    · rw [if_neg h0]; rfl

/-- A register written and a new pc leave everything else of the machine. -/
theorem computesOnly_setReg_goto (s : State) (d : Reg) (v : Word) (p : Nat) : ComputesOnly s ((s.setReg d v).goto p) d := by
  obtain ⟨⟨-, hrest, hregs⟩, -, -⟩ := computesOnly_setReg s d v
  obtain ⟨⟨-, hrest', hregs'⟩, -, -⟩ := computesOnly_goto (s.setReg d v) p
  refine ⟨⟨⟨_, State.setCore_setCore ..⟩, hrest'.trans hrest, fun r hr => ?_⟩, sameMemory_of_eq rfl rfl, rfl⟩
  by_cases h0 : r = 0
  · rw [h0]; rfl
  · rw [hregs' r h0, hregs r hr]

theorem computesOnly_advance {s t : State} {d : Reg} {v : Word} {n : Nat}
    (h : (Host.Outcome.next ((s.setReg d v).advance n) : Result) = .next t) : ComputesOnly s t d := by
  cases h
  exact computesOnly_setReg_goto s d v _

/-- A branch leaves everything but the pc and the record of a wait. -/
theorem computesOnly_branch {taken : Word → Word → Bool} {a b : Reg} {o : BitVec 16} {s t : State}
    (h : branch taken a b o s = .next t) : ComputesOnly s t 0 := by
  have hk (p : Nat) : ComputesOnly s (s.goto p) 0 := computesOnly_goto s p
  unfold branch at h
  split at h <;> cases h
  · exact hk _
  · exact hk _

/-- Settles O4: a register operation writes its register and goes on, a branch and a jump go to their target. -/
theorem computingInstructionFrame : Obligations.ComputingInstructionFrame := by
  intro s t i d hd h hj
  cases i
  all_goals cases hd
  case jalr a o =>
    cases (if_neg (not_not_intro (hj d a o rfl))).symm.trans h
    exact computesOnly_setReg_goto ..
  case jal o =>
    cases h
    exact computesOnly_setReg_goto ..
  case bge => exact computesOnly_branch (taken := fun x y => !ltS x y) h
  case bgeu => exact computesOnly_branch (taken := fun x y => !ltU x y) h
  case beq | bne | blt | bltu => exact computesOnly_branch h
  all_goals exact computesOnly_advance h

end Sys2Proof.Machine
end

section
/-! Privileged commands and the spec's words: O10, O56 (R302, R305, R348). -/

namespace Sys2Proof.Machine

/-- Settles O10: each of them asks for its mode before anything else. -/
theorem privilegedCommands : Obligations.PrivilegedCommands := by
  intro s a b q
  constructor
  · intro hu i hi
    simp only [List.mem_cons, List.not_mem_nil, or_false] at hi
    rcases hi with rfl | rfl | rfl | rfl | rfl | rfl | rfl | rfl | rfl | rfl <;>
      simp only [exec_eret, exec_halt, exec_rwset, exec_rwrst, exec_cutmRel, exec_tkbp, exec_tkbpClr, exec_frz, exec_thaw,
        exec_quote, execEret, execHalt, execRwset, execRwrst, execCutmRel, execTkbp, execTkbpClr, execFrz, execThaw, execQuote,
        privileged_of_user hu]
  · intro hm
    exact if_neg (by simpa using hm)

/-- The word after a one-word instruction, and the end of the code region, do not matter (R290). -/
theorem decodeCp_of_oneWord (w w2 : Word32) (tail : Bool) (h : (majorOf w).toNat ≠ 0x3F) :
    decodeCp w w2 tail = decodeCp w 0 false := by
  by_cases h0 : w = 0
  · rw [decodeCp, decodeCp, if_pos h0, if_pos h0]
  by_cases h1 : w = BitVec.allOnes 32
  · rw [decodeCp, decodeCp, if_neg h0, if_neg h0, if_pos h1, if_pos h1]
  rw [decodeCp, decodeCp, if_neg h0, if_neg h0, if_neg h1, if_neg h1]
  generalize (majorOf w).toNat = m at h
  split
  case h_48 => exact absurd rfl h
  all_goals rfl

/-- One-word instructions of the spec's listings, each with the instruction beside it (R302). -/
def listedWords : List (Word32 × Instr) :=
  [(0x98410000#32, Instr.ldd 2 1 0), (0x04420001, .addi 2 2 1), (0xAC410008, .std 2 1 8),
    (0xC8032054, .aadd 3 4 0 .rel .deck .double), (0xD4A00001, .waitqVis 5 0), (0xD4C00002, .popq 6 0),
    (0x44C0FFFA, .bne 6 0 0xFFFA), (0x00831803, .mul 4 3 3), (0x00E60007, .divu 7 6 0),
    (0xC0040082, .ldq 4 1 .rlx .core .word), (0xC4083903, .stq 8 7 2 .rlx .core .double), (0xE8A00701, .srd 5 0x701),
    (0xEC060702, .swr 6 0x702), (0xE4000007, .trap 7), (0x74010500, .apndSet 1 0), (0x74620508, .apndRow 3 2 0),
    (0x74020B80, .bari 2 1 0), (0x740303C0, .barw 3), (0x74000040, .ggo), (0x78011040, .mxmm 1 2 0),
    (0x78410200, .mldg 2 1), (0x78032260, .mlrun 3 4 0)]

theorem decodeCp_listedWords : ∀ p ∈ listedWords, (majorOf p.1).toNat ≠ 0x3F ∧ decodeCp p.1 0 false = .ok p.2 := by
  decide +kernel

/-- Settles O56: each word evaluates to its instruction, and a one-word instruction does not see what follows. -/
theorem decodesSpecWords : Obligations.DecodesSpecWords := by
  refine ⟨fun p hp w2 tail => ?_, by decide +kernel, by decide +kernel, by decide +kernel, by decide +kernel, by decide +kernel,
    fun _ _ => rfl, fun _ _ => rfl⟩
  obtain ⟨hone, hdec⟩ := decodeCp_listedWords p hp
  rw [decodeCp_of_oneWord _ _ _ hone, hdec]

end Sys2Proof.Machine
end

section
/-! Direct loads and stores of the CP: O5, O6 (R185, R186, R329, R330). -/

namespace Sys2Proof.Machine

open State

/-! ### Where a direct address leads (R185, R186) -/

theorem directRange_tile {ea : Nat} (h : ea < tileSize) : directRange ea = some (.tile ea) := if_pos h

theorem directRange_replica {ea : Nat} (h : 0x1F0000000000 ≤ ea ∧ ea < 0x1F0000100000) :
    directRange ea = some (.replica (ea - 0x1F0000000000)) := by
  rw [directRange, if_neg (by rw [tileSize]; omega), if_pos h]

theorem directRange_none {ea : Nat} (ht : ¬ ea < tileSize) (hr : ¬(0x1F0000000000 ≤ ea ∧ ea < 0x1F0000100000)) :
    directRange ea = none := by
  rw [directRange, if_neg ht, if_neg hr]

/-- The alignment check of a direct access that is aligned, or need not be. -/
theorem aligned_passes {aligned : Bool} {ea n : Nat} (h : aligned = true → ea % n = 0) : (aligned && decide (ea % n ≠ 0)) = false := by
  cases aligned with
  | false => rfl
  | true => simp [h rfl]

/-! ### Loads -/

section
variable {s : State} {n ea : Nat} {aligned : Bool} {ext : Nat → Word} {d a : Reg} {off : Word} (hea : effAddr (s.reg a) off = ea)
include hea

theorem directLoad_done {key : Nat} (hs : Clear s) (hn : 0 < n) (hal : aligned = true → ea % n = 0) (hat : DirectAt s ea n key) :
    directLoad n aligned ext d a off s = finish s d (ext (ofLe (s.read key n))) := by
  have hal' := aligned_passes hal
  rw [directLoad, afterAcquire_clear hs.1]
  simp only [hea]
  obtain ⟨hin, rfl⟩ | ⟨o, ho, hin, hok, hst, rfl⟩ := hat
  · have hr := directRange_tile (show ea < tileSize by omega)
    simp only [loadFault, hr, hal', directEndOk, hin, directKey, ueAt_of_unmarked hs.2, correct_of_unmarked hs.2]
    rfl
  · have hr := directRange_replica (show 0x1F0000000000 ≤ ea ∧ ea < 0x1F0000100000 by omega)
    rw [show ea - 0x1F0000000000 = o by omega] at hr
    simp only [loadFault, hr, hal', directEndOk, show o + n ≤ 0x100000 from hin, hok, hst, directKey, ueAt_of_unmarked hs.2,
      correct_of_unmarked hs.2, Bool.and_false]
    rfl

/-- A direct load that a check refuses traps with the address (R329). -/
theorem directLoad_traps {cause : Nat} (ha : acquireHeld s.cur = false) (hf : loadFault s ea n aligned = some cause) :
    directLoad n aligned ext d a off s = .next (s.trap cause ea) := by
  rw [directLoad, afterAcquire_clear ha]
  simp only [hea, hf]

end

theorem toNat_append_byte {w : Nat} (v : BitVec w) (b : Byte) : (v ++ b).toNat = v.toNat * 256 + b.toNat := by
  rw [BitVec.toNat_append, ← Nat.shiftLeft_add_eq_or_of_lt b.isLt, Nat.shiftLeft_eq]

theorem ofLe_lt (bs : List Byte) : ofLe bs < 256 ^ bs.length := by
  induction bs with
  | nil => exact Nat.one_pos
  | cons b bs ih =>
    have hb := b.isLt
    rw [ofLe, List.length_cons, Nat.pow_succ]
    omega

section
variable (s : State) (key : Nat)

/-! The bytes that a load reads, as the numbers of 8, 16, 32 and 64 bits they make (R5). -/

theorem ofLe_read_one : BitVec.ofNat 8 (ofLe (s.read key 1)) = memGet s.mem (key + 0) := by
  simp [State.read, memRead, ofLe]

theorem ofLe_read_two : BitVec.ofNat 16 (ofLe (s.read key 2)) = (memGet s.mem (key + 1) ++ memGet s.mem (key + 0) : BitVec 16) := by
  refine BitVec.eq_of_toNat_eq ?_
  simp only [State.read, memRead, ofLe, toNat_append_byte, BitVec.toNat_ofNat, Nat.add_zero]
  omega

theorem ofLe_read_four : BitVec.ofNat 32 (ofLe (s.read key 4)) =
    (memGet s.mem (key + 3) ++ memGet s.mem (key + 2) ++ memGet s.mem (key + 1) ++ memGet s.mem (key + 0) : BitVec 32) := by
  refine BitVec.eq_of_toNat_eq ?_
  simp only [State.read, memRead, ofLe, toNat_append_byte, BitVec.toNat_ofNat, Nat.add_assoc, Nat.reduceAdd, Nat.add_zero]
  omega

theorem ofLe_read_eight : BitVec.ofNat 64 (ofLe (s.read key 8)) =
    (memGet s.mem (key + 7) ++ memGet s.mem (key + 6) ++ memGet s.mem (key + 5) ++ memGet s.mem (key + 4) ++
      memGet s.mem (key + 3) ++ memGet s.mem (key + 2) ++ memGet s.mem (key + 1) ++ memGet s.mem (key + 0) : BitVec 64) := by
  refine BitVec.eq_of_toNat_eq ?_
  simp only [State.read, memRead, ofLe, toNat_append_byte, BitVec.toNat_ofNat, Nat.add_assoc, Nat.reduceAdd, Nat.add_zero]
  omega

theorem ofLe_read_lt (n : Nat) : ofLe (s.read key n) < 256 ^ n := by
  have h := ofLe_lt (s.read key n)
  have hlen : (s.read key n).length = n := by rw [State.read, memRead_eq, List.length_map, List.length_range]
  rwa [hlen] at h

end

/-- A number of n bits, extended with zeros. -/
theorem ofNat_eq_zeroExtend {w x : Nat} {v : BitVec w} (hx : x < 2 ^ w) (h : BitVec.ofNat w x = v) :
    BitVec.ofNat 64 x = v.zeroExtend 64 := by
  subst h
  exact BitVec.eq_of_toNat_eq (by simp [Nat.mod_eq_of_lt hx])

/-- Settles O5: each load by its checks, then by the bytes of its width. -/
theorem directLoadResults : Obligations.DirectLoadResults := by
  intro s d a i j sc key ea la b done hs
  have lt1 : ofLe (s.read key 1) < 2 ^ 8 := ofLe_read_lt s key 1
  have lt2 : ofLe (s.read key 2) < 2 ^ 16 := ofLe_read_lt s key 2
  have lt4 : ofLe (s.read key 4) < 2 ^ 32 := ofLe_read_lt s key 4
  have z1 := ofNat_eq_zeroExtend lt1 (ofLe_read_one s key)
  have z2 := ofNat_eq_zeroExtend lt2 (ofLe_read_two s key)
  have z4 := ofNat_eq_zeroExtend lt4 (ofLe_read_four s key)
  have ld {n : Nat} {ext : Nat → Word} (hn : 0 < n) (hat : DirectAt s ea n key) :
      directLoad n false ext d a (i.signExtend 64) s = done (ext (ofLe (s.read key n))) :=
    directLoad_done rfl hs hn nofun hat
  have lda {n : Nat} (hn : 0 < n) (hal : la % n = 0) (hat : DirectAt s la n key) :
      directLoad n true (BitVec.ofNat 64) d a (j.signExtend 64) s = done (BitVec.ofNat 64 (ofLe (s.read key n))) :=
    directLoad_done rfl hs hn (fun _ => hal) hat
  refine ⟨fun h => ⟨?_, ?_⟩, fun h => ⟨?_, ?_⟩, fun h => ⟨?_, ?_⟩, fun h => ?_, fun h => ?_, fun hal h => ?_, fun hal h => ?_,
    fun hal h => ?_⟩
  · rw [exec_ldb, execLdb, sext64, ld (by decide) h, ofLe_read_one, sext64]
  · rw [exec_ldbu, execLdbu, sext64, ld (by decide) h, z1]
  · rw [exec_ldh, execLdh, sext64, ld (by decide) h, ofLe_read_two, sext64]
  · rw [exec_ldhu, execLdhu, sext64, ld (by decide) h, z2]
  · rw [exec_ldw, execLdw, sext64, ld (by decide) h, ofLe_read_four, sext64]
  · rw [exec_ldwu, execLdwu, sext64, ld (by decide) h, z4]
  · rw [exec_ldd, execLdd, sext64, ld (by decide) h, ofLe_read_eight]
  · rw [exec_lda, execLda, sext64, widthBytes, lda (by decide) (Nat.mod_one _) h, z1]
  · rw [exec_lda, execLda, sext64, widthBytes, lda (by decide) hal h, z2]
  · rw [exec_lda, execLda, sext64, widthBytes, lda (by decide) hal h, z4]
  · rw [exec_lda, execLda, sext64, widthBytes, lda (by decide) hal h, ofLe_read_eight]

/-! ### Stores -/

theorem storeFault_none {s : State} {ea n : Nat} {aligned : Bool} (hn : 0 < n) (hal : aligned = true → ea % n = 0)
    (hin : ea + n ≤ tileSize)
    (hc : ¬(s.cur.mode = .u ∧ s.cur.inCode ea n = true)) : storeFault s ea n aligned = none := by
  have hc' : (decide (s.cur.mode = .u) && s.cur.inCode ea n) = false := by simpa using hc
  simp only [storeFault, directRange_tile (show ea < tileSize by omega), aligned_passes hal, directEndOk, hin, hc']
  rfl

/-- A store of the CP into its code region changes nothing but the bytes that fetches keep (R184). -/
theorem keepCode_frame (s : State) (off n : Nat) : (keepCode s off n).restStore = s.restStore ∧
    (∀ c, c ≠ s.turn → (keepCode s off n).core c = s.core c) ∧
    { (keepCode s off n).cur with codeOld := [] } = { s.cur with codeOld := [] } := by
  unfold keepCode
  split
  · refine ⟨rfl, fun c hc => core_modCore_ne _ _ hc, ?_⟩
    rw [cur_modCur]
  · exact ⟨rfl, fun _ _ => rfl, rfl⟩

/-- The store of a direct store whose checks have passed (R329). -/
theorem stored_directPut (s : State) (ea n : Nat) (v : Word) (hwf : Memory.wf s.mem = true) :
    Stored s ((directPut s ea n v).advance 4) ea n v := by
  obtain ⟨hmem, hturn, -, hregs, hpc⟩ := keepCode_keeps s ea n
  obtain ⟨hrest, hcores, hcur⟩ := keepCode_frame s ea n
  have hget (x : Nat) : memGet ((directPut s ea n v).advance 4).mem x =
      if winBase s.turn + ea ≤ x ∧ x < winBase s.turn + ea + n then (leBytes n v.toNat).getD (x - (winBase s.turn + ea)) 0
      else memGet s.mem x := by
    rw [advance_mem, directPut, setTile, State.memGet_write _ _ _ (by rwa [hmem]), hmem, storeBytes, length_leBytes]
  have hk : ((directPut s ea n v).advance 4).cur = { (keepCode s ea n).cur with pc := s.cur.pc + 4, waitSince := none } := by
    rw [cur_advance, ← hpc]
    rfl
  refine ⟨fun j hj => ?_, fun x hx => ?_, hrest, fun c hc => ?_, ?_, ?_, ?_⟩
  · rw [hget, if_pos (by omega), Nat.add_sub_cancel_left, getD_leBytes hj]
  · rw [hget, if_neg (by omega)]
  · rw [core_advance_ne _ _ (by rwa [directPut, setTile_turn, hturn])]
    exact hcores c hc
  · rw [hk]
    exact congrArg (fun k : Core => { k.rest with codeOld := [] }) hcur
  · rw [hk, hregs]
  · rw [hk]

section
variable {s : State} {n ea : Nat} {b a : Reg} {off : Word} (hea : effAddr (s.reg a) off = ea) (ha : acquireHeld s.cur = false)
include hea ha

/-- A direct store that a check refuses traps with the address (R329). -/
theorem directStore_traps {cause : Nat} (hf : storeFault s ea n false = some cause) :
    directStore n b a off s = .next (s.trap cause ea) := by
  rw [directStore, afterAcquire_clear ha]
  simp only [hea, hf]

/-- A direct store that no check refuses (R329). -/
theorem directStore_done (hf : storeFault s ea n false = none) :
    directStore n b a off s = .next ((directPut s ea n (s.reg b)).advance 4) := by
  rw [directStore, afterAcquire_clear ha]
  simp only [hea, hf]
  rfl

end

/-- The checks that a load and a store share, in their order (R329): CPM.0, CPM.4. -/
theorem accessFault_outside {s : State} {ea : Nat} (ht : ¬ ea < tileSize) (hr : ¬(0x1F0000000000 ≤ ea ∧
    ea < 0x1F0000100000)) (n : Nat) :
    loadFault s ea n false = some 0x020 ∧ storeFault s ea n false = some 0x020 := by
  simp only [loadFault, storeFault, directRange_none ht hr, and_self]

theorem accessFault_end {s : State} {ea n : Nat} {d : Direct} (hr : directRange ea = some d) (he : directEndOk d n = false) :
    loadFault s ea n false = some 0x024 ∧ storeFault s ea n false = some 0x024 := by
  simp only [loadFault, storeFault, hr, he]
  exact ⟨rfl, rfl⟩

/-- Settles O6: a store that passes its checks writes its bytes; one that does not traps. -/
theorem directStoreEffects : Obligations.DirectStoreEffects := by
  constructor
  · intro s b a i j sc w ea la may ha hwf
    have st {n : Nat} (hn : 0 < n) (h : may ea n) :
        ∃ t, directStore n b a (i.signExtend 64) s = .next t ∧ Stored s t ea n (s.reg b) :=
      ⟨_, directStore_done rfl ha (storeFault_none hn nofun h.1 h.2), stored_directPut s ea n _ hwf⟩
    have hw : 0 < widthBytes w := by cases w <;> decide
    refine ⟨?_, ?_, ?_, ?_, fun h hal hrel hf => ?_, fun q hin hc hal hrel hf => ?_⟩
    · rw [exec_stb, execStb]
      exact st (by decide)
    · rw [exec_sth, execSth]
      exact st (by decide)
    · rw [exec_stw, execStw]
      exact st (by decide)
    · rw [exec_std, execStd]
      exact st (by decide)
    · refine ⟨_, ?_, stored_directPut s la _ _ hwf⟩
      rw [exec_stl, execStl, afterAcquire_clear ha]
      simp only [show effAddr (s.reg a) (sext64 j) = la from rfl, storeFault_none hw (fun _ => hal) h.1 h.2, hrel, hf]
      rfl
    · rw [exec_stl, execStl, afterAcquire_clear ha]
      simp only [show effAddr (s.reg a) (sext64 j) = la from rfl, storeFault_none hw (fun _ => hal) hin hc, hrel, hf]
      rfl
  · intro s b a i ea inTile inReplica trapsAll ha
    have traps {cause n : Nat} (h : loadFault s ea n false = some cause ∧ storeFault s ea n false = some cause) :
        trapsAll cause n := by
      have load (d : Reg) (ext : Nat → Word) : directLoad n false ext d a (i.signExtend 64) s = .next (s.trap cause ea) :=
        directLoad_traps rfl ha h.1
      have store : directStore n b a (i.signExtend 64) s = .next (s.trap cause ea) := directStore_traps rfl ha h.2
      refine ⟨fun hn => ?_, fun hn => ?_⟩ <;> subst hn
      · rw [exec_ldw, execLdw, exec_stw, execStw, sext64]
        exact ⟨load .., store⟩
      · rw [exec_ldd, execLdd, exec_std, execStd, sext64]
        exact ⟨load .., store⟩
    have stw {cause : Nat} (h : storeFault s ea 4 false = some cause) : exec (.stw b a i) s = .next (s.trap cause ea) := by
      rw [exec_stw, execStw, sext64]
      exact directStore_traps rfl ha h
    refine ⟨fun ht hr n => traps (accessFault_outside ht hr n), fun ht n he => traps (accessFault_end (directRange_tile ht) ?_),
      fun hr n he => traps (accessFault_end (directRange_replica hr) ?_), fun hr he => stw ?_, fun hin hm hc => stw ?_⟩
    · exact decide_eq_false (by omega)
    · exact decide_eq_false (by omega)
    · have hend : ea - 0x1F0000000000 + 4 ≤ 0x100000 := by omega
      simp only [storeFault, directRange_replica hr, directEndOk, hend]
      rfl
    · simp only [storeFault, directRange_tile (show ea < tileSize by omega), directEndOk, hin, hm, hc]
      rfl

end Sys2Proof.Machine
end

section
/-! Software traps and the front end's: O8 (R184, R265, R269, R301, R340, R341). -/

namespace Sys2Proof.Machine

open State

/-- The entry of a handler at a trap that resumes at the next instruction (R269, R340, R341). -/
theorem trapAt_next {s : State} (hm : s.ecc.marks = []) (hu : s.cur.mode ≠ .u) (hi : bitAt s.cur.status 7 = false)
    (h4 : s.cur.pc % 4 = 0) (hpc : s.cur.pc + 4 < 2 ^ 64) {cause tval : Nat} (hc : cause < 2 ^ 9) (ht : tval < 2 ^ 64) :
    let t := s.trapAt s.turn cause tval (s.cur.pc + 4)
    OnlyCore s t s.turn ∧ t.cur.restTrap = s.cur.restTrap ∧ t.cur.regs = s.cur.regs ∧
      t.cur.epc.toNat = s.cur.pc + 4 ∧ t.cur.cause.toNat = 2 ^ 63 + cause ∧ t.cur.tval.toNat = tval ∧
      bitAt t.cur.status 7 = true ∧ fld t.cur.status 3 2 = fld s.cur.status 1 0 ∧ t.cur.pc = handlerOf s.cur cause := by
  intro t
  obtain ⟨hepc, hcause, htval⟩ := recordTrap_words s.cur (s.cur.pc + 4) hc ht
  obtain ⟨hpmode, -, hintrap⟩ := statusEntered_fields s.cur.status
  have hrun : t = s.setCore s.turn (inHandler s.cur cause tval (s.cur.pc + 4)) := trapAt_enters hm hu hi ..
  have hcur : t.cur = inHandler s.cur cause tval (s.cur.pc + 4) := by rw [hrun]; exact cur_setCore_turn ..
  rw [hcur]
  exact ⟨⟨_, hrun⟩, rfl, rfl, hepc.trans (by omega), hcause, htval, hintrap, hpmode, rfl⟩

theorem exec_brk_of_not_user {s : State} (hu : s.cur.mode ≠ .u) :
    exec .brk s = .next (s.trapAt s.turn 0x173 0 (s.cur.pc + 4)) := by
  rw [exec_brk, execBrk, if_neg hu]

theorem exec_trap_of_not_user {s : State} (hu : s.cur.mode ≠ .u) (i : BitVec 16) :
    exec (.trap i) s = .next (s.trapAt s.turn 0x018 i.toNat (s.cur.pc + 4)) := by
  rw [exec_trap, execTrap, if_neg hu]

/-- The value of an ENC trap (R301): the word, and above it the second word where one was fetched. -/
theorem exec_unassignedEncoding_eq (w w2 : Word32) (cause : BitVec 9) (s : State) :
    exec (.unassignedEncoding w w2 cause) s = .next (s.trap cause.toNat
      ((if majorOf w = 0x3F ∧ cause ≠ 4 ∧ lastWord s.cur = false then w2.toNat else 0) * 2 ^ 32 + w.toNat)) := by
  simp only [exec_unassignedEncoding, execUnassignedEncoding, Bool.and_eq_true, beq_iff_eq, bne_iff_ne, Bool.not_eq_true', and_assoc]

/-- The ENC trap of a word that no second word follows. -/
theorem exec_unassignedEncoding_one {w : Word32} {cause : BitVec 9} {s : State}
    (h : ¬(majorOf w = 0x3F ∧ cause ≠ 4 ∧ lastWord s.cur = false)) (w2 : Word32) :
    exec (.unassignedEncoding w w2 cause) s = .next (s.trap cause.toNat w.toNat) := by
  rw [exec_unassignedEncoding_eq, if_neg h, Nat.zero_mul, Nat.zero_add]

/-- Settles O8: software traps as trap entries, the front end's by their causes. -/
theorem softwareAndFrontEndTraps : Obligations.SoftwareAndFrontEndTraps := by
  refine ⟨?_, fun s w w2 cause => ⟨fun hw => ?_, fun hw hc hl => ?_, fun hw hl => ?_, fun hc => ?_, fun hu => ?_, fun hu => ?_⟩,
    fun s i hu => ⟨?_, ?_⟩⟩
  · intro s i k base hm hu hi h4 hpc
    have hi16 : i.toNat < 2 ^ 64 := Nat.lt_trans i.isLt (by decide)
    obtain ⟨hone, hrest, hregs, hepc, hcause, htval, hin, hpm, hpc'⟩ :=
      trapAt_next hm hu hi h4 hpc (show 0x018 < 2 ^ 9 by decide) hi16
    obtain ⟨bone, brest, bregs, bepc, bcause, btval, bin, bpm, bpc⟩ :=
      trapAt_next hm hu hi h4 hpc (show 0x173 < 2 ^ 9 by decide) (show 0 < 2 ^ 64 by decide)
    refine ⟨⟨_, exec_trap_of_not_user hu i, hone, hrest, hregs, hepc, hcause, ?_, hin, hpm, hpc'⟩,
      ⟨_, exec_brk_of_not_user hu, bone, brest, bregs, bepc, bcause, BitVec.eq_of_toNat_eq btval, bin, bpm, bpc⟩⟩
    exact BitVec.eq_of_toNat_eq (htval.trans (BitVec.toNat_setWidth_of_le (by decide)).symm)
  · exact exec_unassignedEncoding_one (fun h => hw h.1) w2
  · rw [exec_unassignedEncoding_eq, if_pos ⟨hw, hc, hl⟩]
  · refine exec_unassignedEncoding_one (fun ⟨_, h4, hn⟩ => ?_) w2
    rcases hl with h | h
    · exact h4 h
    · exact Bool.noConfusion (hn.symm.trans h)
  · rw [exec_instructionFetchFault, execInstructionFetchFault, if_neg (fun h => hc h.1), if_neg hc]
  · rw [exec_instructionFetchFault, execInstructionFetchFault, if_pos ⟨rfl, hu⟩, if_pos rfl]
    rfl
  · rw [exec_instructionFetchFault, execInstructionFetchFault, if_neg (fun h => h.2 hu), if_pos rfl]
    rfl
  · rw [exec_brk, execBrk, if_pos hu]
  · rw [exec_trap, execTrap, if_pos hu]

end Sys2Proof.Machine
end

section
/-! Fences, the event flag and HALT: O11 (R337, R343, R344). -/

namespace Sys2Proof.Machine

open State

theorem fence_done {s : State} {sc : Scope} (h : releaseHeld s s.turn sc s.cur.issueSeq true = false) :
    fence sc s = .next (s.advance 4) := by
  rw [fence, h]
  rfl

theorem fence_waits {s : State} {sc : Scope} (h : releaseHeld s s.turn sc s.cur.issueSeq true = true) : fence sc s = .next s.wait := by
  rw [fence, if_pos h]

/-- After FENCEI a fetch sees tile SRAM as it stands (R337). -/
theorem codeByte_of_nil {s : State} {c : Nat} (h : (s.core c).codeOld = []) (off : Nat) :
    codeByte s c off = memGet s.mem (winBase c + off) := by
  rw [codeByte, h]
  rfl

/-! ### The event flag (R343) -/

/-- A change of the moving core, by what it gives for that core. -/
theorem modCur_congr {s : State} {f g : Core → Core} (h : f s.cur = g s.cur) : s.modCur f = s.modCur g := congrArg (s.setCore s.turn) h

theorem exec_wfe_goes {s : State} (h : (s.cur.event || (s.cur.wfe && s.cur.woken)) = true) :
    exec .wfe s = .next ((s.modCur fun k => { k with event := k.event && k.wfe && k.woken, wfe := false, woken := false }).advance 4) := by
  rw [exec_wfe, execWfe, if_pos h]
  rfl

/-- SEV's change of the cores: the flag of those it names, nothing else (R343). -/
theorem core_foldl_event (cs : List Nat) (s : State) (c : Nat) :
    ((cs.foldl (fun s c => s.modCore c fun k => { k with event := true }) s).core c) =
      if c ∈ cs then { s.core c with event := true } else s.core c := by
  induction cs generalizing s with
  | nil => rfl
  | cons d cs ih =>
    rw [List.foldl_cons, ih, core_modCore]
    by_cases hd : c = d
    · simp [hd]
    · simp [hd]

theorem mem_coresOnCard {s : State} {card h c : Nat} : c ∈ coresOnCard s card h ↔ c ∈ s.coresOf h ∧ c / 192 = card := by
  simp [coresOnCard]

/-- SEV sets the flag of its issuer and of the cores of its card that hold its graph (R343). -/
theorem sev_sets (s : State) : ∃ t, exec .sev s = .next t ∧ t.cur.pc = s.cur.pc + 4 ∧ t.cur.event = true ∧ t.mem = s.mem ∧
    t.turn = s.turn ∧
    (∀ c, c ≠ s.turn → t.core c =
      if c ∈ coresOnCard s (s.turn / 192) s.cur.graph then { s.core c with event := true } else s.core c) := by
  let cs := s.turn :: coresOnCard s (s.turn / 192) s.cur.graph
  let raise := fun (s : State) c => s.modCore c fun k => { k with event := true }
  let u := cs.foldl raise s
  have hturn : u.turn = s.turn := foldl_keeps State.turn (f := raise) (fun _ _ => rfl) cs s
  have hmem : u.mem = s.mem := foldl_keeps State.mem (f := raise) (fun _ _ => rfl) cs s
  have hcore (c : Nat) : u.core c = if c ∈ cs then { s.core c with event := true } else s.core c := core_foldl_event cs s c
  have hcur : u.cur = { s.cur with event := true } := by
    rw [State.cur, hturn, hcore, if_pos List.mem_cons_self]
    rfl
  refine ⟨u.advance 4, rfl, by rw [cur_advance, hcur], by rw [cur_advance, hcur], hmem, hturn, fun c hc => ?_⟩
  rw [core_advance_ne _ _ (by rwa [hturn]), hcore]
  simp [cs, hc]

/-! ### HALT (R344) -/

theorem sysReg_qstat (s : State) (c : Nat) : s.sysReg c 0x7C3 = srQstat (s.core c) := rfl

theorem exec_halt_busy {s : State} (hu : s.cur.mode ≠ .u) (hb : fld (s.sysReg s.turn 0x7C3) 15 0 ≠ 0) :
    exec .halt s = .next (s.trap 0x01A (fld (s.sysReg s.turn 0x7C3) 15 0)) := by
  rw [exec_halt, execHalt, privileged_of_not_user hu]
  exact if_pos hb

/-- HALT of a core that holds no graph (R344). -/
theorem exec_halt_idle {s : State} (hu : s.cur.mode ≠ .u) (hb : fld (s.sysReg s.turn 0x7C3) 15 0 = 0)
    (hg : s.graph? s.cur.graph = none) :
    exec .halt s = .next (((s.advance 4).modCur fun k => { k with run := .halted }).tellMgmt { cause := 0x01B, core := coreName s.turn }) := by
  have hn : ((s.advance 4).modCur fun k => { k with run := .halted }).graph? s.cur.graph = none := hg
  rw [exec_halt, execHalt, privileged_of_not_user hu]
  refine (if_neg (not_not_intro hb)).trans ?_
  simp only [hg, graphNotice, hn]
  cases s.ctxOf s.turn <;> rfl

/-- A notice to management that finds a place, none having been lost (R280). -/
theorem tellMgmt_of_room {s : State} (h : s.mgmt.length < 4096) (hl : s.mgmtLost = 0) (n : Notice) :
    s.tellMgmt n = { s with mgmt := s.mgmt ++ [n] } := by
  rw [tellMgmt, if_neg (Nat.not_le.2 h), if_pos hl]

/-- Settles O11: each instruction by its condition. -/
theorem fencesEventFlagAndHalt : Obligations.FencesEventFlagAndHalt := by
  refine ⟨?_, ?_, ?_⟩
  · intro s fences
    refine ⟨rfl, fun p hp h => ?_, fun p hp h => ?_, _, rfl, rfl, ?_, ?_, fun n => ?_⟩
    · simp only [fences, List.mem_cons, List.not_mem_nil, or_false] at hp
      obtain rfl | rfl | rfl | rfl := hp <;> exact fence_done h
    · simp only [fences, List.mem_cons, List.not_mem_nil, or_false] at hp
      obtain rfl | rfl | rfl | rfl := hp <;> exact fence_waits h
    · rw [cur_advance, cur_modCur]
    · rw [cur_advance, cur_modCur]
    · refine codeByte_of_nil ?_ n
      have hk : ((s.modCur fun k => { k with codeOld := [] }).advance 4).cur.codeOld = [] := by rw [cur_advance, cur_modCur]
      exact hk
  · intro s k
    refine ⟨fun he hw => ?_, fun he hw => ⟨s.modCur fun k => { k with wfe := true, woken := false }, ?_, ⟨_, rfl⟩,
      cur_modCur ..⟩, fun he hw hk => ?_, fun he hw hk => ?_, ?_⟩
    · rw [exec_wfe_goes (by rw [show s.cur.event = true from he]; rfl)]
      refine congrArg (fun t => (Host.Outcome.next (State.advance t 4) : Result)) (modCur_congr ?_)
      have hboth : (s.cur.wfe && s.cur.woken) = false := Bool.and_eq_false_iff.2 hw
      simp only [Bool.and_assoc, hboth, Bool.and_false]
    · simp only [exec_wfe, execWfe, show s.cur.event = false from he, show s.cur.wfe = false from hw]
      rfl
    · simp only [exec_wfe, execWfe, show s.cur.event = false from he, show s.cur.wfe = true from hw, show s.cur.woken = false from hk]
      rfl
    · refine ⟨_, exec_wfe_goes ?_, ?_, ?_, ?_⟩
      · rw [show s.cur.wfe = true from hw, show s.cur.woken = true from hk, Bool.and_self, Bool.or_true]
      · rw [cur_advance, cur_modCur]
      · rw [cur_advance, cur_modCur]
      · rw [cur_advance, cur_modCur, show s.cur.event = false from he]
        rfl
    · obtain ⟨t, hrun, hpc, hev, hmem, hturn, hcores⟩ := sev_sets s
      refine ⟨t, hrun, hpc, hev, hmem, fun c hc h192 => ?_, fun c hc hn => ?_, fun c hn => ?_⟩
      · by_cases ht : c = s.turn
        · rw [ht, ← hturn]
          exact hev
        · rw [hcores c ht, if_pos (mem_coresOnCard.2 ⟨hc, h192⟩)]
      · rw [hcores c hc, if_neg (fun h => hn (mem_coresOnCard.1 h).1)]
      · rw [hcores c (fun h => hn (by rw [h])), if_neg (fun h => hn (mem_coresOnCard.1 h).2)]
  · intro s k busy
    refine ⟨fun hu hb => exec_halt_busy hu hb, fun hu hb hg hroom hl => ?_⟩
    have hrun := exec_halt_idle hu hb hg
    rw [tellMgmt_of_room (s := (s.advance 4).modCur fun k => { k with run := .halted }) hroom hl] at hrun
    refine ⟨_, hrun, ?_, rfl, sameMemory_of_eq rfl rfl, fun c hc => ?_⟩
    · exact (cur_modCur (s.advance 4) fun k => { k with run := .halted }).trans (by rw [cur_advance])
    · exact (core_modCore_ne (s.advance 4) (fun k => { k with run := .halted }) hc).trans (core_advance_ne _ _ hc)

end Sys2Proof.Machine
end

section
/-! System registers of the CP: O12 (R303, R339). -/

namespace Sys2Proof.Machine

open State

/-! ### Numbers with one bit for each entry (R194) -/

/-- The number whose bit q is p q, for q below n. -/
def flagBits (p : Nat → Bool) (n : Nat) : Nat := (List.range n).foldl (fun m q => if p q then m + 2 ^ q else m) 0

theorem flagBits_succ (p : Nat → Bool) (n : Nat) : flagBits p (n + 1) = 2 ^ n * (p n).toNat + flagBits p n := by
  rw [flagBits, flagBits, List.range_succ, List.foldl_append]
  cases h : p n <;> simp [h, Nat.add_comm]

theorem flagBits_lt (p : Nat → Bool) (n : Nat) : flagBits p n < 2 ^ n := by
  induction n with
  | zero => exact Nat.one_pos
  | succ n ih =>
    have hb : (p n).toNat ≤ 1 := Bool.toNat_le _
    have hm : 2 ^ n * (p n).toNat ≤ 2 ^ n * 1 := Nat.mul_le_mul_left _ hb
    rw [flagBits_succ, Nat.pow_succ]
    omega

theorem testBit_flagBits (p : Nat → Bool) (n i : Nat) : (flagBits p n).testBit i = (decide (i < n) && p i) := by
  induction n with
  | zero => simp [flagBits]
  | succ n ih =>
    rw [flagBits_succ, Nat.testBit_two_pow_mul_add _ (flagBits_lt p n)]
    by_cases hi : i < n
    · rw [if_pos hi, ih, decide_eq_true hi, decide_eq_true (by omega)]
    · by_cases he : i = n
      · subst he
        cases p i <;> simp
      · rw [if_neg hi, decide_eq_false (by omega), Bool.false_and]
        refine Nat.testBit_lt_two_pow (Nat.lt_of_le_of_lt (Bool.toNat_le _) ?_)
        exact Nat.one_lt_two_pow (by omega)

/-- sr.qstat as three fields of one bit for each entry (R194). -/
theorem srQstat_eq (k : Core) : srQstat k = BitVec.ofNat 64
    (2 ^ 16 * (2 ^ 16 * flagBits (fun q => (k.entry q).busy && (k.entry q).done && (k.entry q).fault != 0) 16 +
      flagBits (fun q => (k.entry q).busy && (k.entry q).done) 16) + flagBits (fun q => (k.entry q).busy) 16) := by
  refine congrArg (BitVec.ofNat 64) ?_
  simp only [flagBits]
  omega

theorem bitAt_srQstat (k : Core) {i : Nat} (hi : i < 16) :
    bitAt (srQstat k) i = (k.entry i).busy ∧ bitAt (srQstat k) (16 + i) = ((k.entry i).busy && (k.entry i).done) := by
  constructor
  · rw [srQstat_eq, bitAt, BitVec.getLsbD_ofNat, Nat.testBit_two_pow_mul_add _ (flagBits_lt _ 16), if_pos hi, testBit_flagBits]
    simp [hi, show i < 64 by omega]
  · rw [srQstat_eq, bitAt, BitVec.getLsbD_ofNat, Nat.testBit_two_pow_mul_add _ (flagBits_lt _ 16), if_neg (by omega),
      Nat.add_sub_cancel_left, Nat.testBit_two_pow_mul_add _ (flagBits_lt _ 16), if_pos hi, testBit_flagBits]
    simp [hi, show 16 + i < 64 by omega]

/-- The card and the place on it in sr.core (R304). -/
theorem srCore_fields {c : Nat} (hc : c < 2304) : fld (srCore c) 19 16 = c / 192 ∧ fld (srCore c) 15 8 = c % 192 := by
  have hi : c % 192 < 192 := Nat.mod_lt _ (by decide)
  have hcard : c / 192 < 16 := by omega
  rw [srCore]
  generalize c % 192 = i at hi
  generalize c / 192 = card at hcard
  have hlow : i / 48 * 2 ^ 6 + i % 48 / 8 * 2 ^ 3 + i % 8 < 256 := by omega
  generalize hl : i / 48 * 2 ^ 6 + i % 48 / 8 * 2 ^ 3 + i % 8 = low at hlow
  have hsum : card * 2 ^ 16 + i * 2 ^ 8 + i / 48 * 2 ^ 6 + i % 48 / 8 * 2 ^ 3 + i % 8 = card * 2 ^ 16 + i * 2 ^ 8 + low := by omega
  simp only [hsum]
  clear hsum hl
  rw [fld_ofNat (by omega), fld_ofNat (by omega)]
  simp only [Nat.reducePow, Nat.reduceAdd, Nat.reduceSub]
  omega

/-! ### SWR (R339) -/

section
variable {s : State} {a : Reg} {n : BitVec 12}

theorem exec_swr_done (hall : srWritableAtAll n.toNat = true) (hmode : srWritable n.toNat s.cur.mode = true)
    (hv : swrRefused s.cur n.toNat (s.reg a) = none) :
    exec (.swr a n) s = .next ((s.setCore s.turn (s.cur.writeSysReg n.toNat (s.reg a))).advance 4) := by
  simp only [exec_swr, execSwr, hall, hmode, hv]
  rfl

theorem exec_swr_refused {f : Nat} (hall : srWritableAtAll n.toNat = true) (hmode : srWritable n.toNat s.cur.mode = true)
    (hv : swrRefused s.cur n.toNat (s.reg a) = some f) : exec (.swr a n) s = .next (s.trap f n.toNat) := by
  simp only [exec_swr, execSwr, hall, hmode, hv]
  rfl

end

/-- A trap register is written in S and M mode (R303). -/
theorem srWritable_trapReg {md : Mode} (h : md ≠ .u) : ∀ r ∈ [0x700, 0x701, 0x702, 0x703, 0x704],
    srWritableAtAll r = true ∧ srWritable r md = true := by
  cases md with
  | u => exact absurd rfl h
  | s => decide
  | m => decide

/-- The fields of sr.status after a write to it (R268, R339). -/
theorem statusWritten_fields {b m p : Nat} (hb : b < 2) (hp : p < 4) (hm : m < 4) :
    bitAt (BitVec.ofNat 64 (b * 128 + p * 4 + m)) 7 = decide (b = 1) ∧ fld (BitVec.ofNat 64 (b * 128 + p * 4 + m)) 3 2 = p ∧
      fld (BitVec.ofNat 64 (b * 128 + p * 4 + m)) 1 0 = m := by
  refine ⟨?_, ?_, ?_⟩
  · rw [bitAt, BitVec.getLsbD_ofNat, Nat.testBit_eq_decide_div_mod_eq, show (b * 128 + p * 4 + m) / 2 ^ 7 % 2 = b by omega]
    rfl
  · rw [fld_ofNat (by omega)]
    omega
  · rw [fld_ofNat (by omega)]
    omega

theorem fld_bit (w : Word) (i : Nat) : decide (fld w i i = 1) = bitAt w i := by
  rw [fld_eq, bitAt, BitVec.getLsbD, Nat.testBit_eq_decide_div_mod_eq, Nat.add_sub_cancel_left, Nat.pow_one]

/-- Settles O12: SRD and SWR by their checks; the fields of sr.core and sr.qstat as numbers. -/
theorem systemRegisterAccess : Obligations.SystemRegisterAccess := by
  constructor
  · intro s d a n k v r wrote
    refine ⟨fun h => if_pos h, fun h => ?_, fun h => ?_, fun hall hmode => ?_, fun hu => ?_, fun hu hp => ?_, fun hu h2 hr => ?_⟩
    · rw [exec_srd, execSrd, if_neg (by rw [h]; exact Bool.false_ne_true)]
    · rw [exec_swr, execSwr, if_pos (by rw [h]; rfl)]
    · rw [exec_swr, execSwr, if_neg (by rw [hall]; exact Bool.false_ne_true), if_pos (by rw [hmode]; rfl)]
    · have ok := srWritable_trapReg hu
      have h1 := ok 0x701 (by decide)
      have h2 := ok 0x702 (by decide)
      have h3 := ok 0x703 (by decide)
      have h4 := ok 0x704 (by decide)
      exact ⟨exec_swr_done h1.1 h1.2 rfl, exec_swr_done h2.1 h2.2 rfl, exec_swr_done h3.1 h3.2 rfl, exec_swr_done h4.1 h4.2 rfl⟩
    · obtain ⟨hall, hmode⟩ := srWritable_trapReg hu 0x700 (by decide)
      have hv : swrRefused s.cur 0x700 v = none :=
        (if_pos rfl).trans (if_neg fun h => hp.elim h.1 (Nat.not_le.2 h.2))
      have hcur : ((s.setCore s.turn (k.writeSysReg 0x700 v)).advance 4).cur =
          { k.writeSysReg 0x700 v with pc := k.pc + 4, waitSince := none } := by
        rw [cur_advance, cur_setCore_turn]
        rfl
      have hpm : (if fld v 3 2 = 2 then fld k.status 3 2 else fld v 3 2) < 4 := by
        split <;> exact fld_lt _ 3 2
      obtain ⟨h7, h32, h10⟩ := statusWritten_fields (fld_lt v 7 7) hpm (fld_lt k.status 1 0)
      refine ⟨(s.setCore s.turn (k.writeSysReg 0x700 v)).advance 4, exec_swr_done hall hmode hv, ?_⟩
      rw [hcur]
      exact ⟨h7.trans (fld_bit v 7), h32, h10, rfl⟩
    · obtain ⟨hall, hmode⟩ := srWritable_trapReg hu 0x700 (by decide)
      exact exec_swr_refused hall hmode ((if_pos rfl).trans (if_pos ⟨h2, hr⟩))
  · intro s c hc k
    obtain ⟨hcard, hplace⟩ := srCore_fields hc
    exact ⟨rfl, rfl, rfl, rfl, rfl, rfl, rfl, rfl, hcard, hplace, fun i hi => bitAt_srQstat k hi⟩

end Sys2Proof.Machine
end

section
/-! Queued accesses at issue, and the CP's waits for them: O13, O14 (R331 to R335). -/

namespace Sys2Proof.Machine

open State

/-- A high field of a word is zero exactly when the word lies below it. -/
theorem fld_top_eq_zero (x : Word) {lo : Nat} (h : lo ≤ 63) : fld x 63 lo = 0 ↔ x.toNat < 2 ^ lo := by
  have hp : 2 ^ 64 = 2 ^ lo * 2 ^ (64 - lo) := by rw [← Nat.pow_add, Nat.add_sub_cancel' (by omega)]
  have hx : x.toNat / 2 ^ lo < 2 ^ (64 - lo) := Nat.div_lt_of_lt_mul (by rw [← hp]; exact x.isLt)
  rw [fld_eq, Nat.mod_eq_of_lt hx, Nat.div_eq_zero_iff_lt (Nat.two_pow_pos _)]

section
variable {s : State} {r : Request}

/-- The first check of R332: the entry is busy. -/
theorem issueFault_busy (hb : (s.cur.entry r.q).busy = true) : issueFault s r = some 0x015 := if_pos hb

/-- The second: an address beyond the virtual ones, in U and S mode. -/
theorem issueFault_virtual (hb : (s.cur.entry r.q).busy = false) (hm : s.cur.mode ≠ .m) (hx : 2 ^ 48 ≤ r.x.toNat) :
    issueFault s r = some 0x03D := by
  have hf : fld r.x 63 48 ≠ 0 := fun h => absurd ((fld_top_eq_zero r.x (by decide)).1 h) (Nat.not_lt.2 hx)
  simp [issueFault, hb, hm, hf]

/-- The third: an address beyond the domain's, in M mode. -/
theorem issueFault_domain (hb : (s.cur.entry r.q).busy = false) (hm : s.cur.mode = .m) (hx : 2 ^ 57 ≤ r.x.toNat) :
    issueFault s r = some 0x025 := by
  have hf : fld r.x 63 57 ≠ 0 := fun h => absurd ((fld_top_eq_zero r.x (by decide)).1 h) (Nat.not_lt.2 hx)
  simp [issueFault, hb, hm, hf]

/-- The fourth: an atomic or an annotated access that is not aligned. -/
theorem issueFault_misaligned (hb : (s.cur.entry r.q).busy = false) (hm : s.cur.mode ≠ .m) (hx : r.x.toNat < 2 ^ 48)
    (ha : qopAtomic r.op = true ∨ r.ann ≠ .rlx) (hal : r.x.toNat % r.bytes ≠ 0) : issueFault s r = some 0x021 := by
  have hf := (fld_top_eq_zero r.x (show 48 ≤ 63 by decide)).2 hx
  have ha' : (qopAtomic r.op || r.ann != .rlx) = true := by simpa using ha
  simp [issueFault, hb, hm, hf, ha', hal]

/-- An access in U or S mode that passes them meets the LINK faults of its translation alone (R67). -/
theorem issueFault_translated (hb : (s.cur.entry r.q).busy = false) (hm : s.cur.mode ≠ .m) (hx : r.x.toNat < 2 ^ 48)
    (hal : (qopAtomic r.op = false ∧ r.ann = .rlx) ∨ r.x.toNat % r.bytes = 0) :
    issueFault s r = (issueSpan s r).bind (linkFault s r.x.toNat r.bytes) := by
  have hf := (fld_top_eq_zero r.x (show 48 ≤ 63 by decide)).2 hx
  have hal' : ((qopAtomic r.op || r.ann != .rlx) && r.x.toNat % r.bytes != 0) = false := by
    rcases hal with ⟨h1, h2⟩ | h <;> simp [*]
  simp [issueFault, hb, hf, hm, hal']

theorem issue_traps (ha : acquireHeld s.cur = false) {f : Nat} (h : issueFault s r = some f) :
    issue r s = .next (s.trap f r.x.toNat) := by
  rw [issue, afterAcquire_clear ha, h]

/-- The issue of an access in U or S mode that no check refuses, by its translation (R67, R332). -/
theorem issue_untranslated (ha : acquireHeld s.cur = false) (hf : issueFault s r = none)
    (hs : issueSpan s r = none) : issue r s = .next ((takeEntry s r.q (newEntry s r)).advance 4) := by
  rw [issue, afterAcquire_clear ha, hf]
  simp only [hs, ite_self]
  rfl

theorem issue_translated (ha : acquireHeld s.cur = false) (hm : s.cur.mode ≠ .m) (hf : issueFault s r = none) {t : Span}
    (hs : issueSpan s r = some t) : issue r s = .next ((takeEntry s r.q
      (if t.away s r.x.toNat r.bytes then (newEntry s r).led t else newEntry s r)).advance 4) := by
  rw [issue, afterAcquire_clear ha, hf]
  simp only [hs, if_neg hm]
  rfl

/-- The entry of a request in U and S mode, which holds no address yet. -/
theorem newEntry_of_virtual (hm : s.cur.mode ≠ .m) : newEntry s r = { newEntry s r with dest := .none } := by
  simp only [newEntry, if_neg hm]

end

/-- Settles O13: each access as its request; the request by the checks of R332 and its translation. -/
theorem queuedAccessIssue : Obligations.QueuedAccessIssue := by
  constructor
  · intro s d a b q n sc w z k x entry issues v bits ha hm hb hx
    have hissue {i : Instr} {op : QOp} {store : Bool} {bytes data cmp : Nat} (hst : qopStores op = store)
        (hal : (qopAtomic op = false ∧ n = .rlx) ∨ x.toNat % bytes = 0)
        (hi : exec i s = issue ⟨op, bytes, x, data, cmp, q.toNat, n, sc⟩ s) : issues i op store bytes data cmp := by
      let r : Request := ⟨op, bytes, x, data, cmp, q.toNat, n, sc⟩
      have hf := issueFault_translated (r := r) hb hm hx hal
      have he : newEntry s r = entry op store bytes data cmp := by rw [newEntry_of_virtual hm, ← hst]; rfl
      simp only [issues, hi]
      split
      next hs =>
        rw [hs, Option.bind_none] at hf
        rw [← he]
        exact issue_untranslated ha hf hs
      next t hs =>
        rw [hs, Option.bind_some] at hf
        split
        next f hl => exact issue_traps ha (hf.trans hl)
        next hl =>
          rw [← he]
          exact issue_translated ha hm (hf.trans hl) hs
    refine ⟨fun hal => ⟨hissue rfl (hal.imp_left fun h => ⟨rfl, h⟩) rfl, hissue rfl (hal.imp_left fun h => ⟨rfl, h⟩) rfl⟩,
      fun hal => ⟨fun p hp => ?_, hissue rfl (.inr hal) rfl, ?_⟩⟩
    · simp only [List.mem_cons, List.not_mem_nil, or_false] at hp
      rcases hp with rfl | rfl | rfl | rfl | rfl | rfl | rfl | rfl | rfl | rfl <;>
        exact hissue rfl (.inr hal) rfl
    · exact hissue rfl (.inr hal) rfl
  · intro s a b q n sc w z k x ha
    have hissue {i : Instr} {r : Request} {atomic : Bool} (hi : exec i s = issue r s) (hx : r.x = x) (hq : r.q = q.toNat)
      (hn : r.ann = n)
        (hat : qopAtomic r.op = atomic) : ((k.entry q.toNat).busy = true → exec i s = .next (s.trap 0x015 x.toNat)) ∧
        ((k.entry q.toNat).busy = false → k.mode ≠ .m → 2 ^ 48 ≤ x.toNat → exec i s = .next (s.trap 0x03D x.toNat)) ∧
        ((k.entry q.toNat).busy = false → k.mode = .m → 2 ^ 57 ≤ x.toNat → exec i s = .next (s.trap 0x025 x.toNat)) ∧
        ((k.entry q.toNat).busy = false → k.mode ≠ .m → x.toNat < 2 ^ 48 → (atomic = true ∨ n ≠ .rlx) → x.toNat % r.bytes ≠ 0 →
          exec i s = .next (s.trap 0x021 x.toNat)) := by
      rw [hi, ← hx, ← hq, ← hn, ← hat]
      exact ⟨fun hb => issue_traps ha (issueFault_busy hb), fun hb hm h => issue_traps ha (issueFault_virtual hb hm h),
        fun hb hm h => issue_traps ha (issueFault_domain hb hm h),
        fun hb hm h h1 h2 => issue_traps ha (issueFault_misaligned hb hm h h1 h2)⟩
    intro i hi
    simp only [List.mem_cons, List.not_mem_nil, or_false] at hi
    rcases hi with rfl | rfl | rfl | rfl | rfl
    · exact hissue (r := ⟨.ldq, widthBytes w, x, 0, 0, q.toNat, n, sc⟩) rfl rfl rfl rfl rfl
    · exact hissue (r := ⟨.stq, widthBytes w, x, _, 0, q.toNat, n, sc⟩) rfl rfl rfl rfl rfl
    · exact hissue (r := ⟨.aadd, awidthBytes z, x, _, _, q.toNat, n, sc⟩) rfl rfl rfl rfl rfl
    · exact hissue (r := ⟨.aswp, awidthBytes z, x, _, _, q.toNat, n, sc⟩) rfl rfl rfl rfl rfl
    · exact hissue (r := ⟨.asnap, awidthBytes z, x, _, _, q.toNat, n, sc⟩) rfl rfl rfl rfl rfl

/-! ### WAITQ and POPQ (R334, R335) -/

section
variable {s : State} {d : Reg} {q : QNum} {src : Bool} (hb : (s.cur.entry q.toNat).busy = true)
include hb

/-- WAITQ of a faulted entry gives its cause, acknowledged (R334). -/
theorem waitq_faulted (hst : src = true → (s.cur.entry q.toNat).storeType = true) (hd : (s.cur.entry q.toNat).done = true)
    (hf : (s.cur.entry q.toNat).fault ≠ 0) : waitq src d q s =
      finish (s.modCur fun k => k.setEntry q.toNat { s.cur.entry q.toNat with ack := true }) d
        (BitVec.ofNat 64 (s.cur.entry q.toNat).fault) := by
  rw [waitq, if_neg (by simp [hb]), if_neg (by simpa using hst), if_pos (by simp [hd, hf])]

/-- WAITQ once its event has come (R334). -/
theorem waitq_come (hst : src = true → (s.cur.entry q.toNat).storeType = true)
    (hd : ((s.cur.entry q.toNat).done || (src && (s.cur.entry q.toNat).released)) = true)
    (hf : (s.cur.entry q.toNat).fault = 0) : waitq src d q s = finish s d 0 := by
  rw [waitq, if_neg (by simp [hb]), if_neg (by simpa using hst), if_neg (by simp [hf]), if_pos hd]

/-- POPQ of an entry that is complete, without a fault or with one acknowledged (R335). -/
theorem popq_frees (hd : (s.cur.entry q.toNat).done = true)
    (hf : (s.cur.entry q.toNat).fault = 0 ∨ (s.cur.entry q.toNat).ack = true) : execPopq d q s =
      finish (s.modCur fun k => k.setEntry q.toNat {}) d
        (if (s.cur.entry q.toNat).fault ≠ 0 then 0 else BitVec.ofNat 64 (s.cur.entry q.toNat).resp) := by
  rw [execPopq, if_neg (by simp [hb]), if_neg (by simp [hd]), if_neg (by rcases hf with h | h <;> simp [h])]

/-- POPQ of a fault not acknowledged (R335). -/
theorem popq_refuses (hd : (s.cur.entry q.toNat).done = true) (hf : (s.cur.entry q.toNat).fault ≠ 0)
    (hack : (s.cur.entry q.toNat).ack = false) :
    execPopq d q s = .next (s.trap 0x017 (q.toNat * 2 ^ 16 + (s.cur.entry q.toNat).fault)) := by
  rw [execPopq, if_neg (by simp [hb]), if_neg (by simp [hd]), if_pos (by simp [hf, hack])]

end

/-- Settles O14: each wait by the entry's standing. -/
theorem queueWaitsAndPops : Obligations.QueueWaitsAndPops := by
  intro s d q k e wrote plain
  refine ⟨fun hb => ?_, fun hb hst => ?_, fun hb hd hf => ⟨?_, ?_⟩, fun hb hst hd hf => ?_, fun hb hd hf => ⟨?_, fun hst => ?_,
    fun hack => ?_, fun hack => ?_⟩, fun hb hd => ?_⟩
  · simp only [exec_waitqSrc, exec_waitqVis, exec_popq, execWaitqSrc, execWaitqVis, execPopq, waitq,
      show (s.cur.entry q.toNat).busy = false from hb]
    exact ⟨rfl, rfl, rfl⟩
  · simp only [exec_waitqSrc, execWaitqSrc, waitq, show (s.cur.entry q.toNat).busy = true from hb,
      show (s.cur.entry q.toNat).storeType = false from hst]
    rfl
  · rw [exec_waitqVis, execWaitqVis, waitq_come (src := false) hb nofun (by simp [show (s.cur.entry q.toNat).done = true from hd]) hf]
    rfl
  · rw [exec_popq, popq_frees hb hd (.inl hf), if_neg (not_not_intro hf)]
    rfl
  · rw [exec_waitqSrc, execWaitqSrc, waitq_come hb (fun _ => hst) (by simpa using hd) hf]
    rfl
  · rw [exec_waitqVis, execWaitqVis, waitq_faulted (src := false) hb nofun hd hf]
    rfl
  · rw [exec_waitqSrc, execWaitqSrc, waitq_faulted hb (fun _ => hst) hd hf]
    rfl
  · rw [exec_popq, popq_refuses hb hd hf hack]
  · rw [exec_popq, popq_frees hb hd (.inr hack), if_pos hf]
    rfl
  · simp only [exec_waitqVis, exec_popq, execWaitqVis, execPopq, waitq, show (s.cur.entry q.toNat).busy = true from hb,
      show (s.cur.entry q.toNat).done = false from hd]
    exact ⟨rfl, rfl⟩

end Sys2Proof.Machine
end

section
/-! The grid commands of the CP: O15 (R349 to R355). -/

namespace Sys2Proof.Machine

open State

/-! ### Checks and operands of engine commands (R347) -/

theorem failIf_none {b : Bool} {cause : Nat} : failIf b cause = none ↔ b = false := by
  cases b <;> simp [failIf]

/-- An operand without marked storage errors reads as it stands (R274, R347). -/
theorem withOperand_read {s : State} (h : s.ecc.marks = []) (x n : Nat) (f : List Byte → State → Result) :
    withOperand x n s f = f (s.read (winBase s.turn + x) n) s := by
  simp only [withOperand, ueAt_of_unmarked h, correct_of_unmarked h]

/-! ### The queue of the grid (R349 to R353) -/

section
variable {s : State} {g : GCmd}

theorem gridPush_enters (h : s.cur.grid.queue.length < 4) : gridPush g s =
    .next ((pump (s.modGrid s.turn fun y => { y with queue := y.queue ++ [g] }) s.turn).advance 4) :=
  if_neg (Nat.not_le.2 h)

theorem gridPush_waits (h : 4 ≤ s.cur.grid.queue.length) : gridPush g s = .next s.wait := if_pos h

end

/-- GLOAD of a block of the library, no load being ahead of it (R351). -/
theorem exec_gload_passes {s : State} {a : Reg} (ha : acquireHeld s.cur = false) (hx : (s.reg a).toNat < 2 ^ 16)
    (hl : loadPending s.cur.grid = false) (harm : s.cur.grid.armed = false)
    (hlib : (libraryBlock s s.turn (s.reg a).toNat).isSome = true) : exec (.gload a) s = gridPush (.load (s.reg a).toNat) s := by
  have hlow : fld (s.reg a) 15 0 = (s.reg a).toNat := by
    rw [fld_eq, Nat.pow_zero, Nat.div_one]
    exact Nat.mod_eq_of_lt hx
  have hhigh : fld (s.reg a) 63 16 = 0 := (fld_top_eq_zero _ (by decide)).2 hx
  rw [exec_gload, execGload, hlow]
  refine command_passes ha ?_ ..
  obtain ⟨y, hy⟩ := Option.isSome_iff_exists.1 hlib
  simp [failIf, hhigh, hl, harm, hy]

theorem gswap_passes {s : State} {g : GCmd} (ha : acquireHeld s.cur = false)
    (h : s.cur.grid.sh.valid = true ∨ loadPending s.cur.grid = true)
      (hs : shadowAhead s.cur.grid = true) : gswap g s = gridPush g s := by
  refine command_passes ha ?_ ..
  rcases h with h | h <;> simp [failIf, h, hs]

theorem gswap_traps {s : State} {g : GCmd} (ha : acquireHeld s.cur = false)
    (h : (s.cur.grid.sh.valid = false ∧ loadPending s.cur.grid = false) ∨ shadowAhead s.cur.grid = false) :
    gswap g s = .next (s.trap 0x133 0) := by
  refine command_traps ha ?_ ..
  rcases h with ⟨h1, h2⟩ | h <;> simp [failIf, *]

theorem goFault_none {s : State} (h : s.cur.mode ≠ .u ∨ s.cur.infire = true) : goFault s = none := by
  rcases h with h | h <;> simp [goFault, failIf, h]

theorem goFault_some {s : State} (h : ¬(s.cur.mode ≠ .u ∨ s.cur.infire = true)) : goFault s = some 0x134 := by
  simp only [not_or, not_not, Bool.not_eq_true] at h
  simp [goFault, failIf, h]

theorem goFault_passes {s : State} (ha : acquireHeld s.cur = false) (h : s.cur.mode ≠ .u ∨ s.cur.infire = true) (f : State → Result) :
    command (fun s => [goFault s]) 0 s f = f s :=
  command_passes ha (by simp [goFault_none h]) ..

theorem goFault_traps {s : State} (ha : acquireHeld s.cur = false) (h : ¬(s.cur.mode ≠ .u ∨ s.cur.infire = true)) (f : State → Result) :
    command (fun s => [goFault s]) 0 s f = .next (s.trap 0x134 0) :=
  command_traps ha (by simp [goFault_some h]) ..

/-! ### The status word (R354) -/

/-- The fields of GSTAT that sr.cfgst does not have. -/
def statusLow (g : Grid) : Nat :=
  (if g.held then 1 else 0) * 2 ^ 27 + (if gridBusy g then 1 else 0) * 2 ^ 26 + g.queue.length % 8 * 2 ^ 16 + min g.dones 0xFFFF

theorem statusLow_lt (g : Grid) : statusLow g < 2 ^ 28 := by
  unfold statusLow
  split <;> split <;> omega

theorem getLsbD_statusMask {i : Nat} (hi : i < 64) : (0xFFFFFFFFF0000000#64).getLsbD i = decide (28 ≤ i) := by
  rw [show (0xFFFFFFFFF0000000#64) = BitVec.allOnes 64 <<< 28 from rfl, BitVec.getLsbD_shiftLeft, BitVec.getLsbD_allOnes]
  by_cases h : i < 28
  · simp [hi, h, Nat.not_le.2 h]
  · simp [hi, h, Nat.not_lt.1 h, show i - 28 < 64 by omega]

/-- The bits of GSTAT's word: those of sr.cfgst above, its own below. -/
theorem bitAt_gridStatus (k : Core) {i : Nat} (hi : i < 64) :
    bitAt (gridStatus k) i = if 28 ≤ i then bitAt (srCfgst k) i else (statusLow k.grid).testBit i := by
  rw [gridStatus, bitAt, BitVec.getLsbD_or, BitVec.getLsbD_and, getLsbD_statusMask hi, BitVec.getLsbD_ofNat]
  by_cases h : 28 ≤ i
  · have hz : (statusLow k.grid).testBit i = false :=
      Nat.testBit_lt_two_pow (Nat.lt_of_lt_of_le (statusLow_lt _) (Nat.pow_le_pow_right (by decide) h))
    rw [if_pos h, decide_eq_true h, Bool.and_true, ← statusLow, hz, Bool.and_false, Bool.or_false, bitAt]
  · rw [if_neg h, decide_eq_false h, Bool.and_false, Bool.false_or, decide_eq_true hi, Bool.true_and, statusLow]

theorem fld_gridStatus_high (k : Core) {hi lo : Nat} (hl : 28 ≤ lo) (hh : hi < 64) : fld (gridStatus k) hi lo = fld (srCfgst k) hi lo :=
  fld_congr rfl fun i hi => by rw [bitAt_gridStatus k (by omega), if_pos (by omega)]

theorem fld_gridStatus_low (k : Core) {hi lo : Nat} (hh : hi < 28) :
    fld (gridStatus k) hi lo = fld (BitVec.ofNat 64 (statusLow k.grid)) hi lo :=
  fld_congr rfl fun i hi => by
    rw [bitAt_gridStatus k (by omega), if_neg (by omega), bitAt, BitVec.getLsbD_ofNat, decide_eq_true (by omega), Bool.true_and]

theorem ite_eq_toNat (b : Bool) : (if b = true then 1 else 0) = b.toNat := by cases b <;> rfl

/-- A bit of a number, as a flag. -/
theorem bitAt_ofNat_eq {n i : Nat} {b : Bool} (hi : i < 64) (h : n / 2 ^ i % 2 = b.toNat) : bitAt (BitVec.ofNat 64 n) i = b := by
  rw [bitAt, BitVec.getLsbD_ofNat, decide_eq_true hi, Bool.true_and, Nat.testBit_eq_decide_div_mod_eq, h]
  cases b <;> rfl

/-- The fields of sr.cfgst (R151). -/
theorem srCfgst_fields (k : Core) : fld (srCfgst k) 63 48 = k.grid.act.blockid % 2 ^ 16 ∧
    fld (srCfgst k) 47 32 = k.grid.sh.blockid % 2 ^ 16 ∧ bitAt (srCfgst k) 31 = k.grid.sh.valid ∧ bitAt (srCfgst k) 30 = k.grid.armed ∧
    fld (srCfgst k) 29 28 = k.grid.lstate % 4 := by
  have hv := Bool.toNat_le k.grid.sh.valid
  have ha := Bool.toNat_le k.grid.armed
  simp only [srCfgst, ite_eq_toNat]
  refine ⟨?_, ?_, bitAt_ofNat_eq (by decide) ?_, bitAt_ofNat_eq (by decide) ?_, ?_⟩
  · rw [fld_ofNat (by omega)]
    simp only [Nat.reducePow, Nat.reduceAdd, Nat.reduceSub]
    omega
  · rw [fld_ofNat (by omega)]
    simp only [Nat.reducePow, Nat.reduceAdd, Nat.reduceSub]
    omega
  · omega
  · omega
  · rw [fld_ofNat (by omega)]
    simp only [Nat.reducePow, Nat.reduceAdd, Nat.reduceSub]
    omega

/-- The fields of GSTAT's word below those of sr.cfgst (R354). -/
theorem statusLow_fields (g : Grid) : bitAt (BitVec.ofNat 64 (statusLow g)) 27 = g.held ∧
    bitAt (BitVec.ofNat 64 (statusLow g)) 26 = gridBusy g ∧ fld (BitVec.ofNat 64 (statusLow g)) 18 16 = g.queue.length % 8 ∧
    fld (BitVec.ofNat 64 (statusLow g)) 15 0 = min g.dones 0xFFFF := by
  have hh := Bool.toNat_le g.held
  have hb := Bool.toNat_le (gridBusy g)
  have hd : min g.dones 0xFFFF ≤ 0xFFFF := Nat.min_le_right ..
  simp only [statusLow, ite_eq_toNat]
  generalize min g.dones 0xFFFF = m at hd
  refine ⟨bitAt_ofNat_eq (by decide) ?_, bitAt_ofNat_eq (by decide) ?_, ?_, ?_⟩
  · omega
  · omega
  · rw [fld_ofNat (by omega)]
    simp only [Nat.reducePow, Nat.reduceAdd, Nat.reduceSub]
    omega
  · rw [fld_ofNat (by omega)]
    simp only [Nat.reducePow, Nat.reduceAdd, Nat.reduceSub]
    omega

/-! ### GSTV (R355) -/

section
variable {s : State} {a b : Reg} (hs : Clear s) (ho : OperandOk (s.reg a).toNat 256 64) (hy : fld (s.reg b) 63 7 = 0)
    (hf : Config.fusedElem s.turn (fld (s.reg b) 6 0) = false)
include hs ho hy hf

omit hs in
theorem gstvFaults_pass : (gstvFaults s (s.reg a) (s.reg b)).findSome? id = none := by
  simp [gstvFaults, failIf, hy, hf, operandFault_of_ok ho]

theorem exec_gstv_writes : exec (.gstv a b) s =
    .next ((s.write (loadTarget s s.turn (fld (s.reg b) 6 0)) (s.read (winBase s.turn + (s.reg a).toNat) 256)).advance 4) := by
  rw [exec_gstv, execGstv]
  refine (command_passes hs.1 (gstvFaults_pass ho hy hf) ..).trans ?_
  rw [withOperand_read hs.2]
  rfl

theorem exec_gstvAct_writes (hb : gridBusy s.cur.grid = false) : exec (.gstvAct a b) s =
    .next ((s.write (statKey s.turn (fld (s.reg b) 6 0) false) (s.read (winBase s.turn + (s.reg a).toNat) 256)).advance 4) := by
  rw [exec_gstvAct, execGstvAct]
  refine (command_passes hs.1 (gstvFaults_pass ho hy hf) ..).trans ?_
  rw [if_neg (by rw [hb]; exact Bool.false_ne_true), withOperand_read hs.2]
  rfl

theorem exec_gstvAct_waits (hb : gridBusy s.cur.grid = true) : exec (.gstvAct a b) s = .next s.wait := by
  rw [exec_gstvAct, execGstvAct]
  exact (command_passes hs.1 (gstvFaults_pass ho hy hf) ..).trans (if_pos hb)

end

/-- Settles O15: each command by its checks and the grid's queue; GSTAT's fields bit by bit. -/
theorem gridCommands : Obligations.GridCommands := by
  constructor
  · intro s d a b k x e enters goes vector hs
    have ha := hs.1
    refine ⟨fun hx hl harm hlib hq => (exec_gload_passes ha hx hl harm hlib).trans (gridPush_enters hq),
      fun h hsh hq => ⟨(gswap_passes ha h hsh).trans (gridPush_enters hq), (gswap_passes ha h hsh).trans (gridPush_enters hq)⟩,
      fun hq harm hdr => ?_, fun h => ⟨gswap_traps ha h, gswap_traps ha h⟩,
      fun hx hl harm hlib hq => (exec_gload_passes ha hx hl harm hlib).trans (gridPush_waits hq),
      fun h hsh hq => ⟨(gswap_passes ha h hsh).trans (gridPush_waits hq), (gswap_passes ha h hsh).trans (gridPush_waits hq)⟩,
      fun h hq => (goFault_passes ha h _).trans (gridPush_enters hq), fun h hq => (goFault_passes ha h _).trans (gridPush_waits hq),
      fun h => ⟨goFault_passes ha h _, goFault_passes ha h _⟩,
      fun h => ⟨goFault_traps ha h _, goFault_traps ha h _, goFault_traps ha h _⟩,
      command_passes (cs := fun _ => []) ha rfl .., fun ho hy hf => ⟨exec_gstv_writes hs ho hy hf, exec_gstvAct_writes hs ho hy hf,
        exec_gstvAct_waits hs ho hy hf⟩⟩
    simp [shadowAhead, hq, harm, hdr]
  · intro k w g
    obtain ⟨hact, hsh, hv, harm, hl⟩ := srCfgst_fields k
    obtain ⟨hheld, hbusy, hq, hd⟩ := statusLow_fields g
    have high {i : Nat} (h : 28 ≤ i) (hi : i < 64) : bitAt w i = bitAt (srCfgst k) i := by rw [bitAt_gridStatus k hi, if_pos h]
    have low {i : Nat} (h : i < 28) : bitAt w i = bitAt (BitVec.ofNat 64 (statusLow g)) i := by
      rw [bitAt_gridStatus k (by omega), if_neg (by omega), bitAt, BitVec.getLsbD_ofNat, decide_eq_true (by omega), Bool.true_and]
    exact ⟨(fld_gridStatus_high k (by decide) (by decide)).trans hact, (fld_gridStatus_high k (by decide) (by decide)).trans hsh,
      (high (by decide) (by decide)).trans hv, (high (by decide) (by decide)).trans harm,
      (fld_gridStatus_high k (by decide) (by decide)).trans hl, (low (by decide)).trans hheld, (low (by decide)).trans hbusy,
      (fld_gridStatus_low k (by decide)).trans hq, (fld_gridStatus_low k (by decide)).trans hd⟩

end Sys2Proof.Machine
end

section
/-! Stream commands of the CP: O16 (R356 to R363). -/

namespace Sys2Proof.Machine

open State

theorem checks_pass {s : State} {cs : List (Option Nat)} (h : ∀ c ∈ cs, c = none) (tval : Nat) (f : State → Result) :
    checks cs tval s f = f s := by
  have hn : cs.findSome? id = none := List.findSome?_eq_none_iff.2 h
  rw [checks, hn]

/-! ### Engines -/

theorem engine_setEngine (k : Core) (n i : Nat) (x : Engine) : (k.setEngine n x).engine i = if i = n then x else k.engine i :=
  NMap.getD_put ..

theorem engine_pushStream (k : Core) (n i : Nat) (m : StrCmd) : (pushStream n m k).engine i =
    if i = n then { k.engine n with queue := (k.engine n).queue ++ [m], issued := (k.engine n).issued + 1 } else k.engine i :=
  engine_setEngine ..

/-- The copies and reads that a stream command puts into the queues (R356). -/
def streamPut (kind n : Nat) (m : StrCmd) (k : Core) : Core :=
  if kind = 0 then pushStream n m k
  else if kind = 1 then pushStream (2 + n) m k
  else pushStream (2 + n) m (pushStream n { m with kind := 3, seq := (k.engine n).issued } k)

/-- The descriptor at an address of own tile SRAM (R357). -/
def descAt (s : State) (x : Nat) : List Word := (chunks 8 8 (s.read (winBase s.turn + x) 64)).map fun b => BitVec.ofNat 64 (ofLe b)

/-- A stream command that no check refuses and whose queues have a place (R356). -/
theorem streamIssue_enters {s : State} {kind : Nat} {d a : Reg} {e : BitVec 1} (hs : Clear s) (ho : OperandOk (s.reg a).toNat 64 64)
    (hi : ∀ f ∈ streamFaults s (newStream s kind e.toNat (descAt s (s.reg a).toNat)), f = none)
    (hr : kind ≠ 1 → (s.cur.engine e.toNat).queue.length < 8) (hw : kind ≠ 0 → (s.cur.engine (2 + e.toNat)).queue.length < 8) :
    streamIssue kind d a e s = .next (((s.modCur fun k =>
      { streamPut kind e.toNat (newStream s kind e.toNat (descAt s (s.reg a).toNat)) k with
        issueSeq := (streamPut kind e.toNat (newStream s kind e.toNat (descAt s (s.reg a).toNat)) k).issueSeq + 1 }).setReg d
      (ticket kind e.toNat (newStream s kind e.toNat (descAt s (s.reg a).toNat)).seq)).advance 4) := by
  refine (command_passes hs.1 (by simp [operandFault_of_ok ho]) ..).trans ?_
  rw [withOperand_read hs.2]
  refine (checks_pass hi ..).trans (if_neg ?_)
  rintro (⟨hk, h⟩ | ⟨hk, h⟩)
  · exact absurd (hr hk) (Nat.not_lt.2 (of_decide_eq_true h))
  · exact absurd (hw hk) (Nat.not_lt.2 (of_decide_eq_true h))

/-! ### Instructions that change their core, write rd and go on -/

theorem Core.setReg_eq (k : Core) (d : Reg) (v : Word) : k.setReg d v = { k with regs := (k.setReg d v).regs } := by
  unfold Core.setReg
  split <;> rfl

section
variable (s : State) (f : Core → Core) (d : Reg) (v : Word)

/-- The moving core after its own change, a register written and the next word reached. -/
theorem cur_finished : (((s.modCur f).setReg d v).advance 4).cur =
    { f s.cur with regs := ((f s.cur).setReg d v).regs, pc := (f s.cur).pc + 4, waitSince := none } := by
  rw [cur_advance, cur_setReg, cur_modCur, Core.setReg_eq]

theorem reg_finished (hd : d ≠ 0) : (((s.modCur f).setReg d v).advance 4).reg d = v := by
  have hk : (((s.modCur f).setReg d v).advance 4).reg d = ((f s.cur).setReg d v).reg d := by
    rw [State.reg, cur_finished]
    rfl
  rw [hk, Core.reg_setReg, if_neg hd, if_pos rfl]

end

/-! ### SAGC, SXLT and SWAIT (R361 to R363) -/

section
variable {s : State} {a : Reg} (ha : acquireHeld s.cur = false) (h1 : fld (s.reg a) 63 42 = 0) (h2 : fld (s.reg a) 39 33 = 0)
    (h3 : fld (s.reg a) 41 40 ≠ 3) (h4 : fld (s.reg a) 31 0 < (s.cur.engine (ticketEngine (s.reg a))).issued)
include ha h1 h2 h3 h4

/-- SWAIT of a command that was issued (R363). -/
theorem swait_tests (vis : Bool) : swait vis a s =
    if streamReached (s.cur.engine (ticketEngine (s.reg a))) (fld (s.reg a) 31 0) vis then .next (s.advance 4) else .next s.wait :=
  command_passes ha (by simp [failIf, h1, h2, h3, Nat.not_le.2 h4]) ..

end

/-- Settles O16: the stream commands by the queue they enter, the others by their checks. -/
theorem streamCommands : Obligations.StreamCommands := by
  constructor
  · intro s d a e x n desc re we issued hs ho
    have hn : n ≠ 2 + n := by omega
    refine ⟨fun hi hr => ?_, fun hi hw => ?_, fun hi hr hw => ?_⟩
    · refine ⟨_, streamIssue_enters (kind := 0) hs ho hi (fun _ => hr) (fun h => absurd rfl h), ?_, ?_, rfl⟩
      · rw [cur_finished]
        exact congrArg Engine.queue ((engine_pushStream ..).trans (if_pos rfl))
      · rw [cur_finished]
        exact congrArg Engine.issued ((engine_pushStream ..).trans (if_pos rfl))
    · refine ⟨_, streamIssue_enters (kind := 1) hs ho hi (fun h => absurd rfl h) (fun _ => hw), ?_, ?_,
      fun hd => reg_finished _ _ _ _ hd, ?_, rfl⟩
      · rw [cur_finished]
        exact congrArg Engine.queue ((engine_pushStream ..).trans (if_pos rfl))
      · rw [cur_finished]
        exact congrArg Engine.issued ((engine_pushStream ..).trans (if_pos rfl))
      · rw [cur_finished]
        rfl
    · refine ⟨_, streamIssue_enters (kind := 2) hs ho hi (fun _ => hr) (fun _ => hw), ?_, ?_,
      fun hd => reg_finished _ _ _ _ hd, ?_, rfl⟩
      · rw [cur_finished]
        refine (congrArg Engine.queue ((engine_pushStream ..).trans (if_pos rfl))).trans ?_
        rw [engine_pushStream, if_neg hn.symm]
        rfl
      · rw [cur_finished]
        refine (congrArg (List.length ∘ Engine.queue) ((engine_pushStream ..).trans ((if_neg hn).trans
          ((engine_pushStream ..).trans (if_pos rfl))))).trans ?_
        exact List.length_append
      · rw [cur_finished]
        rfl
  · intro s a b c e
    dsimp only
    intro hs
    refine ⟨fun ho hy h0 h5 hbad hbusy => ?_, fun h1 h2 h3 => ?_, fun h1 h2 h3 h4 => ?_⟩
    · rw [exec_sagc, execSagc]
      refine (command_passes hs.1 (by simp [failIf, hy, operandFault_of_ok ho]) ..).trans ?_
      rw [withOperand_read hs.2]
      exact checks_pass (by simp only [failIf, h0, h5, hbad, hbusy]; decide) ..
    · rw [exec_sxlt, execSxlt]
      refine command_passes hs.1 ?_ ..
      rcases h3 with h | ⟨h, hm⟩
      · simp [failIf, h1, h2, show fld (s.reg a) 1 0 ≠ 3 by omega, show fld (s.reg a) 1 0 ≠ 2 by omega]
      · simp [failIf, h1, h2, h, hm]
    · have test := swait_tests hs.1 h1 h2 h3 h4
      exact ⟨fun h => (test false).trans (if_pos h), fun h => (test false).trans (if_neg (by rw [h]; exact Bool.false_ne_true)),
        fun h => (test true).trans (if_pos h), fun h => (test true).trans (if_neg (by rw [h]; exact Bool.false_ne_true))⟩

end Sys2Proof.Machine
end

section
/-! Ring windows, firings and mode tokens: O17, O18 (R364 to R369). -/

namespace Sys2Proof.Machine

open State

/-! ### Ring windows (R364, R365) -/

theorem releaseDesc_fields (d : WinDesc) : (releaseDesc d).valid = false ∧ (releaseDesc d).occ = 0 ∧ (releaseDesc d).att = false := by
  refine ⟨?_, ?_, rfl⟩
  · rw [WinDesc.valid, releaseDesc, bitAt, BitVec.getLsbD_and]
    exact Bool.and_false _
  · rw [WinDesc.occ, releaseDesc, BitVec.sub_self]
    rfl

/-- The actor-table entries of a port are bytes of memory alone (R365). -/
theorem unbindPort_keeps (s : State) (c i : Nat) : (unbindPort s c i).cores = s.cores ∧ (unbindPort s c i).turn = s.turn := by
  constructor
  · exact foldl_keeps State.cores (fun s n => by split <;> rfl) ..
  · exact foldl_keeps State.turn (fun s n => by split <;> rfl) ..

theorem cur_unbindPort (s : State) (c i : Nat) : (unbindPort s c i).cur = s.cur := by
  obtain ⟨hc, ht⟩ := unbindPort_keeps s c i
  rw [State.cur, State.cur, State.core, State.core, hc, ht]

/-- Settles O17: each command by its checks. -/
theorem ringWindowCommands : Obligations.RingWindowCommands := by
  intro s d a b
  dsimp only
  intro hs
  have ha := hs.1
  refine ⟨fun hu hx ho hi hold hp hl hw => ?_, fun hu hx hi hv => ?_, fun hu hx hi hv hatt => ?_, fun hx hi => ?_, fun hx hi => ?_⟩
  · have hold' : ((s.cur.desc (fld (s.reg a) 7 0)).valid && !(s.cur.desc (fld (s.reg a) 7 0)).att) = false := by
      rcases hold with h | h <;> simp [h]
    have hi' : decide (63 < fld (s.reg a) 7 0) = false := decide_eq_false (by omega)
    rw [exec_rwset, execRwset, privileged_of_not_user hu]
    refine (command_passes ha (by simp [failIf, hx, operandFault_of_ok ho]) ..).trans ?_
    rw [withOperand_read hs.2]
    exact checks_pass (by simp only [failIf, hi', hold', hp, hl, hw]; decide) ..
  · rw [exec_rwrst, execRwrst, privileged_of_not_user hu]
    refine (command_passes ha (by simp [failIf, hx, hv, show ¬ 63 < fld (s.reg a) 7 0 by omega]) ..).trans ?_
    rw [if_neg (by rw [hv]; exact Bool.false_ne_true)]
    rfl
  · rw [exec_rwrst, execRwrst, privileged_of_not_user hu]
    refine ⟨_, (command_passes ha (by simp [failIf, hx, hatt, show ¬ 63 < fld (s.reg a) 7 0 by omega]) ..).trans (if_pos hv), ?_⟩
    rw [cur_advance, cur_unbindPort, cur_modCur]
    have hd (k : Core) (i : Nat) (w : WinDesc) : ({ k with descs := NMap.put k.descs i w } : Core).desc i = w := NMap.getD_put_self ..
    obtain ⟨h1, h2, h3⟩ := releaseDesc_fields (s.cur.desc (fld (s.reg a) 7 0))
    refine ⟨?_, ?_, ?_, rfl⟩
    · exact (congrArg WinDesc.valid (hd ..)).trans h1
    · exact (congrArg WinDesc.occ (hd ..)).trans h2
    · exact (congrArg WinDesc.att (hd ..)).trans h3
  · rw [exec_rwqry, execRwqry]
    exact command_passes ha (by simp [failIf, hx, show ¬ 63 < fld (s.reg a) 7 0 by omega]) ..
  · rw [exec_rwqry, execRwqry]
    exact command_traps ha (by simp [failIf, hx, show 63 < fld (s.reg a) 7 0 by omega]) ..

/-! ### The mover stays the same (R126, R172, R366) -/

namespace State

theorem release_turn (s : State) (h : Nat) : (s.release h).turn = s.turn := by
  cases hg : s.graph? h with
  | none => simp only [release, hg]
  | some g =>
    simp only [release, hg]
    exact foldl_modCore_turn ..

theorem queueDump_turn (s : State) (h : Nat) : (s.queueDump h).turn = s.turn := by
  unfold queueDump
  split
  · rw [release_turn]
    exact (congrArg State.turn (sansTold_notifyCopied s h _) :)
  · rfl

theorem secondFault_turn (s : State) (h : Nat) (n : Notice) : (s.secondFault h n).turn = s.turn := by
  obtain ⟨d, he, -⟩ := s.secondFault_eq h n
  rw [he]

theorem modGraph_turn (s : State) (h : Nat) (f : Graph → Graph) : (s.modGraph h f).turn = s.turn :=
  (congrArg State.turn (sansTold_modGraph s h f) :)

theorem haltGraph_of_dead {s : State} {h : Nat} (n : Notice) (hd : ∀ g, s.graph? h = some g → ¬ g.Haltable ∧ g.phase ≠ .halted) :
    s.haltGraph h n = s := by
  unfold haltGraph
  split
  · rfl
  · next g hg =>
    obtain ⟨hl, hp⟩ := hd g hg
    cases hph : g.phase <;> simp_all [Graph.Haltable]

theorem haltGraph_turn (s : State) (h : Nat) (n : Notice) : (s.haltGraph h n).turn = s.turn := by
  cases hg : s.graph? h with
  | none => rw [haltGraph_of_dead n (fun g h' => by rw [hg] at h'; cases h')]
  | some g =>
    by_cases hl : g.Haltable
    · calc (s.haltGraph h n).turn = ((s.stopTold h g n).queueDump h).turn := (congrArg State.turn (sansTold_haltGraph n hg hl) :)
        _ = (s.stopTold h g n).turn := queueDump_turn ..
        _ = (s.stopGraph h g n).turn := (congrArg State.turn (sansTold_stopTold s h g n) :)
        _ = s.turn := stopGraph_turn ..
    · by_cases hp : g.phase = .halted
      · rw [haltGraph_of_halted n hg hp, secondFault_turn, modGraph_turn]
      · rw [haltGraph_of_dead n (fun g' h' => by rw [hg] at h'; cases h'; exact ⟨hl, hp⟩)]

theorem haltCopied_turn (s : State) (h : Nat) (n : Notice) : (s.haltCopied h n).turn = s.turn := by
  rw [haltCopied, haltGraph_turn]
  split
  · rfl
  · exact (congrArg State.turn (sansTold_tellMgmt ..) :)

theorem haltToken_turn (s : State) (c cause port chan ord : Nat) : (s.haltToken c cause port chan ord).turn = s.turn := by
  rw [haltToken, haltReached]
  split
  · exact haltCopied_turn ..
  · exact haltGraph_turn ..

end State

theorem freeTokens_turn (c : Nat) (s : State) (p : Nat) : (freeTokens c s p).turn = s.turn := by
  unfold freeTokens
  dsimp only
  split
  · rfl
  · split_ifs
    · rfl
    · exact haltToken_turn ..
    · rfl

theorem gangOff_turn (s : State) (c : Nat) : (gangOff s c).turn = s.turn := by
  unfold gangOff
  split
  · exact foldl_modCore_turn (fun _ c' => c') (fun _ _ k => { k with matrix := { k.matrix with gang := false } }) ..
  · rfl

/-- The firing of a core has ended: INFIRE is cleared and its CP executes nothing more (R366). -/
theorem endFiring_ends (s : State) (c : Nat) :
    (endFiring s c).turn = s.turn ∧ ((endFiring s c).core c).infire = false ∧ ((endFiring s c).core c).run ≠ .running := by
  refine ⟨?_, ?_, ?_⟩
  · rw [endFiring, modCore_turn, advanceHead, modCore_turn]
    exact foldl_keeps State.turn (freeTokens_turn c) ..
  · rw [endFiring, core_modCore_self, Core.infire, bitAt, BitVec.getLsbD_and]
    exact Bool.and_false _
  · rw [endFiring, core_modCore_self]
    dsimp only
    split
    · exact Run.noConfusion
    · assumption

/-! ### FDONE and FABORT (R366, R367) -/

/-- What an FDONE does in a firing that is not held. -/
theorem exec_fdone_checked {s : State} (ha : acquireHeld s.cur = false) (hi : s.cur.infire = true) (hh : s.cur.grid.held = false)
    (hg : gangSkew s s.turn = false) : exec .fdone s =
      if firingSettled s.cur = false then .next (match excessPort s s.turn with
        | some p => monitorTrap s s.turn 0x051 p (s.cur.port s.cur.actorNo p).ord
        | none => s.wait)
      else if gangPending s s.turn then .next s.wait
      else match shortPort s s.turn 0, shortPort s s.turn 16 with
        | some p, _ => .next (rateTrap s s.turn 0x053 p (s.cur.port s.cur.actorNo p).ord)
        | none, some p => .next (rateTrap s s.turn 0x052 p (s.cur.port s.cur.actorNo p).ord)
        | none, none => .next (endFiring (gangOff s s.turn) s.turn) := by
  rw [exec_fdone, execFdone]
  refine (command_passes ha (by simp [failIf, hi, hh]) ..).trans ?_
  simp only [hg, Bool.false_eq_true, if_false, Bool.not_eq_true'] <;> rfl

/-! ### Mode tokens (R368, R369) -/

theorem low_of_high_zero {x : Word} {n : Nat} (hn : n < 64) (h : fld x 63 n = 0) : fld x (n - 1) 0 = x.toNat ∨ n = 0 := by
  by_cases h0 : n = 0
  · exact .inr h0
  · left
    rw [fld_eq, Nat.pow_zero, Nat.div_one, Nat.sub_zero, Nat.sub_add_cancel (by omega)]
    exact Nat.mod_eq_of_lt ((fld_top_eq_zero x (by omega)).1 h)

section
variable {s : State} {a : Reg} {g : Graph} (ha : acquireHeld s.cur = false) (hx : fld (s.reg a) 63 32 = 0)
    (hp : (portRecOf s s.turn s.cur.actorNo 33).isSome = true)
include ha hx hp

/-- The core of a MODE after its send (R368). -/
def Core.sentMode (k : Core) (t : Nat) : Core :=
  { k with modeTok := some t, modeSeq := k.issueSeq, modeRes := none, modeSent := true, issueSeq := k.issueSeq + 1 }

theorem exec_mode_checked (hi : s.cur.infire = true) (hm : s.cur.modeSent = false) (hg : s.graph? s.cur.graph = some g) :
    exec (.mode a) s = if 4 ≤ g.modeCtl.waiting.length then .next s.wait
      else .next ((modeArrive (s.modCur fun k => k.sentMode (s.reg a).toNat) s.cur.graph (s.reg a).toNat (s.turn + 1)
        s.cur.issueSeq).advance 4) := by
  have hlow : fld (s.reg a) 31 0 = (s.reg a).toNat := (low_of_high_zero (n := 32) (by decide) hx).resolve_right (by decide)
  rw [exec_mode, execMode]
  refine (command_passes ha (by simp [failIf, hx, Option.isNone_iff_eq_none, Option.isSome_iff_ne_none.1 hp, hi, hm]) ..).trans ?_
  simp only [hg, decide_eq_true_eq, hlow]
  rfl

theorem exec_mode_refused (h : s.cur.infire = false ∨ s.cur.modeSent = true) : exec (.mode a) s = .next (s.trap 0x135 0) := by
  rw [exec_mode, execMode]
  refine command_traps ha ?_ ..
  obtain ⟨y, hy⟩ := Option.isSome_iff_exists.1 hp
  rcases h with h | h <;> simp [failIf, hx, hy, h]

end

theorem cur_modGraph (s : State) (h : Nat) (f : Graph → Graph) : (s.modGraph h f).cur = s.cur := by
  rw [State.cur, core_modGraph, modGraph_turn]
  rfl

/-- Settles O18: each command by its checks and what it waits for. -/
theorem firingAndModeCommands : Obligations.FiringAndModeCommands := by
  constructor
  · intro s a g
    dsimp only
    intro hs
    have ha := hs.1
    refine ⟨fun hi => ⟨?_, ?_⟩, fun hi hh hg hset hpend h0 h16 => ?_, fun hi hh hg => ⟨fun hset hpend => ?_, fun hset hex => ?_,
      fun p hset hex => ?_⟩, fun hi hg hp hq => ?_⟩
    · rw [exec_fdone, execFdone]
      exact command_traps ha (by simp [failIf, hi]) ..
    · rw [exec_fabort, execFabort]
      exact command_traps ha (by simp [failIf, hi]) ..
    · have hrun := exec_fdone_checked ha hi hh hg
      obtain ⟨hturn, hend, hstop⟩ := endFiring_ends (gangOff s s.turn) s.turn
      have hcur : (endFiring (gangOff s s.turn) s.turn).cur = (endFiring (gangOff s s.turn) s.turn).core s.turn := by
        rw [State.cur, hturn, gangOff_turn]
      rw [if_neg (by simp [hset]), if_neg (by rw [hpend]; exact Bool.false_ne_true), h0, h16] at hrun
      exact ⟨_, hrun, rfl, by rw [hcur]; exact hend, by rw [hcur]; exact hstop⟩
    · rw [exec_fdone_checked ha hi hh hg, if_neg (by simp [hset]), if_pos hpend]
    · rw [exec_fdone_checked ha hi hh hg, if_pos hset, hex]
    · rw [exec_fdone_checked ha hi hh hg, if_pos hset, hex]
    · have hl : g.Haltable := .inr (.inr (.inl hp))
      have hrec := haltGraph_record { cause := 0x05C, core := coreName s.turn, detail := fld (s.reg a) 15 0 } hg hl hq
      obtain ⟨g', hf, hval⟩ := Option.map_eq_some_iff.1 hrec
      simp only [Prod.mk.injEq] at hval
      obtain ⟨h1, h2, -, h4⟩ := hval
      rw [exec_fabort, execFabort]
      refine ⟨_, command_passes ha (by simp [failIf, hi]) .., ?_, ?_, ?_⟩ <;> rw [hf, Option.map_some]
      · rw [h1]
      · rw [h2]
      · rw [h4]
  · intro s d a g r
    dsimp only
    intro hs
    have ha := hs.1
    refine ⟨fun hx hp hi hm hg hw hd => ?_, fun hx hp hi hm hg hw => ?_, fun hx hp h => exec_mode_refused ha hx hp h, fun ht => ?_,
      fun ht hr => ?_, fun ht hr => ?_⟩
    · have hrun := exec_mode_checked ha hx hp hi hm hg
      have hg' : (s.modCur fun k => k.sentMode (s.reg a).toNat).graph? s.cur.graph = some g := hg
      rw [if_neg (by omega), modeArrive_waits hg' hd] at hrun
      refine ⟨_, hrun, ?_⟩
      rw [cur_advance, cur_modGraph, cur_modCur]
      refine ⟨rfl, rfl, rfl, rfl, ?_⟩
      have hfind := graph?_modGraph hg' fun g => { g with modeCtl := { g.modeCtl with
        waiting := g.modeCtl.waiting ++ [((s.reg a).toNat, s.turn + 1, s.cur.issueSeq)] } }
      exact congrArg (Option.map fun g => g.modeCtl.waiting) hfind
    · rw [exec_mode_checked ha hx hp hi hm hg, if_pos hw]
    · rw [exec_mwait, execMwait]
      exact command_traps ha (by simp [failIf, ht]) ..
    · rw [exec_mwait, execMwait]
      refine (command_passes ha (by simp [failIf, Option.isSome_iff_ne_none.1 ht]) ..).trans ?_
      rw [hr]
    · rw [exec_mwait, execMwait]
      refine (command_passes ha (by simp [failIf, Option.isSome_iff_ne_none.1 ht]) ..).trans ?_
      rw [hr]
      rfl

end Sys2Proof.Machine
end

section
/-! Launches, barriers, deck, RNG and append commands: O19, O20, O21 (R370 to R380). -/

namespace Sys2Proof.Machine

open State

/-! ### Launches and barriers (R370 to R374) -/

/-- The context of a handle. -/
theorem fld_handle (x : Word) : fld x 31 0 / 2 ^ 28 = fld x 31 28 := by
  rw [fld_eq, fld_eq]
  omega

section
variable {s : State} {d a : Reg} (ha : acquireHeld s.cur = false) (hx : fld (s.reg a) 63 44 = 0)
    (hc : s.ctxOf s.turn = some (fld (s.reg a) 31 28))
include ha hx hc

/-- LWAIT of a handle of the context (R371). -/
theorem lwait_passes : exec (.lwait d a) s =
    if fld (s.reg a) 43 32 ≠ s.links.pkg then
      match s.cur.awaited with
      | some (p, g, r) =>
        if p = fld (s.reg a) 43 32 ∧ g = fld (s.reg a) 31 0 then
          finish (s.modCur fun k => { k with awaited := none }) d (BitVec.ofNat 64 (r % 512))
        else .next (s.modCur fun k => { k with awaited := none }).wait
      | none => .next s.wait
    else match launchOutcome s (fld (s.reg a) 31 28) (fld (s.reg a) 31 0) with
      | none => .next s.wait
      | some r => finish s d (BitVec.ofNat 64 r) := by
  rw [exec_lwait, execLwait]
  have hh : fld (s.reg a) 31 0 / 268435456 = fld (s.reg a) 31 28 := fld_handle _
  refine (command_passes ha (by simp [failIf, hx, hc, hh]) ..).trans ?_
  simp only [hc, Option.getD_some] <;> rfl

end

theorem graph?_advance (s : State) (n h : Nat) : (s.advance n).graph? h = s.graph? h := rfl

/-- A core with its own record of a barrier. -/
def Core.setBar (k : Core) (n : Nat) (m : CoreBar) : Core := { k with bars := NMap.put k.bars n m }

/-- A graph with a barrier set at a key. -/
def Graph.setInst (g : Graph) (key : Nat) (i : BarInst) : Graph := { g with barriers := NMap.put g.barriers key i }

/-- BARI of a barrier that is not set yet (R372). -/
theorem bari_sets {s : State} {a b : Reg} {n : BitVec 3} {g : Graph} (ha : acquireHeld s.cur = false) (hy : fld (s.reg b) 63 2 = 0)
    (hs : fld (s.reg b) 1 0 ≠ 0) (h0 : 0 < (s.reg a).toNat) (hl : (s.reg a).toNat ≤ barLimit (scopeOf (fld (s.reg b) 1 0)))
    (hg : s.graph? s.cur.graph = some g) (hn : (barKeys n.toNat s.turn).findSome? (barInst g) = none) :
    exec (.bari a b n) s = .next (((s.modCur fun k => k.setBar n.toNat { (NMap.getD ({} : CoreBar) s.cur.bars n.toNat) with
      inited := true, p := (s.reg a).toNat, scope := scopeOf (fld (s.reg b) 1 0) }).modGraph s.cur.graph fun _ =>
        g.setInst (barKey n.toNat (scopeOf (fld (s.reg b) 1 0)) s.turn)
          { scope := scopeOf (fld (s.reg b) 1 0), p := (s.reg a).toNat }).advance 4) := by
  rw [exec_bari, execBari]
  refine (command_passes ha (by simp [failIf, hy, hs, show (s.reg a).toNat ≠ 0 by omega, Nat.not_lt.2 hl]) ..).trans ?_
  simp only [hg, bariAt, hn]
  rfl

theorem tokenFaults_pass {s : State} {x : Word} (h1 : fld x 63 56 = 0) (h2 : fld x 47 43 = 0) (h3 : fld x 39 32 = 0)
    (h4 : fld x 55 48 = s.cur.graph % 256) (h5 : (NMap.getD ({} : CoreBar) s.cur.bars (fld x 42 40)).inited = true) :
    (tokenFaults s x).findSome? id = none := by
  simp [tokenFaults, failIf, h1, h2, h3, h4, h5]

/-- Settles O19: each command by its checks and what it waits for. -/
theorem launchesAndBarriers : Obligations.LaunchesAndBarriers := by
  intro s d a b q n g r
  dsimp only
  intro ha
  refine ⟨fun h1 h2 hb h3 => ?_, fun hx hc hp ho => ?_, fun hx hc hp ho => ?_, fun hx hc hp => ⟨fun hw => ?_, fun hw => ?_⟩,
    fun hy hs h0 hl hg hn => ?_, fun hi => ?_, fun hi hk => ?_, fun hi hk => ?_, fun htok => ?_⟩
  · rw [exec_lnch, execLnch]
    exact command_passes ha (by simp [failIf, h1, h2, hb, h3]) ..
  · rw [lwait_passes ha hx hc, if_neg (not_not_intro hp), ho]
    rfl
  · rw [lwait_passes ha hx hc, if_neg (not_not_intro hp), ho]
  · rw [lwait_passes ha hx hc, if_pos hp, hw]
  · rw [lwait_passes ha hx hc, if_pos hp, hw]
    exact if_pos ⟨rfl, rfl⟩
  · refine ⟨_, bari_sets ha hy hs h0 hl hg hn, ?_, ?_, ?_⟩
    · rw [cur_advance, cur_modGraph, cur_modCur]
      rfl
    · rw [cur_advance, cur_modGraph, cur_modCur]
      exact congrArg CoreBar.inited (NMap.getD_put_self ..)
    · rw [graph?_advance, graph?_modGraph (show (s.modCur _).graph? s.cur.graph = some g from hg)]
      exact NMap.find_put_self ..
  · rw [exec_bara, execBara]
    exact command_traps ha (by simp [failIf, hi]) ..
  · rw [exec_bara, execBara]
    refine ⟨_, (command_passes ha (by simp [failIf, hi]) ..).trans (if_neg (Nat.not_le.2 hk)), rfl⟩
  · rw [exec_bara, execBara]
    exact (command_passes ha (by simp [failIf, hi]) ..).trans (if_pos (Nat.not_lt.1 hk))
  · obtain ⟨h1, h2, h3, h4, h5⟩ := htok
    have hpass := tokenFaults_pass h1 h2 h3 h4 h5
    rw [exec_bart, execBart, exec_barw, execBarw]
    refine ⟨(command_passes ha hpass ..).trans ?_, fun hd => (command_passes ha hpass ..).trans (if_pos hd),
      fun hd => (command_passes ha hpass ..).trans (if_neg (by rw [hd]; exact Bool.false_ne_true))⟩
    rw [flagWord_eq]
    rfl

/-! ### Deck commands (R375 to R377) -/

/-- DKST inside the context's range (R375). -/
theorem dkst_passes {s : State} {a b : Reg} (hs : Clear s) (h1 : fld (s.reg b) 63 45 = 0) (h2 : fld (s.reg b) 31 21 = 0)
    (h0 : 0 < fld (s.reg b) 44 32) (hn : fld (s.reg b) 44 32 ≤ 4096) (hin : (s.reg a).toNat + fld (s.reg b) 44 32 ≤ 2 ^ 20)
    (hr : deckRangeOk s s.turn s.cur.mode (s.reg a).toNat (fld (s.reg b) 44 32) = true) (hw : hasWindowSlot s s.turn = true)
    (hsrc : fld (s.reg b) 20 0 + fld (s.reg b) 44 32 ≤ tileSize) : exec (.dkst a b) s =
      if 16 ≤ s.cur.deckq.length then .next s.wait
      else .next (((deckPush (deckOp s (s.reg a).toNat (s.read (winBase s.turn + fld (s.reg b) 20 0) (fld (s.reg b) 44 32))) s).modCur
        fun k => { k with issueSeq := k.issueSeq + 1 }).advance 4) := by
  have hop : operandFault (fld (s.reg b) 20 0) (fld (s.reg b) 44 32) 1 = none :=
    operandFault_of_ok ⟨h0, hsrc, Nat.mod_one _⟩
  have hin' : ¬ 1048576 < (s.reg a).toNat + fld (s.reg b) 44 32 := Nat.not_lt.2 hin
  rw [exec_dkst, execDkst]
  refine (command_passes hs.1 (by simp [failIf, h1, h2, show fld (s.reg b) 44 32 ≠ 0 by omega, Nat.not_lt.2 hn, hin', hr, hw, hop])
    ..).trans ?_
  rw [withOperand_read hs.2]
  rfl

section
variable {s : State} {a b : Reg} {w : AWidth} {q : QNum} (ha : acquireHeld s.cur = false) (hb : (s.cur.entry q.toNat).busy = false)
    (hin : (s.reg a).toNat + awidthBytes w ≤ 2 ^ 20)
    (hr : deckRangeOk s s.turn s.cur.mode (s.reg a).toNat (awidthBytes w) = true)
include ha hb hin hr

/-- A deck atomic inside the context's range and aligned (R376). -/
theorem deckAtomic_passes (hal : (s.reg a).toNat % awidthBytes w = 0) (hw : hasWindowSlot s s.turn = true) (aop : Nat) (op : EntryOp)
    (cmp : Word) : deckAtomic aop op cmp a b w q s =
      if 16 ≤ s.cur.deckq.length then .next s.wait
      else .next ((takeEntry (deckPush { deckOp s (s.reg a).toNat (leBytes (awidthBytes w) (s.reg b).toNat) with
          atomic := true, aop := aop, double := awidthBytes w == 8, cmp := cmp.toNat % 2 ^ (8 * awidthBytes w),
            q := q.toNat } s) q.toNat
        { commandEntry s op true (s.reg a) (s.reg b) with released := true, bytes := awidthBytes w }).advance 4) := by
  have hin' : ¬ 1048576 < (s.reg a).toNat + awidthBytes w := Nat.not_lt.2 hin
  rw [deckAtomic]
  exact command_passes ha (by simp [failIf, hb, hin', hr, hal, hw]) ..

theorem deckAtomic_misaligned (hal : (s.reg a).toNat % awidthBytes w ≠ 0) (aop : Nat) (op : EntryOp) (cmp : Word) :
    deckAtomic aop op cmp a b w q s = .next (s.trap 0x105 0) := by
  have hin' : ¬ 1048576 < (s.reg a).toNat + awidthBytes w := Nat.not_lt.2 hin
  rw [deckAtomic]
  exact command_traps ha (by simp [failIf, hb, hin', hr, hal]) ..

end

theorem dksync_eq {s : State} (ha : acquireHeld s.cur = false) :
    exec .dksync s = if s.cur.deckq = [] ∧ s.cur.deckOut = 0 then .next (s.advance 4) else .next s.wait := by
  rw [exec_dksync, execDksync]
  refine (command_passes ha rfl ..).trans ?_
  simp only [Bool.and_eq_true, List.isEmpty_iff, beq_iff_eq]
  rfl

/-- Settles O20: each command by its checks and the sixteen places. -/
theorem deckCommands : Obligations.DeckCommands := by
  intro s d a b w q
  dsimp only
  intro hs
  have ha := hs.1
  refine ⟨fun h1 h2 h0 hn hr hsrc hq => ?_, fun hb hr hal hq => ⟨?_, ?_⟩, fun h1 h2 h0 hn hr hsrc hq => ?_,
    fun hb hr hal hq => ⟨?_, ?_⟩, fun hb hin hr hal => ⟨?_, ?_⟩, fun hq ho => ?_, fun hq => ?_⟩
  · rw [dkst_passes hs h1 h2 h0 hn hr.1 hr.2.1 hr.2.2 hsrc, if_pos hq]
  · exact (deckAtomic_passes ha hb hr.1 hr.2.1 hal hr.2.2 ..).trans (if_pos hq)
  · exact (deckAtomic_passes ha hb hr.1 hr.2.1 hal hr.2.2 ..).trans (if_pos hq)
  · rw [dkst_passes hs h1 h2 h0 hn hr.1 hr.2.1 hr.2.2 hsrc, if_neg (Nat.not_le.2 hq)]
  · exact (deckAtomic_passes ha hb hr.1 hr.2.1 hal hr.2.2 ..).trans (if_neg (Nat.not_le.2 hq))
  · exact (deckAtomic_passes ha hb hr.1 hr.2.1 hal hr.2.2 ..).trans (if_neg (Nat.not_le.2 hq))
  · exact deckAtomic_misaligned ha hb hin hr hal ..
  · exact deckAtomic_misaligned ha hb hin hr hal ..
  · rw [dksync_eq ha, if_pos ⟨hq, ho⟩]
  · rw [dksync_eq ha, if_neg]
    rintro ⟨h1, h2⟩
    exact hq.elim (· h1) (· h2)

/-! ### RNG and append commands (R378 to R380) -/

section
variable {s : State} {n : BitVec 3} (ha : acquireHeld s.cur = false)
include ha

theorem boundFault_traps (hb : rngBound s.cur n.toNat = true) (f : State → Result) :
    command (fun s => [boundFault s n.toNat]) 0 s f = .next (s.trap 0x0FB 0) :=
  command_traps ha (by simp [boundFault, failIf, hb]) ..

theorem boundFault_passes (hb : rngBound s.cur n.toNat = false) (f : State → Result) :
    command (fun s => [boundFault s n.toNat]) 0 s f = f s :=
  command_passes ha (by simp [boundFault, failIf, hb]) ..

end

/-- The machine after a draw of the moving core (R256). -/
def drawnBy (s : State) (n : Nat) : State :=
  s.modCore s.turn fun k => { k with rngs := NMap.put k.rngs n { s.cur.rng n with ctr := (s.cur.rng n).ctr + 1 } }

theorem rngDraw_draws {s : State} {n : Nat} (h : (s.cur.rng n).ctr ≠ BitVec.allOnes 128) (f : List Nat → State → Result) :
    rngDraw n s f = f ((draw (s.cur.rng n).key (s.cur.rng n).ctr).map BitVec.toNat) (drawnBy s n) := by
  rw [rngDraw, drawOnce]
  simp only [if_neg (show ((s.core s.turn).rng n).ctr ≠ BitVec.allOnes 128 from h)]
  rfl

theorem rngDraw_ends {s : State} {n : Nat} (h : (s.cur.rng n).ctr = BitVec.allOnes 128) (f : List Nat → State → Result) :
    rngDraw n s f = .next (s.trap 0x0FA 0) := by
  rw [rngDraw, drawOnce]
  simp only [if_pos (show ((s.core s.turn).rng n).ctr = BitVec.allOnes 128 from h)]

theorem rng_put (k : Core) (n : Nat) (r : Rng) : ({ k with rngs := NMap.put k.rngs n r } : Core).rng n = r := NMap.getD_put_self ..

section
variable {s : State} {a : Reg} {n : BitVec 3} (hset : (region s n).set = true)
include hset

theorem mark_commits (ha : acquireHeld s.cur = false) : exec (.mark n) s = .next ((commitRows s n (region s n)
    (region s n).tlen).advance 4) := by
  rw [exec_mark, execMark]
  exact command_passes ha (by simp [failIf, hset]) ..

/-- FOLD of rows since the last commit (R380). -/
theorem fold_commits (ha : acquireHeld s.cur = false) (hx : (s.reg a).toNat ≤ (region s n).tlen - (region s n).mpos) :
    exec (.fold a n) s = .next ((commitRows (loseRows s n ((region s n).mpos + (s.reg a).toNat)) n
      (region (loseRows s n ((region s n).mpos + (s.reg a).toNat)) n) ((region s n).mpos + (s.reg a).toNat)).advance 4) := by
  rw [exec_fold, execFold]
  exact command_passes ha (by simp [failIf, hset, Nat.not_lt.2 hx]) ..

end

theorem loseRows_none {s : State} {n : BitVec 3} {t : Nat} (h : (region s n).tlen ≤ t) : loseRows s n t = s := by
  rw [loseRows, Nat.sub_eq_zero_of_le h]
  rfl

/-- Settles O21: each command by its checks; a draw by the counter. -/
theorem rngAndAppendCommands : Obligations.RngAndAppendCommands := by
  constructor
  · intro s d a b n
    dsimp only
    intro ha
    refine ⟨fun hb => ⟨boundFault_traps ha hb _, boundFault_traps ha hb _, boundFault_traps ha hb _⟩, fun hb => ⟨⟨_,
      boundFault_passes ha hb _, ?_⟩,
      ⟨_, boundFault_passes ha hb _, ?_⟩, fun hc => ⟨?_, fun ho hu => ?_⟩, fun hc => ?_⟩⟩
    · rw [cur_advance, cur_modCur]
      exact ⟨rng_put .., rfl⟩
    · rw [cur_advance, cur_modCur]
      exact ⟨rng_put .., rfl⟩
    · exact (boundFault_passes ha hb _).trans (rngDraw_draws hc _)
    · rw [exec_rngdSt, execRngdSt]
      exact (command_passes ha (by simp [failIf, boundFault, hb, hu, operandFault_of_ok ho]) ..).trans (rngDraw_draws hc _)
    · exact (boundFault_passes ha hb _).trans (rngDraw_ends hc _)
  · intro s d a n
    dsimp only
    intro hs
    have ha := hs.1
    refine ⟨fun ho hbad => ?_, fun hset => ⟨?_, ?_, ?_⟩, fun hset ho ht hq => ?_, fun hset => mark_commits hset ha,
      fun hset hx => fold_commits hset ha hx, fun hset hx => ?_, fun hset hx => ?_⟩
    · rw [exec_apndSet, execApndSet]
      refine (command_passes ha (by simp [operandFault_of_ok ho]) ..).trans ?_
      rw [withOperand_read hs.2]
      exact checks_pass (by simp only [failIf, hbad]; decide) ..
    · rw [exec_apndRow, execApndRow]
      exact command_traps ha (by simp [failIf, hset]) ..
    · rw [exec_mark, execMark]
      exact command_traps ha (by simp [failIf, hset]) ..
    · rw [exec_fold, execFold]
      exact command_traps ha (by simp [failIf, hset]) ..
    · rw [exec_apndRow, execApndRow]
      refine (command_passes ha (by simp [failIf, hset, operandFault_of_ok ho, ht]) ..).trans ?_
      rw [if_neg (Nat.not_le.2 hq), withOperand_read hs.2]
      rfl
    · rw [fold_commits hset ha (Nat.le_of_eq hx), loseRows_none (by omega)]
    · rw [exec_fold, execFold]
      exact command_traps ha (by simp [failIf, hset, hx]) ..

end Sys2Proof.Machine
end

section
/-! Freeze, grant and quote commands: O23 (R36, R107, R110, R111, R384 to R386). -/

namespace Sys2Proof

theorem NMap.mem_put {α : Type} {m : NMap α} {k : Nat} {x : α} {p : Nat × α} (h : p ∈ NMap.put m k x) : p = (k, x) ∨ p ∈ m := by
  induction m with
  | nil => exact .inl (by simpa [NMap.put] using h)
  | cons q m ih =>
    obtain ⟨n, y⟩ := q
    simp only [NMap.put] at h
    split at h
    · exact (List.mem_cons.1 h).imp_right (List.mem_cons_of_mem _)
    · split at h
      · exact List.mem_cons.1 h
      · rcases List.mem_cons.1 h with h | h
        · exact .inr (h ▸ List.mem_cons_self)
        · exact (ih h).imp_right (List.mem_cons_of_mem _)

namespace Machine

open State

/-! ### Entries taken by a command (R192) -/

/-- A new entry has the latest place in the order: those before it stay as they are (R192). -/
theorem earlierDone_setEntry {k : Core} {q : Nat} {e : QEntry} (h : earlierDone k e.seq = true) :
    earlierDone (k.setEntry q e) e.seq = true := by
  rw [earlierDone, List.all_eq_true] at h ⊢
  intro p hp
  rcases NMap.mem_put hp with rfl | hp
  · simp
  · exact h p hp

section
variable {s : State} {q : Nat} {e : QEntry}

theorem entry_taken (s : State) (q : Nat) (e : QEntry) : (((takeEntry s q e).advance 4).cur).entry q = e := by
  rw [cur_advance, takeEntry, cur_modCur]
  exact entry_setEntry_self ..

theorem cut_taken (s : State) (q : Nat) (e : QEntry) : ((takeEntry s q e).advance 4).cur.cut = s.cur.cut := by
  rw [cur_advance, takeEntry, cur_modCur]
  rfl

theorem earlierDone_taken (h : earlierDone s.cur e.seq = true) : earlierDone ((takeEntry s q e).advance 4).cur e.seq = true := by
  rw [cur_advance, takeEntry, cur_modCur]
  exact earlierDone_setEntry h

theorem pc_taken (s : State) (q : Nat) (e : QEntry) : ((takeEntry s q e).advance 4).cur.pc = s.cur.pc + 4 := by
  rw [cur_advance, takeEntry, cur_modCur]
  rfl

end

/-- What an answer leaves of the entry of a core (R192, R193). -/
theorem completeEntry_answers {s : State} {c q : Nat} (f v : Nat) (hb : ((s.core c).entry q).busy = true)
    (hd : ((s.core c).entry q).done = false) : (((s.completeEntry c q f v).core c).entry q).performed = true ∧
      (((s.completeEntry c q f v).core c).entry q).fault = f ∧
      ((s.core c).cut = false → earlierDone (s.core c) ((s.core c).entry q).seq = true →
        (((s.completeEntry c q f v).core c).entry q).done = true) ∧ ((s.completeEntry c q f v).core c).pc = (s.core c).pc := by
  refine ⟨?_, ?_, fun hc he => by rw [entry_completeEntry f v hb hd hc he], ?_⟩ <;>
    rw [completeEntry, core_modCore_self] <;> simp only [hb, hd, Bool.not_false, Bool.and_self, if_true] <;> split
  · rw [entry_wake, entry_setEntry_self]
  · rw [entry_setEntry_self]
  · rw [entry_wake, entry_setEntry_self]
  · rw [entry_setEntry_self]
  · unfold Core.wake
    split <;> rfl
  · rfl

/-! ### FRZ and THAW (R384, R385) -/

section
variable {s : State} {a : Reg} {q : QNum} {g : Graph} (ha : acquireHeld s.cur = false) (hb : (s.cur.entry q.toNat).busy = false)
    (hu : s.cur.mode ≠ .u) (hx : (s.reg a).toNat < 2 ^ 32) (hd : freezeDenied s (s.reg a).toNat = false)
    (hg : s.graph? (s.reg a).toNat = some g)
include hb hx hd

theorem freezeFaults_pass : (freezeFaults s (s.reg a) q).findSome? id = none := by
  simp [freezeFaults, failIf, (fld_top_eq_zero (s.reg a) (show 32 ≤ 63 by decide)).2 hx, hb, hd]

include ha hu hg

/-- FRZ of a running graph (R384). -/
theorem exec_frz_running (hp : g.phase = .running) : exec (.frz a q) s = .next
    ((((takeEntry s q.toNat (commandEntry s .freeze false (s.reg a) 0)).advance 4).modGraph (s.reg a).toNat fun g =>
        { g with phase := .freezing, origin := 2, frzSince := some g.gtime, frzCores := [] }).modGraph (s.reg a).toNat fun g =>
      { g with waiters := g.waiters ++ [(s.turn, q.toNat)] }) := by
  have hg1 : ((takeEntry s q.toNat (commandEntry s .freeze false (s.reg a) 0)).advance 4).graph? (s.reg a).toNat = some g := hg
  rw [exec_frz, execFrz, privileged_of_not_user hu]
  refine (command_passes ha (freezeFaults_pass hb hx hd) ..).trans ?_
  simp only [hg1, Option.map_some, hp, requestFreeze_running hg1 hp]

/-- THAW of a graph (R385). -/
theorem exec_thaw_eq : exec (.thaw a q) s = .next
    (if g.held = true ∧ g.phase = .frozen ∧ g.origin = 2 then
      (((takeEntry s q.toNat (commandEntry s .thaw false (s.reg a) 0)).advance 4).modGraph (s.reg a).toNat fun g =>
        { g with held := false }).completeEntry s.turn q.toNat 0 0
    else ((takeEntry s q.toNat (commandEntry s .thaw false (s.reg a) 0)).advance 4).completeEntry s.turn q.toNat 0x13D 0) := by
  have hg1 : ((takeEntry s q.toNat (commandEntry s .thaw false (s.reg a) 0)).advance 4).graph? (s.reg a).toNat = some g := hg
  rw [exec_thaw, execThaw, privileged_of_not_user hu]
  refine (command_passes ha (freezeFaults_pass hb hx hd) ..).trans ?_
  simp only [hg1, Bool.and_eq_true, decide_eq_true_eq, and_assoc]

end

/-- The answer of an entry that a command has just taken (R192, R385). -/
theorem taken_answers {s u : State} {q : Nat} {op : EntryOp} {x : Word} (f : Nat) (hturn : u.turn = s.turn)
    (hu : u.cur = ((takeEntry s q (commandEntry s op false x 0)).advance 4).cur) :
    ((u.completeEntry s.turn q f 0).cur.entry q).performed = true ∧ ((u.completeEntry s.turn q f 0).cur.entry q).fault = f ∧
      (s.cur.cut = false → earlierDone s.cur s.cur.issueSeq = true → ((u.completeEntry s.turn q f 0).cur.entry q).done = true) ∧
      (u.completeEntry s.turn q f 0).cur.pc = s.cur.pc + 4 := by
  have hk : u.core s.turn = ((takeEntry s q (commandEntry s op false x 0)).advance 4).cur := by rw [← hu, ← hturn]; rfl
  have he : (u.core s.turn).entry q = commandEntry s op false x 0 := by rw [hk, entry_taken]
  have hcur : (u.completeEntry s.turn q f 0).cur = (u.completeEntry s.turn q f 0).core s.turn := by rw [← hturn]; rfl
  obtain ⟨h1, h2, h3, h4⟩ := completeEntry_answers (s := u) (c := s.turn) (q := q) f 0 (by rw [he]; rfl) (by rw [he]; rfl)
  rw [hcur]
  refine ⟨h1, h2, fun hc hd => h3 ?_ ?_, ?_⟩
  · rw [hk, cut_taken, hc]
  · rw [he, hk]
    exact earlierDone_taken hd
  · rw [h4, hk, pc_taken]

/-! ### PWRQ (R36, R386) -/

theorem grantWord_fields (s : State) {i : Nat} (hi : i < 64) (plim eclass : Nat) (valid : Bool) :
    fld (s.grantWord i plim eclass valid) 53 48 = i ∧ fld (s.grantWord i plim eclass valid) 31 16 = s.islandGrant i % 2 ^ 16 := by
  have hv := Bool.toNat_le valid
  simp only [grantWord, ite_eq_toNat]
  generalize (s.islandStep i).getD 0 = st
  generalize s.islandGrant i = gr
  rw [fld_ofNat (by omega), fld_ofNat (by omega)]
  simp only [Nat.reducePow, Nat.reduceAdd, Nat.reduceSub]
  omega

/-- Settles O23: each command by its checks and the standing of its graph. -/
theorem freezeGrantAndQuoteCommands : Obligations.FreezeGrantAndQuoteCommands := by
  intro s d a b q g
  dsimp only
  intro hs hb
  have ha := hs.1
  refine ⟨fun hu hx hd hg => ⟨fun hp => ?_, fun hp hh ho => ?_, fun hn => ?_⟩, fun hx hi => ?_, fun hu hx hy => ?_, fun hm hx => ?_⟩
  · refine ⟨_, exec_frz_running ha hb hu hx hd hg hp, ?_⟩
    rw [cur_modGraph, cur_modGraph, entry_taken, pc_taken]
    have hg1 : ((takeEntry s q.toNat (commandEntry s .freeze false (s.reg a) 0)).advance 4).graph? (s.reg a).toNat = some g := hg
    rw [graph?_modGraph (graph?_modGraph hg1 _)]
    exact ⟨rfl, rfl, rfl, rfl, rfl, rfl⟩
  · have hrun := exec_thaw_eq ha hb hu hx hd hg
    rw [if_pos ⟨hh, hp, ho⟩] at hrun
    have hg1 : ((takeEntry s q.toNat (commandEntry s .thaw false (s.reg a) 0)).advance 4).graph? (s.reg a).toNat = some g := hg
    obtain ⟨h1, h2, h3, h4⟩ := taken_answers (s := s) (q := q.toNat) (op := .thaw) (x := s.reg a) 0
      (modGraph_turn ((takeEntry s q.toNat (commandEntry s .thaw false (s.reg a) 0)).advance 4) (s.reg a).toNat
        fun g => { g with held := false }) (cur_modGraph ..)
    refine ⟨_, hrun, ?_, h1, h2, h3, h4⟩
    exact congrArg (Option.map Graph.held) (graph?_modGraph hg1 _)
  · have hrun := exec_thaw_eq ha hb hu hx hd hg
    rw [if_neg (fun ⟨h1, h2, h3⟩ => by rcases hn with h | h | h <;> simp_all)] at hrun
    obtain ⟨h1, h2, h3, -⟩ := taken_answers (s := s) (q := q.toNat) (op := .thaw) (x := s.reg a)
      (u := (takeEntry s q.toNat (commandEntry s .thaw false (s.reg a) 0)).advance 4) 0x13D rfl rfl
    exact ⟨_, hrun, h1, h3, h2⟩
  · have hlow : fld (s.reg a) 5 0 = (s.reg a).toNat :=
      (low_of_high_zero (n := 6) (by decide) ((fld_top_eq_zero (s.reg a) (by decide)).2 hx)).resolve_right (by decide)
    have hhigh : fld (s.reg a) 63 6 = 0 := (fld_top_eq_zero _ (by decide)).2 hx
    rw [exec_pwrq, execPwrq, hlow]
    exact ⟨_, _, command_passes ha (by simp [failIf, hhigh, hi]) .., rfl, grantWord_fields s hx ..⟩
  · rw [exec_quote, execQuote, privileged_of_not_user hu]
    refine (command_passes ha (by simp [failIf, hb, operandFault_of_ok hx, operandFault_of_ok hy]) ..).trans ?_
    rw [withOperand_read hs.2]
  · rw [exec_quoteExt, execQuoteExt, privileged, if_pos (decide_eq_true hm)]
    refine (command_passes ha (by simp [failIf, hb, operandFault_of_ok hx]) ..).trans ?_
    rw [withOperand_read hs.2]

end Machine
end Sys2Proof
end

section
/-! The commands of the matrix engine at issue: O24 (R430, R433 to R443). -/

namespace Sys2Proof.Machine

open State

/-! ### What the issue of an engine command gives (R349, R430) -/

theorem issueChecks_pass {cs : List (Option Nat)} (h : cs.findSome? id = none) (f : Unit → Issue) :
    issueChecks cs f = f () := by
  rw [issueChecks, h]

theorem issueChecks_fault {cs : List (Option Nat)} {cause : Nat} (h : cs.findSome? id = some cause) (f : Unit → Issue) :
    issueChecks cs f = .fault cause := by
  rw [issueChecks, h]

theorem issueRead_unmarked {s : State} (h : s.ecc.marks = []) (c off n : Nat) (f : State → Issue) :
    issueRead c off n s f = f s := by
  simp only [issueRead, ueAt_of_unmarked h, correct_of_unmarked h]

theorem runIssue_ok {s s1 : State} {d : Reg} {v : Word} {f : State → Issue} (ha : acquireHeld s.cur = false)
    (hf : f s = .ok s1 v) : runIssue d s f = .next ((s1.setReg d v).advance 4) := by
  simp only [runIssue, afterAcquire_clear ha, hf, finish]

theorem runIssue_fault {s : State} {d : Reg} {f : State → Issue} {cause : Nat} (ha : acquireHeld s.cur = false)
    (hf : f s = .fault cause) : runIssue d s f = .next (s.trap cause 0) := by
  simp only [runIssue, afterAcquire_clear ha, hf]

/-- A command without a destination whose issue changes its own core alone. -/
theorem modCore_finished (s : State) (f : Core → Core) (v : Word) : ((s.modCore s.turn f).setReg 0 v).advance 4 =
    s.setCore s.turn { f s.cur with pc := (f s.cur).pc + 4, waitSince := none } := by
  simp only [advance, goto, setReg, modCur, Core.setReg_zero, cur, modCore, setCore_turn, core_setCore_self, setCore_setCore]

/-! ### Checks that pass -/

theorem noMatrix_none {k : Core} (h : k.eclass = 4 ∨ k.eclass = 5) : noMatrix k = none := by
  obtain h | h := h <;> simp [noMatrix, failIf, h]

theorem noMatrix_some {k : Core} (h4 : k.eclass ≠ 4) (h5 : k.eclass ≠ 5) : noMatrix k = some 0x15A := by
  simp [noMatrix, failIf, h4, h5]

theorem gangMember_none {s : State} {c : Nat} (h : (mxView (s.core c)).gang = false) : gangMember s c = none := by
  simp [gangMember, failIf, h]

theorem portFault_none {k : Core} {op ap : Nat} (h : SouthOk k op ap) (cause : Nat) : portFault k k.mode op ap cause = none := by
  obtain ⟨hw, hi⟩ := h
  have hu : (decide (k.mode = .u) && !k.infire) = false := by
    by_cases hm : k.mode = .u
    · simp [hi hm]
    · simp [hm]
  simp [portFault, failIf, hw, hu]

/-! ### The matrix queue (R349, R440) -/

section
variable {s : State} {op : MxOp} {x y : Word} {r : List Word}

/-- A core with its matrix command queued: what the issue changes. -/
def Core.mxQueued (k : Core) (op : MxOp) (x y : Word) (r : List Word) : Core where
  __ := k
  matrix := { k.matrix with queue := k.matrix.queue ++ [{ op := op, x := x, y := y, rcd := r, iseq := k.issueSeq }] }
  issueSeq := k.issueSeq + 1

theorem mxPush_enters (hf : MatrixFree s.cur) (hop : ∀ on, op ≠ .gang on) : mxPush s s.turn op x y r =
    .ok (s.modCore s.turn fun k => k.mxQueued op x y r) 0 := by
  obtain ⟨-, hg, hq⟩ := hf
  have hg' : (mxView (s.core s.turn)).gang = false := hg
  have hroom : ¬ 8 ≤ (s.core s.turn).matrix.queue.length := Nat.not_le.2 hq
  cases op with
  | gang on => exact absurd rfl (hop on)
  | _ =>
    simp only [mxPush, hg', Bool.or_false, Bool.false_eq_true, if_false, List.any_cons, List.any_nil, hroom, decide_false,
      List.foldl_cons, List.foldl_nil, modCore_modCore]
    rfl

/-- A command that no check refuses has entered the queue, and the CP goes on. -/
theorem mxEntered_of_issue {f : State → Issue} (ha : acquireHeld s.cur = false) (hf : MatrixFree s.cur)
    (hop : ∀ on, op ≠ .gang on) (h : f s = mxPush s s.turn op x y r) :
    ∃ t, runIssue 0 s f = .next t ∧ MxEntered s t op x y r := by
  refine ⟨_, runIssue_ok ha (h.trans (mxPush_enters hf hop)), ?_⟩
  rw [modCore_finished]
  refine ⟨⟨_, rfl⟩, ?_, ?_, ?_⟩ <;> rw [cur_setCore_turn] <;> rfl

end

/-! ### MXGANG (R440) -/

/-- Changes of the cores of a list change each of them once. -/
theorem core_foldl_modCore_nodup (f : Core → Core) (c : Nat) : ∀ (l : List Nat) (s : State), l.Nodup →
    (l.foldl (fun s c' => s.modCore c' f) s).core c = if c ∈ l then f (s.core c) else s.core c
  | [], s, _ => by simp
  | a :: l, s, h => by
    obtain ⟨ha, hl⟩ := List.nodup_cons.1 h
    rw [List.foldl_cons, core_foldl_modCore_nodup f c l _ hl, core_modCore]
    by_cases hc : c = a
    · subst hc
      simp [ha]
    · simp [hc]

/-- A core with a command at the end of its matrix queue. -/
def Core.mxAppend (m : MxCmd) (k : Core) : Core := { k with matrix := { k.matrix with queue := k.matrix.queue ++ [m] } }

/-- The command that MXGANG sends to every member. -/
def gangCmd (s : State) (x : Word) : MxCmd :=
  { op := .gang (bitAt x 0), x := x, y := 0, iseq := s.cur.issueSeq, gang := true }

/-- The state in which every member of the gang has a command. -/
def gangQueued (s : State) (m : MxCmd) : State :=
  (gangCores s s.turn).foldl (fun s c => s.modCore c (Core.mxAppend m)) s

theorem gangQueued_turn (s : State) (m : MxCmd) : (gangQueued s m).turn = s.turn := foldl_modCore_turn ..

theorem mxPush_gang {s : State} {x : Word} (hroom : ∀ c, c ∈ gangCores s s.turn → (s.core c).matrix.queue.length < 8) :
    mxPush s s.turn (.gang (bitAt x 0)) x 0 [] =
      .ok ((gangQueued s (gangCmd s x)).modCore s.turn fun k => { k with issueSeq := k.issueSeq + 1 }) 0 := by
  have hany : ((gangCores s s.turn).any fun c' => decide (8 ≤ (s.core c').matrix.queue.length)) = false := by
    rw [List.any_eq_false]
    intro c hc
    simpa using hroom c hc
  simp only [mxPush, Bool.or_true, if_true, hany, Bool.false_eq_true, if_false]
  rfl

/-- The count of the commands issued, and the pc, of the core that issued one move on; every queue stays. -/
theorem counted_finished (s : State) (n : Nat → Nat) :
    let t := ((s.modCore s.turn fun k => { k with issueSeq := n k.issueSeq }).setReg 0 0).advance 4
    t.cur.pc = s.cur.pc + 4 ∧ ∀ c, (t.core c).matrix = (s.core c).matrix := by
  dsimp only
  rw [modCore_finished]
  refine ⟨congrArg Core.pc (core_setCore_self ..), fun c => ?_⟩
  rw [core_setCore]
  split
  next h => exact h ▸ rfl
  next => rfl

/-- MXGANG of a gang whose queues have room (R440). -/
theorem mxgang_enters {s : State} {a : Reg} (ha : acquireHeld s.cur = false) (hc : s.cur.eclass = 4 ∨ s.cur.eclass = 5)
    (hlen : 1 < (gangCores s s.turn).length) (hhead : (gangCores s s.turn).head? = some s.turn)
    (hn : (gangCores s s.turn).Nodup) (hroom : ∀ c, c ∈ gangCores s s.turn → (s.core c).matrix.queue.length < 8) :
    ∃ t, exec (.mxgang a) s = .next t ∧ t.cur.pc = s.cur.pc + 4 ∧ ∀ c, c ∈ gangCores s s.turn → (t.core c).matrix.queue =
      (s.core c).matrix.queue ++ [gangCmd s (s.reg a)] := by
  have hgm : gangMember s s.turn = none := by simp [gangMember, failIf, hhead]
  have hlen' : ¬ (gangCores s s.turn).length ≤ 1 := Nat.not_le.2 hlen
  have hi : issueGang s.turn (s.reg a) s = mxPush s s.turn (.gang (bitAt (s.reg a) 0)) (s.reg a) 0 [] := by
    rw [issueGang, issueChecks_pass]
    simp [noMatrix_none (k := s.core s.turn) hc, hgm, failIf, hlen', hhead]
  rw [exec_mxgang, execMxgang]
  have hr := runIssue_ok (d := 0) (f := fun s => issueGang s.turn (s.reg a) s) ha (hi.trans (mxPush_gang hroom))
  rw [← gangQueued_turn s (gangCmd s (s.reg a))] at hr
  obtain ⟨hpc, hmx⟩ := counted_finished (gangQueued s (gangCmd s (s.reg a))) (· + 1)
  refine ⟨_, hr, ?_, fun c hm => ?_⟩
  · rw [hpc, cur, gangQueued_turn, gangQueued, core_foldl_modCore_nodup _ _ _ _ hn, cur]
    split <;> rfl
  · rw [hmx, gangQueued, core_foldl_modCore_nodup _ _ _ _ hn, if_pos hm, Core.mxAppend]

/-! ### The checks of each command, passed -/

section
variable {s : State} {x y : Word} {n : Nat}

theorem portFault_cur {op ap : Nat} (h : SouthOk s.cur op ap) (cause : Nat) :
    portFault (s.core s.turn) s.cur.mode op ap cause = none := portFault_none h cause

theorem issueMxb_pass (hf : MatrixFree s.cur) (hr : bWordReserved y false = false) (hb : bWordBad y false = false)
    (ho : OperandOk x.toNat (64 * fld y 52 32) 16) :
    issueMxb false s.turn s.cur.mode x y s = mxPush s s.turn (.mxb false) x y [] := by
  rw [issueMxb, issueChecks_pass]
  simp [noMatrix_none (k := s.core s.turn) hf.1, gangMember_none (c := s.turn) hf.2.1, failIf, hr, hb, operandFault_of_ok ho]

theorem issueMxb_port_pass (hf : MatrixFree s.cur) (hr : bWordReserved y true = false) (hb : bWordBad y true = false)
    (hs : SouthOk s.cur 0x2C1 0x39) : issueMxb true s.turn s.cur.mode x y s = mxPush s s.turn (.mxb true) x y [] := by
  rw [issueMxb, issueChecks_pass]
  simp [noMatrix_none (k := s.core s.turn) hf.1, gangMember_none (c := s.turn) hf.2.1, failIf, hr, hb, portFault_cur hs]

theorem issueMxsw_pass (hf : MatrixFree s.cur) (hl : (mxView s.cur).loading.1 = true) :
    issueMxsw s.turn s = mxPush s s.turn .mxsw 0 0 [] := by
  rw [issueMxsw, issueChecks_pass]
  simp [noMatrix_none (k := s.core s.turn) hf.1, gangMember_none (c := s.turn) hf.2.1, failIf,
    show (mxView (s.core s.turn)).loading.1 = true from hl]

theorem issueMxmm_pass {port : Bool} (hf : MatrixFree s.cur) (hr : mulReserved y = false) (ht : aTypeBad y = false)
    (hm : mulModeBad (mxView s.cur) n y = false) (ha : (mxView s.cur).active.1 = true)
    (hk : mulOff y + wordKg y ≤ (mxView s.cur).active.2.1)
    (hp : port = true → SouthOk s.cur 0x2C1 0x38) (ho : port = false → OperandOk x.toNat (aBytes y) 16) :
    issueMxmm n port s.turn s.cur.mode x y s = mxPush s s.turn (.mxmm n port) x y [] := by
  have hport : (if port then portFault (s.core s.turn) s.cur.mode 0x2C1 0x38 0x0DA else operandFault x.toNat (aBytes y) 16) =
      none := by
    cases port with
    | true => exact portFault_cur (hp rfl) _
    | false => exact operandFault_of_ok (ho rfl)
  rw [issueMxmm, issueChecks_pass]
  rw [hport]
  simp [noMatrix_none (k := s.core s.turn) hf.1, gangMember_none (c := s.turn) hf.2.1, failIf, hr, ht,
    show mulModeBad (mxView (s.core s.turn)) n y = false from hm, show (mxView (s.core s.turn)).active.1 = true from ha,
    show mulOff y + wordKg y ≤ (mxView (s.core s.turn)).active.2.1 from hk]

theorem issueClr_pass (hf : MatrixFree s.cur) (hh : fld y 63 32 = 0) (hz : fld y 15 2 = 0) (hm : fld y 1 0 ≠ 3)
    (he : fld y 1 0 = 2 ∨ fld y 31 16 = 0) : issueClr n s.turn y s = mxPush s s.turn (.clr n) 0 y [] := by
  rw [issueClr, issueChecks_pass]
  obtain he | he := he <;>
    simp [noMatrix_none (k := s.core s.turn) hf.1, gangMember_none (c := s.turn) hf.2.1, failIf, hh, hz, hm, he]

theorem issueOuts_pass (hf : MatrixFree s.cur) (hr : outReserved y = false)
    (hb : outBad y (NMap.getD 0 (mxView s.cur).modes n) false = false)
    (hc : s.cur.inCode x.toNat (32 * vecBytes (fld y 4 0)) = false) (hw : s.cur.inWindow x.toNat (32 * vecBytes (fld y 4 0)) = false)
    (ho : OperandOk x.toNat (32 * vecBytes (fld y 4 0)) 16) :
    issueOut n false s.turn s.cur.mode x y s = mxPush s s.turn (.outs n) x y [] := by
  rw [issueOut, issueChecks_pass]
  · rfl
  · rw [cur] at hb hc hw
    simp [noMatrix_none (k := s.core s.turn) hf.1, gangMember_none (c := s.turn) hf.2.1, failIf, hr, hb, hc, hw,
      operandFault_of_ok ho]

theorem issueOutp_pass (hf : MatrixFree s.cur) (hr : outReserved y = false)
    (hb : outBad y (NMap.getD 0 (mxView s.cur).modes n) true = false) (hs : SouthOk s.cur 0x2C0 0x3A) :
    issueOut n true s.turn s.cur.mode x y s = mxPush s s.turn (.outp n) x y [] := by
  rw [issueOut, issueChecks_pass]
  · rfl
  · rw [cur] at hb
    simp [noMatrix_none (k := s.core s.turn) hf.1, gangMember_none (c := s.turn) hf.2.1, failIf, hr, hb, portFault_cur hs]

theorem issueSort_pass {keysIn out : Bool} (hf : MatrixFree s.cur) (hmk : s.ecc.marks = []) (ho : OperandOk x.toNat 64 16)
    (hb : sortBad s.cur (s.tileDs s.turn x.toNat 8) keysIn out = false) (hi : keysIn = true → SouthOk s.cur 0x2C1 0x38)
    (hp : out = true → SouthOk s.cur 0x2C0 0x3A) : issueSort keysIn out s.turn s.cur.mode x s =
      mxPush s s.turn (.sort keysIn out) x 0 (s.tileDs s.turn x.toNat 8) := by
  have hin : (if keysIn then portFault (s.core s.turn) s.cur.mode 0x2C1 0x38 0x0DA else none) = none := by
    split
    next h => exact portFault_cur (hi h) _
    next => rfl
  have hout : (if out then portFault (s.core s.turn) s.cur.mode 0x2C0 0x3A 0x0DA else none) = none := by
    split
    next h => exact portFault_cur (hp h) _
    next => rfl
  rw [issueSort, issueChecks_pass (by simp [noMatrix_none (k := s.core s.turn) hf.1, operandFault_of_ok ho]),
    issueRead_unmarked hmk]
  dsimp only
  rw [issueChecks_pass]
  rw [hin, hout]
  simp [failIf, show (mxView (s.core s.turn)).gang = false from hf.2.1,
    show sortBad (s.core s.turn) (s.tileDs s.turn x.toNat 8) keysIn out = false from hb]

end

/-! ### Commands of a core whose class has no matrix part (R37) -/

section
variable {s : State} (ha : acquireHeld s.cur = false)
include ha

/-- A command that a check refuses traps with the cause of the check. -/
theorem runIssue_refused {f : State → Issue} {cs : List (Option Nat)} {g : Unit → Issue} {cause : Nat} (hf : f s = issueChecks cs g)
    (hc : cs.findSome? id = some cause) : runIssue 0 s f = .next (s.trap cause 0) :=
  runIssue_fault ha (hf.trans (issueChecks_fault hc g))

theorem matrix_absent (h4 : s.cur.eclass ≠ 4) (h5 : s.cur.eclass ≠ 5) (a b : Reg) (n : BitVec 2) (ki io : BitVec 1) :
    ∀ i ∈ [Instr.mxb a b, .mxbPb b, .mxsw, .mxmm a b n, .mxmmPa b n, .mxaccClr b n, .mxaccOuts a b n, .mxaccOutp b n,
      .mxsort a ki io, .mxgang a], exec i s = .next (s.trap 0x15A 0) := by
  have hn : noMatrix (s.core s.turn) = some 0x15A := noMatrix_some h4 h5
  have hc : ∀ cs : List (Option Nat), (noMatrix (s.core s.turn) :: cs).findSome? id = some 0x15A := fun cs => by
    rw [hn, List.findSome?_cons_of_isSome rfl]
    rfl
  simp only [List.forall_mem_cons, List.not_mem_nil, false_implies, implies_true, and_true]
  refine ⟨?_, ?_, ?_, ?_, ?_, ?_, ?_, ?_, ?_, ?_⟩
  · rw [exec_mxb, execMxb]; exact runIssue_refused ha (by rw [issueMxb]) (hc _)
  · rw [exec_mxbPb, execMxbPb]; exact runIssue_refused ha (by rw [issueMxb]) (hc _)
  · rw [exec_mxsw, execMxsw]; exact runIssue_refused ha (by rw [issueMxsw]) (hc _)
  · rw [exec_mxmm, execMxmm]; exact runIssue_refused ha (by rw [issueMxmm]) (hc _)
  · rw [exec_mxmmPa, execMxmmPa]; exact runIssue_refused ha (by rw [issueMxmm]) (hc _)
  · rw [exec_mxaccClr, execMxaccClr]; exact runIssue_refused ha (by rw [issueClr]) (hc _)
  · rw [exec_mxaccOuts, execMxaccOuts]; exact runIssue_refused ha (by rw [issueOut]) (hc _)
  · rw [exec_mxaccOutp, execMxaccOutp]; exact runIssue_refused ha (by rw [issueOut]) (hc _)
  · rw [exec_mxsort, execMxsort]; exact runIssue_refused ha (by rw [issueSort]) (hc _)
  · rw [exec_mxgang, execMxgang]; exact runIssue_refused ha (by rw [issueGang]) (hc _)

/-! ### Commands that a later check refuses (R433 to R435) -/

variable (hcl : s.cur.eclass = 4 ∨ s.cur.eclass = 5) (hg : (mxView s.cur).gang = false)
include hcl hg

theorem mxsw_refused (hl : (mxView s.cur).loading.1 = false) : exec .mxsw s = .next (s.trap 0x0DC 0) := by
  rw [exec_mxsw, execMxsw]
  refine runIssue_refused ha (by rw [issueMxsw]) ?_
  simp [noMatrix_none (k := s.core s.turn) hcl, gangMember_none (c := s.turn) hg, failIf,
    show (mxView (s.core s.turn)).loading.1 = false from hl]

theorem mxb_refused {a b : Reg} (hr : bWordReserved (s.reg b) false = false) (hb : bWordBad (s.reg b) false = true) :
    exec (.mxb a b) s = .next (s.trap 0x0D1 0) := by
  rw [exec_mxb, execMxb]
  refine runIssue_refused ha (by rw [issueMxb]) ?_
  simp [noMatrix_none (k := s.core s.turn) hcl, gangMember_none (c := s.turn) hg, failIf, hr, hb]

theorem mxmm_type_refused {a b : Reg} {n : BitVec 2} (hr : mulReserved (s.reg b) = false) (ht : aTypeBad (s.reg b) = true) :
    exec (.mxmm a b n) s = .next (s.trap 0x0D0 0) := by
  rw [exec_mxmm, execMxmm]
  refine runIssue_refused ha (by rw [issueMxmm]) ?_
  simp [noMatrix_none (k := s.core s.turn) hcl, gangMember_none (c := s.turn) hg, failIf, hr, ht]

theorem mxmm_mode_refused {a b : Reg} {n : BitVec 2} (hr : mulReserved (s.reg b) = false) (ht : aTypeBad (s.reg b) = false)
    (hm : mulModeBad (mxView s.cur) n.toNat (s.reg b) = true) : exec (.mxmm a b n) s = .next (s.trap 0x0D4 0) := by
  rw [exec_mxmm, execMxmm]
  refine runIssue_refused ha (by rw [issueMxmm]) ?_
  simp [noMatrix_none (k := s.core s.turn) hcl, gangMember_none (c := s.turn) hg, failIf, hr, ht,
    show mulModeBad (mxView (s.core s.turn)) n.toNat (s.reg b) = true from hm]

theorem mxmm_invalid_refused {a b : Reg} {n : BitVec 2} (hr : mulReserved (s.reg b) = false) (ht : aTypeBad (s.reg b) = false)
    (hm : mulModeBad (mxView s.cur) n.toNat (s.reg b) = false) (hv : (mxView s.cur).active.1 = false) :
    exec (.mxmm a b n) s = .next (s.trap 0x0D3 0) := by
  rw [exec_mxmm, execMxmm]
  refine runIssue_refused ha (by rw [issueMxmm]) ?_
  simp [noMatrix_none (k := s.core s.turn) hcl, gangMember_none (c := s.turn) hg, failIf, hr, ht,
    show mulModeBad (mxView (s.core s.turn)) n.toNat (s.reg b) = false from hm, show (mxView (s.core s.turn)).active.1 = false from hv]

end

/-! ### MXWAIT (R443) -/

theorem mxwait_done {s : State} {d : Reg} {m : BitVec 2} (ha : acquireHeld s.cur = false) (hi : mxIdle s s.turn m.toNat = true) :
    exec (.mxwait d m) s = .next (((s.modCur fun k => { k with mxWait := none }).setReg d
      (BitVec.ofNat 64 (s.cur.meld.done % 2 ^ 32 * 2 ^ 32 + s.cur.matrix.done % 2 ^ 32))).advance 4) := by
  rw [exec_mxwait, execMxwait, afterAcquire_clear ha, if_pos hi, finish]

theorem mxwait_waits {s : State} {d : Reg} {m : BitVec 2} (ha : acquireHeld s.cur = false) (hi : mxIdle s s.turn m.toNat = false) :
    exec (.mxwait d m) s = .next (s.modCur fun k => { k with mxWait := some (mxTarget k) }).wait := by
  rw [exec_mxwait, execMxwait, afterAcquire_clear ha, hi, if_neg Bool.false_ne_true]

/-! ### The obligation -/

/-- Settles O24: a command whose checks all pass enters the queue, and the first check that refuses one gives its cause. -/
theorem matrixCommandIssue : Obligations.MatrixCommandIssue := by
  unfold Obligations.MatrixCommandIssue
  refine ⟨?_, ?_⟩
  · intro s a b d n m ki io
    dsimp only
    intro ha
    refine ⟨fun hf => ⟨?_, ?_, ?_, ?_, ?_, ?_, ?_, ?_⟩, fun hc hlen hhead hn hroom => mxgang_enters ha hc hlen hhead hn hroom, ?_,
      mxwait_done ha, mxwait_waits ha⟩
    · intro hr hb ho
      rw [exec_mxb, execMxb]
      exact mxEntered_of_issue ha hf nofun (issueMxb_pass hf hr hb ho)
    · intro hr hb hs
      rw [exec_mxbPb, execMxbPb]
      exact mxEntered_of_issue ha hf nofun (issueMxb_port_pass hf hr hb hs)
    · intro hl
      rw [exec_mxsw, execMxsw]
      exact mxEntered_of_issue ha hf nofun (issueMxsw_pass hf hl)
    · intro hr ht hm hv hk
      refine ⟨fun ho => ?_, fun hs => ?_⟩
      · rw [exec_mxmm, execMxmm]
        exact mxEntered_of_issue ha hf nofun (issueMxmm_pass hf hr ht hm hv hk nofun fun _ => ho)
      · rw [exec_mxmmPa, execMxmmPa]
        exact mxEntered_of_issue ha hf nofun (issueMxmm_pass hf hr ht hm hv hk (fun _ => hs) nofun)
    · intro hh hz hm he
      rw [exec_mxaccClr, execMxaccClr]
      exact mxEntered_of_issue ha hf nofun (issueClr_pass hf hh hz hm he)
    · intro hr hb hc hw ho
      rw [exec_mxaccOuts, execMxaccOuts]
      exact mxEntered_of_issue ha hf nofun (issueOuts_pass hf hr hb hc hw ho)
    · intro hr hb hs
      rw [exec_mxaccOutp, execMxaccOutp]
      exact mxEntered_of_issue ha hf nofun (issueOutp_pass hf hr hb hs)
    · intro hmk ho hb hi hp
      rw [exec_mxsort, execMxsort]
      exact mxEntered_of_issue ha hf nofun (issueSort_pass hf hmk ho hb (fun h => hi (by simpa using h))
        fun h => hp (by simpa using h))
    · rw [exec_mxaccQry, execMxaccQry]
      exact runIssue_ok ha rfl
  · intro s a b n ki io
    dsimp only
    intro ha
    exact ⟨fun h4 h5 => matrix_absent ha h4 h5 a b n ki io, fun hc hg => ⟨mxsw_refused ha hc hg, mxb_refused ha hc hg,
      mxmm_type_refused ha hc hg, mxmm_mode_refused ha hc hg, mxmm_invalid_refused ha hc hg⟩⟩

end Sys2Proof.Machine
end

section
/-! The commands of the meld array at issue: O26 (R444 to R451). -/

namespace Sys2Proof.Machine

open State

section
variable {s : State} {x y : Word} {m : Nat} {g : MeldGraph} {r : MeldRec}

/-! ### Checks that pass -/

theorem noMeld_none {k : Core} (h : k.eclass = 3 ∨ k.eclass = 5) : noMeld k = none := by
  obtain h | h := h <;> simp [noMeld, failIf, h]

theorem meldGone_none {k : Core} (hg : NMap.find k.meld.graphs m = some g) (hf : g.freeing = false) : meldGone k m = none := by
  simp [meldGone, hg, hf, failIf]

theorem meldGone_some {k : Core} (hg : NMap.find k.meld.graphs m = none) : meldGone k m = some 0x0E8 := by
  simp [meldGone, hg]

/-! ### The meld queue (R349) -/

theorem mlPush_enters {c : MlCmd} (h : s.cur.meld.queue.length < 8) : mlPush s s.turn c = .ok (s.modCore s.turn fun k =>
    { k with meld := { k.meld with queue := k.meld.queue ++ [c] }, issueSeq := k.issueSeq + 1 }) 0 :=
  if_neg (Nat.not_le.2 h)

/-- A command of the meld array whose issue changes its own core so that the command ends the queue. -/
theorem mlEntered_of_issue {f : State → Issue} {c : MlCmd} {u : Core → Core} (ha : acquireHeld s.cur = false)
    (h : f s = .ok (s.modCore s.turn u) 0) (hq : (u s.cur).meld.queue = s.cur.meld.queue ++ [c])
    (hr : (u s.cur).regs = s.cur.regs) (hp : (u s.cur).pc = s.cur.pc) :
    ∃ t, runIssue 0 s f = .next t ∧ MlEntered s t c ∧ t.cur.meld.graphs = (u s.cur).meld.graphs := by
  refine ⟨_, runIssue_ok ha h, ⟨?_, ?_, ?_, rfl, fun c hc => ?_⟩, ?_⟩ <;> rw [modCore_finished]
  · rw [cur_setCore_turn, ← hq]
  · rw [cur_setCore_turn, ← hr]
  · rw [cur_setCore_turn, ← hp]
  · exact core_setCore_ne _ _ hc
  · rw [cur_setCore_turn]

/-! ### MLDG and MLCHK (R447 to R449) -/

theorem issueMldg_loads (hc : s.cur.eclass = 3 ∨ s.cur.eclass = 5) (hmk : s.ecc.marks = [])
    (hr : recordFault s s.turn x.toNat = none) (hf : meldFault s.cur s.turn (recordAt s s.turn x.toNat) = none) :
    issueMldg s.turn x s = .ok (loadMeld s s.turn (recordAt s s.turn x.toNat)) (BitVec.ofNat 64
      ((recordAt s s.turn x.toNat).nnode * 2 ^ 32 + (freeNodes s.cur s.turn).headD 0 * 2 ^ 16 + nextMeldId s.cur)) := by
  rw [issueMldg, issueChecks_pass (by simp [noMeld_none (k := s.core s.turn) hc, hr]), issueRead_unmarked hmk]
  dsimp only
  rw [issueChecks_pass]
  · rfl
  · rw [cur] at hf
    simp [hf]

theorem issueMldg_refused {f : Nat} (hc : s.cur.eclass = 3 ∨ s.cur.eclass = 5) (hmk : s.ecc.marks = [])
    (hr : recordFault s s.turn x.toNat = none) (hf : meldFault s.cur s.turn (recordAt s s.turn x.toNat) = some f) :
    issueMldg s.turn x s = .fault f := by
  rw [issueMldg, issueChecks_pass (by simp [noMeld_none (k := s.core s.turn) hc, hr]), issueRead_unmarked hmk]
  dsimp only
  rw [issueChecks_fault]
  rw [cur] at hf
  simp [hf]

theorem issueMlchkRec_reads (hc : s.cur.eclass = 3 ∨ s.cur.eclass = 5) (hmk : s.ecc.marks = [])
    (hr : recordFault s s.turn x.toNat = none) : issueMlchkRec s.turn x s =
      .ok s (BitVec.ofNat 64 ((meldFault s.cur s.turn (recordAt s s.turn x.toNat)).getD 0)) := by
  rw [issueMlchkRec, issueChecks_pass (by simp [hr]), issueRead_unmarked hmk]
  have hf : ([noMeld (s.core s.turn), meldFault (s.core s.turn) s.turn (recordAt s s.turn x.toNat)].findSome? id) =
      meldFault s.cur s.turn (recordAt s s.turn x.toNat) := by
    rw [noMeld_none (k := s.core s.turn) hc, cur]
    cases meldFault (s.core s.turn) s.turn (recordAt s s.turn x.toNat) <;> rfl
  rw [hf]

/-- The nodes of a loaded graph are written to memory; no core changes meanwhile. -/
theorem core_loadMeld (s : State) (c : Nat) (r : MeldRec) : ((loadMeld s c r).core c).meld.graphs =
    NMap.put (s.core c).meld.graphs (nextMeldId (s.core c))
      { nin := r.nin, ntap := r.ntap, d := r.d, nodes := (freeNodes (s.core c) c).take r.nnode } := by
  have hc : ∀ (l : List (Nat × Word)) (ns : List Nat), (l.foldl (fun s (n, w) =>
      s.write (winBase c + 0x500000 + 8 * n) (leBytes 8 (relocate ns w).toNat)) s).core c = s.core c := fun l ns =>
    foldl_keeps (fun s => s.core c) (fun s a => core_write s _ _ c) l s
  rw [loadMeld]
  dsimp only
  rw [core_modCore_self, hc]

theorem loadMeld_turn (s : State) (c : Nat) (r : MeldRec) : (loadMeld s c r).turn = s.turn :=
  foldl_keeps State.turn (fun s _ => write_turn s _ _) _ s

theorem meld_finished (s : State) (d : Reg) (v : Word) : ((s.setReg d v).advance 4).cur.meld = s.cur.meld := by
  rw [cur_advance, cur_setReg, Core.setReg_eq]

/-! ### MLFREE, MLCUT and MLRUN (R450, R451) -/

theorem issueMlfree_enters (hc : s.cur.eclass = 3 ∨ s.cur.eclass = 5) (hg : NMap.find s.cur.meld.graphs m = some g)
    (hf : g.freeing = false) (hq : s.cur.meld.queue.length < 8) :
    issueMlfree m s.turn s = .ok (s.modCore s.turn fun k => { k with
      meld := { k.meld with queue := k.meld.queue ++ [.free m], graphs := NMap.put k.meld.graphs m { g with freeing := true } }
      issueSeq := k.issueSeq + 1 }) 0 := by
  rw [issueMlfree, issueChecks_pass (by simp [noMeld_none (k := s.core s.turn) hc, meldGone_none (k := s.core s.turn) hg hf])]
  simp only [mlPush_enters hq, show NMap.find (s.core s.turn).meld.graphs m = some g from hg, modCore_modCore]

theorem issueMlfree_refused (hc : s.cur.eclass = 3 ∨ s.cur.eclass = 5) (hg : NMap.find s.cur.meld.graphs m = none) :
    issueMlfree m s.turn s = .fault 0x0E8 := by
  rw [issueMlfree, issueChecks_fault]
  simp [noMeld_none (k := s.core s.turn) hc, meldGone_some (k := s.core s.turn) hg]

theorem issueMlcut_enters (hc : s.cur.eclass = 3 ∨ s.cur.eclass = 5) (hg : NMap.find s.cur.meld.graphs m = some g)
    (hf : g.freeing = false) (hx : fld x 63 6 = 0) :
    issueMlcut m s.turn x s = mlPush s s.turn (.cut m (fld x 5 0)) := by
  rw [issueMlcut, issueChecks_pass]
  simp [noMeld_none (k := s.core s.turn) hc, meldGone_none (k := s.core s.turn) hg hf, failIf, hx]

/-- The bytes that a run reads from tile SRAM, and those it writes there. -/
def runInBytes (y : Word) (g : MeldGraph) : Nat := runV y * roundUp (vectorBytes (runIn y) g.nin) 16
/-- The bytes that a run writes to tile SRAM. -/
def runOutBytes (y : Word) (g : MeldGraph) : Nat := runV y * roundUp (g.ntap * elemBits (runOut y) / 8) 16

/-- The place of a run's results in tile SRAM: an operand outside the code region and the window of the core. -/
def RunPlace (k : Core) (y : Word) (g : MeldGraph) : Prop :=
  OperandOk (fld y 56 36) (runOutBytes y g) 16 ∧ k.inCode (fld y 56 36) (runOutBytes y g) = false ∧
    k.inWindow (fld y 56 36) (runOutBytes y g) = false

theorem issueMlrun_enters (hc : s.cur.eclass = 3 ∨ s.cur.eclass = 5) (hg : NMap.find s.cur.meld.graphs m = some g)
    (hf : g.freeing = false) (hr : runReserved y = false) (hb : runBad y = false)
    (hip : bitAt y 33 = true → SouthOk s.cur 0x2C1 0x3B) (hit : bitAt y 33 = false → OperandOk x.toNat (runInBytes y g) 16)
    (hop : bitAt y 32 = true → SouthOk s.cur 0x2C0 0x3C) (hot : bitAt y 32 = false → RunPlace s.cur y g) :
    issueMlrun m s.turn s.cur.mode x y s = mlPush s s.turn (.run m x y s.cur.issueSeq 0) := by
  have hget : NMap.getD { nin := 0, ntap := 0, d := 8, nodes := [] } (s.core s.turn).meld.graphs m = g := by
    rw [NMap.getD_eq, show NMap.find (s.core s.turn).meld.graphs m = some g from hg, Option.getD_some]
  have hplace : (!(bitAt y 32) && ((s.core s.turn).inCode (fld y 56 36) (runOutBytes y g) ||
      (s.core s.turn).inWindow (fld y 56 36) (runOutBytes y g))) = false := by
    cases h : bitAt y 32 with
    | true => rfl
    | false => obtain ⟨-, hi, hw⟩ := hot h; rw [cur] at hi hw; rw [hi, hw]; rfl
  have hin : (if bitAt y 33 then portFault (s.core s.turn) s.cur.mode 0x2C1 0x3B 0x0EE else none) = none := by
    split
    next h => exact portFault_cur (hip h) _
    next => rfl
  have hout : (if bitAt y 32 then portFault (s.core s.turn) s.cur.mode 0x2C0 0x3C 0x0EE else none) = none := by
    split
    next h => exact portFault_cur (hop h) _
    next => rfl
  have hinT : (if bitAt y 33 then none else operandFault x.toNat (runInBytes y g) 16) = none := by
    split
    next => rfl
    next h => exact operandFault_of_ok (hit (by simpa using h))
  have houtT : (if bitAt y 32 then none else operandFault (fld y 56 36) (runOutBytes y g) 16) = none := by
    split
    next => rfl
    next h => exact operandFault_of_ok (hot (by simpa using h)).1
  rw [runInBytes] at hinT
  rw [runOutBytes] at hplace houtT
  rw [issueMlrun]
  rw [hget, hplace, hin, hout, hinT, houtT, issueChecks_pass]
  · rfl
  · simp [noMeld_none (k := s.core s.turn) hc, meldGone_none (k := s.core s.turn) hg hf, failIf, hr, hb]

end

/-! ### The obligation -/

/-- Settles O26: MLDG and MLCHK by the checks of the record, the queued commands by what their issue changes of the core. -/
theorem meldCommandIssue : Obligations.MeldCommandIssue := by
  unfold Obligations.MeldCommandIssue
  intro s d a b id g
  dsimp only
  intro ha
  refine ⟨?_, fun hmk hr hc => ?_, fun hc => ⟨fun hmk hr hf => ?_, fun hmk hr f hf => ?_, fun hg => ?_, fun hg hf hq => ⟨?_,
    fun hx => ?_, ?_⟩⟩⟩
  · rw [exec_mlchk, execMlchk]
    exact runIssue_ok ha rfl
  · rw [exec_mlchkRec, execMlchkRec]
    exact runIssue_ok ha (issueMlchkRec_reads hc hmk hr)
  · rw [exec_mldg, execMldg]
    refine ⟨_, runIssue_ok ha (issueMldg_loads hc hmk hr hf), rfl, ?_⟩
    rw [meld_finished, cur, loadMeld_turn, core_loadMeld]
    exact NMap.find_put_self ..
  · rw [exec_mldg, execMldg]
    exact runIssue_fault ha (issueMldg_refused hc hmk hr hf)
  · rw [exec_mlfree, execMlfree]
    exact runIssue_fault ha (issueMlfree_refused hc hg)
  · rw [exec_mlfree, execMlfree]
    obtain ⟨t, ht, hm, hgr⟩ := mlEntered_of_issue ha (issueMlfree_enters hc hg hf hq) rfl rfl rfl
    refine ⟨t, ht, hm, ?_⟩
    rw [hgr]
    exact NMap.find_put_self ..
  · rw [exec_mlcut, execMlcut]
    obtain ⟨t, ht, hm, -⟩ := mlEntered_of_issue ha ((issueMlcut_enters hc hg hf hx).trans (mlPush_enters hq)) rfl rfl rfl
    exact ⟨t, ht, hm⟩
  · intro hr hb hip hit hop hot
    rw [exec_mlrun, execMlrun]
    obtain ⟨t, ht, hm, -⟩ := mlEntered_of_issue ha ((issueMlrun_enters hc hg hf hr hb hip hit hop hot).trans (mlPush_enters hq)) rfl rfl rfl
    exact ⟨t, ht, hm⟩

end Sys2Proof.Machine
end

section
/-! What the matrix engine does with the commands of its queue: O25 (R433 to R442). -/

namespace Sys2Proof.Machine

open State

/-! ### The command at the head of the queue (R431) -/

theorem engineRuns_of_ok {k : Core} (h : engineOk k = true) (n : Nat) : engineRuns k n = true := by
  rw [engineRuns, h, Bool.true_or]

theorem engineRead_unmarked {s : State} (h : s.ecc.marks = []) (c off n : Nat) (f : State → List Byte → State) :
    engineRead s c off n f = f s (s.tile c off n) := by
  simp only [engineRead, ueAt_of_unmarked h, correct_of_unmarked h]

theorem bankRead_unmarked {s : State} (h : s.ecc.marks = []) (c bank : Nat) (f : State → State) : bankRead s c bank f = f s := by
  simp only [bankRead, ueAt_of_unmarked h, correct_of_unmarked h]

section
variable {s : State} {c : Nat} {m : MxCmd} {q : List MxCmd} (hq : (s.core c).matrix.queue = m :: q)
include hq

/-- A command that changes the engine of its core alone, and leaves the head of the queue. -/
theorem mxDone_modMatrix (f : Matrix → Matrix) (hf : (f (s.core c).matrix).queue = (s.core c).matrix.queue)
    (hd : (f (s.core c).matrix).done = (s.core c).matrix.done) :
    OnlyCore s (mxDone (modMatrix s c f) c 0) c ∧ ((mxDone (modMatrix s c f) c 0).core c).matrix =
      { f (s.core c).matrix with queue := q, done := (s.core c).matrix.done + 1 } := by
  rw [mxDone, modMatrix, modMatrix, modCore_modCore]
  refine ⟨⟨_, rfl⟩, ?_⟩
  rw [core_modCore_self]
  simp only [hf, hd, hq, List.eraseIdx_cons_zero]

variable (hok : engineOk (s.core c) = true)
include hok

theorem mxHead_runs (f : MxCmd → State) : mxHead s c f = .next (f m) := by
  simp only [mxHead, engineRuns_of_ok hok, hq, Bool.not_true, Bool.false_eq_true, if_false]

theorem mxCompute_runs (hm : ∀ p, m.op ≠ .mxb p) (f : Nat → MxCmd → State) : mxCompute s c f = .next (f 0 m) := by
  obtain ⟨op, x, y, r, n, g⟩ := m
  cases op with
  | mxb p => exact absurd rfl (hm p)
  | _ => simp [mxCompute, engineRuns_of_ok hok, hq, List.findIdx?_cons]

theorem mxbLoad_runs {port : Bool} (hm : m.op = .mxb port) : execMxbLoad c s = .next (runMxb s c 0 port m.x m.y) := by
  obtain ⟨op, x, y, r, n, g⟩ := m
  obtain rfl : op = .mxb port := hm
  simp [execMxbLoad, engineRuns_of_ok hok, hq, List.range_succ_eq_map, passesLoads]

end

/-! ### Banks and their memory (R438, R439) -/

section
variable {s : State} {c bank : Nat}

/-- Zeros written to a block of memory (R438). -/
theorem write_zeros (hw : Memory.wf s.mem = true) (a n : Nat) :
    SameOutside s (s.write a (List.replicate n 0)) a n ∧
      ∀ i, i < n → memGet (s.write a (List.replicate n 0)).mem (a + i) = 0 := by
  refine ⟨fun x hx => ?_, fun i hi => ?_⟩
  · rw [memGet_write s _ _ hw, if_neg (by rw [List.length_replicate]; omega)]
  · rw [memGet_write s _ _ hw, if_pos (by rw [List.length_replicate]; omega)]
    rw [Nat.add_sub_cancel_left]
    exact List.getD_replicate _ hi

theorem modMatrix_mem (s : State) (c : Nat) (f : Matrix → Matrix) : (modMatrix s c f).mem = s.mem := rfl

theorem clearBank_mem (md : Nat) (e : Int) :
    (clearBank s c bank md e).mem = (s.write (accKey c bank 0 0) (List.replicate 0x8000 0)).mem := by
  rw [clearBank]
  exact modMatrix_mem ..

theorem clearBank_memory (hw : Memory.wf s.mem = true) (md : Nat) (e : Int) :
    SameOutside s (clearBank s c bank md e) (accKey c bank 0 0) 0x8000 ∧
      ∀ i, i < 0x8000 → memGet (clearBank s c bank md e).mem (accKey c bank 0 0 + i) = 0 := by
  rw [SameOutside, clearBank_mem]
  exact write_zeros hw ..

/-- A bank replaced by a command, the command off the queue. -/
theorem mxDone_putBank {m : MxCmd} {q : List MxCmd} (hq : (s.core c).matrix.queue = m :: q) (b : Bank) :
    let t := mxDone (modMatrix s c fun m => { m with banks := NMap.put m.banks bank b }) c 0
    (t.core c).matrix.queue = q ∧ NMap.getD {} (t.core c).matrix.banks bank = b := by
  obtain ⟨-, hm⟩ := mxDone_modMatrix hq (fun m => { m with banks := NMap.put m.banks bank b }) rfl rfl
  dsimp only
  rw [hm]
  exact ⟨rfl, NMap.getD_put_self ..⟩

theorem mxDone_clearBank {m : MxCmd} {q : List MxCmd} (hq : (s.core c).matrix.queue = m :: q) (md : Nat) (e : Int) :
    ((mxDone (clearBank s c bank md e) c 0).core c).matrix.queue = q ∧
      NMap.getD {} ((mxDone (clearBank s c bank md e) c 0).core c).matrix.banks bank =
        { mode := md, e := e, done := 0, counts := [] } := by
  rw [clearBank]
  refine mxDone_putBank (q := q) (m := m) ?_ _
  rw [core_write, hq]

theorem mxDone_mem (s : State) (c i : Nat) : (mxDone s c i).mem = s.mem := rfl

/-- MXACC.clr at the head of the queue (R439). -/
theorem mxaccExecute_clears {x y : Word} {r : List Word} {n : Nat} {gm : Bool} {q : List MxCmd} (hok : engineOk (s.core c) = true)
    (hq : (s.core c).matrix.queue = ⟨.clr bank, x, y, r, n, gm⟩ :: q) : execMxaccExecute c s =
      .next (mxDone (clearBank s c bank (fld y 1 0) (if fld y 1 0 = 2 then sgn 16 (fld y 31 16) else 0)) c 0) := by
  rw [execMxaccExecute, mxCompute_runs hq hok nofun]

end

/-! ### The obligation -/

/-- Settles O25: the head of the queue runs at once, its operands read as they stand. -/
theorem matrixExecution : Obligations.MatrixExecution := by
  unfold Obligations.MatrixExecution
  intro s c bank x y r n q on gm
  dsimp only
  intro hok hmk
  refine ⟨fun hq => ?_, fun hq => ?_, fun hq => ?_, fun hq he => ?_, fun hq => ⟨fun u hu => ?_, fun hu => ?_⟩, fun hq cols hcols => ?_,
    fun hq hg => ?_⟩
  · rw [exec_mxswExchange, execMxswExchange]
    exact ⟨_, mxHead_runs hq hok _, mxDone_modMatrix hq _ rfl rfl⟩
  · rw [exec_mxgangExecute, execMxgangExecute]
    exact ⟨_, mxHead_runs hq hok _, mxDone_modMatrix hq _ rfl rfl⟩
  · rw [exec_mxaccExecute, mxaccExecute_clears hok hq]
    obtain ⟨hqueue, hbank⟩ := mxDone_clearBank (bank := bank) hq (fld y 1 0) (if fld y 1 0 = 2 then sgn 16 (fld y 31 16) else 0)
    refine ⟨_, rfl, hqueue, hbank, fun hw => ?_⟩
    rw [SameOutside, mxDone_mem]
    exact clearBank_memory hw _ _
  · rw [exec_mxaccExecute, execMxaccExecute, mxCompute_runs hq hok nofun]
    simp only [bankRead_unmarked hmk, he, Bool.false_eq_true, if_false]
  · rw [exec_mxmmExecute, execMxmmExecute, mxCompute_runs hq hok nofun]
    simp only [engineRead_unmarked hmk, bankRead_unmarked hmk, hu, Bool.false_eq_true, if_false]
  · rw [exec_mxmmExecute, execMxmmExecute, mxCompute_runs hq hok nofun]
    simp only [engineRead_unmarked hmk, bankRead_unmarked hmk, hu, Bool.false_eq_true, if_false]
  · rw [exec_mxbLoad, mxbLoad_runs hq hok rfl]
    simp only [runMxb, engineRead_unmarked hmk, Bool.false_eq_true, if_false, hcols]
  · rw [exec_mxsortExecute, execMxsortExecute, mxHead_runs hq hok]
    simp only [engineRead_unmarked hmk, hg, Bool.false_eq_true, if_false, if_true]

end Sys2Proof.Machine
end

section
/-! What the meld array does with the commands of its queue: O27 (R450, R451). -/

namespace Sys2Proof.Machine

open State

theorem nodesUe_unmarked {s : State} (h : s.ecc.marks = []) (c : Nat) (g : MeldGraph) : nodesUe s c g = none := by
  rw [nodesUe, List.findSome?_eq_none_iff]
  exact fun _ _ => ueAt_of_unmarked h ..

section
variable {s : State} {c : Nat} {m : MlCmd} {q : List MlCmd} (hq : (s.core c).meld.queue = m :: q)
include hq

theorem mlHead_runs (hok : engineOk (s.core c) = true) (f : MlCmd → State) : mlHead s c f = .next (f m) := by
  simp only [mlHead, engineRuns_of_ok hok, hq, Bool.not_true, Bool.false_eq_true, if_false]

/-- A command that changes the meld array of its core alone, and leaves the head of the queue. -/
theorem mlDone_modMeld (f : Meld → Meld) (hf : (f (s.core c).meld).queue = (s.core c).meld.queue)
    (hd : (f (s.core c).meld).done = (s.core c).meld.done) :
    OnlyCore s (mlDone (modMeld s c f) c) c ∧ ((mlDone (modMeld s c f) c).core c).meld =
      { f (s.core c).meld with queue := q, done := (s.core c).meld.done + 1 } := by
  rw [mlDone, modMeld, modMeld, modCore_modCore]
  refine ⟨⟨_, rfl⟩, ?_⟩
  rw [core_modCore_self]
  simp only [hf, hd, hq, List.drop_succ_cons, List.drop_zero]

end

/-- A meld array in which the cut of a graph is set for later runs (R450). -/
def Meld.cutTo (id n : Nat) (x : Meld) : Meld :=
  match NMap.find x.graphs id with
  | none => x
  | some g => { x with graphs := NMap.put x.graphs id { g with cut := n } }

/-- Settles O27: the head of the queue runs at once, its operands read as they stand. -/
theorem meldExecution : Obligations.MeldExecution := by
  unfold Obligations.MeldExecution
  intro s c id n q g x y i pos
  dsimp only
  intro hok hmk
  refine ⟨fun hq => ?_, fun hq hg => ?_, fun hq hg hp => ⟨fun e ins hv => ?_, fun f hv => ?_⟩⟩
  · rw [exec_mlfreeComplete, execMlfreeComplete]
    exact ⟨_, mlHead_runs hq hok _, mlDone_modMeld hq _ rfl rfl⟩
  · rw [exec_mlcutExecute, execMlcutExecute]
    refine ⟨_, mlHead_runs hq hok _, ?_⟩
    have hc : Meld.cutTo id n (s.core c).meld = { (s.core c).meld with
        graphs := NMap.put (s.core c).meld.graphs id { g with cut := n } } := by simp only [Meld.cutTo, hg]
    have hr := mlDone_modMeld hq (Meld.cutTo id n) (by rw [hc]) (by rw [hc])
    rwa [hc] at hr
  · rw [exec_meldRun, execMeldRun, mlHead_runs hq hok]
    simp only [hg, nodesUe_unmarked hmk, hp, engineRead_unmarked hmk, hv, Bool.false_eq_true, if_false]
  · rw [exec_meldRun, execMeldRun, mlHead_runs hq hok]
    simp only [hg, nodesUe_unmarked hmk, hp, engineRead_unmarked hmk, hv, Bool.false_eq_true, if_false]

end Sys2Proof.Machine
end

section
/-! Arithmetic and special-function elements: O28 (R400, R401, R404, R241). -/

namespace Sys2Proof.Machine

section
variable {s f : State} {b : Blk}

theorem slotsOf_binary {op m : Nat} (hop : opRounds op = true) (hlt : op < 0x140) (har : arity op = 2) (h0 : selOf m 0 = 0)
    (h1 : selOf m 1 = 0) : slotsOf op m = [0, 1] := by
  unfold slotsOf
  rw [if_pos hop, if_neg (by omega), har]
  simp [List.range_succ, h0, h1]

theorem tailParts_data (t : Nat) (p : List Byte) : tailParts t (.data p) = (tokenElems t p.length, tailExp t p, tokenFields t p) :=
  rfl

/-- The sum or difference of two XW128 tokens of one n and E (R241). -/
theorem xwFire_sum {x : Site} {p q : List Byte} {e : Int} (sub : Bool) (hn : tokenElems 0x1C p.length = tokenElems 0x1C q.length)
    (hp : tailExp 0x1C p = some e) (hq : tailExp 0x1C q = some e) : xwFire b sub x [.data p, .data q] s = emit s x b [.data
      (packBits 128 (((tokenFields 0x1C p).zip (tokenFields 0x1C q)).map fun (a, c) =>
        if sub then (a + 2 ^ 128 - c) % 2 ^ 128 else (a + c) % 2 ^ 128) ++ tailBytes 0x1C e)] := by
  simp only [xwFire, List.getD_cons_zero, List.getD_cons_succ, tailParts_data, hn, hp, hq, ne_eq, not_true_eq_false, if_false]

theorem xw_tokens {op : Nat} {p q : List Byte} {e : Int} (hf : ElemFree s f b) (hs : slotsOf op (bMod b) = [0, 1]) (sub : Bool)
    (hk : TokensAt s f [0, 1] [.data p, .data q]) (hn : tokenElems 0x1C p.length = tokenElems 0x1C q.length)
    (hp : tailExp 0x1C p = some e) (hq : tailExp 0x1C q = some e) : reactAll b op (bStat b) (xwFire b sub) s =
      leaves s b (emit (popAll f (siteOf s) [0, 1]) (siteOf s) b [.data
        (packBits 128 (((tokenFields 0x1C p).zip (tokenFields 0x1C q)).map fun (a, c) =>
          if sub then (a + 2 ^ 128 - c) % 2 ^ 128 else (a + c) % 2 ^ 128) ++ tailBytes 0x1C e)]) := by
  rw [reactAll, show b.modf.toNat = bMod b from rfl, hs, elemAct_tokens hf hk, xwFire_sum sub hn hp hq]

end

/-- Settles O28: each instruction is the lane rule of R401 with its own value; XW128 tokens add as they stand. -/
theorem elementArithmetic : Obligations.ElementArithmetic := by
  unfold Obligations.ElementArithmetic
  intro s f f2 b items us p q e
  dsimp only
  intro hf
  refine ⟨fun ht => ?_, fun ht h0 h1 hk hn hp hq => ⟨?_, ?_⟩⟩
  · simp only [List.forall_mem_cons, List.not_mem_nil, false_implies, implies_true, and_true]
    refine ⟨fun hk => ?_, fun hk => ?_, fun hk => ?_, fun hk => ?_, fun hk => ?_, fun hk => ?_, fun hk => ?_, fun hk => ?_,
      fun hk => ?_, fun hk => ?_, fun hk => ?_, fun hk => ?_, fun hk => ?_, fun hk => ?_⟩
    · rw [exec_elemAdd, execElemAdd, if_neg ht]; exact arith_tokens hf _ _ _ hk
    · rw [exec_elemSub, execElemSub, if_neg ht]; exact arith_tokens hf _ _ _ hk
    · rw [exec_elemMul, execElemMul]; exact arith_tokens hf _ _ _ hk
    · rw [exec_fma, execFma]; exact arith_tokens hf _ _ _ hk
    · rw [exec_fms, execFms]; exact arith_tokens hf _ _ _ hk
    · rw [exec_nfma, execNfma]; exact arith_tokens hf _ _ _ hk
    · rw [exec_elemMin, execElemMin]; exact arith_tokens hf _ _ _ hk
    · rw [exec_elemMax, execElemMax]; exact arith_tokens hf _ _ _ hk
    · rw [exec_abs, execAbs]; exact arith_tokens hf _ _ _ hk
    · rw [exec_neg, execNeg]; exact arith_tokens hf _ _ _ hk
    · rw [exec_exp2, execExp2]; exact arith_tokens hf _ _ _ hk
    · rw [exec_log2, execLog2]; exact arith_tokens hf _ _ _ hk
    · rw [exec_rcp, execRcp]; exact arith_tokens hf _ _ _ hk
    · rw [exec_rsq, execRsq]; exact arith_tokens hf _ _ _ hk
  · rw [ht] at hn hp hq ⊢
    rw [exec_elemAdd, execElemAdd, if_pos ht]
    have hw := xw_tokens hf (slotsOf_binary (op := 0x040) (by decide) (by decide) (by decide) h0 h1) false hk hn hp hq
    simp only [Bool.false_eq_true, if_false] at hw
    exact hw
  · rw [ht] at hn hp hq ⊢
    rw [exec_elemSub, execElemSub, if_pos ht]
    have hw := xw_tokens hf (slotsOf_binary (op := 0x041) (by decide) (by decide) (by decide) h0 h1) true hk hn hp hq
    simp only [if_true] at hw
    exact hw

end Sys2Proof.Machine
end

section
/-! Logic, compare and select elements, and conversions: O29 (R400, R402, R403, R405, R406). -/

namespace Sys2Proof.Machine

section
variable {s f : State} {b : Blk} {items : List Item}

/-- An element of R395 whose opcode links the slots in which its tokens stand. -/
theorem reactAll_tokens {op : Nat} {slots : List Nat} (hf : ElemFree s f b) (hs : slotsOf op (bMod b) = slots)
    (hk : TokensAt s f slots items) (st : Bool) (fire : Site → List Item → State → State) :
    reactAll b op st fire s = leaves s b (fire (siteOf s) items (popAll f (siteOf s) slots)) := by
  rw [reactAll, show b.modf.toNat = bMod b from rfl, hs, elemAct_tokens hf hk]

/-- A lane instruction that draws no random words (R400). -/
theorem laneOp_plain (hf : ElemFree s f b) (op out : Nat) (types : List Nat) (g : Nat → List Nat → Nat × List Nat)
    (hk : TokensAt s f (slotsOf op (bMod b)) items) : laneOp b op types false out g s =
      leaves s b (laneResult s (popAll f (siteOf s) (slotsOf op (bMod b))) (popAll f (siteOf s) (slotsOf op (bMod b))) [] b op out
        types items g) :=
  laneOp_tokens hf hk (by rw [if_neg Bool.false_ne_true])

/-! ### Conversions (R405) -/

theorem slotsOf_unary {op : Nat} (h : 0x140 ≤ op) (hr : opRounds op = true) (m : Nat) : slotsOf op m = [0] := by
  unfold slotsOf
  rw [if_pos hr, if_pos h]

variable {i : Item} {vs : List Val} {u : Nat}

theorem cvtFire_nan {x : Site} {f1 : State} (hd : decodeToken u (itemBytes i) = .ok vs)
    (hn : (nanScaled u (itemBytes i) && lacksNan (eType b) && !(bStat b)) = true) :
    cvtFire b u x [i] f1 = tokenHalt f1 x 0 0x0FC := by
  simp only [cvtFire, List.headD_cons, hd, hn, if_true]

theorem cvtFire_rounds {x : Site} {f1 f2 : State} {us : List Nat} (hd : decodeToken u (itemBytes i) = .ok vs)
    (hn : (nanScaled u (itemBytes i) && lacksNan (eType b) && !(bStat b)) = false) (hu : srWords f1 x.c b 16 = .ok (us, f2)) :
    cvtFire b u x [i] f1 =
      let r := encodeToken (eType b) (bRm b) us ((List.range 64).map fun l => vs.getD l (.num false 0 1))
      emit (addStats f2 x r.2) x b [.data r.1] := by
  simp only [cvtFire, List.headD_cons, hd, hn, hu, Bool.false_eq_true, if_false]

/-- A conversion with a token that decodes (R405). -/
theorem conversion_tokens {op : Nat} (hf : ElemFree s f b) (hk : TokensAt s f [0] [i]) (hop : 0x140 ≤ op) (hr : opRounds op = true)
    (hd : decodeToken u (itemBytes i) = .ok vs) :
    ((nanScaled u (itemBytes i) && lacksNan (eType b) && !(bStat b)) = true → reactAll b op (bStat b) (cvtFire b u) s =
      leaves s b (tokenHalt (popAll f (siteOf s) [0]) (siteOf s) 0 0x0FC)) ∧
    ∀ us f2, (nanScaled u (itemBytes i) && lacksNan (eType b) && !(bStat b)) = false →
      srWords (popAll f (siteOf s) [0]) s.turn b 16 = .ok (us, f2) → reactAll b op (bStat b) (cvtFire b u) s = leaves s b
        (let r := encodeToken (eType b) (bRm b) us ((List.range 64).map fun l => vs.getD l (.num false 0 1))
         emit (addStats f2 (siteOf s) r.2) (siteOf s) b [.data r.1]) := by
  rw [reactAll_tokens hf (slotsOf_unary hop hr _) hk]
  exact ⟨fun hn => by rw [cvtFire_nan hd hn], fun us f2 hn hu => by rw [cvtFire_rounds hd hn hu]⟩

/-- BPLN with a token whose planes are numbers (R406). -/
theorem bpln_tokens {ns : List (Nat × List Nat)} (hf : ElemFree s f b) (hk : TokensAt s f [0] [i])
    (hp : planeNumbers (eType b) (bitsOf (bMod b) 4 0) (itemBytes i) = .ok ns) : exec (.bpln b) s = leaves s b
      (emit (addStats (popAll f (siteOf s) [0]) (siteOf s) (sumCounts (ns.map Prod.snd))) (siteOf s) b
        (((List.range (bitsOf (bMod b) 4 0)).reverse).map fun j => Item.data (packBits 1 (ns.map fun n => n.1 / 2 ^ j % 2)))) := by
  rw [exec_bpln, execBpln, reactAll_tokens hf (slotsOf_unary (by decide) (by decide) _) hk]
  simp only [bplnFire, List.headD_cons, hp]

end

/-- Settles O29: each instruction is the lane rule of R400 with its own function; conversions decode their whole token. -/
theorem elementLogicAndConversions : Obligations.ElementLogicAndConversions := by
  unfold Obligations.ElementLogicAndConversions
  refine ⟨?_, ?_⟩
  · intro s f b items
    dsimp only
    intro hf
    simp only [List.forall_mem_cons, List.not_mem_nil, false_implies, implies_true, and_true]
    refine ⟨fun hk => ?_, fun hk => ?_, fun hk => ?_, fun hk => ?_, fun hk => ?_, fun hk => ?_, fun hk => ?_, fun hk => ?_,
      fun hk => ?_, fun hk => ?_, fun hk => ?_, fun hk => ?_⟩
    · rw [exec_elemAnd, execElemAnd]; exact laneOp_plain hf _ _ _ _ hk
    · rw [exec_elemOr, execElemOr]; exact laneOp_plain hf _ _ _ _ hk
    · rw [exec_elemXor, execElemXor]; exact laneOp_plain hf _ _ _ _ hk
    · rw [exec_not, execNot]; exact laneOp_plain hf _ _ _ _ hk
    · rw [exec_elemShl, execElemShl]; exact laneOp_plain hf _ _ _ _ hk
    · rw [exec_elemShr, execElemShr]; exact laneOp_plain hf _ _ _ _ hk
    · rw [exec_elemSra, execElemSra]; exact laneOp_plain hf _ _ _ _ hk
    · rw [exec_clamp, execClamp]; exact laneOp_plain hf _ _ _ _ hk
    · rw [exec_cmpeq, execCmpeq]; exact laneOp_plain hf _ _ _ _ hk
    · rw [exec_cmplt, execCmplt]; exact laneOp_plain hf _ _ _ _ hk
    · rw [exec_cmple, execCmple]; exact laneOp_plain hf _ _ _ _ hk
    · rw [exec_sel, execSel]; exact laneOp_plain hf _ _ _ _ hk
  · intro s f f2 b i vs us ns
    dsimp only
    intro hf hk
    refine ⟨?_, bpln_tokens hf hk⟩
    simp only [List.forall_mem_cons, List.not_mem_nil, false_implies, implies_true, and_true]
    refine ⟨fun hd => ?_, fun hd => ?_, fun hd => ?_, fun hd => ?_, fun hd => ?_⟩
    · obtain ⟨hnan, hrounds⟩ := conversion_tokens (op := 0x140) hf hk (by decide) (by decide) hd
      exact ⟨hnan, hrounds us f2⟩
    · obtain ⟨hnan, hrounds⟩ := conversion_tokens (op := 0x141) hf hk (by decide) (by decide) hd
      exact ⟨hnan, hrounds us f2⟩
    · obtain ⟨hnan, hrounds⟩ := conversion_tokens (op := 0x142) hf hk (by decide) (by decide) hd
      exact ⟨hnan, hrounds us f2⟩
    · obtain ⟨hnan, hrounds⟩ := conversion_tokens (op := 0x143) hf hk (by decide) (by decide) hd
      exact ⟨hnan, hrounds us f2⟩
    · obtain ⟨hnan, hrounds⟩ := conversion_tokens (op := 0x144) hf hk (by decide) (by decide) hd
      exact ⟨hnan, hrounds us f2⟩

end Sys2Proof.Machine
end

section
/-! Reductions and lane moves: O30 (R407, R251). -/

namespace Sys2Proof.Machine

section
variable {s f f1 : State} {b : Blk} {x : Site} {i j : Item} {w : Word}

theorem statNotice_core (s : State) (h core detail : Nat) (sat : Bool) (c : Nat) :
    (statNotice s h core detail sat).core c = s.core c := by
  have ht := congrArg State.cores (sansTold_statNotice s h core detail sat)
  have hc : (statNotice s h core detail sat).cores = s.cores := ht
  rw [State.core, State.core, hc]

/-- Counting changes nothing of an element but its counts (R259). -/
theorem elem_addStats (s : State) (x : Site) (cs : List Nat) :
    ∃ c, (addStats s x cs).elem x = { s.elem x with counts := c } := by
  refine ⟨(joinCounts (s.elem x).counts cs).1, ?_⟩
  rw [addStats, State.elem, statNotice_core, ← State.elem, elem_modElem_self]

theorem addStats_held (s : State) (x : Site) (cs : List Nat) : ((addStats s x cs).elem x).held = (s.elem x).held := by
  obtain ⟨_, h⟩ := elem_addStats s x cs
  rw [h]

/-- What a reduction with nothing held does with its result. -/
def reduceKept (b : Blk) (x : Site) (u : State) (v : Val) : State :=
  if accOn b then u.modElem x fun e => { e with held := splat (eType b) v } else emit u x b [.data (splat (eType b) v)]

theorem reduceOut_first {v : Val} {join : List Byte → List Byte × List Nat} (h : accOn b = true → (s.elem x).held = []) :
    reduceOut b x (splat (eType b) v) join s = reduceKept b x s v := by
  rw [reduceOut, reduceKept]
  cases ha : accOn b with
  | false => rfl
  | true => simp only [h ha, Bool.not_true, Bool.false_eq_true, if_false, if_true]

theorem reduction_tokens {op : Nat} {slots : List Nat} {items : List Item} (hf : ElemFree s f b) (hs : slotsOf op (bMod b) = slots)
    (hk : TokensAt s f slots items) (fire : Site → List Item → State → State) :
    reduction b op fire s = leaves s b (fire (siteOf s) items (popAll f (siteOf s) slots)) := by
  rw [reduction, hs, elemAct_tokens hf hk]

/-- An EOT mark at an accumulating reduction: the running value leaves ahead of it (R396, R407). -/
theorem reduction_mark {op : Nat} (hf : ElemFree s f b) (hs : slotsOf op (bMod b) = [0]) (hh : (f.elem (siteOf s)).held ≠ [])
    (hk : ctlKind w = 2) (hm : MarkAt s f 0 w) (hr : markReady f (siteOf s) (bStat b) w = true)
    (fire : Site → List Item → State → State) : reduction b op fire s = leaves s b (markAction
      (emit ((emit (popAll f (siteOf s) [0]) (siteOf s) b [.data ((popAll f (siteOf s) [0]).elem (siteOf s)).held]).modElem (siteOf s)
        fun e => { e with held := [] }) (siteOf s) b [.ctl w]) (siteOf s) (bStat b) w) := by
  have hh' : ((popAll f (siteOf s) [0]).elem (siteOf s)).held ≠ [] := by rwa [popAll_held]
  rw [reduction, hs, elemAct_free hf, react_marks (by simp) (fun n hn => by rwa [List.mem_singleton.1 hn]), if_pos hr]
  simp only [reduceBefore, hk, hh', ne_eq, not_false_eq_true, and_self, if_true, Bool.not_true, Bool.false_eq_true, if_false, allMarks]

theorem rsumFire_keeps {f2 : State} {us : List Nat} (hu : srWords f1 x.c b 16 = .ok (us, f2))
    (h : accOn b = true → (f2.elem x).held = []) : rsumFire b x [i] f1 =
      let vs := (tokenFields (eType b) (itemBytes i)).map (valOf (eType b))
      let r := if isInteger (eType b) then intSum (eType b) vs else treeSum (eType b) (bRm b) us 7 0 vs
      reduceKept b x (addStats f2 x r.2) r.1 := by
  simp only [rsumFire, List.headD_cons, hu]
  exact reduceOut_first fun ha => (addStats_held ..).trans (h ha)

theorem extremeFire_keeps {g : Val → Val → Val} (h : accOn b = true → (f1.elem x).held = []) : extremeFire b g x [i] f1 =
    let r := extreme g ((tokenFields (eType b) (itemBytes i)).map (valOf (eType b)))
    reduceKept b x (addStats f1 x r.2) r.1 := by
  simp only [extremeFire, List.headD_cons]
  exact reduceOut_first fun ha => (addStats_held ..).trans (h ha)

/-- A lane move of a type that is no block type: the chosen lanes, the tail as it stands (R407). -/
theorem moveFire_lanes {items : List Item} (hb : isBlock (eType b) = false) (g : List Item → Nat → Nat → Nat) :
    moveFire b g x (i :: items) f1 =
      let t := eType b
      let n := tokenElems t (itemBytes i).length
      emit f1 x b [.data (fieldBytes t ((List.range n).map fun l => (tokenFields t (itemBytes i)).getD (g (i :: items) n l) 0)
        ++ (if t = 0x1B ∨ t = 0x1C then (itemBytes i).drop (n * elemBits t / 8) else []))] := by
  simp only [moveFire, hb, List.headD_cons, Bool.false_eq_true, if_false]

end

/-- Settles O30: tokens fire the reduction, an EOT mark sends what it holds, and the moves choose their lanes. -/
theorem elementReductions : Obligations.ElementReductions := by
  unfold Obligations.ElementReductions
  intro s f f2 b i j us w
  dsimp only
  intro hf
  refine ⟨fun hk h1 h2 => ⟨fun ht hu => ?_, ?_⟩, fun ha hh hk hm hr => ?_, fun hb => ⟨fun hk => ⟨?_, ?_⟩, fun hk => ?_⟩⟩
  · rw [exec_rsum, execRsum, if_neg ht, reduction_tokens (op := 0x180) (slots := [0]) hf rfl hk,
      rsumFire_keeps hu fun ha => h2.trans (h1 ha)]
    rfl
  · simp only [List.forall_mem_cons, List.not_mem_nil, false_implies, implies_true, and_true]
    refine ⟨?_, ?_⟩
    · rw [exec_rmax, execRmax, reduction_tokens (op := 0x181) (slots := [0]) hf rfl hk, extremeFire_keeps h1]; rfl
    · rw [exec_rmin, execRmin, reduction_tokens (op := 0x182) (slots := [0]) hf rfl hk, extremeFire_keeps h1]; rfl
  · simp only [List.forall_mem_cons, List.not_mem_nil, false_implies, implies_true, and_true]
    refine ⟨?_, ?_, ?_⟩
    · rw [exec_rsum, execRsum, reduction_mark (op := 0x180) hf rfl hh hk hm hr]
    · rw [exec_rmax, execRmax, reduction_mark (op := 0x181) hf rfl hh hk hm hr]
    · rw [exec_rmin, execRmin, reduction_mark (op := 0x182) hf rfl hh hk hm hr]
  · rw [exec_bcast, execBcast, reactAll_tokens (op := 0x183) (slots := [0]) hf rfl hk, moveFire_lanes hb]
  · rw [exec_elemRotl, execElemRotl, reactAll_tokens (op := 0x185) (slots := [0]) hf rfl hk, moveFire_lanes hb]
  · rw [exec_shuf, execShuf, reactAll_tokens (op := 0x184) (slots := [0, 1]) hf rfl hk, moveFire_lanes hb]
    rfl

end Sys2Proof.Machine
end

section
/-! Marks at the elements of R395: O31 (R395, R396). -/

namespace Sys2Proof.Machine

/-- An instruction is an element of R395 with the slots its opcode links. -/
def Reacts (b : Blk) (op : Nat) (st : Bool) (r : Result) (s : State) : Prop :=
  ∃ fire, r = reactAll b op st fire s

section
variable {s f : State} {b : Blk} {w w' : Word} {i : Item}

/-- Marks of one kind at all its slots pass an element once they may (R395, R396). -/
theorem reacts_marks {op : Nat} {st : Bool} {r : Result} (hr : Reacts b op st r s) (hf : ElemFree s f b)
    (hn : slotsOf op (bMod b) ≠ []) (h : ∀ n, n ∈ slotsOf op (bMod b) → MarkAt s f n w) :
    (markReady f (siteOf s) st w = true → r = leaves s b
      (markAction (emit (popAll f (siteOf s) (slotsOf op (bMod b))) (siteOf s) b [.ctl w]) (siteOf s) st w)) ∧
    (markReady f (siteOf s) st w = false → r = leaves s b f) := by
  obtain ⟨fire, rfl⟩ := hr
  rw [reactAll, show b.modf.toNat = bMod b from rfl, elemAct_free hf, react_marks hn h]
  refine ⟨fun hm => ?_, fun hm => ?_⟩
  · rw [if_pos hm]
    simp only [noBefore, allMarks, Bool.not_true, Bool.false_eq_true, if_false, if_true]
  · rw [hm, if_neg Bool.false_ne_true]

/-- A mark beside a token (R395). -/
theorem react_mark_token (h0 : MarkAt s f 0 w) (h1 : TokenAt s f 1 i) (b : Blk) (st : Bool) (fwd : Word → Bool)
    (before : Site → Word → State → State × Bool) (fire : Site → List Item → State → State) :
    react b [0, 1] st fwd before fire (siteOf s) f = gridHalt f (siteOf s) 0 0x0B0 := by
  obtain ⟨hw, hm, hb⟩ := h0
  obtain ⟨hi, hn, hg, -⟩ := h1
  have hbw : itemBad (.ctl w) = false := hb
  simp [react, hw, hm, hbw, hi, hn, hg]

/-- Two marks that differ in kind or level (R395). -/
theorem react_mark_mark (h0 : MarkAt s f 0 w) (h1 : MarkAt s f 1 w') (hne : ctlKind w' ≠ ctlKind w ∨ ctlLevel w' ≠ ctlLevel w)
    (b : Blk) (st : Bool) (fwd : Word → Bool) (before : Site → Word → State → State × Bool)
    (fire : Site → List Item → State → State) :
    react b [0, 1] st fwd before fire (siteOf s) f = gridHalt f (siteOf s) 0 0x0B0 := by
  obtain ⟨hw, hm, hb⟩ := h0
  obtain ⟨hw', hm', hb'⟩ := h1
  have hbw : itemBad (.ctl w) = false := hb
  have hbw' : itemBad (.ctl w') = false := hb'
  simp [react, hw, hm, hbw, hw', hm', hbw', hne]

theorem reacts_skew {op : Nat} {st : Bool} {r : Result} (hr : Reacts b op st r s) (hf : ElemFree s f b)
    (hs : slotsOf op (bMod b) = [0, 1]) (h0 : MarkAt s f 0 w) :
    (TokenAt s f 1 i → r = leaves s b (gridHalt f (siteOf s) 0 0x0B0)) ∧
    (MarkAt s f 1 w' → (ctlKind w' ≠ ctlKind w ∨ ctlLevel w' ≠ ctlLevel w) → r = leaves s b (gridHalt f (siteOf s) 0 0x0B0)) := by
  obtain ⟨fire, rfl⟩ := hr
  rw [reactAll, show b.modf.toNat = bMod b from rfl, elemAct_free hf, hs]
  exact ⟨fun h1 => by rw [react_mark_token h0 h1], fun h1 hne => by rw [react_mark_mark h0 h1 hne]⟩

/-- ADD is an element of R395 for XW128 tokens as for any other. -/
theorem elemAdd_reacts (b : Blk) (s : State) : Reacts b 0x040 (bStat b) (exec (.elemAdd b) s) s := by
  rw [exec_elemAdd, execElemAdd]
  split
  next => exact ⟨_, rfl⟩
  next => exact ⟨_, rfl⟩

end

/-- Settles O31: the rule of R395, for every instruction that follows it. -/
theorem elementMarks : Obligations.ElementMarks := by
  unfold Obligations.ElementMarks
  intro s f b w w' i
  dsimp only
  intro hf p hp
  have hr : Reacts b p.2.1 p.2.2 (exec p.1 s) s := by
    revert p
    simp only [List.forall_mem_cons, List.not_mem_nil, false_implies, implies_true, and_true]
    exact ⟨⟨_, exec_elemNop s⟩, ⟨_, exec_copy s⟩, elemAdd_reacts b s, ⟨_, exec_elemMul s⟩, ⟨_, exec_fma s⟩, ⟨_, exec_elemAnd s⟩,
      ⟨_, exec_not s⟩, ⟨_, exec_cmplt s⟩, ⟨_, exec_sel s⟩, ⟨_, exec_exp2 s⟩, ⟨_, exec_cvt s⟩, ⟨_, exec_bpln s⟩, ⟨_, exec_shuf s⟩,
      ⟨_, exec_steer s⟩, ⟨_, exec_agen s⟩, ⟨_, exec_acpt s⟩, ⟨_, exec_rnge s⟩, ⟨_, exec_stadd s⟩⟩
  exact ⟨reacts_marks hr hf, reacts_skew hr hf⟩

end Sys2Proof.Machine
end

section
/-! Utilities, stationary loads, router operators and mark elements: O32 (R408 to R411, R414, R420, R426). -/

namespace Sys2Proof.Machine

section
variable {s f : State} {b : Blk} {i j c : Item} {n : Nat}

theorem tokensAt_one : TokensAt s f [n] [i] ↔ TokenAt s f n i := by
  constructor
  · rintro ⟨_, _, h, ht, -⟩
    obtain ⟨rfl, -⟩ := List.cons.inj h
    exact ht
  · exact fun h => ⟨i, [], rfl, h, rfl⟩

/-- A slot judged on its own, whose item no rule refuses. -/
theorem withHead_head (h : head? f (siteOf s) n = some i) (hb : itemBad i = false)
    (hbr : asMark i ≠ none ∨ slotBreak f (siteOf s) n = none) (g : Item → State → State) :
    withHead (siteOf s) n g f = g i f := by
  simp only [withHead, h, hb, Bool.false_eq_true, if_false]
  obtain hm | hn := hbr
  · obtain ⟨w, hw⟩ := Option.ne_none_iff_exists'.1 hm
    simp [hw]
  · simp [hn]

/-! ### Utilities and stationary loads (R408, R409, R426) -/

theorem elemNop_passes (hf : ElemFree s f b) (h : TokensAt s f [0] [i]) :
    exec (.elemNop b) s = leaves s b (emit (popAll f (siteOf s) [0]) (siteOf s) b [i]) := by
  rw [exec_elemNop, execElemNop, reactAll_tokens (op := 0x001) (slots := [0]) hf rfl h, passFire]

theorem copy_passes (hf : ElemFree s f b) (h : TokensAt s f [0] [i]) :
    exec (.copy b) s = leaves s b (emit (popAll f (siteOf s) [0]) (siteOf s) b [i]) := by
  rw [exec_copy, execCopy, reactAll_tokens (op := 0x004) (slots := [0]) hf rfl h, passFire]

theorem sink_consumes (hf : ElemFree s f b) (h : TokensAt s f [0] [i]) :
    exec (.sink b) s = leaves s b (popAll f (siteOf s) [0]) := by
  rw [exec_sink, execSink, show slotsOf 0x003 (bMod b) = [0] from rfl, elemAct_tokens hf h]

theorem sld_writes (hf : ElemFree s f b) (h : TokensAt s f [0] [i]) :
    let u := popAll f (siteOf s) [0]
    exec (.sld b) s = leaves s b (u.write (loadTarget u s.turn (physAt u ⟨s.turn, bitsOf (bMod b) 6 0, (siteOf s).sh⟩))
      (packBits 32 (tokenFields (eType b) (itemBytes i)))) := by
  rw [exec_sld, execSld, show slotsOf 0x1C0 (bMod b) = [0] from rfl, elemAct_tokens hf h]
  rfl

theorem const_sends {w : Word} (hf : ElemFree s f b) (h : TokensAt s f [3] [.ctl w]) (ht : b.t1.slot ≠ 3) :
    let u := popAll f (siteOf s) [3]
    exec (.const b) s = leaves s b (emit1 (emit0 u (siteOf s) b [constToken b (siteOf s) u]) (siteOf s) b
      [constToken b (siteOf s) u]) := by
  rw [exec_const, execConst, reactAll_tokens (op := 0x002) (slots := [3]) hf rfl h]
  simp only [emitData, emitDone, if_neg ht, ite_self]

theorem swap_asks (hf : ElemFree s f b) (h : TokenAt s f 3 c) :
    exec (.swap b) s = leaves s b (emit (pop f (siteOf s) 3) (siteOf s) b [markItem 5]) := by
  obtain ⟨hh, hm, -⟩ := id h
  rw [exec_swap, execSwap, elemAct_free hf, swapAct, hh, Option.isSome_some, if_pos rfl, withHead_token h]
  simp only [askMark, hm]

theorem swap_passes (hf : ElemFree s f b) (h3 : head? f (siteOf s) 3 = none) (h : TokenAt s f 0 i) :
    exec (.swap b) s = leaves s b (emit (pop f (siteOf s) 0) (siteOf s) b [i]) := by
  obtain ⟨-, hm, -⟩ := id h
  rw [exec_swap, execSwap, elemAct_free hf, swapAct, h3, Option.isSome_none, if_neg Bool.false_ne_true, withHead_token h]
  simp only [passItem, hm]

/-! ### Marks from counts, and TSTM (R414, R420) -/

theorem markEvery_token {kind : Nat} (h : TokenAt s f 0 i) (hn : 0 < bitsOf (bMod b) 11 0) :
    markEvery b kind (siteOf s) f =
      let u := emit (pop f (siteOf s) 0) (siteOf s) b [i]
      let m := (f.elem (siteOf s)).cnt + 1
      if m < bitsOf (bMod b) 11 0 then u.modElem (siteOf s) fun e => { e with cnt := m }
      else emit (u.modElem (siteOf s) fun e => { e with cnt := 0 }) (siteOf s) b [markItem kind] := by
  obtain ⟨hh, hm, -⟩ := id h
  simp only [markEvery, hh, Option.isSome_some, if_true, withHead_token h, hm, emit_cnt, pop_cnt]
  rw [if_neg (by omega)]

theorem tstm_holds (hf : ElemFree s f b) (h : TokenAt s f 0 i) (hp : (f.elem (siteOf s)).phase = 0) : exec (.tstm b) s =
    leaves s b ((pop f (siteOf s) 0).modElem (siteOf s) fun e => { e with phase := 1, held := itemBytes i }) := by
  obtain ⟨-, hm, -⟩ := id h
  rw [exec_tstm, execTstm, elemAct_free hf]
  simp only [tstmAct, hp, Nat.zero_ne_one, if_false, withHead_token h, hm]

theorem tstm_sends (hf : ElemFree s f b) (hp : (f.elem (siteOf s)).phase = 1) (hh : head? f (siteOf s) 0 = some i)
    (hb : itemBad i = false) (hbr : asMark i ≠ none ∨ slotBreak f (siteOf s) 0 = none) : exec (.tstm b) s =
      leaves s b (emit1 (emit0 (f.modElem (siteOf s) fun e => { e with phase := 0, held := [] }) (siteOf s) b
        [mkItem (eType b) (f.elem (siteOf s)).held]) (siteOf s) b [boolToken (endsLevel (bitsOf (bMod b) 1 0) i)]) := by
  rw [exec_tstm, execTstm, elemAct_free hf]
  simp only [tstmAct, hp, if_true, withHead_head hh hb hbr]

/-! ### Router operators (R410, R411) -/

theorem steer_chooses (hf : ElemFree s f b) (h : TokensAt s f [0, 1] [i, c]) :
    exec (.steer b) s = leaves s b (if lane0 c then emit0 (popAll f (siteOf s) [0, 1]) (siteOf s) b [i]
      else emit1 (popAll f (siteOf s) [0, 1]) (siteOf s) b [i]) := by
  rw [exec_steer, execSteer, reactAll_tokens (op := 0x200) (slots := [0, 1]) hf rfl h]
  rfl

theorem merge_chooses (hf : ElemFree s f b) (hc : TokenAt s f 2 c) (hn : n = if lane0 c then 0 else 1) (h : TokenAt s f n i) :
    exec (.merge b) s = leaves s b (emit (popAll f (siteOf s) [2, n]) (siteOf s) b [i]) := by
  obtain ⟨hch, hcm, -⟩ := id hc
  obtain ⟨hh, hm, -⟩ := id h
  rw [exec_merge, execMerge, elemAct_free hf]
  simp only [mergeAct, hch, Option.isNone_some, Bool.false_eq_true, if_false, withHead_token hc, hcm, ← hn, hh, withHead_token h,
    hm, Option.isSome_none]

/-- One pass of the hand through CARRY or INVAR: the item leaves, counted (R411). -/
def loops (x : Site) (b : Blk) (m : Nat) (u : State) (z : Item) : State :=
  emit (u.modElem x fun e => { e with cnt := m, phase := 1 }) x b [z]

theorem loopPass_loops {u : State} {m slot : Nat} {x : Site} (hc : (u.elem x).cnt + 1 = m) (hm : m < 2 ^ 32) :
    loopPass b x slot i u = loops x b m u i := by
  simp only [loopPass, hc]
  rw [if_neg (by omega), loops]

section
variable (hf : ElemFree s f b)
include hf

theorem carry_starts (hcnt : (f.elem (siteOf s)).cnt + 1 < 2 ^ 32) (hp : (f.elem (siteOf s)).phase = 0) (h : TokenAt s f 0 i)
    (h1 : head? f (siteOf s) 1 = none) (h2 : head? f (siteOf s) 2 = none) :
    exec (.carry b) s = leaves s b (loops (siteOf s) b ((f.elem (siteOf s)).cnt + 1) (pop f (siteOf s) 0) i) := by
  obtain ⟨-, hm, -⟩ := id h
  rw [exec_carry, execCarry, elemAct_free hf]
  simp only [carryAct, h1, h2, hp, Bool.false_eq_true, if_false, if_true, Option.isSome_none, withHead_token h, hm]
  rw [loopPass_loops (by rw [pop_cnt]) hcnt]

theorem carry_goes_on (hcnt : (f.elem (siteOf s)).cnt + 1 < 2 ^ 32) (hp : (f.elem (siteOf s)).phase = 1) (hc : TokenAt s f 2 c)
    (hl : lane0 c = true) (h : TokenAt s f 1 j) :
    exec (.carry b) s = leaves s b (loops (siteOf s) b ((f.elem (siteOf s)).cnt + 1) (popAll f (siteOf s) [2, 1]) j) := by
  obtain ⟨hch, hcm, -⟩ := id hc
  obtain ⟨hh, hm, -⟩ := id h
  rw [exec_carry, execCarry, elemAct_free hf]
  simp only [carryAct, hch, hcm, hh, hm, hp, Nat.one_ne_zero, Bool.false_eq_true, if_false, if_true, Option.isSome_none,
    Option.isNone_some, withHead_token hc, hl, withHead_token h]
  rw [loopPass_loops (by rw [popAll_cnt]) hcnt]

theorem carry_ends (hp : (f.elem (siteOf s)).phase = 1) (hc : TokenAt s f 2 c) (hl : lane0 c = false)
    (h1 : head? f (siteOf s) 1 = none) :
    exec (.carry b) s = leaves s b ((pop f (siteOf s) 2).modElem (siteOf s) fun e => { e with phase := 0 }) := by
  obtain ⟨hch, hcm, -⟩ := id hc
  rw [exec_carry, execCarry, elemAct_free hf]
  simp only [carryAct, hch, hcm, h1, hp, Nat.one_ne_zero, Bool.false_eq_true, if_false, Option.isSome_none, Option.isNone_some,
    withHead_token hc, hl]

theorem invar_starts (hcnt : (f.elem (siteOf s)).cnt + 1 < 2 ^ 32) (hp : (f.elem (siteOf s)).phase = 0) (h : TokenAt s f 0 i)
    (h2 : head? f (siteOf s) 2 = none) : exec (.invar b) s = leaves s b (loops (siteOf s) b ((f.elem (siteOf s)).cnt + 1)
      ((pop f (siteOf s) 0).modElem (siteOf s) fun e => { e with held := itemBytes i }) i) := by
  obtain ⟨-, hm, -⟩ := id h
  rw [exec_invar, execInvar, elemAct_free hf]
  simp only [invarAct, h2, hp, Bool.false_eq_true, if_false, if_true, withHead_token h, hm]
  rw [loopPass_loops (by rw [elem_modElem_self, pop_cnt]) hcnt]

theorem invar_goes_on (hcnt : (f.elem (siteOf s)).cnt + 1 < 2 ^ 32) (hp : (f.elem (siteOf s)).phase = 1) (hc : TokenAt s f 2 c)
    (hl : lane0 c = true) : exec (.invar b) s = leaves s b (loops (siteOf s) b ((f.elem (siteOf s)).cnt + 1) (pop f (siteOf s) 2)
      (mkItem (eType b) (f.elem (siteOf s)).held)) := by
  obtain ⟨hch, hcm, -⟩ := id hc
  rw [exec_invar, execInvar, elemAct_free hf]
  simp only [invarAct, hch, hcm, hp, Nat.one_ne_zero, Bool.false_eq_true, if_false, if_true, Option.isSome_none, withHead_token hc, hl]
  rw [loopPass_loops (by rw [pop_cnt]) hcnt]

theorem invar_ends (hp : (f.elem (siteOf s)).phase = 1) (hc : TokenAt s f 2 c) (hl : lane0 c = false) : exec (.invar b) s =
    leaves s b ((pop f (siteOf s) 2).modElem (siteOf s) fun e => { e with phase := 0, held := [] }) := by
  obtain ⟨hch, hcm, -⟩ := id hc
  rw [exec_invar, execInvar, elemAct_free hf]
  simp only [invarAct, hch, hcm, hp, Nat.one_ne_zero, Bool.false_eq_true, if_false, Option.isSome_none, withHead_token hc, hl]

end

end

/-- Settles O32: one lemma for each thing an element does with its tokens. -/
theorem elementFlow : Obligations.ElementFlow := by
  unfold Obligations.ElementFlow
  intro s f b i j c
  dsimp only
  intro hf
  simp only [tokensAt_one (n := 2), tokensAt_one (n := 1)]
  refine ⟨fun hk => ⟨elemNop_passes hf hk, copy_passes hf hk, sink_consumes hf hk, ⟨_, sld_writes hf hk, rfl⟩, ?_,
      tstm_holds hf (tokensAt_one.1 hk)⟩,
    tstm_sends hf, const_sends hf, fun hk => swap_asks hf (tokensAt_one.1 hk), fun h3 hk => swap_passes hf h3 (tokensAt_one.1 hk),
    steer_chooses hf, fun hc => ⟨fun hl hk => merge_chooses hf hc (by rw [hl]; rfl) (tokensAt_one.1 hk),
      fun hl hk => merge_chooses hf hc (by rw [hl]; rfl) hk, fun hp hcnt => ⟨carry_goes_on hf hcnt hp hc, carry_ends hf hp hc,
        invar_goes_on hf hcnt hp hc, invar_ends hf hp hc⟩⟩,
    fun hp hcnt hk h1 h2 => ⟨carry_starts hf hcnt hp (tokensAt_one.1 hk) h1 h2, invar_starts hf hcnt hp (tokensAt_one.1 hk) h2⟩⟩
  simp only [List.forall_mem_cons, List.not_mem_nil, false_implies, implies_true, and_true]
  refine ⟨fun hn => ⟨fun hlt => ?_, fun heq => ?_⟩, fun hn => ⟨fun hlt => ?_, fun heq => ?_⟩⟩
  · rw [exec_eot, execEot, elemAct_free hf, markEvery_token (tokensAt_one.1 hk) hn, if_pos hlt]
  · rw [exec_eot, execEot, elemAct_free hf, markEvery_token (tokensAt_one.1 hk) hn, if_neg (by omega)]
  · rw [exec_eos, execEos, elemAct_free hf, markEvery_token (tokensAt_one.1 hk) hn, if_pos hlt]
  · rw [exec_eos, execEos, elemAct_free hf, markEvery_token (tokensAt_one.1 hk) hn, if_neg (by omega)]

end Sys2Proof.Machine
end

section
/-! Loop and address generators and controllers: O33 (R132, R412, R413, R419). -/

namespace Sys2Proof.Machine

section
variable {s f : State} {b : Blk} {x : Site}

/-- A change of an element depends on what the element holds. -/
theorem modElem_congr {g h : Elem → Elem} (he : g (s.elem x) = h (s.elem x)) : s.modElem x g = s.modElem x h := by
  have hg : g (NMap.getD {} (s.core x.c).grid.elems (elemKey x.sh x.i)) = h (NMap.getD {} (s.core x.c).grid.elems (elemKey x.sh x.i)) :=
    he
  simp only [State.modElem, State.modCore, hg]

/-! ### Generators (R412, R413) -/

theorem elem_emitData (s : State) (x : Site) (b : Blk) (l : List Item) :
    ((emitData s x b l).elem x).bounds = (s.elem x).bounds ∧ ((emitData s x b l).elem x).index = (s.elem x).index := by
  rw [emitData]
  split
  · exact ⟨emit0_bounds .., emit0_index ..⟩
  · exact ⟨by rw [emit1_bounds, emit0_bounds], by rw [emit1_index, emit0_index]⟩

/-- The counts of a run are in range and none is zero (R412). -/
theorem startRun_starts {slot : Nat} {cs : List Int} (h : ∀ k, k ∈ cs → 0 < k ∧ k ≤ 2 ^ 24) : startRun b x slot cs s =
    s.modElem x fun e => { e with phase := 1, bounds := cs.map Int.toNat, index := cs.map fun _ => 0 } := by
  have hrange : (cs.any fun c => decide (c < 0 ∨ 2 ^ 24 < c)) = false := by
    rw [List.any_eq_false]
    intro c hc
    have := h c hc
    simp only [decide_eq_true_eq]
    omega
  have hzero : (cs.any fun c => decide (c = 0)) = false := by
    rw [List.any_eq_false]
    intro c hc
    have := h c hc
    simp only [decide_eq_true_eq]
    omega
  rw [startRun, hrange, if_neg Bool.false_ne_true, hzero, if_neg Bool.false_ne_true]

section
variable {tok : List Nat → State → Item} {lane : Nat} {w : Word}

theorem loopAct_go (hp : (f.elem (siteOf s)).phase = 0) (hk : TokenAt s f 3 (.ctl w)) (hw : ctlKind w = 0) (bsrc : Bool) :
    loopAct b bsrc lane tok (siteOf s) f =
      let u := (pop f (siteOf s) 3).modElem (siteOf s) fun e => { e with iter := ctlOrd w }
      if bsrc then u.modElem (siteOf s) fun e => { e with phase := 2 }
      else startRun b (siteOf s) 3 ((((statLanes f (siteOf s).c (physAt f (siteOf s))).drop lane).take (ndimOf b)).map (sgn 32)) u := by
  obtain ⟨hh, -⟩ := id hk
  rw [loopAct]
  simp only [hp, Nat.zero_ne_one, if_false, hh, Option.isNone_some, Bool.and_false, Bool.false_eq_true, withHead_token hk, hw, if_true,
    show (0 : Nat) ≠ 2 from nofun]

/-- The item that one step of a run sends (R412). -/
theorem loopAct_run (hp : (f.elem x).phase = 1) (bsrc : Bool) : loopAct b bsrc lane tok x f = runStep b x tok f := by
  rw [loopAct]
  simp only [hp, if_true]

theorem runStep_steps (h0 : atLast (f.elem x).bounds (f.elem x).index ≠ (f.elem x).bounds.length) : runStep b x tok f =
    (emitData f x b (tok (f.elem x).index f :: (if atLast (f.elem x).bounds (f.elem x).index = 0 then []
      else [eodItem (atLast (f.elem x).bounds (f.elem x).index - 1)]))).modElem x fun e =>
        { e with index := nextIndex (f.elem x).bounds (f.elem x).index } := by
  rw [runStep]
  simp only [h0, if_false]
  refine modElem_congr ?_
  obtain ⟨hb, hi⟩ := elem_emitData f x b (tok (f.elem x).index f :: (if atLast (f.elem x).bounds (f.elem x).index = 0 then []
    else [eodItem (atLast (f.elem x).bounds (f.elem x).index - 1)]))
  rw [hb, hi]

theorem runStep_ends (hd : 0 < atLast (f.elem x).bounds (f.elem x).index)
    (h0 : atLast (f.elem x).bounds (f.elem x).index = (f.elem x).bounds.length) : runStep b x tok f =
      endRun b x (emitData f x b [tok (f.elem x).index f, eodItem (atLast (f.elem x).bounds (f.elem x).index - 1)]) := by
  rw [runStep]
  simp only [h0, if_true]
  rw [h0] at hd
  rw [if_neg (by omega)]

/-- The three ends of a step: no index at its last value, some of them, all of them. -/
theorem run_steps {r : Result} (hf : r = leaves s b (runStep b (siteOf s) tok f)) :
    let e := f.elem (siteOf s)
    let d := atLast e.bounds e.index
    let z := tok e.index f
    (d = 0 → 0 < e.bounds.length → r = leaves s b
      ((emitData f (siteOf s) b [z]).modElem (siteOf s) fun y => { y with index := nextIndex e.bounds e.index })) ∧
    (0 < d → d < e.bounds.length → r = leaves s b
      ((emitData f (siteOf s) b [z, eodItem (d - 1)]).modElem (siteOf s) fun y => { y with index := nextIndex e.bounds e.index })) ∧
    (0 < d → d = e.bounds.length → r = leaves s b (endRun b (siteOf s) (emitData f (siteOf s) b [z, eodItem (d - 1)]))) := by
  dsimp only
  subst hf
  refine ⟨fun hd hl => ?_, fun hd hl => ?_, fun hd hl => ?_⟩
  · rw [runStep_steps (by omega), if_pos hd]
  · rw [runStep_steps (by omega), if_neg (by omega)]
  · rw [runStep_ends hd hl]

end

theorem agen_sends {i : Item} (hf : ElemFree s f b) (hk : TokensAt s f [0] [i]) : exec (.agen b) s =
    leaves s b (emit (popAll f (siteOf s) [0]) (siteOf s) b [addressToken (agAddress (popAll f (siteOf s) [0]) (siteOf s) (ndimOf b)
      ((tokenFields 0x04 (itemBytes i)).map (sgn 32)))]) := by
  rw [exec_agen, execAgen, reactAll_tokens (op := 0x241) (slots := [0]) hf rfl hk, List.headD_cons]

/-! ### Controllers (R132, R419) -/

/-- A controller whose go-ahead, if it needs one, is there: its children may start. -/
theorem ctlAct_starts {kind : Nat} {u : State} (hf : f = flush s (siteOf s) b) (hok : elemOk s (siteOf s) = true)
    (hi : (f.elem (siteOf s)).items = []) (hu : ctlStart b (kidsOf (planeOf (s.core s.turn).grid (siteOf s).sh) (siteOf s).i) (siteOf s)
      (f.modElem (siteOf s) fun e => { e with items := [] }) = u)
    (hp : (u.elem (siteOf s)).phase = 1) (h0 : (u.elem (siteOf s)).out0 = []) (h1 : (u.elem (siteOf s)).out1 = []) :
    ctlAct b kind s =
      let kids := kidsOf (planeOf (s.core s.turn).grid (siteOf s).sh) (siteOf s).i
      leaves s b (ctlFinish b kids (siteOf s) (startKids b kind kids (siteOf s) (List.range kids.length) u)) := by
  subst hf
  simp only [ctlAct, hok, Bool.not_true, Bool.false_eq_true, if_false, hi, ctlTokens, leaves]
  rw [show (siteOf s).c = s.turn from rfl, hu]
  simp only [hp, h0, h1, List.isEmpty_nil, decide_true, Bool.and_self, if_true]

theorem ctlStart_begins {kids : List CtlKid} (hp : (f.elem x).phase = 0) (hg : 0 < (f.elem x).goQ) (hn : bitsOf (bMod b) 13 0 ≠ 0) :
    ctlStart b kids x f = ctlBegin kids x (bitsOf (bMod b) 13 0) f := by
  rw [ctlStart]
  simp only [hp, hn, ne_eq, not_true_eq_false, false_or, not_false_eq_true, if_true]
  rw [if_neg (by omega)]

theorem ctlStart_runs {kids : List CtlKid} (hp : (f.elem x).phase = 1) : ctlStart b kids x f = f := by
  simp [ctlStart, hp]

/-- A controller starts with its go-ahead, or goes on with the iterations it runs (R132, R419). -/
theorem ctl_acts (kind : Nat) (hf : f = flush s (siteOf s) b) (hok : elemOk s (siteOf s) = true)
    (hi : (f.elem (siteOf s)).items = []) (h0 : (f.elem (siteOf s)).out0 = []) (h1 : (f.elem (siteOf s)).out1 = []) :
    let x := siteOf s
    let kids := kidsOf (planeOf (s.core s.turn).grid x.sh) x.i
    let u := f.modElem x fun e => { e with items := [] }
    ((f.elem x).phase = 0 → 0 < (f.elem x).goQ → bitsOf (bMod b) 13 0 ≠ 0 → ctlAct b kind s = leaves s b
      (ctlFinish b kids x (startKids b kind kids x (List.range kids.length) (ctlBegin kids x (bitsOf (bMod b) 13 0) u)))) ∧
    ((f.elem x).phase = 1 → ctlAct b kind s =
      leaves s b (ctlFinish b kids x (startKids b kind kids x (List.range kids.length) u))) := by
  dsimp only
  refine ⟨fun hp hg hn => ?_, fun hp => ?_⟩
  · refine ctlAct_starts hf hok hi (ctlStart_begins ?_ ?_ hn) ?_ ?_ ?_
    · rw [elem_modElem_self]; exact hp
    · rw [elem_modElem_self]; exact hg
    · rw [ctlBegin, elem_modElem_self]
    · rw [ctlBegin, elem_modElem_self, elem_modElem_self]; exact h0
    · rw [ctlBegin, elem_modElem_self, elem_modElem_self]; exact h1
  · refine ctlAct_starts hf hok hi (ctlStart_runs ?_) ?_ ?_ ?_ <;> rw [elem_modElem_self]
    · exact hp
    · exact hp
    · exact h0
    · exact h1

end

/-- Settles O33: a go-ahead and a step of a run by their rules, a controller's start by the state its go-ahead leaves. -/
theorem elementLoops : Obligations.ElementLoops := by
  unfold Obligations.ElementLoops
  refine ⟨?_, ?_⟩
  · intro s f b i w
    dsimp only
    intro hf
    refine ⟨agen_sends hf, fun hp hk hw => ⟨fun hb hc => ?_, fun hb => ?_, fun hc => ?_⟩, fun hp => ?_⟩
    · rw [exec_lgen, execLgen, elemAct_free hf, loopAct_go hp (tokensAt_one.1 hk) hw, hb, if_neg Bool.false_ne_true,
        startRun_starts hc]
      rfl
    · rw [exec_lgen, execLgen, elemAct_free hf, loopAct_go hp (tokensAt_one.1 hk) hw, hb, if_pos rfl]
      rfl
    · rw [exec_agch, execAgch, elemAct_free hf, loopAct_go hp (tokensAt_one.1 hk) hw, if_neg Bool.false_ne_true,
        startRun_starts hc]
      rfl
    · simp only [List.forall_mem_cons, List.not_mem_nil, false_implies, implies_true, and_true]
      refine ⟨run_steps (tok := fun ix _ => token64 0x04 (ix ++ List.replicate (64 - ix.length) 0)) ?_,
        run_steps (tok := fun ix s' => addressToken (agAddress s' (siteOf s) (ndimOf b)
        (ix.map fun (i : Nat) => (i : Int)))) ?_⟩
      · rw [exec_lgen, execLgen, elemAct_free hf, loopAct_run hp]
      · rw [exec_agch, execAgch, elemAct_free hf, loopAct_run hp]
  · intro s f b
    dsimp only
    intro hf hok hi h0 h1
    refine ⟨?_, fun y j h => ?_, fun y j h => ?_⟩
    · simp only [List.forall_mem_cons, List.not_mem_nil, false_implies, implies_true, and_true]
      refine ⟨?_, ?_, ?_⟩
      · rw [exec_cseq, execCseq]; exact ctl_acts 0 hf hok hi h0 h1
      · rw [exec_cpipe, execCpipe]; exact ctl_acts 1 hf hok hi h0 h1
      · rw [exec_cstrm, execCstrm]; exact ctl_acts 2 hf hok hi h0 h1
    · simp only [mayStart, Bool.and_eq_true, Nat.add_sub_cancel, Nat.add_one_ne_zero, if_false, decide_eq_true_eq] at h
      exact h.2
    · simp only [mayStart, Bool.and_eq_true, Nat.add_sub_cancel, decide_eq_true_eq, Bool.or_eq_true, beq_iff_eq,
        Nat.add_one_ne_zero, false_or] at h
      exact h.2

end Sys2Proof.Machine
end

section
/-! Memory elements: O34 (R68, R415). -/

namespace Sys2Proof.Machine

section
variable {s f f2 : State} {b : Blk} {x : Site} {i j : Item} {ps : List (Nat × Nat)} {o : Brought} {bs : List Byte}

theorem pop_links (s : State) (x : Site) (n : Nat) : (pop s x n).links = s.links := by
  rw [pop]
  split
  · split <;> rfl
  · rfl

theorem popAll_links (s : State) (x : Site) (l : List Nat) : (popAll s x l).links = s.links :=
  foldl_keeps State.links (fun s n => pop_links s x n) l s

/-- An answer belongs to a request of an element. -/
def answersElem (x : Site) (o : Brought) : Bool := o.core == x.c && o.q == elemQ x

/-- The state without the answers to an element's request. -/
def answerTaken (x : Site) (u : State) : State :=
  { u with links := { u.links with inbox := u.links.inbox.filter fun o => !(answersElem x o) } }

/-- No answer refuses an element's request, no page of it has earlier requests, and its replica is current (R61, R204). -/
structure ReachFree (f : State) (x : Site) (ps : List (Nat × Nat)) : Prop where
  heard : refusedMeanwhile f x.c (elemQ x) = none
  kitty : kittyFirst f ps = none
  fresh : staleReplica f x.c ps = false

/-- A range whose bytes all lie here is reached at once (R415). -/
theorem withReach_here {u : State} (h : ReachFree f x ps) (hl : u.links = f.links) (hn : farBytes f ps = 0) (va : Nat)
    (g : List (Nat × Nat) → List Byte → State → State) : withReach f u x (.ok ps) va g = g ps [] u := by
  simp only [withReach, withPieces, h.heard, h.kitty, h.fresh, Bool.false_eq_true, if_false, withFar, hn, if_true, ← hl]

/-- A range of another package goes on once the answer has come (R68). -/
theorem withReach_answered {u : State} (h : ReachFree f x ps) (hl : u.links = f.links) (hn : farBytes f ps ≠ 0)
    (ho : f.links.inbox.find? (answersElem x) = some o) (hc : o.cause = 0) (va : Nat)
    (g : List (Nat × Nat) → List Byte → State → State) :
    withReach f u x (.ok ps) va g = g ps (leBytes (farBytes f ps) o.data) (answerTaken x u) := by
  have ho' : f.links.inbox.find? (fun o => o.core == x.c && o.q == elemQ x) = some o := ho
  simp only [withReach, withPieces, h.heard, h.kitty, h.fresh, Bool.false_eq_true, if_false, withFar, hn, remoteCall, ho', hc,
    ne_eq, not_true_eq_false, answerTaken, hl]
  rfl

theorem withReach_fault {u : State} {c : Nat} (va : Nat) (g : List (Nat × Nat) → List Byte → State → State) :
    withReach f u x (.fault c) va g = gridHalt f x 0 c := rfl

/-! ### MLD and MST -/

/-- What an MLD makes of the pieces it has reached. -/
def mldFire (b : Blk) (x : Site) (va : Nat) (ps : List (Nat × Nat)) (far : List Byte) (u : State) : State :=
  match readPieces x.c ps far (elemHold u x b (va + vecBytes (eType b) - 1) true false) with
  | (.error a, s2) => s2.ueHalt x.c a
  | (.ok bs, s2) => emit s2 x b [.data bs]

theorem mld_reaches (hf : ElemFree s f b) (hk : TokensAt s f [0] [i]) : exec (.mld b) s = leaves s b
    (withReach f (popAll f (siteOf s) [0]) (siteOf s) (elemReach f (siteOf s) b (tokenAddress i) (vecBytes (eType b)) true false)
      (tokenAddress i) (mldFire b (siteOf s) (tokenAddress i))) := by
  rw [exec_mld, execMld, elemAct_free hf, react_tokens hk]
  rfl

theorem mldFire_ok {va : Nat} {far : List Byte} {u : State}
    (h : readPieces x.c ps far (elemHold u x b (va + vecBytes (eType b) - 1) true false) = (.ok bs, f2)) :
    mldFire b x va ps far u = emit f2 x b [.data bs] := by
  simp only [mldFire, h]

theorem mst_reaches (hf : ElemFree s f b) (hk : TokensAt s f [0, 1] [i, j]) : exec (.mst b) s = leaves s b
    (withReach f (popAll f (siteOf s) [0, 1]) (siteOf s)
      (elemReach f (siteOf s) b (tokenAddress i) (itemBytes j).length false true) (tokenAddress i) fun ps _ u =>
        emit0 (writePieces ps (itemBytes j) (elemHold u (siteOf s) b (tokenAddress i + (itemBytes j).length - 1) false true))
          (siteOf s) b [boolToken true]) := by
  rw [exec_mst, execMst, elemAct_free hf, react_tokens hk]
  rfl

/-! ### MATOM -/

/-- The lanes of a MATOM without an index operand: the words from its address on. -/
def wordLanes (va : Nat) : List (Nat × Nat) := (List.range 64).map fun l => (l, (va + 4 * l) % 2 ^ 64)

theorem matomLanes_plain (h : (bMod b).testBit 12 = false) (va : Nat) (idx : List Nat) : matomLanes b va idx = wordLanes va := by
  rw [matomLanes, h, if_neg Bool.false_ne_true, wordLanes]

theorem wordLanes_aligned {va : Nat} (h : va % 4 = 0) : ((wordLanes va).any fun p => p.2 % 4 != 0) = false := by
  rw [List.any_eq_false]
  intro p hp
  obtain ⟨l, -, rfl⟩ := List.mem_map.1 hp
  simp only [bne_iff_ne, ne_eq, not_not]
  omega

theorem wordLanes_getLast? (va : Nat) : (wordLanes va).getLast? = some (63, (va + 252) % 2 ^ 64) := by
  simp [wordLanes, List.range_succ]

theorem slotsOf_matom (h : (bMod b).testBit 12 = false) : slotsOf 0x282 (bMod b) = [0, 1] := by
  have hs : slotsOf 0x282 (bMod b) = if (bMod b).testBit 12 then [0, 1, 2] else [0, 1] := rfl
  rw [hs, h, if_neg Bool.false_ne_true]

theorem matom_sends {op : QOp} {m : NMap Nat} (hf : ElemFree s f b) (hb : (bMod b).testBit 12 = false)
    (hk : TokensAt s f [0, 1] [i, j]) (hal : tokenAddress i % 4 = 0) (hop : matomOp (eType b) (bitsOf (bMod b) 11 8) = some op)
    (hr : matomAll f (siteOf s) b (wordLanes (tokenAddress i)) = .ok ps) (hfree : ReachFree f (siteOf s) ps) (hn : farBytes f ps = 0)
    (hrun : matomRun s.turn op (tokenFields (eType b) (itemBytes j))
      (((wordLanes (tokenAddress i)).zip ps).map fun (l, p) => (l.1, p.1)) []
      (elemHold (popAll f (siteOf s) [0, 1]) (siteOf s) b ((tokenAddress i + 252) % 2 ^ 64) true true) = (.ok m, f2)) :
    exec (.matom b) s = leaves s b
      (emit f2 (siteOf s) b [token64 (eType b) ((List.range 64).map fun l => NMap.getD 0 m l)]) := by
  rw [exec_matom, execMatom, elemAct_free hf, slotsOf_matom hb, react_tokens hk]
  simp only [matomLanes_plain hb, List.headD_cons, List.getD_cons_succ, List.getD_cons_zero, wordLanes_aligned hal,
    Bool.false_eq_true, if_false, hop, hr, withReach_here hfree (popAll_links ..) hn, wordLanes_getLast?]
  rw [show (siteOf s).c = s.turn from rfl, hrun]

end

/-- Settles O34: the element's range is reached here or by the answer of its home, and then its own operation follows. -/
theorem memoryElements : Obligations.MemoryElements := by
  unfold Obligations.MemoryElements
  intro s f f2 b i j ps bs op m o
  dsimp only
  intro hf
  refine ⟨fun hk hr hfree hread => ?_, fun hk hr hfree => ?_, fun hk hr hh hkit hst hn ho hc hread => ?_,
    fun hk hr hh hkit hst hn ho hc => ?_, fun hb hk hal hop hr hfree hrun => ?_, fun c hk hr => ?_⟩
  · obtain ⟨hh, hkit, hst, hn⟩ := hfree
    rw [mld_reaches hf hk, hr, withReach_here ⟨hh, hkit, hst⟩ (popAll_links ..) hn, mldFire_ok hread]
  · obtain ⟨hh, hkit, hst, hn⟩ := hfree
    rw [mst_reaches hf hk, hr, withReach_here ⟨hh, hkit, hst⟩ (popAll_links ..) hn]
  · rw [mld_reaches hf hk, hr, withReach_answered (x := siteOf s) ⟨hh, hkit, hst⟩ (popAll_links ..) hn ho hc, mldFire_ok hread]
  · rw [mst_reaches hf hk, hr, withReach_answered (x := siteOf s) ⟨hh, hkit, hst⟩ (popAll_links ..) hn ho hc]
    rfl
  · obtain ⟨hh, hkit, hst, hn⟩ := hfree
    exact matom_sends hf hb hk hal hop hr ⟨hh, hkit, hst⟩ hn hrun
  · rw [mld_reaches hf hk, hr, withReach_fault]

end Sys2Proof.Machine
end

section
/-! PIN and POUT: O35 (R398, R417, R418). -/

namespace Sys2Proof.Machine

open State

section
variable {s f : State} {b : Blk} {x : Site} {i : Item} {rest : List Item} {n j : Nat}

/-! ### PIN -/

theorem pinTake_token (hc : f.chan x.c n = i :: rest) (hb : itemBad i = false) (hm : asMark i = none) :
    pinTake b n x f = emit (countIn (f.setChan x.c n rest) x 1) x b [i] := by
  simp only [pinTake, hc, hb, hm, Bool.false_eq_true, if_false]

section
variable (hi : (f.elem x).items = []) (hd : (f.core x.c).grid.draining = false ∨ x.sh = true)
include hi hd

/-- A PIN with no mark of its last port token left, which no drain has stopped (R352, R417). -/
theorem pinAct_chan (hc : pinChan b = some n) : pinAct b x f = pinTake b n x f := by
  have hs : ((f.core x.c).grid.draining && !x.sh) = false := by
    obtain h | h := hd <;> simp [h]
  simp only [pinAct, hi, hs, hc, Bool.false_eq_true, if_false]

theorem pinAct_port (hc : pinChan b = none) : pinAct b x f = pinPort b x f := by
  have hs : ((f.core x.c).grid.draining && !x.sh) = false := by
    obtain h | h := hd <;> simp [h]
  simp only [pinAct, hi, hs, hc, Bool.false_eq_true, if_false]

end

/-- The vector tokens and the marks of the next port token of a window (R417, R418). -/
def pinTokens (b : Blk) (x : Site) (d : WinDesc) (f : State) : State :=
  let cnt := ((f.core x.c).port (f.core x.c).actorNo (aportOf b)).cnt
  let v := portVec (eType b) d.tsize
  let toks := (chunks v (d.tsize / v) (f.read (winBase x.c + d.slotAt (d.rd.toNat + cnt)) d.tsize)).map (mkItem (eType b))
  let marks := (NMap.getD [] d.marks (d.rd.toNat + cnt)).map fun m => (m.toNat, 0)
  emit ((countIn (countToken f x.c (f.core x.c).actorNo (aportOf b)) x toks.length).modElem x fun e => { e with items := marks }) x b
    toks

theorem pinRead_reads {d : WinDesc} (hmk : f.ecc.marks = [])
    (hbr : portBreak (f.core x.c) (f.core x.c).actorNo (aportOf b) = none) :
    pinRead b x d ((f.core x.c).port (f.core x.c).actorNo (aportOf b)).cnt f = pinTokens b x d f := by
  simp only [pinRead, hbr, ueAt_of_unmarked hmk, correct_of_unmarked hmk, pinTokens]

theorem pinPort_reads (hmk : f.ecc.marks = []) (ho : ownsPort f x.c (aportOf b) = true)
    (hg : planeGone (f.core x.c).grid x.sh = true) (hf : (f.core x.c).infire = true)
    (hd : portDesc f x.c (f.core x.c).actorNo (aportOf b) = some j)
    (hocc : ((f.core x.c).port (f.core x.c).actorNo (aportOf b)).cnt < ((f.core x.c).desc j).occ)
    (hrate : ((f.core x.c).port (f.core x.c).actorNo (aportOf b)).cnt < curRate f x.c (aportOf b))
    (hbr : portBreak (f.core x.c) (f.core x.c).actorNo (aportOf b) = none) :
    pinPort b x f = pinTokens b x ((f.core x.c).desc j) f := by
  simp only [pinPort, ho, hg, hd, hf, hocc, hrate, Bool.not_true, Bool.or_self, Bool.false_eq_true, if_false, if_true, decide_true,
    Bool.and_self]
  exact pinRead_reads hmk hbr

/-! ### POUT -/

theorem poutAct_chan (hk : TokenAt s f 0 i) (hc : poutChan b = some n) (h : aportOf b = 0x3F → f.chan s.turn n = []) :
    poutAct b (siteOf s) f = portIdle ((pop f (siteOf s) 0).setChan s.turn n (f.chan s.turn n ++ [i])) (siteOf s) := by
  obtain ⟨hh, hm, -⟩ := id hk
  have hfull : ¬(aportOf b = 0x3F ∧ f.chan (siteOf s).c n ≠ []) := fun ⟨hp, hne⟩ => hne (h hp)
  simp only [poutAct, hh, Option.isNone_some, Bool.false_eq_true, if_false, withHead_token hk, hm, hc, hfull]
  rfl

theorem poutAct_port (hk : TokenAt s f 0 i) (hc : poutChan b = none) :
    poutAct b (siteOf s) f = poutToken b (siteOf s) i f := by
  obtain ⟨hh, hm, -⟩ := id hk
  simp only [poutAct, hh, Option.isNone_some, Bool.false_eq_true, if_false, withHead_token hk, hm, hc]

section
variable (hf : (f.core x.c).infire = true) (ho : ownsPort f x.c (aportOf b) = true)
  (hd : portDesc f x.c (f.core x.c).actorNo (aportOf b) = some j)
include hf ho hd

theorem poutToken_gathers (hl : ((f.elem x).held ++ itemBytes i).length < ((f.core x.c).desc j).tsize) : poutToken b x i f =
    portIdle ((pop f x 0).modElem x fun e => { e with held := (f.elem x).held ++ itemBytes i }) x := by
  simp only [poutToken, hf, ho, hd, hl, Bool.not_true, Bool.or_self, Bool.false_eq_true, if_false, if_true]

theorem poutToken_produces (hl : ((f.core x.c).desc j).tsize ≤ ((f.elem x).held ++ itemBytes i).length)
    (hbr : portBreak (f.core x.c) (f.core x.c).actorNo (aportOf b) = none) : poutToken b x i f =
      produce ((pop f x 0).modElem x fun e => { e with held := [], index := [], since := none }) x.c (aportOf b)
        (((f.elem x).held ++ itemBytes i).take ((f.core x.c).desc j).tsize) [] := by
  simp only [poutToken, hf, ho, hd, hbr, Nat.not_lt.2 hl, Bool.not_true, Bool.or_self, Bool.false_eq_true, if_false]

end

end

/-- Settles O35: a PIN takes from its queue or its window, a POUT puts into its queue or fills its port token. -/
theorem portElements : Obligations.PortElements := by
  unfold Obligations.PortElements
  intro s f b i rest n j
  dsimp only
  intro hf hmk
  refine ⟨fun hi hd => ⟨fun hc hch hb hm => ?_, fun hc ho hg hfire hdesc hocc hrate hbr => ?_⟩, fun hk => ⟨fun hc h => ?_,
    fun hc hfire ho hdesc => ⟨fun hl => ?_, fun hl hbr => ?_⟩⟩⟩
  · rw [exec_pin, execPin, elemAct_free hf, pinAct_chan hi hd hc]
    exact congrArg _ (pinTake_token hch hb hm)
  · rw [exec_pin, execPin, elemAct_free hf, pinAct_port hi hd hc]
    exact congrArg _ (pinPort_reads hmk ho hg hfire hdesc hocc hrate hbr)
  · rw [exec_pout, execPout, elemAct_free hf, poutAct_chan (tokensAt_one.1 hk) hc h]
  · rw [exec_pout, execPout, elemAct_free hf, poutAct_port (tokensAt_one.1 hk) hc]
    exact congrArg _ (poutToken_gathers hfire ho hdesc hl)
  · rw [exec_pout, execPout, elemAct_free hf, poutAct_port (tokensAt_one.1 hk) hc]
    exact congrArg _ (poutToken_produces hfire ho hdesc hl hbr)

end Sys2Proof.Machine
end

section
/-! Ranking, sampling, acceptance, random tokens and counts: O36 (R257, R258, R421 to R425). -/

namespace Sys2Proof.Machine

section
variable {s f f2 : State} {b : Blk} {i j : Item} {us : List Nat} {w : Word}

theorem slotsOf_pqc : slotsOf 0x380 (bMod b) = if (bMod b).testBit 6 then [0] else [0, 1] := rfl

theorem slotsOf_smpl : slotsOf 0x381 (bMod b) = if (bMod b).testBit 18 then [0, 1] else [0] := rfl

theorem slotsOf_pqc_ne_nil : slotsOf 0x380 (bMod b) ≠ [] := by
  rw [slotsOf_pqc]
  split <;> simp

theorem slotsOf_smpl_ne_nil : slotsOf 0x381 (bMod b) ≠ [] := by
  rw [slotsOf_smpl]
  split <;> simp

/-! ### PQC and SMPL (R421, R422) -/

/-- A token of keys joins the ranked list of a PQC without an index operand (R421). -/
theorem pqFire_ranks {x : Site} {f1 : State} (hm : (bMod b).testBit 6 = true)
    (hn : (f1.elem x).cnt + (tokenFields (eType b) (itemBytes i)).length ≤ 2 ^ 24) :
    ((pqFire b x [i] f1).elem x).items = ((tokenFields (eType b) (itemBytes i)).zip
        ((List.range 64).map fun l => 64 * (f1.elem x).index.headD 0 + l)).foldl (rankIn b) (f1.elem x).items ∧
      ((pqFire b x [i] f1).elem x).cnt = (f1.elem x).cnt + (tokenFields (eType b) (itemBytes i)).length := by
  simp only [pqFire, List.headD_cons, hm, if_true]
  rw [if_neg (Nat.not_lt.2 hn), elem_modElem_self]
  obtain ⟨c, hc⟩ := elem_addStats f1 x
    [0, 0, ((tokenFields (eType b) (itemBytes i)).filter fun k => (valOf (eType b) k).isNan).length, 0, 0]
  rw [hc]
  exact ⟨rfl, rfl⟩

theorem pqc_ranks (hf : ElemFree s f b) (hk : TokensAt s f [0] [i]) (hm : (bMod b).testBit 6 = true) :
    exec (.pqc b) s = leaves s b (pqFire b (siteOf s) [i] (popAll f (siteOf s) [0])) := by
  rw [exec_pqc, execPqc, slotsOf_pqc, if_pos hm, elemAct_tokens hf hk]

theorem pqc_closes (hf : ElemFree s f b) (hw : ctlKind w = 2) (hr : markReady f (siteOf s) (bStat b) w = true)
    (hk : ∀ n, n ∈ slotsOf 0x380 (bMod b) → MarkAt s f n w) : exec (.pqc b) s = leaves s b (markAction
      (emit (pqEmit b (siteOf s) (popAll f (siteOf s) (slotsOf 0x380 (bMod b)))) (siteOf s) b [.ctl w]) (siteOf s) (bStat b) w) := by
  rw [exec_pqc, execPqc, elemAct_free hf, react_marks slotsOf_pqc_ne_nil hk, if_pos hr]
  simp [pqBefore, hw]

/-- A token of logits joins the items of an SMPL without the reservoir (R422). -/
theorem smplFire_gathers {x : Site} {f1 : State} (hr : smplRes b = false) (hl : (f1.elem x).items.length + 64 ≤ 2 ^ 20)
    (hn : (tokenFields (eType b) (itemBytes i)).length = 64) : smplFire b x [i] f1 = f1.modElem x fun e =>
      { e with items := (f1.elem x).items ++ (tokenFields (eType b) (itemBytes i)).zip (List.replicate 64 0) } := by
  have hz : ((tokenFields (eType b) (itemBytes i)).zip (List.replicate 64 0)).length = 64 := by
    rw [List.length_zip, hn, List.length_replicate, Nat.min_self]
  simp only [smplFire, hr, Bool.false_eq_true, if_false, List.headD_cons, hz]
  rw [if_neg (Nat.not_lt.2 hl)]
  exact modElem_congr rfl

theorem smpl_gathers (hf : ElemFree s f b) (hk : TokensAt s f [0] [i]) (hr : smplRes b = false) :
    exec (.smpl b) s = leaves s b (smplFire b (siteOf s) [i] (popAll f (siteOf s) [0])) := by
  have hm : (bMod b).testBit 18 = false := hr
  rw [exec_smpl, execSmpl, slotsOf_smpl, hm, if_neg Bool.false_ne_true, elemAct_tokens hf hk]

theorem smpl_closes {u : State} (hf : ElemFree s f b) (hw : ctlKind w = 2) (hr : markReady f (siteOf s) (bStat b) w = true)
    (hk : ∀ n, n ∈ slotsOf 0x381 (bMod b) → MarkAt s f n w)
    (hu : smplClose b (siteOf s) (popAll f (siteOf s) (slotsOf 0x381 (bMod b))) = (u, true)) :
    exec (.smpl b) s = leaves s b (markAction (emit u (siteOf s) b [.ctl w]) (siteOf s) (bStat b) w) := by
  rw [exec_smpl, execSmpl, elemAct_free hf, react_marks slotsOf_smpl_ne_nil hk, if_pos hr]
  simp [smplBefore, hw, hu, allMarks]

/-! ### ACPT, RNGE, STCNT and STADD (R423 to R425) -/

/-- A pair of words of a token (R258). -/
def wordPair (i : Item) (k : Nat) : Nat :=
  (tokenFields 0x1D (itemBytes i)).getD k 0 + (tokenFields 0x1D (itemBytes i)).getD (k + 1) 0 * 2 ^ 32

theorem acpt_decides (hf : ElemFree s f b) (hk : TokensAt s f [0] [i]) (h2 : wordPair i 2 ≠ 0) (h6 : wordPair i 6 ≠ 0)
    (hd : drawOnce (popAll f (siteOf s) [0]) s.turn (bSrs b) = .ok (us, f2)) : exec (.acpt b) s = leaves s b
      (emit f2 (siteOf s) b
        [boolToken (decide (us.headD 0 * wordPair i 0 * wordPair i 6 < wordPair i 4 * wordPair i 2 * 2 ^ 32))]) := by
  rw [exec_acpt, execAcpt, reactAll_tokens (op := 0x382) (slots := [0]) hf rfl hk, show (siteOf s).c = s.turn from rfl, hd]
  dsimp only
  rw [List.headD_cons]
  exact congrArg _ (if_neg (not_or.2 ⟨h2, h6⟩))

theorem rnge_sends (hf : ElemFree s f b) (hk : TokensAt s f [0] [i])
    (hd : drawMany (popAll f (siteOf s) [0]) s.turn (bSrs b) 16 = .ok (us, f2)) :
    exec (.rnge b) s = leaves s b (emit f2 (siteOf s) b [rawToken us]) := by
  rw [exec_rnge, execRnge, reactAll_tokens (op := 0x383) (slots := [0]) hf rfl hk, show (siteOf s).c = s.turn from rfl, hd]

/-- The sources of an element's statistics links (R425). -/
def countSources (s f : State) : List Nat := statSources (planeOf (f.core s.turn).grid (siteOf s).sh)

theorem stcnt_merges {h : List Nat} {hs : List (List Nat)} (hf : ElemFree s f b)
    (hh : (countSources s f).filterMap (fun n => (NMap.getD [] (f.elem (siteOf s)).statq n).head?) = h :: hs)
    (hl : (countSources s f).length = hs.length + 1) : exec (.stcnt b) s = leaves s b
      (emit0 (f.modElem (siteOf s) fun y => { y with
        statq := (countSources s f).foldl (fun q n => NMap.put q n ((NMap.getD [] q n).drop 1)) y.statq }) (siteOf s) b
        [countItem (hs.foldl mergeCounts h)]) := by
  rw [exec_stcnt, execStcnt, elemAct_free hf]
  rw [countSources] at hh hl
  simp only [stcntAct, show (siteOf s).c = s.turn from rfl, hh, hl, List.length_cons, Nat.lt_irrefl, if_false]
  rfl

theorem stadd_merges (hf : ElemFree s f b) (hk : TokensAt s f [0, 1] [i, j]) : exec (.stadd b) s = leaves s b
    (emit (popAll f (siteOf s) [0, 1]) (siteOf s) b [countItem (mergeCounts (unpackBits 32 8 ((itemBytes i).take 32))
      (unpackBits 32 8 ((itemBytes j).take 32)))]) := by
  rw [exec_stadd, execStadd, reactAll_tokens (op := 0x3C1) (slots := [0, 1]) hf rfl hk]
  rfl

end

/-- Settles O36: tokens gather, an EOT closes, and each of the other elements sends what its rule makes of its token. -/
theorem selectionElements : Obligations.SelectionElements := by
  unfold Obligations.SelectionElements
  intro s f f2 b i j us w h hs
  dsimp only
  intro hf
  refine ⟨fun hk => ⟨fun hm hn => ⟨_, pqc_ranks hf hk hm, ?_⟩, fun hr hl hn => ?_, acpt_decides hf hk, rnge_sends hf hk⟩,
    fun hw hr => ⟨pqc_closes hf hw hr, fun hk u hu => smpl_closes hf hw hr hk hu⟩, stcnt_merges hf, stadd_merges hf⟩
  · obtain ⟨hitems, hcnt⟩ := pqFire_ranks (x := siteOf s) (f1 := popAll f (siteOf s) [0]) (i := i) hm (by rwa [popAll_cnt])
    rw [popAll_index, popAll_items] at hitems
    rw [popAll_cnt] at hcnt
    exact ⟨hitems, hcnt⟩
  · rw [smpl_gathers hf hk hr, smplFire_gathers hr (by rwa [popAll_items]) hn, popAll_items]

end Sys2Proof.Machine
end

section
/-! Events of the grid: O37 (R126, R152, R153, R170, R282, R285, R351, R396, R417, R429). -/

namespace Sys2Proof.Machine

open State

section
variable {s f : State} {c k n i : Nat} {sh : Bool} {w v : Word} {blk : List Byte}

theorem gridMoves_iff : gridMoves s c = true ↔ coreMoves (s.core c) = true ∧ (s.core c).cut = false := by
  simp [gridMoves]

/-! ### Marks (R396) -/

/-- A COPY with a mark at its slot passes it on (R396, R426). -/
theorem elementMark_copy (hw : (planeOf (s.core c).grid sh).words[k]? = some w) (hop : wOp w = 0x004)
    (hh : head? s ⟨c, k, sh⟩ 0 = some (.ctl v)) (hv : asMark (.ctl v) = some v)
    (hf : ElemFree { s with turn := c, focus := (k, sh) } f (Blk.ofWord w))
    (hm : MarkAt { s with turn := c, focus := (k, sh) } f 0 v) (hr : markReady f ⟨c, k, sh⟩ false v = true) :
    exec (.elementMark c k sh) s = leaves { s with turn := c, focus := (k, sh) } (Blk.ofWord w)
      (markAction (emit (pop f ⟨c, k, sh⟩ 0) ⟨c, k, sh⟩ (Blk.ofWord w) [.ctl v]) ⟨c, k, sh⟩ false v) := by
  have hword : wordAt s ⟨c, k, sh⟩ = w := by
    rw [wordAt, List.getD_eq_getElem?_getD, hw, Option.getD_some]
  have hslots : linkedSlots w = [0] := by
    rw [linkedSlots, hop]
    rfl
  have hmarks := (reacts_marks (r := execCopy (Blk.ofWord w) { s with turn := c, focus := (k, sh) }) (op := 0x004) ⟨_, rfl⟩ hf
    (List.cons_ne_nil 0 []) (fun n hn => by rwa [List.mem_singleton.1 hn])).1 hr
  rw [exec_elementMark, execElementMark, hword, hslots]
  simp only [List.any_cons, hh, hv, Option.isSome_some, Bool.true_or, if_true]
  rw [actElem]
  simp only [show (planeOf (State.core { s with turn := c, focus := (k, sh) } c).grid sh).words[k]? = some w from hw, hop]
  exact hmarks

/-! ### Swaps (R152, R153) -/

theorem wavefrontSwapUnmarked_swaps (ha : (s.core c).grid.armed = true) (hs : (s.core c).grid.sh.valid = true)
    (hk : k < (s.core c).grid.act.words.length) (hu : unmarked ((s.core c).grid.act.words.getD k 0) = true)
    (ho : ∀ j, j < (s.core c).grid.act.words.length → unmarked ((s.core c).grid.act.words.getD j 0) = false →
      (s.elem ⟨c, j, false⟩).gone = true) (hi : idleAt (s.core c).grid false k = true) (hm : gridMoves s c = true) :
    exec (.wavefrontSwapUnmarked c k) s = .next (waveDone ((s.modElem ⟨c, k, false⟩ fun e => { e with swapped := true }).modGrid c
      fun g => { g with activity := NMap.del g.activity (placeAt s ⟨c, k, false⟩) }) c) := by
  have hall : ((List.range (s.core c).grid.act.words.length).all fun j =>
      unmarked ((s.core c).grid.act.words.getD j 0) || (s.elem ⟨c, j, false⟩).gone) = true := by
    rw [List.all_eq_true]
    intro j hj
    cases hw : unmarked ((s.core c).grid.act.words.getD j 0) with
    | true => rfl
    | false => exact ho j (List.mem_range.1 hj) hw
  rw [exec_wavefrontSwapUnmarked, execWavefrontSwapUnmarked]
  exact if_pos (by simp only [hm, ha, hs, hk, hu, hall, hi, decide_true, Bool.and_self])

theorem wavefrontSwapUnmarked_stays (hm : gridMoves s c = false) : exec (.wavefrontSwapUnmarked c k) s = .next s := by
  rw [exec_wavefrontSwapUnmarked, execWavefrontSwapUnmarked]
  exact if_neg (by simp only [hm, Bool.false_and, Bool.false_eq_true, not_false_eq_true])

theorem drainGatedSwap_stays (hm : gridMoves s c = false) : exec (.drainGatedSwap c) s = .next s := by
  rw [exec_drainGatedSwap, execDrainGatedSwap, if_pos (by simp [hm])]

theorem drainGatedSwap_drained (hd : (s.core c).grid.draining = true) (hm : gridMoves s c = true) (hs : strayLink s c = none) :
    exec (.drainGatedSwap c) s = .next (if gridDrained s c then pump (s.modGrid c exchange) c else s) := by
  rw [exec_drainGatedSwap, execDrainGatedSwap, if_neg (by simp [hd, hm]), hs]

theorem drainGatedSwap_stray (hd : (s.core c).grid.draining = true) (hm : gridMoves s c = true) (hs : strayLink s c = some (i, n)) :
    exec (.drainGatedSwap c) s =
      .next (s.haltToken c 0x0AA (0x4000 + 4 * i + n) (linkArc s ⟨c, i, false⟩) (slotOrd s ⟨c, i, false⟩ n)) := by
  rw [exec_drainGatedSwap, execDrainGatedSwap, if_neg (by simp [hd, hm]), hs]

/-! ### Loads (R351) -/

/-- A grid in which a block stands in the shadow plane. -/
def Grid.loaded (c : Nat) (blk : List Byte) (g : Grid) : Grid where
  __ := g
  sh := planeOfBlock c blk
  lstate := 0
  elems := g.elems.filter fun p => decide (p.1 < 128)
  links := g.links.filter fun p => decide (p.1 < 512)

theorem pumpGrid_empty {g : Grid} (h : g.queue = []) (n : Nat) : pumpGrid n g = g := by
  cases n with
  | zero => rfl
  | succ n => simp only [pumpGrid, h]

theorem writePlacement_core (s : State) (c d : Nat) (blk : List Byte) : (writePlacement s c blk).core d = s.core d := rfl

theorem gloadComplete_stays (hm : gridMoves s c = false) : exec (.gloadComplete c) s = .next s := by
  rw [exec_gloadComplete, execGloadComplete]
  exact if_pos (.inr hm)

theorem gloadComplete_loads (hl : (s.core c).grid.lstate = 1) (hm : gridMoves s c = true) (hmk : s.ecc.marks = [])
    (hb : libraryBlock s c (s.core c).grid.loading = some blk) : exec (.gloadComplete c) s =
      .next (pump (writePlacement (s.modGrid c (Grid.loaded c blk)) c blk) c) := by
  rw [exec_gloadComplete, execGloadComplete]
  simp only [hl, hm, ne_eq, not_true_eq_false, Bool.true_eq_false, or_self, if_false, ueAt_of_unmarked hmk, correct_of_unmarked hmk, hb]
  rfl

/-- A loaded grid whose queue is empty stands as it is; nothing else of any core changes. -/
theorem pump_loaded (hq : (s.core c).grid.queue = []) :
    let t := pump (writePlacement (s.modGrid c (Grid.loaded c blk)) c blk) c
    t.core c = { s.core c with grid := (s.core c).grid.loaded c blk } ∧ ∀ d, d ≠ c → t.core d = s.core d := by
  dsimp only
  refine ⟨?_, fun d hd => ?_⟩
  · rw [pump, modGrid, core_modCore_self, writePlacement_core, modGrid, core_modCore_self]
    simp only [pumpGrid_empty (show ((s.core c).grid.loaded c blk).queue = [] from hq)]
  · rw [pump, modGrid, core_modCore_ne _ _ hd, writePlacement_core, modGrid, core_modCore_ne _ _ hd]

theorem gloadComplete_fails (hl : (s.core c).grid.lstate = 1) (hm : gridMoves s c = true)
    (hu : s.ueAt (libraryPlace s c (s.core c).grid.loading) 4096 = some n) : exec (.gloadComplete c) s =
      .next ((s.modGrid c fun g => { g with lstate := 3, lcause := 0x0AB }).haltGraph (s.core c).graph
        { cause := 0x0AB, core := coreName c }) := by
  rw [exec_gloadComplete, execGloadComplete]
  simp only [hl, hm, ne_eq, not_true_eq_false, Bool.true_eq_false, or_self, if_false, hu, modGrid, core_modCore_self]

/-! ### Time-outs (R417, R429) -/

theorem gridWatchdog_halts (hop : wOp (wordAt s ⟨c, k, false⟩) ≠ 0x2C0) (hop' : wOp (wordAt s ⟨c, k, false⟩) ≠ 0x2C1)
    (hw : waitedSecond s ⟨c, k, false⟩ = true) (hp : partialSet s ⟨c, k, false⟩ = true)
    (hn : (linkedSlots (wordAt s ⟨c, k, false⟩)).find? (fun n => (head? s ⟨c, k, false⟩ n).isSome) = some n) :
    exec (.gridWatchdog c k) s =
      .next (s.haltToken c 0x0B9 (0x4000 + 4 * k + n) (linkArc s ⟨c, k, false⟩) (slotOrd s ⟨c, k, false⟩ n)) := by
  rw [exec_gridWatchdog, execGridWatchdog]
  simp only [hop, hop', hw, hp, hn, ne_eq, not_false_eq_true, and_self, if_true, Option.getD_some, gridHalt, slotHalt]

theorem gridWatchdog_stays (hp : partialSet s ⟨c, k, false⟩ = false) : exec (.gridWatchdog c k) s = .next s := by
  rw [exec_gridWatchdog, execGridWatchdog]
  simp only [hp, Bool.false_eq_true, and_false, if_false]

theorem portWaitTimeout_stays (hp : portWaited s ⟨c, k, false⟩ = false) : exec (.portWaitTimeout c k) s = .next s := by
  rw [exec_portWaitTimeout, execPortWaitTimeout]
  simp only [hp, Bool.false_eq_true, and_false, if_false]

theorem portWaitTimeout_halts (hop : wOp (wordAt s ⟨c, k, false⟩) = 0x2C0 ∨ wOp (wordAt s ⟨c, k, false⟩) = 0x2C1)
    (hp : portWaited s ⟨c, k, false⟩ = true) : exec (.portWaitTimeout c k) s =
      .next (s.haltToken c 0x0BA (0x4000 + 4 * k) (linkArc s ⟨c, k, false⟩) (slotOrd s ⟨c, k, false⟩ 0)) := by
  rw [exec_portWaitTimeout, execPortWaitTimeout, if_pos ⟨hop, hp⟩]
  rfl

end

/-- Settles O37: each event by the state it finds its grid in. -/
theorem gridEvents : Obligations.GridEvents := by
  unfold Obligations.GridEvents
  intro s f c k n i sh w v blk
  dsimp only
  simp only [← gridMoves_iff (s := s) (c := c), Bool.not_eq_true]
  refine ⟨elementMark_copy, fun ha hs hk hu ho hi hm => wavefrontSwapUnmarked_swaps ha hs hk hu ho hi hm,
    fun hd hm => ⟨fun hs hdr => ⟨?_, rfl, rfl, rfl, rfl⟩, fun hs hdr => ?_, drainGatedSwap_stray hd hm⟩,
    fun hm => ⟨wavefrontSwapUnmarked_stays hm, drainGatedSwap_stays hm, gloadComplete_stays hm⟩,
    fun hl hm hmk hq hb => ?_, gloadComplete_fails,
    fun hop hop' hw => ⟨gridWatchdog_halts hop hop' hw, gridWatchdog_stays⟩,
    fun _ => portWaitTimeout_stays, portWaitTimeout_halts⟩
  · rw [drainGatedSwap_drained hd hm hs, if_pos hdr]
  · rw [drainGatedSwap_drained hd hm hs, hdr, if_neg Bool.false_ne_true]
  · obtain ⟨hself, hother⟩ := pump_loaded (blk := blk) hq
    refine ⟨_, gloadComplete_loads hl hm hmk hb, ?_⟩
    rw [hself]
    exact ⟨rfl, rfl, rfl, rfl, rfl, hother⟩

end Sys2Proof.Machine
end

section
/-! Events of streams and barriers: O42 (R282, R356, R359, R360, R363, R372, R373, R443). -/

namespace Sys2Proof.Machine

open State

section
variable {s s1 : State} {c e : Nat} {m : StrCmd} {rest : List StrCmd} {ps : List (Nat × Nat)} {bs : List Byte}

/-! ### Ranges of an engine (R61, R68, R198, R204) -/

/-- A range whose bytes all lie here, with no refusal, earlier request or stale replica before it, is reached at once. -/
theorem withPieces_here {q : Nat} (hh : refusedMeanwhile s c q = none) (hk : kittyFirst s ps = none)
    (hs : staleReplica s c ps = false) (hn : farBytes s ps = 0) (x va : Nat) (fail : Nat → State → State)
    (go : List (Nat × Nat) → List Byte → State → State) : withPieces s c q x va (.ok ps) fail go = go ps [] s := by
  simp only [withPieces, hh, hk, hs, Bool.false_eq_true, if_false, withFar, hn, if_true]

/-- What a reached side of a stream does with its pieces (R199). -/
theorem streamReach_here {x : Side} (hh : refusedMeanwhile s c (16 + e) = none) (hk : kittyFirst s ps = none)
    (hs : staleReplica s c ps = false) (hn : farBytes s ps = 0) (f : List (Nat × Nat) → List Byte → State → State) :
    streamReach s c e m x (.ok ps) f = f ps [] (sideHold s c e m x) := by
  rw [streamReach, withPieces_here hh hk hs hn]

theorem streamReach_fault {x : Side} {y : Nat} (f : List (Nat × Nat) → List Byte → State → State) :
    streamReach s c e m x (.fault y) f = s.haltReached (s.core c).graph { streamNote s c e m with cause := y } := rfl

theorem burstLen_le (h : Option Chain) (base p n : Nat) : burstLen h base p n ≤ n :=
  (Nat.min_le_right ..).trans (Nat.sub_le ..)

/-! ### The head of an engine's queue (R350, R356, R359) -/

section
variable (hq : ((s.core c).engine e).queue = m :: rest)
include hq

theorem streamHead_eq : streamHead s c e = some m := by
  rw [streamHead, hq, List.head?_cons]

theorem streamStart_starts (hs : m.started = false) (hk : m.kind < 2) (hok : engineOk (s.core c) = true) :
    exec (.streamStart c e) s =
      .next (modEngine (setHead s c e { m with started := true }) c e fun x => { x with held := [], rows := [] }) := by
  have h3 : (m.kind == 3) = false := by simp; omega
  have h2 : (m.kind == 2) = false := by simp; omega
  rw [exec_streamStart, execStreamStart, streamHead_eq hq]
  simp only [hs, h3, h2, engineRuns_of_ok hok, Bool.not_true, Bool.false_and, Bool.or_self, Bool.false_eq_true, if_false]

theorem streamSourceReleased_eq (hs : m.started = true) (hr : m.released = false) : exec (.streamSourceReleased c e) s =
    .next (if sourceDone m = true then
      modEngine (setHead s c e { m with released := true }) c e fun x => { x with released := x.released + 1 } else s) := by
  rw [exec_streamSourceReleased, execStreamSourceReleased, streamHead_eq hq]
  simp only [hs, hr, Bool.not_false, Bool.true_and]

section
variable (hs : m.started = true) (hok : engineOk (s.core c) = true)
include hs hok

theorem streamBurst_moves (hk : m.kind < 2) : exec (.streamBurst c e) s =
    .next (if m.kind = 0 then readMove s c e m else writeMove s c e m) := by
  rw [exec_streamBurst, execStreamBurst, streamMove, streamHead_eq hq]
  simp only [hs, engineRuns_of_ok hok, Bool.not_true, Bool.false_and, Bool.or_self, Bool.false_eq_true, if_false]
  obtain h | h : m.kind = 0 ∨ m.kind = 1 := by omega
  · simp only [h, if_true]
  · simp only [h, Nat.one_ne_zero, if_false]

end

end

/-! ### Bursts (R187, R359) -/

/-- The memory side of a stream's next burst. -/
def burstSide (m : StrCmd) (st : Bool) : Side where
  xmode := m.xmode
  xwin := m.xwin
  va := streamAddr m.chain m.addr m.pos
  n := burstLen m.chain m.addr m.pos m.bytes
  st := st

section
variable (hl : m.lkind = 1) (hp : m.pos < m.bytes)
include hl hp

theorem readMove_burst : readMove s c e m =
    streamReach s c e m (burstSide m false) (sideReach s c e m (burstSide m false)) fun ps far u =>
      match readPieces c ps far u with
      | (.error a, s1) => s1.ueHalt c a
      | (.ok bs, s1) => readPlace s1 c e m (burstSide m false).n bs := by
  have hn : min m.bytes (burstLen m.chain m.addr m.pos m.bytes) = burstLen m.chain m.addr m.pos m.bytes :=
    Nat.min_eq_right (burstLen_le ..)
  rw [readMove, if_neg (by omega), if_pos hp, readBurst]
  simp only [hn]
  rfl

theorem readMove_reads (hh : refusedMeanwhile s c (16 + e) = none) (hk : kittyFirst s ps = none)
    (hst : staleReplica s c ps = false) (hn : farBytes s ps = 0) (hr : sideReach s c e m (burstSide m false) = .ok ps)
    (hb : readPieces c ps [] (sideHold s c e m (burstSide m false)) = (.ok bs, s1)) :
    readMove s c e m = streamMoved (s1.setTile c (m.loff + m.pos) bs) c e (burstSide m false).n m [] := by
  rw [readMove_burst hl hp, hr, streamReach_here hh hk hst hn]
  simp only [hb, readPlace, hl]

theorem readMove_faults {y : Nat} (hr : sideReach s c e m (burstSide m false) = .fault y) :
    readMove s c e m = s.haltReached (s.core c).graph { streamNote s c e m with cause := y } := by
  rw [readMove_burst hl hp, hr, streamReach_fault]

theorem writeMove_writes (hmk : s.ecc.marks = []) (hh : refusedMeanwhile s c (16 + e) = none) (hk : kittyFirst s ps = none)
    (hst : staleReplica s c ps = false) (hn : farBytes s ps = 0) (hr : sideReach s c e m (burstSide m true) = .ok ps) :
    writeMove s c e m = streamMoved (writePieces ps (s.read (winBase c + m.loff + m.pos) (burstSide m true).n)
      (sideHold s c e m (burstSide m true))) c e (burstSide m true).n m [] := by
  have hr' : sideReach s c e m ⟨m.xmode, m.xwin, streamAddr m.chain m.addr m.pos, burstLen m.chain m.addr m.pos m.bytes, true⟩ =
    .ok ps := hr
  rw [writeMove, if_neg (by omega), if_neg (by omega)]
  simp only [ueAt_of_unmarked hmk, correct_of_unmarked hmk, writeBurst, hr', reduceCtorEq, if_false, streamReach_here hh hk hst hn]
  rfl

end

/-! ### The end of a command (R356) -/

theorem engine_modEngine (f : Engine → Engine) : ((modEngine s c e f).core c).engine e = f ((s.core c).engine e) := by
  rw [modEngine, core_modCore_self, engine_setEngine, if_pos rfl]

/-- A change of one engine of a core changes that core alone. -/
theorem onlyCore_modEngine {t : State} (h : OnlyCore s t c) (f : Engine → Engine) : OnlyCore s (modEngine t c e f) c := by
  obtain ⟨k, rfl⟩ := h
  exact ⟨_, by rw [modEngine, modCore, setCore_setCore]⟩

theorem onlyCore_refl (s : State) (c : Nat) (f : Engine → Engine) : OnlyCore s (modEngine s c e f) c := ⟨_, rfl⟩

/-- The head of an engine's queue is marked visible and counted (R356). -/
def streamSeen (s : State) (c e : Nat) (m : StrCmd) : State :=
  modEngine (setHead s c e { m with visible := true }) c e fun x => { x with visible := x.visible + 1 }

/-- A command that has become visible leaves its queue. -/
theorem streamVisible_leaves (hq : ((s.core c).engine e).queue = m :: rest) (hs : m.started = true) (hr : m.released = true)
    (hok : engineOk (s.core c) = true) (hf : m.follow = false) (hk : m.kind < 2) (hv : m.visible = false)
    (hd : sinkDone s c m = true) : ∃ t, exec (.streamVisible c e) s = .next t ∧ OnlyCore s t c ∧
      (t.core c).engine e = { (s.core c).engine e with queue := rest, visible := ((s.core c).engine e).visible + 1 } := by
  have hk2 : m.kind ≠ 2 := by omega
  refine ⟨streamLeave (streamSeen s c e m) c e m, ?_, ?_⟩
  · rw [exec_streamVisible, execStreamVisible, streamHead_eq hq]
    simp only [hs, hr, engineRuns_of_ok hok, hd, hv, hf, streamSeen, Bool.not_true, Bool.or_self, Bool.false_eq_true, if_false]
  · rw [streamLeave]
    simp only [hk2, if_false]
    refine ⟨onlyCore_modEngine (onlyCore_modEngine (onlyCore_refl ..) _) _, ?_⟩
    simp only [streamSeen, setHead, engine_modEngine, hq, List.drop_succ_cons, List.drop_zero]

theorem streamVisible_stays (hq : ((s.core c).engine e).queue = m :: rest) (hd : sinkDone s c m = false) :
    exec (.streamVisible c e) s = .next s := by
  rw [exec_streamVisible, execStreamVisible, streamHead_eq hq]
  simp only [hd, Bool.not_false, Bool.or_true, if_true]

/-! ### Time-outs (R363, R443) -/

/-- An instruction at the pc of a core has waited a second. -/
theorem waited_second {t0 : Nat} {i : Instr} {p : Instr → Bool} (hc : cpReady s c = true) (hw : (s.core c).waitSince = some t0)
    (ht : t0 + 5 * 1000000000 ≤ s.clock c) (hi : instrAtPc s c = some i) (hp : p i = true) : waited s c 1000000000 p = true := by
  simp only [waited, hc, hw, nanos, ht, decide_true, hi, hp, Bool.and_self]

end

/-! ### Barriers (R282, R372, R373) -/

section
variable {s : State} {c n p seq : Nat} {rest : List (Nat × Nat)} {g : Graph} {i : BarInst}

/-- Entries below a key do not hide the entry of the key. -/
theorem NMap.getD_filter_put {α : Type} (d : α) (m : NMap α) (k : Nat) (x : α) :
    NMap.getD d ((NMap.put m k x).filter fun e => decide (k ≤ e.1)) k = x := by
  induction m with
  | nil => simp [NMap.put, NMap.getD]
  | cons a m ih =>
    obtain ⟨l, v⟩ := a
    rw [NMap.put]
    split
    next => simp [NMap.getD]
    next hne =>
      split
      next => simp [NMap.getD]
      next hlt =>
        rw [List.filter_cons_of_neg (by simp; omega)]
        exact ih

/-- A phase counter that moves on while its phase is full never moves back. -/
theorem countPhases_ge (full : Nat → Bool) (l : List Nat) (a : Nat) :
    a ≤ l.foldl (fun (a : Nat) _ => if full a then a + 1 else a) a := by
  induction l generalizing a with
  | nil => exact Nat.le_refl a
  | cons _ l ih =>
    refine Nat.le_trans ?_ (ih _)
    dsimp only
    split <;> omega

theorem countPhases_stays {full : Nat → Bool} {a : Nat} (h : full a = false) (l : List Nat) :
    l.foldl (fun (a : Nat) _ => if full a then a + 1 else a) a = a := by
  induction l with
  | nil => rfl
  | cons _ l ih => rw [List.foldl_cons, h, if_neg Bool.false_ne_true, ih]

/-- The counts of a barrier with one more arrival of a phase. -/
def arrivalCounts (i : BarInst) (k : Nat) : NMap Nat := NMap.put i.counts k (NMap.getD 0 i.counts k + 1)

/-- Whether a phase of a barrier has all its arrivals, once one more of some phase has come. -/
def phaseFull (i : BarInst) (k j : Nat) : Bool := decide (i.p ≤ NMap.getD 0 (arrivalCounts i k) j)

theorem count_c (i : BarInst) (k : Nat) :
    (i.count k).c = (List.range 17).foldl (fun (a : Nat) _ => if phaseFull i k a then a + 1 else a) i.c := by
  simp only [BarInst.count, phaseFull, arrivalCounts]
  congr

theorem count_counts (i : BarInst) (k : Nat) :
    (i.count k).counts = (arrivalCounts i k).filter fun (j, _) => decide ((i.count k).c ≤ j) := by
  rw [BarInst.count]
  rfl

theorem count_c_ge (i : BarInst) (k : Nat) : i.c ≤ (i.count k).c := by
  rw [count_c]
  exact countPhases_ge ..

/-- The last arrival of the phase that a barrier stands in completes it (R373). -/
theorem count_completes (h : i.p ≤ NMap.getD 0 i.counts i.c + 1) : i.c < (i.count i.c).c := by
  have hf : phaseFull i i.c i.c = true := by
    rw [phaseFull, arrivalCounts, NMap.getD_put_self]
    exact decide_eq_true h
  rw [count_c, List.range_succ_eq_map, List.foldl_cons, hf, if_pos rfl]
  exact countPhases_ge ..

/-- An arrival before the last of its phase is counted, and the phase stays (R373). -/
theorem count_stays (h : NMap.getD 0 i.counts i.c + 1 < i.p) :
    (i.count i.c).c = i.c ∧ NMap.getD 0 (i.count i.c).counts i.c = NMap.getD 0 i.counts i.c + 1 := by
  have hf : phaseFull i i.c i.c = false := by
    rw [phaseFull, arrivalCounts, NMap.getD_put_self]
    exact decide_eq_false (Nat.not_le.2 h)
  have hc : (i.count i.c).c = i.c := by rw [count_c, countPhases_stays hf]
  refine ⟨hc, ?_⟩
  rw [count_counts, hc]
  exact NMap.getD_filter_put ..

/-- The oldest arrival of a core's barrier leaves the core. -/
def arrivalSent (s : State) (c n : Nat) (rest : List (Nat × Nat)) : State :=
  s.modCore c fun k => { k with bars := NMap.put k.bars n { NMap.getD ({} : CoreBar) (s.core c).bars n with onWay := rest } }

/-- An arrival counted at the graph's barrier, unless another package has it (R372). -/
def arrivalCounted (sc : Scope) (c n p : Nat) (g : Graph) : Graph :=
  if barAway g sc then g else g.barCount (barKey n sc c) p

variable (hm : (NMap.getD ({} : CoreBar) (s.core c).bars n).onWay = (p, seq) :: rest)
include hm

theorem barrierArrival_stays (h : releaseHeld s c (NMap.getD ({} : CoreBar) (s.core c).bars n).scope seq true = true ∨
    coreMoves (s.core c) = false ∨ (s.core c).cut = true) : exec (.barrierArrival c n) s = .next s := by
  rw [exec_barrierArrival, execBarrierArrival]
  simp only [hm]
  obtain h | h | h := h <;> simp [h]

theorem barrierArrival_arrives (hr : releaseHeld s c (NMap.getD ({} : CoreBar) (s.core c).bars n).scope seq true = false)
    (hmv : coreMoves (s.core c) = true) (hcut : (s.core c).cut = false) : exec (.barrierArrival c n) s =
      .next ((arrivalSent s c n rest).modGraph (s.core c).graph
        (arrivalCounted (NMap.getD ({} : CoreBar) (s.core c).bars n).scope c n p)) := by
  rw [exec_barrierArrival, execBarrierArrival]
  simp only [hm, hr, hmv, hcut, Bool.not_true, Bool.or_self, Bool.false_eq_true, if_false]
  rfl

omit hm in
/-- The core, the graph and the memory once an arrival has left. -/
theorem arrivalSent_counts {f : Graph → Graph} (hg : s.graph? (s.core c).graph = some g) :
    let t := (arrivalSent s c n rest).modGraph (s.core c).graph f
    (NMap.getD ({} : CoreBar) (t.core c).bars n).onWay = rest ∧ t.graph? (s.core c).graph = some (f g) ∧ t.mem = s.mem := by
  dsimp only
  refine ⟨?_, graph?_modGraph (s := arrivalSent s c n rest) hg f,
    (congrArg State.mem (sansTold_modGraph (arrivalSent s c n rest) (s.core c).graph f) :)⟩
  rw [core_modGraph, arrivalSent, core_modCore_self, NMap.getD_put_self]

end

/-- Settles O42: the head of an engine's queue by its place in the stream; an arrival by what its count makes of the barrier. -/
theorem streamAndBarrierEvents : Obligations.StreamAndBarrierEvents := by
  unfold Obligations.StreamAndBarrierEvents
  refine ⟨?_, ?_⟩
  · intro s c e m rest t0 a u ps s1 bs
    dsimp only
    intro hq
    refine ⟨streamStart_starts hq, fun hs hok => ⟨fun hk hl hp hr hfree hb => ?_, fun hk hl hp hmk hr hfree => ?_,
        fun y hk hl hp hr => ?_⟩, fun hs hr => ⟨fun hd => ?_, fun hd => ?_⟩,
      fun hs hr hok hf hk hv => ⟨streamVisible_leaves hq hs hr hok hf hk hv, streamVisible_stays hq⟩,
      fun hc hw ht => ⟨?_, fun hi => ?_⟩⟩
    · obtain ⟨hh, hkit, hst, hn⟩ := hfree
      rw [streamBurst_moves hq hs hok (by omega), if_pos hk]
      exact congrArg _ (readMove_reads hl hp hh hkit hst hn hr hb)
    · obtain ⟨hh, hkit, hst, hn⟩ := hfree
      rw [streamBurst_moves hq hs hok (by omega), if_neg (by omega)]
      exact congrArg _ (writeMove_writes hl hp hmk hh hkit hst hn hr)
    · rw [streamBurst_moves hq hs hok (by omega), if_pos hk]
      exact congrArg _ (readMove_faults hl hp hr)
    · rw [streamSourceReleased_eq hq hs hr, if_pos hd]
    · rw [streamSourceReleased_eq hq hs hr, hd, if_neg Bool.false_ne_true]
    · simp only [List.forall_mem_cons, List.not_mem_nil, false_implies, implies_true, and_true]
      refine ⟨fun hi => ?_, fun hi => ?_⟩
      · rw [exec_swaitTimeout, execSwaitTimeout, waited_second hc hw ht hi rfl, if_pos rfl]
      · rw [exec_swaitTimeout, execSwaitTimeout, waited_second hc hw ht hi rfl, if_pos rfl]
    · rw [exec_mxwaitTimeout, execMxwaitTimeout, waited_second hc hw ht hi rfl, if_pos rfl]
  · intro s c n p seq rest g i
    dsimp only
    intro hm hg hi
    refine ⟨barrierArrival_stays hm, fun hr hmv hcut hco hsc => ⟨_, barrierArrival_arrives hm hr hmv hcut, ?_⟩,
      fun hr hmv hcut hco => ⟨_, i.count p, barrierArrival_arrives hm hr hmv hcut, ?_⟩⟩
    · obtain ⟨hway, hgr, -⟩ := arrivalSent_counts (n := n) (rest := rest)
        (f := arrivalCounted (NMap.getD ({} : CoreBar) (s.core c).bars n).scope c n p) hg
      refine ⟨hway, ?_⟩
      rw [hgr, Option.bind_some, arrivalCounted, if_pos (by simp [barAway, hco, hsc]), hi]
    · obtain ⟨hway, hgr, hmem⟩ := arrivalSent_counts (n := n) (rest := rest)
        (f := arrivalCounted (NMap.getD ({} : CoreBar) (s.core c).bars n).scope c n p) hg
      have haway : barAway g (NMap.getD ({} : CoreBar) (s.core c).bars n).scope = false := by
        obtain h | h := hco <;> simp [barAway, h]
      refine ⟨hway, ?_, rfl, rfl, count_c_ge i p, ?_, ?_, hmem⟩
      · rw [hgr, Option.bind_some, arrivalCounted, haway, if_neg Bool.false_ne_true, Graph.barCount, hi]
        exact NMap.find_put_self ..
      · rintro rfl h
        exact count_completes h
      · rintro - rfl h
        exact count_stays h

end Sys2Proof.Machine
end
